-- ==== Sys2Proof/Word.lean ====
section
/-! DEFINITION. The word types of the AS-4208 model and the two list shapes that hold sparse state. -/

namespace Sys2Proof

/-- A byte. -/
abbrev Byte := BitVec 8

/-- A 64-bit word: ACC, a commit word, a channel word (spec/06_isa_encoding.md R146). -/
abbrev W64 := BitVec 64

/-- A 32-bit word: XA, XB, most special registers. -/
abbrev W32 := BitVec 32

/-- The bits of one configuration object, in the low bits of 384 (the widest fixed layout of R405 that the model keeps
as one word is the MACsec association's, 384 bits). -/
abbrev ObjWord := BitVec 384

/-- Sparse state by number: a list with rising keys in which an entry equal to its default is not listed. -/
abbrev Store (α : Type) := List (Nat × α)

/-- Bytes by address in the same form (the shape of `Host.Cell`): an unlisted address reads as zero. -/
abbrev Mem := List (Nat × BitVec 8)

end Sys2Proof
end

