-- ==== Sys2Proof/Syntax.lean ====
section
/-! DEFINITION. The commands of the AS-4208: one constructor per row of spec/opcode_table.json, with its operands.

The device is modelled as a block. A command is one of the steps the table lists: an event on a pin, at a port or inside a
block, one syllable issued by a thread, one register write, or one YCP packet. -/

namespace Sys2Proof

/-- A hardware thread by cluster 0–25, core 0–7 and thread 0–15 (spec/05_cores_threads.md R106, R107). -/
structure ThreadId where
  cluster : Nat
  core    : Nat
  thread  : Nat
  deriving DecidableEq, Repr

/-- One syllable issued by a thread: its class and opcode are those of the command, `stop` is the S bit and `fields`
the 22-bit FIELDS of the syllable (spec/06_isa_encoding.md R141). -/
structure Syl where
  cluster : Nat
  core    : Nat
  thread  : Nat
  stop    : Bool
  fields  : BitVec 22
  deriving DecidableEq, Repr

/-- A 16-byte command or reply ring entry as the host wrote it: bytes 0–7, 8–9 and the rest, which should be zero (R400). -/
structure RingEntry where
  addr : BitVec 64
  len  : BitVec 16
  rest : BitVec 48
  deriving DecidableEq, Repr

/-- A 16-byte host ring entry as the host wrote it: bytes 0–7, 8–9, 10–11 and 12–15 (R316, R317). -/
structure HostEntry where
  addr : BitVec 64
  len  : BitVec 16
  mid  : BitVec 16
  last : BitVec 32
  deriving DecidableEq, Repr

/-- The transport a packet comes over (R398). Over PCIe the command ring entry and the oldest posted reply entry stand
in host memory, so the command carries them. In-band, the packet is the one in the oldest mailbox frame. -/
inductive Via where
  | pcie (cmd rpl : RingEntry)
  | inband
  | i2c
  deriving DecidableEq, Repr

/-- A YCP command packet with the header fields that vary (R389): MAGIC and VERSION are right and the opcode is the
command's own. Everything else that can be wrong with a packet is checked as R391 gives. -/
structure Packet where
  via    : Via
  flags  : BitVec 8
  tag    : BitVec 32
  issuer : BitVec 16
  rsvd   : BitVec 16
  serial : BitVec 64
  params : List Byte
  sig    : List Byte
  deriving DecidableEq, Repr

/-- A bit of a line's burst that an upset turned: the line by device address div 64, the DQ and the beat (R327). -/
structure Upset where
  line : Nat
  dq   : Nat
  beat : Nat
  deriving DecidableEq, Repr

/-- One step of a DQS delay of a device of a rank, for reads or for writes (R337). -/
structure DelayMove where
  rank   : Nat
  device : Nat
  write  : Bool
  up     : Bool
  deriving DecidableEq, Repr

/-- What the tracking of one window finds: the delays that move, and whether a step fails (R337). -/
structure Drift where
  moves  : List DelayMove := []
  failed : Bool := false
  deriving DecidableEq, Repr

/-- What start-up meets on one DRAM channel: the geometry that its modules' SPD answers, which a channel that the geometry record names as
soldered does not read, and the training step that failed, if one did (R322, R323, R337, R522). -/
structure ChanFound where
  channel  : Nat
  ranks    : BitVec 2
  width    : BitVec 1
  density  : BitVec 2
  rate     : BitVec 3
  noSensor : Bool
  failed   : Option Nat
  deriving DecidableEq, Repr

/-- What the device meets in the board and in the silicon while a start-up step runs (R514 to R525). -/
structure StepResult where
  /-- Step 2: a fuse block stayed ambiguous after three reads. -/
  ambiguous : Bool := false
  /-- Step 3: arrays that cannot be repaired, each by SOURCE and first failing row, and the rows repaired in each array. -/
  arrays   : List (BitVec 12 × Nat) := []
  repairs  : List (BitVec 12 × Nat) := []
  /-- Step 4: the flash is absent, too small or without SFDP tables; no copy of the security record verifies. -/
  noFlash  : Bool := false
  recordLost : Bool := false
  /-- Step 4: of the two copies of the security record, only the one with the lower SEQ verifies. -/
  recordOlder : Bool := false
  /-- Step 5: no copy of the wear ledger verifies; of its two copies, only the one with the lower SEQ verifies. -/
  ledgerLost : Bool := false
  ledgerOlder : Bool := false
  /-- Step 7: the populated channels. -/
  channels : List ChanFound := []
  /-- Step 8: islands whose SerDes reference PLL did not lock, and lanes that failed calibration. -/
  plls     : List Nat := []
  lanes    : List Nat := []
  /-- Step 9: the self-test image is absent or fails its manifest; clusters that failed the test. -/
  noImage  : Bool := false
  clusters : List Nat := []
  deriving DecidableEq, Repr

/-- The supply rails that R494 to R496 name. -/
inductive Rail where
  | core | sram | sd | sdh | ddr | io18 | io33
  deriving DecidableEq, Repr


/-- One command per row of spec/opcode_table.json, in its order. -/
inductive Instr where
  /-- PWR_GOOD_RISE (R497). PWR_GOOD rises after its glitch filter, and the device leaves the PARTIAL state for RESET while RESET_N is still low. -/
  | pwrGoodRise
  /-- PWR_GOOD_FALL (R497). PWR_GOOD falls; every pin enters its PARTIAL state within 2 µs, DRAM contents are lost and any start-up is abandoned. -/
  | pwrGoodFall
  /-- RESET_N_RISE (R514). The filtered rise of RESET_N with PWR_GOOD high starts the start-up sequence, from fuse load through bring-up. -/
  | resetNRise
  /-- RESET_N_FALL (R515). RESET_N falls; the device enters reset and any start-up in progress is abandoned. -/
  | resetNFall
  /-- PCIE_PERST_N_ASSERT (R498). PCIE_PERST_N goes low and holds the endpoint, its rings and BAR0 in reset; other blocks keep running. -/
  | pciePerstNAssert
  /-- PCIE_PERST_N_DEASSERT (R518). PCIE_PERST_N rises, and the endpoint trains its link and answers configuration requests within 100 ms. -/
  | pciePerstNDeassert
  /-- PCIE_ERROR (R399). The endpoint logs an uncorrectable PCIe error and reports it. -/
  | pcieError
  /-- PPS_IN_EDGE (R47). A PPS_IN rising edge writes PPS_IN_TIME, advances PPS_IN_COUNT and sets PPS_IN_NEW. -/
  | ppsInEdge
  /-- THERM_TRIP (R478). A trip comparator exceeds 125 °C, THERM_TRIP_N asserts within 10 µs, and the trip is reported if the collector runs. -/
  | thermTrip (island : Nat)
  /-- DRAM_CA_PARITY (R368). A DRAM device signals a command or address parity error, and the controller re-issues the command. -/
  | dramCaParity (channel : Nat)
  /-- FRAME_RECEIVE (R33). A lane delivers a received frame; the Port Array checks it, timestamps it and discards it or passes it on with a verdict. -/
  | frameReceive (port : Nat) (wire : List Byte) (fecBad : Bool)
  /-- FIFO_TO_INPUT_BUFFER (R74). A whole frame passes from the MAC receive FIFO into the slice input buffer once the buffer has room for it. -/
  | fifoToInputBuffer (port : Nat)
  /-- PAUSE_QUANTA_EXPIRE (R37). The pause time given by received quanta elapses, and the paused traffic may start frames again. -/
  | pauseQuantaExpire (port : Nat) (cls : Nat)
  /-- PAUSE_REPEAT (R38). Half the quanta time elapses while an ingress account stays above XON, and the port repeats its pause or PFC frame. -/
  | pauseRepeat (port : Nat) (cls : Nat)
  /-- FRAME_TRANSMIT (R43). A port takes a committed frame from the Queue Manager, applies egress actions and MACsec, and transmits it. -/
  | frameTransmit (port : Nat)
  /-- LOCK_LOST (R51). A lane loses lock or alignment, raises EV_LOCK_LOST and holds its adapted coefficients. -/
  | lockLost (lane : Nat)
  /-- LINK_DOWN (R51). A loss of lock lasts 10 µs; the link goes down, EV_LINK_DOWN is raised and remote fault is sent. -/
  | linkDown (port : Nat)
  /-- LINK_UP (R50). A port regains or acquires link and raises EV_LINK_UP, with LAST_OUTAGE recorded. -/
  | linkUp (port : Nat)
  /-- SURGE_HOLD_EXPIRE (R50). The 100 ms coefficient hold expires and the lane begins a full acquisition. -/
  | surgeHoldExpire (lane : Nat)
  /-- REMOTE_FAULT (R52). The link partner signals remote fault, and REMOTE_FAULT and EV_REMOTE_FAULT set. -/
  | remoteFault (port : Nat)
  /-- FEC_DEGRADE (R52). At the end of a 1 ms window, corrected symbols above FEC_DEGRADE_TH set EV_FEC_DEGRADE. -/
  | fecDegrade (port : Nat) (corrected : Nat)
  /-- PPS_OUT_EDGE (R47). PPS_OUT rises at each whole second of device time, with its configured width. -/
  | ppsOutEdge
  /-- TOD_TX_MESSAGE (R47). 10 ms after a PPS_OUT edge, TOD_TX sends the letter T, the 48-bit seconds in hexadecimal and a carriage return. -/
  | todTxMessage
  /-- LANE_RECAL_DONE (R48). A lane recalibration ends and its completion reports DONE, CANCELLED or HW_FAULT. -/
  | laneRecalDone (lane : Nat) (converged : Bool)
  /-- SLICE_PARSE_START (R59). A slice starts a frame's parse once a hand-off place is free, and walks, classifies and stamps it. -/
  | sliceParseStart (slice : Nat)
  /-- CELL_REQUEST (R290). A slice requests a pool 0 cell for a frame, and the request is granted or waits under the account rules. -/
  | cellRequest (slice : Nat)
  /-- CELL_WAIT_EXPIRE (R73). A frame has waited longer than CELL_WAIT; it is discarded and its descriptor and cells are freed. -/
  | cellWaitExpire (slice : Nat)
  /-- MARKER_AT_SLICE (R66). A commit marker reaches a slice, and later frames are stamped with the new Accord. -/
  | markerAtSlice (slice : Nat)
  /-- SLICE_COPY_RELEASE (R67). The last frame stamped with the old Accord leaves the slice, and the old copy is released for staged writes. -/
  | sliceCopyRelease (slice : Nat)
  /-- DESCRIPTOR_ACCEPT (R79). The Sequencer accepts a descriptor into the lowest free record and places it in its domain. -/
  | descriptorAccept (slice : Nat)
  /-- TASK_ACCEPT (R278). The Sequencer accepts a task into a record, in its domain when it is DOMAINED. -/
  | taskAccept
  /-- ATOMIZER_DISPATCH (R103). On a dispatch lane the Atomizer chooses a queued record, a cluster, a core and a thread, and sends the dispatch. -/
  | atomizerDispatch (lane : Nat)
  /-- DISPATCH_AGE_PROMOTE (R103). A queued record's wait reaches DISPATCH_AGE and it is ranked at priority 7. -/
  | dispatchAgePromote (record : Nat)
  /-- THREAD_DISPATCH (R111). A dispatch reaches the cluster; the thread's registers, PC, pending word and priority are set, and the dispatch record is written. -/
  | threadDispatch (cluster : Nat)
  /-- HEADER_BYTES_ARRIVE (R23). Further header window bytes stream into the frame, releasing bundles and stores that wait on them. -/
  | headerBytesArrive (thread : ThreadId)
  /-- CROSSING_REFUSED (R19). A crossing refused at an island in reset returns to its sender, which treats it as its chapter gives. -/
  | crossingRefused (src : Nat) (dst : Nat)
  /-- ORD_REQUEST (R83). An ORD request reaches I26 and is granted once every earlier record of the domain has released the point. -/
  | ordRequest (cluster : Nat)
  /-- ORD_GRANT (R89). An ordered-point grant reaches the waiting thread, which then issues its next bundle. -/
  | ordGrant (cluster : Nat)
  /-- REL_TOKEN (R84). A release of Pk reaches I26 and releases that point and every lower one for the record. -/
  | relToken (cluster : Nat)
  /-- EFFECT_TOKEN (R90). An EFFECT token reaches I26, which clears SAFE and acknowledges. -/
  | effectToken (cluster : Nat)
  /-- EFFECT_ACK (R90). The Sequencer's acknowledgement reaches the core, which then issues the held first effect. -/
  | effectAck (cluster : Nat)
  /-- COMMIT_ACCEPT (R86). I26 accepts a COMMIT, releases P0 to P2 and takes the outcome, resolving DROP and CONSUME at once. -/
  | commitAccept (cluster : Nat)
  /-- OUTCOME_HANDOVER (R86). Once every earlier record of its domain is resolved, a COMMITTED outcome is handed to the Queue Manager. -/
  | outcomeHandover (record : Nat)
  /-- THREAD_FREE_TOKEN (R88). A THREAD_FREE token reaches the Atomizer and raises the cluster's free-thread count. -/
  | threadFreeToken (cluster : Nat)
  /-- FAULT_TOKEN (R92). A FAULT token reaches I26, and the record is treated by its domain class policy. -/
  | faultToken (cluster : Nat)
  /-- RESET_NOTICE (R92). A cluster about to reset sends RESET_NOTICE, and I26 applies policy to each of its running records, one per cycle. -/
  | resetNotice (cluster : Nat)
  /-- POISON_TOKEN (R97). A POISON token reaches I26 and sets POISON on the record. -/
  | poisonToken (cluster : Nat)
  /-- HOLD_EXPIRED (R94). A record stays HELD for HOLD_LIMIT and is resolved as a drop. -/
  | holdExpired (record : Nat)
  /-- DRAIN_BOUND_EXPIRE (R98). DRAIN_TIME reaches DRAIN_BOUND; records of the draining Accord are struck and the tag retires. -/
  | drainBoundExpire
  /-- LOAD_LAND (R185). A load's data lands in its destination register or frame word and clears its pending mark. -/
  | loadLand (thread : ThreadId) (reg : BitVec 2)
  /-- STORE_COMPLETION (R256). A far store, aperture store or CNT completes; when the thread's count falls to zero, STORE_DONE sets. -/
  | storeCompletion (thread : ThreadId)
  /-- HELPER_RESULT (R187). A helper result lands in ACC and FL and sets HELPER_DONE. -/
  | helperResult (thread : ThreadId) (checkFail : Bool)
  /-- BRANCH_RESOLVE (R117). A branch resolves 2 cycles after issue; its speculative bundles stand or are squashed. -/
  | branchResolve (thread : ThreadId)
  /-- WFE_WAKE (R124). An event satisfies a waiting thread's WFE mask, and the masked pending bits are returned in ACC. -/
  | wfeWake (thread : ThreadId)
  /-- THREAD_TIMER_EXPIRE (R122). A thread's timer count reaches zero and sets TIMER. -/
  | threadTimerExpire (thread : ThreadId)
  /-- CHC_UNBLOCK (R127). Room or credit appears on a channel, and a blocked sender's message is accepted in order. -/
  | chcUnblock (cluster : Nat) (remote : Bool) (position : Nat) (channel : Nat)
  /-- REMOTE_MESSAGE_ARRIVE (R129). A remote channel message arrives at the receiving cluster and becomes visible whole. -/
  | remoteMessageArrive (src : Nat) (dst : Nat)
  /-- CREDIT_RETURN (R129). Credit returned by a CHR at the receiver reaches the sending cluster. -/
  | creditReturn (src : Nat) (dst : Nat)
  /-- QUIESCENT (R132). A cluster has been quiet for 2^QUIET_LOG2 cycles and reports QUIESCENT once. -/
  | quiescent (cluster : Nat)
  /-- NMI_ENTRY (R134). The designated thread takes an NMI, saves its state and starts at NMI_VECTOR. -/
  | nmiEntry (thread : ThreadId)
  /-- TRAP_ENTRY (R174). Once outstanding results have landed, a thread saves its state, sets IN_TRAP and starts at EMU_VECTOR. -/
  | trapEntry (thread : ThreadId)
  /-- LOCK_GRANT_ARRIVE (R199). A queued lock request is granted and LOCK_GRANT sets in the thread's pending word. -/
  | lockGrantArrive (group : Nat) (cluster : Nat)
  /-- THREAD_HALT (R135). A debugger halt takes effect at the thread's next non-speculative bundle boundary. -/
  | threadHalt (thread : ThreadId)
  /-- THREAD_ABORT (R99). An abort stops the thread at its next bundle boundary and counts as a reset of it as a master. -/
  | threadAbort (thread : ThreadId)
  /-- MOV (R179). ACC takes the operand, and Z and N are set. -/
  | mov (y : Syl)
  /-- ADD (R179). ACC := ACC + operand, with carry and overflow. -/
  | add (y : Syl)
  /-- ADC (R179). ACC := ACC + operand + C. -/
  | adc (y : Syl)
  /-- SUB (R179). ACC := ACC − operand, with C meaning no borrow. -/
  | sub (y : Syl)
  /-- SBC (R179). ACC := ACC − operand − (1 − C). -/
  | sbc (y : Syl)
  /-- RSB (R179). ACC := operand − ACC. -/
  | rsb (y : Syl)
  /-- NEG (R179). ACC := 0 − ACC. -/
  | neg (y : Syl)
  /-- CMP (R179). Flags are set from ACC − operand, and no register is written. -/
  | cmp (y : Syl)
  /-- AND (R179). ACC := ACC AND operand. -/
  | and (y : Syl)
  /-- OR (R179). ACC := ACC OR operand. -/
  | or (y : Syl)
  /-- XOR (R179). ACC := ACC XOR operand. -/
  | xor (y : Syl)
  /-- ANDN (R179). ACC := ACC AND NOT operand. -/
  | andn (y : Syl)
  /-- TST (R179). Flags are set from ACC AND operand. -/
  | tst (y : Syl)
  /-- SHL (R181). ACC is shifted left by operand[6:0], with C as the table gives. -/
  | shl (y : Syl)
  /-- SHR (R181). ACC is shifted right with zero fill. -/
  | shr (y : Syl)
  /-- SAR (R181). ACC is shifted right with sign fill. -/
  | sar (y : Syl)
  /-- ROL (R181). ACC is rotated left by n mod 64. -/
  | rol (y : Syl)
  /-- ROR (R181). ACC is rotated right by n mod 64. -/
  | ror (y : Syl)
  /-- MUL (R182). ACC := the low 64 bits of the product, with unsigned and signed overflow in C and V. -/
  | mul (y : Syl)
  /-- MULH (R179). ACC := the high 64 bits of the signed product. -/
  | mulh (y : Syl)
  /-- MULHU (R179). ACC := the high 64 bits of the unsigned product. -/
  | mulhu (y : Syl)
  /-- MIN (R179). ACC := the signed lesser of ACC and the operand. -/
  | min (y : Syl)
  /-- MAX (R179). ACC := the signed greater of ACC and the operand. -/
  | max (y : Syl)
  /-- MINU (R179). ACC := the unsigned lesser of ACC and the operand. -/
  | minu (y : Syl)
  /-- MAXU (R179). ACC := the unsigned greater of ACC and the operand. -/
  | maxu (y : Syl)
  /-- SEXT (R179). ACC's low w bits are sign-extended. -/
  | sext (y : Syl)
  /-- ZEXT (R179). ACC's low w bits are zero-extended. -/
  | zext (y : Syl)
  /-- BSWAP (R179). The bytes of ACC are reversed. -/
  | bswap (y : Syl)
  /-- POPC (R179). ACC := the count of its 1 bits. -/
  | popc (y : Syl)
  /-- CLZ (R179). ACC := the count of leading zeros, or 64. -/
  | clz (y : Syl)
  /-- CTZ (R179). ACC := the count of trailing zeros, or 64. -/
  | ctz (y : Syl)
  /-- XMOVA (R180). XA := operand[31:0]. -/
  | xmova (y : Syl)
  /-- XMOVB (R180). XB := operand[31:0]. -/
  | xmovb (y : Syl)
  /-- XADDA (R180). XA := XA + operand[31:0] modulo 2³². -/
  | xadda (y : Syl)
  /-- XADDB (R180). XB := XB + operand[31:0] modulo 2³². -/
  | xaddb (y : Syl)
  /-- CUSTOM_A (R206). A decode table entry's micro-operations execute step by step and take effect for the thread all at once. -/
  | customA (y : Syl) (n : BitVec 4)
  /-- CUSTOM_M (R206). A custom M-class syllable executes decode table entries 16 to 31 as micro-operations. -/
  | customM (y : Syl) (n : BitVec 4)
  /-- LD (R184). A near load into REG is issued with zero extension; its data lands later. -/
  | ld (y : Syl)
  /-- LDS (R184). A near load into ACC is issued with sign extension. -/
  | lds (y : Syl)
  /-- ST (R184). The low SIZE bytes of REG are stored to near memory. -/
  | st (y : Syl)
  /-- FLD (R184). A far load is issued at XA[15:0]:XB with zero extension. -/
  | fld (y : Syl)
  /-- FLDS (R184). A far load into ACC is issued with sign extension. -/
  | flds (y : Syl)
  /-- FST (R186). A far store is issued at the non-speculative point and counts toward STORE_DONE. -/
  | fst (y : Syl)
  /-- CNT (R186). ACC is added to an 8-byte aperture counter in the bank's slice. -/
  | cnt (y : Syl)
  /-- LDP (R184). ACC takes a syllable of the thread's own program bank. -/
  | ldp (y : Syl)
  /-- LKP (R217). H0 looks up the key at XA in a table and returns the first 8 bytes of the result, or the default. -/
  | lkp (y : Syl)
  /-- LKPW (R217). H0 looks up a key and also writes the whole result at XB. -/
  | lkpw (y : Syl)
  /-- INS (R217). H0 inserts or replaces a table entry from a program. -/
  | ins (y : Syl)
  /-- DEL (R217). H0 deletes a table entry from a program. -/
  | del (y : Syl)
  /-- CRC32 (R218). H1 computes CRC-32 over LEN bytes at XA. -/
  | crc32 (y : Syl)
  /-- CRC32C (R218). H1 computes CRC-32C over LEN bytes at XA. -/
  | crc32c (y : Syl)
  /-- TPLZ (R218). H1 computes a 32-bit Toeplitz hash. -/
  | tplz (y : Syl)
  /-- SIPH (R218). H1 computes SipHash-2-4 of the data. -/
  | siph (y : Syl)
  /-- SUM (R220). H2 computes the one's complement sum of LEN bytes. -/
  | sum (y : Syl)
  /-- INC16 (R220). H2 updates a checksum incrementally for a changed 16-bit word. -/
  | inc16 (y : Syl)
  /-- INC32 (R220). H2 updates a checksum incrementally for a changed 32-bit field. -/
  | inc32 (y : Syl)
  /-- EXT (R221). H3 extracts a bit field of ACC. -/
  | ext (y : Syl)
  /-- BFX_INS (R221). H3 inserts the low bits of XA:XB into a field of ACC. -/
  | bfxIns (y : Syl)
  /-- EXTW (R221). H3 extracts a field from 8 big-endian bytes at XB. -/
  | extw (y : Syl)
  /-- DIVS (R222). H4 returns the signed quotient. -/
  | divs (y : Syl)
  /-- DIVU (R222). H4 returns the unsigned quotient. -/
  | divu (y : Syl)
  /-- REMS (R222). H4 returns the signed remainder. -/
  | rems (y : Syl)
  /-- REMU (R222). H4 returns the unsigned remainder. -/
  | remu (y : Syl)
  /-- NOW (R223). H5 returns the cluster's device time in ns. -/
  | now (y : Syl)
  /-- NOWF (R223). H5 returns the low ns of device time together with its fraction. -/
  | nowf (y : Syl)
  /-- TADD (R223). H5 adds a signed interval to a time. -/
  | tadd (y : Syl)
  /-- TDIFF (R223). H5 returns now − ACC. -/
  | tdiff (y : Syl)
  /-- TPAST (R223). H5 returns now, with C set when now is at or after ACC. -/
  | tpast (y : Syl)
  /-- TSEC (R223). H5 returns ACC div 10⁹. -/
  | tsec (y : Syl)
  /-- TNSEC (R223). H5 returns ACC mod 10⁹. -/
  | tnsec (y : Syl)
  /-- RDC (R225). H6 copies packet cell bytes to near memory. -/
  | rdc (y : Syl)
  /-- WRC (R225). H6 writes near bytes into a packet's cells in place. -/
  | wrc (y : Syl)
  /-- HEAD (R226). H6 sets a packet's head edit from window bytes placed in fresh head cells. -/
  | head (y : Syl)
  /-- TRIM (R226). H6 sets a packet's tail edit. -/
  | trim (y : Syl)
  /-- PFREE (R225). H6 frees a CONSUMEd packet's cells, head cells and descriptor. -/
  | pfree (y : Syl)
  /-- BALLOC (R288). H6 allocates a buffer under the pool selection rules. -/
  | balloc (y : Syl)
  /-- BFREE (R225). H6 frees a buffer. -/
  | bfree (y : Syl)
  /-- BRD (R225). H6 copies buffer bytes to near memory. -/
  | brd (y : Syl)
  /-- BWR (R225). H6 writes near bytes into a buffer. -/
  | bwr (y : Syl)
  /-- KEXP (R229). H7 expands an AES-256 key schedule. -/
  | kexp (y : Syl)
  /-- GCTR (R229). H7 encrypts one counter block, XORs it into the data and advances the counter. -/
  | gctr (y : Syl)
  /-- GHM (R229). H7 performs one GHASH multiplication. -/
  | ghm (y : Syl)
  /-- SHB (R229). H7 compresses one SHA-512 block into the state. -/
  | shb (y : Syl)
  /-- BR (R188). A conditional branch to TARGET is issued and predicted not taken. -/
  | br (y : Syl)
  /-- BRI (R188). A conditional branch to XA[15:0] is issued. -/
  | bri (y : Syl)
  /-- CALL (R188). The return address is stored in a link slot, and control passes to TARGET. -/
  | call (y : Syl)
  /-- RET (R188). Control returns through a link slot. -/
  | ret (y : Syl)
  /-- BHB (R189). The branch is taken when the named helper is busy for this thread or full. -/
  | bhb (y : Syl)
  /-- RTT (R176). PC and FL are restored from the trap save area, and IN_TRAP clears. -/
  | rtt (y : Syl)
  /-- NOP (R188). Nothing is done. -/
  | nop (y : Syl)
  /-- WFE (R120). The thread waits until its pending word meets the mask, or completes at once when it already does. -/
  | wfe (y : Syl)
  /-- SEV (R123). A software event is raised in one thread, or in every other thread of the cluster. -/
  | sev (y : Syl)
  /-- CHS (R126). ACC is appended to the thread's staging buffer. -/
  | chs (y : Syl)
  /-- CHC (R126). The staged words are sent as one message on a local or remote channel, blocking until there is room or credit. -/
  | chc (y : Syl)
  /-- CHR (R128). The oldest message on a channel is removed into the frame, or Z is set when the channel is empty. -/
  | chr (y : Syl)
  /-- ORD (R191). The thread waits at ordered point Pk, or completes at once when the point is already passed. -/
  | ord (y : Syl)
  /-- REL (R192). A release of Pk is sent to I26 without waiting. -/
  | rel (y : Syl)
  /-- COMMIT (R193). The thread sends its outcome and commit word to I26 and becomes free. -/
  | commit (y : Syl)
  /-- LKA (R199). A lock acquire is sent; it is granted at once or queued. -/
  | lka (y : Syl)
  /-- LKT (R199). A lock try is sent; it is granted or returns BUSY. -/
  | lkt (y : Syl)
  /-- LKR (R199). A lock release, or the withdrawal of a queued request, is sent. -/
  | lkr (y : Syl)
  /-- CAS32 (R201). A 32-bit compare-and-swap is performed at the slice. -/
  | cas32 (y : Syl)
  /-- CAS64 (R201). A 64-bit compare-and-swap with the new value from frame 0x568 is performed. -/
  | cas64 (y : Syl)
  /-- FADD (R201). An atomic fetch-and-add is performed. -/
  | fadd (y : Syl)
  /-- SWAP (R201). An atomic swap is performed. -/
  | swap (y : Syl)
  /-- FAND (R201). An atomic fetch-and-AND is performed. -/
  | fand (y : Syl)
  /-- FOR (R201). An atomic fetch-and-OR is performed. -/
  | forr (y : Syl)
  /-- BINC (R201). An atomic bounded increment is performed. -/
  | binc (y : Syl)
  /-- LOCK_REQUEST (R258). A lock request or release reaches its slice and is granted, queued, refused or applied. -/
  | lockRequest (cluster : Nat) (bank : Nat)
  /-- ATOMIC_AT_SLICE (R253). An atomic reaches its slice and is performed on the word with no intervening access. -/
  | atomicAtSlice (cluster : Nat) (island : Nat)
  /-- APERTURE_ACCESS (R254). An aperture load, store or CNT reaches its bank's slice and takes effect in master order. -/
  | apertureAccess (cluster : Nat) (bank : Nat)
  /-- FAR_ACCESS (R255). A far load or store reaches its home channel and is accepted, forwarded or served. -/
  | farAccess (cluster : Nat) (channel : Nat)
  /-- MASTER_RESET (R262). A MASTER_RESET token reaches a slice, which scans its lock words to withdraw requests and free and mark the master's locks. -/
  | masterReset (src : Nat) (bank : Nat)
  /-- LOCK_LEASE_EXPIRE (R265). A host lock's lease ends; the lock is freed and marked abandoned. -/
  | lockLeaseExpire (lock : Nat)
  /-- LOOKUP (R241). An H0 lookup reaches its banks, reads the tag rows and then the slot row, and returns the result or the default. -/
  | lookup (thread : ThreadId)
  /-- TABLE_WRITE (R242). A write passes a table's write sequencer and commits when its tag row write is accepted. -/
  | tableWrite (thread : ThreadId)
  /-- RELOCATION (R243). The background engine relocates entries out of full buckets along cuckoo paths. -/
  | relocation (table : Nat)
  /-- VERSIONED_COPY (R238). Once a copy of a versioned DIRECT table is free of both live Accords, the engine copies it and applies the staged writes. -/
  | versionedCopy (table : Nat)
  /-- BANK_SCRUB (R251). Each SCRUB_PERIOD a bank reads every row, writes back corrections and repairs rows. -/
  | bankScrub (bank : Nat) (corrected : List Nat) (damaged : List Nat)
  /-- MACERATION_DONE (R247). A Maceration finishes building the staged structure and completes with DONE or NO_SPACE. -/
  | macerationDone (table : Nat)
  /-- RESIZE_DONE (R249). The migration cursor passes the last bucket and the resize completes. -/
  | resizeDone (table : Nat)
  /-- BANK_REPLACE_DONE (R250). A bank replacement finishes its copy and compare, and rewrites the bank map or fails. -/
  | bankReplaceDone (bank : Nat) (mismatch : Bool)
  /-- SWEEP_DONE (R237). The retirement sweep completes, freeing unseen entries and restamping BORN. -/
  | sweepDone
  /-- TICK (R274). A scheduler tick falls, and every task due at or before it moves to its ready queue. -/
  | tick
  /-- TASK_OFFER (R276). The scheduler offers the oldest acceptable highest-priority READY task to I26, stamping it and making it DISPATCHED. -/
  | taskOffer
  /-- TASK_RESTAMP (R277). A task returned for a stale stamp, or refused, goes back to the head of its ready queue. -/
  | taskRestamp
  /-- MARKER_AT_TASK_SCHEDULER (R277). The commit marker reaches I42, and later tasks are stamped with the new Accord. -/
  | markerAtTaskScheduler
  /-- TASK_RUN_END (R275). A task's record is resolved, and the task re-arms, goes DELAYED or becomes IDLE. -/
  | taskRunEnd
  /-- CACHE_REFILL (R286). A free-ring cache that fell to 32 entries finishes reading the next 64 entries. -/
  | cacheRefill (pool : Nat) (cache : Nat)
  /-- POOL_ENABLE_DONE (R284). A pool's ring has filled with every buffer, and the enable write returns DONE. -/
  | poolEnableDone (pool : Nat)
  /-- LEAK_SWEEP (R293). A sweep visits every state word and marks buffers and packets held longer than LEAK_AGE. -/
  | leakSweep
  /-- PACKET_BUFFER_OP (R228). An H6 operation reaches I41 and takes effect on its handle in the order received. -/
  | packetBufferOp (thread : ThreadId)
  /-- QM_HANDOVER (R301). The Queue Manager checks a handed-over packet, takes its edits, applies admission and links it. -/
  | qmHandover
  /-- H2D_RING_FRAME (R317). A host-to-device engine reads a posted entry and frame, and hands it to admission or sets ERR. -/
  | h2dRingFrame (ring : Nat) (entry : HostEntry) (frame : List Byte) (dmaError : Bool)
  /-- SCHED_CHOICE (R307). A scheduling engine chooses a packet for a port down the tree, and charges deficits and buckets. -/
  | schedChoice (port : Nat)
  /-- BUCKET_CREDIT (R309). At least every 8 µs a bucket is credited by rate × elapsed time and clipped. -/
  | bucketCredit (level : Nat) (node : Nat)
  /-- SPILL_REFILL (R313). When on-chip depth falls below SPILL_ON / 2, spilled records are read back into cells and linked. -/
  | spillRefill (queue : Nat)
  /-- D2H_DELIVER (R316). A packet chosen under L0 40 is written into its ring's posted entries. -/
  | d2hDeliver (ring : Nat) (entries : List HostEntry) (dmaError : Bool)
  /-- RECIRC_SEND (R318). The recirculation port sends a frame into a slice input buffer once there is room. -/
  | recircSend
  /-- MARKER_AT_QM (R319). The commit marker reaches I36, and the new queue, node, port and profile objects take effect. -/
  | markerAtQm
  /-- DRAM_COMMAND_SLOT (R332). A free command slot on a channel issues refresh, an aged request, a class-ranked request or maintenance work. -/
  | dramCommandSlot (channel : Nat)
  /-- REFRESH_DUE (R334). A refresh operation falls due for a rank and is performed or postponed as debt. -/
  | refreshDue (channel : Nat) (rank : Nat)
  /-- DRAM_TEMP_READ (R336). Every 16 ms a module sensor is read and the hot regime is entered or left. -/
  | dramTempRead (channel : Nat) (temp : Int)
  /-- DRAM_TEMP_LOST (R336). A sensor gives no reading for 64 ms, and the channel runs hot. -/
  | dramTempLost (channel : Nat)
  /-- PATROL_SCRUB (R330). The patrol scrub reads and corrects lines, and counts corrected symbols per device. -/
  | patrolScrub (channel : Nat) (before after : List Upset)
  /-- DRIFT_TRACK (R337). In each 320-cycle window each DQS delay moves by at most one step. -/
  | driftTrack (channel : Nat) (found : Drift)
  /-- ZQ_SHORT (R337). ZQ short calibration is issued to each rank every 128 ms. -/
  | zqShort (channel : Nat) (failed : Bool)
  /-- INIT_SWEEP_DONE (R338). A channel's initialisation sweep completes and is reported to the Steward. -/
  | initSweepDone (channel : Nat)
  /-- DECANT_COPY_OUT_DONE (R339). The last chunk has been copied out; the channel becomes DECANTED and retrains. -/
  | decantCopyOutDone
  /-- DECANT_DONE (R339). The copy-back ends, the reserve is remapped, and DECANT completes. -/
  | decantDone
  /-- ACCORD_PREPARE_DONE (R351). Preparation of every copy ends, and the Steward sends the ARM token. -/
  | accordPrepareDone (failed : List Nat)
  /-- COMMIT_POINT (R352). I26 takes ARM; the staged tag becomes current and markers are sent. -/
  | commitPoint
  /-- MARKER_RETURN (R352). A slice's or I42's marker returns to I26, and its MARKERS bit clears. -/
  | markerReturn (island : Nat)
  /-- ACCORD_RETIRE (R356). MARKERS and INFLIGHT reach 0, the draining tag retires, and RETIRE tokens are sent. -/
  | accordRetire
  /-- CLUSTER_BANK_FREE (R357). Once no thread runs under the retired tag, a cluster frees its old bank, decode copy and aperture map. -/
  | clusterBankFree (cluster : Nat)
  /-- CONFIG_DIGEST_DONE (R449). The configuration digest of the new Accord is completed within 200 ms of the commit point. -/
  | configDigestDone
  /-- ACCORD_DISCARD_DONE (R349). The discard has restored the staged copies and reports DONE. -/
  | accordDiscardDone
  /-- SRAM_SCRUB (R360). Every on-chip array scrubs its rows once per SRAM_SCRUB and repairs rows live. -/
  | sramScrub (source : BitVec 12) (corrected : List Nat) (damaged : List Nat)
  /-- CLUSTER_DRAINED (R362). No thread of a draining cluster runs a record; it becomes DRAINED and completes with DONE. -/
  | clusterDrained (cluster : Nat)
  /-- CLUSTER_DRAIN_TIMEOUT (R362). A drain's wait ends first, and it completes with BUSY while the cluster stays DRAINING. -/
  | clusterDrainTimeout (cluster : Nat)
  /-- CLUSTER_RESET_DONE (R362). A commanded cluster reset ends and completes with the cluster's state. -/
  | clusterResetDone (cluster : Nat)
  /-- SPARE_CHECK_DONE (R362). The self-test ends, the banks are reloaded, and the cluster becomes SPARE or UNCHECKED. -/
  | spareCheckDone (cluster : Nat) (pass : Bool)
  /-- STEWARD_RESUME (R364). The restarted firmware resumes command service and completes operations that finished meanwhile. -/
  | stewardResume
  /-- FAULT_MESSAGE_ACCEPT (R378). The collector accepts a message, gives SEQ, captures it, escalates it, writes the Sillage and applies the reaction. -/
  | faultMessageAccept
  /-- BLOCK_RESET_RELEASE (R376). An island held 1 µs in block reset is released and returns to service as its chapter gives. -/
  | blockResetRelease (island : Nat)
  /-- CHIP_RESET (R377). Once its MSI-X write has left, or after 2 µs, the device resets every island and runs start-up from fuse load. -/
  | chipReset
  /-- OUTBOX_OVERRUN (R370). Room appears in an outbox that discarded messages, and an overrun message is sent. -/
  | outboxOverrun (island : Nat)
  /-- FLIT_RESEND (R371). A receiver rejects an uncorrectable flit, and the sender re-sends it. -/
  | flitResend (src : Nat) (dst : Nat)
  /-- ERR_N_PULSE_END (R383). The 20 µs pulse ends, and ERR_N rises unless HOLD is 1. -/
  | errNPulseEnd
  /-- SILLAGE_COPY (R385). An entry is copied to the DRAM extension in SEQ order. -/
  | sillageCopy
  /-- SERIAL_RESERVATION_WRITE (R396). Before HIGH nears its reservation, the Steward writes a new reservation to boot flash. -/
  | serialReservationWrite (issuer : Nat)
  /-- CMD_TAIL (R415). A write of the command ring tail posts entries, or has no effect when it would overfill the ring. -/
  | cmdTail (value : BitVec 32)
  /-- RPL_TAIL (R415). A write of the reply ring tail posts reply entries. -/
  | rplTail (value : BitVec 32)
  /-- D2H_TAIL (R415). A write of a device-to-host ring tail posts buffers. -/
  | d2hTail (ring : Nat) (value : BitVec 32)
  /-- H2D_TAIL (R415). A write of a host-to-device ring tail posts frames. -/
  | h2dTail (ring : Nat) (value : BitVec 32)
  /-- CMD_RING_CTRL (R414). A write enables, disables or sizes the command ring, and clears HALTED on ENABLE 0. -/
  | cmdRingCtrl (value : BitVec 32)
  /-- RPL_RING_CTRL (R414). A write enables, disables or sizes the reply ring. -/
  | rplRingCtrl (value : BitVec 32)
  /-- FAULT_CAUSE (R416). A write of 1 clears fault class cause bits. -/
  | faultCause (value : BitVec 32)
  /-- EVENT_CAUSE (R416). A write of 1 clears event cause bits. -/
  | eventCause (value : BitVec 32)
  /-- RING_CAUSE_D2H (R416). A write of 1 clears device-to-host ring cause bits. -/
  | ringCauseD2h (value : BitVec 64)
  /-- RING_CAUSE_H2D (R416). A write of 1 clears host-to-device ring cause bits. -/
  | ringCauseH2d (value : BitVec 64)
  /-- BAR0_WRITE (R414). A write of a BAR0 register with no behaviour of its own takes its fields. -/
  | bar0Write (offset : Nat) (size : Nat) (value : BitVec 64)
  /-- BAR2_WRITE (R408). A BAR2 write at the window cursor is accepted as stream bytes, or is discarded and sets ERROR. -/
  | bar2Write (window : Nat) (offset : Nat) (bytes : List Byte) (contiguous : Bool)
  /-- BAR2_READ (R409). A BAR2 read at the cursor returns stream bytes and advances the cursor. -/
  | bar2Read (window : Nat) (offset : Nat) (length : Nat)
  /-- WINDOW_IDLE_EXPIRE (R412). A window's idle limit passes, and it is aborted. -/
  | windowIdleExpire (window : Nat)
  /-- I2C_REPLY_READ (R402). An I2C 0x02 read returns STATE, RLEN and the reply, and reading to the end clears it. -/
  | i2cReplyRead
  /-- SYS_IDENTITY (R422). Returns DEV_ID, firmware version, serial and identity key. -/
  | sysIdentity (pkt : Packet)
  /-- SYS_SESSION (R422). Returns the slot's HIGH, window, control word, pending count and device time. -/
  | sysSession (pkt : Packet)
  /-- SYS_TIME_READ (R422). Returns device time and the trim. -/
  | sysTimeRead (pkt : Packet)
  /-- SYS_TIME_SET (R422). Sets device time. -/
  | sysTimeSet (pkt : Packet)
  /-- SYS_TIME_STEP (R422). Steps device time by a signed amount; ticks passed over fall at once. -/
  | sysTimeStep (pkt : Packet)
  /-- SYS_TIME_TRIM (R422). Sets the device time rate trim. -/
  | sysTimeTrim (pkt : Packet)
  /-- SYS_RESET (R422). Replies DONE and schedules a chip reset 10 ms later. -/
  | sysReset (pkt : Packet)
  /-- SYS_RESET_EXPIRE (R422). The 10 ms after SYS_RESET elapse, and a chip reset begins with cause 0x3. -/
  | sysResetExpire
  /-- OBJ_READ (R403). Reads COUNT objects of a class, clearing RC fields. -/
  | objRead (pkt : Packet)
  /-- OBJ_WRITE (R403). Writes live objects in ascending index order, each under its chapter's checks and effects. -/
  | objWrite (pkt : Packet)
  /-- OBJ_STAGE (R403). Writes staged objects into the staged Accord's copy after their checks. -/
  | objStage (pkt : Packet)
  /-- ACCORD_COMMIT (R350). Checks the device and starts preparation for the staged Accord. -/
  | accordCommit (pkt : Packet)
  /-- ACCORD_DISCARD (R349). Restores every staged copy to the current Accord's contents. -/
  | accordDiscard (pkt : Packet)
  /-- TASK_CREATE (R272). Takes the lowest FREE task, makes it IDLE and returns its handle. -/
  | taskCreate (pkt : Packet)
  /-- TASK_ARM (R272). Arms a task for a delay, or sets ARM_PENDING on a running one. -/
  | taskArm (pkt : Packet)
  /-- TASK_CANCEL (R272). Cancels a due or ready task, or suppresses a running task's re-arm. -/
  | taskCancel (pkt : Packet)
  /-- TASK_ABORT (R272). Faults a dispatched task's record with TASK_ABORTED. -/
  | taskAbort (pkt : Packet)
  /-- TASK_FREE (R272). Frees an IDLE task and advances its GEN. -/
  | taskFree (pkt : Packet)
  /-- BUF_ALLOC (R288). Allocates a buffer for the host under the pool rules. -/
  | bufAlloc (pkt : Packet)
  /-- BUF_FREE (R291). Frees a buffer. -/
  | bufFree (pkt : Packet)
  /-- PKT_FREE (R291). Frees a CONSUMEd packet. -/
  | pktFree (pkt : Packet)
  /-- LOCK_TRY (R264). Takes a lock for the host with a lease, without queueing. -/
  | lockTry (pkt : Packet)
  /-- LOCK_RELEASE (R264). Releases a host-held lock. -/
  | lockRelease (pkt : Packet)
  /-- LOCK_CLEAR (R266). Frees a BROKEN lock and passes it to its oldest waiter. -/
  | lockClear (pkt : Packet)
  /-- SA_STATE_READ (R423). Returns an association's NEXT_PN and SSCI. -/
  | saStateRead (pkt : Packet)
  /-- SA_STATE_SET (R423). Sets an association's NEXT_PN and SSCI while it is disabled. -/
  | saStateSet (pkt : Packet)
  /-- PORT_OPEN (R406). Binds a closed Data Port window to a target, direction and extent. -/
  | portOpen (pkt : Packet)
  /-- DATA (R410). Writes or reads up to 1,024 window bytes at a stream offset. -/
  | data (pkt : Packet)
  /-- PORT_CLOSE (R411). Closes a window, checks its SHA-512, and applies or rejects the target. -/
  | portClose (pkt : Packet)
  /-- PORT_ABORT (R412). Aborts a window, treating its target as a mismatch. -/
  | portAbort (pkt : Packet)
  /-- TBL_INSERT (R427). Inserts or replaces an entry, LPM entry or rule, or writes DIRECT data. -/
  | tblInsert (pkt : Packet)
  /-- TBL_DELETE (R427). Deletes an entry, LPM entry or rule. -/
  | tblDelete (pkt : Packet)
  /-- TBL_LOOKUP (R427). Looks up a key, or DIRECT data, in a named Accord's view. -/
  | tblLookup (pkt : Packet)
  /-- TBL_MACERATE (R247). Starts building a table's staged structure from its current contents. -/
  | tblMacerate (pkt : Packet)
  /-- TBL_RESIZE (R249). Starts doubling a table's buckets under a migration cursor. -/
  | tblResize (pkt : Packet)
  /-- FAULT_ACK (R381). Clears an escalation state and capture up to a SEQ. -/
  | faultAck (pkt : Packet)
  /-- SLOT_RESOLVE_DROP (R95). Resolves a HELD record as a drop. -/
  | slotResolveDrop (pkt : Packet)
  /-- SLOT_RESOLVE_REPLAY (R95). Re-queues a HELD, safe, unreplayed record for replay. -/
  | slotResolveReplay (pkt : Packet)
  /-- OBS_READ (R455). Returns a run of counter words of one unit and page. -/
  | obsRead (pkt : Packet)
  /-- OBS_SELECT (R458). Places an event in a window counter and restarts it. -/
  | obsSelect (pkt : Packet)
  /-- OBS_WINDOW_READ (R458). Samples and restarts a unit's eight window counters. -/
  | obsWindowRead (pkt : Packet)
  /-- OBS_THRESHOLD (R461). Assigns or frees a threshold slot on an occupancy. -/
  | obsThreshold (pkt : Packet)
  /-- OBS_TRACE_START (R463). Starts the trace over a DRAM region. -/
  | obsTraceStart (pkt : Packet)
  /-- OBS_TRACE_STOP (R463). Stops the trace and returns the records written. -/
  | obsTraceStop (pkt : Packet)
  /-- CLUSTER_DRAIN (R362). Sets a cluster DRAINING so that the Atomizer stops choosing it. -/
  | clusterDrain (pkt : Packet)
  /-- CLUSTER_RESUME (R362). Returns a DRAINING or DRAINED cluster to IN_SERVICE. -/
  | clusterResume (pkt : Packet)
  /-- CLUSTER_RESET (R362). Applies a block reset to a cluster. -/
  | clusterReset (pkt : Packet)
  /-- SPARE_CHECK (R362). Runs the self-test image on an UNCHECKED or SPARE cluster. -/
  | spareCheck (pkt : Packet)
  /-- CLUSTER_ADOPT_SPARE (R363). Moves a role position to a checked spare cluster. -/
  | clusterAdoptSpare (pkt : Packet)
  /-- DECANT (R339). Starts emptying a channel into the Decant reserve. -/
  | decant (pkt : Packet)
  /-- DECANT_RETURN (R339). Starts the copy-back of a channel held DECANTED. -/
  | decantReturn (pkt : Packet)
  /-- DECANT_ABORT (R341). Stops a copy-out and copies moved chunks home. -/
  | decantAbort (pkt : Packet)
  /-- LANE_RECAL_BACKGROUND (R48). Recalibrates a lane on a shadow slicer without loss. -/
  | laneRecalBackground (pkt : Packet)
  /-- LANE_RECAL_FULL (R48). Takes a lane's port down and recalibrates from reset coefficients. -/
  | laneRecalFull (pkt : Packet)
  /-- BANK_REPLACE (R250). Starts replacing a logical bank by its group's spare. -/
  | bankReplace (pkt : Packet)
  /-- QUEUE_FLUSH (R430). Frees every packet and spill page of a queue and restarts it. -/
  | queueFlush (pkt : Packet)
  /-- EXTRAIT_ENTER (R481). Checks the conditions, arms the exits and ramps the clusters into Extrait. -/
  | extraitEnter (pkt : Packet)
  /-- EXTRAIT_EXIT (R483). Ends Extrait with cause COMMAND. -/
  | extraitExit (pkt : Packet)
  /-- EXTRAIT_WINDOW_EXPIRE (R483). The Extrait window elapses and exit begins. -/
  | extraitWindowExpire
  /-- EXTRAIT_EXIT_DONE (R483). Clusters and rail have stepped down, and the completion carries CAUSE and DURATION. -/
  | extraitExitDone
  /-- IMAGE_STAGE (R444). Starts verifying a WRITTEN firmware slot. -/
  | imageStage (pkt : Packet)
  /-- IMAGE_STAGE_DONE (R444). Verification ends and the slot becomes STAGED or stays WRITTEN. -/
  | imageStageDone (slot : Nat)
  /-- IMAGE_ACTIVATE (R445). Starts loading a STAGED slot into the idle Steward memory. -/
  | imageActivate (pkt : Packet)
  /-- IMAGE_LOAD_DONE (R445). The loaded images are hashed and the Steward restarts into them, or completes with HW_FAULT. -/
  | imageLoadDone (corrupt : Bool)
  /-- BOOT_FALLBACK (R445). The new firmware has not come up within 100 ms, and the previous image starts and reports. -/
  | bootFallback
  /-- ATTEST (R448). Builds and signs a statement for a nonce, or returns a part of the held one. -/
  | attest (pkt : Packet)
  /-- ISSUER_SET (R439). Writes an issuer slot under an owner signature. -/
  | issuerSet (pkt : Packet)
  /-- OWNER_KEY_SET (R437). Blows the next owner key generation, claiming or revoking. -/
  | ownerKeySet (pkt : Packet)
  /-- SEC_CONFIG (R439). Writes PCIE_SIGNED under an owner signature. -/
  | secConfig (pkt : Packet)
  /-- DBG_HALT (R470). Requests a halt of a thread. -/
  | dbgHalt (pkt : Packet)
  /-- DBG_RESUME (R470). Resumes a halted thread. -/
  | dbgResume (pkt : Packet)
  /-- DBG_STEP (R137). Issues one bundle of a halted thread and halts it again. -/
  | dbgStep (pkt : Packet)
  /-- DBG_STATE (R432). Returns a thread's registers and state. -/
  | dbgState (pkt : Packet)
  /-- DBG_CH_ABORT (R136). Discards a halted thread's staged words and blocked CHC. -/
  | dbgChAbort (pkt : Packet)
  /-- DBG_ABORT (R99). Requests a thread abort. -/
  | dbgAbort (pkt : Packet)
  /-- DBG_BREAK (R469). Sets or clears one of a cluster's breakpoints. -/
  | dbgBreak (pkt : Packet)
  /-- FAULT_INJECT (R388). In factory test, makes a source raise and treat a fault as if detected. -/
  | faultInject (pkt : Packet)
  /-- BW_WINDOW_END (R459). A 1 ms device-time window ends and the bandwidth words update. -/
  | bwWindowEnd
  /-- DEBUG (R467). At JTAG Update-DR the Observation Unit executes a debug operation itself. -/
  | debugOp (op : BitVec 8) (params : List Byte)
  /-- EXTEST (R466). Boundary scan drives the balls, only while RESET_N is asserted. -/
  | extest (drive : List Bool)
  /-- CLAMP (R466). Outputs are clamped, only while RESET_N is asserted. -/
  | clamp (drive : List Bool)
  /-- HIGHZ (R466). Outputs go high-impedance, only while RESET_N is asserted. -/
  | highz
  /-- SAMPLE_PRELOAD (R466). Ball states are sampled into the boundary register. -/
  | samplePreload (balls : List Bool)
  /-- BYPASS (R466). The one-bit bypass register is selected. -/
  | bypass
  /-- ISLAND_TEMP_SAMPLE (R475). Every 100 µs an island samples Tj and checks its limit and the Extrait ceiling. -/
  | islandTempSample (island : Nat) (temp : Int)
  /-- SENSOR_SELF_CHECK (R475). Once per second a sensor is checked against its second element. -/
  | sensorSelfCheck (island : Nat) (ok : Bool)
  /-- CLOCK_UNLOCK (R477). An island's PLL or FLL loses lock, and its clock stops. -/
  | clockUnlock (island : Nat)
  /-- CLOCK_RELOCK (R477). An unlocked island regains lock and restarts its clock within 100 µs. -/
  | clockRelock (island : Nat)
  /-- ISLAND_RELOCK_DONE (R474). A FREQ or VOLT change completes and the clock restarts. -/
  | islandRelockDone (island : Nat)
  /-- GOVERNOR_GRANT (R479). The governor releases the next waiting current change within the 4 A per µs budget. -/
  | governorGrant
  /-- WEAR_ACCRUE (R487). Every 1 ms each island's life accumulator gains F × 1 ms / 1 h. -/
  | wearAccrue
  /-- LEDGER_WRITE (R488). Every 300 s the firmware writes a MACed ledger record to boot flash. -/
  | ledgerWrite
  /-- LOCK_REGAINED (R51). A lane that lost lock or alignment regains it in under 10 µs, so the link stays up. -/
  | lockRegained (lane : Nat)
  /-- REMOTE_FAULT_CLEARED (R52). The link partner stops signalling remote fault, and REMOTE_FAULT falls to 0. -/
  | remoteFaultCleared (port : Nat)
  /-- PPS_OUT_PULSE_END (R47). The PPS_OUT pulse width elapses and PPS_OUT falls. -/
  | ppsOutPulseEnd
  /-- CHANNEL_RETRAIN_DONE (R339). A channel's live retraining, up to 200 ms long during Decant or after a block reset, ends with the channel in service or with TRAIN_FAIL. -/
  | channelRetrainDone (channel : Nat) (failedStep : Option Nat)
  /-- MALFORMED_PACKET (R391). A command packet that fails framing, carries a wrong VERSION or names an unassigned opcode is discarded and counted, or answered BAD_OPCODE. -/
  | malformedPacket (via : Via) (bytes : List Byte)
  /-- EXTRAIT_ENTRY_DONE (R481). The rail ramp and cluster steps of Extrait entry finish; EXTRAIT sets and the window starts. -/
  | extraitEntryDone
  /-- STARTUP_STEP_DONE (R514). A start-up step (fuse load, BIST, boot, island wake, DRAM training, lane calibration, self-test) ends after the time it took, and the steps that depend on it begin or bring-up ends. -/
  | startupStepDone (step : Nat) (result : StepResult)
  /-- SUPPLY_RISE (R496). A supply rail rises past its threshold, connecting its group's pull resistors, driving the DRAM resets low and enabling the trip comparators. -/
  | supplyRise (rail : Rail)
  /-- SUPPLY_FALL (R496). A supply rail falls below its threshold, and the device moves toward the PARTIAL or UNPOWERED state. -/
  | supplyFall (rail : Rail)
  deriving DecidableEq, Repr

end Sys2Proof
end

