-- ==== Sys2Proof/Decode.lean ====
section
/-! DEFINITION. The command a table word spells: the table gives no row any bits, so every word is rejected. -/

namespace Sys2Proof

/-- No row of the opcode table gives bits: a command is an event with its operands, not a word of an instruction memory. -/
def decodeTableWord (_nbits _w : Nat) : Option Instr := none

end Sys2Proof
end

