-- ==== Sys2Proof/Config.lean ====
section
/-! DEFINITION. What one device fixes and what the spec leaves open: constants without a body, so that no proof can see
their values (logs 2, 33). -/

namespace Sys2Proof.Config

/-- A free value by the model's counter `State.fresh`: randomness and values the spec does not state (DESIGN CHOICE, log 2). -/
opaque freeWord : Nat → BitVec 64

/-- How far the cluster's copy of device time lies from device time at a reading, by cluster and reading; the meaning
bounds it as spec/08_helpers.md R223 gives. -/
opaque timeSkew : Nat → Nat → Int

/-- What manufacture writes (R436): the device secret, the digests of the four vendor keys, the 8-byte device serial. -/
opaque deviceSecret : List (BitVec 8)
opaque vendorDigest : Nat → List (BitVec 8)
opaque deviceSerial : Nat

/-- CA_KEY_ID, ISSUED and CERT_SIG of the device certificate: bytes 48 to 127 of the identity image (R447). -/
opaque certificate : Nat → BitVec 8

/-- The images with which the device left manufacture, by slot: VERSION, ROLLBACK_INDEX and digest of the manifest, and
the number of the first check of R442 that it fails (0 when it verifies). -/
opaque firmwareVersion : Nat → BitVec 32
opaque rollbackIndex : Nat → Nat
opaque manifestDigest : Nat → List (BitVec 8)
opaque slotCheck : Nat → Nat

/-- Why a restart happened, as STEWARD_RESTARTED codes it (R364). -/
opaque restartCause : Nat → Nat

/-- Spare rows of an on-chip array, by SOURCE (R360). -/
opaque spareRows : Nat → Nat

/-- How the power controller rounds the wear of 1 ms at a temperature in °C and a supply in mV (R487). -/
opaque wearRounding : Int → Nat → Bool

/-- How ADDRESS names an array, by SOURCE, and a row of it in SRAM_REPAIR_EXHAUSTED (R360, R517). -/
opaque arrayAddress : Nat → Nat → Nat

/-- The check symbols of a line's codeword: R327 names no field and no generator of RS(40,32). -/
opaque checkSymbols : BitVec 512 → BitVec 128

/-- CAS latencies that the JESD79-4 speed bins of a rate allow (R323), by RATE and CL. -/
opaque clAllowed : Nat → Nat → Bool

/-- Lines of spill that the Queue Manager holds for the channels before its spill write queue is full (R314). -/
opaque spillQueue : Nat

/-- How DATA of a trace record holds the SEQ and KIND of a fault message (R464). -/
opaque traceFault : Nat → Nat → Nat

end Sys2Proof.Config
end

