-- ==== Sys2Proof/Machine/State.lean ====
section
/-! DEFINITION. The state of the AS-4208: everything the spec gives the device, as plain data, and its value at reset. -/

namespace Sys2Proof.Machine

/-- No command of the table ends in a fault: raising a fault message, an error flag or an interrupt is the command's
effect on the state (spec/16_faults_recovery.md R365). The type has no value. -/
inductive Fault : Type
  deriving DecidableEq, Repr

/-- Why a command has no meaning here. -/
inductive Refusal where
  /-- Raised by `exec` for a command of the table that has not got its meaning yet, by its mnemonic: safe, since
  nothing about such a command can then be proved. -/
  | notModelled (mnemonic : String)
  deriving DecidableEq, Repr

/-! ### Faults: the collector of I52 (spec/16_faults_recovery.md) -/

/-- A fault message, R365. The source sends `level` and `flags` as zero and the collector writes them with `seq`. -/
structure FaultMsg where
  source  : BitVec 12 := 0
  kind    : BitVec 8 := 0
  cls     : BitVec 4 := 0
  level   : BitVec 3 := 0
  flags   : BitVec 5 := 0
  master  : BitVec 16 := 0x1000
  access  : BitVec 4 := 0
  address : BitVec 48 := 0
  detail  : BitVec 32 := 0
  seq     : BitVec 32 := 0
  time    : BitVec 64 := 0
  /-- The message is raised because of a reset or a reaction (R379); carried as FLAGS[1]. -/
  conseq  : Bool := false
  /-- Raised by FAULT_INJECT (R388); carried as FLAGS[0]. -/
  injected : Bool := false
  deriving DecidableEq, Repr

/-- An island's outbox of at most 16 messages and what it has discarded since, R370. -/
structure Outbox where
  msgs      : List FaultMsg := []
  lost      : Store (BitVec 32) := []
  lastClass : BitVec 4 := 0
  deriving DecidableEq, Repr

/-- A source's first-error capture, R372. -/
structure Capture where
  valid   : Bool := false
  repeats : BitVec 16 := 0
  msg     : FaultMsg := {}
  deriving DecidableEq, Repr

/-- An escalation state, R378. -/
structure Esc where
  level   : BitVec 3 := 0
  unacked : BitVec 16 := 0
  lastSeq : BitVec 32 := 0
  deriving DecidableEq, Repr

/-- The Fault Collector. Reaction entries are live objects of class 0x00B0 (`State.live`). -/
structure Faults where
  /-- Outboxes by island, R370. -/
  outbox     : Store Outbox := []
  /-- The island the collector served last (round-robin, R370). -/
  lastIsland : Nat := 63
  /-- Captures by SOURCE, R372. -/
  capture    : Store Capture := []
  /-- Escalation states by SOURCE × 16 + CLASS, R378. -/
  esc        : Store Esc := []
  /-- Reaction entries, escalation states and captures marked uncorrectable (R373), by SOURCE × 16 + CLASS. -/
  badEntry   : List Nat := []
  /-- Sillage entries by SEQ mod 4,096, R384. -/
  sillage    : Store FaultMsg := []
  nextSeq    : BitVec 32 := 0
  /-- The SEQ of the next entry to copy to the DRAM extension, R385. -/
  extNext    : BitVec 32 := 0
  extLost    : BitVec 16 := 0
  /-- A run of losses is open, R385. -/
  lossRun    : Bool := false
  /-- ERR_N is in a 20 µs pulse, R383. -/
  errPulsing : Bool := false
  errHold    : Bool := false
  /-- A HOLD 0 written during the pulse, which takes effect at its end, R383. -/
  errRelease : Bool := false
  /-- Elapsed time of the last assertion by a message, R382. -/
  errAt      : Option Nat := none
  /-- Reset cause word, R377. -/
  resetCause : BitVec 32 := 0
  /-- A CHIP_RESET reaction or SYS_RESET whose reset has not begun: its reset cause word, R377. -/
  chipReset  : Option (BitVec 32) := none
  /-- ERR_AT asked for ERR_N at level 4 by the message that began the chip reset, R377. -/
  chipErr    : Bool := false
  /-- Flits re-sent and again rejected, by sending island × 64 + receiving island, R371. -/
  flitTries  : Store Nat := []
  deriving DecidableEq, Repr
/-! ### Table Store, atomics and locks (spec/09_table_store.md, spec/10_atomics_locks.md) -/

/-- An entry of an EXACT, TERN or EXT table with the tags that bound its life (R235) and its place (R240, R246).
A TERN entry is a sub-rule: its key is the masked value, with its mask, priority and order of insertion (R245). -/
structure TEntry where
  key    : List Byte
  result : List Byte
  born   : BitVec 4
  dead   : BitVec 4
  way    : Nat := 0
  bucket : Nat := 0
  slot   : Nat := 0
  mask   : List Byte := []
  prio   : BitVec 16 := 0
  order  : Nat := 0
  /-- The rule the sub-rule belongs to: its record body without the result, R426. -/
  rule   : List Byte := []
  deriving DecidableEq, Repr

/-- A prefix of an LPM table, R244: its length in bits, its bytes and its result. -/
structure LpmEntry where
  len    : Nat
  bytes  : List Byte
  result : List Byte
  deriving DecidableEq, Repr

/-- A migration cursor, R249: the old B_LOG2 and the next bucket to split. -/
structure Migration where
  oldLog : Nat
  cursor : Nat
  deriving DecidableEq, Repr

/-- A table's structure under one descriptor, R232, R247. Tables whose staged descriptor differs have two. -/
structure TStruct where
  num     : Nat
  desc    : ObjWord
  entries : List TEntry := []
  /-- LPM roots: prefixes by Accord tag, R237; a tag without one of its own reads the one before it. -/
  roots   : Store (Option (List LpmEntry)) := []
  order   : Nat := 0
  migr    : Option Migration := none
  /-- Versioned DIRECT: which copy, 1 or 2, each tag reads; 0 where none is assigned (R238). -/
  copyOf  : Store Nat := []
  /-- Staged writes to a versioned DIRECT table that wait for a free copy: bank, byte in the copy, and bytes. -/
  waiting : List (Nat × Nat × List Byte) := []
  /-- Keys, prefixes and rules whose staged deletion found them absent: a Maceration leaves them out, R247. -/
  gone    : List (List Byte) := []
  /-- A Maceration fills it: every write to the live structure is applied here too, R247. -/
  mirror  : Bool := false
  /-- Staged writes that a versioned DIRECT copy holds: a Maceration applies them after the current contents, R247. -/
  wrote   : List (Nat × Nat × List Byte) := []
  deriving DecidableEq, Repr

/-- How a staged write made through a table image window is withdrawn (R411): what stood before it. -/
inductive TableUndo where
  /-- EXACT, EXT: the result that the key had under the staged Accord itself. -/
  | key (key : List Byte) (prior : Option (List Byte)) (gone : Bool)
  | lpmEntry (len : Nat) (bytes : List Byte) (prior : Option LpmEntry) (gone : Bool)
  | rule (body : List Byte) (prior : List TEntry) (gone : Bool)
  /-- DIRECT: bank, byte in the copy, and the bytes that the staged Accord read there. -/
  | direct (bank byte : Nat) (old : List Byte)
  deriving DecidableEq, Repr

/-- A lock word, R257, with its queue of requests in arrival order, R199. -/
structure Lock where
  held      : Bool := false
  abandoned : Bool := false
  broken    : Bool := false
  owner     : BitVec 16 := 0
  queue     : List (BitVec 16) := []
  deriving DecidableEq, Repr

/-- A program's write that a table's write sequencer has applied, kept for the writes of the same cycle (R242). -/
structure TieWrite where
  /-- Device time of the cycle, and the next message id when it was applied. -/
  since   : Nat
  seq     : Nat
  num     : Nat
  tag     : Nat
  thread  : Nat
  hop     : Nat
  del     : Bool
  key     : List Byte
  result  : List Byte
  deriving DecidableEq, Repr

structure Tables where
  structs  : List TStruct := []
  /-- Program writes of the present instant, in the order they were applied (R242). -/
  cycle    : List TieWrite := []
  /-- Table Store rows as bytes: physical bank × 1,572,864 + offset. DIRECT tables live here, and the tag and slot rows of EXACT ones. -/
  rows     : Mem := []
  /-- Physical bank behind each logical bank, R230: default 9 × (b div 8) + (b mod 8). -/
  bankMap  : Store Nat := []
  /-- Logical banks being replaced, R250. -/
  replacing : List Nat := []
  /-- Groups whose spare is in use, R250. -/
  spareUsed : List Nat := []
  /-- Spare rows used in each physical bank, R251, and rows corrected in the last pass. -/
  spareRows : Store Nat := []
  corrected : Store (List Nat) := []
  /-- Uncorrectable rows: physical bank × 24,576 + row. -/
  bad      : List Nat := []
  /-- Full buckets the engine will relocate from: table, descriptor and the key of the insert that found them, R243. -/
  reloc    : List (Nat × ObjWord × List Byte) := []
  /-- Retirement sweeps not finished: the retired tags, R237. -/
  sweeping : List Nat := []
  /-- Tables whose Maceration or resize runs, with the reply it completes. -/
  macerating : List Nat := []
  resizing : List Nat := []
  locks    : Store Lock := []
  /-- Host leases: lock number to issuer master identity, R264. -/
  leases   : Store (BitVec 16) := []
  /-- Leases that expired, by lock and master, R265. -/
  expired  : List (Nat × BitVec 16) := []
  badLocks : List Nat := []
  deriving DecidableEq, Repr

/-- An event that the Steward takes and holds for reading (STEWARD_EVENT of R414): a fault's reaction (R374), a retired
Accord (R357), a breakpoint hit (R469), the end of bring-up (R526). -/
inductive StewardEvent where
  | fault (seq : BitVec 32)
  | trap (seq : BitVec 32)
  | accordRetired (tag : Nat) (bound : Bool) (struck : Nat)
  | breakHit (thread : Nat)
  | port (port bit : Nat)
  | sweepDone (channel : Nat)
  | bringupDone (channels clusters faults : Nat)
  | ledger (verified raised : Bool)
  /-- The end of Extrait, R483: its cause and duration in ms. -/
  | extrait (cause ms : Nat)
  deriving DecidableEq, Repr

/-! ### The Steward's command service, rings, windows and BAR0 (spec/17_command_protocol.md, spec/18_command_reference.md) -/

/-- A stored reply: serial, final or ACCEPTED status, results, and whether it is a completion, R395, R397. -/
structure Stored where
  serial     : Nat
  status     : BitVec 16
  results    : List Byte
  completion : Bool := false
  deriving DecidableEq, Repr

/-- An issuer slot: key and control word (R393), serial window (R395) and reservation in boot flash (R396). -/
structure Issuer where
  ctl         : BitVec 32
  key         : List Byte
  high        : Nat
  stored      : List Stored
  reservation : Nat
  /-- The statement last made for this slot and its nonce, R448. -/
  statement   : Option (List Byte × List Byte)
  /-- Serials of the window that have executed, R395. -/
  executed    : List Nat := []
  deriving DecidableEq, Repr

/-- Where a command came from and its reply goes, R397, R398. The in-band form keeps the command frame. -/
inductive Origin where
  | pcie
  | inband (port : Nat) (frame : List Byte)
  | i2c
  deriving DecidableEq, Repr

/-- What identifies a reply: the header fields it repeats, R390. -/
structure ReplyTo where
  version : Nat := 1
  origin : Origin
  opcode : Nat
  tag    : BitVec 32
  issuer : Nat
  serial : Nat
  deriving DecidableEq, Repr

/-- The operation an ACCEPTED command started, with what its completion needs, R397. -/
inductive AsyncOp where
  | discard
  | macerate (table : Nat)
  | resize (table : Nat)
  | drain (cluster : Nat)
  | clusterReset (cluster : Nat)
  | spareCheck (cluster : Nat)
  | decant (channel : Nat)
  | laneRecal (lane : Nat)
  | bankReplace (bank : Nat)
  | extrait
  | imageStage (slot : Nat)
  | imageActivate (slot : Nat)
  deriving DecidableEq, Repr

structure Async where
  answerTo : ReplyTo
  op : AsyncOp
  deriving DecidableEq, Repr

/-- Why the Steward has not yet replied to the command it runs (R392): the operations that end inside a later event. -/
inductive Wait where
  /-- An OBJ_WRITE that enables pool `pool`, R284. -/
  | pool (pool : Nat)
  /-- An OBJ_WRITE of an island's FREQ or VOLT, R474. -/
  | island (island : Nat)
  /-- An ACCORD_COMMIT, R350. -/
  | commit
  /-- A staged write to a versioned DIRECT table whose copy is not free yet, R238. -/
  | versioned (table : Nat)
  deriving DecidableEq, Repr

/-- A command without its reply yet: what it waits for, and the rest of a several-index write (R403). -/
structure Deferred where
  answerTo       : ReplyTo
  wait     : Wait
  cls      : Nat := 0
  next     : Nat := 0
  rest     : List ObjWord := []
  done     : Nat := 0
  deriving DecidableEq, Repr

/-- A Data Port window, R406 to R412, and its WIN_STATUS word. -/
structure Window where
  /-- 0 CLOSED, 1 OPEN_WRITE, 2 OPEN_READ. -/
  st       : BitVec 2 := 0
  error    : Bool := false
  aborted  : Bool := false
  owner    : BitVec 4 := 0
  drops    : BitVec 16 := 0
  cursor   : Nat := 0
  target   : Nat := 0
  selector : Nat := 0
  start    : Nat := 0
  length   : Nat := 0
  stride   : Nat := 0
  unit     : Nat := 8
  idle     : Nat := 0
  /-- The opener came over PCIe, so BAR2 may move its bytes (R408). -/
  viaPcie  : Bool := false
  /-- Stream bytes held by the window: written and not yet applied, or returned. -/
  bytes    : Mem := []
  /-- Covered 64-byte granules of a write window, R410. -/
  covered  : List Nat := []
  /-- Stream bytes of a table image already taken as records, R426. -/
  taken    : Nat := 0
  /-- The staged writes it has made, newest first, as they are withdrawn on a mismatch (R411). -/
  undo     : List TableUndo := []
  /-- Elapsed ns of an idle expiry, which a PORT_CLOSE of the same Steward step may meet, R412. -/
  expired  : Option Nat := none
  deriving DecidableEq, Repr

/-- A host ring's registers: base, ENABLE, HALTED, SIZE_LOG2, tail and head, R414, R415. -/
structure Ring where
  base    : BitVec 64 := 0
  enable  : Bool := false
  halted  : Bool := false
  size    : BitVec 5 := 6
  tail    : BitVec 16 := 0
  head    : BitVec 16 := 0
  deriving DecidableEq, Repr

/-- BAR0 registers with no home elsewhere, R414, R416. -/
structure Bar0 where
  scratch    : BitVec 32 := 0
  cmd        : Ring := {}
  rpl        : Ring := {}
  faultCause : BitVec 16 := 0
  eventCause : BitVec 7 := 0
  d2hCause   : BitVec 64 := 0
  h2dCause   : BitVec 64 := 0
  /-- Tails of the 128 host rings; their heads are `Qm`'s. Device-to-host r at r, host-to-device r at 64 + r. -/
  tails      : Store (BitVec 16) := []
  heads      : Store (BitVec 16) := []
  /-- MSI-X table entries, 128 bits each (address, data, vector control). -/
  msix       : Store (BitVec 128) := []
  msixPend   : BitVec 64 := 0
  deriving DecidableEq, Repr

/-- The I2C target's reply register, R402. -/
structure I2c where
  /-- 0x00 no reply, 0x01 executing, 0x02 reply ready. -/
  st    : BitVec 8 := 0
  reply : List Byte := []
  deriving DecidableEq, Repr

/-- A frame in the Steward's mailbox: the port it came by, its bytes, and POISON where its data were uncorrectable, R315, R401. -/
structure MailFrame where
  port   : Nat
  frame  : List Byte
  poison : Bool := false
  deriving DecidableEq, Repr

/-- The Steward's command service. -/
structure Ycp where
  issuers   : Store Issuer := []
  asyncs    : List Async := []
  deferred  : Option Deferred := none
  /-- The transport whose turn it is: 0 PCIe, 1 in-band, 2 I2C; and the packet that is being examined and waits, R392. -/
  turn      : Nat := 0
  waiting   : Option (Nat × List Byte) := none
  /-- In-band frames waiting in the mailbox, oldest first, R392, R401. -/
  mailbox   : List MailFrame := []
  /-- Reply frames on their way to I36, oldest first: port and frame, R401. -/
  inband    : List (Nat × List Byte) := []
  /-- Packets and frames discarded and counted: framing (R391), in-band frames (R401), in-band replies (R401). -/
  discarded : BitVec 64 := 0
  badFrames : BitVec 64 := 0
  lostReplies : BitVec 64 := 0
  windows   : Store Window := []
  i2c       : I2c := {}
  /-- SYS_RESET has replied and its 10 ms run, R422. -/
  resetDue  : Bool := false
  /-- The firmware serves commands: DEV_STATUS.STEWARD_UP. -/
  up        : Bool := false
  /-- Events delivered to the Steward, and those kept until its firmware runs (R364, R374, R357). -/
  events    : List StewardEvent := []
  kept      : List StewardEvent := []
  /-- Replies and completions that wait for a posted reply entry (R400). -/
  unsent    : List (List Byte) := []
  /-- Completions that wait until the firmware runs again (R364). -/
  late      : List (Origin × List Byte) := []
  deriving DecidableEq, Repr
/-! ### Port Array (spec/02_port_array.md) -/

/-- A received frame as a port passes it to its slice: bytes from the destination address, ingress timestamp,
receiving port, verdict and traffic class, R33, R37, R43. -/
structure RxFrame where
  data    : List Byte
  time    : BitVec 64
  port    : Nat
  verdict : BitVec 2
  tclass  : BitVec 3
  /-- Bytes of the frame on the wire from destination address to FCS, R459. -/
  wire    : Nat := 0
  deriving DecidableEq, Repr

/-- A packet the Queue Manager holds on-chip or has passed to a port: its descriptor, edited length, queue and commit word
(zero for a frame of a host-to-device ring), and whether a refill found it uncorrectable, R195, R301, R315. -/
structure QPkt where
  desc   : Nat
  len    : Nat
  queue  : Nat := 0
  word   : BitVec 64 := 0
  poison : Bool := false
  deriving DecidableEq, Repr

/-- A port's state beside its live objects. -/
structure Port where
  linkUp      : Bool := false
  remoteFault : Bool := false
  /-- Event bits [23:17] of the status word, EV_LINK_DOWN first, R52. -/
  events      : BitVec 7 := 0
  lastOutage  : BitVec 16 := 0
  /-- Elapsed time at which the link went down. -/
  downSince   : Nat := 0
  /-- Traffic the partner has paused: bit c for PFC class c, bit 8 for a pause frame, R37. -/
  paused      : BitVec 9 := 0
  /-- Classes whose account has risen to XOFF and not yet fallen to XON, R38. -/
  xoffSent    : BitVec 8 := 0
  /-- Two-step records, oldest first: tag and egress time, R45. -/
  tsFifo      : List (BitVec 16 × BitVec 64) := []
  /-- Whole frames in the MAC receive FIFO, oldest first, R74. -/
  rxFifo      : List RxFrame := []
  /-- Frames taken from the Queue Manager and not yet sent, oldest first, R311. -/
  txAhead     : List QPkt := []
  deriving DecidableEq, Repr

/-- A lane's receiver, R48 to R51. -/
structure Lane where
  /-- 0 none, 1 BACKGROUND, 2 FULL recalibration in progress. -/
  recal     : BitVec 2 := 0
  /-- The lane has lost lock or alignment. -/
  lost      : Bool := false
  /-- The 100 ms coefficient hold runs, R50. -/
  holding   : Bool := false
  /-- A full acquisition runs, R50. -/
  acquiring : Bool := false
  /-- The lane has calibrated at start-up, R523. -/
  ready     : Bool := false
  deriving DecidableEq, Repr

/-- Packet-number state of a MACsec association, R39, R42, SA_STATE. -/
structure SaState where
  /-- Transmit: the next packet number. Receive: one above the highest accepted. -/
  nextPn    : Nat := 1
  /-- Receive: the lowest packet number accepted. -/
  lowPn     : Nat := 1
  ssci      : BitVec 32 := 0
  /-- The threshold event has been raised for this NEXT_PN run. -/
  threshed  : Bool := false
  /-- PN_EXHAUSTED has been reported, R42. -/
  exhausted : Bool := false
  deriving DecidableEq, Repr

/-- The field time pins, R47. -/
structure TimePins where
  ppsInTime  : BitVec 64 := 0
  ppsInCount : BitVec 32 := 0
  ppsInNew   : Bool := false
  /-- PPS_OUT's level. -/
  ppsOut     : Bool := false
  /-- Width in force for the pulse under way, µs. -/
  width      : Nat := 100000
  /-- Whole seconds of the edge whose TOD message is still to be sent. -/
  todDue     : Option (BitVec 48) := none
  /-- Whole seconds at the last PPS_OUT edge. -/
  lastEdge   : Option Nat := none
  deriving DecidableEq, Repr

/-- The Port Array. Its control words, flow settings, thresholds, MACsec and lane objects are live objects. -/
structure Ports where
  port  : Store Port := []
  lane  : Store Lane := []
  /-- By association index: (port × 64 + channel) × 4 + AN. -/
  sa    : Store SaState := []
  pins  : TimePins := {}
  /-- Uncorrectable MACsec words, by channel index, R368. -/
  badSa : List Nat := []
  /-- Islands whose SerDes reference PLL has not locked, R523. -/
  pllOff : List Nat := []
  deriving DecidableEq, Repr
/-! ### Ingress Front End (spec/03_ingress_classification.md) -/

/-- What the walk and classification give a frame, R59 to R64; it becomes the dispatch record, R61. -/
structure Disp where
  ts     : BitVec 64 := 0
  metaw   : BitVec 64 := 0
  handle : BitVec 32 := 0
  hash   : BitVec 32 := 0
  valid  : BitVec 32 := 0
  /-- Slot bytes 0 to 63 in wire order. -/
  slots  : List Byte := []
  deriving DecidableEq, Repr

/-- A frame that has taken a hand-off place: its record, its bytes still to be stored, and the cells granted, R73, R74. -/
structure InFlight where
  frame   : RxFrame
  disp    : Disp
  /-- A descriptor has been taken (its handle is in `disp`). -/
  desc    : Bool := false
  /-- Cells granted so far, in the order written. -/
  cells   : List Nat := []
  /-- The frame has met a refusal and its CELL_WAIT runs. -/
  waiting : Bool := false
  /-- Its present request has met a refusal under R290 and is counted, R294. -/
  denied  : Bool := false
  deriving DecidableEq, Repr

structure Slice where
  /-- The Accord current in the slice, R66; none before the first commit, R68. -/
  tag      : Option Nat := none
  /-- The old copy still held, R67. -/
  oldTag   : Option Nat := none
  /-- Whole frames in the 64 KiB input buffer, oldest first. -/
  input    : List RxFrame := []
  /-- Frames holding hand-off places, oldest first, at most 256. -/
  pipe     : List InFlight := []
  /-- Cells and descriptors of frames lost by a reset, to be returned, R76. -/
  reclaim  : List InFlight := []
  /-- Uncorrectable parse and class words, by parity of the copy's tag × 4,096 + word, R72. -/
  badWords : List Nat := []
  deriving DecidableEq, Repr
/-! ### Sequencer and Atomizer (spec/04_sequencer_dispatch.md) -/

/-- A committed outcome and its commit word, R86, R194. -/
structure Outcome where
  /-- 0 FWD, 1 DROP, 2 HOST, 3 RECIRC, 4 CONSUME (the OP of COMMIT). -/
  op   : BitVec 3
  word : BitVec 64
  deriving DecidableEq, Repr

/-- A record's state, R81. -/
inductive RecState where
  | free | queued | running | committed | held
  deriving DecidableEq, Repr

/-- A record, R81, with what the Sequencer keeps beside the status word. -/
structure Rec where
  st       : RecState := .free
  domain   : BitVec 16 := 0
  fault    : BitVec 8 := 0
  safe     : Bool := false
  replayed : Bool := false
  poison   : Bool := false
  task     : Bool := false
  passed   : BitVec 4 := 0
  released : BitVec 4 := 0
  accord   : BitVec 4 := 0
  gen      : BitVec 8 := 0
  thread   : BitVec 12 := 0
  /-- The record holds a place in its domain (a task without a domain holds none). -/
  placed   : Bool := false
  /-- The order in which I26 accepted it, R79. -/
  order    : Nat := 0
  prio     : BitVec 3 := 0
  role     : Nat := 0
  /-- Its wait has reached DISPATCH_AGE, R103. -/
  aged     : Bool := false
  /-- Order among replays, for a record re-queued for replay, R96. -/
  replay   : Option Nat := none
  disp     : Disp := {}
  /-- The task's handle and dispatch words, for a task record, R278. -/
  taskId   : BitVec 32 := 0
  outcome  : Option Outcome := none
  /-- The point its thread waits at, R83. -/
  waitPt   : Option Nat := none
  /-- Held under R530. -/
  eccHeld  : Bool := false
  /-- Struck by the drain bound, R98: counts toward no Accord, and cannot be replayed. -/
  struck   : Bool := false
  /-- HOLD_LIMIT of its domain class as its own Accord gave it, kept when the drain bound strikes it (R77, R94, R98). -/
  hold     : Nat := 0
  /-- While a replay's dispatch may still be refused (R105): its order among replays and the thread whose fault re-queued it. -/
  refused  : Option (Nat × BitVec 12) := none
  deriving DecidableEq, Repr

structure Seqr where
  recs       : Store Rec := []
  /-- The next place in the order of acceptance, R79. -/
  nextOrder  : Nat := 0
  nextReplay : Nat := 0
  /-- Threads the Atomizer counts as busy, by identity index, R103. -/
  busy       : List Nat := []
  /-- Round-robin pointer of each role group, R103. -/
  rr         : Store Nat := []
  /-- Clusters chosen in this cycle, R103. -/
  chosen     : List Nat := []
  /-- A lane of this cycle found nothing, so the later lanes stop, R103. -/
  stopped    : Bool := false
  /-- Position table, R102, as written by CLUSTER_ADOPT_SPARE: entry p reads p when not listed. -/
  position   : Store Nat := []
  /-- Clusters whose boundary refuses dispatches after RESET_NOTICE, R92. -/
  noticed    : List Nat := []
  /-- Uncorrectable record words not yet found, R530. -/
  badRec     : List Nat := []
  /-- Those of FREE records that have been found and reported: the next allocation clears them, R530. -/
  foundRec   : List Nat := []
  /-- Records that HOLD_LIMIT resolved, with their GEN and the elapsed time, which a SLOT_RESOLVE of that instant meets (R101). -/
  expired    : List (Nat × BitVec 8 × Nat) := []
  deriving DecidableEq, Repr
/-- A cluster's service word beside what is computed (POSITION, BUSY_THREADS), R361, R362. -/
structure ClusterSvc where
  /-- 0 SPARE, 1 IN_SERVICE, 2 DRAINING, 3 DRAINED, 4 RESET, 5 UNCHECKED. -/
  st       : BitVec 3 := 0
  check    : Bool := false
  /-- The decode word has been written since the first commit, R362. -/
  decodeWr : Bool := false
  /-- Retired tags whose bank, decode copy and aperture map the cluster still holds, R357. -/
  old      : List Nat := []
  deriving DecidableEq, Repr

/-- A decode fault, an address fault or a trap that a speculative bundle met (R166, R173). -/
structure LateFault where
  kind : BitVec 8
  addr : Nat
  pc   : BitVec 16
  /-- The unit that reports a fault and its access code. -/
  unit : Nat := 0
  access : Nat := 0
  /-- A trap's cause and slot, its syllable, and the address after its bundle (R174, R175). -/
  trap : Option (BitVec 32 × BitVec 32 × Nat) := none
  deriving DecidableEq, Repr

/-- A trap that waits until the thread's outstanding results have landed (R174): cause, syllable, and both PCs. -/
structure TrapReq where
  cause : BitVec 32
  syl   : BitVec 32
  pc    : BitVec 16
  next  : BitVec 16
  nmi   : Bool := false
  deriving DecidableEq, Repr

/-! ### Cores, threads and channels (spec/05 to spec/08) -/

/-- Where a landing value goes: ACC, XA or XB, by the codes of REG (R153). -/
abbrev RegCode := BitVec 2

/-- What a thread has outstanding toward a register: a load, an atomic or a lock instruction. `value` is present once
the place it reads has answered; LOAD_LAND then lands it (R185). -/
structure Load where
  id     : Nat
  reg    : RegCode
  /-- Size code of R150 and sign extension. -/
  size   : BitVec 2 := 3
  signed : Bool := false
  /-- Aperture or far: counts toward the limits of R139. -/
  remote : Bool := false
  /-- The value and, for locks and atomics, the flags it writes. -/
  value  : Option (BitVec 64 × Option (BitVec 4)) := none
  /-- The word read was uncorrectable: POISON is sent at landing (R97, R139, R202). -/
  poison : Bool := false
  /-- The word read was an uncorrectable word of near memory: LOCAL_ECC, at this address. -/
  ecc    : Option Nat := none
  /-- It writes FL as well: an atomic or a lock instruction (R198, R201). -/
  fl     : Bool := false
  /-- It writes FL alone: a remote CHC, whose message may still be refused (R130). -/
  flOnly : Bool := false
  /-- The island that answers it, 64 for near memory, and the answer's place in the order in which answers were given (R17). -/
  isl    : Nat := 64
  seq    : Nat := 0
  deriving DecidableEq, Repr

/-- A store counted toward STORE_DONE, R256. -/
structure StoreOut where
  id   : Nat
  done : Bool := false
  /-- The island that completes it, and its completion's place in the order of answers (R17). -/
  isl  : Nat := 64
  seq  : Nat := 0
  deriving DecidableEq, Repr

/-- What a helper operation will write, once computed. -/
structure HelperRes where
  acc    : BitVec 64 := 0
  fl     : BitVec 4 := 0
  addr   : Nat := 0
  bytes  : List Byte := []
  poison : Bool := false
  deriving DecidableEq, Repr

/-- A helper operation in flight in a cluster, R209 to R216. -/
structure HelperOp where
  id        : Nat
  /-- core × 16 + thread within the cluster. -/
  thread    : Nat
  unit      : BitVec 3
  op        : BitVec 4
  cancelled : Bool := false
  /-- Near bytes it will write, pending until it lands (R212): address and length. -/
  dst       : Nat := 0
  dstLen    : Nat := 0
  /-- The operation's FIELDS and the values of ACC, XA and XB as they stood before its bundle (R187). -/
  fields    : BitVec 22 := 0
  acc       : BitVec 64 := 0
  xa        : BitVec 32 := 0
  xb        : BitVec 32 := 0
  /-- Near bytes it has read: key, result, packet or buffer data. -/
  data      : List Byte := []
  /-- The thread's Accord tag, record and GEN when it issued. -/
  tag       : Nat := 0
  record    : Nat := 0
  gen       : BitVec 8 := 0
  /-- It has taken effect outside the cluster; `res` says with what result. -/
  res       : Option HelperRes := none
  /-- Islands that its request crosses to, and its result's place in the order of answers (R17). -/
  isls      : List Nat := []
  seq       : Nat := 0
  /-- Near bytes of its result that the B syllable of its bundle has written, which stand (R144): address and length. -/
  kept      : List (Nat × Nat) := []
  /-- Its target has accepted it, and it waits there (R286). -/
  arrived   : Bool := false
  deriving DecidableEq, Repr

/-- One syllable as fetched: CLASS, OP and FIELDS, R141. -/
structure RawSyl where
  cls    : BitVec 2
  op     : BitVec 7
  fields : BitVec 22
  deriving DecidableEq, Repr

/-- Registers that a squash restores, R119. -/
structure Regs where
  acc   : BitVec 64 := 0
  xa    : BitVec 32 := 0
  xb    : BitVec 32 := 0
  fl    : BitVec 4 := 0
  frame : Mem := []
  rwatch : BitVec 32 := 0
  wwatch : BitVec 32 := 0
  timer  : BitVec 32 := 0
  deriving DecidableEq, Repr

/-- An unresolved branch: whether it will be taken and where to, what a squash restores, and what its speculative
bundles have begun, R117 to R119. -/
structure Branch where
  taken  : Bool
  target : BitVec 16
  regs   : Regs
  /-- Speculative bundles issued under it, at most two. -/
  issued : Nat := 0
  /-- Bundles and syllables issued under it and under no later branch, counted when it resolves (R456, R462). -/
  bundles : Nat := 0
  slots  : Nat := 0
  /-- Identities of the loads and helper operations its speculative bundles began. -/
  begun  : List Nat := []
  /-- Near stores outside the frame, held until it stands: address within the near map, and bytes. -/
  stores : List (Nat × List Byte) := []
  /-- A decode fault, address fault or trap met under it, taken only if it stands (R166, R173): kind, address, syllable, slot. -/
  late   : Option LateFault := none
  /-- BHB: the helper that decides the outcome in the cycle the branch resolves (R189). -/
  bhb    : Option (BitVec 3) := none
  /-- The timer of the snapshot has reached zero; the thread's own timer has, under this newest branch (R122). -/
  due    : Bool := false
  liveDue : Bool := false
  /-- A custom instruction under it has read an uncorrectable aperture word: POISON goes if it stands (R119, R206). -/
  poison : Bool := false
  deriving DecidableEq, Repr

/-- Why a thread is not in the ready set, R114, R120, R85, R126, R90. -/
inductive WaitKind where
  | none
  | wfe (mask : BitVec 16)
  | ord (pt : Nat)
  | chc (remote : Bool) (pos chan : Nat)
  | effect
  deriving DecidableEq, Repr

/-- Halts: none, on a fault, or by the debugger, R92, R135. -/
inductive HaltKind where
  | none | fault | debug
  deriving DecidableEq, Repr

structure Thread where
  regs     : Regs := {}
  pc       : BitVec 16 := 0
  /-- The thread holds work. -/
  busy     : Bool := false
  prio     : BitVec 2 := 0
  record   : Nat := 0
  gen      : BitVec 8 := 0
  accord   : Nat := 0
  /-- Edge bits of the event pending word, R121; the level bits are computed. -/
  edges    : BitVec 16 := 0
  staging  : List (BitVec 64) := []
  wait     : WaitKind := .none
  waitSyls : List RawSyl := []
  halt     : HaltKind := .none
  /-- A grant or acknowledgement of I26, or a lock grant, that came while the debugger held the thread (R135). -/
  granted  : Bool := false
  lockGranted : Bool := false
  haltReq  : Bool := false
  /-- The instant and the master of the last DBG_HALT, which a DBG_RESUME of another master in that instant does not undo (R470). -/
  haltAt   : Option (Nat × Nat) := none
  abortReq : Bool := false
  /-- The debugger lets one bundle issue, R137. -/
  stepping : Bool := false
  /-- A resume that lets the bundle at a breakpoint issue, R469, R470. -/
  bpPass   : Bool := false
  inTrap   : Bool := false
  /-- A trap that waits for outstanding results: cause, syllable, slot, PC, next PC, R174. -/
  trap     : Option TrapReq := none
  nmi      : Bool := false
  loads    : List Load := []
  stores   : List StoreOut := []
  /-- Identity of the live helper operation whose result marks ACC and FL pending. -/
  helper   : Option Nat := none
  /-- The lock a request of this thread is queued for. -/
  lockWait : Option Nat := none
  passed   : BitVec 4 := 0
  released : BitVec 4 := 0
  /-- A task with no domain, R83, R191. -/
  noDomain : Bool := false
  task     : Bool := false
  /-- The Sequencer has cleared SAFE for this dispatch, R90. -/
  effected : Bool := false
  /-- Header window bytes delivered, and those still to stream in, R23. -/
  delivered : Nat := 0
  window   : List Byte := []
  /-- Syllables of the bundle being issued, in order, with its first PC in `pc`. -/
  bundle   : List RawSyl := []
  branches : List Branch := []
  deriving DecidableEq, Repr

/-- A channel of a cluster, R125 to R130. -/
structure Channel where
  /-- Closed messages, oldest first, with the cluster each came from (its own for a local one). -/
  msgs    : List (Nat × List (BitVec 64)) := []
  /-- Threads blocked in CHC on this local channel, in the order in which they blocked. -/
  blocked : List Nat := []
  /-- The oldest message is uncorrectable, R368 CH_ECC. -/
  bad     : Bool := false
  deriving DecidableEq, Repr

/-- A breakpoint, R469. -/
structure Breakpoint where
  pc     : BitVec 16 := 0
  tag    : BitVec 4 := 0
  enable : Bool := false
  deriving DecidableEq, Repr

structure Cluster where
  thread   : Store Thread := []
  /-- Core-shared memory: core × 32,768 + offset. -/
  coreMem  : Mem := []
  clMem    : Mem := []
  chan     : Store Channel := []
  /-- Credit toward a remote-inbound channel, by role position × 32 + channel, R129. -/
  credit   : Store Nat := []
  /-- Threads blocked on credit, by the same index, in order. -/
  rblocked : Store (List Nat) := []
  hops     : List HelperOp := []
  /-- Round-robin pointers: issue, by core × 4 + priority (R115); helper grants, by helper (R210). -/
  rrIssue  : Store Nat := []
  rrHelp   : Store Nat := []
  brk      : Store Breakpoint := []
  /-- Service word: state and self-test result, R361. -/
  svc      : ClusterSvc := {}
  /-- Thousandths of core cycles since the island left reset, R148. -/
  mcycles  : Nat := 0
  /-- QUIESCENT reported and no thread has left its wait since, R132. -/
  quietRep : Bool := false
  /-- The last value of now that a program read, R223. -/
  lastNow  : Nat := 0
  lastFrac : BitVec 32 := 0
  /-- Uncorrectable 8-byte words: core-local at core × 65,536 + address (frames first, thread × 2,048), cluster-shared at
  2³² + address, program bank at 2³³ + tag × 2¹⁸ + byte address. -/
  bad      : List Nat := []
  deriving DecidableEq, Repr
/-! ### Task Scheduler and Buffer Pool Manager (spec/11_task_scheduler.md, spec/12_buffer_pools.md) -/

inductive TaskState where
  | free | idle | delayed | ready | dispatched
  deriving DecidableEq, Repr

/-- A task, R271. -/
structure Task where
  st         : TaskState := .free
  gen        : BitVec 8 := 0
  /-- The delay of an arm made during DISPATCHED, R272. -/
  armPending : Option Nat := none
  faulted    : Bool := false
  domained   : Bool := false
  rearmFault : Bool := false
  prio       : BitVec 3 := 0
  role       : BitVec 6 := 0
  domain     : BitVec 16 := 0
  missed     : BitVec 16 := 0
  period     : BitVec 32 := 0
  arg        : BitVec 32 := 0
  /-- Due tick of the present or last run. -/
  due        : Nat := 0
  /-- A cancel came during this run, R272. -/
  cancelled  : Bool := false
  /-- The instants at which it last fell due and was last cancelled, R273. -/
  fellAt     : Option Nat := none
  cancelAt   : Option Nat := none
  deriving DecidableEq, Repr

structure Tasks where
  task   : Store Task := []
  /-- READY tasks, oldest first; a task's own priority names its queue, R276. -/
  ready  : List Nat := []
  /-- DELAYED tasks by due tick, equal ticks in the order of arming, R274. -/
  delay  : List (Nat × Nat) := []
  /-- Ticks that have fallen, the device time of the last one's instant, and the TICK in force up to the next, R274. -/
  tick   : Nat := 0
  tickAt : Nat := 0
  period : Nat := 1000
  /-- The Accord current at I42, R277. -/
  tag    : Option Nat := none
  bad    : List Nat := []
  deriving DecidableEq, Repr

/-- A free ring, R286: entries never handed out run from `next` to `limit`, then those freed, oldest first; `took` of those have left it. -/
structure FreeRing where
  next  : Nat := 0
  limit : Nat := 0
  freed : List Nat := []
  took  : Nat := 0
  deriving DecidableEq, Repr

inductive DescState where
  | free | held | consumed
  deriving DecidableEq, Repr

/-- A packet descriptor with its state word, cell chain and edits, R69, R71, R226, R281. -/
structure Desc where
  st     : DescState := .free
  gen    : BitVec 8 := 0
  metaw   : BitVec 64 := 0
  ts     : BitVec 32 := 0
  cells  : List Nat := []
  /-- Time of the CONSUME in units of 10 ms modulo 2²⁰, and whether a leak sweep has marked it. -/
  since  : BitVec 20 := 0
  leak   : Bool := false
  /-- Head edit: head cells, head length n and bytes replaced k. -/
  head   : Option (List Nat × Nat × Nat) := none
  trim   : Option Nat := none
  bad    : Bool := false
  deriving DecidableEq, Repr

/-- A buffer's state word, R285. -/
structure Buf where
  gen   : BitVec 8 := 0
  alloc : Bool := false
  leak  : Bool := false
  owner : BitVec 16 := 0
  time  : BitVec 32 := 0
  bad   : Bool := false
  deriving DecidableEq, Repr

/-- A pool's free store and counters, R286, R294; ALLOC_FAIL and FALLBACK are event counters. Pool objects are live objects. -/
structure Pool where
  ring      : FreeRing := {}
  /-- Entries copied into the pool's cache (pool 0: caches 0–3 for the slices and 4 for HEAD), R286. -/
  cache     : Store Nat := []
  lowWater  : Nat := 0
  /-- Entries that a refill read uncorrectable: LOST counts them, and none is handed out (R295). -/
  lost      : List Nat := []
  /-- Buffers whose state word a check read uncorrectable: each counts as allocated (R295). -/
  stuck     : List Nat := []
  leaked    : Nat := 0
  inUse     : Nat := 0
  /-- Ring slots that will read uncorrectable, and state words beside those in lines that do, R295. -/
  badRing   : List Nat := []
  badBuf    : List Nat := []
  /-- Elapsed time at which ENABLE was cleared, R292. -/
  offAt     : Option Nat := none
  deriving DecidableEq, Repr

/-- A handle that an H6 operation has freed in the present instant: handle, master, operation, and the next message id (R292). -/
structure FreedNow where
  since  : Nat
  handle : Nat
  master : Nat
  hop    : Nat
  seq    : Nat
  deriving DecidableEq, Repr

structure Pools where
  pool    : Store Pool := []
  freedNow : List FreedNow := []
  desc    : Store Desc := []
  /-- Packet cell memory: cell × 256 + byte; on-chip pools lie in it too, R281. -/
  cells   : Mem := []
  /-- Uncorrectable 64-byte words of cell memory: address div 64, R386. -/
  badCell : List Nat := []
  /-- Ingress accounts by port × 8 + class, R37. -/
  account : Store Nat := []
  deriving DecidableEq, Repr
/-! ### Queue Manager (spec/13_queues_egress.md) -/

/-- A spilled record: its device address, page and edited length, R312. -/
structure Spilled where
  addr : Nat
  page : Nat
  len  : Nat
  deriving DecidableEq, Repr

/-- A packet whose spill write the channels have not accepted: its record's place and the page it lies in, R312, R314. -/
structure SpillWrite where
  pkt  : QPkt
  addr : Nat
  page : Nat
  deriving DecidableEq, Repr

/-- A packet linked in the present instant: its descriptor, its record's address where it was spilled, and its place among those of one
cycle, record numbers first and then ring numbers; its domain where it has one, R302. -/
structure LinkTie where
  time   : Nat
  order  : Nat
  domain : Option Nat
  desc   : Nat
  addr   : Option Nat
  deriving DecidableEq, Repr

structure Queue where
  pkts    : List QPkt := []
  spilled : List Spilled := []
  /-- Current spill page and bytes used in it. -/
  page    : Option (Nat × Nat) := none
  /-- WRED average in units of 2⁻¹⁶ byte. -/
  avg     : Nat := 0
  /-- Stopped under R320. -/
  stopped : Bool := false
  /-- An uncorrectable state word not yet read, R320. -/
  bad     : Bool := false
  deriving DecidableEq, Repr

/-- A bucket in units of 2⁻¹⁶ byte with the elapsed time of its last credit and the remainder carried, R309. -/
structure Bucket where
  level : Int := 0
  last  : Nat := 0
  rem   : Nat := 0
  deriving DecidableEq, Repr

/-- What a child of the tree holds: both buckets and the deficit of each phase, R307 to R309. -/
structure Child where
  cir  : Bucket := {}
  pir  : Bucket := {}
  dcC  : Int := 0
  dcE  : Int := 0
  deriving DecidableEq, Repr

structure Qm where
  queue   : Store Queue := []
  /-- Children by level × 2²⁰ + number: level 0 ports, 1 to 3 nodes, 4 queues. -/
  child   : Store Child := []
  /-- DWRR pointers by ((level × 2²⁰ + node) × 2 + phase) × 8 + priority; phase 0 committed, 1 excess. -/
  ptr     : Store Nat := []
  /-- Objects in force at I36, R319: classes 0x0080 to 0x0085. -/
  objs    : Store ObjWord := []
  /-- Free ring of spill pages and entries in its cache; records left in each page, R312. -/
  pages   : FreeRing := {}
  pageUse : Store Nat := []
  /-- SPILL_EXHAUSTED has been reported and no page has been freed since, R314. -/
  spillRep : Bool := false
  /-- The spill write queue, oldest first, R314. -/
  writing : List SpillWrite := []
  /-- Packets linked in the present instant, R302. -/
  linked  : List LinkTie := []
  /-- Frames chosen for the recirculation port and for the device-to-host rings. -/
  recirc  : List QPkt := []
  host    : Store (List QPkt) := []
  deriving DecidableEq, Repr
/-! ### DRAM channels (spec/14_dram_controller.md) -/

inductive DramKind where
  | load | store | atomic (op : BitVec 3)
  deriving DecidableEq, Repr

/-- A request a channel holds, R332; `thread` is its master. -/
structure DramReq where
  id     : Nat
  thread : Nat
  kind   : DramKind
  addr   : Nat
  size   : BitVec 2
  data   : BitVec 64 := 0
  data2  : BitVec 64 := 0
  cls    : BitVec 2
  /-- The line read was uncorrectable. -/
  bad    : Bool := false
  /-- Elapsed time of acceptance, for its age. -/
  since  : Nat
  /-- A request of another requester than a thread's far load or store: what it carries took effect as it was accepted. -/
  quiet  : Bool := false
  /-- Its row has been opened for it. -/
  opened : Bool := false
  deriving DecidableEq, Repr

inductive ChanState where
  | absent | service | decanted | training
  deriving DecidableEq, Repr

structure DramChan where
  st      : ChanState := .absent
  ranks   : BitVec 2 := 0
  width   : BitVec 1 := 0
  density : BitVec 2 := 0
  rate    : BitVec 3 := 0
  temp    : BitVec 8 := 0
  hot     : Bool := false
  /-- No reading for 64 ms, or a soldered channel without a sensor, R323, R336. -/
  lost    : Bool := false
  noSensor : Bool := false
  gib     : Nat := 0
  /-- Owed operations of each rank in quarters of a 1x operation, R335. -/
  debt0   : Nat := 0
  debt1   : Nat := 0
  preempt : Bool := false
  /-- REFRESH and MARK are bits of the live channel object; the mode in force since the last refresh interval. -/
  mode    : BitVec 2 := 0
  reads   : List DramReq := []
  writes  : List DramReq := []
  /-- Requests at the channel's boundary that its 64 places do not hold yet. -/
  inbound : List DramReq := []
  /-- The bank that a request promoted by age holds until its column command has issued. -/
  hold    : Option Nat := none
  /-- Row-walk: the next row of each rank, bank by bank, and the rows that the operation under way has done (R334). -/
  walkAt  : Nat := 0
  walk    : Nat := 0
  /-- Lines that the initialisation sweep has written in ascending frame order (R338). -/
  swept   : Nat := 0
  /-- The initial sweep is over; frames moved to its head and done; borrowed frames to be swept again, R338, R339. -/
  sweepDone : Bool := true
  early   : List Nat := []
  again   : List Nat := []
  /-- Row last opened in each bank (bank number to row). -/
  openRow : Store Nat := []
  /-- Corrected symbols by rank × 32 + device this hour, and those reported, R330. -/
  ce      : Store Nat := []
  ceRep   : List Nat := []
  /-- The window of device time the counts belong to. -/
  ceHour  : Nat := 0
  /-- A live retraining runs. -/
  retrain : Bool := false
  /-- Training steps of R337 that the last training passed, in their order. -/
  step    : Nat := 0
  /-- DQS delays in steps from their trained values, by write × 64 + rank × 32 + device; windows tracked, and ZQ short calibrations
  issued (R337). -/
  dqs     : Store Int := []
  drift   : Nat := 0
  zq      : Nat := 0
  /-- Command re-issues after a parity error, R368. -/
  caRetry : Nat := 0
  deriving DecidableEq, Repr

inductive DecantPhase where
  | copyOut | retrain | held | copyBack | aborting
  deriving DecidableEq, Repr

/-- A Decant in progress, R339: channel, HOLD, phase, and each chunk's destination and cursor (lines moved). -/
structure Decant where
  channel : Nat
  hold    : Bool
  phase   : DecantPhase
  /-- home frame of the channel, destination channel, destination frame. -/
  chunks  : List (Nat × Nat × Nat)
  /-- Lines moved in the present direction: the cursor of the chunk in each of the four places the mover works on, R339. -/
  moved   : Nat := 0
  /-- The fraction of a line moved so far, in bytes. -/
  part    : Nat := 0
  /-- The retraining failed and the command has completed, R341. -/
  failed  : Bool := false
  /-- Lines that had been copied out when an abort came: those go home (R341). -/
  limit   : Nat := 0
  deriving DecidableEq, Repr

structure Dram where
  chan   : Store DramChan := []
  /-- Populated channels N, and segments S, R324, R325. -/
  n      : Nat := 0
  segs   : Nat := 0
  /-- Bytes by device address. -/
  data   : Mem := []
  /-- Lines whose check symbols stand inverted, by device address div 64, R329. -/
  bad    : List Nat := []
  /-- Bits of a line's stored burst that upsets have turned, by device address div 64, R327. -/
  flips  : Store (BitVec 640) := []
  decant : Option Decant := none
  /-- The channel of the last Decant that completed, and the elapsed time at which it did (R341). -/
  ended  : Option (Nat × Nat) := none
  deriving DecidableEq, Repr
/-! ### Accord and live service (spec/15_accord_live_service.md) -/

/-- One Accord's copies: staged objects by class × 2³² + index, program bank and decode table images, R344, R347. -/
structure Copy where
  objs : Store ObjWord := []
  bank : Mem := []
  dtab : Mem := []
  deriving DecidableEq, Repr

structure Accord where
  /-- Copies by tag. The staged copy starts as the current one's contents, R349, R351. -/
  copy       : Store Copy := []
  current    : BitVec 4 := 0
  draining   : BitVec 4 := 0
  staged     : BitVec 4 := 1
  live       : Bool := false
  drainValid : Bool := false
  preparing  : Bool := false
  /-- Preparation is done and ARM is on its way to I26. -/
  armed      : Bool := false
  /-- MARKERS: bits 0–3 slices, bit 4 the Task Scheduler. -/
  markers    : BitVec 5 := 0
  /-- Elapsed ns at the commit point. -/
  drainStart : Nat := 0
  /-- Records the bound struck, for ACCORD_RETIRED. -/
  struck     : Nat := 0
  /-- ACCORD_DISCARD runs. -/
  discarding : Bool := false
  /-- The configuration digest of the current Accord is not completed yet, R449. -/
  digestDue  : Bool := false
  deriving DecidableEq, Repr

/-- Live-scrub state of the on-chip arrays, R360, by SOURCE of the array. -/
structure Scrub where
  spare     : Store Nat := []
  corrected : Store (List Nat) := []
  deriving DecidableEq, Repr
/-! ### Security, identity and updates (spec/19_security_update.md) -/

inductive Lifecycle where
  | factory | unowned | owned
  deriving DecidableEq, Repr

inductive SlotState where
  | empty | written | staged | invalid | running
  deriving DecidableEq, Repr

/-- An IMAGE_ACTIVATE or restart under way, R364, R445. -/
inductive Restart where
  | none
  /-- Loading the slot into the idle memory. -/
  | loading (slot : Nat)
  /-- Restarted into the slot, not yet up; the slot that ran before, none in recovery. -/
  | starting (slot : Nat) (old : Option Nat)
  /-- A Steward block reset: the same image restarts. -/
  | reset
  deriving DecidableEq, Repr

/-- What a copy of the security record in boot flash holds: SEQ, PCIE_SIGNED, and each issuer slot's control word and key (R440). -/
structure RecordCopy where
  seq    : Nat
  signed : Bool
  slots  : List (BitVec 32 × List Byte)
  deriving DecidableEq, Repr

structure Security where
  lifecycle : Lifecycle := .unowned
  /-- Owner key generations by slot × 4 + generation − 1; a written all-zero key is a revocation, R437. -/
  ownerKey  : Store (Option (List Byte)) := []
  /-- Revoked vendor keys, R436. -/
  vendorRevoked : List Nat := []
  claim     : List Byte := []
  count     : Nat := 0
  /-- Milestone fuses blown, R488. -/
  milestones : Nat := 0
  factoryMode : Bool := false
  /-- Boot flash contents as the complement of each byte: an unlisted byte is erased (R434, R435; DESIGN CHOICE, log 34). -/
  flash     : Mem := []
  /-- The boot header's ACTIVE slot (R435), and the slots, and the self-test image (2), written since the device was made. -/
  active    : Nat := 0
  written   : List Nat := []
  /-- Firmware slot states, A and B. -/
  slotA     : SlotState := .empty
  slotB     : SlotState := .empty
  /-- The slot that runs; none in recovery or before boot. -/
  running   : Option Nat := none
  recovery  : Bool := false
  securityLost : Bool := false
  pcieSigned : Bool := false
  recordSeq : Nat := 0
  /-- The copy of the security record with the lower SEQ, none where it does not verify (R440). -/
  recordOld : Option RecordCopy := none
  /-- Statements made since power-on, R448. -/
  statements : Nat := 0
  restart   : Restart := .none
  /-- Issuer slots whose AUTH_REJECT of this second has been reported, by slot to second. -/
  rejectSec : Store Nat := []
  deriving DecidableEq, Repr
/-! ### Observation, debug and trace (spec/20_observation_debug.md) -/

/-- An event counter, R452, R453. -/
structure Counter where
  count   : BitVec 48 := 0
  wrapped : Bool := false
  deriving DecidableEq, Repr

/-- A window counter, R458: the event it selects and its count; for CYCLES, the cycle count at which it restarted. -/
structure WinCounter where
  event : Nat := 0
  count : BitVec 48 := 0
  deriving DecidableEq, Repr

/-- A threshold slot, R461. -/
structure Threshold where
  occupancy : BitVec 32 := 0
  level     : BitVec 26 := 0
  crossings : Counter := {}
  above     : Counter := {}
  peak      : Nat := 0
  /-- The occupancy as last seen. -/
  last      : Nat := 0
  deriving DecidableEq, Repr

/-- A trace run, R463, R464. -/
structure Trace where
  filter  : BitVec 32
  base    : Nat
  size    : Nat
  written : Nat := 0
  deriving DecidableEq, Repr

/-- A lane's bandwidth words, R459: the 1 ms windows in progress and completed, and the 10 µs windows with their peaks. -/
structure Bandwidth where
  rxNow  : Nat := 0
  txNow  : Nat := 0
  rx1ms  : Nat := 0
  tx1ms  : Nat := 0
  rx10   : Nat := 0
  tx10   : Nat := 0
  rxPeak : Nat := 0
  txPeak : Nat := 0
  /-- The aligned 10 µs window of device time that rx10 and tx10 belong to. -/
  slot   : Nat := 0
  deriving DecidableEq, Repr

/-- The JTAG port's selected instruction and DEBUG register, R466, R467. -/
inductive JtagInstr where
  | bypass | sample | extest | clamp | highz | debugReg
  deriving DecidableEq, Repr

structure Obs where
  /-- Counters by (unit × 2¹⁶ + event), unit being a SOURCE of R366 with its page above it. -/
  counter : Store Counter := []
  /-- Window counters by unit × 8 + number. -/
  window  : Store WinCounter := []
  thresh  : Store Threshold := []
  trace   : Option Trace := none
  bw      : Store Bandwidth := []
  jtag    : JtagInstr := .bypass
  /-- YCP status of the last DEBUG operation and its first 30 result bytes. -/
  dbgStatus : BitVec 16 := 0
  dbgResult : List Byte := []
  /-- A DEBUG operation that waits, with its parameter bytes (R467). -/
  dbgWait   : Option (Nat × List Byte) := none
  /-- Thousandths of clock cycles of each island since the counters were last cleared, for the CYCLES events. -/
  cycles  : Store Nat := []
  /-- CYCLES at the last read (for WRAPPED), by unit. -/
  cycRead : Store Nat := []
  /-- Boundary register: ball states sampled. -/
  boundary : List Bool := []
  deriving DecidableEq, Repr
/-! ### Islands, power, wear (spec/21_clocks_power_life.md) and pins, start-up (spec/22, spec/23) -/

/-- Island run states of R472. -/
inductive IslandState where
  | run | stopped | reset | relocking
  deriving DecidableEq, Repr

structure Island where
  st       : IslandState := .reset
  temp     : BitVec 8 := 0
  peak     : BitVec 8 := 0x80
  limit    : BitVec 8 := 0x69
  locked   : Bool := false
  sensorOk : Bool := false
  extrait  : Bool := false
  freq     : BitVec 12 := 1200
  volt     : BitVec 10 := 0x2EE
  vmeas    : BitVec 10 := 0
  /-- Accrued life in units of 2⁻⁴⁸ life unit: LIFE and its 32 further fraction bits, R487. -/
  life     : Nat := 0
  /-- ISLAND_OVERTEMP reported and no reading 5 °C below LIMIT since, R476. -/
  hotRep   : Bool := false
  /-- A CLOCK_UNLOCK stopped the clock, R477. -/
  unlocked : Bool := false
  /-- In a block reset by a reaction, which BLOCK_RESET_DONE follows, or by CLUSTER_RESET, R376, R362. -/
  blockReset : Bool := false
  /-- Held in reset since start-up because an array could not be repaired, R517. -/
  broken   : Bool := false
  /-- FREQ and VOLT to take at the end of a relock, R474. -/
  target   : Option (BitVec 12 × BitVec 10) := none
  deriving DecidableEq, Repr

/-- A change of VDD_CORE current the governor spaces, R479. -/
inductive PowerChange where
  | island (i : Nat)
  | extraitEntry
  | extraitExit
  deriving DecidableEq, Repr

/-- Extrait, R481 to R484. -/
inductive ExtraitPhase where
  | off | entering | on | exiting (cause : Nat)
  deriving DecidableEq, Repr

structure Extrait where
  phase   : ExtraitPhase := .off
  window  : Nat := 0
  ceiling : Nat := 0
  reserve : Nat := 0
  /-- Elapsed ns at which the window started, and at which exit began. -/
  start   : Nat := 0
  stop    : Nat := 0
  deriving DecidableEq, Repr

structure Power where
  island   : Store Island := []
  governor : Bool := true
  /-- Changes the governor has not released yet, oldest first. -/
  waiting  : List PowerChange := []
  extrait  : Extrait := {}
  /-- The rail target in mV as measured at the cluster islands, R471. -/
  railMv   : Nat := 750
  /-- SEQ of the wear ledger record last written, 0 before the first, and the LIFE values it holds by island, R488. -/
  ledgerSeq : Nat := 0
  ledger    : Store Nat := []
  /-- The LIFE values of the ledger copy with the lower SEQ, none before the second record (R488). -/
  ledgerOld : Option (Store Nat) := none
  deriving DecidableEq, Repr

/-- What drives a group of balls, R499: unpowered, partial, reset or by its block, and boundary scan (R466). -/
inductive DeviceState where
  | unpowered | partialPower | reset | running
  deriving DecidableEq, Repr

structure Pins where
  rails     : List Rail := []
  pwrGood   : Bool := false
  resetN    : Bool := false
  perstN    : Bool := false
  /-- FIELD_EL as the board ties it, and the mode latched at PWR_GOOD's rise: true is energy-limited, R506. -/
  fieldEl   : Bool := false
  fieldMode : Bool := false
  /-- THERM_TRIP_N is asserted, R478. -/
  therm     : Bool := false
  /-- Islands whose trip comparator reads at or above 120 °C. -/
  tripHot   : List Nat := []
  /-- The PCIe link is trained, R518. -/
  pcieUp    : Bool := false
  deriving DecidableEq, Repr

/-- Start-up, R514: the steps that have ended (2 to 10) and whether start-up runs or has stopped. -/
structure Startup where
  running  : Bool := false
  stopped  : Bool := false
  done     : List Nat := []
  /-- Fault messages that start-up raised, R526. -/
  faults   : Nat := 0
  /-- The ball of step 10: bring-up has ended. -/
  bringup  : Bool := false
  /-- A program bank has been staged since the last reset, R527. -/
  bankStaged : Bool := false
  deriving DecidableEq, Repr
/-! ### Time, crossings and the whole -/

/-- Device time, 64-bit ns with a 32-bit fraction, its trim, and the model's own count of nanoseconds elapsed. -/
structure DevTime where
  ns      : BitVec 64 := 0
  frac    : BitVec 32 := 0
  trim    : Int := 0
  /-- Whole and fractional ns of trimmed progress, unaffected by sets and steps: thread timers and ages run on it. -/
  elapsed : Nat := 0
  efrac   : Nat := 0
  deriving DecidableEq, Repr

/-- What the device has put out to the board, the host and the links, newest first (the model's own record). -/
inductive Output where
  | frame (port : Nat) (bytes : List Byte) (fcsOk : Bool)
  | pause (port : Nat) (cls : Nat) (quanta : BitVec 16)
  | remoteFault (port : Nat)
  | msix (vector : Nat)
  | reply (origin : Origin) (bytes : List Byte)
  | hostWrite (addr : Nat) (bytes : List Byte)
  | bar2Read (window : Nat) (bytes : List Byte) (poisoned : Bool)
  | i2cRead (bytes : List Byte)
  | tod (bytes : List Byte)
  | balls (levels : List Bool)
  deriving DecidableEq, Repr

/-! ### Crossings between islands (spec/01_architecture.md R16 to R19) -/

/-- What a dispatch carries from the Atomizer to a thread (R103, R104, R111). -/
structure DispatchMsg where
  thread   : Nat
  record   : Nat
  gen      : BitVec 8
  tag      : Nat
  prio     : BitVec 2
  role     : Nat
  task     : Bool
  noDomain : Bool
  passed   : BitVec 4
  released : BitVec 4
  disp     : Disp
  /-- The task word and the task handle's dispatch words, for a task (R278). -/
  taskId   : BitVec 32
  deriving DecidableEq, Repr

/-- What an access to the Table Store aperture or to DRAM does there (R186, R201, R253 to R256). -/
inductive AccKind where
  | load | store | cnt | atomic (op : BitVec 3)
  deriving DecidableEq, Repr

/-- An access sent to a slice or a channel: `addr` is the near address in the aperture or the device address. -/
structure MemReq where
  id     : Nat
  thread : Nat
  tag    : Nat
  kind   : AccKind
  addr   : Nat
  size   : BitVec 2
  data   : BitVec 64 := 0
  data2  : BitVec 64 := 0
  /-- The record the thread ran when it issued, its life, and its service class, R331. -/
  record : Nat := 0
  gen    : BitVec 8 := 0
  sc     : BitVec 2 := 1
  deriving DecidableEq, Repr

inductive LockOp where
  | acquire | tryLock | release
  deriving DecidableEq, Repr

/-- How a task's run ended, which the Sequencer tells the Task Scheduler (R275). -/
inductive RunEnd where
  | drop | consume | faulted
  deriving DecidableEq, Repr

/-- A message or token between two islands. Tokens about a record carry its number and GEN (R82). -/
inductive Msg where
  | task (task tag : Nat)
  | taskBack (task : Nat) (passed : Bool)
  | taskEnd (task : Nat) (how : RunEnd) (record : Nat) (gen : BitVec 8)
  | dispatch (d : DispatchMsg)
  | ordReq (thread record : Nat) (gen : BitVec 8) (point : Nat)
  | ordGrant (thread record : Nat) (gen : BitVec 8) (point : Nat)
  | rel (thread record : Nat) (gen : BitVec 8) (point : Nat) (pc : BitVec 16)
  | effect (thread record : Nat) (gen : BitVec 8)
  | effectAck (thread record : Nat) (gen : BitVec 8)
  | commit (thread record : Nat) (gen : BitVec 8) (op : BitVec 3) (word : BitVec 64) (pc : BitVec 16)
  | threadFree (thread : Nat)
  | fault (thread record : Nat) (gen : BitVec 8) (kind : BitVec 8)
  | notice (cluster : Nat)
  | poison (thread record : Nat) (gen : BitVec 8)
  | abort (thread record : Nat) (gen : BitVec 8) (conseq : Bool)
  | marker (tag : Nat)
  | arm (tag : Nat)
  | chan (thread position channel : Nat) (words : List (BitVec 64)) (id : Nat)
  | credit (position channel words : Nat) (all : Bool)
  | lockReq (id thread lock : Nat) (op : LockOp)
  | lockGrant (thread lock seq : Nat)
  | masterReset (thread : Nat) (whole : Bool) (bank : Nat)
  | mem (r : MemReq)
  | handover (record : Nat) (desc : Nat) (op : BitVec 3) (word : BitVec 64) (tag : Nat) (master : BitVec 16) (domain : Nat)
  deriving DecidableEq, Repr

/-- A crossing under way, R17. -/
structure Crossing where
  src : Nat
  dst : Nat
  msg : Msg
  deriving DecidableEq, Repr

/-- The whole device, with the commands that wait. -/
structure State where
  pending  : List Instr := []
  time     : DevTime := {}
  /-- Crossings under way, oldest first. -/
  net      : List Crossing := []
  /-- The identity the next request takes (the model's own field). -/
  nextId   : Nat := 0
  /-- How many free values the model has taken (the model's own field, DESIGN CHOICE, log 2). -/
  fresh    : Nat := 0
  /-- Live objects that differ from their reset value, by class × 2³² + index (R403). -/
  live     : Store ObjWord := []
  faults   : Faults := {}
  ycp      : Ycp := {}
  bar0     : Bar0 := {}
  ports    : Ports := {}
  slices   : Store Slice := []
  seq      : Seqr := {}
  clusters : Store Cluster := []
  tables   : Tables := {}
  tasks    : Tasks := {}
  pools    : Pools := {}
  qm       : Qm := {}
  dram     : Dram := {}
  accord   : Accord := {}
  scrub    : Scrub := {}
  sec      : Security := {}
  obs      : Obs := {}
  power    : Power := {}
  pins     : Pins := {}
  startup  : Startup := {}
  out      : List Output := []
  deriving DecidableEq, Repr

/-- The device right after reset is asserted, supplies up: RESET_N low, every register at the value the spec gives for
reset and every other one at the value a log entry names (spec/23_startup.md R514; logs 21 to 38). No program is
loaded: it comes to run as log 4 says. -/
def State.reset : State :=
  { pins := { rails := [.core, .sram, .sd, .sdh, .ddr, .io18, .io33], pwrGood := true } }

end Sys2Proof.Machine
end

