-- ==== Sys2Proof/Machine/Ops.lean ====
section
/-! DEFINITION. The named operations every meaning is written over: sparse stores and byte memories, bit fields, the
state's accessors, crossings, fault messages, counters and the answer of a step. -/

namespace Sys2Proof.Machine

/-! ### Sparse stores -/

/-- The value listed for `n`, else the default. -/
def Store.get {α : Type} (d : α) : Store α → Nat → α
  | [], _ => d
  | (k, v) :: t, n => if k = n then v else Store.get d t n

def Store.erase {α : Type} (m : Store α) (n : Nat) : Store α := m.filter (fun e => e.1 != n)

/-- Put an entry at its place in rising order. -/
def Store.insert {α : Type} (n : Nat) (v : α) : Store α → Store α
  | [] => [(n, v)]
  | (k, w) :: t => if n < k then (n, v) :: (k, w) :: t else (k, w) :: Store.insert n v t

/-- Write: a value equal to the default is not listed. -/
def Store.set {α : Type} [DecidableEq α] (d : α) (m : Store α) (n : Nat) (v : α) : Store α :=
  if v = d then Store.erase m n else Store.insert n v (Store.erase m n)

def Store.modify {α : Type} [DecidableEq α] (d : α) (m : Store α) (n : Nat) (f : α → α) : Store α :=
  Store.set d m n (f (Store.get d m n))

/-- Keys rise strictly and no entry holds the default: the canonical form. -/
def Store.wf {α : Type} [DecidableEq α] (d : α) (m : Store α) : Bool :=
  decide ((m.map Prod.fst).Pairwise (· < ·)) && m.all (fun e => decide (e.2 ≠ d))

/-! ### Ordering a list -/

/-- Put `x` before the first element that it does not come after. -/
def placeBy {α : Type} (le : α → α → Bool) (x : α) : List α → List α
  | [] => [x]
  | y :: t => if le x y then x :: y :: t else y :: placeBy le x t

/-- The list in order; elements that are equal under `le` keep the order they stood in. -/
def sortBy {α : Type} (le : α → α → Bool) (l : List α) : List α := l.foldr (placeBy le) []

/-! ### Bytes -/

def mget (m : Mem) (a : Nat) : Byte := Store.get 0 m a

def mput (m : Mem) (a : Nat) (b : Byte) : Mem := Store.set 0 m a b

def Memory.wf (m : Mem) : Bool := Store.wf (0 : Byte) m

/-- `n` bytes from address `a`. -/
def mread (m : Mem) (a n : Nat) : List Byte := (List.range n).map (fun i => mget m (a + i))

def mwrite (m : Mem) (a : Nat) : List Byte → Mem
  | [] => m
  | b :: t => mwrite (mput m a b) (a + 1) t

/-- Drop every listed byte from address `a` for `n` bytes: they read as zero. -/
def mclear (m : Mem) (a n : Nat) : Mem := m.filter (fun e => e.1 < a || a + n ≤ e.1)

/-- Little-endian and big-endian values of byte lists. -/
def leVal : List Byte → Nat
  | [] => 0
  | b :: t => b.toNat + 256 * leVal t

def beVal (l : List Byte) : Nat := l.foldl (fun a b => a * 256 + b.toNat) 0

def leBytes : Nat → Nat → List Byte
  | 0, _ => []
  | n + 1, v => BitVec.ofNat 8 v :: leBytes n (v / 256)

def beBytes (n v : Nat) : List Byte := (leBytes n v).reverse

def mreadLE (m : Mem) (a n : Nat) : Nat := leVal (mread m a n)

/-- `n` bytes of a list from offset `o`; beyond the end they read as zero. -/
def slice (l : List Byte) (o n : Nat) : List Byte := (List.range n).map (fun i => l.getD (o + i) 0)

def padTo (n : Nat) (l : List Byte) : List Byte := l ++ List.replicate (n - l.length) 0

/-! ### Bit fields -/

/-- Bits `hi` down to `lo` of a number. -/
def bits (v hi lo : Nat) : Nat := (v >>> lo) % 2 ^ (hi + 1 - lo)

def bitAt (v i : Nat) : Bool := v.testBit i

/-- The field of an object word, and the word with that field replaced. -/
def fld (w : ObjWord) (hi lo : Nat) : Nat := bits w.toNat hi lo

def setFld (w : ObjWord) (hi lo v : Nat) : ObjWord :=
  BitVec.ofNat 384 (w.toNat - (fld w hi lo) * 2 ^ lo + (v % 2 ^ (hi + 1 - lo)) * 2 ^ lo)

/-- The value of `w` bits read as a signed number. -/
def signed (w v : Nat) : Int := if v < 2 ^ (w - 1) then (v : Int) else (v : Int) - 2 ^ w

def b2n (b : Bool) : Nat := if b then 1 else 0

/-- Sign extension of the low `w` bits to 64. -/
def sext64 (w v : Nat) : W64 := BitVec.ofInt 64 (signed w (v % 2 ^ w))

/-- The numbers from `a` to `b`, `b` not included. -/
def span (a b : Nat) : List Nat := (List.range (b - a)).map (· + a)

/-! ### Objects (spec/17_command_protocol.md R403 to R405) -/

/-- Device parameters' defaults, R405 and the parameters' chapters. -/
def paramReset (p : Nat) : Nat :=
  match p with
  | 0x00 => 256 | 0x01 => 10000 | 0x02 => 100000 | 0x03 => 4 | 0x04 => 1000 | 0x05 => 1000
  | 0x06 => 262144 | 0x07 => 256 | 0x0B => 39
  | 0x0D => 2000 | 0x0E => 1000 | 0x0F => 10000 | 0x10 => 100000 | 0x11 => 4 | 0x12 => 12 | 0x13 => 64
  | 0x14 => 1000 | 0x15 => 1000 | 0x18 => 0x4E59
  | _ => 0

/-- The reset value of an object of a class that the model keeps as a word, from the Reset columns of its map. -/
def objReset (cls idx : Nat) : ObjWord :=
  BitVec.ofNat 384 (match cls with
    | 0x0010 => 0x5EE
    | 0x0012 => 0xFAC688 <<< 40
    | 0x0013 => (0x3FFFF <<< 18) + 0x3FF00
    | 0x0014 => (if idx % 64 = 0 then 1 <<< 62 else 0) + (1 <<< 59) + (1 <<< 58)
    | 0x0016 => 0x40 <<< 48
    | 0x0018 => 0x186A0 <<< 45
    | 0x0031 => 0x2000 <<< 28
    | 0x0033 => 0xFFFFFF
    | 0x0041 => 0x8A00
    | 0x0070 => 6 <<< 57
    | 0x0072 => 0x3FFFF
    | 0x0080 => ((idx / 4) <<< 48) + (1 <<< 37)
    | 0x0081 => ((idx / 4) <<< 114) + (1 <<< 103)
    | 0x0082 => ((idx / 8) <<< 114) + (1 <<< 103)
    | 0x0083 => (43 <<< 114) + (1 <<< 103)
    | 0x0084 => 0x14 <<< 28
    | 0x0085 => 0x100 <<< 108
    | 0x0086 => 6 <<< 58
    | 0x0087 => 6 <<< 58
    | 0x0090 => 0x1F <<< 47
    | 0x00B0 => 0x2400
    | 0x00C0 => paramReset idx
    | _ => 0)

/-- The key of an object in a store of object words. -/
def objKey (cls idx : Nat) : Nat := cls * 2 ^ 32 + idx

/-- A live object. -/
def State.obj (s : State) (cls idx : Nat) : ObjWord := Store.get (objReset cls idx) s.live (objKey cls idx)

def State.setObj (s : State) (cls idx : Nat) (w : ObjWord) : State :=
  { s with live := Store.set (objReset cls idx) s.live (objKey cls idx) w }

/-- A device parameter. -/
def State.param (s : State) (p : Nat) : Nat := (s.obj 0x00C0 p).toNat

/-- One Accord's copies, by tag. -/
def State.copy (s : State) (tag : Nat) : Copy := Store.get {} s.accord.copy tag

def State.modCopy (s : State) (tag : Nat) (f : Copy → Copy) : State :=
  { s with accord := { s.accord with copy := Store.modify {} s.accord.copy tag f } }

/-- A staged-class object as the Accord with this tag gives it. -/
def State.sobj (s : State) (tag cls idx : Nat) : ObjWord :=
  Store.get (objReset cls idx) (s.copy tag).objs (objKey cls idx)

/-! ### The state's parts -/

def State.cl (s : State) (c : Nat) : Cluster := Store.get {} s.clusters c

def State.modCl (s : State) (c : Nat) (f : Cluster → Cluster) : State :=
  { s with clusters := Store.modify {} s.clusters c f }

/-- Threads are numbered by the index of their master identity: cluster × 128 + core × 16 + thread (R20). -/
def State.th (s : State) (t : Nat) : Thread := Store.get {} (s.cl (t / 128)).thread (t % 128)

def State.modTh (s : State) (t : Nat) (f : Thread → Thread) : State :=
  s.modCl (t / 128) (fun c => { c with thread := Store.modify {} c.thread (t % 128) f })

def State.setTh (s : State) (t : Nat) (x : Thread) : State := s.modTh t (fun _ => x)

/-- The number of a thread operand, where the device has that thread. -/
def threadNo (t : ThreadId) : Nat := t.cluster * 128 + t.core * 16 + t.thread

def threadOk (t : ThreadId) : Bool := t.cluster < 26 && t.core < 8 && t.thread < 16

def coreOf (t : Nat) : Nat := t % 128 / 16

/-- Clock of an island at reset in MHz: clusters 1,500 and the others fixed (R15, R471). -/
def islandFreq (i : Nat) : Nat :=
  if i < 26 then 1500 else if i = 51 then 1000 else if i = 52 then 800 else if 43 ≤ i ∧ i < 51 then 1600 else 1200

def islandReset (i : Nat) : Island := { freq := BitVec.ofNat 12 (islandFreq i) }

def State.isl (s : State) (i : Nat) : Island := Store.get (islandReset i) s.power.island i

def State.modIsl (s : State) (i : Nat) (f : Island → Island) : State :=
  { s with power := { s.power with island := Store.modify (islandReset i) s.power.island i f } }

/-- The island's clock runs and it is not in reset. -/
def State.up (s : State) (i : Nat) : Bool := (s.isl i).st == .run

def State.inReset (s : State) (i : Nat) : Bool := (s.isl i).st == .reset

def State.slc (s : State) (i : Nat) : Slice := Store.get {} s.slices i

def State.modSlc (s : State) (i : Nat) (f : Slice → Slice) : State :=
  { s with slices := Store.modify {} s.slices i f }

def State.rcd (s : State) (r : Nat) : Rec := Store.get {} s.seq.recs r

def State.modRec (s : State) (r : Nat) (f : Rec → Rec) : State :=
  { s with seq := { s.seq with recs := Store.modify {} s.seq.recs r f } }

def State.port (s : State) (p : Nat) : Port := Store.get {} s.ports.port p

def State.modPort (s : State) (p : Nat) (f : Port → Port) : State :=
  { s with ports := { s.ports with port := Store.modify {} s.ports.port p f } }

def State.lane (s : State) (l : Nat) : Lane := Store.get {} s.ports.lane l

def State.modLane (s : State) (l : Nat) (f : Lane → Lane) : State :=
  { s with ports := { s.ports with lane := Store.modify {} s.ports.lane l f } }

def State.tsk (s : State) (n : Nat) : Task := Store.get {} s.tasks.task n

def State.modTask (s : State) (n : Nat) (f : Task → Task) : State :=
  { s with tasks := { s.tasks with task := Store.modify {} s.tasks.task n f } }

def State.desc (s : State) (d : Nat) : Desc := Store.get {} s.pools.desc d

def State.modDesc (s : State) (d : Nat) (f : Desc → Desc) : State :=
  { s with pools := { s.pools with desc := Store.modify {} s.pools.desc d f } }

/-- A pool's free store. Pool 0 starts with every cell free and its caches full (R281; DESIGN CHOICE, log 30). -/
def poolReset (p : Nat) : Pool := if p = 0 then { ring := { limit := 262144 }, lowWater := 262144 } else {}

def State.pool (s : State) (p : Nat) : Pool := Store.get (poolReset p) s.pools.pool p

def State.modPool (s : State) (p : Nat) (f : Pool → Pool) : State :=
  { s with pools := { s.pools with pool := Store.modify (poolReset p) s.pools.pool p f } }

def State.queue (s : State) (q : Nat) : Queue := Store.get {} s.qm.queue q

def State.modQueue (s : State) (q : Nat) (f : Queue → Queue) : State :=
  { s with qm := { s.qm with queue := Store.modify {} s.qm.queue q f } }

def State.chan (s : State) (c : Nat) : DramChan := Store.get {} s.dram.chan c

def State.modChan (s : State) (c : Nat) (f : DramChan → DramChan) : State :=
  { s with dram := { s.dram with chan := Store.modify {} s.dram.chan c f } }

def State.lock (s : State) (w : Nat) : Lock := Store.get {} s.tables.locks w

def State.modLock (s : State) (w : Nat) (f : Lock → Lock) : State :=
  { s with tables := { s.tables with locks := Store.modify {} s.tables.locks w f } }

/-! ### Time and free values -/

def State.now (s : State) : Nat := s.time.ns.toNat

/-- A value the spec leaves open, and the state that has taken it (DESIGN CHOICE, log 2). -/
def State.free (s : State) : W64 × State := (Config.freeWord s.fresh, { s with fresh := s.fresh + 1 })

/-- A number below `n` left open by the spec (a random draw), for `n` above zero. -/
def State.draw (s : State) (n : Nat) : Nat × State := (s.free.1.toNat % n, s.free.2)

/-- A new identity for a request. -/
def State.newId (s : State) : Nat × State := (s.nextId, { s with nextId := s.nextId + 1 })

/-! ### Outputs and host interrupts (R414, R416) -/

def State.emit (s : State) (o : Output) : State := { s with out := o :: s.out }

/-- The PCIe endpoint is out of reset and its link is trained (R498, R518). -/
def State.pcieOn (s : State) : Bool := s.pins.perstN && s.pins.pcieUp

/-- Send an MSI-X vector, or record it pending while it is masked; without a link no write leaves (R377, R416; PRESUMED, log 22: vectors are
masked at reset, and an endpoint whose link is up has MSI-X enabled and posted credit). -/
def State.msix (s : State) (v : Nat) : State :=
  let e := Store.get ((1 : BitVec 128) <<< 96) s.bar0.msix v
  if e.getLsbD 96 then { s with bar0 := { s.bar0 with msixPend := s.bar0.msixPend ||| (1 <<< v) } }
  else if s.pcieOn then s.emit (.msix v) else s

/-- The vector of an EVENT_CAUSE bit, R416. -/
def eventVector (bit : Nat) : Nat :=
  match bit with | 2 => 1 | 3 => 2 | 4 => 3 | _ => 0

/-- Set an EVENT_CAUSE bit; one that rises sends its vector. BAR0 stays in reset while PCIE_PERST_N is low (R498). -/
def State.event (s : State) (bit : Nat) : State :=
  if s.bar0.eventCause.getLsbD bit || !s.pins.perstN then s
  else State.msix { s with bar0 := { s.bar0 with eventCause := s.bar0.eventCause ||| (1 <<< bit) } } (eventVector bit)

/-- An event for the Steward: STEWARD_EVENT sets, or the event is kept until the firmware runs (R364, R414). -/
def State.stewardEvent (s : State) (e : StewardEvent) : State :=
  if s.ycp.up then State.event { s with ycp := { s.ycp with events := s.ycp.events ++ [e] } } 2
  else { s with ycp := { s.ycp with kept := s.ycp.kept ++ [e] } }

/-! ### Event counters (spec/20_observation_debug.md R452 to R458) -/

/-- Add `n` to an event counter: WRAPPED sets when it passes 2⁴⁸ − 1. -/
def Counter.add (c : Counter) (n : Nat) : Counter :=
  { count := c.count + BitVec.ofNat 48 n, wrapped := c.wrapped || 2 ^ 48 ≤ c.count.toNat + n }

/-- The key of event number `ev` (page × 65,536 + EVENT) of a unit. -/
def counterKey (unit ev : Nat) : Nat := unit * 2 ^ 20 + ev

/-- Count `n` occurrences of an event in the unit's counter and in every window counter that selects it. -/
def State.count (s : State) (unit ev : Nat) (n : Nat := 1) : State :=
  { s with obs := { s.obs with
      counter := Store.modify {} s.obs.counter (counterKey unit ev) (·.add n)
      window := s.obs.window.map (fun e =>
        if e.1 / 8 = unit ∧ e.2.event = ev then (e.1, { e.2 with count := e.2.count + BitVec.ofNat 48 n }) else e) } }

/-- Count one event of a queue (R457): units 0x20 to 0x27 of island 36. -/
def State.countQueue (s : State) (unit q : Nat) (n : Nat := 1) : State := s.count (36 * 64 + unit) q n

/-! ### Fault messages (spec/16_faults_recovery.md R365 to R370) -/

/-- The class of a kind, R368. -/
def kindClass (k : Nat) : Nat :=
  if k = 0x40 then 3 else if k = 0x41 ∨ k = 0x42 ∨ k = 0x45 then 6 else if k = 0x43 then 8 else if k = 0x44 then 2
  else if k = 0x48 then 2 else if k = 0x49 ∨ k = 0x4A then 6 else if k = 0x4B then 9 else if k = 0x4C then 8
  else if 0x50 ≤ k ∧ k ≤ 0x55 then 1 else if k = 0x56 ∨ k = 0x57 then 0 else if k = 0x58 then 1
  else if k = 0x59 then 2 else if k = 0x5A then 9 else if k = 0x60 ∨ k = 0x61 then 7 else if k = 0x62 then 0
  else if k = 0x63 ∨ k = 0x64 then 2 else if 0x68 ≤ k ∧ k ≤ 0x6E then 0 else if k = 0x70 then 5
  else if k = 0x78 then 2 else if k = 0x79 ∨ k = 0x7A then 8 else if k = 0x7B then 4 else if k = 0x7C then 9
  else if k = 0x80 ∨ k = 0x81 then 7 else if k = 0x82 then 2 else if k = 0x88 ∨ k = 0x89 then 1
  else if k = 0x8A then 2 else if k = 0x8B then 9 else if k = 0x90 then 2 else if k = 0x91 then 7
  else if k = 0x92 then 2 else if k = 0x98 then 0 else if k = 0x99 then 2 else if k = 0x9A then 6
  else if k = 0x9B then 3 else if k = 0x9C then 12 else if k = 0x9D then 8 else if k = 0x9E then 9
  else if k = 0xA0 then 3 else if k = 0xA1 then 4 else if 0xA2 ≤ k ∧ k ≤ 0xA4 then 10 else if k = 0xA5 then 8
  else if k = 0xA6 then 9 else if k = 0xA7 ∨ k = 0xA8 then 4 else if k = 0xA9 ∨ k = 0xAA then 8
  else if k = 0xAB then 9 else if k = 0xB0 ∨ k = 0xB1 then 10 else if k = 0xB2 ∨ k = 0xB3 then 11
  else if 0xB8 ≤ k ∧ k ≤ 0xBA then 13 else if k = 0xBB then 12 else if k = 0xC0 ∨ k = 0xC1 then 14
  else if k = 0xC2 then 5 else if k = 0xC3 then 14 else if k = 0xC4 then 9 else 15

/-- A source identifier from island and unit, R366. -/
def src (island unit : Nat) : Nat := island * 64 + unit

/-- What a fault message says beside its source and kind. -/
structure FaultInfo where
  addr   : Nat := 0
  detail : Nat := 0
  /-- The Steward's identity where no master is involved. -/
  master : Nat := 0x1000
  access : Nat := 0
  conseq : Bool := false
  injected : Bool := false
  deriving DecidableEq, Repr

def mkFault (s : State) (source kind : Nat) (i : FaultInfo) : FaultMsg :=
  { source := BitVec.ofNat 12 source, kind := BitVec.ofNat 8 kind, cls := BitVec.ofNat 4 (kindClass kind)
    master := BitVec.ofNat 16 i.master, access := BitVec.ofNat 4 i.access, address := BitVec.ofNat 48 i.addr
    detail := BitVec.ofNat 32 i.detail, time := s.time.ns, conseq := i.conseq, injected := i.injected }

/-- Place a message in its island's outbox, or discard and count it by class when the outbox holds 16 (R370). -/
def State.enqueueFault (s : State) (m : FaultMsg) : State :=
  let isl := m.source.toNat / 64
  let o := Store.get ({} : Outbox) s.faults.outbox isl
  if o.msgs.length < 16 then
    State.count { s with faults := { s.faults with
      outbox := Store.set {} s.faults.outbox isl { o with msgs := o.msgs ++ [m] } } } m.source.toNat 1
  else
    State.count { s with faults := { s.faults with
      outbox := Store.set {} s.faults.outbox isl
        { o with lost := Store.modify 0 o.lost m.cls.toNat (· + 1), lastClass := m.cls } } } m.source.toNat 2

/-- Raise a fault of `kind` from `source` (SOURCE of R366). -/
def State.raise (s : State) (source kind : Nat) (i : FaultInfo := {}) : State :=
  s.enqueueFault (mkFault s source kind i)

/-- DETAIL of a kind about a record: GEN and record number (R369). -/
def recDetail (gen : BitVec 8) (r : Nat) : Nat := gen.toNat * 8192 + r

/-! ### Crossings (R17 to R19) -/

def State.send (s : State) (a b : Nat) (m : Msg) : State := { s with net := s.net ++ [⟨a, b, m⟩] }

/-- The oldest message from `a` to `b`. -/
def State.oldest (s : State) (a b : Nat) : Option Msg :=
  (s.net.find? (fun c => c.src == a && c.dst == b)).map (·.msg)

/-- Drop the first crossing from `a` to `b`. -/
def dropCrossing (a b : Nat) : List Crossing → List Crossing
  | [] => []
  | c :: t => if c.src = a ∧ c.dst = b then t else c :: dropCrossing a b t

/-- Take the oldest message: the receiver has accepted its flits (R371). -/
def State.taken (s : State) (a b : Nat) : State :=
  { s with net := dropCrossing a b s.net, faults := { s.faults with flitTries := Store.erase s.faults.flitTries (a * 64 + b) } }

/-- The message that an arrival at a running island takes: the oldest from `a` to `b` (R17; DEDUCED, log 5). -/
def State.arrive (s : State) (a b : Nat) : Option Msg := if s.up b then s.oldest a b else none

end Sys2Proof.Machine
end

