-- ==== Sys2Proof/Machine/Burst.lean ====
section
/-! DEFINITION. Device DRAM below its requesters: the map, Burst Guard's codewords, the initialisation sweep's frames, and the requests
that channels hold (spec/14_dram_controller.md R325 to R332, R338, R340); trace and threshold counters (spec/20_observation_debug.md). -/

namespace Sys2Proof.Machine

/-! ### The map (R325, R326, R340) -/

/-- Installed capacity in bytes over the channels in service (R324). -/
def State.dramSize (s : State) : Nat := ((List.range s.dram.n).map (fun c => (s.chan c).gib)).sum * 2 ^ 30

/-- Device address at which the Decant reserve starts (R326). -/
def State.reserveBase (s : State) : Nat := (s.dram.segs - s.param 0x0C) * 2 ^ 26

/-- The address lies in the reserve while a Decant has unmapped it (R339). -/
def State.unmapped (s : State) (a : Nat) : Bool := s.dram.decant.isSome && s.reserveBase ≤ a

/-- Interleave slot of a device address. -/
def slotOf (a : Nat) : Nat := bits a 10 8 ^^^ bits a 18 16

/-- The home channel of a device address (R325). -/
def State.homeChannel (s : State) (a : Nat) : Nat := if s.dram.n = 0 then 0 else slotOf a % s.dram.n

/-- Home frame of a device address in its channel. -/
def State.homeFrame (s : State) (a : Nat) : Nat := if s.dram.n = 0 then 0 else bits a 38 26 * (8 / s.dram.n) + slotOf a / s.dram.n

/-- The device address of byte `off` of a home frame of a channel: the inverse of R325. -/
def State.frameAddr (s : State) (ch frame off : Nat) : Nat :=
  let per := 8 / s.dram.n
  let j := frame % per * s.dram.n + ch
  let hi := off / 256
  let x := bits (hi <<< 11) 18 16
  frame / per * 2 ^ 26 + hi * 2 ^ 11 + (j ^^^ x) * 256 + off % 256

/-- Lines of chunk `i` that are copied once `moved` lines are: chunks move four at a time, line by line in turn (R339 step 4). -/
def Decant.cursor (d : Decant) (i moved : Nat) : Nat :=
  let first := i / 4 * 4
  let g := min 4 (d.chunks.length - first)
  min 131072 ((moved - first * 131072 + (g - 1) - i % 4) / max 1 g)

/-- The line of chunk `i` lies at the chunk's destination. -/
def Decant.away (d : Decant) (i line : Nat) : Bool :=
  match d.phase with
  | .copyOut => line < d.cursor i d.moved
  | .copyBack => d.cursor i d.moved ≤ line
  | .aborting => d.cursor i d.moved ≤ line && line < d.cursor i d.limit
  | _ => true

/-- Where a line of a chunk lies while Decant has moved it: the channel and frame (R340). -/
def State.redirect (s : State) (ch frame off : Nat) : Nat × Nat :=
  match s.dram.decant with
  | none => (ch, frame)
  | some d =>
    match d.chunks.zipIdx.find? (fun e => d.channel == ch && e.1.1 == frame) with
    | none => (ch, frame)
    | some ((_, dc, df), i) => if d.away i (off / 64) then (dc, df) else (ch, frame)

/-- Offset of a device address in its 8 MiB chunk. -/
def chunkOff (a : Nat) : Nat := bits a 25 11 * 256 + bits a 7 0

/-- Channel and channel offset of a device address. -/
def State.place' (s : State) (a : Nat) : Nat × Nat :=
  let (c, f) := s.redirect (s.homeChannel a) (s.homeFrame a) (chunkOff a)
  (c, f * 2 ^ 23 + chunkOff a)

/-- Rank, bank and row of a channel offset: banks of the second rank follow those of the first. -/
def DramChan.rankOf (c : DramChan) (o : Nat) : Nat := if c.ranks = 2 then bits o 17 17 else 0
def DramChan.bankRow (c : DramChan) (o : Nat) : Nat × Nat :=
  (c.rankOf o * 16 + bits o 16 15 * 4 + bits o 7 6, o >>> (if c.ranks = 2 then 18 else 17))

def dramSrc (c : Nat) : Nat := src (43 + c) 0

/-- The channel serves: in service, decanted (its lines lie elsewhere) or retraining under Decant. -/
def State.chanServes (s : State) (c : Nat) : Bool := (s.chan c).st == .service || (s.chan c).st == .decanted

/-- 256-byte granules, and 64-byte lines, that `n` bytes from `a` lie in. -/
def granulesOf (a n : Nat) : List Nat := if n = 0 then [] else span (a / 256) ((a + n - 1) / 256 + 1)
def linesOf (a n : Nat) : List Nat := if n = 0 then [] else span (a / 64) ((a + n - 1) / 64 + 1)

/-! ### The sweep's frames (R338) -/

/-- Lines in a frame of 8 MiB. -/
def frameLines : Nat := 131072

/-- The frame of the channel has not been swept. -/
def DramChan.unswept (c : DramChan) (f : Nat) : Bool :=
  (!c.sweepDone && decide (c.swept < (f + 1) * frameLines) && !c.early.contains f) || c.again.contains f

/-- A write to an unswept frame: the frame goes to the head of the sweep and is swept first. -/
def State.sweepFrame (s : State) (c f : Nat) : State :=
  if (s.chan c).unswept f then
    s.modChan c (fun k => { k with early := if k.sweepDone then k.early else k.early ++ [f], again := k.again.filter (· != f) })
  else s

/-! ### Burst Guard (R327 to R330) -/

/-- The codeword of a line's 64 bytes: symbols 0 to 31 are its bytes in pairs, little-endian, and symbols 32 to 39 the check symbols. -/
def codeword (data : BitVec 512) : BitVec 640 := Config.checkSymbols data ++ data

/-- The codeword bit that DQ `dq` carries in beat `t`. -/
def dqBit (width : BitVec 1) (dq t : Nat) : Nat :=
  if width = 0 then 16 * (2 * (dq / 4) + t / 4) + 4 * (t % 4) + dq % 4
  else 16 * (4 * (dq / 8) + t / 2) + 8 * (t % 2) + dq % 8

/-- The device that holds a symbol: two symbols in an x4 device, four in an x8 one. -/
def symbolDevice (width : BitVec 1) (k : Nat) : Nat := if width = 0 then k / 2 else k / 4

/-- Symbols of a codeword that an error pattern touches. -/
def touchedSymbols (e : BitVec 640) : List Nat := (List.range 40).filter (fun k => e.extractLsb' (16 * k) 16 != 0)

/-- The decoder corrects the pattern: at most four symbols in all, or errors and erasures that RS(40,32) corrects together, two check
symbols for an error and one for an erased symbol. A pattern beyond it is reported (DESIGN CHOICE, log 58). -/
def correctable (width : BitVec 1) (mark : Option Nat) (e : BitVec 640) : Bool :=
  let bad := touchedSymbols e
  let erased := fun (k : Nat) => some (symbolDevice width k) == mark
  decide (bad.length ≤ 4) || decide (2 * (bad.filter (fun k => !erased k)).length + ((List.range 40).filter erased).length ≤ 8)

/-- The eight check symbols, inverted: an uncorrectable line as it is written back. -/
def invertedChecks : BitVec 640 := (BitVec.allOnes 128) ++ (0 : BitVec 512)

/-- Bits of a line's stored burst that differ from its codeword. -/
def State.lineErrors (s : State) (l : Nat) : BitVec 640 :=
  Store.get 0 s.dram.flips l ^^^ (if s.dram.bad.contains l then invertedChecks else 0)

/-- The burst as the devices hold it. -/
def State.storedBurst (s : State) (l : Nat) : BitVec 640 := codeword (BitVec.ofNat 512 (mreadLE s.dram.data (64 * l) 64)) ^^^ s.lineErrors l

/-- The device that MARK and MARK_RANK of the channel erase in a line's burst, where its rank is the marked one (R324). -/
def State.markedDevice (s : State) (l : Nat) : Option Nat :=
  let (c, o) := s.place' (64 * l)
  let w := s.obj 0x0090 c
  if fld w 51 47 ≠ 0x1F ∧ fld w 46 46 = (s.chan c).rankOf o then some (fld w 51 47) else none

/-- A read of the line proves uncorrectable. -/
def State.lineBad (s : State) (l : Nat) : Bool :=
  s.dram.bad.contains l ||
    (Store.get 0 s.dram.flips l != 0 && !correctable (s.chan (s.place' (64 * l)).1).width (s.markedDevice l) (s.lineErrors l))

/-- Corrected symbols of one device of one rank in this hour of device time: DRAM_CE_RATE once as they reach CE_THRESH.
ADDRESS holds the channel in [15:8], the rank in [5] and the device in [4:0] (DEDUCED, log 43). -/
def State.corrected (s : State) (c rank device n : Nat) : State :=
  let hour := s.now / 3600000000000
  let key := rank * 32 + device
  let s := s.modChan c (fun k => if k.ceHour = hour then k else { k with ceHour := hour, ce := [], ceRep := [] })
  let s := (s.modChan c (fun k => { k with ce := Store.modify 0 k.ce key (· + n) })).count (dramSrc c) 0x20 n
  let k := s.chan c
  if s.param 0x13 ≤ Store.get 0 k.ce key ∧ ¬ k.ceRep.contains key then
    (s.modChan c (fun k => { k with ceRep := k.ceRep ++ [key] })).raise (dramSrc c) 0xA1
      { addr := c * 256 + rank % 2 * 32 + device % 32, access := 0xA, master := 0x4103 }
  else s

/-- A burst is read: the symbols that the decoder corrects are counted by device (R330). -/
def State.decodeLine (s : State) (l : Nat) : State :=
  if Store.get 0 s.dram.flips l = 0 ∨ s.lineBad l = true then s
  else
    let (c, o) := s.place' (64 * l)
    let k := s.chan c
    let devices := (touchedSymbols (s.lineErrors l)).map (symbolDevice k.width)
    devices.eraseDups.foldl (fun s d => s.corrected c (k.rankOf o) d (devices.count d)) s

/-- An uncorrectable line is read: counted and reported by the channel that holds it (R329). -/
def State.dramUe (s : State) (a master access : Nat) (conseq : Bool := false) : State :=
  let c := (s.place' a).1
  (s.count (dramSrc c) 0x21).raise (dramSrc c) 0xA0 { addr := a / 64 * 64, master := master, access := access, conseq := conseq }

/-- Lines are read for a requester: whether one is uncorrectable. Each that is is reported. -/
def State.readLines (s : State) (l : List Nat) (master access : Nat) : Bool × State :=
  (l.any s.lineBad, l.foldl (fun s k => if s.lineBad k then s.dramUe (64 * k) master access else s.decodeLine k) s)

/-- Lines about to be written: their frames are swept, a whole line loses its errors, and a line written in part is read first, corrected,
or written back with every check symbol inverted where it is uncorrectable (R329). -/
def State.readyLines (s : State) (l : List Nat) (whole : Nat → Bool) : State :=
  let s := (l.map (· / 4)).eraseDups.foldl (fun s g => let p := s.place' (256 * g); s.sweepFrame p.1 (p.2 / 2 ^ 23)) s
  let part := l.filter (fun k => !whole k)
  let inverted := part.filter (fun k => s.lineBad k && !s.dram.bad.contains k)
  let s := part.foldl (fun s k => s.decodeLine k) s
  { s with dram := { s.dram with
      bad := s.dram.bad.filter (fun k => !(l.contains k && whole k)) ++ inverted
      flips := s.dram.flips.filter (fun e => !l.contains e.1) } }

/-! ### Bytes -/

def State.dramBytes (s : State) (a n : Nat) : List Byte := mread s.dram.data a n

def State.dramWrite (s : State) (a : Nat) (l : List Byte) : State :=
  let s := s.readyLines (linesOf a l.length) (fun w => decide (a ≤ w * 64) && decide (w * 64 + 64 ≤ a + l.length))
  { s with dram := { s.dram with data := mwrite s.dram.data a l } }

/-- Write `n` zero bytes over whole lines. -/
def State.dramClear (s : State) (a n : Nat) : State :=
  let inside := fun (w : Nat) => decide (a ≤ w * 64) && decide (w * 64 + 64 ≤ a + n)
  { s with dram := { s.dram with
      data := mclear s.dram.data a n, bad := s.dram.bad.filter (fun w => !inside w), flips := s.dram.flips.filter (fun e => !inside e.1) } }

/-! ### Requests (R331, R332, R339, R340, R343) -/

/-- An access is refused: at a channel island in reset or a channel out of service, or in a reserve that a Decant has unmapped. -/
def State.dramGone (s : State) (a n : Nat) : Bool :=
  (granulesOf a n).any (fun g =>
    let h := s.homeChannel (256 * g)
    let d := (s.place' (256 * g)).1
    s.unmapped (256 * g) || s.inReset (43 + h) || s.inReset (43 + d) || (s.chan h).st == .absent || (s.chan d).st == .absent)

/-- Every channel that an access crosses runs and serves. -/
def State.dramRuns (s : State) (a n : Nat) : Bool :=
  (granulesOf a n).all (fun g =>
    let h := s.homeChannel (256 * g)
    let d := (s.place' (256 * g)).1
    s.up (43 + h) && s.chanServes h && s.up (43 + d) && s.chanServes d)

/-- An access of a requester other than a thread's far load or store is taken: its channels run, and no pre-emption by refresh holds
one (R335). -/
def State.dramOpen (s : State) (a n : Nat) : Bool :=
  s.dramRuns a n && (granulesOf a n).all (fun g => !(s.chan (s.place' (256 * g)).1).preempt)

/-- Islands of the channels that `n` bytes from `a` lie on. -/
def State.dramIslands (s : State) (a n : Nat) : List Nat :=
  ((granulesOf a n).flatMap (fun g => [43 + s.homeChannel (256 * g), 43 + (s.place' (256 * g)).1])).eraseDups

/-- A request enters its channel's 64 places, or waits at the channel's boundary. -/
def State.placeReq (s : State) (c : Nat) (r : DramReq) : State :=
  s.modChan c (fun k => match r.kind with
    | .load => if k.reads.length < 64 then { k with reads := k.reads ++ [r] } else { k with inbound := k.inbound ++ [r] }
    | _ => if k.writes.length < 64 then { k with writes := k.writes ++ [r] } else { k with inbound := k.inbound ++ [r] })

/-- A requester's lines go to their channels in its service class, each counted as it is served; one whose line has moved is counted as
forwarded (R340). What they carry takes effect as they are accepted. -/
def State.dramIssue (s : State) (write : Bool) (l : List Nat) (cls master : Nat) : State :=
  l.foldl (fun s k =>
    let h := s.homeChannel (64 * k)
    let c := (s.place' (64 * k)).1
    let s := if c = h then s else s.count (src (43 + h) 3) 0x11
    s.placeReq c { id := 0, thread := master, kind := if write then .store else .load, addr := 64 * k, size := 3
                   cls := BitVec.ofNat 2 cls, since := s.time.elapsed, quiet := true }) s

/-! ### The end of a block reset (R376) -/

/-- An island that runs is back in service after a block reset by a reaction: the collector reports it once. -/
def State.returned (s : State) (i : Nat) : State :=
  if (s.isl i).blockReset && s.up i then
    (s.modIsl i (fun x => { x with blockReset := false })).raise (src 52 0) 0xC4 { addr := i, conseq := true }
  else s

/-! ### Trace (R463 to R465) -/

/-- Write a trace record where a trace runs and its filter admits the record; it is lost while its channel is in reset. -/
def State.trace (s : State) (kind info master gen record domain pc data : Nat) : State :=
  match s.obs.trace with
  | none => s
  | some t =>
    let f := t.filter.toNat
    if bitAt f (24 + kind - 1) ∧ (¬ bitAt f 23 ∨ bits f 15 0 = domain) ∧ (¬ bitAt f 22 ∨ (master < 4096 ∧ bits f 21 17 = bits master 11 7)) then
      let a := t.base * 2 ^ 20 + 32 * (t.written % (32768 * t.size))
      if s.dramGone a 32 then s.count (src 52 1) 0x11
      else
        let s := (s.dramIssue true [a / 64] 2 0x4107).dramWrite a
          (leBytes 8 s.now ++ leBytes 1 kind ++ leBytes 1 info ++ leBytes 2 master ++ leBytes 4 (gen * 8192 + record)
            ++ leBytes 2 domain ++ leBytes 2 pc ++ leBytes 8 data ++ leBytes 4 0)
        State.count { s with obs := { s.obs with trace := some { t with written := t.written + 1 } } } (src 52 1) 0x10
    else s

/-! ### Occupancies watched by threshold counters (R460, R461) -/

/-- On-chip bytes a queue holds. -/
def queueDepth (q : Queue) : Nat := (q.pkts.map (·.len)).sum + (q.spilled.map (·.len)).sum

def State.domainCount (s : State) (d : Nat) : Nat :=
  s.seq.recs.countP (fun e => e.2.st != .free && e.2.placed && e.2.domain.toNat == d)

def State.busyThreads (s : State) (c : Nat) : Nat := ((s.cl c).thread.filter (·.2.busy)).length

def State.recordsUsed (s : State) : Nat := s.seq.recs.countP (fun e => e.2.st != .free)

def reqClassCount (l : List DramReq) (k : Nat) : Nat := l.countP (fun r => r.cls.toNat == k)

def State.occupancy (s : State) (kind idx : Nat) : Nat :=
  match kind with
  | 1 => queueDepth (s.queue idx) / 1024
  | 2 => (s.pool idx).inUse
  | 3 => reqClassCount (s.chan (idx / 4)).reads (idx % 4) + reqClassCount (s.chan (idx / 4)).writes (idx % 4)
  | 4 => s.domainCount idx
  | 5 => s.busyThreads idx
  | 6 => s.recordsUsed
  | 7 => Store.get 0 s.pools.account idx
  | _ => 0

/-- Compare a threshold slot with its occupancy: a rise to LEVEL counts a crossing, and PEAK follows. -/
def Threshold.see (t : Threshold) (v : Nat) : Threshold :=
  { t with
    crossings := if t.level.toNat ≠ 0 ∧ t.last < t.level.toNat ∧ t.level.toNat ≤ v then t.crossings.add 1 else t.crossings
    peak := max t.peak v, last := v }

def State.watch (s : State) : State :=
  { s with obs := { s.obs with thresh := s.obs.thresh.map (fun e =>
      (e.1, e.2.see (s.occupancy (bits e.2.occupancy.toNat 31 24) (bits e.2.occupancy.toNat 23 0)))) } }

/-- The answer of a meaning: the next state, with the threshold slots compared (R461; DESIGN CHOICE, log 9). -/
def answer (s : State) : Host.Outcome State Fault Refusal := .next s.watch

end Sys2Proof.Machine
end

