-- ==== Sys2Proof/Machine/Crypto.lean ====
section
/-! DEFINITION. The hashes, ciphers and signatures that the spec names by their standards: CRC-32 and CRC-32C, Toeplitz,
SipHash-2-4, AES-256, GHASH, SHA-512 and Ed25519 (spec/08_helpers.md R218, R219, R229; RFC 8032 of R389). The standards'
own text is not in the spec: the algorithms are PRESUMED as those standards give them (log 10). -/

namespace Sys2Proof.Machine

/-! ### CRC, Toeplitz, SipHash -/

/-- One reflected CRC step of a byte. -/
def crcByte (poly : BitVec 32) (r : BitVec 32) (b : Byte) : BitVec 32 :=
  (List.range 8).foldl (fun c _ => if c.getLsbD 0 then (c >>> 1) ^^^ poly else c >>> 1) (r ^^^ b.zeroExtend 32)

/-- The CRC register after a byte string, for a reflected polynomial. -/
def crcRun (poly r : BitVec 32) (l : List Byte) : BitVec 32 := l.foldl (crcByte poly) r

/-- 0x04C1_1DB7 and 0x1EDC_6F41 reflected (R219). -/
def polyCrc32 : BitVec 32 := 0xEDB88320
def polyCrc32c : BitVec 32 := 0x82F63B78

/-- Bit `i` of a byte string, the first byte's most significant bit first. -/
def msbBit (l : List Byte) (i : Nat) : Bool := (l.getD (i / 8) 0).getLsbD (7 - i % 8)

/-- The Toeplitz hash: for each data bit that is 1, the 32 key bits from its place (R219). -/
def toeplitz (data key : List Byte) : BitVec 32 :=
  (List.range (8 * data.length)).foldl (fun h i =>
    if msbBit data i then h ^^^ BitVec.ofNat 32 ((List.range 32).foldl (fun a j => 2 * a + b2n (msbBit key (i + j))) 0) else h) 0

structure Sip where
  v0 : W64
  v1 : W64
  v2 : W64
  v3 : W64

def Sip.round (s : Sip) : Sip :=
  let v0 := s.v0 + s.v1
  let v1 := s.v1.rotateLeft 13 ^^^ v0
  let v0 := v0.rotateLeft 32
  let v2 := s.v2 + s.v3
  let v3 := s.v3.rotateLeft 16 ^^^ v2
  let v0 := v0 + v3
  let v3 := v3.rotateLeft 21 ^^^ v0
  let v2 := v2 + v1
  let v1 := v1.rotateLeft 17 ^^^ v2
  ⟨v0, v1, v2.rotateLeft 32, v3⟩

def Sip.word (s : Sip) (m : W64) : Sip :=
  let s := (Sip.round (Sip.round { s with v3 := s.v3 ^^^ m }))
  { s with v0 := s.v0 ^^^ m }

/-- SipHash-2-4 of a byte string under a 16-byte key. -/
def sipHash (key data : List Byte) : W64 :=
  let k0 := BitVec.ofNat 64 (leVal (slice key 0 8))
  let k1 := BitVec.ofNat 64 (leVal (slice key 8 8))
  let n := data.length
  let s : Sip := ⟨k0 ^^^ 0x736f6d6570736575, k1 ^^^ 0x646f72616e646f6d, k0 ^^^ 0x6c7967656e657261, k1 ^^^ 0x7465646279746573⟩
  let s := (List.range (n / 8)).foldl (fun s i => s.word (BitVec.ofNat 64 (leVal (slice data (8 * i) 8)))) s
  let s := s.word (BitVec.ofNat 64 (leVal (data.drop (8 * (n / 8))) + (n % 256) * 2 ^ 56))
  let s := { s with v2 := s.v2 ^^^ 0xff }
  let s := s.round.round.round.round
  s.v0 ^^^ s.v1 ^^^ s.v2 ^^^ s.v3

/-! ### AES-256 and GHASH -/

/-- Product in GF(2⁸) modulo x⁸ + x⁴ + x³ + x + 1. -/
def gmul (a b : Byte) : Byte :=
  ((List.range 8).foldl (fun (p : Byte × Byte) i =>
    (if b.getLsbD i then p.1 ^^^ p.2 else p.1, if p.2.msb then (p.2 <<< 1) ^^^ 0x1B else p.2 <<< 1)) (0, a)).1

/-- The inverse in GF(2⁸), 0 for 0: the 254th power. -/
def ginv (a : Byte) : Byte := (List.range 254).foldl (fun p _ => gmul p a) 1

def aesSbox (a : Byte) : Byte :=
  let x := if a = 0 then 0 else ginv a
  x ^^^ x.rotateLeft 1 ^^^ x.rotateLeft 2 ^^^ x.rotateLeft 3 ^^^ x.rotateLeft 4 ^^^ 0x63

def xorBytes (a b : List Byte) : List Byte := List.zipWith (· ^^^ ·) a b

/-- The AES-256 key schedule: 60 words of 4 bytes, 240 bytes. -/
def aesExpand (key : List Byte) : List Byte :=
  (List.range 52).foldl (fun w i =>
    let n := i + 8
    let t := slice w (4 * (n - 1)) 4
    let t := if n % 8 = 0 then
        xorBytes ((t.rotateLeft 1).map aesSbox)
          [(List.range (n / 8 - 1)).foldl (fun c _ => gmul c 2) 1, 0, 0, 0]
      else if n % 8 = 4 then t.map aesSbox else t
    w ++ xorBytes (slice w (4 * (n - 8)) 4) t) (slice key 0 32)

/-- ShiftRows on the 16 bytes in column order. -/
def shiftRows (s : List Byte) : List Byte :=
  (List.range 16).map (fun i => s.getD ((4 * ((i / 4 + i % 4) % 4)) + i % 4) 0)

def mixColumn (c : List Byte) : List Byte :=
  (List.range 4).map (fun i => gmul 2 (c.getD i 0) ^^^ gmul 3 (c.getD ((i + 1) % 4) 0) ^^^ c.getD ((i + 2) % 4) 0 ^^^ c.getD ((i + 3) % 4) 0)

/-- AES-256 of one block under a 240-byte schedule. -/
def aesBlock (w blk : List Byte) : List Byte :=
  let s := xorBytes blk (slice w 0 16)
  let s := (List.range 13).foldl (fun s r =>
    let t := shiftRows (s.map aesSbox)
    xorBytes ((List.range 4).flatMap (fun c => mixColumn (slice t (4 * c) 4))) (slice w (16 * (r + 1)) 16)) s
  xorBytes (shiftRows (s.map aesSbox)) (slice w 224 16)

/-- Product in GF(2¹²⁸) as GHASH takes it: bit 0 is the most significant bit of the first byte. -/
def ghashMul (x y : BitVec 128) : BitVec 128 :=
  ((List.range 128).foldl (fun (p : BitVec 128 × BitVec 128) i =>
    (if x.getLsbD (127 - i) then p.1 ^^^ p.2 else p.1,
     if p.2.getLsbD 0 then (p.2 >>> 1) ^^^ ((0xE1 : BitVec 128) <<< 120) else p.2 >>> 1)) (0, y)).1

def ghmul (x h : List Byte) : List Byte :=
  beBytes 16 (ghashMul (BitVec.ofNat 128 (beVal x)) (BitVec.ofNat 128 (beVal h))).toNat

/-- GHASH of a byte string, padded to whole blocks. -/
def ghash (h l : List Byte) : List Byte :=
  (List.range ((l.length + 15) / 16)).foldl (fun y i => ghmul (xorBytes y (slice l (16 * i) 16)) h) (List.replicate 16 0)

/-- Counter block with its low 32 bits advanced by 1 (inc32). -/
def inc32 (c : List Byte) : List Byte := slice c 0 12 ++ beBytes 4 ((beVal (slice c 12 4) + 1) % 2 ^ 32)

/-- Counter-mode encryption of a byte string from a counter block. -/
def ctrRun (w : List Byte) : Nat → List Byte → List Byte → List Byte
  | 0, _, _ => []
  | n + 1, c, l =>
    if l.isEmpty then [] else xorBytes (l.take 16) (aesBlock w c) ++ ctrRun w n (inc32 c) (l.drop 16)

/-- AES-256-GCM with a 12-byte IV (NIST SP 800-38D): the ciphertext and the 16-byte tag over `aad` and the ciphertext.
For decryption, `tag` is taken over the text given. -/
def gcmCrypt (key iv l : List Byte) : List Byte :=
  ctrRun (aesExpand key) (l.length / 16 + 1) (inc32 (iv ++ [0, 0, 0, 1])) l

def gcmTag (key iv aad c : List Byte) : List Byte :=
  let w := aesExpand key
  let h := aesBlock w (List.replicate 16 0)
  let pad := fun (l : List Byte) => padTo ((l.length + 15) / 16 * 16) l
  xorBytes (ghash h (pad aad ++ pad c ++ beBytes 8 (8 * aad.length) ++ beBytes 8 (8 * c.length))) (aesBlock w (iv ++ [0, 0, 0, 1]))

/-! ### SHA-512 -/

/-- The greatest r below 2ⁿ with r^k ≤ v. -/
def rootBits (k v : Nat) : Nat → Nat → Nat
  | 0, r => r
  | n + 1, r => rootBits k v n (if (r + 2 ^ n) ^ k ≤ v then r + 2 ^ n else r)

/-- The first 80 primes. -/
def primes80 : List Nat := (span 2 410).filter (fun n => (span 2 21).all (fun d => d ≥ n || n % d ≠ 0))

/-- Round constants: the fraction bits of the cube roots of the primes; initial state: of their square roots (FIPS 180-4). -/
def shaK : List W64 := primes80.map (fun p => BitVec.ofNat 64 (rootBits 3 (p * 2 ^ 192) 68 0))
def shaInit : List W64 := (primes80.take 8).map (fun p => BitVec.ofNat 64 (rootBits 2 (p * 2 ^ 128) 70 0))

def shaSchedule (blk : List W64) : List W64 :=
  (List.range 64).foldl (fun w i =>
    let g := fun j => w.getD (i + j) 0
    let s0 := (g 1).rotateRight 1 ^^^ (g 1).rotateRight 8 ^^^ (g 1) >>> 7
    let s1 := (g 14).rotateRight 19 ^^^ (g 14).rotateRight 61 ^^^ (g 14) >>> 6
    w ++ [s1 + g 9 + s0 + g 0]) blk

/-- One SHA-512 compression of a 128-byte block into the state words. -/
def shaCompress (st : List W64) (blk : List Byte) : List W64 :=
  let w := shaSchedule ((List.range 16).map (fun i => BitVec.ofNat 64 (beVal (slice blk (8 * i) 8))))
  let r := (List.range 80).foldl (fun (v : List W64) i =>
    let g := fun j => v.getD j 0
    let e := g 4
    let a := g 0
    let t1 := g 7 + (e.rotateRight 14 ^^^ e.rotateRight 18 ^^^ e.rotateRight 41) + ((e &&& g 5) ^^^ (~~~e &&& g 6)) + shaK.getD i 0 + w.getD i 0
    let t2 := (a.rotateRight 28 ^^^ a.rotateRight 34 ^^^ a.rotateRight 39) + ((a &&& g 1) ^^^ (a &&& g 2) ^^^ (g 1 &&& g 2))
    [t1 + t2, a, g 1, g 2, g 3 + t1, e, g 5, g 6]) st
  List.zipWith (· + ·) st r

/-- SHA-512 of a byte string. -/
def sha512 (l : List Byte) : List Byte :=
  let n := l.length
  let m := l ++ [0x80] ++ List.replicate ((239 - n % 128) % 128) 0 ++ beBytes 16 (8 * n)
  ((List.range (m.length / 128)).foldl (fun s i => shaCompress s (slice m (128 * i) 128)) shaInit).flatMap (fun w => beBytes 8 w.toNat)

/-! ### Ed25519 (RFC 8032) -/

def edP : Nat := 2 ^ 255 - 19
def edL : Nat := 2 ^ 252 + 27742317777372353535851937790883648493

/-- Power modulo m by squaring over the exponent's bits. -/
def powMod (m b : Nat) : Nat → Nat → Nat
  | 0, _ => 1 % m
  | f + 1, e => let h := powMod m b f (e / 2)
                if e % 2 = 1 then h * h % m * b % m else h * h % m

def edInv (x : Nat) : Nat := powMod edP x 256 (edP - 2)
def edD : Nat := (edP - 121665) * edInv 121666 % edP

/-- Affine addition on −x² + y² = 1 + d x² y². -/
def edAdd (p q : Nat × Nat) : Nat × Nat :=
  let k := edD * p.1 % edP * q.1 % edP * p.2 % edP * q.2 % edP
  ((p.1 * q.2 + p.2 * q.1) % edP * edInv ((1 + k) % edP) % edP,
   (p.2 * q.2 + p.1 * q.1) % edP * edInv ((1 + edP - k) % edP) % edP)

def edMul (p : Nat × Nat) : Nat → Nat → Nat × Nat
  | 0, _ => (0, 1)
  | f + 1, e => let h := edMul p f (e / 2)
                let d := edAdd h h
                if e % 2 = 1 then edAdd d p else d

/-- The x with the given parity for a y, where one exists. -/
def edRecover (y sign : Nat) : Option Nat :=
  let u := (y * y + edP - 1) % edP
  let v := (edD * y % edP * y + 1) % edP
  let x2 := u * edInv v % edP
  let x := powMod edP x2 256 ((edP + 3) / 8)
  let x := if x * x % edP = x2 then x else x * powMod edP 2 256 ((edP - 1) / 4) % edP
  if x * x % edP ≠ x2 then none
  else if x = 0 ∧ sign = 1 then none
  else some (if x % 2 = sign then x else edP - x)

def edBase : Nat × Nat :=
  let y := 4 * edInv 5 % edP
  ((edRecover y 0).getD 0, y)

def edEncode (p : Nat × Nat) : List Byte := leBytes 32 (p.2 + (p.1 % 2) * 2 ^ 255)

def edDecode (l : List Byte) : Option (Nat × Nat) :=
  let v := leVal l
  let y := v % 2 ^ 255
  if l.length ≠ 32 ∨ edP ≤ y then none else (edRecover y (v / 2 ^ 255)).map (fun x => (x, y))

/-- Clamping: the low 3 bits and bit 255 clear, bit 254 set. -/
def edScalar (h : List Byte) : Nat := leVal (slice h 0 32) % 2 ^ 254 / 8 * 8 + 2 ^ 254

/-- The public key of a 32-byte secret. -/
def edPublic (secret : List Byte) : List Byte := edEncode (edMul edBase 256 (edScalar (sha512 secret)))

def edSign (secret msg : List Byte) : List Byte :=
  let h := sha512 secret
  let a := edScalar h
  let pk := edEncode (edMul edBase 256 a)
  let r := leVal (sha512 (slice h 32 32 ++ msg)) % edL
  let rp := edEncode (edMul edBase 256 r)
  let k := leVal (sha512 (rp ++ pk ++ msg)) % edL
  rp ++ leBytes 32 ((r + k * a) % edL)

def edVerify (pk msg sig : List Byte) : Bool :=
  match edDecode pk, edDecode (slice sig 0 32) with
  | some a, some r =>
    let s := leVal (slice sig 32 32)
    let k := leVal (sha512 (slice sig 0 32 ++ pk ++ msg)) % edL
    decide (s < edL) && decide (edMul edBase 256 s = edAdd r (edMul a 256 k)) && sig.length == 64
  | _, _ => false

end Sys2Proof.Machine
end

