-- ==== Sys2Proof/Machine/Flags.lean ====
section
/-! DEFINITION. FL and the flag rules: the value and the flags each A-class operation computes (spec/07_isa_reference.md
R178 to R183), and the branch conditions (spec/06_isa_encoding.md R156). -/

namespace Sys2Proof.Machine

/-- FL as a value: [3] Z, [2] N, [1] C, [0] V (R147). -/
abbrev Fl := BitVec 4

def mkFl (z n c v : Bool) : Fl := BitVec.ofNat 4 (8 * b2n z + 4 * b2n n + 2 * b2n c + b2n v)

def flZ (f : Fl) : Bool := f.getLsbD 3
def flN (f : Fl) : Bool := f.getLsbD 2
def flC (f : Fl) : Bool := f.getLsbD 1
def flV (f : Fl) : Bool := f.getLsbD 0

/-- Z and N from a 64-bit result, C and V as given (R178). -/
def resFl (r : W64) (c v : Bool) : Fl := mkFl (r == 0) r.msb c v

/-- A signed value lies outside the signed 64-bit range. -/
def ovf (i : Int) : Bool := decide (i < -2 ^ 63) || decide (2 ^ 63 ≤ i)

/-- acc + op + carry in (R179). -/
def addWith (a b : W64) (cin : Bool) : W64 × Fl :=
  let r := a + b + BitVec.ofNat 64 (b2n cin)
  (r, resFl r (2 ^ 64 ≤ a.toNat + b.toNat + b2n cin) (ovf (a.toInt + b.toInt + b2n cin)))

/-- a − b − borrow in; C is 1 when no borrow comes out (R179). -/
def subWith (a b : W64) (bin : Bool) : W64 × Fl :=
  let r := a - b - BitVec.ofNat 64 (b2n bin)
  (r, resFl r (b.toNat + b2n bin ≤ a.toNat) (ovf (a.toInt - b.toInt - b2n bin)))

def aluMov (_ b : W64) (fl : Fl) : W64 × Fl := (b, resFl b (flC fl) (flV fl))
def aluAdd (a b : W64) (_ : Fl) : W64 × Fl := addWith a b false
def aluAdc (a b : W64) (fl : Fl) : W64 × Fl := addWith a b (flC fl)
def aluSub (a b : W64) (_ : Fl) : W64 × Fl := subWith a b false
def aluSbc (a b : W64) (fl : Fl) : W64 × Fl := subWith a b (!flC fl)
def aluRsb (a b : W64) (_ : Fl) : W64 × Fl := subWith b a false
def aluNeg (a _ : W64) (_ : Fl) : W64 × Fl := subWith 0 a false

/-- A result with C and V 0. -/
def logicRes (r : W64) : W64 × Fl := (r, resFl r false false)

def aluAnd (a b : W64) (_ : Fl) : W64 × Fl := logicRes (a &&& b)
def aluOr (a b : W64) (_ : Fl) : W64 × Fl := logicRes (a ||| b)
def aluXor (a b : W64) (_ : Fl) : W64 × Fl := logicRes (a ^^^ b)
def aluAndn (a b : W64) (_ : Fl) : W64 × Fl := logicRes (a &&& ~~~b)

/-- The count of a shift or rotate: operand bits [6:0] (R181). -/
def shCount (b : W64) : Nat := b.toNat % 128

def aluShl (a b : W64) (_ : Fl) : W64 × Fl :=
  let n := shCount b
  (a <<< n, resFl (a <<< n) (n ≠ 0 && n ≤ 64 && a.getLsbD (64 - n)) false)

def aluShr (a b : W64) (_ : Fl) : W64 × Fl :=
  let n := shCount b
  (a >>> n, resFl (a >>> n) (n ≠ 0 && n ≤ 64 && a.getLsbD (n - 1)) false)

def aluSar (a b : W64) (_ : Fl) : W64 × Fl :=
  let n := shCount b
  let r := a.sshiftRight n
  (r, resFl r (if n = 0 then false else if n ≤ 64 then a.getLsbD (n - 1) else a.msb) false)

def aluRol (a b : W64) (_ : Fl) : W64 × Fl :=
  let n := shCount b % 64
  let r := a.rotateLeft n
  (r, resFl r (n ≠ 0 && r.getLsbD 0) false)

def aluRor (a b : W64) (_ : Fl) : W64 × Fl :=
  let n := shCount b % 64
  let r := a.rotateRight n
  (r, resFl r (n ≠ 0 && r.msb) false)

def aluMul (a b : W64) (_ : Fl) : W64 × Fl :=
  (a * b, resFl (a * b) (2 ^ 64 ≤ a.toNat * b.toNat) (ovf (a.toInt * b.toInt)))

def aluMulh (a b : W64) (_ : Fl) : W64 × Fl := logicRes (BitVec.ofInt 64 ((a.toInt * b.toInt) / 2 ^ 64))
def aluMulhu (a b : W64) (_ : Fl) : W64 × Fl := logicRes (BitVec.ofNat 64 (a.toNat * b.toNat / 2 ^ 64))
def aluMin (a b : W64) (_ : Fl) : W64 × Fl := logicRes (if a.toInt ≤ b.toInt then a else b)
def aluMax (a b : W64) (_ : Fl) : W64 × Fl := logicRes (if a.toInt ≤ b.toInt then b else a)
def aluMinu (a b : W64) (_ : Fl) : W64 × Fl := logicRes (if a.toNat ≤ b.toNat then a else b)
def aluMaxu (a b : W64) (_ : Fl) : W64 × Fl := logicRes (if a.toNat ≤ b.toNat then b else a)

/-- The low `b` bits of `a`, sign- or zero-extended; the width is 8, 16 or 32 (R151, R152). -/
def aluSext (a b : W64) (_ : Fl) : W64 × Fl := logicRes (sext64 b.toNat a.toNat)
def aluZext (a b : W64) (_ : Fl) : W64 × Fl := logicRes (BitVec.ofNat 64 (a.toNat % 2 ^ b.toNat))

def aluBswap (a _ : W64) (_ : Fl) : W64 × Fl := logicRes (BitVec.ofNat 64 (beVal (leBytes 8 a.toNat)))
def aluPopc (a _ : W64) (_ : Fl) : W64 × Fl := logicRes (BitVec.ofNat 64 ((List.range 64).countP (fun i => a.getLsbD i)))

/-- Leading zeros: 64 less the position above the highest 1. -/
def clz64 (a : W64) : Nat := ((List.range 64).find? (fun i => a.getLsbD (63 - i))).getD 64
def ctz64 (a : W64) : Nat := ((List.range 64).find? (fun i => a.getLsbD i)).getD 64

def aluClz (a _ : W64) (_ : Fl) : W64 × Fl := logicRes (BitVec.ofNat 64 (clz64 a))
def aluCtz (a _ : W64) (_ : Fl) : W64 × Fl := logicRes (BitVec.ofNat 64 (ctz64 a))

/-- What an A-class opcode that writes FL computes from acc, the operand and FL (R179): none for the others. -/
def alu (op : Nat) : Option (W64 → W64 → Fl → W64 × Fl) :=
  match op with
  | 0x01 => some aluMov | 0x02 => some aluAdd | 0x03 => some aluAdc | 0x04 => some aluSub | 0x05 => some aluSbc
  | 0x06 => some aluRsb | 0x07 => some aluNeg | 0x08 => some aluSub | 0x0A => some aluAnd | 0x0B => some aluOr
  | 0x0C => some aluXor | 0x0D => some aluAndn | 0x0E => some aluAnd | 0x10 => some aluShl | 0x11 => some aluShr
  | 0x12 => some aluSar | 0x13 => some aluRol | 0x14 => some aluRor | 0x18 => some aluMul | 0x19 => some aluMulh
  | 0x1A => some aluMulhu | 0x20 => some aluMin | 0x21 => some aluMax | 0x22 => some aluMinu | 0x23 => some aluMaxu
  | 0x28 => some aluSext | 0x29 => some aluZext | 0x2A => some aluBswap | 0x2B => some aluPopc | 0x2C => some aluClz
  | 0x2D => some aluCtz
  | _ => none

/-- CMP and TST set flags and write no register (R178). -/
def flagsOnly (op : Nat) : Bool := op == 0x08 || op == 0x0E

/-- Whether the condition COND holds under FL (R156); 0x1 is reserved. -/
def condHolds (cond : Nat) (f : Fl) : Bool :=
  match cond with
  | 0x0 => true
  | 0x2 => flZ f | 0x3 => !flZ f
  | 0x4 => flN f | 0x5 => !flN f
  | 0x6 => flC f | 0x7 => !flC f
  | 0x8 => flV f | 0x9 => !flV f
  | 0xA => flC f && !flZ f | 0xB => !flC f || flZ f
  | 0xC => flN f == flV f | 0xD => flN f != flV f
  | 0xE => !flZ f && (flN f == flV f) | 0xF => flZ f || (flN f != flV f)
  | _ => false

end Sys2Proof.Machine
end

