-- ==== Sys2Proof/Machine/Operands.lean ====
section
/-! DEFINITION. Syllables and operands: what each opcode reads and writes, which field values it admits, and the value
of every operand form (spec/06_isa_encoding.md R141 to R165, spec/08_helpers.md R217 to R229). -/

namespace Sys2Proof.Machine

/-- A field of a syllable's FIELDS. -/
def RawSyl.f (y : RawSyl) (hi lo : Nat) : Nat := bits y.fields.toNat hi lo

def RawSyl.o (y : RawSyl) : Nat := y.op.toNat

/-- The 32-bit syllable word with its stop bit (R141). -/
def RawSyl.word (y : RawSyl) (stop : Bool) : W32 :=
  BitVec.ofNat 32 (b2n stop * 2 ^ 31 + y.cls.toNat * 2 ^ 29 + y.op.toNat * 2 ^ 22 + y.fields.toNat)

/-- The syllable in a 32-bit word, and its stop bit. -/
def sylOf (w : Nat) : RawSyl × Bool :=
  ({ cls := BitVec.ofNat 2 (bits w 30 29), op := BitVec.ofNat 7 (bits w 28 22), fields := BitVec.ofNat 22 w }, bitAt w 31)

/-- A-class opcodes of R151 that write FL, and those that write XA or XB. -/
def aOps : List Nat :=
  [0x01, 0x02, 0x03, 0x04, 0x05, 0x06, 0x07, 0x08, 0x0A, 0x0B, 0x0C, 0x0D, 0x0E, 0x10, 0x11, 0x12, 0x13, 0x14,
   0x18, 0x19, 0x1A, 0x20, 0x21, 0x22, 0x23, 0x28, 0x29, 0x2A, 0x2B, 0x2C, 0x2D]

def mOps : List Nat := [0x01, 0x02, 0x03, 0x08, 0x09, 0x0A, 0x18, 0x30]

def bOps : List Nat :=
  [0x01, 0x02, 0x03, 0x04, 0x05, 0x06, 0x07, 0x10, 0x11, 0x12, 0x13, 0x14, 0x18, 0x19, 0x1A, 0x20, 0x21, 0x22,
   0x28, 0x29, 0x2A, 0x2B, 0x2C, 0x2D, 0x2E]

/-- Number of operations each helper lists (R217 to R229). -/
def helperOps (h : Nat) : Nat :=
  match h with | 0 => 4 | 1 => 4 | 2 => 3 | 3 => 3 | 4 => 4 | 5 => 7 | 6 => 9 | 7 => 4 | _ => 0

def RawSyl.helper (y : RawSyl) : Nat := y.o / 16
def RawSyl.hop (y : RawSyl) : Nat := y.o % 16

/-- A custom syllable: A-class or M-class OP 0x70 to 0x7F (R143). -/
def RawSyl.custom (y : RawSyl) : Bool := y.cls.toNat < 2 && 0x70 ≤ y.o

/-- The opcode map assigns the opcode (R151, R153 to R155). -/
def RawSyl.assigned (y : RawSyl) : Bool :=
  match y.cls.toNat with
  | 0 => aOps.contains y.o || (0x30 ≤ y.o && y.o ≤ 0x33) || 0x70 ≤ y.o
  | 1 => mOps.contains y.o || 0x70 ≤ y.o
  | 2 => y.hop < helperOps y.helper
  | _ => bOps.contains y.o

/-- The registers the opcode maps say a syllable writes: ACC, FL, XA, XB (R143, R145, R151, R153 to R155). -/
structure Sets where
  acc : Bool := false
  fl  : Bool := false
  xa  : Bool := false
  xb  : Bool := false
  deriving DecidableEq, Repr

def RawSyl.writes (y : RawSyl) : Sets :=
  if y.custom then { acc := true, fl := true } else
  match y.cls.toNat with
  | 0 =>
    if y.o = 0x08 ∨ y.o = 0x0E then { fl := true }
    else if aOps.contains y.o then { acc := true, fl := true }
    else if y.o = 0x30 ∨ y.o = 0x32 then { xa := true }
    else if y.o = 0x31 ∨ y.o = 0x33 then { xb := true } else {}
  | 1 =>
    if y.o = 0x01 ∨ y.o = 0x08 then { acc := y.f 21 20 = 0, xa := y.f 21 20 = 1, xb := y.f 21 20 = 2 }
    else if y.o = 0x02 ∨ y.o = 0x09 ∨ y.o = 0x30 then { acc := true } else {}
  | 2 => if y.assigned then { acc := true, fl := true } else {}
  | _ =>
    if y.o = 0x06 ∨ y.o = 0x13 then { fl := true } else if y.o = 0x10 then { acc := true }
    else if y.o = 0x14 ∨ (0x20 ≤ y.o ∧ y.o ≤ 0x22) ∨ (0x28 ≤ y.o ∧ y.o ≤ 0x2E) then { acc := true, fl := true } else {}

/-- The registers whose values a syllable uses, for the pending marks of R114 and R185. -/
def RawSyl.reads (y : RawSyl) : Sets :=
  if y.custom then { acc := true, fl := true, xa := true, xb := true } else
  match y.cls.toNat with
  | 0 =>
    let m := y.f 21 19
    { acc := y.o ≠ 0x01 && (y.o < 0x30 || 0x33 < y.o)
      fl := y.o = 0x03 || y.o = 0x05 || (m = 5 && y.f 4 0 = 5)
      xa := y.o = 0x32 || (m = 4 && y.f 18 18 = 0)
      xb := y.o = 0x33 || (m = 4 && y.f 18 18 = 1) }
  | 1 =>
    let st := y.o = 0x03 ∨ y.o = 0x0A
    let far := y.o = 0x08 ∨ y.o = 0x09 ∨ y.o = 0x0A
    let rel := (y.o ≤ 0x03) ∧ y.f 17 17 = 1
    { acc := (st ∧ y.f 21 20 = 0) || y.o = 0x18
      xa := (st ∧ y.f 21 20 = 1) || far || y.o = 0x18 || y.o = 0x30 || (rel ∧ y.f 16 16 = 0)
      xb := (st ∧ y.f 21 20 = 2) || far || (rel ∧ y.f 16 16 = 1) }
  | 2 => { acc := true, xa := true, xb := true }
  | _ =>
    let at' := 0x28 ≤ y.o ∧ y.o ≤ 0x2E
    { acc := y.o = 0x12 || y.o = 0x1A || decide at'
      fl := y.o = 0x01 || y.o = 0x02
      xa := y.o = 0x02 || y.o = 0x11 || (0x20 ≤ y.o && y.o ≤ 0x22) || decide at'
      xb := decide at' && y.f 21 21 = 1 }

/-- The low bits of a frame OFFSET that an access of size code `sz` leaves zero (R150). -/
def sizeOf (sz : Nat) : Nat := 2 ^ sz

/-- The A-class operand obeys its layout and the opcode's operand rule (R149 to R152). -/
def aFieldsOk (y : RawSyl) : Bool :=
  let m := y.f 21 19
  let v := y.f 18 0
  let o := y.o
  if o = 0x07 ∨ (0x2A ≤ o ∧ o ≤ 0x2D) then m = 0 && v = 0
  else if o = 0x28 ∨ o = 0x29 then m = 0 && (v = 8 || v = 16 || v = 32)
  else match m with
    | 0 => true
    | 1 => y.f 16 16 = 0
    | 2 => y.f 18 13 = 0 && y.f 10 0 % sizeOf (y.f 12 11) = 0
    | 4 => y.f 17 0 = 0
    | 5 => y.f 18 5 = 0 && y.f 4 0 < 6
    | _ => false

/-- The M-class fields obey their form (R153). -/
def mFieldsOk (y : RawSyl) : Bool :=
  let reg := y.f 21 20
  let big := reg ≠ 0 ∧ y.f 19 18 = 3
  let near := y.f 17 17 = 1 || (y.f 16 11 = 0 && y.f 10 0 % sizeOf (y.f 19 18) = 0)
  match y.o with
  | 0x01 => reg ≠ 3 && ¬ big && near
  | 0x02 => reg = 0 && near
  | 0x03 => reg ≠ 3 && ¬ big && near
  | 0x08 => reg ≠ 3 && ¬ big && y.f 17 0 = 0
  | 0x09 => reg = 0 && y.f 17 0 = 0
  | 0x0A => reg ≠ 3 && ¬ big && y.f 17 0 = 0
  | 0x18 => y.f 21 1 = 0
  | 0x30 => y.f 21 0 = 0
  | _ => true

/-- The H-class fields obey their helper's layout (R217, R218, R220 to R223, R225, R229). -/
def hFieldsOk (y : RawSyl) : Bool :=
  let p := y.hop
  match y.helper with
  | 0 => y.f 13 0 = 0
  | 1 => y.f 21 8 = 0 && y.f 6 0 ≠ 0 && y.f 6 0 ≤ (if p = 2 then 36 else 64) && (p < 2 || y.f 7 7 = 0)
  | 2 => if p = 0 then y.f 21 11 = 0 && y.f 9 0 ≠ 0 && y.f 9 0 ≤ 512 else y.f 21 0 = 0
  | 3 => y.f 8 0 = 0 && y.f 21 16 + y.f 15 10 ≤ 63 && (p ≠ 1 || y.f 9 9 = 0)
  | 4 => y.f 21 20 = 3 || y.f 19 0 = 0
  | 5 => y.f 21 0 = 0
  | 6 => y.f 21 10 = 0 && y.f 9 0 ≤ 512 && (p = 2 || y.f 9 0 ≠ 0)
  | _ => y.f 21 0 = 0

/-- The B-class fields obey their row (R155 to R157). -/
def bFieldsOk (y : RawSyl) : Bool :=
  match y.o with
  | 0x01 => y.f 21 18 ≠ 1 && y.f 17 16 = 0
  | 0x02 => y.f 21 18 ≠ 1 && y.f 17 0 = 0
  | 0x03 => y.f 21 19 = 0
  | 0x04 => y.f 21 19 = 0 && y.f 15 0 = 0
  | 0x05 => y.f 18 16 = 0
  | 0x06 => y.f 21 0 = 0
  | 0x07 => y.f 21 0 = 0
  | 0x10 => y.f 21 16 = 0 && y.f 7 6 = 0
  | 0x11 => y.f 21 3 = 0
  | 0x12 => y.f 21 0 = 0
  | 0x13 => y.f 21 11 = 0 && (if y.f 10 10 = 0 then y.f 9 5 = 0 else y.f 9 5 < 24)
  | 0x14 => y.f 21 11 = 0
  | 0x18 => y.f 21 2 = 0
  | 0x19 => y.f 21 2 = 0
  | 0x1A => y.f 21 3 = 0 && y.f 2 0 < 5
  | 0x20 => y.f 21 0 = 0
  | 0x21 => y.f 21 0 = 0
  | 0x22 => y.f 21 0 = 0
  | _ => y.f 20 0 = 0

/-- Every reserved field is zero and no field holds a reserved encoding. -/
def RawSyl.fieldsOk (y : RawSyl) : Bool :=
  y.custom || match y.cls.toNat with
    | 0 => aFieldsOk y
    | 1 => mFieldsOk y
    | 2 => hFieldsOk y
    | _ => bFieldsOk y

/-! ### Operand values -/

/-- The role position that names a cluster, 0x1F when none does (R102, R148). -/
def State.positionOf (s : State) (c : Nat) : Nat :=
  ((List.range 24).find? (fun p => Store.get p s.seq.position p == c)).getD 0x1F

/-- The cluster a role position names. -/
def State.clusterAt (s : State) (p : Nat) : Nat := Store.get p s.seq.position p

/-- A special operand (R148). -/
def special (s : State) (t : Nat) (r : Regs) (n : Nat) : Nat :=
  match n with
  | 0 => t
  | 1 => t / 128
  | 2 => s.positionOf (t / 128)
  | 3 => (s.th t).accord
  | 4 => (s.cl (t / 128)).mcycles / 1000
  | 5 => r.fl.toNat
  | _ => 0

/-- The A-class operand (R149), from the registers as they stood before the bundle. -/
def aOperand (s : State) (t : Nat) (r : Regs) (y : RawSyl) : W64 :=
  match y.f 21 19 with
  | 0 => sext64 19 (y.f 18 0)
  | 1 => BitVec.ofNat 64 (y.f 15 0 * 2 ^ (16 * y.f 18 17))
  | 2 => BitVec.ofNat 64 (mreadLE r.frame (y.f 10 0) (sizeOf (y.f 12 11)))
  | 4 => BitVec.ofNat 64 (if y.f 18 18 = 0 then r.xa.toNat else r.xb.toNat)
  | 5 => BitVec.ofNat 64 (special s t r (y.f 4 0))
  | _ => 0

/-- The near address of an M-class near form (R153). -/
def nearAddr (r : Regs) (y : RawSyl) : Nat :=
  if y.f 17 17 = 0 then y.f 10 0
  else ((if y.f 16 16 = 0 then r.xa else r.xb) + BitVec.ofInt 32 (signed 16 (y.f 15 0))).toNat

/-- The far address XA[15:0]:XB (R165). -/
def farAddr (r : Regs) : Nat := (r.xa.toNat % 65536) * 2 ^ 32 + r.xb.toNat

/-- The value of REG, zero-extended (R184). -/
def regVal (r : Regs) (code : Nat) : Nat :=
  match code with | 0 => r.acc.toNat | 1 => r.xa.toNat | _ => r.xb.toNat

/-- Write a register by REG code. -/
def setReg (r : Regs) (code : Nat) (v : W64) : Regs :=
  match code with
  | 0 => { r with acc := v }
  | 1 => { r with xa := v.truncate 32 }
  | _ => { r with xb := v.truncate 32 }

/-! ### The near address space (R158) -/

/-- The regions of the near map. -/
inductive Region where
  | frame (o : Nat)
  | core (o : Nat)
  | cluster (o : Nat)
  | events (o : Nat)
  | aperture (bank o : Nat)
  | unmapped
  deriving DecidableEq, Repr

def region (a : Nat) : Region :=
  if a < 0x800 then .frame a
  else if 0x10000 ≤ a ∧ a < 0x18000 then .core (a - 0x10000)
  else if 0x100000 ≤ a ∧ a < 0x180000 then .cluster (a - 0x100000)
  else if 0x200000 ≤ a ∧ a < 0x201000 then .events (a - 0x200000)
  else if 0x10000000 ≤ a ∧ a < 0x14000000 ∧ (a - 0x10000000) % 0x200000 < 0x180000 then
    .aperture ((a - 0x10000000) / 0x200000) ((a - 0x10000000) % 0x200000)
  else .unmapped

/-- The width of the register at an offset of the event block, none where no register lies (R163). -/
def eventWidth (o : Nat) : Option Nat :=
  if o = 0 then some 8 else if o = 8 ∨ o = 0xC ∨ o = 0x10 then some 4
  else if 0x100 ≤ o ∧ o < 0x180 ∧ o % 4 = 0 then some 4 else none

end Sys2Proof.Machine
end

