-- ==== Sys2Proof/Machine/Aperture.lean ====
section
/-! DEFINITION. Table descriptors and the Table Store aperture: where a DIRECT table's bytes lie for an Accord
(spec/09_table_store.md R230 to R239). -/

namespace Sys2Proof.Machine

/-! ### Descriptors (R232) -/

def dKind (w : ObjWord) : Nat := fld w 127 124
def dVersioned (w : ObjWord) : Bool := fld w 123 123 = 1
def dWriters (w : ObjWord) : Nat := fld w 122 121
def dKeyLen (w : ObjWord) : Nat := fld w 120 115
def dResLen (w : ObjWord) : Nat := 8 * 2 ^ fld w 114 113
def dFirst (w : ObjWord) : Nat := fld w 112 108
def dBanks (w : ObjWord) : Nat := 2 ^ fld w 107 105
def dBase (w : ObjWord) : Nat := fld w 104 90
def dRows (w : ObjWord) : Nat := fld w 89 75
def dLog (w : ObjWord) : Nat := fld w 74 70
def dExt (w : ObjWord) : Nat := fld w 69 51
def dSeed (w : ObjWord) : Nat := fld w 31 0

/-- The descriptor of a table in the Accord with this tag. -/
def State.tdesc (s : State) (tag num : Nat) : ObjWord := s.sobj tag 0x0050 num

/-- The tables that the Accord with this tag describes: number and descriptor. -/
def State.tablesOf (s : State) (tag : Nat) : List (Nat × ObjWord) :=
  ((s.copy tag).objs.filter (fun e => e.1 / 2 ^ 32 == 0x0050 && dKind e.2 != 0)).map (fun e => (e.1 % 2 ^ 32, e.2))

/-- The structure of table `num` under descriptor `w`. -/
def State.struct (s : State) (num : Nat) (w : ObjWord) : TStruct :=
  (s.tables.structs.find? (fun t => t.num == num && t.desc == w)).getD { num := num, desc := w }

def State.putStruct (s : State) (x : TStruct) : State :=
  let rest := s.tables.structs.filter (fun t => !(t.num == x.num && t.desc == x.desc))
  { s with tables := { s.tables with structs := rest ++ [x] } }

/-- A DIRECT table occupies the row of a bank; the second copy of a versioned one counts where `second` asks. -/
def dHolds (w : ObjWord) (bank row : Nat) (second : Bool) : Bool :=
  dKind w == 1 && dFirst w ≤ bank && bank < dFirst w + dBanks w &&
    (if second then dVersioned w && dBase w + dRows w ≤ row && row < dBase w + 2 * dRows w
     else dBase w ≤ row && row < dBase w + dRows w)

/-- What the aperture map of an Accord says of a row (R239): its DIRECT table, and whether the row is its second copy. -/
def State.apertureRow (s : State) (tag bank row : Nat) : Option (Nat × ObjWord × Bool) :=
  match (s.tablesOf tag).find? (fun e => dHolds e.2 bank row false) with
  | some e => some (e.1, e.2, false)
  | none => ((s.tablesOf tag).find? (fun e => dHolds e.2 bank row true)).map (fun e => (e.1, e.2, true))

/-- The access is in the map; a store, CNT or atomic also needs WRITERS 0b01 and the first copy (R239). -/
def State.apertureOk (s : State) (tag bank o : Nat) (write : Bool) : Bool :=
  match s.apertureRow tag bank (o / 64) with
  | none => false
  | some (_, w, second) => !write || (dWriters w == 1 && !second)

/-- The physical bank behind a logical bank (R230). -/
def State.physBank (s : State) (b : Nat) : Nat := Store.get (9 * (b / 8) + b % 8) s.tables.bankMap b

/-- The logical bank behind which a physical bank stands. -/
def State.logicalOf (s : State) (phys : Nat) : Option Nat := (List.range 32).find? (fun b => s.physBank b == phys)

/-- Byte address in the store of all rows: physical bank × 1,572,864 + offset. -/
def rowByte (phys o : Nat) : Nat := phys * 1572864 + o

/-- Where byte `o` of logical bank `bank` lies for an Accord: a versioned table's row is that of the Accord's copy (R238). -/
def State.aperturePhys (s : State) (tag bank o : Nat) : Nat :=
  let row := o / 64
  let row := match s.apertureRow tag bank row with
    | some (num, w, false) =>
      if dVersioned w ∧ Store.get 0 (s.struct num w).copyOf tag = 2 then row + dRows w else row
    | _ => row
  rowByte (s.physBank bank) (row * 64 + o % 64)

/-- What a retirement does to tables at once: rows that no live or staged descriptor names are freed, the current Accord
takes over a root it shared with the retired one, and structures kept in step with it are so no more (R237, R247). -/
def State.retireTables (s : State) (tag : Nat) : State :=
  let cur := s.accord.current.toNat
  let keep := s.tables.structs.filter (fun x => x.desc == s.tdesc cur x.num || x.desc == s.tdesc s.accord.staged.toNat x.num)
  { s with tables := { s.tables with structs := keep.map (fun x => { x with
      roots := Store.erase (if (Store.get none x.roots cur).isNone then Store.set none x.roots cur (Store.get none x.roots tag) else x.roots) tag
      copyOf := Store.erase x.copyOf tag
      mirror := x.mirror && x.desc != s.tdesc cur x.num }) } }

/-- Which copy of a versioned table an Accord reads: 1 or 2. -/
def State.copyNo (s : State) (x : TStruct) (a : Nat) : Nat :=
  let own := Store.get 0 x.copyOf a
  if own ≠ 0 then own else if a = s.accord.staged.toNat ∧ s.accord.live then max 1 (Store.get 0 x.copyOf s.accord.current.toNat) else 1

/-- Byte address of byte `o` of copy `c` in the table's bank `k`. -/
def State.directAddr (s : State) (d : ObjWord) (c k o : Nat) : Nat :=
  rowByte (s.physBank (dFirst d + k)) ((dBase d + (c - 1) * dRows d) * 64 + o)

/-- Write bytes of the store's rows. -/
def State.putRows (s : State) (a : Nat) (l : List Byte) : State :=
  { s with tables := { s.tables with rows := mwrite s.tables.rows a l } }

/-- Byte `o` of a shared DIRECT table's bank `k` lies at `a` under the descriptor `d`. -/
def State.directByte (s : State) (d : ObjWord) (a : Nat) : Option (Nat × Nat) :=
  (s.logicalOf (a / 1572864)).bind (fun bank =>
    if dHolds d bank (a % 1572864 / 64) false then some (bank - dFirst d, a % 1572864 - dBase d * 64) else none)

/-- Write bytes of a DIRECT table, and the same bytes of every structure that a Maceration keeps in step with it (R247). -/
def State.writeRows (s : State) (a : Nat) (l : List Byte) : State :=
  let live := fun (n : Nat) => (if s.accord.live then [s.tdesc s.accord.current.toNat n] else []) ++
    (if s.accord.drainValid then [s.tdesc s.accord.draining.toNat n] else [])
  (s.tables.structs.filter (fun x => x.mirror && dKind x.desc == 1)).foldl (fun s x =>
    match (live x.num).findSome? (fun d => if d = x.desc then none else s.directByte d a) with
    | some (k, o) => s.putRows (s.directAddr x.desc (if dVersioned x.desc then s.copyNo x s.accord.staged.toNat else 1) k o) l
    | none => s) (s.putRows a l)

/-- The row that holds a byte of the store is marked uncorrectable. -/
def State.rowBad (s : State) (a : Nat) : Bool := s.tables.bad.contains (a / 64)

/-! ### Where an entry lies (R240, R246, R249) -/

/-- The compact form's permutation of a key under way `w`. -/
def permute (seed w k : Nat) : Nat :=
  let r := (List.range 4).foldl (fun (p : Nat × Nat) j =>
    (p.2, p.1 ^^^ (crcRun polyCrc32c (BitVec.ofNat 32 (seed ^^^ (4 * w + j))) (beBytes 2 p.2)).toNat % 65536)) (k / 65536, k % 65536)
  r.1 * 65536 + r.2

def dCompact (d : ObjWord) : Bool := dKind d == 2 && dKeyLen d ≤ 4

/-- The hash whose low bits name the bucket of way `w`. -/
def wayHash (d : ObjWord) (w : Nat) (key : List Byte) : Nat :=
  if dCompact d then permute (dSeed d) w (beVal key) else (crcRun polyCrc32c (BitVec.ofNat 32 (dSeed d ^^^ w)) key).toNat

/-- What the tag of an entry holds of its key: the quotient, or the digest. -/
def tagOf (d : ObjWord) (log w : Nat) (key : List Byte) : Nat :=
  if dCompact d then wayHash d w key / 2 ^ log
  else (crcRun polyCrc32c ((BitVec.ofNat 32 (dSeed d)).rotateLeft 16) key).toNat / 65536

/-- Slot bytes S, and rows per bucket. -/
def dSlot (d : ObjWord) : Nat :=
  if dCompact d then dResLen d else
    let n := dKeyLen d + dResLen d
    if n ≤ 16 then 16 else if n ≤ 32 then 32 else 64
def dRpb (d : ObjWord) : Nat := 1 + dSlot d / 4

/-- Slots in a bucket. -/
def dWays (d : ObjWord) : Nat := if dKind d = 6 then 2 else 16

/-- B_LOG2 in force for a key's bucket of way `w`, and the bucket: a migration uses the new geometry below its cursor. -/
def TStruct.place (x : TStruct) (w : Nat) (key : List Byte) : Nat × Nat :=
  let at' := fun (log : Nat) => (log, wayHash x.desc w key % 2 ^ log)
  match x.migr with
  | none => at' (dLog x.desc)
  | some m => if (at' m.oldLog).2 < m.cursor then at' (m.oldLog + 1) else at' m.oldLog

/-- B_LOG2 under which bucket number `i` stands. -/
def TStruct.logOf (x : TStruct) (i : Nat) : Nat :=
  match x.migr with
  | none => dLog x.desc
  | some m => if m.cursor ≤ i ∧ i < 2 ^ m.oldLog then m.oldLog else m.oldLog + 1

/-- Logical bank and first row of a bucket of an EXACT table. -/
def bucketRow (d : ObjWord) (w i : Nat) : Nat × Nat :=
  let half := dBanks d / 2
  (dFirst d + w * half + i % half, dBase d + dRpb d * (i / half))

/-- Device address of a bucket of an EXT table. -/
def extBucket (d : ObjWord) (log w i : Nat) : Nat := dExt d * 2 ^ 20 + w * 2 ^ (log + 6) + i * 64

/-- Device addresses of the two 64-byte buckets of a key in an EXT table (R246). -/
def TStruct.keyLines (x : TStruct) (key : List Byte) : List Nat :=
  [0, 1].map (fun w => let p := x.place w key; extBucket x.desc p.1 w p.2)

/-- Islands an EXACT or EXT table's buckets of a key lie in; for another kind, every group of the table (R217). -/
def State.keyIslands (s : State) (num a : Nat) (key : List Byte) : List Nat :=
  let x := s.struct num (s.tdesc a num)
  let d := x.desc
  match dKind d with
  | 2 => [0, 1].map (fun w => 37 + (bucketRow d w (x.place w key).2).1 / 8)
  | 6 => ((x.keyLines key).flatMap (fun a => s.dramIslands a 64)).eraseDups
  | _ => ((List.range (dBanks d)).map (fun k => 37 + (dFirst d + k) / 8)).eraseDups

/-! ### Banks behind the aperture (R230, R251, R366) -/

def apertureBank (a : Nat) : Nat := (a - 0x10000000) / 0x200000
def apertureIsland (a : Nat) : Nat := 37 + apertureBank a / 8

/-- The source unit of a physical bank, and of a logical bank's slice (R366). -/
def bankSrc (phys : Nat) : Nat := src (37 + phys / 9) (phys % 9)
def sliceSrc (bank : Nat) : Nat := src (37 + bank / 8) (0x10 + bank % 8)

/-- ADDRESS of TS_ECC and ROW_REPAIR_EXHAUSTED (R251). -/
def State.rowAddress (s : State) (phys row : Nat) : Nat :=
  match s.logicalOf phys with
  | some b => b * 2 ^ 16 + row
  | none => 2 ^ 22 + phys * 2 ^ 16 + row

/-- Report an uncorrectable word of a row of a physical bank (R251). -/
def State.tsEcc (s : State) (phys row master access : Nat) : State :=
  s.raise (bankSrc phys) 0x78 { addr := s.rowAddress phys row, master := master, access := access }

end Sys2Proof.Machine
end

