-- ==== Sys2Proof/Machine/Near.lean ====
section
/-! DEFINITION. Near memory as a thread sees it: the regions' bytes, stores held under an unresolved branch, the channel and
event registers, address checks, and uncorrectable words (spec/06_isa_encoding.md R158 to R166, spec/05_cores_threads.md
R121, R138 to R140). -/

namespace Sys2Proof.Machine

/-- Stores a thread has made under unresolved branches, oldest first (R119). -/
def Thread.heldStores (x : Thread) : List (Nat × List Byte) := x.branches.flatMap (·.stores)

/-- A byte as the last of the stores that covers it leaves it. -/
def overlay (l : List (Nat × List Byte)) (a : Nat) (b : Byte) : Byte :=
  l.foldl (fun b e => if e.1 ≤ a ∧ a < e.1 + e.2.length then e.2.getD (a - e.1) 0 else b) b

/-- Address of a byte of core-shared memory in the cluster's store of it. -/
def coreKey (t o : Nat) : Nat := coreOf t * 32768 + o

/-- A near byte outside the event block and the aperture, with `frame` as the thread's frame. -/
def nearByte (s : State) (t : Nat) (frame : Mem) (a : Nat) : Byte :=
  match region a with
  | .frame o => mget frame o
  | .core o => overlay (s.th t).heldStores a (mget (s.cl (t / 128)).coreMem (coreKey t o))
  | .cluster o => overlay (s.th t).heldStores a (mget (s.cl (t / 128)).clMem o)
  | _ => 0

def nearBytes (s : State) (t : Nat) (frame : Mem) (a n : Nat) : List Byte :=
  (List.range n).map (fun i => nearByte s t frame (a + i))

/-! ### Channels and the event pending word -/

def Channel.words (c : Channel) : Nat := (c.msgs.map (fun m => m.2.length)).sum

def Cluster.ch (c : Cluster) (n : Nat) : Channel := Store.get {} c.chan n

def Cluster.modCh (c : Cluster) (n : Nat) (f : Channel → Channel) : Cluster :=
  { c with chan := Store.modify {} c.chan n f }

/-- The event pending word (R121): edges as latched, CH_READ and CH_WRITE as they stand. -/
def pendingWord (s : State) (t : Nat) (r : Regs) : BitVec 16 :=
  let c := s.cl (t / 128)
  let rd := (List.range 32).any (fun n => r.rwatch.getLsbD n && !(c.ch n).msgs.isEmpty)
  let wr := (List.range 32).any (fun n => r.wwatch.getLsbD n && (c.ch n).words ≤ 4)
  ((s.th t).edges &&& 0xFFFC) ||| BitVec.ofNat 16 (2 * b2n wr + b2n rd)

/-- Latch an edge of a thread's pending word; a free thread latches nothing. -/
def State.edge (s : State) (t bit : Nat) : State :=
  if (s.th t).busy then s.modTh t (fun x => { x with edges := x.edges ||| (1 <<< bit) }) else s

/-- CH_STATUS (R164). -/
def chStatus (s : State) (c n : Nat) : Nat :=
  let k := (s.cl c).ch n
  fld (s.obj 0x0040 (c * 32 + n)) 7 7 * 2 ^ 16 + k.msgs.length * 256 + min k.blocked.length 15 * 16 + k.words

/-- A read of the event block (R163): other addresses read as zero. -/
def eventRead (s : State) (t : Nat) (r : Regs) (o : Nat) : Nat :=
  if o = 0 then (pendingWord s t r).toNat
  else if o = 8 then r.rwatch.toNat else if o = 0xC then r.wwatch.toNat else if o = 0x10 then r.timer.toNat
  else if 0x100 ≤ o ∧ o < 0x180 ∧ o % 4 = 0 then chStatus s (t / 128) ((o - 0x100) / 4) else 0

/-- A write of the event block: read-only registers and other addresses take nothing. -/
def eventWrite (r : Regs) (o v : Nat) : Regs :=
  if o = 8 then { r with rwatch := BitVec.ofNat 32 v }
  else if o = 0xC then { r with wwatch := BitVec.ofNat 32 v }
  else if o = 0x10 then { r with timer := BitVec.ofNat 32 v } else r

/-- An access of `n` bytes at event block offset `o` is of a whole register, or touches none (R159, R163). -/
def eventSized (o n : Nat) : Bool :=
  match eventWidth o with
  | some w => n == w
  | none => !(o < 0x14 || (0x100 ≤ o && o < 0x180))

/-! ### Address checks -/

/-- ADDR_UNMAPPED and ADDR_ALIGN for a near access of `n` bytes (R158, R159, R239), as a fault kind. -/
def nearCheck (s : State) (tag a n : Nat) (write : Bool) : Option Nat :=
  match region a with
  | .unmapped => some 0x6B
  | .aperture b o => if !s.apertureOk tag b o write then some 0x6B else if a % n ≠ 0 then some 0x6C else none
  | .events o => if a % n ≠ 0 ∨ !eventSized o n then some 0x6C else none
  | _ => if a % n ≠ 0 then some 0x6C else none

/-- A far address lies in the installed DRAM, outside a reserve that a Decant has unmapped, and is aligned (R165, R339). -/
def farCheck (s : State) (a n : Nat) : Option Nat :=
  if 2 ^ 39 ≤ a ∨ s.dramSize ≤ a ∨ s.unmapped a then some 0x6B else if a % n ≠ 0 then some 0x6C else none

/-- An operand of a helper lies wholly within the frame, core-shared or cluster-shared memory (R211). -/
def helperSpan (a n : Nat) : Bool :=
  match region a with
  | .frame o => o + n ≤ 0x800
  | .core o => o + n ≤ 0x8000
  | .cluster o => o + n ≤ 0x80000
  | _ => false

/-! ### Uncorrectable near words (R368 LOCAL_ECC, R387) -/

/-- The mark of the 8-byte word that holds a near byte. -/
def badKey (t a : Nat) : Option Nat :=
  match region a with
  | .frame o => some (coreOf t * 65536 + (t % 16) * 2048 + o / 8 * 8)
  | .core o => some (coreOf t * 65536 + 32768 + o / 8 * 8)
  | .cluster o => some (2 ^ 32 + o / 8 * 8)
  | _ => none

/-- The first address of the access that lies in an uncorrectable word. -/
def nearBad (s : State) (t a n : Nat) : Option Nat :=
  ((List.range n).map (a + ·)).find? (fun b => (badKey t b).any (fun k => (s.cl (t / 128)).bad.contains k))

/-- The unit that reports LOCAL_ECC for a near address: the core, or 0x10 for cluster-shared memory. -/
def eccUnit (t a : Nat) : Nat := match region a with | .cluster _ => 0x10 | _ => coreOf t

/-- The program bank word at `w` of the thread's Accord is uncorrectable in this cluster. -/
def bankBad (s : State) (t w : Nat) : Bool :=
  (s.cl (t / 128)).bad.any (fun k => k / 8 == (2 ^ 33 + (s.th t).accord * 2 ^ 18 + 4 * w) / 8)

/-- The syllable word at `w` of the Accord's program bank. -/
def bankWord (s : State) (tag w : Nat) : Nat := mreadLE (s.copy tag).bank (4 * w) 4

/-! ### Stores -/

/-- Near bytes reach memory: whole 8-byte words so written lose their mark. -/
def State.nearWrite (s : State) (t a : Nat) (l : List Byte) : State :=
  let clr := fun (c : Cluster) =>
    { c with bad := c.bad.filter (fun k => !((List.range ((l.length + 7) / 8 + 1)).any (fun i =>
        let w := a / 8 * 8 + 8 * i
        decide (a ≤ w ∧ w + 8 ≤ a + l.length) && badKey t w == some k))) }
  match region a with
  | .frame o => (s.modTh t (fun x => { x with regs := { x.regs with frame := mwrite x.regs.frame o l } })).modCl (t / 128) clr
  | .core o => s.modCl (t / 128) (fun c => clr { c with coreMem := mwrite c.coreMem (coreKey t o) l })
  | .cluster o => s.modCl (t / 128) (fun c => clr { c with clMem := mwrite c.clMem o l })
  | _ => s

/-- A near store of a bundle: under an unresolved branch a store outside the frame and registers is held (R119). -/
def State.nearStore (s : State) (t a : Nat) (l : List Byte) : State :=
  match region a, (s.th t).branches.reverse with
  | .core _, b :: rest =>
    s.modTh t (fun x => { x with branches := (({ b with stores := b.stores ++ [(a, l)] } : Branch) :: rest).reverse })
  | .cluster _, b :: rest =>
    s.modTh t (fun x => { x with branches := (({ b with stores := b.stores ++ [(a, l)] } : Branch) :: rest).reverse })
  | .events o, _ => s.modTh t (fun x => { x with regs := eventWrite x.regs o (leVal l) })
  | _, _ => s.nearWrite t a l

/-! ### Bytes that are still to come (R23, R162, R212) -/

def overlaps (a n b m : Nat) : Bool := a < b + m && b < a + n && 0 < n && 0 < m

/-- The access meets a header window byte not yet delivered. -/
def Thread.undelivered (x : Thread) (a n : Nat) : Bool := overlaps a n (0x600 + x.delivered) x.window.length

/-- The access meets near bytes that the thread's pending helper operation will write (R212). -/
def helperPends (s : State) (t a n : Nat) : Bool :=
  (s.cl (t / 128)).hops.any (fun h => h.thread == t % 128 && !h.cancelled && overlaps a n h.dst h.dstLen)

def bytesReady (s : State) (t : Nat) (l : List (Nat × Nat)) : Bool :=
  l.all (fun e => !(s.th t).undelivered e.1 e.2 && !helperPends s t e.1 e.2)

end Sys2Proof.Machine
end

