-- ==== Sys2Proof/Machine/Custom.lean ====
section
/-! DEFINITION. Custom instructions: decode table entries and their micro-operations, executed step by step and taking
effect all at once (spec/07_isa_reference.md R203 to R208). -/

namespace Sys2Proof.Machine

/-- Decode table entry of a custom syllable: 0 to 15 for the A-class, 16 to 31 for the M-class. -/
def RawSyl.entry (y : RawSyl) : Nat := y.cls.toNat * 16 + (y.o - 0x70)

/-- The 64-bit header of an entry (R204), and micro-operation slot `k` (R205). -/
def entryHeader (dt : Mem) (e : Nat) : Nat := mreadLE dt (136 * e) 8
def entrySlot (dt : Mem) (e k : Nat) : Nat := mreadLE dt (136 * e + 8 + 8 * k) 8

/-- The entry is loaded: VALID is 1 (R204). -/
def entryValid (dt : Mem) (e : Nat) : Bool := bitAt (entryHeader dt e) 63

/-- Field extract `i` of a header applied to FIELDS (R204). -/
def extract (h i fields : Nat) : W64 :=
  let x := bits h (53 - 18 * i) (36 - 18 * i)
  let lsb := bits x 17 13
  let w := bits x 12 8 + 1
  let v := bits fields (lsb + w - 1) lsb
  if bitAt x 7 then sext64 w v else BitVec.ofNat 64 v

/-- The instruction's own values as its steps go on: ACC, XA, XB and T0 to T3, FL, and its held stores. -/
structure Micro where
  vals    : List W64
  fl      : Fl
  stores  : List (Nat × List Byte) := []
  touched : List (Nat × Nat) := []
  /-- An uncorrectable aperture word was read: zero, with a POISON token. -/
  poison  : Bool := false
  /-- A store with REG none has stored a free value (R205; DESIGN CHOICE, log 2). -/
  free    : Bool := false
  /-- Fault kind, address and access code of the first micro-operation that faults. -/
  fault   : Option (Nat × Nat × Nat) := none

def Micro.reg (m : Micro) (c : Nat) : W64 := m.vals.getD c 0

/-- Write a register code: XA and XB take bits [31:0] (R206). -/
def setVal (l : List W64) (c : Nat) (v : W64) : List W64 :=
  l.set c (if c = 1 ∨ c = 2 then BitVec.ofNat 64 (v.toNat % 2 ^ 32) else v)

/-- An A-type micro-operation: its destination and value, and its flags when FW is 1. -/
def microA (m : Micro) (h fields u : Nat) : (Nat × W64) × Option Fl :=
  let s1 := if bits u 47 45 = 7 then 0 else m.reg (bits u 47 45)
  let c := bits u 44 41
  let s2 := if c < 7 then m.reg c else if c < 10 then extract h (c - 7) fields else sext64 32 (bits u 31 0)
  let (v, f) := ((alu (bits u 57 51)).getD (fun a _ f => (a, f))) s1 s2 m.fl
  ((bits u 50 48, v), if bitAt u 40 then some f else none)

/-- The address of an M-type micro-operation: base + field + DISP, modulo 2³². -/
def microAddr (m : Micro) (h fields u : Nat) : Nat :=
  let b := bits u 45 43
  let base := if b = 0 then 0 else (m.reg b).toNat
  let d := bits u 42 40
  let f := if d = 0 then 0 else (extract h (d - 1) fields).toNat
  (base + f + bits u 31 0) % 2 ^ 32

/-- A load's bytes: near memory with the instruction's own stores over it, the event block, or the aperture. -/
def microRead (s : State) (t tag : Nat) (r : Regs) (m : Micro) (a n : Nat) : Nat × Bool :=
  match region a with
  | .events o => (eventRead s t r o, false)
  | .aperture b o =>
    let p := s.aperturePhys tag b o
    if s.rowBad p || s.inReset (37 + b / 8) then (0, true) else (mreadLE s.tables.rows p n, false)
  | _ => (leVal ((List.range n).map (fun i => overlay m.stores (a + i) (nearByte s t r.frame (a + i)))), false)

/-- Carry out one micro-operation against the values `m0` of the step's start, writing into `m`. -/
def microOp (s : State) (t tag : Nat) (r : Regs) (h fields : Nat) (m0 m : Micro) (u : Nat) : Micro :=
  if bits u 63 62 = 0 then
    let ((d, v), f) := microA m0 h fields u
    { m with vals := if d = 7 then m.vals else setVal m.vals d v, fl := f.getD m.fl }
  else
    let a := microAddr m0 h fields u
    let n := sizeOf (bits u 47 46)
    let st := bits u 57 51 = 0x03
    let ap := match region a with | .aperture _ _ => true | _ => false
    let acc := if st then 2 else 1
    match (if st && ap then some 0x6B else nearCheck s tag a n st), (if st then none else nearBad s t a n) with
    | some k, _ => { m with fault := m.fault.or (some (k, a, acc)) }
    | none, some b => { m with fault := m.fault.or (some (0x63, b, acc)) }
    | none, none =>
      let m := { m with touched := (a, n) :: m.touched }
      let c := bits u 50 48
      if st then { m with stores := m.stores ++ [(a, leBytes n (if c = 7 then Config.freeWord s.fresh else m0.reg c).toNat)], free := m.free || c == 7 }
      else
        let (v, p) := microRead s t tag r m0 a n
        let w := if bits u 57 51 = 0x02 then sext64 (8 * n) v else BitVec.ofNat 64 v
        { m with vals := setVal m.vals c w, poison := m.poison || p }

/-- Run an entry (R206): in each step, micro-operations read the values of the step's start. -/
def customRun (s : State) (t : Nat) (r : Regs) (y : RawSyl) : Micro :=
  let tag := (s.th t).accord
  let dt := (s.copy tag).dtab
  let h := entryHeader dt y.entry
  let us := (List.range (bits h 58 54)).map (entrySlot dt y.entry)
  (List.range 16).foldl (fun m st =>
      if m.fault.isSome then m
      else (us.filter (fun u => bits u 61 58 == st)).foldl (fun k u => microOp s t tag r h y.fields.toNat m k u) m)
    { vals := [r.acc, BitVec.ofNat 64 r.xa.toNat, BitVec.ofNat 64 r.xb.toNat, 0, 0, 0, 0], fl := r.fl }

end Sys2Proof.Machine
end

