-- ==== Sys2Proof/Machine/HelperUnits.lean ====
section
/-! DEFINITION. What each operation of the helpers H1 to H5 and H7 computes (spec/08_helpers.md R213 to R229), one
definition per operation; H0 and H6 take effect in the Table Store and in I41. -/

namespace Sys2Proof.Machine

/-- A result with Z and N from its value and C and V 0 (R213). -/
def helpRes (v : W64) : HelperRes := { acc := v, fl := resFl v false false }

/-- A refusal: its code in ACC[7:0], V 1, Z, N and C 0 (R213, R214). -/
def refusal (code : Nat) : HelperRes := { acc := BitVec.ofNat 64 code, fl := mkFl false false false true }

/-- A refusal with POISONED, which also sends a POISON token (R215). -/
def poisoned : HelperRes := { refusal 9 with poison := true }

/-- CRC32 and CRC32C: the register after the data, complemented under FINAL (R218, R219). -/
def crcRes (poly : BitVec 32) (h : HelperOp) : HelperRes :=
  let r := crcRun poly (h.acc.truncate 32) h.data
  helpRes ((if h.fields.getLsbD 7 then ~~~r else r).zeroExtend 64)

def helpCrc32 (h : HelperOp) : HelperRes := crcRes polyCrc32 h
def helpCrc32c (h : HelperOp) : HelperRes := crcRes polyCrc32c h

/-- LEN of H1 (R218): the data come first, then the key. -/
def h1Len (h : HelperOp) : Nat := bits h.fields.toNat 6 0

def helpTplz (h : HelperOp) : HelperRes :=
  helpRes ((toeplitz (h.data.take (h1Len h)) (h.data.drop (h1Len h))).zeroExtend 64)

def helpSiph (h : HelperOp) : HelperRes := helpRes (sipHash (h.data.drop (h1Len h)) (h.data.take (h1Len h)))

/-- Fold carries back into 16 bits (RFC 1071). -/
def fold16 (v : Nat) : Nat :=
  let a := v % 65536 + v / 65536
  let a := a % 65536 + a / 65536
  a % 65536 + a / 65536

/-- The one's complement sum of a byte string's big-endian words, an odd last byte padded with zero. -/
def ocSum (start : Nat) (l : List Byte) : Nat :=
  fold16 ((List.range ((l.length + 1) / 2)).foldl (fun a i => a + beVal (slice l (2 * i) 2)) start)

def helpSum (h : HelperOp) : HelperRes :=
  let r := ocSum (h.acc.toNat % 65536) h.data
  helpRes (BitVec.ofNat 64 (if h.fields.getLsbD 10 then 65535 - r else r))

/-- HC′ = ~(~HC + ~m + m′) over the words given (RFC 1624 equation 3). -/
def incSum (hc : Nat) (old new : List Nat) : Nat :=
  65535 - fold16 ((65535 - hc) + (old.map (65535 - ·)).sum + new.sum)

def helpInc16 (h : HelperOp) : HelperRes :=
  helpRes (BitVec.ofNat 64 (incSum (h.acc.toNat % 65536) [h.xa.toNat % 65536] [h.xb.toNat % 65536]))

def helpInc32 (h : HelperOp) : HelperRes :=
  helpRes (BitVec.ofNat 64 (incSum (h.acc.toNat % 65536) [h.xa.toNat / 65536, h.xa.toNat % 65536] [h.xb.toNat / 65536, h.xb.toNat % 65536]))

/-- The H3 field of a 64-bit value (R221). -/
def bfxField (f : BitVec 22) (v : Nat) : W64 :=
  let lsb := bits f.toNat 21 16
  let w := bits f.toNat 15 10 + 1
  let x := (v >>> lsb) % 2 ^ w
  if f.getLsbD 9 then sext64 w x else BitVec.ofNat 64 x

def helpExt (h : HelperOp) : HelperRes := helpRes (bfxField h.fields h.acc.toNat)

def helpBfxIns (h : HelperOp) : HelperRes :=
  let lsb := bits h.fields.toNat 21 16
  let w := bits h.fields.toNat 15 10 + 1
  let v := h.xa.toNat * 2 ^ 32 + h.xb.toNat
  helpRes (BitVec.ofNat 64 (h.acc.toNat - ((h.acc.toNat >>> lsb) % 2 ^ w) * 2 ^ lsb + (v % 2 ^ w) * 2 ^ lsb))

def helpExtw (h : HelperOp) : HelperRes := helpRes (bfxField h.fields (beVal h.data))

/-- The divisor of H4 by SRC (R222). -/
def divisor (h : HelperOp) : W64 :=
  match bits h.fields.toNat 21 20 with
  | 0 => BitVec.ofNat 64 (h.xa.toNat * 2 ^ 32 + h.xb.toNat)
  | 1 => BitVec.ofNat 64 h.xb.toNat
  | 2 => sext64 32 h.xb.toNat
  | _ => sext64 20 (bits h.fields.toNat 19 0)

/-- Z and N from the result, C and V as the case of R183 gives: a zero divisor sets both. -/
def divRes (v : W64) (zero big : Bool) : HelperRes := { acc := v, fl := resFl v zero (zero || big) }

/-- min64 divided by −1 (R183). -/
def divOver (a b : W64) : Bool := a == 0x8000000000000000 && b == 0xFFFFFFFFFFFFFFFF

def helpDivs (h : HelperOp) : HelperRes :=
  let b := divisor h
  divRes (if b = 0 then 0 else BitVec.ofInt 64 (h.acc.toInt.tdiv b.toInt)) (b == 0) (divOver h.acc b)

def helpDivu (h : HelperOp) : HelperRes :=
  let b := divisor h
  divRes (if b = 0 then 0 else BitVec.ofNat 64 (h.acc.toNat / b.toNat)) (b == 0) false

def helpRems (h : HelperOp) : HelperRes :=
  let b := divisor h
  divRes (if b = 0 then h.acc else BitVec.ofInt 64 (h.acc.toInt.tmod b.toInt)) (b == 0) (divOver h.acc b)

def helpRemu (h : HelperOp) : HelperRes :=
  let b := divisor h
  divRes (if b = 0 then h.acc else BitVec.ofNat 64 (h.acc.toNat % b.toNat)) (b == 0) false

/-- The cluster's copy of device time, in ns and 2⁻³² ns: within 2 ns of the time base, by a free skew, and never below the last
reading (R223; DESIGN CHOICE, log 11). -/
def clusterTime (s : State) (c : Nat) : Nat × BitVec 32 :=
  let k := Config.timeSkew c s.nextId
  let k : Int := if k < -2 then -2 else if 2 < k then 2 else k
  let n := ((s.time.ns.toNat : Int) + k).toNat
  let x := s.cl c
  if n < x.lastNow ∨ (n = x.lastNow ∧ s.time.frac.toNat < x.lastFrac.toNat) then (x.lastNow, x.lastFrac) else (n, s.time.frac)

def clusterNow (s : State) (c : Nat) : Nat := (clusterTime s c).1

def helpNow (now : Nat) (_ : HelperOp) : HelperRes := helpRes (BitVec.ofNat 64 now)

/-- [63:32] the low 32 bits of now, [31:0] the fraction. -/
def helpNowf (now : Nat) (frac : BitVec 32) (_ : HelperOp) : HelperRes :=
  helpRes (BitVec.ofNat 64 (now % 2 ^ 32 * 2 ^ 32 + frac.toNat))

def helpTadd (h : HelperOp) : HelperRes :=
  let d : W64 := BitVec.ofNat 64 (h.xa.toNat * 2 ^ 32 + h.xb.toNat)
  { acc := h.acc + d, fl := resFl (h.acc + d) false (ovf (h.acc.toInt + d.toInt)) }

def helpTdiff (now : Nat) (h : HelperOp) : HelperRes :=
  let n : W64 := BitVec.ofNat 64 now
  { acc := n - h.acc, fl := resFl (n - h.acc) false (ovf (n.toInt - h.acc.toInt)) }

def helpTpast (now : Nat) (h : HelperOp) : HelperRes :=
  { acc := BitVec.ofNat 64 now, fl := resFl (BitVec.ofNat 64 now) (h.acc.toNat ≤ now % 2 ^ 64) false }

def helpTsec (h : HelperOp) : HelperRes := helpRes (BitVec.ofNat 64 (h.acc.toNat / 1000000000))
def helpTnsec (h : HelperOp) : HelperRes := helpRes (BitVec.ofNat 64 (h.acc.toNat % 1000000000))

/-- H7 results: ACC 0 and Z 1, and the bytes written at an address (R229). -/
def cryRes (a : Nat) (l : List Byte) : HelperRes := { acc := 0, fl := mkFl true false false false, addr := a, bytes := l }

def helpKexp (h : HelperOp) : HelperRes := cryRes h.xb.toNat (aesExpand (h.data.take 32))

/-- Counter block and data at XA, schedule at XB: the data are encrypted and the counter advances. -/
def helpGctr (h : HelperOp) : HelperRes :=
  let c := h.data.take 16
  cryRes h.xa.toNat (inc32 c ++ xorBytes (slice h.data 16 16) (aesBlock (h.data.drop 32) c))

def helpGhm (h : HelperOp) : HelperRes :=
  cryRes h.xa.toNat (ghmul (xorBytes (h.data.take 16) (slice h.data 16 16)) (h.data.drop 32))

def helpShb (h : HelperOp) : HelperRes :=
  cryRes h.xa.toNat ((shaCompress ((List.range 8).map (fun i => BitVec.ofNat 64 (beVal (slice h.data (8 * i) 8)))) (h.data.drop 64)).flatMap
    (fun w => beBytes 8 w.toNat))

/-- What a helper operation outside H0 and H6 computes when it is accepted. -/
def helperCompute (s : State) (c : Nat) (h : HelperOp) : Option HelperRes :=
  let now := clusterNow s c
  match h.unit.toNat, h.op.toNat with
  | 1, 0 => some (helpCrc32 h) | 1, 1 => some (helpCrc32c h) | 1, 2 => some (helpTplz h) | 1, 3 => some (helpSiph h)
  | 2, 0 => some (helpSum h) | 2, 1 => some (helpInc16 h) | 2, 2 => some (helpInc32 h)
  | 3, 0 => some (helpExt h) | 3, 1 => some (helpBfxIns h) | 3, 2 => some (helpExtw h)
  | 4, 0 => some (helpDivs h) | 4, 1 => some (helpDivu h) | 4, 2 => some (helpRems h) | 4, 3 => some (helpRemu h)
  | 5, 0 => some (helpNow now h) | 5, 1 => some (helpNowf now (clusterTime s c).2 h) | 5, 2 => some (helpTadd h)
  | 5, 3 => some (helpTdiff now h) | 5, 4 => some (helpTpast now h) | 5, 5 => some (helpTsec h) | 5, 6 => some (helpTnsec h)
  | 7, 0 => some (helpKexp h) | 7, 1 => some (helpGctr h) | 7, 2 => some (helpGhm h) | 7, 3 => some (helpShb h)
  | _, _ => none

/-- The near operands of a helper operation, XA's before XB's: address, length, alignment, and whether it is read
(R211, R217 to R229). H0 is given the table's descriptor. -/
def helperSpans (unit op : Nat) (f : BitVec 22) (xa xb : Nat) (d : ObjWord) : List (Nat × Nat × Nat × Bool) :=
  let len := bits f.toNat 6 0
  let lenK := bits f.toNat 9 0
  match unit, op with
  | 0, 0 => [(xa, dKeyLen d, 1, true)]
  | 0, 1 => [(xa, dKeyLen d, 1, true), (xb, dResLen d, 8, false)]
  | 0, 2 => [(xa, dKeyLen d, 1, true), (xb, dResLen d, 8, true)]
  | 0, 3 => [(xa, dKeyLen d, 1, true)]
  | 1, 2 => [(xa, len, 1, true), (xb, len + 4, 1, true)]
  | 1, 3 => [(xa, len, 1, true), (xb, 16, 1, true)]
  | 1, _ => [(xa, len, 1, true)]
  | 2, 0 => [(xa, lenK, 1, true)]
  | 3, 2 => [(xb, 8, 1, true)]
  | 6, 0 => [(xa, lenK, 1, false)]
  | 6, 1 => [(xa, lenK, 1, true)]
  | 6, 7 => [(xa, lenK, 1, false)]
  | 6, 8 => [(xa, lenK, 1, true)]
  | 7, 0 => [(xa, 32, 16, true), (xb, 240, 16, false)]
  | 7, 1 => [(xa, 32, 16, true), (xb, 240, 16, true)]
  | 7, 2 => [(xa, 32, 16, true), (xb, 16, 16, true)]
  | 7, 3 => [(xa, 64, 16, true), (xb, 128, 16, true)]
  | _, _ => []

/-- The near bytes an operation will write: address and length, none where it writes none (R212). -/
def helperDst (unit op : Nat) (f : BitVec 22) (xa xb : Nat) (d : ObjWord) : Nat × Nat :=
  match unit, op with
  | 0, 1 => (xb, dResLen d)
  | 6, 0 => (xa, bits f.toNat 9 0)
  | 6, 7 => (xa, bits f.toNat 9 0)
  | 7, 0 => (xb, 240)
  | 7, 1 => (xa, 32)
  | 7, 2 => (xa, 16)
  | 7, 3 => (xa, 64)
  | _, _ => (0, 0)

/-- Operations a helper may hold in flight in a cluster (R209). -/
def helperLimit (unit : Nat) : Nat :=
  match unit with | 0 => 64 | 1 => 16 | 2 => 16 | 3 => 24 | 4 => 2 | 5 => 8 | 6 => 32 | _ => 2

/-- An H0 operation answers BAD_TABLE from the descriptor alone (R234). -/
def badTable (op : Nat) (d : ObjWord) : Bool := dKind d ≤ 1 || (2 ≤ op && dWriters d != 1)

end Sys2Proof.Machine
end

