-- ==== Sys2Proof/Machine/Thread.lean ====
section
/-! DEFINITION. What befalls a thread outside the plain issue of a bundle: the end of its work, faults, traps, NMIs,
landing values, branches and squashes, channels (spec/05_cores_threads.md, spec/06_isa_encoding.md R166 to R177). -/

namespace Sys2Proof.Machine

/-! ### The order of what crosses between two islands (R17) -/

/-- A helper operation that its target has still to take, on its way to island `i`. -/
def HelperOp.goesTo (h : HelperOp) (i : Nat) : Bool := h.res.isNone && !h.arrived && h.isls.contains i

/-- The identity of a request that carries one: identities rise in the order of issue. -/
def Msg.reqId : Msg → Option Nat
  | .mem r => some r.id
  | .lockReq id _ _ _ => some id
  | _ => none

/-- An operation of a helper of cluster `c`, begun before identity `id`, is still on its way to island `i`. -/
def State.hopAhead (s : State) (c i id : Nat) : Bool := (s.cl c).hops.any (fun h => h.goesTo i && h.id < id)

/-- Something that cluster `c` sent before a helper operation is still on its way to an island that the operation goes to. -/
def State.sentAhead (s : State) (c : Nat) (h : HelperOp) : Bool :=
  h.isls.any (fun i => s.hopAhead c i h.id || s.net.any (fun m => m.src == c && m.dst == i && m.msg.reqId.any (fun k => k < h.id)))

/-- A load that waits for its branch although its value is there: it holds no later answer back. -/
def Thread.heldBack (x : Thread) (l : Load) : Bool :=
  (l.poison || l.ecc.isSome) && x.branches.any (fun b => b.begun.contains l.id)

/-- An answer that island `i` gave cluster `c` before the answer `q` has still to land there. -/
def State.replyAhead (s : State) (c i q : Nat) : Bool :=
  (s.cl c).thread.any (fun e =>
    e.2.loads.any (fun l => l.isl == i && l.value.isSome && l.seq < q && !e.2.heldBack l) ||
    e.2.stores.any (fun x => x.isl == i && x.done && x.seq < q)) ||
  (s.cl c).hops.any (fun h => h.isls.contains i && h.res.isSome && h.seq < q) ||
  s.net.any (fun m => m.src == i && m.dst == c && (match m.msg with | .lockGrant _ _ k => k < q | _ => false))

/-- The thread runs no bundle under an unresolved branch. -/
def Thread.plain (x : Thread) : Bool := x.branches.isEmpty

/-- The thread owns a lock word, has a request queued, or has a lock request under way (R200). -/
def State.usesLocks (s : State) (t : Nat) : Bool :=
  s.tables.locks.any (fun e => (e.2.held && e.2.owner.toNat == t) || e.2.queue.any (fun m => m.toNat == t)) ||
  s.net.any (fun c => match c.msg with | .lockReq _ u _ _ => u == t | _ => false)

/-- MASTER_RESET tokens to all 32 Table Store slices (R262). -/
def State.masterReset (s : State) (t : Nat) (whole : Bool) : State :=
  (List.range 32).foldl (fun s b => s.send (t / 128) (37 + b / 8) (.masterReset t whole b)) s

/-- The locks of a thread whose work ends or faults are treated as those of a reset master (R200, R261). -/
def State.freeLocks (s : State) (t : Nat) : State := if s.usesLocks t then s.masterReset t false else s

/-- Cancel the helper operations of a thread: the helper stays busy, nothing is written back (R216). -/
def Cluster.cancelHelpers (c : Cluster) (u : Nat) : Cluster :=
  { c with hops := c.hops.map (fun h => if h.thread = u then { h with cancelled := true } else h) }

/-- Take a thread out of every list of blocked senders of its cluster. -/
def Cluster.unblock (c : Cluster) (u : Nat) : Cluster :=
  { c with chan := c.chan.map (fun e => (e.1, { e.2 with blocked := e.2.blocked.filter (· != u) }))
           rblocked := c.rblocked.map (fun e => (e.1, e.2.filter (· != u))) }

/-- Discard staged channel words at the end of work or by the debugger, reported as CHANNEL_ABANDONED (R131, R136). -/
def State.dropStaged (s : State) (t : Nat) (conseq : Bool) : State :=
  let x := s.th t
  let s := s.modCl (t / 128) (·.unblock (t % 128))
  if x.staging.isEmpty then s
  else (s.modTh t (fun x => { x with staging := [] })).raise (src (t / 128) (coreOf t)) 0x61
    { master := t, detail := recDetail x.gen x.record, conseq := conseq }

/-- The thread is in WFE or blocked in CHC (R132). -/
def Thread.idle (x : Thread) : Bool := match x.wait with | .wfe _ => true | .chc _ _ _ => true | _ => false

/-- A thread leaves its wait: from now on its cluster may report QUIESCENT again (R132). -/
def State.leaveWait (s : State) (t : Nat) : State :=
  if (s.th t).idle then s.modCl (t / 128) (fun c => { c with quietRep := false }) else s

/-- A thread's work ends by commit, abort or reset (R113, R131, R193, R200): it becomes free. -/
def State.endWork (s : State) (t : Nat) (conseq : Bool) : State :=
  if (s.th t).busy then
    let s := ((s.leaveWait t).freeLocks t).dropStaged t conseq
    let s := s.modCl (t / 128) (·.cancelHelpers (t % 128))
    let s := s.modTh t (fun x => { regs := { x.regs with timer := 0 }, pc := x.pc, prio := x.prio, record := x.record
                                   gen := x.gen, accord := x.accord, stores := x.stores })
    s.count (src (t / 128) (coreOf t)) 0x13
  else s

/-- Tell the Atomizer that a thread is free (R88). -/
def State.tellFree (s : State) (t : Nat) : State := s.send (t / 128) 26 (.threadFree t)

/-! ### Faults and traps -/

/-- The thread halts on a fault (R92, R172): the message, unless I26 reports the kind itself, the FAULT token, and its
locks. No syllable of the bundle takes effect. -/
def State.haltFault (s : State) (t unit kind addr access : Nat) : State :=
  let x := s.th t
  let s := s.modTh t (fun x => { x with halt := .fault, wait := .none, waitSyls := [], bundle := [], trap := none })
  let s := s.modCl (t / 128) (·.unblock (t % 128))
  let s := if kind = 0x56 ∨ kind = 0x57 then s
    else s.raise (src (t / 128) unit) kind { addr := addr, access := access, master := t, detail := recDetail x.gen x.record }
  (s.send (t / 128) 26 (.fault t x.record x.gen (BitVec.ofNat 8 kind))).freeLocks t

/-- A thread's fault, or its late fault while a branch is unresolved (R166, R173). -/
def State.faultOr (s : State) (t unit kind addr access : Nat) : State :=
  match (s.th t).branches.reverse with
  | [] => s.haltFault t unit kind addr access
  | b :: rest =>
    let f : LateFault := { kind := BitVec.ofNat 8 kind, addr := addr, pc := (s.th t).pc, unit := unit, access := access }
    s.modTh t (fun x => { x with bundle := [], branches := (({ b with late := some f } : Branch) :: rest).reverse })

/-- A trap condition (R174, R177): the thread waits for its outstanding results, or halts when it is already in a trap. -/
def State.trapStart (s : State) (t cause syl slot : Nat) (pc next : BitVec 16) : State :=
  if (s.th t).inTrap then s.haltFault t (coreOf t) 0x6D (pc.toNat + syl * 65536) 6
  else
    let q : TrapReq :=
      { cause := BitVec.ofNat 32 (cause + slot * 256), syl := BitVec.ofNat 32 syl, pc := pc, next := next, nmi := cause == 4 }
    s.modTh t (fun x => { x with bundle := [], trap := some q })

def State.trapOr (s : State) (t cause syl slot : Nat) (next : BitVec 16) : State :=
  match (s.th t).branches.reverse with
  | [] => s.trapStart t cause syl slot (s.th t).pc next
  | b :: rest =>
    let f : LateFault := { kind := 0, addr := 0, pc := (s.th t).pc,
                           trap := some (BitVec.ofNat 32 (cause + slot * 256), BitVec.ofNat 32 syl, next.toNat) }
    s.modTh t (fun x => { x with bundle := [], branches := (({ b with late := some f } : Branch) :: rest).reverse })

/-- The trap save area (R175). -/
def saveArea (q : TrapReq) (fl : Fl) : List Byte :=
  leBytes 4 q.syl.toNat ++ leBytes 2 q.pc.toNat ++ leBytes 1 (q.cause.toNat % 256)
    ++ leBytes 1 (q.cause.toNat / 256 * 64 + fl.toNat) ++ leBytes 2 q.next.toNat ++ leBytes 6 0

/-- Nothing the thread waits for has still to land (R174 step 1). -/
def State.landed (s : State) (t : Nat) : Bool := (s.th t).loads.isEmpty && (s.th t).helper.isNone

/-- Save, set IN_TRAP and start at the vector of the Accord's bank (R174). -/
def State.enterTrap (s : State) (t : Nat) (q : TrapReq) : State :=
  let v := bankWord s (s.th t).accord (if q.nmi then 0x42 else 0x41)
  let s := s.modTh t (fun x => { x with
    regs := { x.regs with frame := mwrite x.regs.frame 0x5F0 (saveArea q x.regs.fl) }
    inTrap := true, trap := none, pc := BitVec.ofNat 16 v
    nmi := if q.nmi then false else x.nmi })
  s.count (src (t / 128) (coreOf t)) 0x15

/-! ### Landing of results -/

/-- Apply a landing to the registers of the thread and to every snapshot taken after the operation began: identity `id`
begun under branch `k` stands only for the branches after it (R119). -/
def landIn (id : Nat) (f : Regs → Regs) : List Branch → List Branch × Bool
  | [] => ([], true)
  | b :: rest =>
    let (rest', older) := landIn id f rest
    -- `older` says that no later branch began it
    if b.begun.contains id then (b :: rest', false)
    else (if older then { b with regs := f b.regs } :: rest' else b :: rest', older)

def Thread.land (x : Thread) (id : Nat) (f : Regs → Regs) : Thread :=
  { x with regs := f x.regs, branches := (landIn id f x.branches).1 }

/-- Apply a change to the registers and to every snapshot. -/
def Thread.everywhere (x : Thread) (f : Regs → Regs) : Thread :=
  { x with regs := f x.regs, branches := x.branches.map (fun b => { b with regs := f b.regs }) }

/-- The record's thread has passed Pk without a request: PASSED shows it at once (R81, R83, R191; DEDUCED, log 59). -/
def State.notePassed (s : State) (t k : Nat) : State :=
  let x := s.th t
  if (s.rcd x.record).gen = x.gen ∧ (s.rcd x.record).st = .running then
    s.modRec x.record (fun r => { r with passed := r.passed ||| (1 <<< k) })
  else s

/-- POISON for the record a thread runs (R97). -/
def State.sendPoison (s : State) (t : Nat) : State :=
  s.send (t / 128) 26 (.poison t (s.th t).record (s.th t).gen)

/-! ### Branches -/

/-- The oldest branch stands: what its speculative bundles did under it alone takes effect (R117, R119). -/
def State.branchStands (s : State) (t : Nat) (b : Branch) (rest : List Branch) : State :=
  let u := src (t / 128) (coreOf t)
  let s := s.modTh t (fun x => { x with branches := rest })
  let s := b.stores.foldl (fun s e => s.nearWrite t e.1 e.2) s
  let s := (s.count u 0x10 b.bundles).count u 0x20 b.slots
  let s := if b.poison then s.sendPoison t else s
  -- a timer that reached zero while the branch was unresolved sets TIMER now that its count stands
  let s := if (match rest with | r :: _ => r.due | [] => b.liveDue) then s.edge t 3 else s
  match b.late with
  | none => s
  | some f =>
    match f.trap with
    | some (cause, syl, next) => s.trapStart t (cause.toNat % 256) syl.toNat (cause.toNat / 256) f.pc (BitVec.ofNat 16 next)
    | none => s.haltFault t f.unit f.kind.toNat f.addr f.access

/-- The oldest branch is taken: its bundles and all after them are squashed (R117, R119). -/
def State.branchTaken (s : State) (t : Nat) (b : Branch) (rest : List Branch) : State :=
  let u := src (t / 128) (coreOf t)
  let begun := b.begun ++ rest.flatMap (·.begun)
  let s := s.modCl (t / 128) (fun c => { c with hops := c.hops.map (fun h =>
    if begun.contains h.id then { h with cancelled := true } else h) })
  let s := s.modTh t (fun x => { x with
    regs := b.regs, pc := b.target, branches := [], bundle := []
    loads := x.loads.filter (fun l => !begun.contains l.id)
    helper := if x.helper.any (begun.contains ·) then none else x.helper })
  let s := if b.due then s.edge t 3 else s
  let nb := b.bundles + (rest.map (·.bundles)).sum
  let ns := b.slots + (rest.map (·.slots)).sum
  ((s.count u 0x11 nb).count u 0x21 ns).count u 0x14

/-! ### Channels (R125 to R130) -/

/-- A channel object's REMOTE and SOURCE (R125). -/
def State.chRemote (s : State) (c n : Nat) : Bool := fld (s.obj 0x0040 (c * 32 + n)) 7 7 = 1
def State.chSource (s : State) (c n : Nat) : Nat := fld (s.obj 0x0040 (c * 32 + n)) 6 2

/-- Put a whole message into a channel (R126). -/
def State.chAccept (s : State) (c n from' : Nat) (w : List W64) : State :=
  (s.modCl c (·.modCh n (fun k => { k with msgs := k.msgs ++ [(from', w)] }))).count (src c 0x11) 0x10

/-- The key of a remote-inbound channel in a sender's credit counts. -/
def creditKey (pos n : Nat) : Nat := pos * 32 + n

def Cluster.creditOf (c : Cluster) (k : Nat) : Nat := Store.get 8 c.credit k

/-- The message of a thread fits the channel now and no sender waits before it (R127, R129). -/
def State.chFits (s : State) (t : Nat) (remote : Bool) (pos n : Nat) (len : Nat) : Bool :=
  let c := s.cl (t / 128)
  if remote then (Store.get [] c.rblocked (creditKey pos n)).isEmpty && len ≤ c.creditOf (creditKey pos n)
  else (c.ch n).blocked.isEmpty && (c.ch n).words + len ≤ 8

/-- Send the staged words of a thread (R126, R129); the staging buffer is then empty. -/
def State.chSend (s : State) (t : Nat) (remote : Bool) (pos n id : Nat) : State :=
  let c := t / 128
  let w := (s.th t).staging
  let s := s.modTh t (fun x => { x with staging := [] })
  if remote then
    let k := creditKey pos n
    (s.modCl c (fun x => { x with credit := Store.set 8 x.credit k (x.creditOf k - w.length) })).send c (s.clusterAt pos)
      (.chan t pos n w id)
  else s.chAccept c n c w

end Sys2Proof.Machine
end

