-- ==== Sys2Proof/Machine/Issue.lean ====
section
/-! DEFINITION. Issue of a bundle: legality, decode, readiness, address checks, waits, and the effect of every syllable
class, written once over the state (spec/05_cores_threads.md R108 to R130, spec/06_isa_encoding.md R141 to R173,
spec/07_isa_reference.md R178 to R202). -/

namespace Sys2Proof.Machine

/-! ### Legality and decode (R143, R171) -/

def Sets.clash (a b : Sets) : Bool := (a.acc && b.acc) || (a.fl && b.fl) || (a.xa && b.xa) || (a.xb && b.xb)

def Sets.union (a b : Sets) : Sets :=
  { acc := a.acc || b.acc, fl := a.fl || b.fl, xa := a.xa || b.xa, xb := a.xb || b.xb }

/-- The first syllable that breaks R143, given what came before: its class order, the writers, the custom rule. -/
def illegalFrom (i : Nat) (before : List RawSyl) : List RawSyl → Option Nat
  | [] => none
  | y :: rest =>
    let order := before.all (fun z => z.cls.toNat < y.cls.toNat)
    let w := before.foldl (fun a z => Sets.union a z.writes) ({} : Sets)
    let am := before.filter (fun z => z.cls.toNat < 2)
    let cust := y.cls.toNat < 2 && ((y.custom && !am.isEmpty) || am.any (·.custom))
    if !order || w.clash y.writes || cust then some i else illegalFrom (i + 1) (before ++ [y]) rest

/-- The bundle is illegal: at a syllable, or, with no stop within four syllables, at the fourth. -/
def illegalAt (ys : List RawSyl) (stopped : Bool) : Option Nat :=
  match illegalFrom 0 [] ys with
  | some i => some i
  | none => if !stopped && 4 ≤ ys.length then some 3 else none

/-- SERVICE mode of a cluster (R169). -/
def State.service (s : State) (c : Nat) : Bool := fld (s.obj 0x0042 c) 1 0 = 1

/-- What decode finds wrong with a bundle: a fault kind of SERVICE mode, or a trap cause of TRAP mode, at a syllable. -/
inductive Decoded where
  | ok
  | fault (kind slot : Nat)
  | trap (cause slot : Nat)
  deriving DecidableEq, Repr

/-- The first syllable with an unassigned opcode, a custom opcode not to be executed, or a bad field (R171). -/
def decodeFrom (service : Bool) (dt : Mem) (i : Nat) : List RawSyl → Decoded
  | [] => .ok
  | y :: rest =>
    if !y.assigned then (if service then .fault 0x68 i else .trap 1 i)
    else if y.custom then
      (if !service then .trap 2 i else if entryValid dt y.entry then decodeFrom service dt (i + 1) rest else .fault 0x68 i)
    else if !y.fieldsOk then (if service then .fault 0x69 i else .trap 3 i)
    else decodeFrom service dt (i + 1) rest

/-! ### What a syllable is, for issue -/

def RawSyl.isB (y : RawSyl) (o : Nat) : Bool := y.cls == 3 && y.o == o
def RawSyl.isM (y : RawSyl) (o : Nat) : Bool := y.cls == 1 && y.o == o
def RawSyl.isH (y : RawSyl) (u o : Nat) : Bool := y.cls == 2 && y.helper == u && y.hop == o

def inAperture (a : Nat) : Bool := match region a with | .aperture _ _ => true | _ => false

/-- A store to the Table Store aperture (R160). -/
def apertureStore (r : Regs) (y : RawSyl) : Bool := y.isM 0x03 && inAperture (nearAddr r y)

def RawSyl.isAtomic (y : RawSyl) : Bool := y.cls == 3 && 0x28 ≤ y.o && y.o ≤ 0x2E

/-- The handle names the packet of the record the thread runs (R224). -/
def State.ownHandle (s : State) (t : Nat) (h : W32) : Bool :=
  let x := s.th t
  !x.task && (s.rcd x.record).disp.handle == h

/-- An H6 operation that writes (R118, R227). -/
def RawSyl.h6Writes (y : RawSyl) : Bool := y.cls == 2 && y.helper == 6 && y.hop != 0 && y.hop != 7

/-- Kept to the non-speculative point (R118, R186, R190, R193); RTT with them (DEDUCED, log 7). -/
def nonSpec (r : Regs) (y : RawSyl) : Bool :=
  y.isAtomic || (y.cls == 3 && (y.o == 0x06 || (0x10 ≤ y.o && y.o ≤ 0x22))) || y.isM 0x0A || y.isM 0x18
    || apertureStore r y || y.isH 0 2 || y.isH 0 3 || y.h6Writes

/-- An effect, which ends replay safety (R90, R153, R227). -/
def isEffect (s : State) (t : Nat) (r : Regs) (y : RawSyl) : Bool :=
  y.isAtomic || y.isB 0x20 || y.isB 0x21 || y.isB 0x1A || y.isM 0x0A || apertureStore r y
    || (y.isM 0x18 && y.f 0 0 == 1) || y.isH 0 2 || y.isH 0 3
    || (y.h6Writes && !((y.hop == 1 || y.hop == 2 || y.hop == 3) && s.ownHandle t r.xb))

/-- Addresses of the aperture that a custom syllable reads (R206). -/
def apertureReads (s : State) (t : Nat) (r : Regs) (y : RawSyl) : List Nat :=
  if y.custom then ((customRun s t r y).touched.map (·.1)).filter inAperture else []

/-- A far or aperture load, which counts toward the limits of R139; a custom syllable's aperture reads are such loads. -/
def remoteLoad (s : State) (t : Nat) (r : Regs) (y : RawSyl) : Bool :=
  y.isM 0x08 || y.isM 0x09 || ((y.isM 0x01 || y.isM 0x02) && inAperture (nearAddr r y)) || !(apertureReads s t r y).isEmpty

/-- The descriptor an H0 syllable names in the thread's Accord. -/
def h0Desc (s : State) (t : Nat) (y : RawSyl) : ObjWord := s.tdesc (s.th t).accord (y.f 21 14)

/-- Near operands of an H syllable; an H0 operation refused by its descriptor reads nothing (R234). -/
def hSpans (s : State) (t : Nat) (r : Regs) (y : RawSyl) : List (Nat × Nat × Nat × Bool) :=
  let d := h0Desc s t y
  if y.helper = 0 ∧ badTable y.hop d then []
  else helperSpans y.helper y.hop y.fields r.xa.toNat r.xb.toNat d

/-- Near bytes a syllable reads or stores: address and length. -/
def touches (s : State) (t : Nat) (r : Regs) (y : RawSyl) : List (Nat × Nat) :=
  if y.custom then (customRun s t r y).touched.filter (fun e => !inAperture e.1) else
  match y.cls.toNat with
  | 0 => if y.f 21 19 = 2 then [(y.f 10 0, sizeOf (y.f 12 11))] else []
  | 1 => if y.o ≤ 3 ∧ !inAperture (nearAddr r y) then [(nearAddr r y, sizeOf (y.f 19 18))] else []
  | 2 => (hSpans s t r y).map (fun e => (e.1, e.2.1)) ++ (if y.isH 6 2 then [(0x600 + r.xa.toNat % 512, y.f 9 0)] else [])
  | _ =>
    if y.o = 0x03 ∨ y.o = 0x04 then [(0x570 + 2 * y.f 18 16, 2)]
    else if y.o = 0x14 then [(y.f 10 5 * 32, 32)]
    else if y.o = 0x29 then [(0x568, 8)]
    else if y.o = 0x06 then [(0x5F0, 8)] else []

/-! ### Readiness (R114, R118, R139, R185, R209) -/

/-- Registers that outstanding loads and lock or atomic instructions will write. -/
def Thread.pendSets (x : Thread) : Sets :=
  x.loads.foldl (fun a l => Sets.union a { acc := l.reg.toNat = 0 && !l.flOnly, fl := l.fl, xa := l.reg.toNat = 1, xb := l.reg.toNat = 2 }) ({} : Sets)

def coreRemote (s : State) (t : Nat) : Nat :=
  ((s.cl (t / 128)).thread.map (fun e => if e.1 / 16 = coreOf t then e.2.loads.countP (·.remote) else 0)).sum

def hopCount (s : State) (c u : Nat) : Nat := (s.cl c).hops.countP (fun h => h.unit.toNat == u)

/-- A custom instruction's read of an aperture word finds its crossing empty: nothing the cluster has sent to that group is
still on its way, and the group's clock runs or it is in reset (R17, R19, R206; DEDUCED, log 60). -/
def State.apertureOpen (s : State) (c a : Nat) : Bool :=
  let i := apertureIsland a
  (s.up i || s.inReset i) && !s.net.any (fun m => m.src == c && m.dst == i) && !(s.cl c).hops.any (fun h => h.goesTo i)

def bundleReady (s : State) (t : Nat) (r : Regs) (ys : List RawSyl) : Bool :=
  let x := s.th t
  let rd := ys.foldl (fun a y => Sets.union a y.reads) ({} : Sets)
  let wr := ys.foldl (fun a y => Sets.union a y.writes) ({} : Sets)
  let pend := x.pendSets
  let accPend := pend.acc || x.helper.isSome
  let late := x.branches.any (·.late.isSome)
  !late
    && !((rd.acc || rd.fl) && accPend) && !(rd.fl && pend.fl) && !(rd.xa && pend.xa) && !(rd.xb && pend.xb)
    && !(wr.acc && pend.acc) && !(wr.fl && pend.fl) && !(wr.xa && pend.xa) && !(wr.xb && pend.xb)
    && !((wr.acc || wr.fl) && x.helper.isSome)
    && (x.plain || (!ys.any (nonSpec r) && x.branches.all (·.issued < 2)))
    && ys.all (fun y => bytesReady s t (touches s t r y))
    && (!ys.any (remoteLoad s t r) || (x.loads.countP (·.remote) < 4 && coreRemote s t < 32))
    && ys.all (fun y => y.cls != 2 || hopCount s (t / 128) y.helper < helperLimit y.helper)
    && ys.all (fun y => (apertureReads s t r y).all (s.apertureOpen (t / 128)))

/-! ### Address and operand checks at issue -/

/-- The commit word's fields are as R195 and R196 ask, for a packet of stored length `len`. -/
def commitWordOk (op : Nat) (w len : Nat) : Bool :=
  let act := bits w 63 62
  let within := fun (o n : Nat) => o + n ≤ len && o + n ≤ 512
  bits w 40 18 = 0 && (op = 0 || act = 0) &&
  match act with
  | 0 => bits w 61 41 = 0
  | 1 => bits w 45 41 = 0
  | 2 =>
    let cs := bits w 51 50
    cs ≠ 3 && within (bits w 61 53) (if bitAt w 52 then 8 else 10) &&
      (if cs = 1 then within (bits w 49 41) 2 else bits w 49 41 = 0)
  | _ => false

/-- A fault that a syllable meets when it executes: unit, kind, address and access code. -/
def execFault (s : State) (t : Nat) (r : Regs) (y : RawSyl) : Option (Nat × Nat × Nat × Nat) :=
  let x := s.th t
  let core := coreOf t
  let ecc := fun (a n : Nat) => (nearBad s t a n).map (fun b => (eccUnit t b, 0x63, b, 1))
  if y.custom then (customRun s t r y).fault.map (fun f => (if f.1 = 0x63 then eccUnit t f.2.1 else core, f.1, f.2.1, f.2.2)) else
  match y.cls.toNat with
  | 0 => if y.f 21 19 = 2 then ecc (y.f 10 0) (sizeOf (y.f 12 11)) else none
  | 1 =>
    if y.o ≤ 3 then
      (nearCheck s x.accord (nearAddr r y) (sizeOf (y.f 19 18)) (y.o == 3)).map (fun k => (core, k, nearAddr r y, if y.o = 3 then 2 else 1))
    else if y.o = 0x18 then
      let a := r.xa.toNat
      if !inAperture a then some (core, 0x6B, a, 3)
      else if a % 8 ≠ 0 then some (core, 0x6C, a, 3)
      else (nearCheck s x.accord a 8 true).map (fun k => (core, k, a, 3))
    else if y.o = 0x30 then (if bankBad s t (r.xa.toNat % 65536) then some (0x12, 0x63, r.xa.toNat % 65536, 1) else none)
    else (farCheck s (farAddr r) (sizeOf (y.f 19 18))).map (fun k => (core, k, farAddr r, if y.o = 0x0A then 2 else 1))
  | 2 =>
    ((hSpans s t r y).find? (fun e => !helperSpan e.1 e.2.1 || e.1 % e.2.2.1 ≠ 0)).map
      (fun e => (core, if helperSpan e.1 e.2.1 then 0x6C else 0x6B, e.1, 7))
  | _ =>
    if y.o = 0x06 ∧ !x.inTrap then some (core, 0x68, x.pc.toNat + (y.word true).toNat * 65536, 6)
    else if y.o = 0x12 ∧ 4 ≤ x.staging.length then some (core, 0x62, 0, 0)
    else if y.o = 0x14 ∧ ((s.cl (t / 128)).ch (y.f 4 0)).bad ∧ !((s.cl (t / 128)).ch (y.f 4 0)).msgs.isEmpty then
      some (0x11, 0x64, y.f 4 0, 1)
    else if y.o = 0x19 ∧ y.f 1 0 = 3 then some (core, 0x56, 0, 0)
    else if y.o = 0x1A ∧ (y.f 2 0 = 0 ∨ y.f 2 0 = 2 ∨ y.f 2 0 = 3) then
      if x.task then some (core, 0x57, 0, 0)
      else if commitWordOk (y.f 2 0) r.acc.toNat ((s.rcd x.record).disp.metaw.toNat % 16384) then none
      else some (core, 0x6E, 0, 0)
    else if y.isAtomic then
      let n := if y.o = 0x28 then 4 else 8
      let addr :=
        if y.f 21 21 = 1 then (farCheck s (farAddr r) n).map (fun k => (core, k, farAddr r, 3))
        else
          let a := r.xa.toNat
          if !inAperture a then some (core, 0x6B, a, 3) else (nearCheck s x.accord a n true).map (fun k => (core, k, a, 3))
      addr.or (if y.o = 0x29 then ecc 0x568 8 else none)
    else if y.o = 0x04 then ecc (0x570 + 2 * y.f 18 16) 2
    else none

/-! ### Execution -/

def setRegs (s : State) (t : Nat) (f : Regs → Regs) : State := s.modTh t (fun x => { x with regs := f x.regs })

/-- Note that an operation began under the newest unresolved branch, if there is one. -/
def Thread.begin' (x : Thread) (id : Nat) : Thread :=
  match x.branches.reverse with
  | [] => x
  | b :: rest => { x with branches := (({ b with begun := id :: b.begun } : Branch) :: rest).reverse }

/-- Add an outstanding load, with the identity given. -/
def State.addLoad (s : State) (t : Nat) (l : Load) : State :=
  s.modTh t (fun x => Thread.begin' { x with loads := x.loads ++ [l] } l.id)

/-- Count a write toward STORE_DONE (R255). -/
def State.addStore (s : State) (t id isl : Nat) : State :=
  s.modTh t (fun x => { x with stores := x.stores ++ [{ id := id, isl := isl }] })

/-- The island that a far or aperture access goes to. -/
def State.accessIsland (s : State) (a : Nat) (far : Bool) : Nat := if far then 43 + s.homeChannel a else apertureIsland a

def State.request (s : State) (t : Nat) (r : MemReq) (far : Bool) : State :=
  let x := s.th t
  s.send (t / 128) (s.accessIsland r.addr far)
    (.mem { r with record := x.record, gen := x.gen, sc := if x.task then 2 else 1 })

/-- The value a near load reads now: near memory, the event block (R140, R163). -/
def nearValue (s : State) (t : Nat) (r : Regs) (a n : Nat) : Nat :=
  match region a with
  | .events o => eventRead s t r o
  | _ => leVal (nearBytes s t r.frame a n)

def extendLoad (n : Nat) (sgn : Bool) (v : Nat) : W64 := if sgn then sext64 (8 * n) v else BitVec.ofNat 64 v

/-! ### Answers to threads -/

/-- The value a place gives a load, atomic or lock instruction of a thread: a load that was squashed or whose thread is
free takes nothing. An uncorrectable word gives zero and POISON (R97, R139, R202). -/
def State.answerLoad (s : State) (t id : Nat) (v : W64) (fl : Option Fl) (poison : Bool) : State :=
  let (q, s) := s.newId
  s.modTh t (fun x => { x with loads := x.loads.map (fun l =>
    if l.id = id then
      let e := if fl.isSome then v else extendLoad (2 ^ l.size.toNat) l.signed v.toNat
      { l with value := some (if poison && fl.isNone then 0 else e, fl), poison := poison, seq := q }
    else l) })

/-- A counted write is complete (R255). -/
def State.doneStore (s : State) (t id : Nat) : State :=
  let (q, s) := s.newId
  s.modTh t (fun x => { x with stores := x.stores.map (fun e => if e.id = id then { e with done := true, seq := q } else e) })

def execA (s : State) (t : Nat) (r : Regs) (y : RawSyl) : State :=
  let b := aOperand s t r y
  match y.o with
  | 0x30 => setRegs s t (fun q => { q with xa := b.truncate 32 })
  | 0x31 => setRegs s t (fun q => { q with xb := b.truncate 32 })
  | 0x32 => setRegs s t (fun q => { q with xa := r.xa + b.truncate 32 })
  | 0x33 => setRegs s t (fun q => { q with xb := r.xb + b.truncate 32 })
  | o =>
    match alu o with
    | none => s
    | some f =>
      let (v, fl) := f r.acc b r.fl
      setRegs s t (fun q => { q with acc := if flagsOnly o then q.acc else v, fl := fl })

def execM (s : State) (t : Nat) (r : Regs) (y : RawSyl) : State :=
  let x := s.th t
  let n := sizeOf (y.f 19 18)
  let sz := BitVec.ofNat 2 (y.f 19 18)
  let reg := BitVec.ofNat 2 (y.f 21 20)
  let (id, s) := s.newId
  let load := fun (s : State) (a : Nat) (far : Bool) =>
    let sg := y.o = 0x02 ∨ y.o = 0x09
    if far ∨ inAperture a then
      State.request (s.addLoad t { id := id, reg := reg, size := sz, signed := sg, remote := true, isl := s.accessIsland a far }) t
        { id := id, thread := t, tag := x.accord, kind := .load, addr := a, size := sz } far
    else
      s.addLoad t { id := id, reg := reg, size := sz, signed := sg,
                    value := some (extendLoad n sg (nearValue s t r a n), none), ecc := nearBad s t a n }
  match y.o with
  | 0x01 => load s (nearAddr r y) false
  | 0x02 => load s (nearAddr r y) false
  | 0x03 =>
    let a := nearAddr r y
    if inAperture a then
      State.request (s.addStore t id (apertureIsland a)) t
        { id := id, thread := t, tag := x.accord, kind := .store, addr := a, size := sz, data := BitVec.ofNat 64 (regVal r (y.f 21 20)) } false
    else s.nearStore t a (leBytes n (regVal r (y.f 21 20)))
  | 0x08 => load s (farAddr r) true
  | 0x09 => load s (farAddr r) true
  | 0x0A =>
    State.request (s.addStore t id (s.accessIsland (farAddr r) true)) t
      { id := id, thread := t, tag := x.accord, kind := .store, addr := farAddr r, size := sz, data := BitVec.ofNat 64 (regVal r (y.f 21 20)) } true
  | 0x18 =>
    State.request (s.addStore t id (apertureIsland r.xa.toNat)) t
      { id := id, thread := t, tag := x.accord, kind := .cnt, addr := r.xa.toNat, size := 3, data := r.acc } false
  | 0x30 => s.addLoad t { id := id, reg := 0, value := some (BitVec.ofNat 64 (bankWord s x.accord (r.xa.toNat % 65536)), none) }
  | _ => s

/-- An H syllable hands its operands to the helper (R187): what H1 to H5 and H7 compute is known at once, the others
take effect at their target. A source operand in an uncorrectable word returns POISONED (R215). -/
def execH (s : State) (t : Nat) (r : Regs) (y : RawSyl) : State :=
  let x := s.th t
  let c := t / 128
  let (id, s) := s.newId
  let d := h0Desc s t y
  let spans := hSpans s t r y
  let rd := spans.filter (·.2.2.2)
  let data := rd.flatMap (fun e => nearBytes s t r.frame e.1 e.2.1)
  let data := if y.isH 6 2 then nearBytes s t r.frame (0x600 + r.xa.toNat % 512) (y.f 9 0) else data
  let refused := y.helper = 0 ∧ badTable y.hop d
  let dst := if refused then (0, 0) else helperDst y.helper y.hop y.fields r.xa.toNat r.xb.toNat d
  let h : HelperOp :=
    { id := id, thread := t % 128, unit := BitVec.ofNat 3 y.helper, op := BitVec.ofNat 4 y.hop, dst := dst.1, dstLen := dst.2
      fields := y.fields, acc := r.acc, xa := r.xa, xb := r.xb, data := data, tag := x.accord, record := x.record, gen := x.gen }
  let bad := rd.any (fun e => (nearBad s t e.1 e.2.1).isSome) || (y.isH 6 2 && (nearBad s t (0x600 + r.xa.toNat % 512) (y.f 9 0)).isSome)
  let res := if refused then some (refusal 7) else if bad then some poisoned else helperCompute s c h
  let now := if y.helper = 5 ∧ (y.hop = 0 ∨ y.hop = 1 ∨ y.hop = 3 ∨ y.hop = 4) then clusterTime s c else ((s.cl c).lastNow, (s.cl c).lastFrac)
  let isls := if res.isSome then [] else if y.helper = 6 then [41]
    else if y.hop < 2 then s.keyIslands (y.f 21 14) x.accord data
    else (37 + dFirst d / 8) :: (if dKind d = 6 then s.keyIslands (y.f 21 14) x.accord (data.take (dKeyLen d)) else [])
  let s := s.modCl c (fun k => { k with hops := k.hops ++ [{ h with res := res, isls := isls }], lastNow := now.1, lastFrac := now.2
                                        rrHelp := Store.set 0 k.rrHelp y.helper ((coreOf t + 1) % 8) })
  (s.modTh t (fun x => Thread.begin' { x with helper := some id } id)).count (src c (8 + y.helper)) 0x10

/-- A custom instruction's read of an aperture word, seen from its bank: counted, and reported where the row is uncorrectable;
a group in reset refuses it and the core reports APERTURE_REFUSED (R206, R251, R267). -/
def State.customRead (s : State) (t a : Nat) : State :=
  let x := s.th t
  if s.inReset (apertureIsland a) then
    s.raise (src (t / 128) (coreOf t)) 0x7C { addr := a, master := t, access := 1, detail := recDetail x.gen x.record, conseq := true }
  else
    let p := s.aperturePhys x.accord (apertureBank a) (a % 0x200000)
    let s := s.count (bankSrc (p / 1572864)) 0x10
    if s.rowBad p then s.tsEcc (p / 1572864) (p % 1572864 / 64) t 1 else s

/-- A POISON token, held with the newest unresolved branch: a squashed bundle sends none (R119). -/
def State.poisonOr (s : State) (t : Nat) : State :=
  match (s.th t).branches.reverse with
  | [] => s.sendPoison t
  | b :: rest => s.modTh t (fun x => { x with branches := (({ b with poison := true } : Branch) :: rest).reverse })

/-- A custom syllable takes effect all at once (R207). -/
def execCustom (s : State) (t : Nat) (r : Regs) (y : RawSyl) : State :=
  let m := customRun s t r y
  let reads := apertureReads s t r y
  let s := setRegs s t (fun q => { q with acc := m.reg 0, xa := (m.reg 1).truncate 32, xb := (m.reg 2).truncate 32, fl := m.fl })
  let s := m.stores.foldl (fun s e => s.nearStore t e.1 e.2) s
  let s := reads.foldl (fun s a => s.customRead t a) s
  let s := if m.free then { s with fresh := s.fresh + 1 } else s
  let s := if m.poison then s.poisonOr t else s
  s.count (src (t / 128) (coreOf t)) 0x16

/-- The pending word a WFE returns, and whether STORE_DONE sets because nothing is counted (R120, R256). -/
def wfeWord (s : State) (t : Nat) (mask : BitVec 16) : BitVec 16 :=
  let w := pendingWord s t (s.th t).regs
  (if mask.getLsbD 5 && (s.th t).stores.isEmpty then w ||| 0x20 else w) &&& mask

/-- SEV: the event in the threads XA names; free threads take none (R123). -/
def sendEvent (s : State) (t : Nat) (xa : W32) (e : Nat) : State :=
  let base := t / 128 * 128
  let ts := if xa.getLsbD 7 then (List.range 128).filter (· != t % 128) else [xa.toNat % 128]
  ts.foldl (fun s u => s.edge (base + u) (8 + e)) s

/-- A request to a lock slice: the slice of bank w[15:11] (R198). -/
def State.lockRequest (s : State) (t w : Nat) (op : LockOp) : State :=
  let (id, s) := s.newId
  (s.addLoad t { id := id, reg := 0, fl := true, isl := 37 + w / 2048 / 8 }).send (t / 128) (37 + w / 2048 / 8) (.lockReq id t w op)

/-- The B syllable has written bytes that a helper operation of its own bundle will write too: the later class stands (R144). -/
def State.coverHops (s : State) (t a room n : Nat) : State :=
  if helperPends s t a room then
    s.modCl (t / 128) (fun c => { c with hops := c.hops.map (fun h =>
      if h.thread == t % 128 && !h.cancelled && overlaps a room h.dst h.dstLen then { h with kept := (a, n) :: h.kept } else h) })
  else s

/-- CHR (R128): the oldest message into the frame, its word count into ACC, and credit back to a remote sender. -/
def chrEffect (s : State) (t n fa : Nat) : State :=
  let c := t / 128
  match ((s.cl c).ch n).msgs with
  | [] => setRegs s t (fun q => { q with acc := 0, fl := mkFl true false false false })
  | (from', w) :: rest =>
    let s := (s.coverHops t fa 32 (8 * w.length)).modCl c (·.modCh n (fun k => { k with msgs := rest }))
    let s := s.nearWrite t fa (w.flatMap (fun v => leBytes 8 v.toNat))
    let s := if s.chRemote c n then s.send c from' (.credit (s.positionOf c) n w.length false) else s
    setRegs s t (fun q => { q with acc := BitVec.ofNat 64 w.length, fl := 0 })

/-- An outstanding branch: PC goes on, and the snapshot is taken when the bundle has had its effect (R117). -/
def State.addBranch (s : State) (t : Nat) (taken : Bool) (target : BitVec 16) : State :=
  s.modTh t (fun x => { x with branches := x.branches ++ [({ taken := taken, target := target, regs := x.regs } : Branch)] })

def frame16 (r : Regs) (o : Nat) : BitVec 16 := BitVec.ofNat 16 (mreadLE r.frame o 2)

/-- The B syllable, executed last; `next` is the address after the bundle. -/
def execB (s : State) (t : Nat) (r : Regs) (next : BitVec 16) (y : RawSyl) : State :=
  let x := s.th t
  let c := t / 128
  let target := BitVec.ofNat 16 (y.f 15 0)
  match y.o with
  | 0x01 => s.addBranch t (condHolds (y.f 21 18) r.fl) target
  | 0x02 => s.addBranch t (condHolds (y.f 21 18) r.fl) (r.xa.truncate 16)
  | 0x03 =>
    let a := 0x570 + 2 * y.f 18 16
    ((s.coverHops t a 2 2).nearWrite t a (leBytes 2 next.toNat)).addBranch t true target
  | 0x04 => s.addBranch t true (frame16 r (0x570 + 2 * y.f 18 16))
  | 0x05 => s.modTh t (fun x => { x with
      branches := x.branches ++ [({ taken := false, target := target, regs := x.regs, bhb := some (BitVec.ofNat 3 (y.f 21 19)) } : Branch)] })
  | 0x06 =>
    s.modTh t (fun x => { x with inTrap := false, pc := frame16 r 0x5F4
                                 regs := { x.regs with fl := BitVec.ofNat 4 (mget r.frame 0x5F7).toNat } })
  | 0x07 => s
  | 0x10 =>
    let m := BitVec.ofNat 16 (y.f 15 0)
    let w := wfeWord s t m
    s.modTh t (fun x => { x with edges := x.edges &&& ~~~(w &&& 0xFFFC), regs := { x.regs with acc := w.zeroExtend 64 } })
  | 0x11 => sendEvent s t r.xa (y.f 2 0)
  | 0x12 => s.modTh t (fun x => { x with staging := x.staging ++ [r.acc] })
  | 0x13 =>
    if x.staging.isEmpty then setRegs s t (fun q => { q with fl := mkFl false false false true })
    else if y.f 10 10 = 0 ∧ s.chRemote c (y.f 4 0) then
      -- only threads of SOURCE may send there: discarded and counted as a refused message is (R125, R130; DESIGN CHOICE, log 61)
      (setRegs (s.modTh t (fun x => { x with staging := [] })) t (fun q => { q with fl := mkFl false false false true })).count (src c 0x11) 0x11
    else
      let refused := y.f 10 10 = 1 && s.inReset (s.clusterAt (y.f 9 5))
      let (id, s) := if y.f 10 10 = 1 then s.newId else (0, s)
      let s := setRegs (s.chSend t (y.f 10 10 = 1) (y.f 9 5) (y.f 4 0) id) t (fun q => { q with fl := mkFl false false false refused })
      -- until the message is accepted or refused there, FL is pending
      if y.f 10 10 = 1 ∧ ¬ refused then s.addLoad t { id := id, reg := 3, fl := true, flOnly := true, isl := s.clusterAt (y.f 9 5) } else s
  | 0x14 => chrEffect s t (y.f 4 0) (y.f 10 5 * 32)
  | 0x18 => (s.modTh t (fun x => { x with passed := x.passed ||| (1 <<< y.f 1 0) })).notePassed t (y.f 1 0)
  | 0x19 =>
    let k := y.f 1 0
    (s.modTh t (fun x => { x with released := x.released ||| BitVec.ofNat 4 (2 ^ (k + 1) - 1) })).send c 26
      (.rel t x.record x.gen k x.pc)
  | 0x1A =>
    let s := s.send c 26 (.commit t x.record x.gen (BitVec.ofNat 3 (y.f 2 0)) r.acc x.pc)
    (s.endWork t false).tellFree t
  | 0x20 => s.lockRequest t (r.xa.toNat % 65536) .acquire
  | 0x21 => s.lockRequest t (r.xa.toNat % 65536) .tryLock
  | 0x22 => s.lockRequest t (r.xa.toNat % 65536) .release
  | o =>
    if y.isAtomic then
      let (id, s) := s.newId
      let far := y.f 21 21 = 1
      let s := s.addLoad t { id := id, reg := 0, fl := true, isl := s.accessIsland (if far then farAddr r else r.xa.toNat) far }
      s.request t { id := id, thread := t, tag := x.accord, kind := .atomic (BitVec.ofNat 3 (o - 0x28))
                    addr := if far then farAddr r else r.xa.toNat, size := if o = 0x28 then 2 else 3
                    data := r.acc, data2 := BitVec.ofNat 64 (mreadLE r.frame 0x568 8) } far
    else s

/-- One syllable of a bundle, from the registers as they stood before the bundle (R144). -/
def execSyl (t : Nat) (r : Regs) (next : BitVec 16) (s : State) (y : RawSyl) : State :=
  if y.custom then execCustom s t r y else
  match y.cls.toNat with
  | 0 => execA s t r y
  | 1 => execM s t r y
  | 2 => execH s t r y
  | _ => execB s t r next y

def addrAfter (pc : BitVec 16) (n : Nat) : BitVec 16 := pc + BitVec.ofNat 16 n

/-- Count an issued bundle: at once, or with the newest branch it stands or falls with (R456, R462). -/
def State.countBundle (s : State) (t n : Nat) : State :=
  match (s.th t).branches.reverse with
  | [] => (s.count (src (t / 128) (coreOf t)) 0x10).count (src (t / 128) (coreOf t)) 0x20 n
  | b :: rest =>
    s.modTh t (fun x => { x with
      branches := ((({ b with bundles := b.bundles + 1, slots := b.slots + n } : Branch) :: rest).reverse).map
        (fun b => { b with issued := b.issued + 1 }) })

/-- Slots that a bundle fills: a custom syllable takes an A and an M port (R145, R462). -/
def slotsOf (ys : List RawSyl) : Nat := (ys.map (fun y => if y.custom then 2 else 1)).sum

/-- Issue a checked bundle: its syllables take effect together and PC goes past it. -/
def State.runBundle (s : State) (t : Nat) (ys : List RawSyl) : State :=
  let x := s.th t
  let next := addrAfter x.pc ys.length
  let s := s.countBundle t (slotsOf ys)
  let s := s.modTh t (fun x => { x with bundle := [], wait := .none, waitSyls := [], bpPass := false, pc := next })
  let s := s.modCl (t / 128) (fun c => { c with
    rrIssue := Store.set 0 c.rrIssue (coreOf t * 4 + x.prio.toNat) ((t % 16 + 1) % 16) })
  -- PC stays the bundle's own for the messages that carry it
  let s := ys.foldl (fun s y => execSyl t x.regs next (s.modTh t (fun z => if z.busy then { z with pc := x.pc } else z)) y) s
  let y := ys.getLast?
  if y.any (·.isB 0x06) then s
  else
    let s := s.modTh t (fun z => { z with pc := next })
    -- a branch's snapshot is of the registers after its bundle
    match (s.th t).branches.reverse, y.any (fun y => y.cls == 3 && 1 ≤ y.o && y.o ≤ 5) with
    | b :: rest, true => s.modTh t (fun z => { z with branches := (({ b with regs := z.regs } : Branch) :: rest).reverse })
    | _, _ => s

/-! ### Issue selection (R115, R210) -/

/-- A ready thread and its next bundle. -/
structure Offer where
  thread : Nat
  prio   : Nat
  syls   : List RawSyl

/-- Free ports of a core: A0 and A1, M0 and M1, H, B. -/
structure FreePorts where
  a : Nat := 2
  m : Nat := 2
  h : Nat := 1
  b : Nat := 1

/-- One port of each class present; a custom syllable takes an A and an M port (R145). -/
def portsOf (ys : List RawSyl) : FreePorts :=
  let n := fun (p : RawSyl → Bool) => b2n (ys.any p)
  { a := n (fun y => y.custom || y.cls == 0), m := n (fun y => y.custom || y.cls == 1), h := n (·.cls == 2), b := n (·.cls == 3) }

def FreePorts.fits (f n : FreePorts) : Bool := n.a ≤ f.a && n.m ≤ f.m && n.h ≤ f.h && n.b ≤ f.b
def FreePorts.less (f n : FreePorts) : FreePorts := { a := f.a - n.a, m := f.m - n.m, h := f.h - n.h, b := f.b - n.b }

/-- What a helper can accept in a cluster cycle (R209). -/
def helperAccepts (u : Nat) : Nat := match u with | 0 => 2 | 1 => 2 | 2 => 2 | 3 => 8 | 4 => 2 | 5 => 2 | 6 => 1 | _ => 2

/-- The cores that a helper grants, of those whose ready threads name it: from its pointer on, modulo 8 (R210). -/
def State.grantCores (s : State) (c u : Nat) (cores : List Nat) : List Nat :=
  let r := Store.get 0 (s.cl c).rrHelp u
  (sortBy (fun a b => (a + 8 - r) % 8 ≤ (b + 8 - r) % 8) cores).take (helperAccepts u)

/-- Ready threads in the order of R115: by priority, and within it from the round-robin pointer on. -/
def State.issueOrder (s : State) (c core : Nat) (l : List Offer) : List Offer :=
  let key := fun (o : Offer) => (3 - o.prio) * 16 + (o.thread % 16 + 16 - Store.get 0 (s.cl c).rrIssue (core * 4 + o.prio)) % 16
  sortBy (fun a b => key a ≤ key b) l

/-- The H syllables of a bundle name helpers that have granted to the core. -/
def State.granted' (s : State) (c core : Nat) (l : List Offer) (o : Offer) : Bool :=
  o.syls.all (fun y => y.cls != 2 ||
    (s.grantCores c y.helper ((l.filter (fun q => q.syls.any (fun z => z.cls == 2 && z.helper == y.helper))).map (fun q => coreOf q.thread)).eraseDups).contains core)

/-- The threads whose bundles a core issues in a cycle, of those ready in its cluster: the first fits, since every port is free. -/
def State.chooseBundles (s : State) (c core : Nat) (l : List Offer) : List Nat :=
  ((s.issueOrder c core (l.filter (fun o => coreOf o.thread == core))).foldl (fun (a : FreePorts × List Nat) o =>
    if s.granted' c core l o && (a.2.isEmpty || a.1.fits (portsOf o.syls)) then (a.1.less (portsOf o.syls), a.2 ++ [o.thread]) else a)
    ({}, [])).2

/-! ### The whole of issue -/

/-- The thread may issue its next bundle now, apart from the bundle's own conditions (R114, R134, R135, R174). -/
def State.mayIssue (s : State) (t : Nat) : Bool :=
  let x := s.th t
  s.up (t / 128) && x.busy && x.wait == .none && (x.halt == .none || x.stepping) && x.trap.isNone && !x.abortReq
    && (!x.haltReq || x.stepping) && !(x.nmi && !x.inTrap && x.plain && !x.stepping)

/-- An enabled breakpoint stands at the thread's PC under its tag (R469). -/
def State.breakHit (s : State) (t : Nat) : Bool :=
  let x := s.th t
  !x.bpPass && (s.cl (t / 128)).brk.any (fun e => e.2.enable && e.2.pc == x.pc && e.2.tag.toNat == x.accord)

/-- A request to I26 or a wait that the bundle begins, in place of taking effect: ORD, WFE, CHC (R120, R127, R191). -/
def State.beginsWait (s : State) (t : Nat) (ys : List RawSyl) : Option (WaitKind × Bool) :=
  let x := s.th t
  match ys.getLast? with
  | none => none
  | some y =>
    if y.isB 0x10 then (if wfeWord s t (BitVec.ofNat 16 (y.f 15 0)) = 0 then some (.wfe (BitVec.ofNat 16 (y.f 15 0)), false) else none)
    else if y.isB 0x18 then
      if x.noDomain ∨ (x.passed ||| x.released).getLsbD (y.f 1 0) then none else some (.ord (y.f 1 0), true)
    else if y.isB 0x13 then
      if x.staging.isEmpty ∨ (y.f 10 10 = 0 ∧ s.chRemote (t / 128) (y.f 4 0) = true) ∨ s.chFits t (y.f 10 10 = 1) (y.f 9 5) (y.f 4 0) x.staging.length then none
      else some (.chc (y.f 10 10 = 1) (y.f 9 5) (y.f 4 0), false)
    else none

/-- The round-robin pointer of the thread's priority moves past it (R115). -/
def State.passTurn (s : State) (t : Nat) : State :=
  s.modCl (t / 128) (fun c => { c with
    rrIssue := Store.set 0 c.rrIssue (coreOf t * 4 + (s.th t).prio.toNat) ((t % 16 + 1) % 16) })

/-- Enter a wait: the bundle is held and PC stays at it (R134, R137; DEDUCED, log 8). A bundle that begins a wait has issued; one
that waits for the acknowledgement of its EFFECT has not (R114). -/
def State.enterWait (s : State) (t : Nat) (ys : List RawSyl) (w : WaitKind) : State :=
  let x := s.th t
  let s := s.modTh t (fun x => { x with wait := w, waitSyls := ys, bundle := [], bpPass := false })
  let s := if w = .effect then s else s.passTurn t
  match w with
  | .ord k => s.send (t / 128) 26 (.ordReq t x.record x.gen k)
  | .chc remote pos n =>
    s.modCl (t / 128) (fun c =>
      if remote then { c with rblocked := Store.modify [] c.rblocked (creditKey pos n) (· ++ [t % 128]) }
      else c.modCh n (fun k => { k with blocked := k.blocked ++ [t % 128] }))
  | .effect => s.send (t / 128) 26 (.effect t x.record x.gen)
  | _ => s

/-- Issue the bundle that is ready: hold it for the first effect, begin its wait, or let it take effect. -/
def State.startBundle (s : State) (t : Nat) (ys : List RawSyl) : State :=
  let x := s.th t
  if !x.effected && ys.any (isEffect s t x.regs) then s.enterWait t ys .effect
  else match s.beginsWait t ys with
    | some (w, _) => s.enterWait t ys w
    | none => s.runBundle t ys

/-- Issue a bundle of a thread: none when the thread is not ready, and then nothing changes. -/
def State.tryIssue (s : State) (t : Nat) (ys : List RawSyl) (stopped : Bool) : Option State :=
  let x := s.th t
  if !s.mayIssue t then none
  else if s.breakHit t then
    if x.plain then
      some (((s.modTh t (fun x => { x with halt := .debug, bundle := [] })).count (src (t / 128) 0x13) 0x11).stewardEvent (.breakHit t))
    else none
  else
    let syl := fun (i : Nat) => ((ys.getD i ⟨0, 0, 0⟩).word (stopped && i + 1 == ys.length)).toNat
    let addr := fun (i : Nat) => x.pc.toNat + syl i * 65536
    if (List.range ys.length).any (fun i => bankBad s t ((x.pc.toNat + i) % 65536)) then
      some (s.faultOr t 0x12 0x63 x.pc.toNat 5)
    else match illegalAt ys stopped with
    | some i => some (s.faultOr t (coreOf t) 0x6A (addr i) 6)
    | none =>
      match decodeFrom (s.service (t / 128)) (s.copy x.accord).dtab 0 ys with
      | .fault k i => some (s.faultOr t (coreOf t) k (addr i) 6)
      | .trap c i => some (s.trapOr t c (syl i) i (addrAfter x.pc ys.length))
      | .ok =>
        if !bundleReady s t x.regs ys then none
        else match ys.findSome? (execFault s t x.regs) with
          | some (u, k, a, ac) =>
            -- CHS on a full buffer also discards the staged words (R126); a damaged message goes too (R368 CH_ECC)
            let s := if k = 0x62 then s.modTh t (fun x => { x with staging := [] }) else s
            let s := if k = 0x64 then s.modCl (t / 128) (·.modCh a (fun c => { c with msgs := c.msgs.drop 1, bad := false })) else s
            some (s.faultOr t u k a ac)
          | none =>
            -- the bundle that a command offers is the one ready bundle of its cycle (log 6)
            if (s.chooseBundles (t / 128) (coreOf t) [⟨t, x.prio.toNat, ys⟩]).contains t then some (s.startBundle t ys) else none

/-- One syllable command: the syllable joins the thread's bundle, which issues at its stop bit, or at once when it can
no longer be legal. A thread that is not ready takes nothing (DEDUCED, log 6). -/
def State.syllable (s : State) (y : Syl) (cls op : Nat) : State :=
  let id : ThreadId := ⟨y.cluster, y.core, y.thread⟩
  let t := threadNo id
  let ys := (s.th t).bundle ++ [{ cls := BitVec.ofNat 2 cls, op := BitVec.ofNat 7 op, fields := y.fields }]
  if !threadOk id then s
  else if y.stop || (illegalAt ys false).isSome then (s.tryIssue t ys y.stop).getD s
  else if s.mayIssue t then s.modTh t (fun x => { x with bundle := ys }) else s

end Sys2Proof.Machine
end

