-- ==== Sys2Proof/Machine/AClass.lean ====
section
/-! DEFINITION. The meanings of the A-class instructions (spec/07_isa_reference.md R178 to R183, custom ones R203 to R208). Each issues its syllable; what the syllable does is in Flags, HelperUnits and Issue. -/

namespace Sys2Proof.Machine

/-- MOV (R179). -/
def execMov (y : Syl) (s : State) : Host.Outcome State Fault Refusal := answer (s.syllable y 0 0x01)

/-- ADD (R179). -/
def execAdd (y : Syl) (s : State) : Host.Outcome State Fault Refusal := answer (s.syllable y 0 0x02)

/-- ADC (R179). -/
def execAdc (y : Syl) (s : State) : Host.Outcome State Fault Refusal := answer (s.syllable y 0 0x03)

/-- SUB (R179). -/
def execSub (y : Syl) (s : State) : Host.Outcome State Fault Refusal := answer (s.syllable y 0 0x04)

/-- SBC (R179). -/
def execSbc (y : Syl) (s : State) : Host.Outcome State Fault Refusal := answer (s.syllable y 0 0x05)

/-- RSB (R179). -/
def execRsb (y : Syl) (s : State) : Host.Outcome State Fault Refusal := answer (s.syllable y 0 0x06)

/-- NEG (R179). -/
def execNeg (y : Syl) (s : State) : Host.Outcome State Fault Refusal := answer (s.syllable y 0 0x07)

/-- CMP (R179). -/
def execCmp (y : Syl) (s : State) : Host.Outcome State Fault Refusal := answer (s.syllable y 0 0x08)

/-- AND (R179). -/
def execAnd (y : Syl) (s : State) : Host.Outcome State Fault Refusal := answer (s.syllable y 0 0x0A)

/-- OR (R179). -/
def execOr (y : Syl) (s : State) : Host.Outcome State Fault Refusal := answer (s.syllable y 0 0x0B)

/-- XOR (R179). -/
def execXor (y : Syl) (s : State) : Host.Outcome State Fault Refusal := answer (s.syllable y 0 0x0C)

/-- ANDN (R179). -/
def execAndn (y : Syl) (s : State) : Host.Outcome State Fault Refusal := answer (s.syllable y 0 0x0D)

/-- TST (R179). -/
def execTst (y : Syl) (s : State) : Host.Outcome State Fault Refusal := answer (s.syllable y 0 0x0E)

/-- SHL (R181). -/
def execShl (y : Syl) (s : State) : Host.Outcome State Fault Refusal := answer (s.syllable y 0 0x10)

/-- SHR (R181). -/
def execShr (y : Syl) (s : State) : Host.Outcome State Fault Refusal := answer (s.syllable y 0 0x11)

/-- SAR (R181). -/
def execSar (y : Syl) (s : State) : Host.Outcome State Fault Refusal := answer (s.syllable y 0 0x12)

/-- ROL (R181). -/
def execRol (y : Syl) (s : State) : Host.Outcome State Fault Refusal := answer (s.syllable y 0 0x13)

/-- ROR (R181). -/
def execRor (y : Syl) (s : State) : Host.Outcome State Fault Refusal := answer (s.syllable y 0 0x14)

/-- MUL (R182). -/
def execMul (y : Syl) (s : State) : Host.Outcome State Fault Refusal := answer (s.syllable y 0 0x18)

/-- MULH (R179). -/
def execMulh (y : Syl) (s : State) : Host.Outcome State Fault Refusal := answer (s.syllable y 0 0x19)

/-- MULHU (R179). -/
def execMulhu (y : Syl) (s : State) : Host.Outcome State Fault Refusal := answer (s.syllable y 0 0x1A)

/-- MIN (R179). -/
def execMin (y : Syl) (s : State) : Host.Outcome State Fault Refusal := answer (s.syllable y 0 0x20)

/-- MAX (R179). -/
def execMax (y : Syl) (s : State) : Host.Outcome State Fault Refusal := answer (s.syllable y 0 0x21)

/-- MINU (R179). -/
def execMinu (y : Syl) (s : State) : Host.Outcome State Fault Refusal := answer (s.syllable y 0 0x22)

/-- MAXU (R179). -/
def execMaxu (y : Syl) (s : State) : Host.Outcome State Fault Refusal := answer (s.syllable y 0 0x23)

/-- SEXT (R179). -/
def execSext (y : Syl) (s : State) : Host.Outcome State Fault Refusal := answer (s.syllable y 0 0x28)

/-- ZEXT (R179). -/
def execZext (y : Syl) (s : State) : Host.Outcome State Fault Refusal := answer (s.syllable y 0 0x29)

/-- BSWAP (R179). -/
def execBswap (y : Syl) (s : State) : Host.Outcome State Fault Refusal := answer (s.syllable y 0 0x2A)

/-- POPC (R179). -/
def execPopc (y : Syl) (s : State) : Host.Outcome State Fault Refusal := answer (s.syllable y 0 0x2B)

/-- CLZ (R179). -/
def execClz (y : Syl) (s : State) : Host.Outcome State Fault Refusal := answer (s.syllable y 0 0x2C)

/-- CTZ (R179). -/
def execCtz (y : Syl) (s : State) : Host.Outcome State Fault Refusal := answer (s.syllable y 0 0x2D)

/-- XMOVA (R180). -/
def execXmova (y : Syl) (s : State) : Host.Outcome State Fault Refusal := answer (s.syllable y 0 0x30)

/-- XMOVB (R180). -/
def execXmovb (y : Syl) (s : State) : Host.Outcome State Fault Refusal := answer (s.syllable y 0 0x31)

/-- XADDA (R180). -/
def execXadda (y : Syl) (s : State) : Host.Outcome State Fault Refusal := answer (s.syllable y 0 0x32)

/-- XADDB (R180). -/
def execXaddb (y : Syl) (s : State) : Host.Outcome State Fault Refusal := answer (s.syllable y 0 0x33)

/-- CUSTOM_A (R206): opcode 0x70 + n, decode table entry n. -/
def execCustomA (y : Syl) (n : BitVec 4) (s : State) : Host.Outcome State Fault Refusal :=
  answer (s.syllable y 0 (0x70 + n.toNat))

end Sys2Proof.Machine
end

