-- ==== Sys2Proof/Machine/Buffers.lean ====
section
/-! DEFINITION. The free stores of cells, descriptors and buffers, the ingress accounts with pause and PFC, and packets in
cell memory (spec/12_buffer_pools.md R281 to R295, spec/02_port_array.md R36 to R38, spec/08_helpers.md R226). -/

namespace Sys2Proof.Machine

/-! ### Ports as sources, pause and PFC (R36 to R38) -/

/-- The source of a lane, and of a port by its first lane (R366). -/
def laneSrc (l : Nat) : Nat := src (31 + l / 8) (l % 8)

def State.portWord (s : State) (p : Nat) : ObjWord := s.obj 0x0010 p
def State.portMode (s : State) (p : Nat) : Nat := fld (s.portWord p) 27 24
def State.portFlow (s : State) (p : Nat) : Nat := fld (s.portWord p) 21 20

/-- The port sends the kind of pause its FLOW gives for the class, with the quanta named: 8 stands for a pause frame. -/
def State.sendPause (s : State) (p c quanta : Nat) : State :=
  if ¬ (s.port p).linkUp then s
  else if s.portFlow p = 1 then (s.emit (.pause p 8 (BitVec.ofNat 16 quanta))).count (laneSrc p) 0x16
  else if s.portFlow p = 2 ∧ bitAt (fld (s.obj 0x0012 p) 36 29) c then
    (s.emit (.pause p c (BitVec.ofNat 16 quanta))).count (laneSrc p) 0x16
  else s

/-- Cells that an ingress account holds. -/
def State.account (s : State) (p c : Nat) : Nat := Store.get 0 s.pools.account (p * 8 + c)

/-- Compare an account with its thresholds (R38): XOFF is sent as it rises there, quanta 0 as it falls to XON. An
account that rises to XOFF again before it has fallen to XON sends nothing new there, as the repeats of R38 go on (DESIGN CHOICE, log 23). -/
def State.flowCheck (s : State) (p c : Nat) : State :=
  let w := s.obj 0x0013 (p * 8 + c)
  let a := s.account p c
  let on := (s.port p).xoffSent.getLsbD c
  if ¬ on ∧ fld w 35 18 ≤ a then
    State.sendPause (s.modPort p (fun q => { q with xoffSent := q.xoffSent ||| (1 <<< c) })) p c 0xFFFF
  else if on ∧ a ≤ fld w 17 0 then
    State.sendPause (s.modPort p (fun q => { q with xoffSent := q.xoffSent &&& ~~~((1 : BitVec 8) <<< c) })) p c 0
  else s

/-- Raise or lower an ingress account (R37). -/
def State.addAccount (s : State) (p c n : Nat) : State :=
  State.flowCheck { s with pools := { s.pools with account := Store.modify 0 s.pools.account (p * 8 + c) (· + n) } } p c

def State.subAccount (s : State) (p c n : Nat) : State :=
  State.flowCheck { s with pools := { s.pools with account := Store.modify 0 s.pools.account (p * 8 + c) (· - n) } } p c

/-! ### Packet cell memory (R71, R281, R386) -/

/-- Write bytes of cell memory: 64-byte words written whole lose their mark (R387). -/
def State.cellWrite (s : State) (a : Nat) (l : List Byte) : State :=
  { s with pools := { s.pools with cells := mwrite s.pools.cells a l
                                   badCell := s.pools.badCell.filter (fun w => !(decide (a ≤ w * 64) && decide (w * 64 + 64 ≤ a + l.length))) } }

/-! ### A pool's region (R282, R283, R285) -/

def State.poolOn (s : State) (p : Nat) : Bool := fld (s.obj 0x0070 p) 63 63 = 1
def State.poolDram (s : State) (p : Nat) : Bool := fld (s.obj 0x0070 p) 62 62 = 1
def State.poolSize (s : State) (p : Nat) : Nat := 2 ^ fld (s.obj 0x0070 p) 61 57
def State.poolCount (s : State) (p : Nat) : Nat := fld (s.obj 0x0070 p) 56 36
def State.poolBase (s : State) (p : Nat) : Nat := fld (s.obj 0x0070 p) 18 0

/-- The first byte of a buffer, in cell memory or in device memory. -/
def State.bufAddr (s : State) (p i : Nat) : Nat :=
  s.poolBase p * (if s.poolDram p then 2 ^ 20 else 256) + i * s.poolSize p

/-- The state word of buffer `i`, and slot `k` of the free ring: 8 bytes each, behind the buffers. -/
def State.wordAddr (s : State) (p i : Nat) : Nat := s.bufAddr p (s.poolCount p) + 8 * i
def State.slotAddr (s : State) (p k : Nat) : Nat := s.wordAddr p (s.poolCount p) + 8 * k

/-- Bytes of a pool's memory, a write there, and whether a read there meets an uncorrectable word. -/
def State.poolBytes (s : State) (p a n : Nat) : List Byte := if s.poolDram p then s.dramBytes a n else mread s.pools.cells a n
def State.poolPut (s : State) (p a : Nat) (l : List Byte) : State := if s.poolDram p then s.dramWrite a l else s.cellWrite a l
def State.poolBad (s : State) (p a n : Nat) : Bool :=
  (linesOf a n).any (fun k => if s.poolDram p then s.lineBad k else s.pools.badCell.contains k)

/-- The 64 bits of a buffer's state word, and what such a word holds (R285; the byte order in memory: DESIGN CHOICE, log 30). -/
def Buf.code (b : Buf) : Nat :=
  b.gen.toNat * 2 ^ 56 + (if b.alloc then 2 ^ 55 else 0) + (if b.leak then 2 ^ 54 else 0) + b.owner.toNat * 2 ^ 32 + b.time.toNat

def Buf.ofCode (v : Nat) (bad : Bool) : Buf :=
  { gen := BitVec.ofNat 8 (bits v 63 56), alloc := bitAt v 55, leak := bitAt v 54, owner := BitVec.ofNat 16 (bits v 47 32)
    time := BitVec.ofNat 32 (bits v 31 0), bad := bad }

def State.buf (s : State) (p i : Nat) : Buf :=
  if p = 0 ∨ s.poolCount p ≤ i then {}
  else Buf.ofCode (leVal (s.poolBytes p (s.wordAddr p i) 8)) ((s.pool p).badBuf.contains i || (s.pool p).stuck.contains i || s.poolBad p (s.wordAddr p i) 8)

def State.modBuf (s : State) (p i : Nat) (f : Buf → Buf) : State :=
  if p = 0 ∨ s.poolCount p ≤ i then s else s.poolPut p (s.wordAddr p i) (leBytes 8 (f (s.buf p i)).code)

/-! ### Free rings (R281, R286) -/

def FreeRing.count (r : FreeRing) : Nat := r.limit - r.next + r.freed.length

/-- The entry is in the ring. -/
def FreeRing.holds (r : FreeRing) (e : Nat) : Bool := (decide (r.next ≤ e) && decide (e < r.limit)) || r.freed.contains e

/-- The slot of the `k`-th entry from the head: slots are used in turn, so a freed entry goes to the slot after the last. -/
def FreeRing.slot (r : FreeRing) (k : Nat) : Nat :=
  if k < r.limit - r.next then r.next + k else (r.limit + r.took + (k - (r.limit - r.next))) % max 1 r.limit

/-- The `k`-th entry from the head. -/
def FreeRing.entry (r : FreeRing) (k : Nat) : Nat := if k < r.limit - r.next then r.next + k else r.freed.getD (k - (r.limit - r.next)) 0

/-- Take the entry at the head: entries never handed out come before those freed. -/
def FreeRing.take (r : FreeRing) : Option (Nat × FreeRing) :=
  if r.next < r.limit then some (r.next, { r with next := r.next + 1 })
  else match r.freed with
    | [] => none
    | e :: t => some (e, { r with freed := t, took := r.took + 1 })

/-- Pass the entries at the head that are never handed out. -/
def FreeRing.skip (gone : List Nat) : Nat → FreeRing → FreeRing
  | 0, r => r
  | n + 1, r => match r.take with
    | some (e, t) => if gone.contains e then FreeRing.skip gone n t else r
    | none => r

/-- Entries that a pool no longer hands out: those lost, and those that count as allocated (R295). -/
def Pool.gone (p : Pool) : List Nat := p.lost ++ p.stuck

/-- FREE: the entries in the ring that can still be handed out. -/
def Pool.free (p : Pool) : Nat := p.ring.count - (p.gone.filter p.ring.holds).length

/-- Entries that cache `k` of a pool can hand out (R286; DESIGN CHOICE, log 30). -/
def Pool.cached (p : Pool) (k : Nat) : Nat := min (Store.get 128 p.cache k) p.free

/-- No cache copies more entries than the ring holds: what others took is gone from it until it refills. -/
def Pool.clip (p : Pool) : Pool :=
  if 128 ≤ p.free then p
  else { p with cache := (List.range 5).foldl (fun c k => Store.set 128 c k (min (Store.get 128 c k) p.free)) p.cache }

/-- Hand out one entry through cache `k`: none when the cache or the ring is empty. A pool in cell memory or DRAM hands out what the ring's
slot holds. -/
def State.takeEntry (s : State) (p k : Nat) : Option (Nat × State) :=
  let q := s.pool p
  let ring := q.ring.skip q.gone q.gone.length
  if q.cached k = 0 then none
  else match ring.take with
    | none => none
    | some (e, r) =>
      let e := if p = 0 then e else leVal (s.poolBytes p (s.slotAddr p (ring.slot 0)) 8) % 2 ^ 20
      some (e, State.count (s.modPool p (fun q =>
        let t := Pool.clip { q with ring := r, cache := Store.set 128 q.cache k (q.cached k - 1), inUse := q.inUse + 1 }
        { t with lowWater := min q.lowWater t.free })) (src 41 0) 0x10)

/-- Entries are written to the slots at the tail of their ring; a slot written loses its mark (R387). -/
def State.putSlots (s : State) (p : Nat) : Nat → List Nat → State
  | _, [] => s
  | k, e :: t =>
    let n := (s.pool p).ring.slot k
    let s := if p = 0 then s else s.poolPut p (s.slotAddr p n) (leBytes 8 e)
    State.putSlots (s.modPool p (fun q => { q with badRing := q.badRing.filter (· != n) })) p (k + 1) t

/-- Entries go back to the tail of their ring. -/
def State.freeEntries (s : State) (p : Nat) (l : List Nat) : State :=
  if l.isEmpty then s
  else
    let s := s.putSlots p (s.pool p).ring.count l
    State.count (s.modPool p (fun q => { q with
      ring := { q.ring with freed := q.ring.freed ++ l }, inUse := q.inUse - l.length })) (src 41 0) 0x11 l.length

def State.allocFail (s : State) (p : Nat) : State := s.count (src 41 0) (0x103 + 16 * p)

/-! ### Pool 0 (R289, R290) -/

/-- The sum over all port-class words of MIN less the account, where that is positive. -/
def State.reserved (s : State) : Nat :=
  ((s.live.filter (fun e => e.1 / 2 ^ 32 == 0x0072)).map (fun e =>
    fld e.2 35 18 - Store.get 0 s.pools.account (e.1 % 2 ^ 32))).sum

/-- The shared free count of R290. -/
def State.sharedFree (s : State) : Int := ((s.pool 0).free : Int) - s.param 0x07 - s.reserved

/-- The account rules let a frame of this port and class have one more cell (R290). -/
def State.cellGranted (s : State) (p c : Nat) : Bool :=
  let w := s.obj 0x0072 (p * 8 + c)
  let a := s.account p c
  a < fld w 35 18 || (a < fld w 17 0 && 0 < s.sharedFree)

/-- HEAD takes shared cells first and then HEAD_RESERVE. -/
def State.headGranted (s : State) : Bool := 0 < s.sharedFree + s.param 0x07

/-! ### Chains of cells (R71) -/

/-- Address in cell memory of byte `i` of a chain of cells. -/
def chainAddr (cells : List Nat) (i : Nat) : Nat := cells.getD (i / 256) 0 * 256 + i % 256

def State.chainRead (s : State) (cells : List Nat) (o n : Nat) : List Byte :=
  (List.range n).map (fun i => mget s.pools.cells (chainAddr cells (o + i)))

/-- Some byte of the range lies in an uncorrectable word: the address of the first. -/
def State.chainBad (s : State) (cells : List Nat) (o n : Nat) : Option Nat :=
  if s.pools.badCell.isEmpty then none
  else ((List.range n).map (fun i => chainAddr cells (o + i))).find? (fun a => s.pools.badCell.contains (a / 64))

/-- Write a byte string over a chain, cell by cell. -/
def State.chainWrite (s : State) (cells : List Nat) (o : Nat) (l : List Byte) : State :=
  (List.range (l.length / 256 + 2)).foldl (fun s j =>
    let lo := (o / 256 + j) * 256
    let a := max o lo
    let b := min (o + l.length) (lo + 256)
    if a < b then s.cellWrite (chainAddr cells a) ((l.drop (a - o)).take (b - a)) else s) s

/-! ### Descriptors and packets (R69, R71, R226, R281, R291) -/

/-- The first number from `n` on that a rising list does not hold. -/
def firstGap (n : Nat) : List Nat → Nat
  | [] => n
  | k :: t => if k = n then firstGap (n + 1) t else n

/-- The lowest-numbered free descriptor (R281). -/
def State.freeDesc (s : State) : Option Nat :=
  let d := firstGap 0 ((s.pools.desc.filter (fun e => e.2.st != .free || e.2.bad)).map (·.1))
  if d < 524288 then some d else none

/-- The handle of a descriptor as it stands. -/
def State.handleOf (s : State) (d : Nat) : W32 := BitVec.ofNat 32 ((s.desc d).gen.toNat * 2 ^ 24 + d)

def handleDesc (h : W32) : Nat := h.toNat % 2 ^ 19

/-- Fields of the metadata word (R70). -/
def metaPort (m : W64) : Nat := bits m.toNat 34 29
def metaClass (m : W64) : Nat := bits m.toNat 26 24
def metaLen (m : W64) : Nat := bits m.toNat 13 0

/-- The length of a packet with its edits: n + T − k (R226). -/
def Desc.kept (d : Desc) : Nat := d.trim.getD (metaLen d.metaw)

def Desc.editedLen (d : Desc) : Int :=
  match d.head with
  | some (_, n, k) => (n : Int) + d.kept - k
  | none => d.kept

def Desc.headCells (d : Desc) : List Nat := match d.head with | some (c, _, _) => c | none => []

/-- Free a packet's cells, head cells and descriptor (R291). GEN keeps its value. -/
def State.freePacket (s : State) (d : Nat) : State :=
  let k := s.desc d
  ((s.freeEntries 0 (k.cells ++ k.headCells)).modDesc d (fun k => { gen := k.gen, bad := k.bad })).count (src 41 0) 0x11

/-- The packet is committed at P3 or gone: its cells leave its ingress account (R37). -/
def State.unaccount (s : State) (d : Nat) : State :=
  let k := s.desc d
  s.subAccount (metaPort k.metaw) (metaClass k.metaw) k.cells.length

/-- The bytes of a packet as it leaves the device: the head bytes, then stored bytes k to T − 1 (R226). -/
def State.packetBytes (s : State) (d : Nat) : List Byte :=
  let k := s.desc d
  match k.head with
  | none => s.chainRead k.cells 0 k.kept
  | some (hc, n, b) => s.chainRead hc 0 n ++ s.chainRead k.cells b (k.kept - b)

/-- Some cell word under the packet's bytes is uncorrectable: its address. -/
def State.packetBad (s : State) (d : Nat) : Option Nat :=
  let k := s.desc d
  match k.head with
  | none => s.chainBad k.cells 0 k.kept
  | some (hc, n, b) => (s.chainBad hc 0 n).or (s.chainBad k.cells b (k.kept - b))

/-! ### Buffers of pools 1 to 15 (R282 to R288) -/

/-- PROFILE is Full while an enabled pool has DRAM set (R288). -/
def State.profileFull (s : State) : Bool := (span 1 16).any (fun p => s.poolOn p && s.poolDram p)

def bufHandle (gen p i : Nat) : Nat := gen * 2 ^ 24 + p * 2 ^ 20 + i
def bufPool (h : Nat) : Nat := bits h 23 20
def bufIndex (h : Nat) : Nat := bits h 19 0
def bufGen (h : Nat) : Nat := bits h 31 24

/-- Device time in units of 10 ms. -/
def State.tenMs (s : State) : Nat := s.now / 10000000

/-- ENABLE has been cleared in this instant: the pool counts as empty for an allocation that meets the write (R292; DESIGN CHOICE, log 57). -/
def State.poolCloses (s : State) (p : Nat) : Bool := !s.poolOn p && (s.pool p).offAt == some s.time.elapsed

/-- Entries that an allocation finds in a pool. -/
def State.poolHas (s : State) (p : Nat) : Nat := if s.poolCloses p then 0 else (s.pool p).free

/-- Enabled pools that hold buffers of `n` bytes, by size and then number. -/
def State.candidates (s : State) (n : Nat) : List Nat :=
  (span 6 22).flatMap (fun z => (span 1 16).filter (fun p => (s.poolOn p || s.poolCloses p) && s.poolSize p == 2 ^ z && decide (n ≤ 2 ^ z)))

/-- How an allocation ends. -/
inductive Alloc where
  | got (handle : Nat) (s : State)
  | none (s : State)
  /-- The state word of the buffer taken reads uncorrectable (R295). -/
  | bad (s : State)
  /-- The pool's memory is behind a channel in reset (R343). -/
  | refused
  /-- The cache is empty and the ring is not: the request waits for the refill (R286). -/
  | wait

/-- A check reads the state word of buffer `i` uncorrectable: POOL_ECC, and the buffer counts as allocated from then on (R295). -/
def State.badWord (s : State) (p i master access : Nat) : State :=
  let s := s.raise (src 41 0) 0x90 { addr := p * 2 ^ 20 + i, master := master, access := access }
  s.modPool p (fun q =>
    if q.stuck.contains i then q
    else
      let t := Pool.clip { q with stuck := q.stuck ++ [i], inUse := if q.ring.holds i then q.inUse + 1 else q.inUse }
      { t with lowWater := min q.lowWater t.free })

/-- Addresses that an operation on a DRAM-backed pool's buffer meets besides its data: the state word. -/
def State.poolGone (s : State) (p i : Nat) : Bool := s.poolDram p && s.dramGone (s.wordAddr p i) 8
def State.poolOpen (s : State) (p i : Nat) : Bool := !s.poolDram p || s.dramOpen (s.wordAddr p i) 8

/-- Allocate from one pool that has free entries. -/
def State.allocFrom (s : State) (p owner : Nat) : Alloc :=
  let q := s.pool p
  let e := (q.ring.skip q.gone q.gone.length).entry 0
  if s.poolGone p e then .refused
  else if !s.poolOpen p e then .wait
  else match s.takeEntry p 0 with
  | some (i, s) =>
    if (s.buf p i).bad then .bad (s.badWord p i owner 7)
    else
    let s := s.modBuf p i (fun b => { b with gen := b.gen + 1, alloc := true, leak := false
                                             owner := BitVec.ofNat 16 owner, time := BitVec.ofNat 32 s.tenMs })
    .got (bufHandle (s.buf p i).gen.toNat p i) s
  | Option.none => .wait

/-- An allocation of `n` bytes (R288). -/
def State.allocBuffer (s : State) (n owner : Nat) : Alloc :=
  match s.candidates n with
  | [] => .none s
  | p :: rest =>
    if n = 0 then .none s
    else if 0 < s.poolHas p then s.allocFrom p owner
    else if s.profileFull then .none (s.allocFail p)
    else
      let s := s.count (src 41 0) (0x104 + 16 * p)
      match rest.find? (fun q => decide (0 < s.poolHas q)) with
      | some q => s.allocFrom q owner
      | Option.none => .none (s.allocFail p)

/-- Free an allocated buffer: its entry goes to the tail of the ring, GEN stays (R291). -/
def State.freeBuffer (s : State) (p i : Nat) : State :=
  let leak := (s.buf p i).leak
  ((s.modBuf p i (fun b => { b with alloc := false, leak := false })).modPool p (fun q => { q with leaked := q.leaked - b2n leak })).freeEntries p [i]

/-- Bytes of a buffer, none where a word they lie in is uncorrectable; a DRAM-backed one is read in class SC1, and its channel reports
what it finds (R331). -/
def State.bufRead (s : State) (p i o n master : Nat) : Option (List Byte) × State :=
  let a := s.bufAddr p i + o
  let l := s.poolBytes p a n
  if s.poolDram p then
    let (bad, s) := (s.dramIssue false (linesOf a n) 1 master).readLines (linesOf a n) master 7
    (if bad then none else some l, s)
  else match (linesOf a n).find? s.pools.badCell.contains with
    | some k => (none, s.raise (src 41 1) 0x92 { addr := max a (64 * k) / 256, master := master, access := 7 })
    | none => (some l, s)

def State.bufWrite (s : State) (p i o : Nat) (l : List Byte) (master : Nat) : State :=
  let a := s.bufAddr p i + o
  let s := if s.poolDram p then s.dramIssue true (linesOf a l.length) 1 master else s
  s.poolPut p a l

end Sys2Proof.Machine
end

