-- ==== Sys2Proof/Machine/ThreadEvents.lean ====
section
/-! DEFINITION. What befalls a thread between its bundles, one meaning per row of the table: dispatch, results landing,
branches, waits and wakes, channels, traps, halts and aborts (spec/05_cores_threads.md, spec/06_isa_encoding.md R166 to
R177, spec/08_helpers.md R213 to R216). -/

namespace Sys2Proof.Machine

/-- A thread takes up the bundle that it holds in a wait: it has issued before, so no turn passes (R115). -/
def State.wake (s : State) (t : Nat) : State :=
  ((s.leaveWait t).runBundle t (s.th t).waitSyls).modCl (t / 128) (fun c => { c with rrIssue := (s.cl (t / 128)).rrIssue })

/-- The identity was begun under a branch that is still unresolved. -/
def Thread.underBranch (x : Thread) (id : Nat) : Bool := x.branches.any (fun b => b.begun.contains id)

/-! ### Results -/

/-- The first load toward a register whose place has answered, with no earlier answer of that place still to land (R17). -/
def State.landing (s : State) (t : Nat) (reg : RegCode) : Option Load :=
  (s.th t).loads.find? (fun l => l.reg == reg && l.value.isSome && !s.replyAhead (t / 128) l.isl l.seq)

/-- LOAD_LAND (R185): the value, and FL for an atomic or a lock instruction, land. An uncorrectable far or aperture word
sends POISON (R97, R139); an uncorrectable near word halts the thread (LOCAL_ECC of R368); both wait for the branch they
were begun under (DEDUCED, log 5). -/
def State.loadLand (s : State) (t : Nat) (reg : RegCode) : State :=
  match s.landing t reg with
  | none => s
  | some l =>
    if (s.th t).heldBack l then s
    else
      let drop := fun (x : Thread) => { x with loads := x.loads.filter (fun k => k.id != l.id) }
      match l.ecc with
      | some a => (s.modTh t drop).haltFault t (eccUnit t a) 0x63 a 1
      | none =>
        let (v, fl) := l.value.getD (0, none)
        let s := s.modTh t (fun x => (drop x).land l.id (fun r =>
          let r := if l.flOnly then r else setReg r l.reg.toNat v
          match fl with | some f => { r with fl := f } | none => r))
        if l.poison then s.sendPoison t else s

def execLoadLand (thread : ThreadId) (reg : BitVec 2) (s : State) : Host.Outcome State Fault Refusal :=
  answer (if threadOk thread && s.up thread.cluster then s.loadLand (threadNo thread) reg else s)

/-- The first counted write that has completed, with no earlier answer of its place still to land (R17). -/
def State.completed (s : State) (t : Nat) : Option StoreOut :=
  (s.th t).stores.find? (fun e => e.done && !s.replyAhead (t / 128) e.isl e.seq)

/-- STORE_COMPLETION (R255, R256): a counted write has completed; when none is left STORE_DONE sets. -/
def State.storeCompletion (s : State) (t : Nat) : State :=
  match s.completed t with
  | none => s
  | some e =>
    let s := s.modTh t (fun x => { x with stores := x.stores.filter (fun k => k.id != e.id) })
    if (s.th t).stores.isEmpty then s.edge t 5 else s

def execStoreCompletion (thread : ThreadId) (s : State) : Host.Outcome State Fault Refusal :=
  answer (if threadOk thread && s.up thread.cluster then s.storeCompletion (threadNo thread) else s)

/-- Bytes a helper writes reach near memory and every snapshot of the frame. -/
def State.landBytes (s : State) (t a : Nat) (l : List Byte) : State :=
  let s := s.nearWrite t a l
  match region a with
  | .frame o => s.modTh t (fun x => { x with branches := x.branches.map (fun b =>
      { b with regs := { b.regs with frame := mwrite b.regs.frame o l } }) })
  | _ => s

/-- The oldest helper operation of a thread that has its result, with no earlier answer of its islands still to land (R17). -/
def State.helperDone (s : State) (t : Nat) : Option HelperOp :=
  (s.cl (t / 128)).hops.find? (fun h => h.thread == t % 128 && h.res.isSome && !h.isls.any (fun i => s.replyAhead (t / 128) i h.seq))

/-- HELPER_RESULT (R187, R212, R213): the result lands in ACC and FL, its bytes in near memory, and HELPER_DONE sets. A
cancelled operation leaves its helper and writes nothing (R216). A failed internal check writes no result and halts the
thread (HELPER_CHECK of R368). -/
def State.helperResult (s : State) (t : Nat) (checkFail : Bool) : State :=
  match s.helperDone t with
  | none => s
  | some h =>
    let c := t / 128
    let u := h.unit.toNat
    let r := h.res.getD {}
    let gone := fun (s : State) => s.modCl c (fun k => { k with hops := k.hops.filter (fun g => g.id != h.id) })
    if h.cancelled then (gone s).count (src c (8 + u)) 0x11
    else if (s.th t).underBranch h.id && (checkFail || r.poison || !r.bytes.isEmpty) then s
    else if checkFail then
      let x := s.th t
      let s := (gone s).modTh t (fun x => { x with helper := none, halt := .fault, wait := .none, waitSyls := [], trap := none })
      let s := (s.modCl c (·.unblock (t % 128))).raise (src c (8 + u)) 0x70
        { master := 0x5000 + c * 8 + u, access := 7 }
      (s.send c 26 (.fault t x.record x.gen 0x70)).freeLocks t
    else
      let bytes := r.bytes.mapIdx (fun i v =>
        if h.kept.any (fun e => e.1 ≤ r.addr + i && r.addr + i < e.1 + e.2) then nearByte s t (s.th t).regs.frame (r.addr + i) else v)
      let s := if r.bytes.isEmpty then s else (gone s).landBytes t r.addr bytes
      let s := (gone s).modTh t (fun x =>
        { (x.land h.id (fun q => { q with acc := r.acc, fl := r.fl })) with
          helper := if x.helper = some h.id then none else x.helper })
      let s := s.edge t 2
      let s := if (r.fl.getLsbD 0 && r.acc.toNat < 256) && (u == 0 || u == 6) then s.count (src c (8 + u)) (0x20 + r.acc.toNat) else s
      if r.poison then s.sendPoison t else s

def execHelperResult (thread : ThreadId) (checkFail : Bool) (s : State) : Host.Outcome State Fault Refusal :=
  answer (if threadOk thread && s.up thread.cluster then s.helperResult (threadNo thread) checkFail else s)

/-- BHB is taken: the helper holds an operation that this thread issued before the branch, or is at its limit (R189). -/
def State.helperBusy (s : State) (t u : Nat) (after : List Nat) : Bool :=
  (s.cl (t / 128)).hops.any (fun h => h.unit.toNat == u && h.thread == t % 128 && !after.contains h.id)
    || helperLimit u ≤ hopCount s (t / 128) u

/-- The outcome of the oldest branch as it resolves. -/
def State.takes (s : State) (t : Nat) (b : Branch) (rest : List Branch) : Bool :=
  match b.bhb with
  | none => b.taken
  | some u => s.helperBusy t u.toNat (b.begun ++ rest.flatMap (·.begun))

/-- BRANCH_RESOLVE (R117, R119): the oldest unresolved branch stands or squashes what follows it. -/
def State.branchResolve (s : State) (t : Nat) : State :=
  match (s.th t).branches with
  | [] => s
  | b :: rest => if s.takes t b rest then s.branchTaken t b rest else s.branchStands t b rest

def execBranchResolve (thread : ThreadId) (s : State) : Host.Outcome State Fault Refusal :=
  answer (if threadOk thread && s.up thread.cluster then s.branchResolve (threadNo thread) else s)

/-! ### Waits -/

/-- WFE_WAKE (R120, R124): the pending word meets the mask, so the WFE completes. -/
def State.wfeWake (s : State) (t : Nat) : State :=
  match (s.th t).wait with
  | .wfe m => if (s.th t).halt = .none ∧ wfeWord s t m ≠ 0 then s.wake t else s
  | _ => s

def execWfeWake (thread : ThreadId) (s : State) : Host.Outcome State Fault Refusal :=
  answer (if threadOk thread && s.up thread.cluster then s.wfeWake (threadNo thread) else s)

/-- A running count after `n` ns, and whether it has reached zero (R122). -/
def timerAfter (n : Nat) (r : Regs) : Regs × Bool :=
  if r.timer = 0 then (r, false)
  else if r.timer.toNat ≤ n then ({ r with timer := 0 }, true) else ({ r with timer := r.timer - BitVec.ofNat 32 n }, false)

/-- A thread's timer falls by `n` (R122). Each snapshot of an unresolved branch keeps the count that a squash restores; a count
that reaches zero before its branches resolve sets TIMER as it proves to be the thread's own. -/
def State.timerFalls (s : State) (n t : Nat) : State :=
  let x := s.th t
  if ¬ x.busy ∨ n = 0 then s
  else
    let live := timerAfter n x.regs
    let snaps := x.branches.map (fun b => let p := timerAfter n b.regs; (({ b with regs := p.1, due := b.due || p.2 } : Branch), p.2))
    let all := live.2 && snaps.all (·.2)
    let bs := if all then x.branches.map (fun b => ({ b with regs := (timerAfter n b.regs).1 } : Branch))
      else match (snaps.map (·.1)).reverse with
        | [] => []
        | b :: rest => (({ b with liveDue := b.liveDue || live.2 } : Branch) :: rest).reverse
    let s := s.modTh t (fun x => { x with regs := live.1, branches := bs })
    if all then s.edge t 3 else s

/-- THREAD_TIMER_EXPIRE (R122): the running count reaches zero and TIMER sets. -/
def State.timerExpire (s : State) (t : Nat) : State := s.timerFalls (s.th t).regs.timer.toNat t

def execThreadTimerExpire (thread : ThreadId) (s : State) : Host.Outcome State Fault Refusal :=
  answer (if threadOk thread && s.up thread.cluster then s.timerExpire (threadNo thread) else s)

/-- The threads blocked on a channel, in the order in which they blocked. -/
def Cluster.blockedOn (c : Cluster) (remote : Bool) (pos n : Nat) : List Nat :=
  if remote then Store.get [] c.rblocked (creditKey pos n) else (c.ch n).blocked

/-- Room or credit for `len` words. -/
def Cluster.roomFor (c : Cluster) (remote : Bool) (pos n len : Nat) : Bool :=
  if remote then len ≤ c.creditOf (creditKey pos n) else (c.ch n).words + len ≤ 8

/-- CHC_UNBLOCK (R127, R129): the first sender blocked on the channel has room, and its message goes. A sender that is
halted stays blocked without sending (R136). -/
def State.chcUnblock (s : State) (c : Nat) (remote : Bool) (pos n : Nat) : State :=
  match (s.cl c).blockedOn remote pos n with
  | [] => s
  | u :: _ =>
    let t := c * 128 + u
    let x := s.th t
    if x.halt = .none ∧ (s.cl c).roomFor remote pos n x.staging.length then
      State.wake (s.modCl c (·.unblock u)) t
    else s

def execChcUnblock (cluster : Nat) (remote : Bool) (position channel : Nat) (s : State) : Host.Outcome State Fault Refusal :=
  answer (if cluster < 26 && s.up cluster then s.chcUnblock cluster remote position channel else s)

/-! ### Messages between clusters -/

/-- REMOTE_MESSAGE_ARRIVE (R125, R129): a channel that names the sender as its source takes the message; any other
discards it, and the refusal is counted. -/
def State.remoteMessage (s : State) (a b : Nat) : State :=
  match s.arrive a b with
  | some (.chan t _ n w id) =>
    let s := (s.taken a b).answerLoad t id 0 (some (mkFl false false false
      !(s.chRemote b n && s.clusterAt (s.chSource b n) == a))) false
    if s.chRemote b n && s.clusterAt (s.chSource b n) == a then s.chAccept b n a w
    else s.count (src a 0x11) 0x11
  | _ => s

def execRemoteMessageArrive (src' dst : Nat) (s : State) : Host.Outcome State Fault Refusal :=
  answer (if src' < 26 && dst < 26 then s.remoteMessage src' dst else s)

/-- CREDIT_RETURN (R129, R130): the words a receiver has read come back, or all of the channel's credit. -/
def State.creditReturn (s : State) (a b : Nat) : State :=
  match s.arrive a b with
  | some (.credit pos n w all) =>
    (s.taken a b).modCl b (fun c =>
      let k := creditKey pos n
      { c with credit := Store.set 8 c.credit k (if all then 8 else min 8 (c.creditOf k + w)) })
  | _ => s

def execCreditReturn (src' dst : Nat) (s : State) : Host.Outcome State Fault Refusal :=
  answer (if src' < 26 && dst < 26 then s.creditReturn src' dst else s)

/-! ### The quiescence watch -/

/-- Nothing is under way toward a thread of the cluster (R132). -/
def State.clusterSettled (s : State) (c : Nat) : Bool :=
  (s.cl c).hops.isEmpty &&
  s.net.all (fun m => !(m.dst == c && (match m.msg with | .chan _ _ _ _ _ => true | .credit _ _ _ _ => true | .lockGrant _ _ _ => true | _ => false)))
    && s.tables.locks.all (fun e => e.2.queue.all (fun w => w.toNat / 128 != c))

/-- The thread is quiet: in WFE or CHC with nothing of its mask pending, and nothing outstanding (R132). -/
def State.threadQuiet (s : State) (t : Nat) : Bool :=
  let x := s.th t
  x.busy && x.loads.isEmpty && x.helper.isNone && x.regs.timer == 0 && x.halt == .none &&
  match x.wait with
  | .wfe m => wfeWord s t m == 0
  -- as in WFE on CH_WRITE of that channel: four free words, or four words of credit
  | .chc remote pos n => !(s.cl (t / 128)).roomFor remote pos n 4
  | _ => false

def State.quiet (s : State) (c : Nat) : Bool :=
  s.clusterSettled c && (List.range 128).all (fun u => s.threadQuiet (c * 128 + u))

/-- QUIESCENT (R132, R133): a cluster that has been quiet for its quiet time reports it once. -/
def State.quiesce (s : State) (c : Nat) : State :=
  if fld (s.obj 0x0041 c) 15 15 = 1 ∧ s.quiet c ∧ ¬ (s.cl c).quietRep then
    (s.modCl c (fun k => { k with quietRep := true })).raise (src c 0x13) 0x60
  else s

def execQuiescent (cluster : Nat) (s : State) : Host.Outcome State Fault Refusal :=
  answer (if cluster < 26 && s.up cluster then s.quiesce cluster else s)

/-! ### Traps and NMIs -/

/-- The bundle an NMI saves: that of the wait, or the next one of the program bank (R175). -/
def State.nmiBundle (s : State) (t : Nat) : List RawSyl :=
  let x := s.th t
  if x.idle then x.waitSyls
  else
    let at' := fun (i : Nat) => sylOf (bankWord s x.accord ((x.pc.toNat + i) % 65536))
    let n := ((List.range 4).find? (fun i => (at' i).2)).getD 3
    (List.range (n + 1)).map (fun i => (at' i).1)

/-- NMI_ENTRY (R134): the thread leaves its WFE or CHC without an event, or stands before its next bundle, and takes the
NMI once its results have landed (R174). Its staging buffer is kept. -/
def State.nmiEntry (s : State) (t : Nat) : State :=
  let x := s.th t
  if x.nmi ∧ x.busy ∧ x.halt = .none ∧ ¬ x.inTrap ∧ x.plain ∧ x.trap = none ∧ (x.wait = .none ∨ x.idle) then
    let ys := s.nmiBundle t
    let q : TrapReq :=
      { cause := 4, syl := ((ys.headD ⟨0, 0, 0⟩).word (ys.length == 1)), pc := x.pc, next := addrAfter x.pc ys.length, nmi := true }
    let s := (s.leaveWait t).modCl (t / 128) (·.unblock (t % 128))
    let s := s.modTh t (fun x => { x with wait := .none, waitSyls := [], bundle := [] })
    if s.landed t then s.enterTrap t q else s.modTh t (fun x => { x with trap := some q })
  else s

def execNmiEntry (thread : ThreadId) (s : State) : Host.Outcome State Fault Refusal :=
  answer (if threadOk thread && s.up thread.cluster then s.nmiEntry (threadNo thread) else s)

/-- TRAP_ENTRY (R174): every outstanding result has landed, so the state is saved and the handler starts. -/
def State.trapEntry (s : State) (t : Nat) : State :=
  match (s.th t).trap with
  | some q => if s.landed t ∧ (s.th t).halt = .none then s.enterTrap t q else s
  | none => s

def execTrapEntry (thread : ThreadId) (s : State) : Host.Outcome State Fault Refusal :=
  answer (if threadOk thread && s.up thread.cluster then s.trapEntry (threadNo thread) else s)

/-! ### Grants -/

/-- LOCK_GRANT_ARRIVE (R199): the queued request of the thread was granted; while the debugger holds the thread the grant
is held with it (R135). -/
def State.lockGrantArrive (s : State) (g c : Nat) : State :=
  match s.arrive (37 + g) c with
  | some (.lockGrant t lock q) =>
    if s.replyAhead c (37 + g) q then s else
    let s := s.taken (37 + g) c
    if (s.th t).busy ∧ (s.th t).lockWait = some lock then
      let s := s.modTh t (fun x => { x with lockWait := none })
      if (s.th t).halt = .debug then s.modTh t (fun x => { x with lockGranted := true }) else s.edge t 4
    else s
  | _ => s

def execLockGrantArrive (group cluster : Nat) (s : State) : Host.Outcome State Fault Refusal :=
  answer (if group < 4 && cluster < 26 then s.lockGrantArrive group cluster else s)

/-- A grant or acknowledgement for the thread's wait takes effect (R89 to R91). -/
def State.granted (s : State) (t : Nat) : State :=
  let x := s.th t
  match x.wait with
  | .ord _ => s.wake t
  | .effect => State.startBundle (s.modTh t (fun x => { x with effected := true, wait := .none, waitSyls := [] })) t x.waitSyls
  | _ => s

/-- The thread still runs the record and life of it that a message names. -/
def Thread.runs (x : Thread) (r : Nat) (g : BitVec 8) : Bool := x.busy && x.record == r && x.gen == g

/-- Apply a grant now, or hold it while the debugger holds the thread (R135). -/
def State.takeGrant (s : State) (t : Nat) : State :=
  if (s.th t).halt = .debug then s.modTh t (fun x => { x with granted := true }) else s.granted t

/-- ORD_GRANT (R83, R89): I26 grants the ordered point a thread waits at. -/
def State.ordGrantArrive (s : State) (c : Nat) : State :=
  match s.arrive 26 c with
  | some (.ordGrant t r g k) =>
    let s := s.taken 26 c
    if (s.th t).runs r g ∧ (s.th t).wait = .ord k then s.takeGrant t else s
  | _ => s

def execOrdGrant (cluster : Nat) (s : State) : Host.Outcome State Fault Refusal :=
  answer (if cluster < 26 then s.ordGrantArrive cluster else s)

/-- EFFECT_ACK (R90): SAFE is clear, so the bundle that holds the first effect goes on. -/
def State.effectAckArrive (s : State) (c : Nat) : State :=
  match s.arrive 26 c with
  | some (.effectAck t r g) =>
    let s := s.taken 26 c
    if (s.th t).runs r g ∧ (s.th t).wait = .effect then s.takeGrant t else s
  | _ => s

def execEffectAck (cluster : Nat) (s : State) : Host.Outcome State Fault Refusal :=
  answer (if cluster < 26 then s.effectAckArrive cluster else s)

/-! ### Halts and aborts -/

/-- THREAD_HALT (R135): a halt asked for takes effect at a bundle boundary that is not speculative. -/
def State.threadHalt (s : State) (t : Nat) : State :=
  let x := s.th t
  if x.haltReq ∧ x.plain then
    s.modTh t (fun x => { x with haltReq := false, bundle := [], halt := if x.halt = .fault then .fault else .debug })
  else s

def execThreadHalt (thread : ThreadId) (s : State) : Host.Outcome State Fault Refusal :=
  answer (if threadOk thread && s.up thread.cluster then s.threadHalt (threadNo thread) else s)

/-- Abort a thread: its work ends, and the Atomizer learns that it is free (R99, R113). An abort from the reset of I26 has consequences (R379). -/
def State.abortThread (s : State) (t : Nat) (conseq : Bool) : State := (s.endWork t conseq).tellFree t

/-- THREAD_ABORT (R99): the debugger's abort, which faults the record (R93; DEDUCED, log 40), or the abort that I26 sent. -/
def State.threadAbort (s : State) (t : Nat) : State :=
  let x := s.th t
  if x.abortReq ∧ x.busy then
    State.abortThread (s.send (t / 128) 26 (.fault t x.record x.gen 0)) t false
  else match s.arrive 26 (t / 128) with
    | some (.abort u r g q) =>
      if u = t then
        let s := s.taken 26 (t / 128)
        if (s.th t).runs r g then s.abortThread t q else s
      else s
    | _ => s

def execThreadAbort (thread : ThreadId) (s : State) : Host.Outcome State Fault Refusal :=
  answer (if threadOk thread && s.up thread.cluster then s.threadAbort (threadNo thread) else s)

/-! ### Dispatch -/

/-- The dispatch record of R61. -/
def dispatchRecord (d : Disp) : List Byte :=
  leBytes 8 d.ts.toNat ++ leBytes 8 d.metaw.toNat ++ leBytes 4 d.handle.toNat ++ leBytes 4 d.hash.toNat
    ++ leBytes 4 d.valid.toNat ++ leBytes 4 0 ++ slice d.slots 0 64 ++ leBytes 16 0

/-- Address of a byte of a packet in cell memory: byte `i` of its stored frame. -/
def cellAddr (cells : List Nat) (i : Nat) : Nat := cells.getD (i / 256) 0 * 256 + i % 256

/-- The header window of a packet: the first 512 bytes of its stored frame, zero beyond its length and in uncorrectable
words, and the damaged cells (R61, R386). -/
def State.headerWindow (s : State) (d : Disp) (task : Bool) : List Byte × List Nat :=
  if task then (List.replicate 512 0, [])
  else
    let k := s.desc (d.handle.toNat % 2 ^ 19)
    let len := min 512 (d.metaw.toNat % 16384)
    let bad := fun (i : Nat) => s.pools.badCell.contains (cellAddr k.cells i / 64)
    ((List.range 512).map (fun i => if i < len ∧ ¬ bad i then mget s.pools.cells (cellAddr k.cells i) else 0),
     (((List.range 8).filter (fun j => 64 * j < len ∧ bad (64 * j))).map (fun j => cellAddr k.cells (64 * j) / 256)).eraseDups)

/-- A dispatch reaches its thread (R61, R111, R386): registers, PC, pending word and priority are set, the dispatch record
and the first 64 bytes of the header window are written. -/
def State.startThread (s : State) (c : Nat) (m : DispatchMsg) : State :=
  let t := m.thread
  let (win, dmg) := s.headerWindow m.disp m.task
  let v := bankWord s m.tag (if m.task then 0x40 else m.role % 64)
  let s := s.modTh t (fun x =>
    { regs := { acc := m.disp.metaw, xa := if m.task then 0 else m.disp.handle, xb := BitVec.ofNat 32 m.record
                fl := 0, frame := mwrite (mwrite x.regs.frame 0x580 (dispatchRecord m.disp)) 0x600 (win.take 64) }
      pc := BitVec.ofNat 16 v, busy := true, prio := m.prio, record := m.record, gen := m.gen, accord := m.tag
      passed := m.passed, released := m.released, noDomain := m.noDomain, task := m.task, stores := x.stores
      delivered := 64, window := win.drop 64 })
  let s := s.count (src c (coreOf t)) 0x12
  if dmg.isEmpty then s
  else dmg.foldl (fun s cell => s.raise (src 41 1) 0x92 { addr := cell, master := t, access := 1 }) (s.sendPoison t)

/-- THREAD_DISPATCH (R111). -/
def State.threadDispatch (s : State) (c : Nat) : State :=
  match s.arrive 26 c with
  | some (.dispatch m) => if s.seq.noticed.contains c then s else State.startThread (s.taken 26 c) c m
  | _ => s

def execThreadDispatch (cluster : Nat) (s : State) : Host.Outcome State Fault Refusal :=
  answer (if cluster < 26 then s.threadDispatch cluster else s)

/-- HEADER_BYTES_ARRIVE (R23): the next 64 bytes of the window reach the frame. -/
def State.headerBytes (s : State) (t : Nat) : State :=
  let x := s.th t
  if x.busy ∧ ¬ x.window.isEmpty then
    s.modTh t (fun x => { (x.everywhere (fun r => { r with frame := mwrite r.frame (0x600 + x.delivered) (x.window.take 64) })) with
      delivered := x.delivered + 64, window := x.window.drop 64 })
  else s

def execHeaderBytesArrive (thread : ThreadId) (s : State) : Host.Outcome State Fault Refusal :=
  answer (if threadOk thread && s.up thread.cluster then s.headerBytes (threadNo thread) else s)

end Sys2Proof.Machine
end

