-- ==== Sys2Proof/Machine/Sequencer.lean ====
section
/-! DEFINITION. The Sequencer and the Atomizer: records, domains and ordered points, commits and hand-over, faulted records,
the drain bound, dispatch (spec/04_sequencer_dispatch.md R77 to R107, R530; spec/15_accord_live_service.md R352 to R357). -/

namespace Sys2Proof.Machine

/-! ### Domains -/

/-- The domain class of a domain as an Accord gives it (R77). -/
def State.domClass (s : State) (tag d : Nat) : ObjWord := s.sobj tag 0x0031 (fld (s.sobj tag 0x0030 d) 7 0)

def domPolicy (w : ObjWord) : Nat := fld w 63 62
def domHold (w : ObjWord) : Nat := fld w 61 42
def domLimit (w : ObjWord) : Nat := fld w 41 28

/-- Records earlier in the domain of a record, in the order of acceptance (R79). -/
def State.earlier (s : State) (r : Nat) : List (Nat × Rec) :=
  let x := s.rcd r
  if !x.placed then []
  else s.seq.recs.filter (fun e => e.2.st != .free && e.2.placed && e.2.domain == x.domain && decide (e.2.order < x.order))

/-- A domain that holds a HELD record dispatches nothing (R94). -/
def State.domHeld (s : State) (d : Nat) : Bool :=
  s.seq.recs.any (fun e => e.2.st == .held && e.2.placed && e.2.domain.toNat == d)

/-- The record's thread could pass Pk now (R83). -/
def State.mayPass (s : State) (r k : Nat) : Bool :=
  let x := s.rcd r
  !x.placed || x.passed.getLsbD k || x.released.getLsbD k || (s.earlier r).all (fun e => e.2.released.getLsbD k)

/-! ### Trace and messages about a record -/

def Rec.traceDomain (x : Rec) : Nat := if x.placed then x.domain.toNat else 0xFFFF

def State.traceRec (s : State) (kind info r pc data : Nat) : State :=
  let x := s.rcd r
  s.trace kind info x.thread.toNat x.gen.toNat r x.traceDomain pc data

/-- A fault message of I26 about a record (R369). -/
def State.raiseRec (s : State) (kind r : Nat) (conseq : Bool := false) : State :=
  let x := s.rcd r
  s.raise (src 26 0) kind
    { detail := recDetail x.gen r, master := if x.st = .queued ∧ x.replay = none then 0x1000 else x.thread.toNat, conseq := conseq }

/-! ### Ordered points -/

/-- Let the record's thread pass the point it waits at, where it may (R83, R89). -/
def State.tryGrant (s : State) (r : Nat) : State :=
  let x := s.rcd r
  match x.waitPt with
  | some k =>
    if x.st = .running ∧ s.mayPass r k then
      let s := s.modRec r (fun x => { x with waitPt := none, passed := x.passed ||| (1 <<< k) })
      State.send (s.traceRec 2 k r 0 0) 26 (x.thread.toNat / 128) (.ordGrant x.thread.toNat r x.gen k)
    else s
  | none => s

/-- After a release or a resolution in a domain, its waiters are looked at in their order. -/
def State.grantWaiters (s : State) (d : BitVec 16) : State :=
  let ws := sortBy (fun a b => decide (a.2.order ≤ b.2.order)) (s.seq.recs.filter (fun e => e.2.waitPt.isSome && e.2.domain == d))
  ws.foldl (fun s e => s.tryGrant e.1) s

/-- ORD reaches I26 for Pk. -/
def State.ordAsk (s : State) (r k : Nat) : State :=
  State.tryGrant (s.modRec r (fun x => { x with waitPt := some k })) r

/-- Release Pk and every lower point (R84). -/
def State.releaseTo (s : State) (r k : Nat) : State :=
  let s := s.modRec r (fun x => { x with released := x.released ||| BitVec.ofNat 4 (2 ^ (k + 1) - 1) })
  s.grantWaiters (s.rcd r).domain

/-! ### Resolution -/

/-- A resolved record becomes FREE: it keeps GEN alone, and its place leaves the domain (R81, R87). -/
def State.freeRec (s : State) (r : Nat) : State :=
  let d := (s.rcd r).domain
  (s.modRec r (fun x => { gen := x.gen })).grantWaiters d

/-- The task index of a task record's handle. -/
def Rec.taskNo (x : Rec) : Nat := x.taskId.toNat % 65536

/-- Free the packet of a record, which leaves its ingress account first (R37, R197). -/
def State.dropPacket (s : State) (d : Nat) : State := (s.unaccount d).freePacket d

/-- Resolve a record as a drop, or a task by the end given (R87, R197, R275). -/
def State.resolveDrop (s : State) (r : Nat) (how : RunEnd) : State :=
  let x := s.rcd r
  let s := s.freeRec r
  if x.task then s.send 26 42 (.taskEnd x.taskNo how r x.gen) else s.dropPacket (handleDesc x.disp.handle)

/-- Abort the thread of a RUNNING record (R99). -/
def State.sendAbort (s : State) (r : Nat) (conseq : Bool := false) : State :=
  let x := s.rcd r
  if x.st = .running then s.send 26 (x.thread.toNat / 128) (.abort x.thread.toNat r x.gen conseq) else s

/-- How a faulted record ends (R93). -/
inductive FaultEnd where
  | held | replayed | dropped | stands

/-- The treatment of a faulted record by its domain class's policy (R93); under the drain bound REPLAY acts as
DROP_IN_PLACE (R98). -/
def State.faultEnd (s : State) (r : Nat) (drain : Bool) : FaultEnd :=
  let x := s.rcd r
  let p := domPolicy (s.domClass x.accord.toNat x.domain.toNat)
  match x.st with
  | .free => .stands
  | .committed => .stands
  | .held => .stands
  | .queued => if !x.placed then .dropped else if p = 0 then .held else .dropped
  | .running =>
    if !x.placed then .dropped
    else if p = 0 then .held
    else if p = 1 && !drain && x.safe && !x.replayed then .replayed else .dropped

/-- Re-queue a record for replay: it keeps its place, points and Accord (R96). -/
def State.requeue (s : State) (r : Nat) : State :=
  let s := s.modRec r (fun x => { x with st := .queued, replayed := true, replay := some s.seq.nextReplay, waitPt := none, aged := false })
  { s with seq := { s.seq with nextReplay := s.seq.nextReplay + 1 } }.count (src 26 0) 0x13

/-- A new fault of a HELD record: it stays HELD, and FAULT takes the kind (R93); R530 prevails where it holds the record. -/
def State.faultHeld (s : State) (r kind : Nat) : State :=
  if (s.rcd r).eccHeld then s else s.modRec r (fun x => { x with fault := BitVec.ofNat 8 kind })

/-- Apply a fault of `kind` to a record (R92, R93) and report its outcome unless `quiet` (DEDUCED, log 54). -/
def State.faultRecord (s : State) (r kind : Nat) (conseq quiet drain : Bool) : State :=
  let x := s.rcd r
  let e := s.faultEnd r drain
  let s := if x.st = .queued ∨ x.st = .running ∨ x.st = .held then s.modRec r (fun x => { x with fault := BitVec.ofNat 8 kind }) else s
  match e with
  | .stands => s
  | .held =>
    let s := s.modRec r (fun x => { x with st := .held, waitPt := none })
    if quiet then s else s.raiseRec 0x50 r conseq
  | .replayed =>
    let s := if quiet then s else s.raiseRec 0x51 r conseq
    s.requeue r
  | .dropped =>
    let s := if quiet then s else s.raiseRec 0x52 r conseq
    State.resolveDrop ((s.count (src 26 0) 0x14).traceRec 5 0 r 0 0) r .faulted

/-! ### Damaged records (R530) -/

/-- An uncorrectable record word is found: it is reported once, and the record is held by its state. A FREE record keeps its mark
until the next allocation. `found` is the master identity and access code of a host's read or a scrub that found it. -/
def State.eccRecord (s : State) (r : Nat) (found : Option (Nat × Nat) := none) : State :=
  let x := s.rcd r
  if !s.seq.badRec.contains r || (x.st == .free && s.seq.foundRec.contains r) then s
  else
    let who := found.getD (if x.st = .running then x.thread.toNat else 0x1000, 0)
    let s := s.raise (src 26 0) 0x59 { addr := r, detail := recDetail x.gen r, master := who.1, access := who.2 }
    let cleared := { s with seq := { s.seq with badRec := s.seq.badRec.filter (· != r) } }
    match x.st with
    | .free => { s with seq := { s.seq with foundRec := r :: s.seq.foundRec } }
    | .held => cleared.modRec r (fun x => { x with fault := 0x59, eccHeld := true })
    | _ => (cleared.sendAbort r).modRec r (fun x => { x with st := .held, fault := 0x59, eccHeld := true, waitPt := none, outcome := none })

/-! ### Acceptance -/

def State.recFree (s : State) : Option Nat :=
  let r := firstGap 0 ((s.seq.recs.filter (fun e => e.2.st != .free)).map (·.1))
  if r < 8192 then some r else none

def State.packetRecords (s : State) : Nat := s.seq.recs.countP (fun e => e.2.st != .free && !e.2.task)

/-- A stamp that names the current or the draining Accord is accepted (R352, R356). -/
def State.tagLive (s : State) (tag : Nat) : Bool :=
  (s.accord.live && s.accord.current.toNat == tag) || (s.accord.drainValid && s.accord.draining.toNat == tag)

/-- Write a new record: GEN advances, and it takes the next place in the order of acceptance (R79 to R81). -/
def State.newRec (s : State) (r : Nat) (x : Rec) : State :=
  let s := s.modRec r (fun o => { x with st := .queued, gen := o.gen + 1, safe := true, order := s.seq.nextOrder })
  { s with seq := { s.seq with nextOrder := s.seq.nextOrder + 1, badRec := s.seq.badRec.filter (· != r),
                                        foundRec := s.seq.foundRec.filter (· != r) } }

/-- The record of a packet (R70, R79). -/
def packetRec (d : Disp) : Rec :=
  let m := d.metaw.toNat
  { domain := BitVec.ofNat 16 (bits m 59 44), accord := BitVec.ofNat 4 (bits m 63 60), placed := true
    prio := BitVec.ofNat 3 (bits m 43 41), role := bits m 40 35, disp := d }

/-- A frame whose descriptor is complete: every cell of its stored length is granted. -/
def InFlight.complete (f : InFlight) : Bool := f.desc && f.cells.length * 256 ≥ metaLen f.disp.metaw

/-- DESCRIPTOR_ACCEPT (R79, R80, R94, R356). -/
def State.acceptDescriptor (s : State) (i : Nat) : State :=
  match (s.slc i).pipe with
  | [] => s
  | f :: rest =>
    let m := f.disp.metaw.toNat
    let tag := bits m 63 60
    let dom := bits m 59 44
    let s1 := (s.modSlc i (fun q => { q with pipe := rest })).count (src (27 + i) 0) 0x1B
    let d := handleDesc f.disp.handle
    if !f.complete then s
    else if !s.tagLive tag then
      State.dropPacket ((s1.count (src 26 0) 0x17).raise (src (27 + i) 0) 0x4C { master := 0x40C0 + i }) d
    else if domLimit (s.domClass tag dom) ≤ s.domainCount dom then
      State.dropPacket ((s1.count (src 26 0) 0x15).raise (src 26 0) 0x55 { master := 0x40C0 + i }) d
    else match s.recFree with
      | none => s
      | some r =>
        if s.packetRecords < 8192 - s.param 0x00 then (s1.newRec r (packetRec f.disp)).count (src 26 0) 0x10 else s

def execDescriptorAccept (slice : Nat) (s : State) : Host.Outcome State Fault Refusal :=
  answer (if slice < 4 && s.up 26 && s.up (27 + slice) then s.acceptDescriptor slice else s)

/-- The task word of R278. -/
def taskWord (x : Task) (n tag : Nat) : W64 :=
  BitVec.ofNat 64 (tag * 2 ^ 60 + x.prio.toNat * 2 ^ 57 + b2n x.domained * 2 ^ 56 + x.gen.toNat * 2 ^ 48 + n * 2 ^ 32 + x.arg.toNat)

/-- A DOMAINED task waits while its domain is full or holds a HELD record (R276). -/
def State.taskFits (s : State) (x : Task) (tag : Nat) : Bool :=
  !x.domained || (s.domainCount x.domain.toNat < domLimit (s.domClass tag x.domain.toNat) && !s.domHeld x.domain.toNat)

/-- TASK_ACCEPT (R79, R277, R278): a stale stamp, or a domain that can take it no more, sends the task back. -/
def State.acceptTask (s : State) : State :=
  match s.arrive 42 26 with
  | some (.task n tag) =>
    let x := s.tsk n
    if !s.tagLive tag then (s.taken 42 26).send 26 42 (.taskBack n false)
    else if !s.taskFits x tag then (s.taken 42 26).send 26 42 (.taskBack n true)
    else match s.recFree with
      | none => s
      | some r =>
        let d : Disp := { metaw := taskWord x n tag }
        let q : Rec := { domain := x.domain, accord := BitVec.ofNat 4 tag, placed := x.domained, prio := x.prio, role := x.role.toNat
                         task := true, disp := d, taskId := BitVec.ofNat 32 (x.gen.toNat * 2 ^ 24 + n) }
        ((s.taken 42 26).newRec r q).count (src 26 0) 0x11
  | _ => s

def execTaskAccept (s : State) : Host.Outcome State Fault Refusal := answer s.acceptTask

/-! ### Tokens from threads (R82) -/

/-- The token is of the record's present life and the record runs. -/
def State.current (s : State) (r : Nat) (g : BitVec 8) : Bool := (s.rcd r).gen == g && (s.rcd r).st == .running

/-- Apply a token to the record it names, by `f` where it runs and by `held` where it is HELD, or discard and count it. -/
def State.token (s : State) (a r : Nat) (g : BitVec 8) (f : State → State) (held : State → State := id) : State :=
  let s := (s.taken a 26).eccRecord r
  if s.current r g then f s
  else if (s.rcd r).gen == g then (if (s.rcd r).st == .held then held s else s)
  else s.count (src 26 0) 0x16

/-- ORD_REQUEST (R83). -/
def State.ordRequestToken (s : State) (c : Nat) : State :=
  match s.arrive c 26 with
  | some (.ordReq _ r g k) => s.token c r g (fun s => s.ordAsk r k)
  | _ => s

def execOrdRequest (cluster : Nat) (s : State) : Host.Outcome State Fault Refusal :=
  answer (if cluster < 26 then s.ordRequestToken cluster else s)

/-- REL_TOKEN (R84). -/
def State.relTokenArrive (s : State) (c : Nat) : State :=
  match s.arrive c 26 with
  | some (.rel _ r g k pc) => s.token c r g (fun s => (s.traceRec 3 k r pc.toNat 0).releaseTo r k)
  | _ => s

def execRelToken (cluster : Nat) (s : State) : Host.Outcome State Fault Refusal :=
  answer (if cluster < 26 then s.relTokenArrive cluster else s)

/-- EFFECT_TOKEN (R90): SAFE clears, and the acknowledgement goes back. -/
def State.effectTokenArrive (s : State) (c : Nat) : State :=
  match s.arrive c 26 with
  | some (.effect t r g) => s.token c r g (fun s => (s.modRec r (fun x => { x with safe := false })).send 26 c (.effectAck t r g))
  | _ => s

def execEffectToken (cluster : Nat) (s : State) : Host.Outcome State Fault Refusal :=
  answer (if cluster < 26 then s.effectTokenArrive cluster else s)

/-- POISON_TOKEN (R97). -/
def State.poisonTokenArrive (s : State) (c : Nat) : State :=
  match s.arrive c 26 with
  | some (.poison _ r g) => s.token c r g (fun s => s.modRec r (fun x => { x with poison := true }))
  | _ => s

def execPoisonToken (cluster : Nat) (s : State) : Host.Outcome State Fault Refusal :=
  answer (if cluster < 26 then s.poisonTokenArrive cluster else s)

/-- The commit of a record is taken (R86, R87, R97, R275). -/
def State.takeCommit (s : State) (r : Nat) (op : BitVec 3) (word : W64) (pc : BitVec 16) : State :=
  let x := s.rcd r
  if x.task ∧ (op = 0 ∨ op = 2 ∨ op = 3) then (s.raiseRec 0x57 r).faultRecord r 0x57 false false false
  else
    let s := (s.count (src 26 0) (0x20 + op.toNat)).traceRec 4 op.toNat r pc.toNat word.toNat
    let s := if op = 1 then s.count (src 26 0) (0x100 + word.toNat % 256) else s
    let s := s.releaseTo r 2
    if x.poison then State.resolveDrop (s.raiseRec 0x58 r) r .faulted
    else if op = 1 then s.resolveDrop r .drop
    else if op = 4 then
      let s := s.freeRec r
      if x.task then s.send 26 42 (.taskEnd x.taskNo .consume r x.gen)
      else (s.unaccount (handleDesc x.disp.handle)).modDesc (handleDesc x.disp.handle)
        (fun d => { d with st := .consumed, since := BitVec.ofNat 20 s.tenMs })
    else s.modRec r (fun x => { x with st := .committed, outcome := some { op := op, word := word }, waitPt := none })

/-- COMMIT_ACCEPT (R86). -/
def State.commitArrive (s : State) (c : Nat) : State :=
  match s.arrive c 26 with
  | some (.commit _ r g op w pc) => s.token c r g (fun s => s.takeCommit r op w pc)
  | _ => s

def execCommitAccept (cluster : Nat) (s : State) : Host.Outcome State Fault Refusal :=
  answer (if cluster < 26 then s.commitArrive cluster else s)

/-- FAULT_TOKEN (R92, R93). I26 itself reports ORD_MISUSE and COMMIT_INVALID. -/
def State.faultTokenArrive (s : State) (c : Nat) : State :=
  match s.arrive c 26 with
  | some (.fault _ r g k) =>
    let told := fun (s : State) => if k = 0x56 ∨ k = 0x57 then s.raiseRec k.toNat r else s
    s.token c r g (fun s => (told s).faultRecord r k.toNat false false false) (fun s => (told s).faultHeld r k.toNat)
  | _ => s

def execFaultToken (cluster : Nat) (s : State) : Host.Outcome State Fault Refusal :=
  answer (if cluster < 26 then s.faultTokenArrive cluster else s)

/-- THREAD_FREE_TOKEN (R88, R103). -/
def State.threadFreeArrive (s : State) (c : Nat) : State :=
  match s.arrive c 26 with
  | some (.threadFree t) =>
    let s := s.taken c 26
    { s with seq := { s.seq with busy := s.seq.busy.filter (· != t) } }
  | _ => s

def execThreadFreeToken (cluster : Nat) (s : State) : Host.Outcome State Fault Refusal :=
  answer (if cluster < 26 then s.threadFreeArrive cluster else s)

/-- RESET_NOTICE (R92): every record RUNNING on the cluster is treated, in ascending order of their threads. -/
def State.resetNoticeArrive (s : State) (c : Nat) : State :=
  match s.arrive c 26 with
  | some (.notice _) =>
    -- a dispatch still on its way is refused at the boundary, and its record goes back (R105)
    let crossing := fun (r : Nat) => s.net.any (fun m => match m.msg with | .dispatch d => m.dst == c && d.record == r | _ => false)
    let s := { s with seq := { s.seq with busy := s.seq.busy.filter (fun t => t / 128 != c ||
      s.net.any (fun m => match m.msg with | .dispatch d => d.thread == t | _ => false)) } }
    let rs := sortBy (fun a b => decide (a.2.thread.toNat ≤ b.2.thread.toNat))
      (s.seq.recs.filter (fun e => e.2.st == .running && e.2.thread.toNat / 128 == c && !crossing e.1))
    rs.foldl (fun s e =>
      let s := s.eccRecord e.1
      if (s.rcd e.1).st = .running then s.faultRecord e.1 0xFF true false false else s) (s.taken c 26)
  | _ => s

def execResetNotice (cluster : Nat) (s : State) : Host.Outcome State Fault Refusal :=
  answer (if cluster < 26 then s.resetNoticeArrive cluster else s)

/-! ### Hand-over (R86) -/

/-- OUTCOME_HANDOVER: a COMMITTED record whose earlier records are all resolved hands its outcome to the Queue Manager. -/
def State.handOver (s : State) (r : Nat) : State :=
  let s := if (s.rcd r).st = .committed then s.eccRecord r else s
  let x := s.rcd r
  match x.st, x.outcome with
  | .committed, some o =>
    if (s.earlier r).isEmpty then
      let d := handleDesc x.disp.handle
      ((s.freeRec r).unaccount d).send 26 36 (.handover r d o.op o.word x.accord.toNat x.thread.toNat x.domain.toNat)
    else s
  | _, _ => s

def execOutcomeHandover (record : Nat) (s : State) : Host.Outcome State Fault Refusal :=
  answer (if record < 8192 && s.up 26 then s.handOver record else s)

/-! ### Limits of time -/

/-- HOLD_LIMIT of a record's domain class as its own Accord gives it, also after the drain bound has struck it (R77, R94). -/
def State.holdLimit (s : State) (x : Rec) : Nat := if x.struck then x.hold else domHold (s.domClass x.accord.toNat x.domain.toNat)

/-- HOLD_EXPIRED (R94, R530): the domain class sets a limit, and the record has been HELD for it. The instant is kept for a
SLOT_RESOLVE that meets it (R101). -/
def State.holdExpire (s : State) (r : Nat) : State :=
  let x := s.rcd r
  if x.st = .held ∧ ¬ x.eccHeld ∧ x.placed ∧ s.holdLimit x ≠ 0 then
    let s := { s with seq := { s.seq with
      expired := (s.seq.expired.filter (fun (e : Nat × BitVec 8 × Nat) => e.2.2 == s.time.elapsed)) ++ [(r, x.gen, s.time.elapsed)] } }
    State.resolveDrop ((s.raiseRec 0x54 r).traceRec 5 0 r 0 0) r .faulted
  else s

def execHoldExpired (record : Nat) (s : State) : Host.Outcome State Fault Refusal :=
  answer (if record < 8192 && s.up 26 then s.holdExpire record else s)

/-- DISPATCH_AGE_PROMOTE (R103): the record has waited DISPATCH_AGE in QUEUED. -/
def execDispatchAgePromote (record : Nat) (s : State) : Host.Outcome State Fault Refusal :=
  answer (if record < 8192 ∧ s.up 26 ∧ (s.rcd record).st = .queued then s.modRec record (fun x => { x with aged := true }) else s)

/-- A record counts toward its Accord (R98, R356, R530). -/
def Rec.counts (x : Rec) : Bool := x.st != .free && !x.struck && !x.eccHeld

/-- INFLIGHT (R356). -/
def State.inflight (s : State) : Nat :=
  if s.accord.drainValid then s.seq.recs.countP (fun e => e.2.counts && e.2.accord == s.accord.draining) else 0

/-- The draining tag retires (R357): DRAIN_VALID clears, clusters keep the old copies until no thread needs them, and the
Table Store sweeps (R237). -/
def State.retireTag (s : State) (bound : Bool) (struck : Nat) : State :=
  let tag := s.accord.draining.toNat
  let s := s.trace 8 1 0x1000 0 0 0xFFFF 0 tag
  let s := (List.range 26).foldl (fun s c => s.modCl c (fun k => { k with svc := { k.svc with old := k.svc.old ++ [tag] } })) s
  let s := s.retireTables tag
  State.stewardEvent { s with
    accord := { s.accord with drainValid := false, markers := 0, struck := struck }
    tables := { s.tables with sweeping := s.tables.sweeping ++ [tag] } } (.accordRetired tag bound struck)

/-- A record struck by the drain bound (R98): it keeps HOLD_LIMIT of its own Accord's domain class (R94). -/
def State.strike (s : State) (r : Nat) : State :=
  let x := s.rcd r
  let struck := fun (s : State) => s.modRec r (fun x => { x with struck := true, hold := domHold (s.domClass x.accord.toNat x.domain.toNat) })
  match x.st with
  | .free => s
  | .committed => s
  | .held => (struck (s.raiseRec 0x53 r)).modRec r (fun x => { x with fault := 0x53 })
  | _ => State.faultRecord (struck ((s.raiseRec 0x53 r).sendAbort r)) r 0x53 false true true

/-- A record that the drain bound strikes: still stamped with the draining Accord, HELD under R530 or not, and not COMMITTED (R98). -/
def State.strikes (s : State) (x : Rec) : Bool := x.st != .free && x.st != .committed && !x.struck && x.accord == s.accord.draining

/-- DRAIN_BOUND_EXPIRE (R98, R356). -/
def State.drainExpire (s : State) : State :=
  if !s.accord.drainValid then s
  else
    let rs := s.seq.recs.filter (fun (e : Nat × Rec) => s.strikes e.2)
    let tag := s.accord.draining
    let s := rs.foldl (fun s e => s.strike e.1) s
    -- from this cycle no record of the tag counts, a COMMITTED one included
    let s := { s with seq := { s.seq with recs := s.seq.recs.map (fun (e : Nat × Rec) =>
      if e.2.st == RecState.committed && e.2.accord == tag then (e.1, ({ e.2 with struck := true } : Rec)) else e) } }
    s.retireTag true rs.length

def execDrainBoundExpire (s : State) : Host.Outcome State Fault Refusal :=
  answer (if s.up 26 then s.drainExpire else s)

/-! ### The Atomizer (R102 to R105) -/

/-- Positions that a role group may use, as the record's Accord gives them. -/
def State.rolePositions (s : State) (tag role : Nat) : List Nat :=
  (List.range 24).filter (fun p => bitAt (fld (s.sobj tag 0x0033 role) 23 0) p)

/-- A cluster takes dispatches: a position names it, and it is neither draining, stopped nor in reset (R103). -/
def State.inService (s : State) (c : Nat) : Bool :=
  c < 26 && (s.cl c).svc.st == 1 && s.up c && !s.seq.noticed.contains c

def State.freeThreads (s : State) (c k : Nat) : List Nat :=
  ((List.range 16).map (fun i => c * 128 + k * 16 + i)).filter (fun t => !s.seq.busy.contains t)

/-- ok(r, c, k) of R103. -/
def State.coreOk (s : State) (x : Rec) (c k : Nat) : Bool :=
  let fc := x.thread.toNat / 128
  let other := (s.rolePositions x.accord.toNat x.role).any (fun p => s.clusterAt p != fc && s.inService (s.clusterAt p))
  s.inService c && !s.seq.chosen.contains c && !(s.freeThreads c k).isEmpty &&
    (x.replay.isNone || (if other then c != fc else k != coreOf x.thread.toNat))

/-- The positions of a record's role group whose cluster has a core that can take it (start of rr(role): DESIGN CHOICE, log 26). -/
def State.choices (s : State) (x : Rec) : List Nat :=
  (s.rolePositions x.accord.toNat x.role).filter (fun p => (List.range 8).any (s.coreOk x (s.clusterAt p)))

def Rec.eff (x : Rec) : Nat := if x.aged then 7 else x.prio.toNat

/-- The record to dispatch next: the earliest replay, else the highest priority, oldest first. -/
def State.nextRecord (s : State) : Option Nat :=
  let cand := s.seq.recs.filter (fun e => e.2.st == .queued && !(e.2.placed && s.domHeld e.2.domain.toNat) && !(s.choices e.2).isEmpty)
  let better := fun (a b : Nat × Rec) =>
    match a.2.replay, b.2.replay with
    | some m, some n => decide (m ≤ n)
    | some _, none => true
    | none, some _ => false
    | none, none => decide (b.2.eff < a.2.eff) || (a.2.eff == b.2.eff && decide (a.2.order ≤ b.2.order))
  ((sortBy better cand).head?).map (·.1)

/-- The element with the greatest value; the first of equals. -/
def argMax (f : Nat → Nat) : List Nat → Option Nat
  | [] => none
  | a :: t => match argMax f t with
    | none => some a
    | some b => if f a < f b then some b else some a

/-- Send a record to a thread. -/
def State.dispatchTo (s : State) (r p t : Nat) : State :=
  let x := s.rcd r
  let g := x.gen + 1
  let aged := x.aged && x.replay.isNone
  let s := s.modRec r (fun x => { x with
    st := .running, gen := g, thread := BitVec.ofNat 12 t, replay := none, aged := false
    refused := x.replay.map (fun n => (n, x.thread)) })
  let s := { s with seq := { s.seq with busy := s.seq.busy ++ [t], chosen := s.seq.chosen ++ [t / 128]
                                        rr := Store.set 0 s.seq.rr x.role ((p + 1) % 24) } }
  let s := s.count (src 26 0) 0x12
  let s := if aged then s.count (src 26 0) 0x19 else s
  (s.traceRec 1 0 r 0 0).send 26 (t / 128) (.dispatch
    { thread := t, record := r, gen := g, tag := x.accord.toNat, prio := BitVec.ofNat 2 (x.prio.toNat / 2), role := x.role, task := x.task
      noDomain := !x.placed, passed := x.passed, released := x.released, disp := x.disp, taskId := x.taskId })

/-- One dispatch lane of one I26 cycle (R103; DEDUCED, log 14). -/
def State.dispatchLane (s : State) (lane : Nat) : State :=
  let s := if lane = 0 then { s with seq := { s.seq with chosen := [], stopped := false } } else s
  if s.seq.stopped then s
  else match s.nextRecord with
    | none => { s with seq := { s.seq with stopped := true } }
    | some r =>
      if s.seq.badRec.contains r then s.eccRecord r
      else
        let x := s.rcd r
        let start := Store.get 0 s.seq.rr x.role
        let ps := s.choices x
        let ps := ps.filter (fun p => decide (start ≤ p)) ++ ps.filter (fun p => decide (p < start))
        let free := fun c => ((List.range 8).map (fun k => (s.freeThreads c k).length)).sum
        match argMax (fun p => free (s.clusterAt p)) ps with
        | none => s
        | some p =>
          let c := s.clusterAt p
          match argMax (fun k => (s.freeThreads c k).length) ((List.range 8).filter (s.coreOk x c)) with
          | none => s
          | some k =>
            match s.freeThreads c k with
            | [] => s
            | t :: _ => s.dispatchTo r p t

/-- ATOMIZER_DISPATCH: lane 0 begins a cycle. -/
def execAtomizerDispatch (lane : Nat) (s : State) : Host.Outcome State Fault Refusal :=
  answer (if lane < 4 && s.up 26 then s.dispatchLane lane else s)

end Sys2Proof.Machine
end

