-- ==== Sys2Proof/Machine/FrontEnd.lean ====
section
/-! DEFINITION. The Ingress Front End: the parse walk, classification, the Accord stamp, and the cells and descriptor of a
frame (spec/03_ingress_classification.md R55 to R76). -/

namespace Sys2Proof.Machine

/-! ### The parse walk (R57 to R60) -/

inductive ParseErr where
  | none | error | trunc | depth | loop
  deriving DecidableEq, Repr

/-- A walk in progress: what it has extracted, and the rows of parse memory it has touched (R72). A slot that no extraction has written reads
0 in the dispatch record (DESIGN CHOICE, log 24). -/
structure Walk where
  state   : Nat := 0
  cursor  : Nat := 0
  visits  : Nat := 0
  err     : ParseErr := .none
  ptp     : Bool := false
  valid   : Nat := 0
  slots   : List Byte := List.replicate 64 0
  touched : List Nat := []
  deriving DecidableEq, Repr

/-- Rows of a slice's parse and class memory: states, transitions, extractions, class rules, profiles, one after another. -/
def pgState (n : Nat) : Nat := n
def pgTrans (n : Nat) : Nat := 256 + n
def pgExt (n : Nat) : Nat := 2304 + n
def pgRule (n : Nat) : Nat := 2816 + n
def pgProfile (n : Nat) : Nat := 3072 + n

/-- Write bytes into slots from slot `n` on. -/
def putSlots (slots : List Byte) (n : Nat) (l : List Byte) : List Byte :=
  slots.take (2 * n) ++ l ++ slots.drop (2 * n + l.length)

/-- One extraction entry (R60). -/
def Walk.extract (w : Walk) (frame : List Byte) (x : ObjWord) : Walk :=
  let slot := fld x 23 19
  let n := fld x 18 16 + 1
  let o := w.cursor + fld x 31 24
  if fld x 15 15 = 1 then
    { w with slots := putSlots w.slots slot (leBytes 2 w.cursor), valid := w.valid ||| (1 <<< slot) }
  else if o + 2 * n ≤ min frame.length 512 then
    { w with slots := putSlots w.slots slot (slice frame o (2 * n)), valid := w.valid ||| ((2 ^ n - 1) <<< slot) }
  else w

def keyBytes (k : Nat) : Nat := match k with | 0 => 1 | 1 => 2 | _ => 4

/-- The bytes from `o` on lie past the depth or past the frame: how a walk that reads them ends. -/
def beyond (frame : List Byte) (o n : Nat) : ParseErr :=
  if 512 < o + n then .depth else if frame.length < o + n then .trunc else .none

/-- The next state for a key: the first transition entry that matches, else DEFAULT_NEXT; and how many were tried. -/
def transition (s : State) (tag : Nat) (e : ObjWord) (key : Nat) : Nat × Nat :=
  let b := fld e 117 107
  let n := fld e 106 102
  match (List.range n).find? (fun i =>
      let t := s.sobj tag 0x0021 (b + i)
      key &&& fld t 39 8 == fld t 71 40 &&& fld t 39 8) with
  | some i => (fld (s.sobj tag 0x0021 (b + i)) 7 0, i + 1)
  | none => (fld e 101 94, n)

/-- The walk of R59; `fuel` counts the visits left. -/
def walkFrom (s : State) (tag : Nat) (frame : List Byte) : Nat → Walk → Walk
  | 0, w => { w with err := .loop, visits := w.visits + 1 }
  | fuel + 1, w =>
    let e := s.sobj tag 0x0020 w.state
    let w := { w with visits := w.visits + 1, touched := pgState w.state :: w.touched }
    if fld e 74 74 = 1 then { w with err := .error }
    else
      let w := { w with ptp := w.ptp || fld e 73 73 = 1 }
      let xs := (List.range (fld e 63 61)).map (· + fld e 72 64)
      let w := xs.foldl (fun (w : Walk) i => (w.extract frame (s.sobj tag 0x0022 i))) { w with touched := xs.map pgExt ++ w.touched }
      if fld e 75 75 = 1 then w
      else
        let k := keyBytes (fld e 119 118)
        let ko := w.cursor + fld e 127 120
        match beyond frame ko k with
        | .none =>
          let (next, tried) := transition s tag e (beVal (slice frame ko k))
          let w := { w with touched := (List.range tried).map (fun i => pgTrans (fld e 117 107 + i)) ++ w.touched }
          let mode := fld e 93 92
          let lo := w.cursor + fld e 91 84
          match (if mode = 0 then ParseErr.none else beyond frame lo 1) with
          | .none =>
            let b := (frame.getD lo 0).toNat
            let adv := if mode = 0 then fld e 83 76 else if mode = 1 then b % 16 * 4 + fld e 83 76 else (b + 1) * 8 + fld e 83 76
            walkFrom s tag frame fuel { w with cursor := w.cursor + adv, state := next }
          | err => { w with err := err }
        | err => { w with err := err }

def parseWalk (s : State) (tag : Nat) (frame : List Byte) : Walk := walkFrom s tag frame 32 {}

/-! ### Classification (R62 to R64) -/

def slotAt (slots : List Byte) (n : Nat) : Nat := beVal (slice slots (2 * n) 2)

/-- The class key. The Front End setting holds SEL_SLOT in [36:32] and the seed in [31:0] (DESIGN CHOICE, log 24). -/
def classKey (s : State) (tag : Nat) (f : RxFrame) (w : Walk) : Nat :=
  let sel := fld (s.sobj tag 0x0025 0) 36 32
  f.port * 2 ^ 31 + f.verdict.toNat * 2 ^ 29 + w.state * 2 ^ 21 + f.tclass.toNat * 2 ^ 18
    + b2n (w.err != .none) * 2 ^ 17 + b2n w.ptp * 2 ^ 16 + (if bitAt w.valid sel then slotAt w.slots sel else 0)

/-- The profile of the first class rule that matches, profile 0 where none does, and the rules tried. A rule object holds
VALUE in [81:45], MASK in [44:8] and the profile number in [7:0] (DESIGN CHOICE, log 24). -/
def classify (s : State) (tag slice' key : Nat) : Nat × Nat :=
  match (List.range 256).find? (fun i =>
      let r := s.sobj tag 0x0023 (slice' * 256 + i)
      key &&& fld r 44 8 == fld r 81 45 &&& fld r 44 8) with
  | some i => (fld (s.sobj tag 0x0023 (slice' * 256 + i)) 7 0, i + 1)
  | none => (0, 256)

/-- FLOW_HASH over the valid slots that the profile names (R64). -/
def flowHash (seed : Nat) (slots : List Byte) (valid names : Nat) : W32 :=
  crcRun polyCrc32c (BitVec.ofNat 32 seed)
    ((List.range 32).flatMap (fun n => if bitAt valid n ∧ bitAt names n then slice slots (2 * n) 2 else []))

/-- The metadata word (R70). -/
def metadata (tag dom prio role : Nat) (f : RxFrame) (w : Walk) : W64 :=
  BitVec.ofNat 64 (tag * 2 ^ 60 + dom * 2 ^ 44 + prio * 2 ^ 41 + role * 2 ^ 35 + f.port * 2 ^ 29 + f.verdict.toNat * 2 ^ 27
    + f.tclass.toNat * 2 ^ 24 + w.state * 2 ^ 16 + b2n (w.err != .none) * 2 ^ 15 + b2n w.ptp * 2 ^ 14 + f.data.length)

def parseCounter : ParseErr → Option Nat
  | .none => none | .error => some 0x13 | .trunc => some 0x14 | .depth => some 0x15 | .loop => some 0x16

/-- Walk, classify and stamp one frame: discard it, or give it its hand-off place (R59 to R72). A frame takes its descriptor and cells only
after its class, so one that its class or PG_ECC discards never holds any; PG_ECC is reported once, with the first damaged word of the walk and
then of the rules, and a parse error of that frame is counted too (DESIGN CHOICE, log 25). -/
def State.parseFrame (s : State) (i tag : Nat) (f : RxFrame) : State :=
  let u := src (27 + i) 0
  let w := parseWalk s tag f.data
  let (p, tried) := classify s tag i (classKey s tag f w)
  let touched := w.touched ++ (List.range tried).map pgRule ++ [pgProfile p]
  let s := s.count u 0x10
  let s := if 16 < w.visits then s.count u 0x11 else s
  let s := match parseCounter w.err with | some e => s.count u e | none => s
  match touched.find? (fun r => (s.slc i).badWords.contains (tag % 2 * 4096 + r)) with
  | some row => (s.count u 0x1A).raise u 0x48 { addr := row, master := 0x40C0 + i, access := 1 }
  | none =>
    let e := s.sobj tag 0x0024 p
    if fld e 32 32 = 1 then s.count u (0x100 + p)
    else
      let h := flowHash (fld (s.sobj tag 0x0025 0) 31 0) w.slots w.valid (fld e 31 0)
      let dom := (fld e 63 48 + h.toNat % 2 ^ fld e 47 43) % 65536
      let prio := if fld e 42 42 = 1 then f.tclass.toNat else fld e 41 39
      let d : Disp := { ts := f.time, metaw := metadata tag dom prio (fld e 38 33) f w, hash := h
                        valid := BitVec.ofNat 32 w.valid, slots := w.slots }
      s.modSlc i (fun q => { q with pipe := q.pipe ++ [{ frame := f, disp := d }] })

/-- SLICE_PARSE_START (R59, R66, R68, R74): the oldest frame of the input buffer starts its parse while a hand-off place is
free; before the first Accord it is discarded (DEDUCED, log 14). -/
def State.parseStart (s : State) (i : Nat) : State :=
  match (s.slc i).input with
  | [] => s
  | f :: rest =>
    let s1 := s.modSlc i (fun q => { q with input := rest })
    match (s.slc i).tag with
    | none => s1.count (src (27 + i) 0) 0x12
    | some tag => if (s.slc i).pipe.length < 256 then s1.parseFrame i tag f else s

def execSliceParseStart (slice : Nat) (s : State) : Host.Outcome State Fault Refusal :=
  answer (if slice < 4 && s.up (27 + slice) then s.parseStart slice else s)

/-! ### Cells and descriptors (R69, R71, R73, R290) -/

/-- Replace the first frame of the pipe that is not complete. -/
def updateFirst (f : InFlight → InFlight) : List InFlight → List InFlight
  | [] => []
  | x :: t => if x.complete then x :: updateFirst f t else f x :: t

/-- A descriptor for the frame: GEN advances, and its words are written (R69, R71). -/
def State.takeDesc (s : State) (i d : Nat) (x : InFlight) : State :=
  let s := s.modDesc d (fun k => { st := .held, gen := k.gen + 1, metaw := x.disp.metaw, ts := x.disp.ts.truncate 32 })
  let h := s.handleOf d
  (s.count (src 41 0) 0x10).modSlc i (fun q => { q with pipe := updateFirst (fun x => { x with desc := true, disp := { x.disp with handle := h } }) q.pipe })

/-- A cell for the frame: its bytes are written, and the ingress account rises (R37, R290). -/
def State.takeCell (s : State) (i c : Nat) (x : InFlight) : State :=
  let k := x.cells.length
  let s := s.cellWrite (c * 256) ((x.frame.data.drop (k * 256)).take 256)
  let s := s.modDesc (handleDesc x.disp.handle) (fun d => { d with cells := d.cells ++ [c] })
  let s := s.modSlc i (fun q => { q with pipe := updateFirst (fun x => { x with cells := x.cells ++ [c], denied := false }) q.pipe })
  s.addAccount x.frame.port x.frame.tclass.toNat 1

/-- The frame waits (R73). A wait under R290 is counted once for each request (R294). -/
def State.cellWaits (s : State) (i : Nat) (x : InFlight) (denied : Bool) : State :=
  let s := if denied && !x.denied then s.allocFail 0 else s
  s.modSlc i (fun q => { q with pipe := updateFirst (fun x => { x with waiting := true, denied := x.denied || denied }) q.pipe })

/-- CELL_REQUEST (R73, R290): the first frame not complete asks for its descriptor and then for its cells, one at a time. -/
def State.cellRequest (s : State) (i : Nat) : State :=
  match (s.slc i).pipe.find? (fun x => !x.complete) with
  | none => s
  | some x =>
    if !s.up 41 then s.cellWaits i x false
    else if !x.desc then
      match s.freeDesc with
      | some d => s.takeDesc i d x
      | none => s.cellWaits i x false
    else if s.cellGranted x.frame.port x.frame.tclass.toNat then
      match s.takeEntry 0 i with
      | some (c, s) => s.takeCell i c x
      | none => s.cellWaits i x false
    else s.cellWaits i x true

def execCellRequest (slice : Nat) (s : State) : Host.Outcome State Fault Refusal :=
  answer (if slice < 4 && s.up (27 + slice) then s.cellRequest slice else s)

/-- Drop the first frame of the pipe that is not complete. -/
def dropFirst : List InFlight → List InFlight
  | [] => []
  | x :: t => if x.complete then x :: dropFirst t else t

/-- CELL_WAIT_EXPIRE (R73): the frame is discarded, its cells and descriptor are freed, and it is reported once. -/
def State.cellExpire (s : State) (i : Nat) : State :=
  match (s.slc i).pipe.find? (fun x => !x.complete) with
  | none => s
  | some x =>
    if !x.waiting then s
    else
      let u := src (27 + i) 0
      let s := s.modSlc i (fun q => { q with pipe := dropFirst q.pipe })
      if x.desc then State.dropPacket ((s.count u 0x17).raise u 0x49 { master := 0x40C0 + i }) (handleDesc x.disp.handle)
      else (s.count u 0x18).raise u 0x4A { master := 0x40C0 + i }

def execCellWaitExpire (slice : Nat) (s : State) : Host.Outcome State Fault Refusal :=
  answer (if slice < 4 && s.up (27 + slice) then s.cellExpire slice else s)

/-! ### The commit marker (R66, R67, R352) -/

/-- MARKER_AT_SLICE: later frames are stamped with the new Accord; the old copy is held until its last frame has left. -/
def State.sliceMarker (s : State) (i : Nat) : State :=
  match s.arrive 26 (27 + i) with
  | some (.marker tag) => (s.taken 26 (27 + i)).modSlc i (fun q => { q with oldTag := q.tag, tag := some tag })
  | _ => s

def execMarkerAtSlice (slice : Nat) (s : State) : Host.Outcome State Fault Refusal :=
  answer (if slice < 4 then s.sliceMarker slice else s)

/-- A frame of the pipe carries this stamp. -/
def InFlight.stamped (x : InFlight) (tag : Nat) : Bool := bits x.disp.metaw.toNat 63 60 == tag

/-- SLICE_COPY_RELEASE (R67): the last frame stamped with the old Accord has left the slice. -/
def State.sliceRelease (s : State) (i : Nat) : State :=
  match (s.slc i).oldTag with
  | some tag => if (s.slc i).pipe.any (·.stamped tag) then s else s.modSlc i (fun q => { q with oldTag := none })
  | none => s

def execSliceCopyRelease (slice : Nat) (s : State) : Host.Outcome State Fault Refusal :=
  answer (if slice < 4 && s.up (27 + slice) then s.sliceRelease slice else s)

end Sys2Proof.Machine
end

