-- ==== Sys2Proof/Machine/Ports.lean ====
section
/-! DEFINITION. The Port Array: receive and transmit, pause and PFC, MACsec, timestamps, links and lanes, and the field time
pins (spec/02_port_array.md R28 to R54; spec/03_ingress_classification.md R74). What the chapter names only by an IEEE
standard (frame layouts of Annex 31B and 802.1Qbb, SecTAG and IV of 802.1AE, PTP fields) is PRESUMED (log 23). -/

namespace Sys2Proof.Machine

/-! ### Ports and lanes (R28, R29) -/

/-- Lanes of a mode. -/
def modeLanes (m : Nat) : Nat := match m with | 0 => 0 | 1 => 8 | 2 => 4 | 3 => 2 | _ => 1

def State.portLanes (s : State) (p : Nat) : List Nat := (List.range (modeLanes (s.portMode p))).map (p + ·)

/-- The enabled port that holds a lane. -/
def State.portOfLane (s : State) (l : Nat) : Option Nat := (List.range 40).find? (fun p => (s.portLanes p).contains l)

/-- The island of a lane or port. -/
def portIsl (p : Nat) : Nat := 31 + p / 8

/-- The Front End slice that serves a lane. -/
def portSlice (p : Nat) : Nat := if p < 32 then p / 8 else 0

/-- The port is enabled and its island runs. -/
def State.portOn (s : State) (p : Nat) : Bool := p < 40 && s.portMode p != 0 && s.up (portIsl p)

/-- Set an event bit of the status word: when it rises, the port-event vector and an event to the Steward (R52). -/
def State.portEvent (s : State) (p bit : Nat) : State :=
  if (s.port p).events.getLsbD (bit - 17) then s
  else State.stewardEvent (State.event (s.modPort p (fun q => { q with events := q.events ||| (1 <<< (bit - 17)) })) 3) (.port p bit)

/-- Add wire bytes to a lane's bandwidth words (R459). -/
def Bandwidth.see (b : Bandwidth) (slot rx tx : Nat) : Bandwidth :=
  let b := if b.slot = slot then b else { b with slot := slot, rx10 := 0, tx10 := 0 }
  { b with rxNow := b.rxNow + rx, txNow := b.txNow + tx, rx10 := b.rx10 + rx, tx10 := b.tx10 + tx
           rxPeak := max b.rxPeak (b.rx10 + rx), txPeak := max b.txPeak (b.tx10 + tx) }

def State.bandwidth (s : State) (p rx tx : Nat) : State :=
  { s with obs := { s.obs with bw := Store.modify {} s.obs.bw p (·.see (s.now / 10000) rx tx) } }

/-- Device time at the balls with a lane's correction in units of 62.5 ps, rounded down to 1 ns (R43). -/
def State.stamp (s : State) (corr : Nat) : BitVec 64 := BitVec.ofInt 64 (((s.now : Int) * 16 + signed 16 corr) / 16)

/-- The frame check sequence of IEEE 802.3 as its four bytes on the wire. -/
def fcs (l : List Byte) : List Byte := leBytes 4 (~~~(crcRun polyCrc32 0xFFFFFFFF l)).toNat

def etherType (l : List Byte) : Nat := beVal (slice l 12 2)

/-- The traffic class of a frame from its PCP, or the port's default class (R37). The tag of EtherType 0x8100 carries the PCP and no other one
does, and a frame passed as MACSEC_FAIL is read as it came, with its SecTAG (DESIGN CHOICE, log 23). -/
def State.trafficClass (s : State) (p : Nat) (l : List Byte) : Nat :=
  let w := s.obj 0x0012 p
  if etherType l = 0x8100 ∧ 16 ≤ l.length then
    let pcp := beVal (slice l 14 1) / 32
    fld w (40 + 3 * pcp + 2) (40 + 3 * pcp)
  else fld w 39 37

/-! ### Pause frames received (R33, R36, R37) -/

/-- Act on a MAC Control frame that FLOW enables: opcode 1 is pause, 0x0101 PFC with a class vector and eight quanta. -/
def State.pauseReceived (s : State) (p : Nat) (l : List Byte) : State :=
  let op := beVal (slice l 14 2)
  let set := fun (q : Port) (b : Nat) (on : Bool) =>
    { q with paused := if on then q.paused ||| (1 <<< b) else q.paused &&& ~~~((1 : BitVec 9) <<< b) }
  if s.portFlow p = 1 ∧ op = 1 then s.modPort p (fun q => set q 8 (beVal (slice l 16 2) != 0))
  else if s.portFlow p = 2 ∧ op = 0x0101 then
    let v := beVal (slice l 16 2) &&& fld (s.obj 0x0012 p) 36 29
    s.modPort p (fun q => (List.range 8).foldl (fun q c => if bitAt v c then set q c (beVal (slice l (18 + 2 * c) 2) != 0) else q) q)
  else s

/-! ### MACsec (R39 to R42) -/

def State.portMacsec (s : State) (p : Nat) : Nat := fld (s.portWord p) 19 18

def State.secCh (s : State) (p c : Nat) : ObjWord := s.obj 0x0014 (p * 64 + c)
def saIndex (p c an : Nat) : Nat := (p * 64 + c) * 4 + an
def State.saObj (s : State) (i : Nat) : ObjWord := s.obj 0x0015 i
def State.sa (s : State) (i : Nat) : SaState := Store.get {} s.ports.sa i

def State.modSa (s : State) (i : Nat) (f : SaState → SaState) : State :=
  { s with ports := { s.ports with sa := Store.modify {} s.ports.sa i f } }

def secSrc (p : Nat) : Nat := src (portIsl p) 0x10

def saXpn (a : ObjWord) : Bool := fld a 30 30 = 1

/-- The initialization vector of a frame: SCI and PN, or the salt with SSCI and the 64-bit PN. -/
def secIv (a : ObjWord) (sci pn : Nat) (ssci : W32) : List Byte :=
  if saXpn a then xorBytes (beBytes 12 (fld a 127 32)) (beBytes 4 ssci.toNat ++ beBytes 8 pn)
  else beBytes 8 sci ++ beBytes 4 pn

/-- Bytes of the secure data that stay clear: all of them without encryption, else the confidentiality offset. -/
def clearBytes (encrypted : Bool) (ch : ObjWord) (n : Nat) : Nat :=
  if encrypted then min n (match fld ch 61 60 with | 1 => 30 | 2 => 50 | _ => 0) else n

/-- Protect a frame: SecTAG after the addresses, the secure data, and the ICV (IEEE 802.1AE). -/
def secProtect (ch a : ObjWord) (an : Nat) (st : SaState) (l : List Byte) : List Byte :=
  let data := l.drop 12
  let conf := fld ch 59 59 = 1
  let sc := fld ch 62 62
  let tci := sc * 32 + b2n conf * 12 + an
  let tag := [0x88, 0xE5, BitVec.ofNat 8 tci, BitVec.ofNat 8 (if data.length < 48 then data.length else 0)]
    ++ beBytes 4 (st.nextPn % 2 ^ 32) ++ (if sc = 1 then beBytes 8 (fld ch 127 64) else [])
  let key := beBytes 32 (fld a 383 128)
  let iv := secIv a (fld ch 127 64) st.nextPn st.ssci
  let k := clearBytes conf ch data.length
  let c := gcmCrypt key iv (data.drop k)
  let aad := l.take 12 ++ tag ++ data.take k
  aad ++ c ++ gcmTag key iv aad c

/-- The largest packet number of an association. -/
def pnMax (a : ObjWord) : Nat := if saXpn a then 2 ^ 64 - 1 else 2 ^ 32 - 1

/-- A packet number advances on an association: the threshold event of R42. -/
def State.pnThreshold (s : State) (p i : Nat) : State :=
  let t := fld (s.saObj i) 29 24
  let st := s.sa i
  if t ≠ 0 ∧ ¬ st.threshed ∧ 2 ^ t ≤ st.nextPn then
    State.portEvent (s.modSa i (fun st => { st with threshed := true })) p 19
  else s

/-- How the SecY treats a frame to transmit. -/
inductive SecOut where
  | send (l : List Byte) (s : State)
  | hold (s : State)

/-- Transmit through the SecY (R39 to R42): channel 0 under ENCODING_AN. EAPOL leaves by the uncontrolled port. Under an association whose
ENABLE is 0 the frame waits at the head of the port (DESIGN CHOICE, log 23). -/
def State.secSend (s : State) (p : Nat) (l : List Byte) : SecOut :=
  let ch := s.secCh p 0
  if s.portMacsec p = 0 ∨ fld ch 63 63 = 0 ∨ etherType l = 0x888E then .send l s
  else if s.ports.badSa.contains (p * 64) then .hold (s.raise (secSrc p) 0x44 { addr := p * 64, access := 1 })
  else
    let an := fld ch 57 56
    let i := saIndex p 0 an
    let a := s.saObj i
    let st := s.sa i
    if fld a 31 31 = 0 then .hold s
    else if pnMax a < st.nextPn then
      .hold (if st.exhausted then s else (s.modSa i (fun st => { st with exhausted := true })).raise (secSrc p) 0x41)
    else
      let out := secProtect ch a an st l
      let s := (s.modSa i (fun st => { st with nextPn := st.nextPn + 1 })).count (secSrc p) 0x10
      let s := s.pnThreshold p i
      .send out (if pnMax a < (s.sa i).nextPn then (s.modSa i (fun st => { st with exhausted := true })).raise (secSrc p) 0x41 else s)

/-- The receive channel of a frame: by its SCI, by the source address where ES stands for port 1, or the only one. -/
def State.secFind (s : State) (p : Nat) (l : List Byte) : Option Nat :=
  let tci := beVal (slice l 14 1)
  let on := (span 1 33).filter (fun c => fld (s.secCh p c) 63 63 = 1)
  if bitAt tci 5 then on.find? (fun c => fld (s.secCh p c) 127 64 == beVal (slice l 20 8))
  else if bitAt tci 6 then on.find? (fun c => fld (s.secCh p c) 127 64 == beVal (slice l 6 6) * 65536 + 1)
  else match on with | [c] => some c | _ => none

/-- The 64-bit packet number of a received frame: recovered from its low half under XPN. -/
def recoverPn (xpn : Bool) (st : SaState) (low : Nat) : Nat :=
  if !xpn then low
  else
    let hi := st.lowPn / 2 ^ 32
    let lo := st.lowPn % 2 ^ 32
    if low < lo ∧ 2 ^ 31 ≤ lo - low then (hi + 1) * 2 ^ 32 + low else hi * 2 ^ 32 + low

/-- Count a verification failure on a receive channel (R456). -/
def State.secFail (s : State) (p c : Nat) : State := s.count (secSrc p) (0x1000 + 32 * (p % 8) + (c - 1))

/-- Verify and decrypt a frame whose EtherType is MACsec's: the frame without SecTAG and ICV, or a failure (PRESUMED, log 23).
A late frame under REPLAY_PROTECT, and one whose SCI is no channel's, fail verification (DESIGN CHOICE, log 23). -/
def State.secReceive (s : State) (p : Nat) (l : List Byte) : Option (List Byte) × State :=
  match s.secFind p l with
  | none => (none, s)
  | some c =>
    if s.ports.badSa.contains (p * 64 + c) then
      (none, (s.raise (secSrc p) 0x44 { addr := p * 64 + c, access := 1 }).secFail p c)
    else
      let ch := s.secCh p c
      let tci := beVal (slice l 14 1)
      let i := saIndex p c (tci % 4)
      let a := s.saObj i
      let st := s.sa i
      let h := if bitAt tci 5 then 28 else 20
      let pn := recoverPn (saXpn a) st (beVal (slice l 16 4))
      let late := fld ch 58 58 = 1 ∧ pn < st.lowPn
      let data := (l.drop h).take (l.length - h - 16)
      let k := clearBytes (bitAt tci 3) ch data.length
      let key := beBytes 32 (fld a 383 128)
      let iv := secIv a (fld ch 127 64) pn st.ssci
      let aad := l.take h ++ data.take k
      if l.length < h + 16 ∨ bitAt tci 7 ∨ fld a 31 31 = 0 ∨ late ∨ pnMax a < pn ∨ pn = 0
          ∨ gcmTag key iv aad (data.drop k) ≠ l.drop (l.length - 16) then (none, s.secFail p c)
      else
        let s := s.modSa i (fun st =>
          let high := max st.nextPn (pn + 1)
          { st with nextPn := high, lowPn := max st.lowPn (high - min high (fld ch 55 24)) })
        (some (l.take 12 ++ data.take k ++ gcmCrypt key iv (data.drop k)), (s.count (secSrc p) 0x11).pnThreshold p i)

/-! ### FRAME_RECEIVE (R33, R37, R43, R74) -/

/-- Pass a frame to the MAC's receive FIFO, or discard it whole where the FIFO is full (R74). The message's FAULTS event of the lane counts the
overrun, as no event of its own does (DESIGN CHOICE, log 23). -/
def State.toFifo (s : State) (p : Nat) (f : RxFrame) : State :=
  let held := ((s.port p).rxFifo.map (·.data.length)).sum
  if held + f.data.length ≤ 12288 * modeLanes (s.portMode p) then s.modPort p (fun q => { q with rxFifo := q.rxFifo ++ [f] })
  else s.raise (laneSrc p) 0x45

/-- A frame that the checks pass, without its FCS: MACsec, then the FIFO. On a MACsec port an unprotected frame that is not EAPOL fails
verification, and in Strict it is counted nowhere where no channel is its own (DESIGN CHOICE, log 23). -/
def State.passFrame (s : State) (p wire : Nat) (l : List Byte) : State :=
  let frame := fun (v : Nat) (l : List Byte) (s : State) =>
    s.toFifo p { data := l, time := s.stamp (fld (s.obj 0x0016 p) 31 16), port := p, verdict := BitVec.ofNat 2 v
                 tclass := BitVec.ofNat 3 (s.trafficClass p l), wire := wire }
  if s.portMacsec p = 0 then frame 0 l s
  else if etherType l = 0x888E then frame 3 l s
  else
    let (r, s) := if etherType l = 0x88E5 then s.secReceive p l else (none, s)
    match r with
    | some l => frame 0 l s
    | none => if s.portMacsec p = 2 then frame 2 l s else s

/-- The checks of R33, in its order; `wire` holds the frame from destination address to FCS. -/
def State.frameReceive (s : State) (p : Nat) (wire : List Byte) (fecBad : Bool) : State :=
  let n := wire.length
  let u := laneSrc p
  let s := s.bandwidth p (n + 20) 0
  let s := if fecBad then s.count u 0x1C else s
  let maxf := fld (s.portWord p) 13 0
  let body := wire.take (n - 4)
  if fecBad ∨ n < 4 ∨ wire.drop (n - 4) ≠ fcs body then s.count u 0x12
  else if n < 64 then s.count u 0x13
  else if maxf < n then
    let l := wire.take (maxf + 1)
    (s.count u 0x14).toFifo p { data := l, time := s.stamp (fld (s.obj 0x0016 p) 31 16), port := p, verdict := 1
                                tclass := BitVec.ofNat 3 (s.trafficClass p l), wire := n }
  else if etherType wire = 0x8808 then (s.pauseReceived p body).count u 0x15
  else s.passFrame p n body

def execFrameReceive (port : Nat) (wire : List Byte) (fecBad : Bool) (s : State) : Host.Outcome State Fault Refusal :=
  answer (if s.portOn port && (s.port port).linkUp then s.frameReceive port wire fecBad else s)

/-! ### FIFO_TO_INPUT_BUFFER (R74, R376) -/

/-- Bytes of the slice's 64 KiB input buffer that frames hold: those still to be parsed and those whose cells are not all
written. -/
def State.inputUsed (s : State) (i : Nat) : Nat :=
  (((s.slc i).input.map (·.data.length)).sum + (((s.slc i).pipe.filter (fun f => !f.complete)).map (·.frame.data.length)).sum)

def State.inputFits (s : State) (i n : Nat) : Bool := s.inputUsed i + n ≤ 65536

/-- The frame at the FIFO's head passes whole; a slice in reset refuses it and the port discards it. -/
def State.fifoPass (s : State) (p : Nat) : State :=
  match (s.port p).rxFifo with
  | [] => s
  | f :: rest =>
    let i := portSlice p
    let s1 := s.modPort p (fun q => { q with rxFifo := rest })
    if s.inReset (27 + i) then s1.count (laneSrc p) 0x1E
    else if s.inputFits i f.data.length then
      let s1 := (s1.count (laneSrc p) 0x10).count (laneSrc p) 0x11 (f.wire + 20)
      s1.modSlc i (fun q => { q with input := q.input ++ [f] })
    else s

def execFifoToInputBuffer (port : Nat) (s : State) : Host.Outcome State Fault Refusal :=
  answer (if port < 40 && s.up (portIsl port) then s.fifoPass port else s)

/-! ### Pause (R37, R38) -/

/-- PAUSE_QUANTA_EXPIRE: the time given by the received quanta has passed; class 8 stands for a pause frame. -/
def execPauseQuantaExpire (port cls : Nat) (s : State) : Host.Outcome State Fault Refusal :=
  answer (if port < 40 ∧ cls < 9 ∧ s.up (portIsl port) then
    s.modPort port (fun q => { q with paused := q.paused &&& ~~~((1 : BitVec 9) <<< cls) }) else s)

/-- PAUSE_REPEAT: the account stays above XON, so the port repeats its frame. -/
def State.pauseRepeat (s : State) (p c : Nat) : State :=
  if (s.port p).xoffSent.getLsbD c ∧ fld (s.obj 0x0013 (p * 8 + c)) 17 0 < s.account p c then s.sendPause p c 0xFFFF else s

def execPauseRepeat (port cls : Nat) (s : State) : Host.Outcome State Fault Refusal :=
  answer (if cls < 8 && s.portOn port then s.pauseRepeat port cls else s)

/-! ### FRAME_TRANSMIT (R34, R35, R39 to R45) -/

/-- Put bytes over a byte string from `o` on, where they lie within it. -/
def patch (l : List Byte) (o : Nat) (b : List Byte) : List Byte :=
  if o + b.length ≤ l.length then l.take o ++ b ++ l.drop (o + b.length) else l

/-- One's complement sum of a byte string as 16-bit words that end where the string ends. -/
def tailSum (l : List Byte) : Nat := ocSum 0 (List.replicate (l.length % 2) 0 ++ l)

/-- Trailing bytes that keep the one's complement sum of the frame when its other bytes change (R44). -/
def fixTrailer (old new : List Byte) : List Byte :=
  let n := new.length
  let t := fold16 (beVal (slice old (n - 2) 2) + tailSum (old.take (n - 2)) + (65535 - tailSum (new.take (n - 2))))
  patch new (n - 2) (beBytes 2 t)

/-- The one-step action of a commit word on a frame (R44, R195). -/
def oneStep (l : List Byte) (word : W64) (egress : BitVec 64) (ingress : W32) : List Byte :=
  let w := word.toNat
  let o := bits w 61 53
  let t := egress.toNat
  let new := if bitAt w 52 then
      let res := (egress.truncate 32 - ingress).toNat
      patch l o (beBytes 8 ((beVal (slice l o 8) + res * 65536) % 2 ^ 64))
    else patch l o (beBytes 6 (t / 1000000000) ++ beBytes 4 (t % 1000000000))
  match bits w 51 50 with
  | 1 => patch new (bits w 49 41) [0, 0]
  | 2 => fixTrailer l new
  | _ => new

/-- The two-step record of a frame (R45, R46). -/
def State.twoStep (s : State) (p : Nat) (tag : BitVec 16) (egress : BitVec 64) : State :=
  let u := src (portIsl p) 0x11
  if (s.port p).tsFifo.length < 64 then
    let first := (s.port p).tsFifo.isEmpty
    let s := (s.modPort p (fun q => { q with tsFifo := q.tsFifo ++ [(tag, egress)] })).count u 0x10
    if first then s.portEvent p 17 else s
  else (s.count u 0x11).raise u 0x42

/-- Send the first frame that the port has taken ahead. -/
def State.sendFrame (s : State) (p : Nat) (k : QPkt) (rest : List QPkt) : State :=
  let bad := k.poison || (s.packetBad k.desc).isSome
  let egress := s.stamp (fld (s.obj 0x0016 p) 15 0)
  let act := bits k.word.toNat 63 62
  let l := s.packetBytes k.desc
  let l := if act = 2 then oneStep l k.word egress (s.desc k.desc).ts else l
  match s.secSend p (padTo 60 l) with
  | .hold s => s
  | .send out s =>
    let u := laneSrc p
    let c := fcs out
    let wire := out ++ (if bad then c.map (~~~ ·) else c)
    let s := s.modPort p (fun q => { q with txAhead := rest })
    let s := ((s.count u 0x17).count u 0x18 (wire.length + 20)).bandwidth p 0 (wire.length + 20)
    let s := if act = 1 then s.twoStep p (BitVec.ofNat 16 (bits k.word.toNat 61 46)) egress else s
    let s := if bad then (s.count u 0x1A).raise u 0x40 else s
    (s.emit (.frame p wire (!bad))).freePacket k.desc

def State.frameTransmit (s : State) (p : Nat) : State :=
  match (s.port p).txAhead with
  | [] => s
  | k :: rest =>
    if (s.port p).linkUp then s.sendFrame p k rest
    else if fld (s.portWord p) 17 17 = 1 then
      ((s.modPort p (fun q => { q with txAhead := rest })).count (laneSrc p) 0x19).freePacket k.desc
    else s

def execFrameTransmit (port : Nat) (s : State) : Host.Outcome State Fault Refusal :=
  answer (if s.portOn port then s.frameTransmit port else s)

/-! ### Links and lanes (R48 to R52) -/

/-- LOCK_LOST: the lane holds its coefficients, and EV_LOCK_LOST is raised (R50, R51). -/
def State.lockLost (s : State) (l : Nat) : State :=
  match s.portOfLane l with
  | some p =>
    if (s.lane l).lost then s
    else State.portEvent ((s.modLane l (fun x => { x with lost := true, holding := true })).count (laneSrc l) 0x1D) p 21
  | none => s

def execLockLost (lane : Nat) (s : State) : Host.Outcome State Fault Refusal :=
  answer (if lane < 40 && s.up (portIsl lane) then s.lockLost lane else s)

/-- LOCK_REGAINED: lock returns in under 10 µs, so the link has stayed up (R51). -/
def State.lockBack (s : State) (l : Nat) : State :=
  match s.portOfLane l with
  | some p => if (s.port p).linkUp then s.modLane l (fun x => { x with lost := false, holding := false }) else s
  | none => s

def execLockRegained (lane : Nat) (s : State) : Host.Outcome State Fault Refusal :=
  answer (if lane < 40 && s.up (portIsl lane) then s.lockBack lane else s)

/-- A port goes down: EV_LINK_DOWN, and remote fault is sent (R51). A port that MODE 0x0 disables sends idle and then nothing (R54, `off`); one
taken down by a change to another mode or FEC, or by a FULL recalibration, sends remote fault as on a loss of lock (DESIGN CHOICE, log 23). -/
def State.portDown (s : State) (p : Nat) (off : Bool := false) : State :=
  if (s.port p).linkUp then
    let s := State.portEvent (s.modPort p (fun q => { q with linkUp := false, downSince := s.time.elapsed })) p 23
    if off then s else s.emit (.remoteFault p)
  else s

/-- LINK_DOWN: a loss of lock on a lane of the port has lasted 10 µs. -/
def execLinkDown (port : Nat) (s : State) : Host.Outcome State Fault Refusal :=
  answer (if s.portOn port && (s.portLanes port).any (fun l => (s.lane l).lost) then s.portDown port else s)

/-- LINK_UP (R50, R52): the link comes up and the length of the outage is recorded (DEDUCED, log 23). -/
def State.portUp (s : State) (p : Nat) : State :=
  if (s.port p).linkUp || (s.portLanes p).any (fun l => (s.lane l).recal == 2) then s
  else
    let us := (s.time.elapsed - (s.port p).downSince) / 1000
    let s := (s.portLanes p).foldl (fun s l => s.modLane l (fun x => { x with lost := false, holding := false, acquiring := false, ready := true })) s
    State.portEvent (s.modPort p (fun q => { q with linkUp := true, lastOutage := BitVec.ofNat 16 (min us 65535) })) p 22

def execLinkUp (port : Nat) (s : State) : Host.Outcome State Fault Refusal :=
  answer (if s.portOn port then s.portUp port else s)

/-- SURGE_HOLD_EXPIRE (R50): the coefficient hold ends, and a full acquisition begins. -/
def execSurgeHoldExpire (lane : Nat) (s : State) : Host.Outcome State Fault Refusal :=
  answer (if lane < 40 ∧ s.up (portIsl lane) ∧ (s.lane lane).lost ∧ (s.lane lane).holding then
    s.modLane lane (fun x => { x with holding := false, acquiring := true }) else s)

/-- REMOTE_FAULT (R52): the partner signals remote fault. -/
def State.remoteFault (s : State) (p : Nat) : State :=
  if (s.port p).remoteFault then s else State.portEvent (s.modPort p (fun q => { q with remoteFault := true })) p 18

def execRemoteFault (port : Nat) (s : State) : Host.Outcome State Fault Refusal :=
  answer (if s.portOn port then s.remoteFault port else s)

/-- REMOTE_FAULT_CLEARED (R52). The bit keeps its value while the port is disabled or changes mode, and clears only while it is on
(DESIGN CHOICE, log 23). -/
def execRemoteFaultCleared (port : Nat) (s : State) : Host.Outcome State Fault Refusal :=
  answer (if s.portOn port then s.modPort port (fun q => { q with remoteFault := false }) else s)

/-- FEC_DEGRADE (R52, R456): a 1 ms window ends with this many corrected symbols. -/
def State.fecWindow (s : State) (p n : Nat) : State :=
  let s := s.count (laneSrc p) 0x1B n
  let t := fld (s.obj 0x0012 p) 28 5
  if t ≠ 0 ∧ t < n then s.portEvent p 20 else s

def execFecDegrade (port corrected : Nat) (s : State) : Host.Outcome State Fault Refusal :=
  answer (if s.portOn port then s.fecWindow port corrected else s)

/-! ### Field time pins (R47) -/

/-- PPS_IN_EDGE: device time is captured and the count advances. -/
def execPpsInEdge (s : State) : Host.Outcome State Fault Refusal :=
  answer (if s.up 52 then { s with ports := { s.ports with pins := { s.ports.pins with
    ppsInTime := s.time.ns, ppsInCount := s.ports.pins.ppsInCount + 1, ppsInNew := true } } } else s)

/-- PPS_OUT_EDGE: at a whole second of device time not yet marked, the pulse rises with the width now set. -/
def State.ppsEdge (s : State) : State :=
  let sec := s.now / 1000000000
  if s.ports.pins.lastEdge = some sec ∨ s.ports.pins.ppsOut then s
  else { s with ports := { s.ports with pins := { s.ports.pins with
    ppsOut := true, lastEdge := some sec, todDue := some (BitVec.ofNat 48 sec)
    width := fld (s.obj 0x0018 0) 63 45 } } }

def execPpsOutEdge (s : State) : Host.Outcome State Fault Refusal := answer (if s.up 52 then s.ppsEdge else s)

/-- PPS_OUT_PULSE_END: the width in force has passed. -/
def execPpsOutPulseEnd (s : State) : Host.Outcome State Fault Refusal :=
  answer { s with ports := { s.ports with pins := { s.ports.pins with ppsOut := false } } }

/-- An upper-case hexadecimal digit. -/
def hexDigit (n : Nat) : Byte := BitVec.ofNat 8 (if n < 10 then 0x30 + n else 0x37 + n)

/-- TOD_TX_MESSAGE: T, the seconds of the last edge as 12 digits, and a carriage return. -/
def State.todMessage (s : State) : State :=
  match s.ports.pins.todDue with
  | none => s
  | some sec =>
    State.emit { s with ports := { s.ports with pins := { s.ports.pins with todDue := none } } }
      (.tod ([0x54] ++ (List.range 12).map (fun i => hexDigit (sec.toNat / 16 ^ (11 - i) % 16)) ++ [0x0D]))

def execTodTxMessage (s : State) : Host.Outcome State Fault Refusal := answer (if s.up 52 then s.todMessage else s)

end Sys2Proof.Machine
end

