-- ==== Sys2Proof/Machine/Queues.lean ====
section
/-! DEFINITION. The Queue Manager: the egress tree, hand-over and admission, scheduling with shapers and DWRR, spill and
refill, and the host rings (spec/13_queues_egress.md R297 to R321). -/

namespace Sys2Proof.Machine

/-! ### The tree in force at I36 (R297 to R300) -/

/-- A queue, node, L0 port or profile object in force. -/
def State.qo (s : State) (cls idx : Nat) : ObjWord := Store.get (objReset cls idx) s.qm.objs (objKey cls idx)

/-- The object class of a node's level: 1 to 3 nodes, 4 queues, 0 ports. -/
def levelClass (lvl : Nat) : Nat := match lvl with | 0 => 0x84 | 1 => 0x83 | 2 => 0x82 | 3 => 0x81 | _ => 0x80

/-- The path of a queue from its L1 node down, and its L0 port. -/
def State.pathOf (s : State) (q : Nat) : List Nat :=
  let l3 := fld (s.qo 0x80 q) 63 48
  let l2 := fld (s.qo 0x81 l3) 127 114
  [fld (s.qo 0x82 l2) 127 114, l2, l3, q]

def State.l0Of (s : State) (q : Nat) : Nat := fld (s.qo 0x83 ((s.pathOf q).headD 0)) 127 114

/-- Kinds of L0 port (R298): 0 network, 1 host, 2 recirculation, 3 sink. -/
def l0Kind (p : Nat) : Nat := if p < 40 then 0 else if p = 40 ∨ p = 42 then 1 else if p = 41 then 2 else 3

/-- A rate field in b/s and a depth field in bytes (R300). -/
def rateBps (f : Nat) : Nat := f % 2048 * 2 ^ (f / 2048) * 1000
def depthBytes (f : Nat) : Nat := f % 256 * 2 ^ (f / 256)

def State.peakRate (s : State) (lvl n : Nat) : Nat :=
  if lvl = 0 then rateBps (fld (s.qo 0x84 n) 63 48) else if lvl ≤ 3 then rateBps (fld (s.qo (levelClass lvl) n) 86 71) else 0
def State.peakDepth (s : State) (lvl n : Nat) : Nat :=
  if lvl = 0 then depthBytes (fld (s.qo 0x84 n) 47 36) else if lvl ≤ 3 then depthBytes (fld (s.qo (levelClass lvl) n) 58 47) else 0
def State.commRate (s : State) (lvl n : Nat) : Nat :=
  if 1 ≤ lvl ∧ lvl ≤ 3 then rateBps (fld (s.qo (levelClass lvl) n) 102 87) else 0
def State.commDepth (s : State) (lvl n : Nat) : Nat :=
  if 1 ≤ lvl ∧ lvl ≤ 3 then depthBytes (fld (s.qo (levelClass lvl) n) 70 59) else 0

def State.childPrio (s : State) (lvl n : Nat) : Nat :=
  if lvl = 4 then fld (s.qo 0x80 n) 47 45 else fld (s.qo (levelClass lvl) n) 113 111
def State.childWeight (s : State) (lvl n : Nat) : Nat :=
  if lvl = 4 then fld (s.qo 0x80 n) 44 37 else fld (s.qo (levelClass lvl) n) 110 103

def childKey (lvl n : Nat) : Nat := lvl * 2 ^ 20 + n

def State.child (s : State) (lvl n : Nat) : Child := Store.get {} s.qm.child (childKey lvl n)

def State.modChild (s : State) (lvl n : Nat) (f : Child → Child) : State :=
  { s with qm := { s.qm with child := Store.modify {} s.qm.child (childKey lvl n) f } }

/-! ### Buckets (R309) -/

/-- Credit a bucket for the time since its last credit, carry the remainder and clip it to its depth. -/
def Bucket.credit (b : Bucket) (rate depth now : Nat) : Bucket :=
  let n := rate * (now - b.last) * 65536 + b.rem
  { level := min (b.level + (n / 8000000000 : Nat)) (depth * 65536 : Nat), last := now, rem := n % 8000000000 }

/-- Credit both buckets of a node. -/
def State.creditNode (s : State) (lvl n : Nat) : State :=
  s.modChild lvl n (fun c =>
    { c with pir := c.pir.credit (s.peakRate lvl n) (s.peakDepth lvl n) s.time.elapsed
             cir := c.cir.credit (s.commRate lvl n) (s.commDepth lvl n) s.time.elapsed })

/-- BUCKET_CREDIT: a node's buckets are credited at least once every 8 µs. -/
def execBucketCredit (level node : Nat) (s : State) : Host.Outcome State Fault Refusal :=
  answer (if s.up 36 ∧ ((level = 0 ∧ node < 44) ∨ (level = 1 ∧ node < 2048) ∨ (level = 2 ∧ node < 16384) ∨ (level = 3 ∧ node < 65536))
    then s.creditNode level node else s)

/-! ### Drops -/

/-- Count a packet a queue discards: its cause in the queue unit's event and in the per-queue unit (R456, R457). -/
def State.countDrop (s : State) (q cause : Nat) : State :=
  (s.count (src 36 0) cause).countQueue (if cause = 0x11 then 0x22 else if cause = 0x12 then 0x23 else 0x24) q

/-- Discard and free a packet of a queue. -/
def State.dropQueued (s : State) (q d cause : Nat) : State := (s.countDrop q cause).freePacket d

/-- A queue's uncorrectable state word is read: the queue stops (R320). A stopped queue's word is read by no packet, and stays marked
until QUEUE_FLUSH writes it (R387). -/
def State.queueEcc (s : State) (q : Nat) (master : Nat := 0x1000) (access : Nat := 1) : State :=
  if (s.queue q).bad ∧ (master ≠ 0x1000 ∨ (s.queue q).stopped = false) then
    (s.modQueue q (fun k => { k with stopped := true })).raise (src 36 0) 0x99 { addr := q, master := master, access := access }
  else s

/-! ### Admission (R304 to R306) -/

/-- The place in cell memory of a byte of the edited frame. -/
def Desc.place (d : Desc) (i : Nat) : Nat :=
  match d.head with
  | some (hc, n, k) => if i < n then chainAddr hc i else chainAddr d.cells (i - n + k)
  | none => chainAddr d.cells i

def State.editByte (s : State) (d i : Nat) : Nat := (mget s.pools.cells ((s.desc d).place i)).toNat

/-- The ECN bits' place in the byte after L3_OFF, where the frame is ECN-capable: none otherwise (R306). -/
def State.ectShift (s : State) (d len o : Nat) : Option Nat :=
  let v := s.editByte d o
  let w := s.editByte d (o + 1)
  if v / 16 = 4 ∧ 5 ≤ v % 16 ∧ o + 12 ≤ len ∧ w % 4 ≠ 0 then some 0
  else if v / 16 = 6 ∧ o + 2 ≤ len ∧ (w / 16) % 4 ≠ 0 then some 4 else none

def State.editWrite (s : State) (d i v : Nat) : State :=
  s.cellWrite ((s.desc d).place i) [BitVec.ofNat 8 v]

/-- Mark a packet CE, with the IPv4 header checksum updated as RFC 1624 gives. -/
def State.setCe (s : State) (d o sh : Nat) : State :=
  let old := s.editByte d o * 256 + s.editByte d (o + 1)
  let new := old ||| (3 <<< sh)
  let s := s.editWrite d (o + 1) (new % 256)
  if sh = 0 then
    let hc := incSum (s.editByte d (o + 10) * 256 + s.editByte d (o + 11)) [old] [new]
    (s.editWrite d (o + 10) (hc / 256)).editWrite d (o + 11) (hc % 256)
  else s

/-- What admission decides: a cause to drop for, or whether to mark. -/
inductive Admit where
  | drop (cause : Nat)
  | link (mark : Bool)

/-- WRED's probability met by a random value: random / 65536 < PMAX / 256 × (avg − min) / (max − min), in 2⁻¹⁶ byte. -/
def wredHit (random pmax avg lo hi : Nat) : Bool := decide (random * 256 * (hi - lo) < pmax * (avg - lo) * 65536)

/-- The average after an arrival (R305; DESIGN CHOICE, log 31). -/
def nextAvg (avg depth w : Nat) : Nat := ((avg : Int) + ((depth * 65536 : Nat) - (avg : Int)) / (2 ^ w : Nat)).toNat

/-- The decision of R305 for a packet of length `len` (DESIGN CHOICE, log 31). -/
def State.admission (s : State) (q d len : Nat) : Admit × State :=
  let p := s.qo 0x85 (fld (s.qo 0x80 q) 36 29)
  let depth := queueDepth (s.queue q)
  let avg := nextAvg (s.queue q).avg depth (fld p 63 60)
  let s := s.modQueue q (fun k => { k with avg := avg })
  let lo := fld p 107 90 * 1024 * 65536
  let hi := fld p 89 72 * 1024 * 65536
  let ecn := fld p 41 40 = 1
  let ect := (s.ectShift d len (fld p 39 32)).isSome
  let mark := ecn && 0 < fld p 59 42 && fld p 59 42 * 1024 ≤ depth
  if fld p 127 108 * 1024 < depth + len then (.drop 0x11, s)
  else if 0 < fld p 71 64 ∧ lo ≤ avg then
    if hi ≤ avg then (.drop 0x12, s)
    else
      let (r, s) := s.draw 65536
      if wredHit r (fld p 71 64) avg lo hi then (if ecn && ect then (.link true, s) else (.drop 0x12, s))
      else (.link mark, s)
  else (.link mark, s)

/-! ### Spill (R312 to R314) -/

def onChip (k : Queue) : Nat := (k.pkts.map (·.len)).sum

/-- The queue's profile. -/
def State.profileOf (s : State) (q : Nat) : ObjWord := s.qo 0x85 (fld (s.qo 0x80 q) 36 29)

/-- A queue that spills goes on until no spilled packet remains; one that may spill begins at SPILL_ON (R312). -/
def State.mustSpill (s : State) (q len : Nat) : Bool :=
  let p := s.profileOf q
  let k := s.queue q
  !k.spilled.isEmpty || (fld p 31 31 == 1 && decide (fld p 30 15 * 1024 ≤ onChip k + len))

/-- Bytes of a spilled record. -/
def spillSize (len : Nat) : Nat := (16 + len + 63) / 64 * 64

/-- Room for a record in the queue's page, or in a new page. -/
def State.spillPlace (s : State) (q size : Nat) : Option (Nat × Nat × State) :=
  let fresh := match s.qm.pages.take with
    | some (pg, r) => some (pg, 0, ({ s with qm := { s.qm with pages := r } } : State))
    | none => none
  match (s.queue q).page with
  | some (pg, used) => if used + size ≤ 16384 then some (pg, used, s) else fresh
  | none => fresh

/-- A spill page that its last record has left goes back to the free ring (R313, R314). -/
def State.pageLeft (s : State) (q pg : Nat) : State :=
  let n := Store.get 0 s.qm.pageUse pg - 1
  let s := { s with qm := { s.qm with pageUse := Store.set 0 s.qm.pageUse pg n } }
  if n = 0 then
    State.modQueue { s with qm := { s.qm with pages := { s.qm.pages with freed := s.qm.pages.freed ++ [pg] }, spillRep := false } } q
      (fun x => { x with page := if (x.page.map (·.1)) = some pg then none else x.page })
  else s

/-- A packet's record: metadata word, timestamp, commit word bits [63:41] and the edited frame (R312). -/
def State.spillRecord (s : State) (k : QPkt) : List Byte :=
  let d := s.desc k.desc
  padTo (spillSize k.len) (leBytes 8 d.metaw.toNat ++ leBytes 4 d.ts.toNat ++ leBytes 4 (bits k.word.toNat 63 41) ++ s.packetBytes k.desc)

/-- The channels accept a spill write, in SC0: the record is written and the packet freed. -/
def State.spillWrite (s : State) (w : SpillWrite) : State :=
  let size := spillSize w.pkt.len
  let s := (s.dramIssue true (linesOf w.addr size) 0 0x4080).dramWrite w.addr (s.spillRecord w.pkt)
  (((s.count (src 36 1) 0x10).count (src 36 1) 0x12 size).countQueue 0x26 w.pkt.queue).freePacket w.pkt.desc

/-- A spill write is refused at a channel in reset: admission drops the packet with cause SPILL (R343). -/
def State.spillRefused (s : State) (w : SpillWrite) : State :=
  let q := w.pkt.queue
  ((s.modQueue q (fun x => { x with spilled := x.spilled.filter (fun r => r.addr != w.addr) })).pageLeft q w.page).dropQueued q w.pkt.desc 0x13

/-- Spill writes leave their queue in order, while the channels accept or refuse the oldest. -/
def State.spillOut : List SpillWrite → State → State
  | [], s => { s with qm := { s.qm with writing := [] } }
  | w :: t, s =>
    let n := spillSize w.pkt.len
    if s.dramGone w.addr n then State.spillOut t (s.spillRefused w)
    else if s.dramOpen w.addr n then State.spillOut t (s.spillWrite w)
    else { s with qm := { s.qm with writing := w :: t } }

/-- The spill write queue drains. -/
def State.drainSpill (s : State) : State := State.spillOut s.qm.writing s

/-- `k` goes behind `l`, but before those at its end that stand after it in its cycle. -/
def insertTied {α : Type} (after : α → Bool) (k : α) (l : List α) : List α :=
  (l.reverse.dropWhile after).reverse ++ k :: (l.reverse.takeWhile after).reverse

/-- The packet of `e` was linked in this cycle and follows that of `t`: hand-overs go in ascending record number and ring frames after them in
ascending ring number; a domain's packets keep their order (R302; DESIGN CHOICE, log 57: one instant is one cycle). -/
def LinkTie.follows (e t : LinkTie) : Bool := e.time == t.time && decide (t.order < e.order) && (e.domain.isNone || e.domain != t.domain)

/-- Note a packet linked in this cycle. -/
def State.noteLinked (s : State) (t : LinkTie) : State :=
  { s with qm := { s.qm with linked := s.qm.linked.filter (fun e => e.time == t.time) ++ [t] } }

/-- Spill a packet, or drop it while the spill write queue is full or for want of a page (R312, R314). -/
def State.spill (s : State) (k : QPkt) (order : Nat) (domain : Option Nat) : State :=
  let q := k.queue
  if Config.spillQueue ≤ s.qm.writing.length then s.dropQueued q k.desc 0x13
  else
    let size := spillSize k.len
    match s.spillPlace q size with
    | none =>
      let s := s.dropQueued q k.desc 0x13
      if s.qm.spillRep then s else State.raise { s with qm := { s.qm with spillRep := true } } (src 36 1) 0x9A
    | some (pg, off, s) =>
      let a := s.param 0x09 * 2 ^ 20 + pg * 16384 + off
      let t : LinkTie := { time := s.time.elapsed, order := order, domain := domain, desc := k.desc, addr := some a }
      let after := fun (r : Spilled) => s.qm.linked.any (fun e => e.addr == some r.addr && e.follows t)
      let s := s.modQueue q (fun x =>
        { x with page := some (pg, off + size), spilled := insertTied after { addr := a, page := pg, len := k.len } x.spilled })
      let s := { s with qm := { s.qm with
        pageUse := Store.modify 0 s.qm.pageUse pg (· + 1), writing := s.qm.writing ++ [({ pkt := k, addr := a, page := pg } : SpillWrite)] } }
      (s.noteLinked t).drainSpill

/-- Link a packet at the tail of its queue, on-chip or to the spill (R301 step 4). -/
def State.link (s : State) (k : QPkt) (order : Nat) (domain : Option Nat) : State :=
  if s.mustSpill k.queue k.len then s.spill k order domain
  else
    let t : LinkTie := { time := s.time.elapsed, order := order, domain := domain, desc := k.desc, addr := none }
    let after := fun (p : QPkt) => s.qm.linked.any (fun e => e.addr == none && e.desc == p.desc && e.follows t)
    (s.modQueue k.queue (fun x => { x with pkts := insertTied after k x.pkts })).noteLinked t

/-- Admission and linking: steps 3 and 4 of R301, for the packet of a record or of a ring. A stopped queue discards its arrivals (R320). -/
def State.enqueue (s : State) (k : QPkt) (order : Nat) (domain : Option Nat) : State :=
  let q := k.queue
  let s := s.queueEcc q
  if (s.queue q).stopped then s.dropQueued q k.desc 0x11
  else
    match s.admission q k.desc k.len with
    | (.drop c, s) => s.dropQueued q k.desc c
    | (.link mark, s) =>
      let o := fld (s.profileOf q) 39 32
      match (if mark then s.ectShift k.desc k.len o else none) with
      | some sh => State.link (((s.setCe k.desc o sh).count (src 36 0) 0x17).countQueue 0x25 q) k order domain
      | none => s.link k order domain

/-! ### Hand-over (R301) -/

/-- The L0 kind an outcome requires: FWD network, HOST host, RECIRC recirculation. -/
def opKind (op : BitVec 3) : Nat := match op.toNat with | 0 => 0 | 2 => 1 | _ => 2

/-- A commit word's one-step offsets as the packet's edits move them: an offset within replaced or trimmed bytes drops the
action (DEDUCED, log 31). -/
def rebase (d : Desc) (word : W64) : W64 :=
  let w := word.toNat
  let move := fun (o n : Nat) =>
    match d.head with
    | some (_, h, k) => if k ≤ o ∧ o + n ≤ d.kept ∧ o - k + h < 512 then some (o - k + h) else none
    | none => if o + n ≤ d.kept then some o else none
  if bits w 63 62 ≠ 2 then word
  else
    match move (bits w 61 53) (if bitAt w 52 then 8 else 10), (if bits w 51 50 = 1 then move (bits w 49 41) 2 else some 0) with
    | some o, some c => BitVec.ofNat 64 (2 * 2 ^ 62 + o * 2 ^ 53 + bits w 52 50 * 2 ^ 50 + c * 2 ^ 41 + bits w 40 0)
    | _, _ => BitVec.ofNat 64 (bits w 40 0)

/-- Step 2 of R301: the edits are taken, and LENGTH becomes the edited length. -/
def State.takeEdits (s : State) (d : Nat) : Nat × State :=
  let k := s.desc d
  let len := k.editedLen.toNat
  (len, s.modDesc d (fun k => { k with trim := some k.kept
                                       metaw := BitVec.ofNat 64 (k.metaw.toNat / 16384 * 16384 + len % 16384) }))

/-- QM_HANDOVER: the oldest hand-over of I26 is judged and linked. -/
def State.qmHandover (s : State) : State :=
  match s.arrive 26 36 with
  | some (.handover r d op word _ master domain) =>
    let q := word.toNat % 2 ^ 18
    let s := (s.taken 26 36).count (src 36 0) 0x10
    if l0Kind (s.l0Of q) ≠ opKind op then
      (s.raise (src 36 0) 0x98 { master := master.toNat }).dropQueued q d 0x14
    else
      let word := rebase (s.desc d) word
      let (len, s) := s.takeEdits d
      s.enqueue { desc := d, len := len, queue := q, word := word } r (some domain)
  | _ => s

def execQmHandover (s : State) : Host.Outcome State Fault Refusal := answer s.qmHandover

/-! ### Scheduling (R307, R308, R310, R311) -/

/-- Bytes MACsec adds to a frame of the port: none to EAPOL, which leaves unprotected (R33). -/
def State.secBytes (s : State) (p eth : Nat) : Nat :=
  let ch := s.secCh p 0
  if p < 40 ∧ s.portMacsec p ≠ 0 ∧ fld ch 63 63 = 1 ∧ eth ≠ 0x888E then (if fld ch 62 62 = 1 then 32 else 24) else 0

/-- The shaped length of a packet at an L0 port. -/
def State.shaped (s : State) (l0 : Nat) (k : QPkt) : Int :=
  (max k.len 60 + 4 + s.secBytes l0 (s.editByte k.desc 12 * 256 + s.editByte k.desc 13) : Nat) + signed 8 (fld (s.qo 0x84 l0) 35 28)

/-- Posted entries of a host ring: device-to-host r at r, host-to-device r at 64 + r (R415). -/
def State.posted (s : State) (k : Nat) : Nat := (Store.get 0 s.bar0.tails k - Store.get 0 s.bar0.heads k).toNat

/-- A device-to-host ring can take a packet. -/
def State.ringTakes (s : State) (r : Nat) : Bool :=
  let w := s.obj 0x0086 r
  fld w 63 63 = 1 && fld w 57 57 = 0 && 0 < s.posted r

/-- The leaf may send now, beside the buckets of its path (R307). -/
def State.leafFree (s : State) (l0 q : Nat) : Bool :=
  let p := (s.port l0).paused
  if l0 < 40 then !p.getLsbD 8 && !p.getLsbD (fld (s.profileOf q) 14 12)
  else if l0 = 40 then s.ringTakes (fld (s.qo 0x80 q) 28 23) else true

/-- Packets chosen ahead for the device-to-host rings. -/
def State.hostAhead (s : State) : Nat := (s.qm.host.map (fun e => e.2.length)).sum

/-- The L0 port itself can take a chosen packet: each keeps two ahead, and the Steward's is held while its firmware is down (R298, R310,
R316, R318, R364). -/
def State.l0Free (s : State) (l0 : Nat) : Bool :=
  if l0 < 40 then s.portOn l0 && ((s.port l0).linkUp || fld (s.portWord l0) 17 17 = 1) && decide ((s.port l0).txAhead.length < 2)
  else if l0 = 40 then decide (s.hostAhead < 2)
  else if l0 = 41 then s.qm.recirc.length < 2
  else if l0 = 42 then s.ycp.up else true

/-- A node's peak bucket lets it send. -/
def State.peakOk (s : State) (lvl n : Nat) : Bool := s.peakRate lvl n = 0 || 0 < (s.child lvl n).pir.level

/-- Queues that hold a packet on-chip and run. -/
def State.heldQueues (s : State) : List Nat := (s.qm.queue.filter (fun e => !e.2.pkts.isEmpty && !e.2.stopped)).map (·.1)

/-- Paths of the eligible leaves of an L0 port. -/
def State.eligible (s : State) (l0 : Nat) : List (List Nat) :=
  ((s.heldQueues.filter (fun q => s.l0Of q == l0 && s.leafFree l0 q)).map s.pathOf).filter (fun path =>
    (path.take 3).zipIdx.all (fun e => s.peakOk (e.2 + 1) e.1))

def insertNat (n : Nat) : List Nat → List Nat
  | [] => [n]
  | k :: t => if n < k then n :: k :: t else if n = k then k :: t else k :: insertNat n t

/-- The distinct first elements of paths, ascending. -/
def headsOf (ps : List (List Nat)) : List Nat := ps.foldl (fun l p => match p with | [] => l | a :: _ => insertNat a l) []

def Child.dc (c : Child) (ph : Nat) : Int := if ph = 0 then c.dcC else c.dcE

def Child.addDc (c : Child) (ph : Nat) (v : Int) : Child := if ph = 0 then { c with dcC := c.dcC + v } else { c with dcE := c.dcE + v }

def ptrKey (lvl n ph p : Nat) : Nat := (childKey lvl n * 2 + ph) * 8 + p

/-- The loop of dwrr in R307 for a parent at `lvl`, over a set of its children. -/
def State.dwrr (lvl n ph p : Nat) (set : List Nat) : Nat → State → Option (Nat × State)
  | 0, _ => none
  | f + 1, s =>
    let ptr := Store.get 0 s.qm.ptr (ptrKey lvl n ph p)
    match (set.find? (fun c => decide (ptr ≤ c))).or set.head? with
    | none => none
    | some c =>
      if 0 < (s.child (lvl + 1) c).dc ph then some (c, s)
      else
        let s := s.modChild (lvl + 1) c (fun x => x.addDc ph (s.childWeight (lvl + 1) c * 256 : Nat))
        State.dwrr lvl n ph p set f { s with qm := { s.qm with ptr := Store.set 0 s.qm.ptr (ptrKey lvl n ph p) (c + 1) } }

/-- Turns enough for some child of the set to reach a positive deficit. -/
def State.dwrrFuel (s : State) (lvl ph : Nat) (set : List Nat) : Nat :=
  (set.length + 1) * ((set.map (fun c => (-(s.child (lvl + 1) c).dc ph).toNat / 256)).foldl max 0 + 3)

/-- The child that a node at `lvl` chooses, and the phase (R307). -/
def State.chooseChild (s : State) (lvl n : Nat) (set : List Nat) : Option (Nat × Nat × State) :=
  let comm := set.filter (fun c => lvl < 3 && s.commRate (lvl + 1) c != 0 && decide (0 < (s.child (lvl + 1) c).cir.level))
  let go := fun (ph : Nat) (l : List Nat) =>
    let p := (l.map (s.childPrio (lvl + 1))).foldl max 0
    let l := l.filter (fun c => s.childPrio (lvl + 1) c == p)
    (State.dwrr lvl n ph p l (s.dwrrFuel lvl ph l) s).map (fun r => (r.1, ph, r.2))
  if !comm.isEmpty then go 0 comm else if set.isEmpty then none else go 1 set

/-- Descend from a node: the children chosen, each with its phase. -/
def State.descend : Nat → Nat → Nat → List (List Nat) → State → Option (List (Nat × Nat) × State)
  | 0, _, _, _, s => some ([], s)
  | f + 1, lvl, n, paths, s =>
    match s.chooseChild lvl n (headsOf paths) with
    | none => none
    | some (c, ph, s) =>
      (State.descend f (lvl + 1) c ((paths.filter (fun p => p.head? == some c)).map List.tail) s).map (fun r => ((c, ph) :: r.1, r.2))

/-- Charge a peak bucket; a node without a peak limit has none. -/
def State.chargePeak (s : State) (lvl n : Nat) (len : Int) (c : Child) : Child :=
  if s.peakRate lvl n = 0 then c else { c with pir := { c.pir with level := c.pir.level - len * 65536 } }

/-- Charge a shaped length along a path (R308). -/
def State.charge (s : State) (l0 : Nat) (path : List (Nat × Nat)) (len : Int) : State :=
  let s := s.modChild 0 l0 (s.chargePeak 0 l0 len)
  path.zipIdx.foldl (fun s e =>
    s.modChild (e.2 + 1) e.1.1 (fun c =>
      let c := s.chargePeak (e.2 + 1) e.1.1 len (c.addDc e.1.2 (-len))
      if e.1.2 = 0 then { c with cir := { c.cir with level := c.cir.level - len * 65536 } } else c)) s

/-- The child still holds a packet, on-chip or spilled. -/
def State.holdsAny (s : State) (lvl n : Nat) : Bool :=
  s.qm.queue.any (fun e => !(e.2.pkts.isEmpty && e.2.spilled.isEmpty) && (s.pathOf e.1).getD (lvl - 1) 0 == n)

/-- Children of a path that have emptied lose both deficits (R308). -/
def State.clearEmpty (s : State) (path : List Nat) : State :=
  path.zipIdx.foldl (fun s e => if s.holdsAny (e.2 + 1) e.1 then s else s.modChild (e.2 + 1) e.1 (fun c => { c with dcC := 0, dcE := 0 })) s

/-- Credit every node on the paths, and the port (R309). -/
def State.creditPaths (s : State) (l0 : Nat) (paths : List (List Nat)) : State :=
  (List.range 3).foldl (fun s i => (headsOf (paths.map (·.drop i))).foldl (fun s n => s.creditNode (i + 1) n) s) (s.creditNode 0 l0)

/-! ### The Steward's mailbox (spec/17_command_protocol.md R401) -/

/-- Where the EtherType of a frame lies, behind at most one 802.1Q tag. -/
def typeAt (f : List Byte) : Nat := if etherType f = 0x8100 then 16 else 12

/-- The packet that an in-band frame carries, where it is one of the two forms (DEDUCED, log 42). -/
def State.inbandPacket (s : State) (f : List Byte) : Option (List Byte) :=
  let t := typeAt f
  let h := t + 2
  let udp := fun (o : Nat) =>
    let n := beVal (slice f (o + 4) 2)
    if beVal (slice f (o + 2) 2) = s.param 0x18 ∧ 8 ≤ n ∧ o + n ≤ f.length then some (slice f (o + 8) (n - 8)) else none
  match beVal (slice f t 2) with
  | 0x88B5 => some (f.drop h)
  | 0x0800 =>
    let b := beVal (slice f h 1)
    if b / 16 = 4 ∧ 5 ≤ b % 16 ∧ beVal (slice f (h + 9) 1) = 17 ∧ beVal (slice f (h + 6) 2) % 2 ^ 14 = 0 then udp (h + 4 * (b % 16)) else none
  | 0x86DD => if beVal (slice f h 1) / 16 = 6 ∧ beVal (slice f (h + 6) 1) = 17 then udp (h + 40) else none
  | _ => none

/-- A packet that a choice takes away: discarded by a port that cannot take poison. -/
def State.poisonDrop (s : State) (k : QPkt) : State := s.dropQueued k.queue k.desc 0x19

/-- Deliver a chosen packet to its L0 port (R298, R310, R315, R401). -/
def State.deliver (s : State) (l0 : Nat) (k : QPkt) : State :=
  if l0 < 40 then s.modPort l0 (fun p => { p with txAhead := p.txAhead ++ [k] })
  else if l0 = 40 then
    let r := fld (s.qo 0x80 k.queue) 28 23
    { s with qm := { s.qm with host := Store.modify [] s.qm.host r (· ++ [k]) } }
  else if l0 = 41 then (if k.poison then s.poisonDrop k else { s with qm := { s.qm with recirc := s.qm.recirc ++ [k] } })
  else if l0 = 42 then
    let l := s.packetBytes k.desc
    if (s.inbandPacket l).isNone then
      State.freePacket ({ s with ycp := { s.ycp with badFrames := s.ycp.badFrames + 1 } }.count (src 51 0) 0x14) k.desc
    else
      let f : MailFrame := { port := metaPort (s.desc k.desc).metaw, frame := l, poison := k.poison || (s.packetBad k.desc).isSome }
      State.freePacket { s with ycp := { s.ycp with mailbox := s.ycp.mailbox ++ [f] } } k.desc
  else if k.poison then s.poisonDrop k
  else (s.count (src 36 0) 0x18).freePacket k.desc

/-- An L0 port could send a packet now. -/
def State.canChoose (s : State) (l0 : Nat) : Bool := s.l0Free l0 && s.peakOk 0 l0 && !(s.eligible l0).isEmpty

/-- Credit the buckets that a choice of an L0 port examines. -/
def State.creditPort (s : State) (l0 : Nat) : State := s.creditPaths l0 ((s.heldQueues.filter (fun q => s.l0Of q == l0)).map s.pathOf)

/-- The sink takes only the choices that L0 40 to 42 leave unused (R310). -/
def State.sinkYields (s : State) (l0 : Nat) : Bool := l0 == 43 && (span 40 43).any (fun p => (s.creditPort p).canChoose p)

/-- SCHED_CHOICE: one choice of an L0 port. -/
def State.schedChoice (s : State) (l0 : Nat) : State :=
  let s := (s.heldQueues.filter (fun q => s.l0Of q == l0)).foldl (fun s q => s.queueEcc q) s
  let s := s.creditPort l0
  if !s.l0Free l0 || !s.peakOk 0 l0 || s.sinkYields l0 then s
  else match State.descend 4 0 l0 (s.eligible l0) s with
    | none => s
    | some (path, s) =>
      let q := ((path.getLast?).map (·.1)).getD 0
      match (s.queue q).pkts with
      | [] => s
      | k :: rest =>
        let len := s.shaped l0 k
        let s := (s.charge l0 path len).modQueue q (fun x => { x with pkts := rest })
        let s := (s.clearEmpty (path.map (·.1))).countQueue 0x20 q
        (s.countQueue 0x21 q len.toNat).deliver l0 k

def execSchedChoice (port : Nat) (s : State) : Host.Outcome State Fault Refusal :=
  answer (if port < 44 && s.up 36 then s.schedChoice port else s)

/-! ### Refill (R313, R315) -/

/-- Take `n` cells from the shared count of pool 0 (R290). -/
def State.takeShared : Nat → State → Option (List Nat × State)
  | 0, s => some ([], s)
  | n + 1, s =>
    if s.sharedFree ≤ 0 then none
    else match s.takeEntry 0 4 with
      | none => none
      | some (c, s) => (State.takeShared n s).map (fun r => (c :: r.1, r.2))

/-- A packet built from bytes: a descriptor with its metadata and timestamp, and cells that hold the bytes. -/
def State.buildPacket (s : State) (m : W64) (ts : W32) (l : List Byte) : Option (Nat × State) :=
  match s.freeDesc with
  | none => none
  | some d =>
    match State.takeShared ((l.length + 255) / 256) s with
    | none => none
    | some (cells, s) =>
      let s := s.modDesc d (fun k => { st := .held, gen := k.gen + 1, metaw := m, ts := ts, cells := cells })
      some (d, (s.count (src 41 0) 0x10).chainWrite cells 0 l)

/-- SPILL_REFILL: the oldest spilled record comes back behind the on-chip packets, in SC0; one whose write or channel waits, waits. -/
def State.refill (s : State) (q : Nat) : State :=
  match (s.queue q).spilled with
  | [] => s
  | r :: rest =>
    let chip := onChip (s.queue q)
    let size := spillSize r.len
    if ¬ (chip < fld (s.profileOf q) 30 15 * 512 ∨ chip = 0) ∨ s.qm.writing.any (fun w => w.addr == r.addr) then s
    else if s.dramGone r.addr size ∨ ¬ s.dramOpen r.addr size then s
    else
      let lines := linesOf r.addr size
      let hd := s.dramBytes r.addr 16
      let bad := lines.find? s.lineBad
      match s.buildPacket (BitVec.ofNat 64 (leVal (slice hd 0 8))) (BitVec.ofNat 32 (leVal (slice hd 8 4))) (s.dramBytes (r.addr + 16) r.len) with
      | none => s
      | some (d, s) =>
        let s := ((s.dramIssue false lines 0 0x4081).readLines lines 0x4081 1).2
        let word := BitVec.ofNat 64 (leVal (slice hd 12 4) % 2 ^ 23 * 2 ^ 41 + q)
        let k : QPkt := { desc := d, len := r.len, queue := q, word := word, poison := bad.isSome }
        let s := s.modQueue q (fun x => { x with spilled := rest, pkts := x.pkts ++ [k] })
        let s := ((s.count (src 36 1) 0x11).count (src 36 1) 0x13 size).countQueue 0x27 q
        let s := s.pageLeft q r.page
        match bad with
        | some l => s.raise (src 36 1) 0x9B { addr := 64 * l, master := 0x4081, access := 1 }
        | none => s

def execSpillRefill (queue : Nat) (s : State) : Host.Outcome State Fault Refusal :=
  answer (if queue < 262144 && s.up 36 then s.drainSpill.refill queue else s)

/-- QUEUE_FLUSH frees every packet a queue holds, its spill pages, and restarts it (R320): how many packets. Its children on the path that
it empties lose their deficits (R308). -/
def State.flushQueue (s : State) (q cause : Nat) : Nat × State :=
  let k := s.queue q
  let n := k.pkts.length + k.spilled.length
  let mine := s.qm.writing.filter (fun w => w.pkt.queue == q)
  let s := k.pkts.foldl (fun s p => s.dropQueued q p.desc cause) s
  let s := k.spilled.foldl (fun s r => (s.countDrop q cause).pageLeft q r.page) s
  let s := mine.foldl (fun s w => s.freePacket w.pkt.desc) { s with qm := { s.qm with writing := s.qm.writing.filter (fun w => w.pkt.queue != q) } }
  (n, (s.modQueue q (fun x => { x with pkts := [], spilled := [], page := none, stopped := false, bad := false })).clearEmpty (s.pathOf q))

/-! ### Host rings (R316, R317, R320) -/

/-- Host address of the entry that a ring's head names. -/
def State.entryAddr (s : State) (cls r idx : Nat) : Nat :=
  let w := s.obj cls r
  fld w 127 64 + idx % 2 ^ fld w 62 58 * 16

/-- A ring's DMA failed: the ring halts (R320). -/
def State.ringHalt (s : State) (cls r master access : Nat) : State :=
  (s.setObj cls r (setFld (s.obj cls r) 57 57 1)).raise (src 36 2) 0x9C { addr := r, master := master, access := access }

def State.ringRuns (s : State) (cls r : Nat) : Bool := fld (s.obj cls r) 63 63 = 1 && fld (s.obj cls r) 57 57 = 0

/-- Set a host ring's cause bit; the vector goes out when it rises (R416). -/
def State.ringCause (s : State) (d2h : Bool) (r : Nat) : State :=
  let w := if d2h then s.bar0.d2hCause else s.bar0.h2dCause
  if w.getLsbD r then s
  else
    let w := w ||| (1 <<< r)
    State.msix { s with bar0 := if d2h then { s.bar0 with d2hCause := w } else { s.bar0 with h2dCause := w } } (32 + r / 2)

def State.advanceHead (s : State) (k n : Nat) : State :=
  { s with bar0 := { s.bar0 with heads := Store.modify 0 s.bar0.heads k (· + BitVec.ofNat 16 n) } }

/-- An entry that R317 refuses: LEN out of range, a reserved field, or a queue under a host-kind port or the sink. -/
def State.badEntry (s : State) (e : HostEntry) : Bool :=
  let l0 := s.l0Of (e.last.toNat % 2 ^ 18)
  e.len.toNat < 14 || 10236 < e.len.toNat || e.mid != 0 || bits e.last.toNat 29 18 != 0 || (l0Kind l0 == 1 || l0Kind l0 == 3)

/-- The device marks a host-to-device entry done. -/
def State.h2dDone (s : State) (r : Nat) (e : HostEntry) (err : Bool) : State :=
  let a := s.entryAddr 0x0087 r (Store.get 0 s.bar0.heads (64 + r)).toNat + 12
  let s := (s.emit (.hostWrite a (leBytes 4 (e.last.toNat % 2 ^ 18 + b2n err * 2 ^ 30 + 2 ^ 31)))).advanceHead (64 + r) 1
  s.ringCause false r

/-- H2D_RING_FRAME: the head entry and its frame are read, and the frame is admitted and linked. -/
def State.h2dFrame (s : State) (r : Nat) (e : HostEntry) (frame : List Byte) (dmaError : Bool) : State :=
  if !s.ringRuns 0x0087 r || s.posted (64 + r) = 0 then s
  else if dmaError then s.ringHalt 0x0087 r (0x4000 + r) 8
  else if s.badEntry e then ((s.count (src 36 2) (0x180 + r)).h2dDone r e true)
  else
    let len := e.len.toNat
    match s.buildPacket (BitVec.ofNat 64 (s.accord.current.toNat * 2 ^ 60 + len)) 0 (slice frame 0 len) with
    | none => s
    | some (d, s) =>
      let s := ((s.count (src 36 0) 0x10).count (src 36 2) (0x140 + r)).h2dDone r e false
      s.enqueue { desc := d, len := len, queue := e.last.toNat % 2 ^ 18 } (8192 + r) none

def execH2dRingFrame (ring : Nat) (entry : HostEntry) (frame : List Byte) (dmaError : Bool) (s : State) : Host.Outcome State Fault Refusal :=
  answer (if ring < 64 && s.up 36 && s.pcieOn then s.h2dFrame ring entry frame dmaError else s)

/-- Posted entries that hold `n` bytes together, from the head on. -/
def takeEntries : Nat → List HostEntry → Option (List HostEntry)
  | 0, _ => some []
  | _ + 1, [] => none
  | n + 1, e :: t => (takeEntries (n + 1 - e.len.toNat) t).map (e :: ·)

/-- Write a packet over the entries: each buffer, then its entry's bytes 8 to 15 in one write (R316). -/
def State.fillEntries (s : State) (r : Nat) (poison first : Bool) : List HostEntry → List Byte → State
  | [], _ => s
  | e :: t, l =>
    let n := min e.len.toNat l.length
    let a := s.entryAddr 0x0086 r (Store.get 0 s.bar0.heads r).toNat
    let flags := 1 + 2 * b2n first + 4 * b2n t.isEmpty + 8 * b2n (t.isEmpty && poison)
    let s := (s.emit (.hostWrite e.addr.toNat (l.take n))).emit (.hostWrite (a + 8) (leBytes 2 e.len.toNat ++ leBytes 2 n ++ leBytes 1 flags ++ [0, 0, 0]))
    State.fillEntries (s.advanceHead r 1) r poison false t (l.drop n)

/-- D2H_DELIVER: the oldest packet chosen for the ring fills the ring's entries in order, and its cells are freed. -/
def State.d2hDeliver (s : State) (r : Nat) (entries : List HostEntry) (dmaError : Bool) : State :=
  match Store.get [] s.qm.host r with
  | [] => s
  | k :: rest =>
    if !s.ringRuns 0x0086 r then s
    else if dmaError then s.ringHalt 0x0086 r (0x4040 + r) 9
    else
      let d := s.desc k.desc
      let head := leBytes 8 d.metaw.toNat ++ leBytes 4 d.ts.toNat ++ leBytes 4 k.queue ++ List.replicate 16 0
      let l := head ++ s.packetBytes k.desc
      match takeEntries l.length (entries.take (s.posted r)) with
      | none => s
      | some es =>
        let bad := s.packetBad k.desc
        let s := match bad with
          | some a => s.raise (src 41 1) 0x92 { addr := a / 256, master := 0x4040 + r, access := 1 }
          | none => s
        let s := s.fillEntries r (k.poison || bad.isSome) true es l
        let s := { s with qm := { s.qm with host := Store.set [] s.qm.host r rest } }
        ((s.count (src 36 2) (0x100 + r)).ringCause true r).freePacket k.desc

def execD2hDeliver (ring : Nat) (entries : List HostEntry) (dmaError : Bool) (s : State) : Host.Outcome State Fault Refusal :=
  answer (if ring < 64 && s.up 36 && s.pcieOn then s.d2hDeliver ring entries dmaError else s)

/-! ### Recirculation (R318) -/

/-- RECIRC_SEND: a frame enters the input buffer of the slice that serves RECIRC_PORT, once it has room. -/
def State.recircSend (s : State) : State :=
  match s.qm.recirc with
  | [] => s
  | k :: rest =>
    let p := s.param 0x0B
    let i := portSlice p
    let s1 := { s with qm := { s.qm with recirc := rest } }
    if !s.up (27 + i) then s
    else match s.packetBad k.desc with
      | some a => (s1.raise (src 41 1) 0x92 { addr := a / 256, access := 1 }).poisonDrop k
      | none =>
        let l := s.packetBytes k.desc
        if s.inputFits i l.length then
          let f : RxFrame := { data := l, time := s.time.ns, port := p, verdict := 0, tclass := BitVec.ofNat 3 (s.trafficClass p l) }
          State.freePacket (s1.modSlc i (fun q => { q with input := q.input ++ [f] })) k.desc
        else s

def execRecircSend (s : State) : Host.Outcome State Fault Refusal := answer (if s.up 36 then s.recircSend else s)

/-! ### The commit marker at I36 (R319) -/

/-- Objects of the Queue Manager's classes in an Accord's copy. -/
def State.qmObjs (s : State) (tag : Nat) : Store ObjWord :=
  (s.copy tag).objs.filter (fun e => decide (0x80 ≤ e.1 / 2 ^ 32 ∧ e.1 / 2 ^ 32 ≤ 0x85))

/-- Parent, priority and weight of a child. -/
def State.place (s : State) (lvl n : Nat) : Nat × Nat × Nat :=
  (if lvl = 4 then fld (s.qo 0x80 n) 63 48 else fld (s.qo (levelClass lvl) n) 127 114, s.childPrio lvl n, s.childWeight lvl n)

/-- Load the objects of an Accord: deficits of moved children clear, buckets are clipped, and packets whose queue changed
kind are discarded, except into the sink. -/
def State.loadTree (s : State) (tag : Nat) : State :=
  let old := s
  let s := { s with qm := { s.qm with objs := s.qmObjs tag } }
  let s := { s with qm := { s.qm with child := s.qm.child.filterMap (fun (e : Nat × Child) =>
    let lvl := e.1 / 2 ^ 20
    let n := e.1 % 2 ^ 20
    let c : Child := if lvl = 0 ∨ s.place lvl n = old.place lvl n then e.2 else { e.2 with dcC := 0, dcE := 0 }
    let c : Child := { c with pir := { c.pir with level := min c.pir.level (s.peakDepth lvl n * 65536 : Nat) }
                              cir := { c.cir with level := min c.cir.level (s.commDepth lvl n * 65536 : Nat) } }
    if c = ({} : Child) then none else some (e.1, c)) } }
  let moved := s.qm.queue.filter (fun e => !(e.2.pkts.isEmpty && e.2.spilled.isEmpty) &&
    (let k := l0Kind (s.l0Of e.1); k != 3 && k != l0Kind (old.l0Of e.1)))
  let (n, s) := moved.foldl (fun (a : Nat × State) e =>
    let k := a.2.queue e.1
    let r := a.2.flushQueue e.1 0x15
    (a.1 + r.1, r.2.modQueue e.1 (fun x => { x with stopped := k.stopped, bad := k.bad }))) (0, s)
  if n = 0 then s else s.raise (src 36 0) 0x9D { detail := n }

/-- MARKER_AT_QM. -/
def State.qmMarker (s : State) : State :=
  match s.arrive 26 36 with
  | some (.marker tag) => (s.taken 26 36).loadTree tag
  | _ => s

def execMarkerAtQm (s : State) : Host.Outcome State Fault Refusal := answer s.qmMarker

/-- The block reset of I36 (R321): every queued and spilled packet is discarded, buckets restart full, deficits at zero (DEDUCED, log 15). -/
def State.qmReset (s : State) : State :=
  let n := (s.qm.queue.map (fun e => e.2.pkts.length + e.2.spilled.length)).sum + s.qm.recirc.length + (s.qm.host.map (fun e => e.2.length)).sum
  let gone := s.qm.queue.flatMap (fun e => e.2.pkts) ++ s.qm.recirc ++ s.qm.host.flatMap (fun e => e.2) ++ s.qm.writing.map (·.pkt)
  let s := gone.foldl (fun s k => s.freePacket k.desc) s
  let s := s.qm.queue.foldl (fun s e => e.2.spilled.foldl (fun s r => s.pageLeft e.1 r.page) s) s
  let full := fun (lvl n : Nat) (c : Child) => ({ c with
    pir := { level := (s.peakDepth lvl n * 65536 : Nat), last := s.time.elapsed }
    cir := { level := (s.commDepth lvl n * 65536 : Nat), last := s.time.elapsed }, dcC := 0, dcE := 0 } : Child)
  let keys := (s.qm.child.map (·.1) ++ s.qm.objs.filterMap (fun (e : Nat × ObjWord) =>
    let cls := e.1 / 2 ^ 32
    if 0x81 ≤ cls ∧ cls ≤ 0x84 then some (childKey (0x84 - cls) (e.1 % 2 ^ 32)) else none)).eraseDups
  let s := { s with qm := { s.qm with
    queue := s.qm.queue.filterMap (fun (e : Nat × Queue) => if e.2.bad then some (e.1, ({ bad := true } : Queue)) else none)
    child := keys.foldl (fun (l : Store Child) k => Store.set {} l k (full (k / 2 ^ 20) (k % 2 ^ 20) (Store.get {} l k))) s.qm.child
    recirc := [], host := [], writing := [], linked := [] } }
  s.raise (src 36 0) 0x9E { detail := n, conseq := true }

end Sys2Proof.Machine
end

