-- ==== Sys2Proof/Machine/Reply.lean ====
section
/-! DEFINITION. Replies and completions of the Steward: their bytes, the store of an issuer slot, and their way back over
PCIe, in-band frames and I2C (spec/17_command_protocol.md R390, R395, R397, R400 to R402; spec/19_security_update.md R436). -/

namespace Sys2Proof.Machine

/-- The bytes of an ASCII string. -/
def ascii (t : String) : List Byte := t.toList.map (fun c => BitVec.ofNat 8 c.toNat)

/-- Status codes of R419. -/
def stDone : Nat := 0x0000
def stAccepted : Nat := 0x0001
def stAlready : Nat := 0x0002
def stReplay : Nat := 0x0003
def stCancelled : Nat := 0x0004
def stBadOpcode : Nat := 0x0100
def stBadParam : Nat := 0x0101
def stBadState : Nat := 0x0102
def stBusy : Nat := 0x0103
def stNoSpace : Nat := 0x0104
def stAuthFail : Nat := 0x0200
def stNotPermitted : Nat := 0x0201
def stHwFault : Nat := 0x0300

/-! ### The identity key (R436) -/

def identitySeed : List Byte := (sha512 (Config.deviceSecret ++ ascii "YN-IDENT")).take 32
def identityPublic : List Byte := edPublic identitySeed

/-! ### Reply packets (R390, R397) -/

/-- The header, STATUS, ORIG_STATUS and results of a reply; in-band it is signed. -/
def replyBytes (answerTo : ReplyTo) (completion : Bool) (status orig : Nat) (results : List Byte) : List Byte :=
  let inband := match answerTo.origin with | .inband _ _ => true | _ => false
  let body := [0x59, 0x4E, BitVec.ofNat 8 answerTo.version, BitVec.ofNat 8 (0x80 + 0x40 * b2n completion + 0x20 * b2n inband)]
    ++ beBytes 2 answerTo.opcode ++ beBytes 2 (4 + results.length) ++ beBytes 4 answerTo.tag.toNat ++ beBytes 2 answerTo.issuer ++ [0, 0]
    ++ beBytes 8 answerTo.serial ++ beBytes 2 status ++ beBytes 2 orig ++ results
  if inband then body ++ edSign identitySeed body else body

/-! ### In-band frames (R401) -/

/-- A UDP datagram with its checksum over the pseudo header given. -/
def udpDatagram (pseudo : List Byte) (sport dport : Nat) (l : List Byte) : List Byte :=
  let n := l.length + 8
  let h := beBytes 2 sport ++ beBytes 2 dport ++ beBytes 2 n
  let c := 65535 - ocSum 0 (pseudo ++ h ++ [0, 0] ++ l)
  h ++ beBytes 2 (if c = 0 then 65535 else c) ++ l

/-- The frame that carries a reply back to the source of a command frame (R401; DEDUCED, log 42). -/
def inbandFrame (f reply : List Byte) : List Byte :=
  let t := typeAt f
  let h := t + 2
  let eth := slice f 6 6 ++ slice f 0 6 ++ slice f 12 (t - 12) ++ slice f t 2
  match beVal (slice f t 2) with
  | 0x0800 =>
    let o := h + 4 * (beVal (slice f h 1) % 16)
    let ips := slice f (h + 16) 4 ++ slice f (h + 12) 4
    let n := reply.length + 28
    let hd := fun (c : Nat) => [0x45, 0] ++ beBytes 2 n ++ [0, 0, 0, 0, 64, 17] ++ beBytes 2 c ++ ips
    eth ++ hd (65535 - ocSum 0 (hd 0))
      ++ udpDatagram (ips ++ [0, 17] ++ beBytes 2 (n - 20)) (beVal (slice f (o + 2) 2)) (beVal (slice f o 2)) reply
  | 0x86DD =>
    let ips := slice f (h + 24) 16 ++ slice f (h + 8) 16
    let n := reply.length + 8
    eth ++ [0x60, 0, 0, 0] ++ beBytes 2 n ++ [17, 64] ++ ips
      ++ udpDatagram (ips ++ beBytes 4 n ++ [0, 0, 0, 17]) (beVal (slice f (h + 42) 2)) (beVal (slice f (h + 40) 2)) reply
  | _ => eth ++ reply

/-- A reply is lost: counted (R401). -/
def State.loseReply (s : State) : State :=
  { s with ycp := { s.ycp with lostReplies := s.ycp.lostReplies + 1 } }.count (src 51 0) 0x15

/-- Reply frames go to their queues in order, REPLY_QBASE + p, by the rules of R317: one whose queue lies elsewhere is lost, as is one that I36
refuses in reset, and one that meets I36 stopped or finds no cells waits with those behind it (R19, R401). -/
def State.inbandOut : List (Nat × List Byte) → State → State
  | [], s => { s with ycp := { s.ycp with inband := [] } }
  | (p, f) :: t, s =>
    let q := (s.param 0x19 + p) % 2 ^ 18
    if s.l0Of q ≠ p ∨ s.inReset 36 = true then State.inbandOut t s.loseReply
    else if ¬ s.up 36 then { s with ycp := { s.ycp with inband := (p, f) :: t } }
    else match s.buildPacket (BitVec.ofNat 64 (s.accord.current.toNat * 2 ^ 60 + f.length)) 0 f with
      | none => { s with ycp := { s.ycp with inband := (p, f) :: t } }
      | some (d, s) => State.inbandOut t (s.enqueue { desc := d, len := f.length, queue := q } 8256 none)

/-- Reply frames that wait for I36 leave. -/
def State.flushInband (s : State) : State := State.inbandOut s.ycp.inband s

/-- Send a reply frame behind those that wait. -/
def State.sendInband (s : State) (p : Nat) (f : List Byte) : State :=
  State.flushInband { s with ycp := { s.ycp with inband := s.ycp.inband ++ [(p, f)] } }

/-! ### Sending (R397, R400, R402) -/

/-- The reply ring runs and holds a posted entry. -/
def Bar0.replyPosted (b : Bar0) : Bool := b.rpl.enable && !b.rpl.halted && b.rpl.head != b.rpl.tail

/-- Command service runs: the firmware is up, or the boot ROM serves recovery (R364, R446). -/
def State.serves (s : State) : Bool := s.ycp.up || s.sec.recovery

/-- Bytes 10 to 15 of the reply entry at the ring's head as the device writes them: RLEN and FLAGS.DONE, little-endian (R4, R400). -/
def State.replyEntry (s : State) (r : List Byte) : Output :=
  .hostWrite (s.bar0.rpl.base.toNat + 16 * (s.bar0.rpl.head.toNat % 2 ^ s.bar0.rpl.size.toNat) + 10) (leBytes 2 r.length ++ [1, 0, 0, 0])

/-- Write replies that wait into posted reply entries, in the order in which they were produced. -/
def State.flushReplies : Nat → State → State
  | 0, s => s
  | n + 1, s =>
    match s.ycp.unsent with
    | [] => s
    | r :: rest =>
      if s.bar0.replyPosted && s.serves then
        State.flushReplies n (State.event (State.emit (State.emit { s with
          bar0 := { s.bar0 with rpl := { s.bar0.rpl with head := s.bar0.rpl.head + 1 } }
          ycp := { s.ycp with unsent := rest } } (.reply .pcie r)) (s.replyEntry r)) 0)
      else s

def State.flushAll (s : State) : State := State.flushReplies s.ycp.unsent.length s.flushInband

/-- Send a reply where its command came from; while the firmware does not run it is kept (R364). -/
def State.sendReply (s : State) (o : Origin) (l : List Byte) : State :=
  if !s.serves then { s with ycp := { s.ycp with late := s.ycp.late ++ [(o, l)] } }
  else match o with
  | .pcie => State.flushAll { s with ycp := { s.ycp with unsent := s.ycp.unsent ++ [l] } }
  | .inband p f => (s.sendInband p (inbandFrame f l)).emit (.reply o l)
  | .i2c => { s with ycp := { s.ycp with i2c := { st := 2, reply := l } } }

/-! ### The store (R393, R395) -/

/-- Issuer slots as manufactured (R393; DESIGN CHOICE, log 21). -/
def issuerReset : Issuer :=
  { ctl := 0xA80001FF, key := List.replicate 32 0, high := 0, stored := [], reservation := 0, statement := none }

def State.issuer (s : State) (i : Nat) : Issuer := Store.get issuerReset s.ycp.issuers i

def State.modIssuer (s : State) (i : Nat) (f : Issuer → Issuer) : State :=
  { s with ycp := { s.ycp with issuers := Store.modify issuerReset s.ycp.issuers i f } }

/-- Put a reply into the slot's store, in place of the one of that serial, while its window holds the serial. -/
def Issuer.put (i : Issuer) (r : Stored) : Issuer :=
  let rest := i.stored.filter (fun x => x.serial != r.serial)
  { i with stored := (rest ++ [r]).filter (fun x => i.high < x.serial + 64) }

/-- A command's reply: stored and sent. -/
def State.reply (s : State) (answerTo : ReplyTo) (status : Nat) (results : List Byte) : State :=
  (s.modIssuer answerTo.issuer (·.put { serial := answerTo.serial, status := BitVec.ofNat 16 status, results := results })).sendReply answerTo.origin
    (replyBytes answerTo false status 0 results)

/-- The one completion of an operation that ended: it replaces the stored reply (R397). -/
def State.completion (s : State) (answerTo : ReplyTo) (status : Nat) (results : List Byte) : State :=
  (s.modIssuer answerTo.issuer (fun i =>
    if i.stored.any (fun x => x.serial == answerTo.serial) then
      i.put { serial := answerTo.serial, status := BitVec.ofNat 16 status, results := results, completion := true } else i)).sendReply answerTo.origin
    (replyBytes answerTo true status 0 results)

/-- Complete the asynchronous command whose operation is `op`, where one is under way. -/
def State.complete (s : State) (op : AsyncOp) (status : Nat) (results : List Byte) : State :=
  match s.ycp.asyncs.find? (fun a => a.op == op) with
  | none => s
  | some a =>
    State.completion { s with ycp := { s.ycp with asyncs := s.ycp.asyncs.filter (fun a => a.op != op) } } a.answerTo status results

/-- The operation runs. -/
def State.running (s : State) (op : AsyncOp) : Bool := s.ycp.asyncs.any (fun a => a.op == op)

/-- The reply that a command deferred. -/
def State.undefer (s : State) (status : Nat) (results : List Byte) : State :=
  match s.ycp.deferred with
  | none => s
  | some d => State.reply { s with ycp := { s.ycp with deferred := none } } d.answerTo status results

/-! ### Lane recalibration ends (R48, R49) -/

/-- LANE_RECAL_DONE: the recalibration or full acquisition of a lane ends; its command completes, and one that did not
converge is reported. -/
def State.laneRecalDone (s : State) (l : Nat) (converged : Bool) : State :=
  let x := s.lane l
  if x.recal ≠ 0 then
    let s := s.modLane l (fun x => { x with recal := 0, ready := x.ready || converged })
    if converged then s.complete (.laneRecal l) stDone []
    else (s.raise (laneSrc l) 0x43).complete (.laneRecal l) stHwFault []
  else if x.acquiring then
    if converged then s.modLane l (fun x => { x with acquiring := false, lost := false, ready := true })
    else (s.modLane l (fun x => { x with acquiring := false })).raise (laneSrc l) 0x43
  else s

def execLaneRecalDone (lane : Nat) (converged : Bool) (s : State) : Host.Outcome State Fault Refusal :=
  answer (if lane < 40 && s.up (portIsl lane) then s.laneRecalDone lane converged else s)

end Sys2Proof.Machine
end

