-- ==== Sys2Proof/Machine/Slices.lean ====
section
/-! DEFINITION. The Atomic and Lock Unit's slices: aperture accesses, atomics, lock words and the scans of a master's reset
(spec/10_atomics_locks.md R252 to R268, spec/07_isa_reference.md R198 to R202, spec/09_table_store.md R231, R251). -/

namespace Sys2Proof.Machine

/-! ### Refused accesses (R267, R343, R376) -/

/-- Send POISON for the record that a request was made for. -/
def State.poisonFor (s : State) (r : MemReq) : State := s.send (r.thread / 128) 26 (.poison r.thread r.record r.gen)

def accCode : AccKind → Nat
  | .load => 1 | .store => 2 | .cnt => 3 | .atomic _ => 3

/-- A far or aperture access that is refused, reported by the core, as a consequence where an island in reset refused it: a load gives
zero and POISON, a store is complete and gives POISON, an atomic returns V and C. -/
def State.refuseMem (s : State) (r : MemReq) (kind : Nat) (conseq : Bool) : State :=
  let t := r.thread
  let s := s.raise (src (t / 128) (coreOf t)) kind
    { addr := r.addr, master := t, access := accCode r.kind, detail := recDetail r.gen r.record, conseq := conseq }
  match r.kind with
  | .load => s.answerLoad t r.id 0 none true
  | .atomic _ => s.answerLoad t r.id 0 (some (mkFl false false true true)) false
  | _ => (s.poisonFor r).doneStore t r.id

/-! ### Atomics (R201, R202) -/

/-- The result of an atomic: the word to write if one is written, the old value, and the flags. -/
def atomicOp (op : BitVec 3) (old acc new2 : W64) : Option W64 × W64 × Fl :=
  let zn := fun (c v : Bool) => resFl old c v
  match op.toNat with
  | 0 =>
    let eq := old.toNat % 2 ^ 32 == acc.toNat % 2 ^ 32
    (if eq then some (BitVec.ofNat 64 (acc.toNat / 2 ^ 32)) else none, BitVec.ofNat 64 (old.toNat % 2 ^ 32), mkFl eq false false false)
  | 1 => (if old = acc then some new2 else none, old, mkFl (old == acc) (old.getLsbD 63) false false)
  | 2 => (some (old + acc), old, zn (2 ^ 64 ≤ old.toNat + acc.toNat) (ovf (old.toInt + acc.toInt)))
  | 3 => (some acc, old, zn false false)
  | 4 => (some (old &&& acc), old, zn false false)
  | 5 => (some (old ||| acc), old, zn false false)
  | _ => if old.toNat < acc.toNat then (some (old + 1), old, zn false false) else (none, old, zn true false)

/-- An atomic that meets an uncorrectable word: ACC 0, V 1, Z, N and C 0. -/
def atomicPoison : Fl := mkFl false false false true

/-- A SPACE 0 atomic at its Table Store slice. -/
def State.tableAtomic (s : State) (r : MemReq) (op : BitVec 3) : State :=
  let b := apertureBank r.addr
  let a := s.aperturePhys r.tag b (r.addr % 0x200000)
  let phys := a / 1572864
  let n := 2 ^ r.size.toNat
  let s := (s.count (bankSrc phys) 0x10 2).count (sliceSrc b) 0x14
  if s.rowBad a then (s.tsEcc phys (a % 1572864 / 64) r.thread 3).answerLoad r.thread r.id 0 (some atomicPoison) true
  else
    let (w, old, fl) := atomicOp op (BitVec.ofNat 64 (mreadLE s.tables.rows a n)) r.data r.data2
    let s := match w with
      | some v => s.writeRows a (leBytes n v.toNat)
      | none => s
    s.answerLoad r.thread r.id old (some fl) false

/-- A SPACE 1 atomic, in the slice of the channel that holds its line's current copy (R268, R340): a read and, where it writes, a write
of the thread's class. A damaged line writes nothing and is reported by that channel (R329). -/
def State.dramAtomic (s : State) (r : MemReq) (op : BitVec 3) : State :=
  let n := 2 ^ r.size.toNat
  let line := r.addr / 64
  let (bad, s) := (s.dramIssue false [line] r.sc.toNat r.thread).readLines [line] r.thread 3
  if bad then s.answerLoad r.thread r.id 0 (some atomicPoison) true
  else
    let (w, old, fl) := atomicOp op (BitVec.ofNat 64 (leVal (s.dramBytes r.addr n))) r.data r.data2
    let s := match w with
      | some v => (s.dramIssue true [line] r.sc.toNat r.thread).dramWrite r.addr (leBytes n v.toNat)
      | none => s
    s.answerLoad r.thread r.id old (some fl) false

/-- ATOMIC_AT_SLICE (R253): the oldest message of the cluster to that island is an atomic. One at a channel waits while its line's channel is
stopped, trains or is pre-empted, and is refused where it is in reset (R267, R339). -/
def State.atomicArrive (s : State) (c i : Nat) : State :=
  match s.arrive c i with
  | some (.mem r) =>
    match r.kind with
    | .atomic op =>
      if s.hopAhead c i r.id then s
      else if i < 41 then (s.taken c i).tableAtomic r op
      else if s.dramGone r.addr (2 ^ r.size.toNat) then (s.taken c i).refuseMem r 0xA6 (!s.unmapped r.addr)
      else if s.dramOpen r.addr (2 ^ r.size.toNat) then (s.taken c i).dramAtomic r op
      else s
    | _ => s
  | _ => s

def execAtomicAtSlice (cluster island : Nat) (s : State) : Host.Outcome State Fault Refusal :=
  answer (if cluster < 26 ∧ ((37 ≤ island ∧ island ≤ 40) ∨ (43 ≤ island ∧ island ≤ 50)) then s.atomicArrive cluster island else s)

/-! ### Aperture loads, stores and CNT (R186, R254) -/

def State.apertureDo (s : State) (r : MemReq) : State :=
  let b := apertureBank r.addr
  let a := s.aperturePhys r.tag b (r.addr % 0x200000)
  let phys := a / 1572864
  let row := a % 1572864 / 64
  let n := 2 ^ r.size.toNat
  match r.kind with
  | .load =>
    let s := s.count (bankSrc phys) 0x10
    if s.rowBad a then (s.tsEcc phys row r.thread 1).answerLoad r.thread r.id 0 none true
    else s.answerLoad r.thread r.id (BitVec.ofNat 64 (mreadLE s.tables.rows a n)) none false
  | .store =>
    let s := s.count (bankSrc phys) 0x10
    (s.writeRows a (leBytes n r.data.toNat)).doneStore r.thread r.id
  | .cnt =>
    let s := (s.count (bankSrc phys) 0x10 2).count (sliceSrc b) 0x15
    if s.rowBad a then (s.tsEcc phys row r.thread 3).doneStore r.thread r.id
    else
      let v := BitVec.ofNat 64 (mreadLE s.tables.rows a 8) + r.data
      (s.writeRows a (leBytes 8 v.toNat)).doneStore r.thread r.id
  | .atomic _ => s

/-- APERTURE_ACCESS (R254). -/
def State.apertureArrive (s : State) (c b : Nat) : State :=
  match s.arrive c (37 + b / 8) with
  | some (.mem r) =>
    match r.kind with
    | .atomic _ => s
    | _ => if apertureBank r.addr = b ∧ s.hopAhead c (37 + b / 8) r.id = false then State.apertureDo (s.taken c (37 + b / 8)) r else s
  | _ => s

def execApertureAccess (cluster bank : Nat) (s : State) : Host.Outcome State Fault Refusal :=
  answer (if cluster < 26 && bank < 32 then s.apertureArrive cluster bank else s)

/-! ### Locks (R198, R199, R257 to R266) -/

inductive LockStatus where
  | ok | okAbandoned | queued | busy | foreign | notHeld | withdrawn | refused
  deriving DecidableEq, Repr

def LockStatus.code : LockStatus → Nat
  | .ok => 0 | .okAbandoned => 1 | .queued => 2 | .busy => 3 | .foreign => 4 | .notHeld => 5 | .withdrawn => 6 | .refused => 7

/-- Z for OK and OK_ABANDONED, C for OK_ABANDONED, N and V 0 (R198). -/
def LockStatus.fl (k : LockStatus) : Fl := mkFl (k == .ok || k == .okAbandoned) false (k == .okAbandoned) false

/-- The lock bank of a lock word. -/
def lockBank (w : Nat) : Nat := w / 2048

/-- A slice reads an uncorrectable lock word (R266): the lock is BROKEN, and its queue stays. -/
def State.lockEcc (s : State) (w master : Nat) (access : Nat := 4) : State :=
  if s.tables.badLocks.contains w then
    let s := { s with tables := { s.tables with badLocks := s.tables.badLocks.filter (· != w) } }
    let s := s.modLock w (fun l => { l with held := true, abandoned := true, broken := true, owner := 0xFFFF })
    s.raise (sliceSrc (lockBank w)) 0x82 { addr := w, master := master, access := access }
  else s

/-- Count and trace a grant. -/
def State.lockGranted (s : State) (w master : Nat) : State :=
  (s.count (sliceSrc (lockBank w)) 0x10).trace 6 0 master 0 0 0xFFFF 0 w

/-- A grant to a master that asks now: OK_ABANDONED is returned once (R257, R260). -/
def State.grantNow (s : State) (w master : Nat) : LockStatus × State :=
  let l := s.lock w
  (if l.abandoned then .okAbandoned else .ok,
   State.lockGranted (s.modLock w (fun l => { l with held := true, owner := BitVec.ofNat 16 master, abandoned := false })) w master)

/-- The lock passes to its oldest waiter, or becomes free; ABANDONED stands (R258, R260). -/
def State.passLock (s : State) (w : Nat) : State :=
  let l := s.lock w
  match l.queue with
  | [] => s.modLock w (fun l => { l with held := false, owner := 0 })
  | m :: rest =>
    let s := s.modLock w (fun l => { l with held := true, owner := m, queue := rest })
    let (q, s) := s.newId
    State.send (s.lockGranted w m.toNat) (37 + lockBank w / 8) (m.toNat / 128) (.lockGrant m.toNat w q)

/-- The status an owner gets who asks again (R199). -/
def State.ownAgain (s : State) (w : Nat) : LockStatus × State :=
  if (s.lock w).abandoned then (.okAbandoned, s.modLock w (fun l => { l with abandoned := false })) else (.ok, s)

def State.lockQueued (s : State) (master : Nat) : Bool :=
  s.tables.locks.any (fun e => e.2.queue.any (fun m => m.toNat == master))

/-- LKA (R199, R266). -/
def State.lockAcquire (s : State) (w t : Nat) : LockStatus × State :=
  let l := s.lock w
  if !l.broken && !l.held then s.grantNow w t
  else if !l.broken && l.owner.toNat = t then s.ownAgain w
  else if s.lockQueued t then (.refused, s)
  else (.queued, State.modTh ((s.modLock w (fun l => { l with queue := l.queue ++ [BitVec.ofNat 16 t] })).count (sliceSrc (lockBank w)) 0x11) t
    (fun x => { x with lockWait := some w }))

/-- LKT, and LOCK_TRY of the host (R199, R264, R266). -/
def State.lockTry (s : State) (w master : Nat) : LockStatus × State :=
  let l := s.lock w
  if l.broken then (.busy, s.count (sliceSrc (lockBank w)) 0x12)
  else if !l.held then s.grantNow w master
  else if l.owner.toNat = master then s.ownAgain w
  else (.busy, s.count (sliceSrc (lockBank w)) 0x12)

/-- A release by a master other than the owner (R259). -/
def State.foreignRelease (s : State) (w master : Nat) : LockStatus × State :=
  (.foreign, (s.count (sliceSrc (lockBank w)) 0x13).raise (sliceSrc (lockBank w)) 0x80 { addr := w, master := master, access := 4 })

/-- LKR (R199, R259, R260, R266). -/
def State.lockRelease (s : State) (w master : Nat) : LockStatus × State :=
  let l := s.lock w
  if l.broken then s.foreignRelease w master
  else if l.queue.any (fun m => m.toNat == master) then
    (.withdrawn, State.modTh (s.modLock w (fun l => { l with queue := l.queue.filter (fun m => m.toNat != master) })) master
      (fun x => { x with lockWait := none }))
  else if !l.held then (.notHeld, s)
  else if l.owner.toNat = master then (.ok, State.passLock (s.trace 6 1 master 0 0 0xFFFF 0 w) w)
  else s.foreignRelease w master

def State.lockDo (s : State) (t w : Nat) (op : LockOp) : LockStatus × State :=
  let s := s.lockEcc w t
  match op with
  | .acquire => s.lockAcquire w t
  | .tryLock => s.lockTry w t
  | .release => s.lockRelease w t

/-- LOCK_REQUEST (R258): a lock instruction's request reaches its slice. -/
def State.lockArrive (s : State) (c b : Nat) : State :=
  match s.arrive c (37 + b / 8) with
  | some (.lockReq id t w op) =>
    if lockBank w = b ∧ s.hopAhead c (37 + b / 8) id = false then
      let (k, s) := State.lockDo (s.taken c (37 + b / 8)) t w op
      s.answerLoad t id (BitVec.ofNat 64 k.code) (some k.fl) false
    else s
  | _ => s

def execLockRequest (cluster bank : Nat) (s : State) : Host.Outcome State Fault Refusal :=
  answer (if cluster < 26 && bank < 32 then s.lockArrive cluster bank else s)

/-! ### Resets of masters (R261 to R263, R265) -/

/-- One lock word of a scan: queued requests of the named masters are withdrawn, then a lock they own is freed, marked and
passed on. Answers whether it freed one. -/
def State.scanLock (s : State) (w : Nat) (named : Nat → Bool) : Bool × State :=
  let s := s.lockEcc w 0x1000
  let s := s.modLock w (fun l => { l with queue := l.queue.filter (fun m => !named m.toNat) })
  let l := s.lock w
  if l.held && !l.broken && named l.owner.toNat then (true, State.passLock (s.modLock w (fun l => { l with abandoned := true })) w)
  else (false, s)

/-- A slice's scan for a MASTER_RESET (R262; DEDUCED, log 14). -/
def State.scanBank (s : State) (b : Nat) (named : Nat → Bool) (master : Nat) : State :=
  let ws := (s.tables.locks.map (·.1) ++ s.tables.badLocks).filter (fun w => lockBank w == b)
  let (n, s) := ws.foldl (fun (a : Nat × State) w => let r := a.2.scanLock w named; (a.1 + b2n r.1, r.2)) (0, s)
  if n = 0 then s else s.raise (sliceSrc b) 0x81 { detail := n, master := master, conseq := true }

/-- MASTER_RESET: the token of one thread, or of every thread of its cluster. -/
def State.masterResetArrive (s : State) (c b : Nat) : State :=
  match s.arrive c (37 + b / 8) with
  | some (.masterReset t whole bank) =>
    if bank = b then
      State.scanBank (s.taken c (37 + b / 8)) b (fun m => if whole then m / 128 == c else m == t) t
    else s
  | _ => s

def execMasterReset (src' bank : Nat) (s : State) : Host.Outcome State Fault Refusal :=
  answer (if src' < 26 && bank < 32 then s.masterResetArrive src' bank else s)

/-- LOCK_LEASE_EXPIRE (R265): a host lock whose lease ends is freed and marked abandoned. -/
def State.leaseExpire (s : State) (w : Nat) : State :=
  if s.tables.leases.any (fun e => e.1 == w) then
    let m := Store.get 0 s.tables.leases w
    let s := { s with tables := { s.tables with leases := Store.erase s.tables.leases w, expired := s.tables.expired ++ [(w, m)] } }
    let s := s.lockEcc w m.toNat
    let l := s.lock w
    if l.held ∧ ¬ l.broken ∧ l.owner = m then
      State.raise (State.passLock (s.modLock w (fun l => { l with abandoned := true })) w) (sliceSrc (lockBank w)) 0x81
        { detail := 1, master := m.toNat }
    else s
  else s

def execLockLeaseExpire (lock : Nat) (s : State) : Host.Outcome State Fault Refusal :=
  answer (if lock < 65536 ∧ s.up (37 + lockBank lock / 8) then s.leaseExpire lock else s)

end Sys2Proof.Machine
end

