-- ==== Sys2Proof/Machine/Dram.lean ====
section
/-! DEFINITION. The DRAM channels: far accesses, command slots, refresh and its debt, temperature, scrub, training, the
initialisation sweep and Decant (spec/14_dram_controller.md R322 to R343). -/

namespace Sys2Proof.Machine

/-! ### FAR_ACCESS (R186, R254, R255, R332, R338, R340) -/

/-- A thread's far load or store enters the channel that holds its line; one that has moved is counted as forwarded (R340). -/
def State.farIssue (s : State) (r : MemReq) (v : W64) : State :=
  let h := s.homeChannel r.addr
  let c := (s.place' r.addr).1
  let s := if c = h then s else s.count (src (43 + h) 3) 0x11
  s.placeReq c { id := r.id, thread := r.thread, kind := if r.kind = .load then .load else .store, addr := r.addr, size := r.size, data := v, cls := r.sc
                 bad := s.lineBad (r.addr / 64), since := s.time.elapsed }

/-- A far load: an unswept frame reads zero, a held write of the address serves it, else it takes a read place. -/
def State.farLoad (s : State) (r : MemReq) : State :=
  let n := 2 ^ r.size.toNat
  let (c, o) := s.place' r.addr
  let v := BitVec.ofNat 64 (leVal (s.dramBytes r.addr n))
  if (s.chan c).unswept (o / 2 ^ 23) then s.answerLoad r.thread r.id 0 none false
  else if (s.chan c).writes.any (fun w => overlaps w.addr (2 ^ w.size.toNat) r.addr n) ∧ ¬ s.lineBad (r.addr / 64) then
    s.answerLoad r.thread r.id v none false
  else s.farIssue r v

/-- A far store is complete once the channel has accepted it (R255). A part of a damaged line leaves it damaged (R329). -/
def State.farStore (s : State) (r : MemReq) : State :=
  ((s.dramWrite r.addr (leBytes (2 ^ r.size.toNat) r.data.toNat)).farIssue r r.data).doneStore r.thread r.id

/-- FAR_ACCESS: refused where a channel it crosses is in reset or the reserve is unmapped; waits while one is stopped or trains, or while
its 64 places are taken. -/
def State.farArrive (s : State) (c ch : Nat) : State :=
  match s.arrive c (43 + ch) with
  | some (.mem r) =>
    let n := 2 ^ r.size.toNat
    let k := s.chan (s.place' r.addr).1
    match r.kind with
    | .atomic _ => s
    | .cnt => s
    | kind =>
      if s.hopAhead c (43 + ch) r.id then s
      else if s.dramGone r.addr n then (s.taken c (43 + ch)).refuseMem r 0xA6 (!s.unmapped r.addr)
      else if !s.dramRuns r.addr n then s
      else if kind = .load then (if k.reads.length < 64 then (s.taken c (43 + ch)).farLoad r else s)
      else if k.writes.length < 64 then (s.taken c (43 + ch)).farStore r else s
  | _ => s

def execFarAccess (cluster channel : Nat) (s : State) : Host.Outcome State Fault Refusal :=
  answer (if cluster < 26 && channel < 8 then s.farArrive cluster channel else s)

/-! ### Refresh (R334, R335) -/

/-- Quarters of a 1x operation that one operation of the mode in force is. -/
def modeQuarters (mode : BitVec 2) : Nat := match mode.toNat with | 2 => 2 | 3 => 1 | _ => 4

def DramChan.weight (c : DramChan) : Nat := if c.hot then 2 else 1

/-- The weighted debt in quarters: 32 is the limit. -/
def DramChan.weighted (c : DramChan) : Nat := max c.debt0 c.debt1 * c.weight

/-- DEBT of the channel object: owed operations in 1x units, a part counted as one. -/
def DramChan.owed (c : DramChan) : Nat := (max c.debt0 c.debt1 + 3) / 4

/-- Refresh pre-empts every class when the weighted debt has passed 8 (R335; DEDUCED, log 43). -/
def State.preemptCheck (s : State) (c : Nat) : State :=
  let k := s.chan c
  if 32 < k.weighted ∧ ¬ k.preempt then
    (s.modChan c (fun k => { k with preempt := true })).raise (dramSrc c) 0xA2 { detail := (k.weighted + 3) / 4 }
  else if k.weighted ≤ 32 ∧ k.preempt then s.modChan c (fun k => { k with preempt := false })
  else s

/-- REFRESH_DUE: one operation falls due for a rank, and the mode now set takes effect. At a weighted debt of 8 it is
performed ahead of every class. -/
def State.refreshDue (s : State) (c rank : Nat) : State :=
  let s := s.modChan c (fun k => { k with mode := BitVec.ofNat 2 (fld (s.obj 0x0090 c) 53 52) })
  let k := s.chan c
  let q := modeQuarters k.mode
  let debt := if rank = 0 then k.debt0 else k.debt1
  if debt * k.weight ≤ 32 ∧ 32 < (debt + q) * k.weight then s.count (dramSrc c) 0x1E
  else s.modChan c (fun k => if rank = 0 then { k with debt0 := k.debt0 + q } else { k with debt1 := k.debt1 + q })

def execRefreshDue (channel rank : Nat) (s : State) : Host.Outcome State Fault Refusal :=
  answer (if channel < 8 ∧ s.up (43 + channel) ∧ s.chanServes channel ∧ rank < (s.chan channel).ranks.toNat then s.refreshDue channel rank else s)

/-- One refresh operation is paid on every rank: every bank is closed. -/
def State.payOperation (s : State) (c : Nat) : State :=
  let k := s.chan c
  let q := modeQuarters k.mode
  let s := s.modChan c (fun k => { k with debt0 := k.debt0 - q, debt1 := k.debt1 - q })
  (s.count (dramSrc c) 0x1E (k.owed - (s.chan c).owed)).preemptCheck c

/-- Rows of a rank, and the rows of one Row-walk operation, 1/8192 of them (R334); a rank row holds 8 KiB. -/
def DramChan.rankRows (k : DramChan) : Nat := k.gib / max 1 k.ranks.toNat * 2 ^ 17
def DramChan.walkRows (k : DramChan) : Nat := max 1 (k.rankRows / 8192)

/-- The bank that Row-walk is in, going bank by bank. -/
def DramChan.walkBank (k : DramChan) : Nat := k.walkAt / max 1 (k.rankRows / 16)

/-- Row-walk's bank holds no request on any rank. -/
def DramChan.walkFree (k : DramChan) (bankOf : DramReq → Nat) : Bool := (k.reads ++ k.writes).all (fun r => bankOf r % 16 != k.walkBank)

/-- A command slot of refresh. Row-walk activates and precharges one row on every rank, and the operation is paid with its last row; a REF
of Standard is a whole operation and closes every bank (R334). Both ranks take their rows together, as R335's worked example has it. -/
def State.payRefresh (s : State) (c : Nat) : State :=
  let k := s.chan c
  if k.mode = 0 then
    let b := k.walkBank
    let last := k.walk + 1 ≥ k.walkRows
    let s := s.modChan c (fun k => { k with walkAt := if k.walkAt + 1 < k.rankRows then k.walkAt + 1 else 0, walk := if last then 0 else k.walk + 1
                                            openRow := Store.erase (Store.erase k.openRow b) (b + 16) })
    if last then s.payOperation c else s
  else (s.modChan c (fun k => { k with openRow := [] })).payOperation c

/-! ### DRAM_COMMAND_SLOT (R332) -/

/-- The class order SC1, SC0, SC2, SC3. -/
def classRank (k : Nat) : Nat := match k with | 1 => 0 | 0 => 1 | 2 => 2 | _ => 3

/-- DEDUCED, log 57. -/
def State.reqAged (s : State) (r : DramReq) : Bool := s.param (0x0D + r.cls.toNat) ≤ s.time.elapsed - r.since

def isRead (r : DramReq) : Bool := match r.kind with | .load => true | _ => false

/-- The oldest request of a list; reads before writes of one age. -/
def oldestReq (l : List DramReq) : Option DramReq :=
  l.foldl (fun b r => match b with | none => some r | some x => if r.since < x.since then some r else some x) none

def State.rowHit (s : State) (c : Nat) (r : DramReq) : Bool :=
  let (b, row) := (s.chan c).bankRow (s.place' r.addr).2
  Store.get 0 (s.chan c).openRow b == row + 1

/-- The bank of a request's line in the channel that holds it. -/
def State.reqBank (s : State) (c : Nat) (r : DramReq) : Nat := ((s.chan c).bankRow (s.place' r.addr).2).1

/-- The request does not need to activate or precharge a bank that another holds. -/
def State.bankFor (s : State) (c : Nat) (r : DramReq) : Bool :=
  match (s.chan c).hold with
  | none => true
  | some b => s.reqBank c r != b || s.rowHit c r || r.opened

/-- The request the slot goes to, and whether age promoted it. -/
def State.chooseReq (s : State) (c : Nat) : Option (DramReq × Bool) :=
  let k := s.chan c
  let reads := k.reads.filter (s.bankFor c)
  let writes := k.writes.filter (s.bankFor c)
  match oldestReq ((reads ++ writes).filter s.reqAged) with
  | some r => some (r, true)
  | none =>
    match [1, 0, 2, 3].find? (fun i => (reads ++ writes).any (fun r => r.cls.toNat == i)) with
    | none => none
    | some i =>
      let rd := reads.filter (fun r => r.cls.toNat == i)
      let wr := writes.filter (fun r => r.cls.toNat == i)
      let l := if 48 ≤ wr.length ∨ rd.isEmpty then wr else rd
      ((oldestReq (l.filter (s.rowHit c))).or (oldestReq l)).map (fun r => (r, false))

/-- Requests that wait at the boundary take the places that have come free, in their order. -/
def DramChan.takeInbound (k : DramChan) : DramChan :=
  k.inbound.foldl (fun (k : DramChan) r => match r.kind with
    | .load => if k.reads.length < 64 then { k with reads := k.reads ++ [r] } else { k with inbound := k.inbound ++ [r] }
    | _ => if k.writes.length < 64 then { k with writes := k.writes ++ [r] } else { k with inbound := k.inbound ++ [r] })
    { k with inbound := [] }

/-- The command that opens a request's row: a promoted request holds its bank from then on. -/
def State.openFor (s : State) (c : Nat) (r : DramReq) (aged : Bool) : State :=
  let (b, row) := (s.chan c).bankRow (s.place' r.addr).2
  let mark := fun (x : DramReq) => if x = r then { x with opened := true } else x
  let s := if r.opened then s else s.count (dramSrc c) 0x1D
  s.modChan c (fun k => { k with
    reads := k.reads.map mark, writes := k.writes.map mark, openRow := Store.set 0 k.openRow b (row + 1), hold := if aged then some b else k.hold })

/-- The column command of a request: it is served and counted, and a far load of a thread is answered. -/
def State.serve (s : State) (c : Nat) (r : DramReq) (aged : Bool) (conseq : Bool := false) : State :=
  let u := dramSrc c
  let i := r.cls.toNat
  let s := if r.opened then s else s.count u 0x1C
  let s := s.count u ((if isRead r then 0x10 else 0x14) + i)
  let s := if aged then s.count u (0x18 + i) else s
  let b := s.reqBank c r
  let s := s.modChan c (fun k => DramChan.takeInbound { k with
    reads := k.reads.erase r, writes := k.writes.erase r, hold := if r.opened && k.hold == some b then none else k.hold })
  if isRead r ∧ ¬ r.quiet then
    if r.bad then (s.dramUe r.addr r.thread 1 conseq).answerLoad r.thread r.id 0 none true
    else (s.decodeLine (r.addr / 64)).answerLoad r.thread r.id r.data none false
  else s

/-- A command slot of the sweep: the next line in ascending frame order is written whole (R338). -/
def State.sweepLine (s : State) (c : Nat) : State :=
  (s.modChan c (fun k => { k with swept := k.swept + 1 })).count (dramSrc c) 0x17

/-- The channel's sweep has lines to write. -/
def DramChan.sweeps (k : DramChan) : Bool := !k.sweepDone && decide (k.swept < k.gib * 2 ^ 24)

/-- DRAM_COMMAND_SLOT (R332): refresh that pre-empts, else the next command of the chosen request, else refresh or sweep work. -/
def State.commandSlot (s : State) (c : Nat) : State :=
  let k := s.chan c
  if k.preempt then s.payRefresh c
  else match s.chooseReq c with
    | some (r, aged) => if s.rowHit c r then s.serve c r aged else s.openFor c r aged
    | none =>
      if 0 < max k.debt0 k.debt1 ∧ (k.mode ≠ 0 ∨ k.walkFree (s.reqBank c) = true) then s.payRefresh c
      else if k.sweeps then s.sweepLine c else s

def execDramCommandSlot (channel : Nat) (s : State) : Host.Outcome State Fault Refusal :=
  answer (if channel < 8 && s.up (43 + channel) && s.chanServes channel then s.commandSlot channel else s)

/-! ### Temperature (R336) -/

/-- The regime a channel runs in changes: owed operations take their new weight at once (R335). -/
def State.setHot (s : State) (c : Nat) (hot : Bool) : State := (s.modChan c (fun k => { k with hot := hot })).preemptCheck c

/-- DRAM_TEMP_READ: a sensor reading in °C. -/
def State.tempRead (s : State) (c : Nat) (t : Int) : State :=
  let k := s.chan c
  let s := s.modChan c (fun k => { k with temp := BitVec.ofInt 8 t, lost := false })
  let s := s.setHot c (if 85 < t then true else if t ≤ 83 then false else k.hot)
  if 95 < t then s.raise (src (43 + c) 4) 0xA3 else s

def execDramTempRead (channel : Nat) (temp : Int) (s : State) : Host.Outcome State Fault Refusal :=
  answer (if channel < 8 ∧ s.up (43 + channel) ∧ (s.chan channel).st ≠ .absent ∧ ¬ (s.chan channel).noSensor then s.tempRead channel temp else s)

/-- DRAM_TEMP_LOST: no reading for 64 ms; the channel runs hot until one returns. -/
def State.tempLost (s : State) (c : Nat) : State :=
  if (s.chan c).lost then s
  else ((s.modChan c (fun k => { k with lost := true })).setHot c true).raise (src (43 + c) 4) 0xA4

def execDramTempLost (channel : Nat) (s : State) : Host.Outcome State Fault Refusal :=
  answer (if channel < 8 ∧ s.up (43 + channel) ∧ (s.chan channel).st ≠ .absent ∧ ¬ (s.chan channel).noSensor then s.tempLost channel else s)

/-! ### Patrol scrub (R327 to R330) -/

/-- An upset turns a bit of a line's stored burst; one in a frame not swept yet is written over. -/
def State.upset (s : State) (c : Nat) (u : Upset) : State :=
  let p := s.place' (64 * u.line)
  let k := s.chan p.1
  if 64 * u.line < s.dramSize ∧ p.1 = c ∧ u.dq < 80 ∧ u.beat < 8 ∧ ¬ k.unswept (p.2 / 2 ^ 23) then
    { s with dram := { s.dram with flips := Store.modify 0 s.dram.flips u.line (· ^^^ BitVec.twoPow 640 (dqBit k.width u.dq u.beat)) } }
  else s

/-- Lines of the channel whose stored burst is no codeword. -/
def State.wrongLines (s : State) (c : Nat) : List Nat :=
  ((s.dram.bad ++ s.dram.flips.map (·.1)).eraseDups).filter (fun l => (s.place' (64 * l)).1 == c)

/-- A line that has been read and is written again: as its codeword, or with every check symbol inverted where it is uncorrectable. -/
def State.writeBack (s : State) (l : Nat) : State :=
  let bad := s.lineBad l
  { s with dram := { s.dram with
      flips := Store.erase s.dram.flips l, bad := if bad && !s.dram.bad.contains l then s.dram.bad ++ [l] else s.dram.bad } }

/-- PATROL_SCRUB: one pass reads every line of the channel in class SC3, reports the uncorrectable ones and writes back those it corrects.
`before` are upsets that struck before the pass, `after` those that strike when it is over (DESIGN CHOICE, log 58). -/
def State.patrol (s : State) (c : Nat) (before after : List Upset) : State :=
  let s := (before.foldl (fun s u => s.upset c u) s).count (dramSrc c) 0x13 ((s.chan c).gib * 2 ^ 24)
  let s := (s.wrongLines c).foldl (fun s l =>
    if s.lineBad l then s.dramUe (64 * l) 0x4103 0xA else ((s.decodeLine l).writeBack l).count (dramSrc c) 0x17) s
  after.foldl (fun s u => s.upset c u) s

def execPatrolScrub (channel : Nat) (before after : List Upset) (s : State) : Host.Outcome State Fault Refusal :=
  answer (if channel < 8 && s.up (43 + channel) && s.chanServes channel then s.patrol channel before after else s)

/-! ### Training, drift and the sweep (R337, R338) -/

/-- A channel fails a training step: it leaves service, and TRAIN_FAIL gives the step in ADDRESS (DEDUCED, log 43). -/
def State.trainFail (s : State) (c step : Nat) : State :=
  (s.modChan c (fun k => { k with st := .absent, retrain := false, step := step - 1 })).raise (src (43 + c) 1) 0xA5 { addr := step }

/-- The six training steps of R337 have passed in their order; the DQS delays stand at their trained values. -/
def DramChan.trained (k : DramChan) : DramChan := { k with retrain := false, step := 6, dqs := [] }

/-- A delay moves by one step; each moves at most once in a window. -/
def DramChan.moveDelay (k : DramChan) (m : DelayMove) : DramChan :=
  { k with dqs := Store.modify 0 k.dqs ((if m.write then 64 else 0) + m.rank * 32 + m.device) (· + (if m.up then 1 else -1)) }

def sameDelay (m n : DelayMove) : Bool := m.rank == n.rank && m.device == n.device && m.write == n.write

/-- The moves of one window: those of delays the channel has, the first of each. -/
def DramChan.window (k : DramChan) (l : List DelayMove) : List DelayMove :=
  ((l.filter (fun m => decide (m.rank < k.ranks.toNat ∧ m.device < (if k.width = 0 then 20 else 10)))).foldl (fun out m =>
    if out.any (sameDelay m) then out else out ++ [m]) [])

/-- DRIFT_TRACK: each DQS delay moves by at most one step, or tracking fails at the read gate. -/
def execDriftTrack (channel : Nat) (found : Drift) (s : State) : Host.Outcome State Fault Refusal :=
  answer (if channel < 8 && s.up (43 + channel) && (s.chan channel).st == .service then
    (if found.failed then s.trainFail channel 4
     else s.modChan channel (fun k => (k.window found.moves).foldl DramChan.moveDelay { k with drift := k.drift + 1 })) else s)

/-- ZQ_SHORT: the short calibration of every rank, or its failure. -/
def execZqShort (channel : Nat) (failed : Bool) (s : State) : Host.Outcome State Fault Refusal :=
  answer (if channel < 8 && s.up (43 + channel) && (s.chan channel).st == .service then
    (if failed then s.trainFail channel 1 else s.modChan channel (fun k => { k with zq := k.zq + 1 })) else s)

/-- INIT_SWEEP_DONE: every frame has been swept, and the Steward learns of it. -/
def execInitSweepDone (channel : Nat) (s : State) : Host.Outcome State Fault Refusal :=
  answer (if channel < 8 && s.up (43 + channel) && (!(s.chan channel).sweepDone || !(s.chan channel).again.isEmpty) then
    (s.modChan channel (fun k => { k with sweepDone := true, early := [], again := [], swept := k.gib * 2 ^ 24 })).stewardEvent (.sweepDone channel) else s)

/-- DRAM_CA_PARITY (R368): the command is issued again, and the error is reported. -/
def execDramCaParity (channel : Nat) (s : State) : Host.Outcome State Fault Refusal :=
  answer (if channel < 8 ∧ s.up (43 + channel) ∧ (s.chan channel).st ≠ .absent then
    (s.modChan channel (fun k => { k with caRetry := k.caRetry + 1 })).raise (src (43 + channel) 1) 0xA7 else s)

/-! ### Decant (R339 to R341) -/

def State.modDecant (s : State) (f : Decant → Decant) : State :=
  { s with dram := { s.dram with decant := s.dram.decant.map f } }

/-- Frames of a channel that are home to chunks below the reserve. -/
def State.framesBelow (s : State) (c lim : Nat) : List Nat :=
  (List.range ((s.chan c).gib * 128)).filter (fun f => s.frameAddr c f 0 < lim)

/-- Destinations: the reserve's chunks on the other channels, taken round-robin over those channels. -/
def State.destinations (s : State) (c : Nat) : List (Nat × Nat) :=
  let others := (List.range s.dram.n).filter (· != c)
  let lim := s.reserveBase
  (List.range ((s.chan c).gib * 128)).flatMap (fun f => (others.filter (fun o => lim ≤ s.frameAddr o f 0)).map (fun o => (o, f)))

/-- Step 2 and 3 of R339: the reserve is unmapped and every chunk of the channel has its destination. -/
def State.startDecant (s : State) (c : Nat) (hold : Bool) : State :=
  let homes := s.framesBelow c s.reserveBase
  let chunks := (homes.zip (s.destinations c)).map (fun e => (e.1, e.2.1, e.2.2))
  { s with dram := { s.dram with decant := some { channel := c, hold := hold, phase := .copyOut, chunks := chunks } } }

/-- Every destination channel and the channel itself run and serve: a block reset of one pauses the mover until it is back in service
(R341). -/
def State.moverRuns (s : State) (d : Decant) : Bool :=
  let serves := fun (c : Nat) => s.up (43 + c) && s.chanServes c
  serves d.channel && d.chunks.all (fun e => serves e.2.1)

/-- Lines that go in the direction under way. -/
def Decant.total (d : Decant) : Nat := if d.phase = .aborting then d.limit else d.chunks.length * frameLines

/-- Lines of chunk `i` that the mover copies as it goes from `d.moved` on by `n`. -/
def Decant.stretch (d : Decant) (i n : Nat) : Nat × Nat := (d.cursor i d.moved, d.cursor i (d.moved + n))

/-- The mover reads lines and writes them anew: uncorrectable ones are reported and keep inverted check symbols, others are written as their
codeword; on both channels it works in SC3 (R339, R341). -/
def State.copyLines (s : State) (d : Decant) (n : Nat) : State :=
  let wrong := ((s.dram.bad ++ s.dram.flips.map (·.1)).eraseDups).filter (fun l =>
    s.homeChannel (64 * l) == d.channel && d.chunks.zipIdx.any (fun e =>
      let p := d.stretch e.2 n
      e.1.1 == s.homeFrame (64 * l) && decide (p.1 ≤ chunkOff (64 * l) / 64) && decide (chunkOff (64 * l) / 64 < p.2)))
  let s := wrong.foldl (fun s l => (if s.lineBad l then s.dramUe (64 * l) 0x4101 8 else s.decodeLine l).writeBack l) s
  let out := d.phase = .copyOut
  d.chunks.zipIdx.foldl (fun s e =>
    let p := d.stretch e.2 n
    let k := p.2 - p.1
    if k = 0 then s else (s.count (dramSrc (if out then d.channel else e.1.2.1)) 0x13 k).count (dramSrc (if out then e.1.2.1 else d.channel)) 0x17 k) s

/-- The mover moves `n` more lines, each counted. -/
def State.moveLines (s : State) (n : Nat) : State :=
  match s.dram.decant with
  | none => s
  | some d =>
    let n := min n (d.total - d.moved)
    ((s.copyLines d n).modDecant (fun d => { d with moved := d.moved + n })).count (src (43 + d.channel) 3) 0x10 n

/-- DECANT_COPY_OUT_DONE: the last chunk is copied; the channel reads DECANTED and retrains. -/
def State.copyOutDone (s : State) : State :=
  match s.dram.decant with
  | some d =>
    if d.phase = .copyOut ∧ s.moverRuns d then
      let s := s.moveLines d.total
      (s.modDecant (fun d => { d with phase := .retrain })).modChan d.channel (fun k => { k with st := .decanted, retrain := true })
    else s
  | none => s

def execDecantCopyOutDone (s : State) : Host.Outcome State Fault Refusal := answer s.copyOutDone

/-- CHANNEL_RETRAIN_DONE: the retraining of a Decant, or after a block reset, ends (R341, R342). -/
def State.retrainDone (s : State) (c : Nat) (failed : Option Nat) : State :=
  match s.dram.decant with
  | some d =>
    if d.channel = c ∧ d.phase = .retrain then
      match failed with
      | some step =>
        let s := (s.modChan c (fun k => { k with retrain := false, step := step - 1 })).raise (src (43 + c) 1) 0xA5 { addr := step }
        (s.modDecant (fun d => { d with phase := .held, failed := true })).complete (.decant c) stHwFault []
      | none => (s.modChan c DramChan.trained).modDecant (fun d => { d with phase := if d.hold then .held else .copyBack, moved := 0, failed := false })
    else s
  | none => s

def State.trainDone (s : State) (c : Nat) (failed : Option Nat) : State :=
  if (s.chan c).st = .training then
    match failed with
    | some step => s.trainFail c step
    | none =>
      -- a channel that a Decant has emptied is DECANTED again until its contents are home (R339 step 6)
      let away := s.dram.decant.any (fun d => d.channel == c && (d.phase == .retrain || d.phase == .held || d.phase == .copyBack))
      (s.modChan c (fun k => { k.trained with st := if away then .decanted else .service, retrain := away && k.retrain })).returned (43 + c)
  else s.retrainDone c failed

def execChannelRetrainDone (channel : Nat) (failedStep : Option Nat) (s : State) : Host.Outcome State Fault Refusal :=
  answer (if channel < 8 && s.up (43 + channel) then s.trainDone channel failedStep else s)

/-- Clear every byte and mark of a borrowed chunk: it re-enters as an unswept frame (R339 step 7). -/
def State.clearChunk (s : State) (c f : Nat) : State :=
  let held := fun (a : Nat) => s.homeChannel a == c && s.homeFrame a == f
  let s := s.modChan c (fun k => { k with again := (k.again.filter (· != f)) ++ [f] })
  { s with dram := { s.dram with data := s.dram.data.filter (fun e => !held e.1), bad := s.dram.bad.filter (fun l => !held (l * 64))
                                 flips := s.dram.flips.filter (fun e => !held (e.1 * 64)) } }

/-- DECANT_DONE: the last chunk is home; the reserve is mapped again and the command completes. -/
def State.decantDone (s : State) : State :=
  match s.dram.decant with
  | some d =>
    if (d.phase = .copyBack ∨ d.phase = .aborting) ∧ s.moverRuns d then
      let s := s.moveLines d.total
      let s := (d.chunks.foldl (fun s e => s.clearChunk e.2.1 e.2.2) s).modChan d.channel (fun k => { k with st := .service })
      State.complete { s with dram := { s.dram with decant := none, ended := some (d.channel, s.time.elapsed) } } (.decant d.channel) (if d.phase = .aborting then stCancelled else stDone) []
    else s
  | none => s

def execDecantDone (s : State) : Host.Outcome State Fault Refusal := answer s.decantDone

end Sys2Proof.Machine
end

