-- ==== Sys2Proof/Machine/Tables.lean ====
section
/-! DEFINITION. Tables: where an entry lies, what an Accord sees, lookups, writes, relocation, Maceration, resize, bank
replacement, scrub and sweep (spec/09_table_store.md R230 to R251, spec/18_command_reference.md R426). -/

namespace Sys2Proof.Machine

/-! ### Versions (R235) -/

/-- Draining, current and staged Accords in that order; a tag that names none of them is earlier than all three. -/
def State.tagRank (s : State) (a : Nat) : Nat :=
  if a = s.accord.staged.toNat then 3 else if s.accord.live ∧ a = s.accord.current.toNat then 2
  else if s.accord.drainValid ∧ a = s.accord.draining.toNat then 1 else 0

def State.visible (s : State) (a : Nat) (e : TEntry) : Bool :=
  (e.born.toNat == a || s.tagRank e.born.toNat < s.tagRank a) && (e.dead == e.born || s.tagRank a < s.tagRank e.dead.toNat)

/-- Entries with the latest BORN first. -/
def State.latestFirst (s : State) (l : List TEntry) : List TEntry :=
  [3, 2, 1, 0].flatMap (fun r => l.filter (fun e => s.tagRank e.born.toNat == r))

/-! ### Entries (R240, R246, R249) -/

/-- Logical bank and row of a slot's data. -/
def slotRow (d : ObjWord) (e : TEntry) : Nat × Nat :=
  let b := bucketRow d e.way e.bucket
  (b.1, b.2 + 1 + e.slot * dSlot d / 64)

def State.badRow (s : State) (bank row : Nat) : Bool := s.tables.bad.contains (s.physBank bank * 24576 + row)

/-- The entry in 32 bytes of an EXT table, where one is there. -/
def extEntry (d : ObjWord) (w i k : Nat) (l : List Byte) : Option TEntry :=
  let tag := leVal (slice l 28 4)
  if bitAt tag 23 then
    some { key := l.take (dKeyLen d), result := slice l 20 8, born := BitVec.ofNat 4 (bits tag 31 28), dead := BitVec.ofNat 4 (bits tag 27 24)
           way := w, bucket := i, slot := k }
  else none

def extBytes (e : TEntry) : List Byte :=
  padTo 20 e.key ++ e.result ++ leBytes 4 (e.born.toNat * 2 ^ 28 + e.dead.toNat * 2 ^ 24 + 2 ^ 23)

/-- The structure has been begun: its rows or its region were cleared as its first entry was written. -/
def State.begun (s : State) (x : TStruct) : Bool := s.tables.structs.any (fun t => t.num == x.num && t.desc == x.desc)

/-- The entries in one bucket. -/
def State.inBucket (s : State) (x : TStruct) (w i : Nat) : List TEntry :=
  if dKind x.desc = 6 then
    if !s.begun x then [] else
    (List.range 2).filterMap (fun k => extEntry x.desc w i k (s.dramBytes (extBucket x.desc (x.logOf i) w i + 32 * k) 32))
  else x.entries.filter (fun e => e.way == w && e.bucket == i)

/-- Way and bucket of the 64-byte unit `k` of an EXT table's region. -/
def TStruct.extPlace (x : TStruct) (k : Nat) : Nat × Nat :=
  let of' := fun (log : Nat) => if k < 2 ^ log then (0, k) else (1, k - 2 ^ log)
  match x.migr with
  | none => of' (dLog x.desc)
  | some m => if 2 ^ m.oldLog ≤ k ∧ k < 2 ^ (m.oldLog + 1) ∧ m.cursor ≤ k - 2 ^ m.oldLog then of' m.oldLog else of' (m.oldLog + 1)

/-- The unit is a bucket in force: past the old region only those that the cursor has passed are (R249). -/
def TStruct.extUnit (x : TStruct) (k : Nat) : Bool :=
  match x.migr with
  | none => true
  | some m => k < 2 ^ (m.oldLog + 1) || k % 2 ^ m.oldLog < m.cursor

/-- Every entry or sub-rule of a structure. -/
def State.allEntries (s : State) (x : TStruct) : List TEntry :=
  if dKind x.desc = 6 then
    if !s.begun x then [] else
    let base := dExt x.desc * 2 ^ 20
    let units := ((s.dram.data.filter (fun e => base ≤ e.1 && e.1 < base + 2 ^ (dLog x.desc + 7))).map (fun e => (e.1 - base) / 64)).eraseDups.filter x.extUnit
    units.flatMap (fun k => let p := x.extPlace k; s.inBucket x p.1 p.2)
  else x.entries

/-- The 32-bit tag of an entry of a table with `log` buckets in force, and the S bytes of its slot (R240). -/
def tagWord (d : ObjWord) (log : Nat) (e : TEntry) : Nat :=
  e.born.toNat * 2 ^ 28 + e.dead.toNat * 2 ^ 24 + 2 ^ 23 + tagOf d log e.way e.key

def slotBytes (d : ObjWord) (e : TEntry) : List Byte := padTo (dSlot d) (if dCompact d then e.result else e.key ++ e.result)

/-- Lay an entry's bytes at its place, or zeros there: its tag and slot in the rows of an EXACT table, its 32 bytes in the DRAM of
an EXT one (R240, R246; the byte order of a tag: DESIGN CHOICE, log 29). -/
def State.layEntry (s : State) (x : TStruct) (on : Bool) (e : TEntry) : State :=
  let log := x.logOf e.bucket
  match dKind x.desc with
  | 6 =>
    let a := extBucket x.desc log e.way e.bucket + 32 * e.slot
    (s.dramIssue true [a / 64] 1 0x4100).dramWrite a (if on then extBytes e else List.replicate 32 0)
  | 2 =>
    let b := bucketRow x.desc e.way e.bucket
    let at' := fun (row o : Nat) => rowByte (s.physBank b.1) (row * 64 + o)
    (s.putRows (at' b.2 (4 * e.slot)) (leBytes 4 (if on then tagWord x.desc log e else 0))).putRows
      (at' (b.2 + 1) (e.slot * dSlot x.desc)) (if on then slotBytes x.desc e else List.replicate (dSlot x.desc) 0)
  | _ => s

/-- Replace a structure by one with other entries: the bytes of the old ones go and those of the new ones are laid. -/
def State.setEntries (s : State) (x y : TStruct) : State :=
  let s := (s.allEntries x).foldl (fun s e => s.layEntry x false e) s
  let s := s.putStruct (if dKind y.desc = 6 then { y with entries := [] } else y)
  y.entries.foldl (fun s e => s.layEntry y true e) s

/-- Begin a structure: its rows, or its region of DRAM, hold no entry yet (R247; DESIGN CHOICE, log 29). -/
def State.begin' (s : State) (x : TStruct) : State :=
  if s.begun x then s
  else
    let s := match dKind x.desc with
      | 6 => s.dramClear (dExt x.desc * 2 ^ 20) (2 ^ (dLog x.desc + 7))
      | 2 => (List.range (dBanks x.desc)).foldl (fun (s : State) k => { s with tables := { s.tables with
          rows := mclear s.tables.rows (s.directAddr x.desc 1 k 0) (dRows x.desc * 64) } }) s
      | _ => s
    s.putStruct { num := x.num, desc := x.desc }

/-- Write an entry at its place, and empty a place. -/
def State.putEntry (s : State) (x : TStruct) (e : TEntry) : State :=
  let s := s.begin' x
  let x := s.struct x.num x.desc
  let s := if dKind x.desc = 6 then s else s.putStruct { x with
    entries := x.entries.filter (fun o => !(o.way == e.way && o.bucket == e.bucket && o.slot == e.slot)) ++ [e] }
  s.layEntry x true e

def State.dropEntry (s : State) (x : TStruct) (e : TEntry) : State :=
  let x := s.struct x.num x.desc
  let s := if dKind x.desc = 6 then s else s.putStruct { x with
    entries := x.entries.filter (fun o => !(o.way == e.way && o.bucket == e.bucket && o.slot == e.slot)) }
  s.layEntry x false e

/-- The entries of both buckets of a key. -/
def State.bucketsOf (s : State) (x : TStruct) (key : List Byte) : List TEntry :=
  s.inBucket x 0 (x.place 0 key).2 ++ s.inBucket x 1 (x.place 1 key).2

/-! ### Lookups (R217, R241, R244 to R246) -/

inductive Look where
  | found (result : List Byte)
  | miss
  | damaged
  deriving DecidableEq, Repr

/-- Who looks up: the master, the access code, and the bank's class event (FG or HOST). -/
structure By where
  master : Nat
  access : Nat
  ev     : Nat
  deriving DecidableEq, Repr

/-- One access of a row of a logical bank: counted, and reported where the row is uncorrectable. -/
def State.readRow (s : State) (b : By) (bank row : Nat) : Bool × State :=
  let phys := s.physBank bank
  let s := s.count (bankSrc phys) b.ev
  if s.badRow bank row then (true, s.tsEcc phys row b.master b.access) else (false, s)

/-- Read the slot rows of the candidates until one holds the key. -/
def State.readCandidates (b : By) (d : ObjWord) (key : List Byte) : List TEntry → State → Look × State
  | [], s => (.miss, s)
  | e :: t, s =>
    let p := slotRow d e
    let (bad, s) := s.readRow b p.1 p.2
    if bad then (.damaged, s)
    else if e.key = key then (.found e.result, s)
    else State.readCandidates b d key t (s.count (bankSrc (s.physBank p.1)) 0x14)

def State.lookExact (s : State) (x : TStruct) (a : Nat) (key : List Byte) (b : By) : Look × State :=
  let d := x.desc
  let p0 := x.place 0 key
  let p1 := x.place 1 key
  let r0 := bucketRow d 0 p0.2
  let r1 := bucketRow d 1 p1.2
  let (bad0, s) := s.readRow b r0.1 r0.2
  let (bad1, s) := s.readRow b r1.1 r1.2
  if bad0 || bad1 then (.damaged, s)
  else
    let cands := (s.bucketsOf x key).filter (fun e =>
      s.visible a e && tagOf d (x.logOf e.bucket) e.way e.key == tagOf d (x.logOf e.bucket) e.way key)
    State.readCandidates b d key (s.latestFirst cands) s

def State.lookExt (s : State) (x : TStruct) (a : Nat) (key : List Byte) (b : By) : Look × State :=
  -- both buckets are read in service class SC1 (R331)
  let lines := (x.keyLines key).map (· / 64)
  let (bad, s) := (s.dramIssue false lines 1 b.master).readLines lines b.master b.access
  if bad then (.damaged, s)
  else match s.latestFirst ((s.bucketsOf x key).filter (fun e => s.visible a e && e.key == key)) with
    | e :: _ => (.found e.result, s)
    | [] => (.miss, s)

/-- The rows that `n` accesses of a prefix, range or ternary table meet, whose places the spec leaves to the builder: free rows
(DESIGN CHOICE, log 2). -/
def State.someRows (s : State) (d : ObjWord) (n : Nat) : List (Nat × Nat) :=
  (List.range n).map (fun i =>
    let v := (Config.freeWord (s.fresh + i)).toNat % (dBanks d * (dRows d + 1))
    (dFirst d + v % dBanks d, dBase d + v / dBanks d % max 1 (dRows d)))

/-- Read the rows that `n` such accesses meet. -/
def State.readSome (b : By) (d : ObjWord) : Nat → State → Bool × State
  | 0, s => (false, s)
  | n + 1, s =>
    let p := (s.someRows d 1).headD (0, 0)
    let (bad, s) := State.readRow { s with fresh := s.fresh + 1 } b p.1 p.2
    let (more, s) := State.readSome b d n s
    (bad || more, s)

/-- The first `n` bits of two byte strings agree. -/
def bitsAgree (n : Nat) (a b : List Byte) : Bool := (List.range n).all (fun i => msbBit a i == msbBit b i)

/-- The prefixes that the Accord `a` sees: its own root, else the one before it (R237). -/
def State.rootOf (s : State) (x : TStruct) (a : Nat) : List LpmEntry :=
  let own := fun (t : Nat) => Store.get none x.roots t
  let rec' := if s.accord.live then own s.accord.current.toNat else none
  let dr := if s.accord.drainValid then own s.accord.draining.toNat else none
  let r := s.tagRank a
  (((own a).or (if 2 ≤ r then rec' else none)).or (if 1 ≤ r then dr else none)).getD []

def longest (l : List LpmEntry) : Option LpmEntry :=
  l.foldl (fun m e => match m with
    | none => some e
    | some o => if o.len < e.len then some e else m) none

def State.lookLpm (s : State) (x : TStruct) (a : Nat) (key : List Byte) (b : By) : Look × State :=
  let (bad, s) := State.readSome b x.desc 4 s
  if bad then (.damaged, s)
  else match longest ((s.rootOf x a).filter (fun e => bitsAgree e.len e.bytes key)) with
    | some e => (.found e.result, s)
    | none => (.miss, s)

def maskBytes (m k : List Byte) : List Byte := List.zipWith (· &&& ·) m k

/-- The better of two matching sub-rules: higher priority, then the rule inserted first, then the latest BORN. -/
def State.better (s : State) (e o : TEntry) : Bool :=
  o.prio < e.prio || (o.prio == e.prio && (e.order < o.order || (e.order == o.order && s.tagRank o.born.toNat < s.tagRank e.born.toNat)))

def State.bestRule (s : State) (l : List TEntry) : Option TEntry :=
  l.foldl (fun m e => match m with
    | none => some e
    | some o => if s.better e o then some e else m) none

def TStruct.masks (x : TStruct) : List (List Byte) := (x.entries.map (·.mask)).eraseDups

def State.lookTern (s : State) (x : TStruct) (a : Nat) (key : List Byte) (b : By) : Look × State :=
  let hits := x.entries.filter (fun e => s.visible a e && maskBytes e.mask key == e.key)
  let (bad, s) := State.readSome b x.desc (2 * x.masks.length + (hits.map (·.mask)).eraseDups.length) s
  if bad then (.damaged, s)
  else match s.bestRule hits with
    | some e => (.found e.result, s)
    | none => (.miss, s)

/-- A lookup in table `num` for the Accord with tag `a`. -/
def State.lookTable (s : State) (num a : Nat) (key : List Byte) (b : By) : Look × State :=
  let x := s.struct num (s.tdesc a num)
  match dKind x.desc with
  | 2 => s.lookExact x a key b
  | 3 => s.lookLpm x a key b
  | 4 => s.lookLpm x a key b
  | 5 => s.lookTern x a key b
  | _ => s.lookExt x a key b

/-- The default result, cut to RES_LEN (R232). -/
def State.defaultResult (s : State) (a num : Nat) : List Byte :=
  (beBytes 32 (s.sobj a 0x0051 num).toNat).take (dResLen (s.tdesc a num))

/-- Rows that a lookup of a prefix, range or ternary table reads. -/
def State.lookRows (s : State) (num a : Nat) (key : List Byte) : List (Nat × Nat) :=
  let x := s.struct num (s.tdesc a num)
  if dKind x.desc = 5 then
    s.someRows x.desc (2 * x.masks.length + (((x.entries.filter (fun e => s.visible a e && maskBytes e.mask key == e.key)).map (·.mask)).eraseDups).length)
  else s.someRows x.desc 4

/-- Islands a lookup of a key accesses (R217): the groups of its rows, or the channels of its lines. -/
def State.lookIslands (s : State) (num a : Nat) (key : List Byte) : List Nat :=
  let k := dKind (s.tdesc a num)
  if k = 2 ∨ k = 6 then s.keyIslands num a key else ((s.lookRows num a key).map (fun p => 37 + p.1 / 8)).eraseDups

/-- Islands a program's write of a key accesses: the table's write sequencer, and the lines of an EXT table. -/
def State.writeIslands (s : State) (num a : Nat) (key : List Byte) : List Nat :=
  let d := s.tdesc a num
  (37 + dFirst d / 8) :: (if dKind d = 6 then s.lookIslands num a key else [])

/-- Lines of DRAM that an operation of H0 on an EXT table accesses. -/
def State.hopLines (s : State) (num a : Nat) (key : List Byte) : List Nat :=
  if dKind (s.tdesc a num) = 6 then (s.struct num (s.tdesc a num)).keyLines key else []

/-- An operation of H0 is refused at an island or channel in reset, and waits where one is stopped or its channel is pre-empted (R217, R343,
R335). -/
def State.hopRefused (s : State) (num a : Nat) (key : List Byte) (isl : List Nat) : Bool :=
  isl.any s.inReset || (s.hopLines num a key).any (fun l => s.dramGone l 64)
def State.hopRuns (s : State) (num a : Nat) (key : List Byte) (isl : List Nat) : Bool :=
  isl.all s.up && (s.hopLines num a key).all (fun l => s.dramOpen l 64)

/-- Islands that an operation of H0 or H6 on its way accesses. -/
def State.hopIslands (s : State) (h : HelperOp) : List Nat :=
  let num := bits h.fields.toNat 21 14
  if h.unit = 6 then [41] else if h.op.toNat < 2 then s.lookIslands num h.tag h.data
  else s.writeIslands num h.tag (h.data.take (dKeyLen (s.tdesc h.tag num)))

/-- The oldest operation of H0 or H6 that a thread has on its way to its target. -/
def State.waitingHop (s : State) (t unit : Nat) : Option HelperOp :=
  (s.cl (t / 128)).hops.find? (fun h => h.thread == t % 128 && h.unit.toNat == unit && h.res.isNone)

/-- An operation has taken effect at its target, which returns a result to the helper. -/
def State.hopDone (s : State) (t id : Nat) (r : HelperRes) : State :=
  let (q, s) := s.newId
  s.modCl (t / 128) (fun c => { c with hops := c.hops.map (fun h => if h.id = id then { h with res := some r, seq := q } else h) })

/-- What LKP or LKPW returns (R217). -/
def lookRes (h : HelperOp) (l : Look) (dflt : List Byte) : HelperRes :=
  let val := fun (r : List Byte) (hit : Bool) =>
    let v : W64 := BitVec.ofNat 64 (beVal (r.take 8))
    ({ acc := v, fl := resFl v hit false, addr := h.dst, bytes := if h.op = 1 then r else [] } : HelperRes)
  match l with
  | .found r => val r true
  | .miss => val dflt false
  | .damaged => poisoned

/-- LOOKUP: an LKP or LKPW of a thread reaches its banks. -/
def State.lookup (s : State) (t : Nat) : State :=
  match s.waitingHop t 0 with
  | none => s
  | some h =>
    let num := bits h.fields.toNat 21 14
    let isl := s.lookIslands num h.tag h.data
    if 2 ≤ h.op.toNat ∨ s.sentAhead (t / 128) h = true then s
    else if s.hopRefused num h.tag h.data isl then s.hopDone t h.id (refusal 8)
    else if !s.hopRuns num h.tag h.data isl then s
    else
      let (l, s) := s.lookTable num h.tag h.data { master := t, access := 7, ev := 0x10 }
      s.hopDone t h.id (lookRes h l (s.defaultResult h.tag num))

def execLookup (thread : ThreadId) (s : State) : Host.Outcome State Fault Refusal :=
  answer (if threadOk thread then s.lookup (threadNo thread) else s)

/-! ### Writes of EXACT and EXT tables (R236, R242, R243) -/

inductive Wrote where
  | added | replaced | full
  deriving DecidableEq, Repr

/-- The lowest free slot of a bucket. -/
def freeSlot (n : Nat) (l : List TEntry) : Option Nat := (List.range n).find? (fun k => l.all (fun e => e.slot != k))

/-- The bucket with more free slots, way 0 when they are equal, and its free slot. -/
def State.roomFor (s : State) (x : TStruct) (key : List Byte) : Option (Nat × Nat × Nat) :=
  let b0 := (x.place 0 key).2
  let b1 := (x.place 1 key).2
  let l0 := s.inBucket x 0 b0
  let l1 := s.inBucket x 1 b1
  if l0.length ≤ l1.length then (freeSlot (dWays x.desc) l0).map (fun k => (0, b0, k))
  else (freeSlot (dWays x.desc) l1).map (fun k => (1, b1, k))

/-- Put a key under Accord `a` into a structure: in place where it was born under `a`, else as a new entry. -/
def State.insertKey (s : State) (x : TStruct) (a : Nat) (key result : List Byte) : Wrote × State :=
  let x := s.struct x.num x.desc
  let old := (s.bucketsOf x key).filter (fun e => e.key == key && s.visible a e)
  match old.find? (fun e => e.born.toNat == a) with
  | some e => (.replaced, s.putEntry x { e with result := result })
  | none =>
    match s.roomFor x key with
    | none => (.full, s)
    | some (w, i, k) =>
      (if old.isEmpty then .added else .replaced,
       s.putEntry x { key := key, result := result, born := BitVec.ofNat 4 a, dead := BitVec.ofNat 4 a, way := w, bucket := i, slot := k })

/-- Delete a key under Accord `a`: free the entry born under it, and end the earlier visible ones at `a`. -/
def State.deleteKey (s : State) (x : TStruct) (a : Nat) (key : List Byte) : Bool × State :=
  let x := s.struct x.num x.desc
  let old := (s.bucketsOf x key).filter (fun e => e.key == key && s.visible a e)
  (!old.isEmpty, old.foldl (fun s e => if e.born.toNat = a then s.dropEntry x e else s.putEntry x { e with dead := BitVec.ofNat 4 a }) s)

/-- Structures that a Maceration keeps in step with the one under descriptor `d` (R247). -/
def State.mirrors (s : State) (num : Nat) (d : ObjWord) : List TStruct :=
  s.tables.structs.filter (fun x => x.num == num && x.mirror && x.desc != d)

def engineSrc (d : ObjWord) : Nat := src (37 + dFirst d / 8) 0x18

/-- Remember the staged deletion of a key that a changed descriptor's structure does not hold yet. -/
def State.noteGone (s : State) (num a : Nat) (d : ObjWord) (key : List Byte) (gone : Bool) : State :=
  if a = s.accord.staged.toNat ∧ s.accord.live ∧ d ≠ s.tdesc s.accord.current.toNat num then
    let s := s.begin' { num := num, desc := d }
    let x := s.struct num d
    s.putStruct { x with gone := x.gone.filter (· != key) ++ (if gone then [key] else []) }
  else s

/-- A program's or host's insert: into the Accord's structure and every structure kept in step with it. -/
def State.insertTable (s : State) (num a : Nat) (key result : List Byte) : Wrote × State :=
  let d := s.tdesc a num
  let r := s.insertKey (s.struct num d) a key result
  let s := r.2.noteGone num a d key false
  if r.1 = .full then (.full, s)
  else (r.1, (s.mirrors num d).foldl (fun s x =>
    let m := s.insertKey x a key result
    if m.1 = .full then m.2.raise (engineSrc x.desc) 0x79 { master := 0x4100 } else m.2) s)

def State.deleteTable (s : State) (num a : Nat) (key : List Byte) : Bool × State :=
  let d := s.tdesc a num
  let r := s.deleteKey (s.struct num d) a key
  let s := r.2.noteGone num a d key true
  (r.1, (s.mirrors num d).foldl (fun s x => (s.deleteKey x a key).2) s)

/-- Slots a structure has. -/
def dSlots (d : ObjWord) : Nat := 2 * dWays d * 2 ^ dLog d

/-- Apply a program's write and answer its operation. -/
def State.applyWrite (s : State) (w : TieWrite) : State :=
  let ok := fun (c : Bool) => ({ acc := 0, fl := mkFl true false c false } : HelperRes)
  if w.del then
    let (found, s) := s.deleteTable w.num w.tag w.key
    s.hopDone w.thread w.hop (if found then ok false else refusal 6)
  else
    match s.insertTable w.num w.tag w.key w.result with
    | (.full, s) =>
      State.hopDone { s with tables := { s.tables with reloc := s.tables.reloc ++ [(w.num, s.tdesc w.tag w.num, w.key)] } } w.thread w.hop (refusal 5)
    | (r, s) => s.hopDone w.thread w.hop (ok (r == .replaced))

/-- Of two writes of one key in one cycle the first is applied after the second: a delete after an insert, else the higher master (R242). -/
def TieWrite.after (w v : TieWrite) : Bool := if w.del == v.del then v.thread < w.thread else w.del

/-- A write passes the sequencer. Writes of its cycle that belong after it and have been applied already are applied again; two writes
share a cycle when no time passes between them and each was on its way before the other was applied (R242; DESIGN CHOICE, log 57). -/
def State.sequence (s : State) (w : TieWrite) : State :=
  let now := s.tables.cycle.filter (fun v => v.since == w.since)
  let again := now.filter (fun v => v.num == w.num && v.key == w.key && w.hop < v.seq && v.thread != w.thread && v.after w)
  let s := again.foldl (fun s v => s.applyWrite v) (s.applyWrite w)
  { s with tables := { s.tables with cycle := (now.filter (fun v => !again.contains v)) ++ [{ w with seq := s.nextId }] ++ again } }

/-- TABLE_WRITE: an INS or DEL of a thread passes the table's write sequencer, which reads the rows or lines of its buckets: a damaged one
is reported and answers POISONED (R215, R251). -/
def State.tableWrite (s : State) (t : Nat) : State :=
  match s.waitingHop t 0 with
  | none => s
  | some h =>
    let num := bits h.fields.toNat 21 14
    let d := s.tdesc h.tag num
    let key := h.data.take (dKeyLen d)
    let isl := s.writeIslands num h.tag key
    if h.op.toNat < 2 ∨ s.sentAhead (t / 128) h = true then s
    else if s.hopRefused num h.tag key isl then s.hopDone t h.id (refusal 8)
    else if !s.hopRuns num h.tag key isl then s
    else
      match s.lookTable num h.tag key { master := t, access := 7, ev := 0x10 } with
      | (.damaged, s) => s.hopDone t h.id poisoned
      | (_, s) => s.sequence { since := s.time.elapsed, seq := 0, num := num, tag := h.tag, thread := t, hop := h.id
                               del := h.op == 3, key := key, result := h.data.drop (dKeyLen d) }

def execTableWrite (thread : ThreadId) (s : State) : Host.Outcome State Fault Refusal :=
  answer (if threadOk thread then s.tableWrite (threadNo thread) else s)

/-! ### Cuckoo paths (R243) -/

/-- Search breadth first for entries to move, one after another, so that the first bucket of the path gets a free slot. -/
def State.findPath (s : State) (x : TStruct) : Nat → List (Nat × Nat) → List (Nat × Nat × List TEntry) → Option (List TEntry)
  | 0, _, _ => none
  | _ + 1, _, [] => none
  | n + 1, seen, (w, i, path) :: rest =>
    let es := s.inBucket x w i
    if es.length < dWays x.desc then some path
    else
      let next := es.map (fun e => (1 - w, (x.place (1 - w) e.key).2, path ++ [e]))
      let next := next.filter (fun p => !seen.contains (p.1, p.2.1))
      s.findPath x n (seen ++ next.map (fun p => (p.1, p.2.1))) (rest ++ next)

/-- Move an entry into the free slot of its other bucket: written there before the old slot is cleared. -/
def State.moveEntry (s : State) (x : TStruct) (e : TEntry) : State :=
  let x := s.struct x.num x.desc
  let w := 1 - e.way
  let i := (x.place w e.key).2
  match freeSlot (dWays x.desc) (s.inBucket x w i) with
  | none => s
  | some k => ((s.putEntry x { e with way := w, bucket := i, slot := k }).dropEntry x e).count (engineSrc x.desc) 0x11

/-- Make room in one of a key's full buckets, where a path does. -/
def State.makeRoom (s : State) (x : TStruct) (key : List Byte) : Option State :=
  let roots := [0, 1].map (fun w => (w, (x.place w key).2, ([] : List TEntry)))
  (s.findPath x (2 * 2 ^ (dLog x.desc + 1) + 1) (roots.map (fun p => (p.1, p.2.1))) roots).map
    (fun path => path.reverse.foldl (fun s e => s.moveEntry x e) s)

/-- RELOCATION: the engine relocates entries out of the full buckets that inserts into the table have met, while the
table holds less than 95 % of its slots. -/
def State.relocate (s : State) (num : Nat) : State :=
  let due := s.tables.reloc.filter (fun e => e.1 == num)
  let s := { s with tables := { s.tables with reloc := s.tables.reloc.filter (fun e => e.1 != num) } }
  due.foldl (fun s e =>
    let x := s.struct num e.2.1
    if s.up (37 + dFirst x.desc / 8) ∧ (s.allEntries x).length * 100 < 95 * dSlots x.desc ∧ (s.roomFor x e.2.2).isNone then
      (s.makeRoom x e.2.2).getD s
    else s) s

def execRelocation (table : Nat) (s : State) : Host.Outcome State Fault Refusal := answer (s.relocate table)

/-- A host insert runs through the engine: it moves entries as needed, and fails only when no path frees a slot. -/
def State.hostInsert (s : State) (num a : Nat) (key result : List Byte) : Wrote × State :=
  match s.insertTable num a key result with
  | (.full, s) =>
    match s.makeRoom (s.struct num (s.tdesc a num)) key with
    | none => (.full, s)
    | some s => s.insertTable num a key result
  | r => r

/-! ### Prefix tables (R244) -/

/-- The rows a set of `p` prefixes needs fit the table. -/
def lpmFits (d : ObjWord) (p : Nat) : Bool :=
  decide (262144 + p * ((if dKind d = 3 then 14 else 80) + dResLen d) ≤ dBanks d * dRows d * 64)

def State.setRoot (s : State) (x : TStruct) (a : Nat) (l : List LpmEntry) : State :=
  s.putStruct { x with roots := Store.set none x.roots a (some l) }

/-- Insert a prefix into the staged root: whether it replaced one; none where it does not fit. -/
def State.insertPrefix (s : State) (num a : Nat) (e : LpmEntry) : Option (Bool × State) :=
  let x := s.struct num (s.tdesc a num)
  let l := s.rootOf x a
  let rest := l.filter (fun o => !(o.len == e.len && o.bytes == e.bytes))
  if lpmFits x.desc (rest.length + 1) then
    some (rest.length < l.length, (s.setRoot x a (rest ++ [e])).noteGone num a x.desc (leBytes 1 e.len ++ e.bytes) false)
  else none

def State.deletePrefix (s : State) (num a len : Nat) (bytes : List Byte) : Bool × State :=
  let x := s.struct num (s.tdesc a num)
  let l := s.rootOf x a
  let rest := l.filter (fun o => !(o.len == len && o.bytes == bytes))
  (rest.length < l.length, (s.setRoot x a rest).noteGone num a x.desc (leBytes 1 len ++ bytes) true)

/-! ### Ternary tables (R245) -/

/-- The prefixes that cover `lo` to `hi` in `w` bits: each a value and its number of free low bits. -/
def rangePrefixes (w hi : Nat) : Nat → Nat → List (Nat × Nat)
  | 0, _ => []
  | n + 1, lo =>
    if hi < lo then []
    else
      let k := ((List.range (w + 1)).filter (fun k => lo % 2 ^ k == 0 && lo + 2 ^ k ≤ hi + 1)).foldl max 0
      (lo, k) :: rangePrefixes w hi n (lo + 2 ^ k)

/-- A rule's range fields: byte offset, width, low and high. -/
def ruleRanges (d : ObjWord) (body : List Byte) : List (Nat × Nat × Nat × Nat) :=
  (List.range (beVal (slice body 2 1))).map (fun i =>
    let f := slice body (4 + 2 * dKeyLen d + 8 * i) 8
    (beVal (slice f 0 1), beVal (slice f 1 1), beVal (slice f 2 2), beVal (slice f 4 2)))

/-- OR a 16-bit big-endian word into a byte string. -/
def orWord (l : List Byte) (o v : Nat) : List Byte :=
  l.mapIdx (fun i b => if i = o then b ||| BitVec.ofNat 8 (v / 256) else if i = o + 1 then b ||| BitVec.ofNat 8 (v % 256) else b)

/-- The sub-rules of a rule: masked value and mask. -/
def subRules (d : ObjWord) (body : List Byte) : List (List Byte × List Byte) :=
  let v := slice body 4 (dKeyLen d)
  let m := slice body (4 + dKeyLen d) (dKeyLen d)
  (ruleRanges d body).foldl (fun l r =>
    let ps := rangePrefixes r.2.1 r.2.2.2 (2 * r.2.1 + 1) r.2.2.1
    l.flatMap (fun vm => ps.map (fun p => (orWord vm.1 r.1 p.1, orWord vm.2 r.1 (2 ^ r.2.1 - 2 ^ p.2))))) [(maskBytes v m, m)]

/-- Insert a rule under the staged Accord: whether it replaced one and how many sub-rules it stores; none where a limit
would be exceeded. -/
def State.insertRule (s : State) (num a : Nat) (body result : List Byte) : Option (Bool × Nat × State) :=
  let x := s.struct num (s.tdesc a num)
  let subs := subRules x.desc body
  let old := x.entries.filter (fun e => e.rule == body && s.visible a e)
  let keep := x.entries.filter (fun e => !(e.rule == body && e.born.toNat == a))
  let order := match old with | e :: _ => e.order | [] => x.order
  let new := subs.map (fun v => ({ key := v.1, mask := v.2, result := result, born := BitVec.ofNat 4 a, dead := BitVec.ofNat 4 a
                                   prio := BitVec.ofNat 16 (beVal (slice body 0 2)), order := order, rule := body } : TEntry))
  let x' : TStruct := { x with entries := keep ++ new, order := x.order + 1 }
  if x'.entries.length ≤ 65536 ∧ x'.masks.length ≤ 16 then
    some (!old.isEmpty, subs.length, (s.putStruct x').noteGone num a x.desc body false)
  else none

def State.deleteRule (s : State) (num a : Nat) (body : List Byte) : Bool × State :=
  let x := s.struct num (s.tdesc a num)
  let hit := fun (e : TEntry) => e.rule == body && s.visible a e
  let es := (x.entries.filter (fun e => !(hit e && e.born.toNat == a))).map (fun e => if hit e then { e with dead := BitVec.ofNat 4 a } else e)
  (x.entries.any hit, (s.putStruct { x with entries := es }).noteGone num a x.desc body true)

/-! ### DIRECT tables (R238) -/

/-- The copy no live Accord reads, where there is one. -/
def State.freeCopy (s : State) (x : TStruct) : Option Nat :=
  let used := (if s.accord.live then [s.copyNo x s.accord.current.toNat] else [])
    ++ (if s.accord.drainValid then [s.copyNo x s.accord.draining.toNat] else [])
  [1, 2].find? (fun c => !used.contains c)

/-- A host write of DIRECT bytes: a row written loses its uncorrectable mark (R387; DEDUCED, log 20). -/
def State.directWrite (s : State) (d : ObjWord) (c k o : Nat) (l : List Byte) : State :=
  let a := s.directAddr d c k o
  let s := (s.count (bankSrc (s.physBank (dFirst d + k))) 0x11).writeRows a l
  { s with tables := { s.tables with bad := s.tables.bad.filter (fun r => !(decide (a ≤ r * 64) && decide (r * 64 + 64 ≤ a + l.length))) } }

/-- VERSIONED_COPY: a copy is free, so the engine fills it from the current one and applies the staged writes; the
command that waits is answered. -/
def State.versionedCopy (s : State) (num : Nat) : State :=
  let a := s.accord.staged.toNat
  let x := s.struct num (s.tdesc a num)
  let d := x.desc
  match s.freeCopy x with
  | none => s
  | some c =>
    if x.waiting.isEmpty then s
    else
      let from' := s.copyNo x a
      let s := if s.accord.live then (List.range (dBanks d)).foldl (fun s k =>
          let n := dRows d * 64
          let src' := s.directAddr d from' k 0
          let dst := s.directAddr d c k 0
          let bytes := (s.tables.rows.filter (fun e => src' ≤ e.1 && e.1 < src' + n)).map (fun e => (e.1 - src' + dst, e.2))
          let bad := (s.tables.bad.filter (fun r => src' / 64 ≤ r && r < src' / 64 + dRows d)).map (fun r => r - src' / 64 + dst / 64)
          { s with tables := { s.tables with
              rows := bytes.foldl (fun m e => mput m e.1 e.2) (mclear s.tables.rows dst n)
              bad := s.tables.bad.filter (fun r => !(dst / 64 ≤ r && r < dst / 64 + dRows d)) ++ bad } }) s
        else s
      let s := x.waiting.foldl (fun s w => s.directWrite d c w.1 w.2.1 w.2.2) s
      let s := s.putStruct { s.struct num d with waiting := [], copyOf := Store.set 0 x.copyOf a c, wrote := x.wrote ++ x.waiting }
      match s.ycp.deferred with
      | some f => if f.wait = .versioned num then s.undefer stDone [0, 0, 0, 0, 0, 0, 0, 1] else s
      | none => s

def execVersionedCopy (table : Nat) (s : State) : Host.Outcome State Fault Refusal :=
  answer (if s.up (37 + dFirst (s.tdesc s.accord.staged.toNat table) / 8) then s.versionedCopy table else s)

/-! ### Table records of the host (R426, R427) -/

/-- The body of an insert (0), delete (1) or lookup (2) matches the descriptor. -/
def recordOk (d : ObjWord) (op : Nat) (body : List Byte) : Bool :=
  let n := body.length
  let kl := dKeyLen d
  let rl := if op = 0 then dResLen d else 0
  let zero := fun (o n : Nat) => beVal (slice body o n) == 0
  match dKind d with
  | 1 =>
    let off := beVal (slice body 4 4)
    let len := if op = 2 then beVal (slice body 8 2) else n - 8
    op != 1 && (if op = 2 then n == 12 && zero 10 2 else 16 ≤ n) && zero 1 3 && beVal (slice body 0 1) < dBanks d && off % 8 == 0
      && len % 8 == 0 && 8 ≤ len && len ≤ 512 && off + len ≤ 64 * dRows d
  | 2 => n == kl + rl
  | 6 => n == kl + rl
  | 5 =>
    if op = 2 then n == kl
    else
      let k := beVal (slice body 2 1)
      let m := slice body (4 + kl) kl
      4 ≤ n && k ≤ 4 && zero 3 1 && n == 4 + 2 * kl + 8 * k + rl
        && (ruleRanges d body).all (fun r => r.1 + 2 ≤ kl && 1 ≤ r.2.1 && r.2.1 ≤ 16 && r.2.2.1 ≤ r.2.2.2 && r.2.2.2 < 2 ^ r.2.1
            && beVal (slice m r.1 2) % 2 ^ r.2.1 == 0)
        && (List.range k).all (fun i => zero (4 + 2 * kl + 8 * i + 6) 2)
  | 3 | 4 =>
    if op = 2 then n == kl
    else
      let len := beVal (slice body 0 1)
      n == 4 + kl + rl && zero 1 3 && len ≤ 8 * kl && (span len (8 * kl)).all (fun i => !msbBit (slice body 4 kl) i)
  | _ => false

/-- How a record ends: a status with results, or a wait for a copy of a versioned table. -/
inductive Took where
  | done (status : Nat) (results : List Byte) (s : State)
  | wait (s : State)

def insertResults (replaced : Bool) (n : Nat) : List Byte := beBytes 1 (b2n replaced) ++ [0, 0, 0] ++ beBytes 4 n

/-- Checks of R236 and R426 that come before a write: its status where one fails. -/
def State.writeRefused (s : State) (num : Nat) (d : ObjWord) (live : Bool) (op : Nat) (body : List Byte) : Option Nat :=
  let shared := dKind d == 1 && !dVersioned d
  if live && !s.accord.live then some stBadState
  else if !recordOk d op body then some stBadParam
  else if live && dWriters d == 0 && !shared then some stBadState
  else if !live && shared then some stBadParam
  else if (List.range (dBanks d)).any (fun k => s.inReset (37 + (dFirst d + k) / 8))
    || (dKind d == 6 && ((s.struct num d).keyLines (body.take (dKeyLen d))).any (fun l => s.dramGone l 64)) then some stHwFault
  else none

/-- A record is inserted under the live or the staged Accord. -/
def State.recordInsert (s : State) (num : Nat) (live : Bool) (body : List Byte) : Took :=
  let a := if live then s.accord.current.toNat else s.accord.staged.toNat
  let d := s.tdesc a num
  match s.writeRefused num d live 0 body with
  | some st => .done st [] s
  | none =>
    let kl := dKeyLen d
    match dKind d with
    | 1 =>
      let k := beVal (slice body 0 1)
      let o := beVal (slice body 4 4)
      let x := s.struct num d
      if !dVersioned d then .done stDone (insertResults false 1) (s.directWrite d 1 k o (body.drop 8))
      else if Store.get 0 x.copyOf a ≠ 0 then .done stDone (insertResults false 1)
        ((s.putStruct { x with wrote := x.wrote ++ [(k, o, body.drop 8)] }).directWrite d (Store.get 0 x.copyOf a) k o (body.drop 8))
      else .wait (s.putStruct { x with waiting := x.waiting ++ [(k, o, body.drop 8)] })
    | 5 =>
      let n := 4 + 2 * kl + 8 * beVal (slice body 2 1)
      match s.insertRule num a (body.take n) (body.drop n) with
      | some (r, c, s) => .done stDone (insertResults r c) s
      | none => .done stNoSpace [] s
    | 3 | 4 =>
      match s.insertPrefix num a { len := beVal (slice body 0 1), bytes := slice body 4 kl, result := body.drop (4 + kl) } with
      | some (r, s) => .done stDone (insertResults r 1) s
      | none => .done stNoSpace [] s
    | _ =>
      match s.hostInsert num a (body.take kl) (body.drop kl) with
      | (.full, s) => .done stNoSpace [] s
      | (r, s) =>
        let x := s.struct num d
        -- the rows of the entry the host has written are whole again (R251, R387)
        let rows := ((s.bucketsOf x (body.take kl)).filter (fun e => e.key == body.take kl)).flatMap (fun e =>
          [slotRow d e, bucketRow d e.way e.bucket].map (fun p => s.physBank p.1 * 24576 + p.2))
        .done stDone (insertResults (r == .replaced) 1)
          (if dKind d = 2 then { s with tables := { s.tables with bad := s.tables.bad.filter (fun b => !rows.contains b) } } else s)

/-- A record is deleted: ALREADY_DONE where it is absent. -/
def State.recordDelete (s : State) (num : Nat) (live : Bool) (body : List Byte) : Nat × State :=
  let a := if live then s.accord.current.toNat else s.accord.staged.toNat
  let d := s.tdesc a num
  match s.writeRefused num d live 1 body with
  | some st => (st, s)
  | none =>
    let r := match dKind d with
      | 5 => s.deleteRule num a body
      | 3 | 4 => s.deletePrefix num a (beVal (slice body 0 1)) (slice body 4 (dKeyLen d))
      | _ => s.deleteTable num a body
    (if r.1 then stDone else stAlready, r.2)

/-- TBL_LOOKUP: the view of the Accord whose tag is named. -/
def State.recordLookup (s : State) (num a : Nat) (body : List Byte) (master : Nat) : Nat × List Byte × State :=
  let d := s.tdesc a num
  if s.tagRank a = 0 then (stBadState, [], s)
  else if !recordOk d 2 body then (stBadParam, [], s)
  else if (List.range (dBanks d)).any (fun k => s.inReset (37 + (dFirst d + k) / 8))
    || (s.hopLines num a body).any (fun l => s.dramGone l 64) then (stHwFault, [], s)
  else
    let ans := fun (hit : Bool) (l : List Byte) => beBytes 1 (b2n hit) ++ beBytes 1 (l.length / 8) ++ [0, 0] ++ l
    match dKind d with
    | 1 =>
      let n := beVal (slice body 8 2)
      let k := beVal (slice body 0 1)
      let at' := s.directAddr d (if dVersioned d then s.copyNo (s.struct num d) a else 1) k (beVal (slice body 4 4))
      let s := s.count (bankSrc (at' / 1572864)) 0x11
      match ((List.range n).map (fun i => at' + i)).find? s.rowBad with
      | some b => (stHwFault, [], s.tsEcc (b / 1572864) (b % 1572864 / 64) master 1)
      | none => (stDone, ans true (mread s.tables.rows at' n), s)
    | _ =>
      match s.lookTable num a body { master := master, access := 1, ev := 0x11 } with
      | (.found r, s) => (stDone, ans true r, s)
      | (.miss, s) => (stDone, ans false (s.defaultResult a num), s)
      | (.damaged, s) => (stHwFault, [], s)

/-! ### Maceration and resize (R247, R249) -/

/-- Entries of the current contents can be placed under the new descriptor: it keeps the kind of key and the sizes (DEDUCED, log 29). -/
def sameShape (d e : ObjWord) : Bool :=
  let fam := fun (k : Nat) => if k = 6 then 2 else k
  fam (dKind d) == fam (dKind e) && dKeyLen d == dKeyLen e && dResLen d == dResLen e

/-- Place every entry under a structure with its BORN; none when one cannot be placed. -/
def State.placeAll (x : TStruct) : List TEntry → State → Option State
  | [], s => some s
  | e :: t, s =>
    let y := s.struct x.num x.desc
    let go := fun (s : State) => match s.roomFor y e.key with
      | some (w, i, k) => some (s.putEntry y { e with way := w, bucket := i, slot := k })
      | none => none
    match (go s).or ((s.makeRoom y e.key).bind go) with
    | some s => State.placeAll x t (s.count (engineSrc x.desc) 0x10)
    | none => none

/-- A Maceration of a DIRECT table: the current copy's bytes, then the staged writes (R247; DEDUCED, log 29). -/
def State.macerateDirect (s : State) (old x : TStruct) : Option State :=
  let a := s.accord.staged.toNat
  let d := x.desc
  if dBanks old.desc ≤ dBanks d ∧ dRows old.desc ≤ dRows d then
    let from' := if dVersioned old.desc then s.copyNo old s.accord.current.toNat else 1
    let new := if dVersioned d then s.copyNo x a else 1
    let n := dRows old.desc * 64
    let bytes := (List.range (dBanks old.desc)).map (fun k =>
      let p := s.directAddr old.desc from' k 0
      (k, (s.tables.rows.filter (fun e => p ≤ e.1 && e.1 < p + n)).map (fun e => (e.1 - p, e.2))))
    let s := bytes.foldl (fun (s : State) b =>
      let q := s.directAddr d new b.1 0
      { s with tables := { s.tables with rows := b.2.foldl (fun m e => mput m (q + e.1) e.2) (mclear s.tables.rows q n) } }) s
    let s := (x.wrote ++ x.waiting).foldl (fun (s : State) w => s.putRows (s.directAddr d new w.1 w.2.1) w.2.2) s
    some ((s.putStruct { x with mirror := true }).count (engineSrc d) 0x10 (dBanks old.desc * dRows old.desc))
  else none

/-- Build the staged structure: every entry that the current Accord sees, then every staged write. An entry or prefix whose key a
staged write has deleted ends at the staged tag, and a rule or prefix that one has replaced or deleted is left out (R247 step 1;
DEDUCED, log 29). A rule keeps its place in the order of insertion (R245). -/
def State.macerate (s : State) (num : Nat) : Option State :=
  let a := s.accord.staged.toNat
  let c := s.accord.current.toNat
  let old := s.struct num (s.tdesc c num)
  let x := s.struct num (s.tdesc a num)
  let d := x.desc
  if dKind old.desc = 0 then some s
  else if !sameShape old.desc d then none
  else match dKind d with
    | 1 => s.macerateDirect old x
    | 5 =>
      let seen := old.entries.filter (s.visible c)
      let es := seen.filter (fun e => !x.gone.contains e.rule && !x.entries.any (fun o => o.rule == e.rule))
      let mine := x.entries.map (fun (o : TEntry) =>
        { o with order := ((seen.find? (fun e => e.rule == o.rule)).map (·.order)).getD (old.order + o.order) })
      let y : TStruct := { x with entries := es ++ mine, order := old.order + x.order, mirror := true, gone := [] }
      if y.entries.length ≤ 65536 ∧ y.masks.length ≤ 16 then some ((s.putStruct y).count (engineSrc d) 0x10 es.length) else none
    | 3 | 4 =>
      let mine := s.rootOf x a
      let es := (s.rootOf old a).filter (fun e =>
        !x.gone.contains (leBytes 1 e.len ++ e.bytes) && !mine.any (fun o => o.len == e.len && o.bytes == e.bytes))
      if lpmFits d (es.length + mine.length) then
        some ((s.putStruct { x with roots := Store.set none x.roots a (some (es ++ mine)), mirror := true, gone := [] }).count (engineSrc d) 0x10 es.length)
      else none
    | _ =>
      let es := ((s.allEntries old).filter (s.visible c)).map (fun (e : TEntry) =>
        { e with dead := if x.gone.contains e.key then BitVec.ofNat 4 a else if e.dead.toNat = a then e.dead else e.born })
      (State.placeAll x es s).map (fun s => s.putStruct { s.struct num d with mirror := true, gone := [] })

/-- MACERATION_DONE. -/
def State.macerationDone (s : State) (num : Nat) : State :=
  if s.tables.macerating.contains num then
    let s := { s with tables := { s.tables with macerating := s.tables.macerating.filter (· != num) } }
    let d := s.tdesc s.accord.staged.toNat num
    match s.macerate num with
    | some s => s.complete (.macerate num) stDone []
    | none => (s.raise (engineSrc d) 0x79 { master := 0x4100 }).complete (.macerate num) stNoSpace []
  else s

def execMacerationDone (table : Nat) (s : State) : Host.Outcome State Fault Refusal :=
  answer (if s.up (37 + dFirst (s.tdesc s.accord.staged.toNat table) / 8) then s.macerationDone table else s)

/-- Move the migration cursor of a structure on to bucket `c`: each bucket passed is split in two. -/
def State.splitTo (s : State) (x : TStruct) (c : Nat) : State :=
  match x.migr with
  | none => s
  | some m =>
    let c := min c (2 ^ m.oldLog)
    let next : Option Migration := if c = 2 ^ m.oldLog then none else some { m with cursor := c }
    let es := (s.allEntries x).map (fun (e : TEntry) =>
      if m.cursor ≤ e.bucket ∧ e.bucket < c then { e with bucket := wayHash x.desc e.way e.key % 2 ^ (m.oldLog + 1) } else e)
    -- an EXT table's new buckets are written whole, whatever the doubled half of its region held
    let s := if dKind x.desc = 6 ∧ s.begun x then (List.range 4).foldl (fun s q =>
        s.dramClear (dExt x.desc * 2 ^ 20 + (q * 2 ^ m.oldLog + m.cursor) * 64) ((c - m.cursor) * 64)) s
      else s
    s.setEntries x { x with migr := next, entries := es }

/-- RESIZE_DONE: the cursor passes the last bucket, and the resize completes with the new B_LOG2. -/
def State.resizeDone (s : State) (num : Nat) : State :=
  if s.tables.resizing.contains num then
    let xs := s.tables.structs.filter (fun x => x.num == num && x.migr.isSome)
    let s := xs.foldl (fun s x => s.splitTo x (2 ^ 32)) s
    State.complete { s with tables := { s.tables with resizing := s.tables.resizing.filter (· != num) } } (.resize num) stDone
      (beBytes 1 (dLog (s.tdesc (if s.accord.live then s.accord.current.toNat else s.accord.staged.toNat) num)) ++ [0, 0, 0])
  else s

def execResizeDone (table : Nat) (s : State) : Host.Outcome State Fault Refusal :=
  answer (if s.up (37 + dFirst (s.tdesc s.accord.staged.toNat table) / 8) then s.resizeDone table else s)

/-- Nanoseconds a migration takes per bucket at the rate of R248: 32 slots at 50 × 10⁶ a second over 8 banks. -/
def bucketNs (d : ObjWord) : Nat := if dKind d = 6 then 80 else 640 * 8 / min 8 (max 1 (dBanks d))

/-- The migrations' share of one nanosecond: a bucket pair is split each time its time has passed. -/
def State.migrate (s : State) : State :=
  (s.tables.structs.filter (fun x => x.migr.isSome && s.up (37 + dFirst x.desc / 8))).foldl (fun s x =>
    match x.migr with
    | some m => if s.time.elapsed % bucketNs x.desc = 0 then s.splitTo x (min (m.cursor + 1) (2 ^ m.oldLog - 1)) else s
    | none => s) s

/-! ### Bank replacement, scrub and sweep (R237, R250, R251) -/

/-- BANK_REPLACE_DONE: the copy agrees and the bank map turns to the spare, or a mismatch ends the replacement. -/
def State.bankReplaced (s : State) (b : Nat) (mismatch : Bool) : State :=
  if s.tables.replacing.contains b then
    let old := s.physBank b
    let spare := ((List.range 9).map (fun k => 9 * (b / 8) + k)).find? (fun p => (s.logicalOf p).isNone)
    let s := { s with tables := { s.tables with replacing := s.tables.replacing.filter (· != b) } }
    match spare with
    | none => s
    | some p =>
      if mismatch then (s.raise (bankSrc old) 0x7A { addr := b * 2 ^ 16, master := 0x4102 }).complete (.bankReplace b) stHwFault []
      else
        let n := 1572864
        let bytes := (s.tables.rows.filter (fun e => e.1 / n == old)).map (fun e => (p * n + e.1 % n, e.2))
        let bad := (s.tables.bad.filter (fun r => r / 24576 == old)).map (fun r => p * 24576 + r % 24576)
        State.complete { s with tables := { s.tables with
          rows := bytes.foldl (fun m e => mput m e.1 e.2) (mclear s.tables.rows (p * n) n)
          bad := s.tables.bad.filter (fun r => r / 24576 != p) ++ bad
          bankMap := Store.set (9 * (b / 8) + b % 8) s.tables.bankMap b p
          spareUsed := s.tables.spareUsed ++ [b / 8] } } (.bankReplace b) stDone []
  else s

def execBankReplaceDone (bank : Nat) (mismatch : Bool) (s : State) : Host.Outcome State Fault Refusal :=
  answer (if bank < 32 && s.up (37 + bank / 8) then s.bankReplaced bank mismatch else s)

/-- A row corrected in two passes running is moved to a spare row, or reported when none is left. -/
def State.repairRow (s : State) (phys row : Nat) : State :=
  let used := Store.get 0 s.tables.spareRows phys
  if used < 32 then
    State.count { s with tables := { s.tables with spareRows := Store.set 0 s.tables.spareRows phys (used + 1) } } (bankSrc phys) 0x16
  else s.raise (bankSrc phys) 0x7B { addr := s.rowAddress phys row, master := 0x4102, access := 0xA }

/-- BANK_SCRUB: one pass reads every row of a physical bank, with the rows it corrected and those that have become uncorrectable; each
uncorrectable row is reported in every pass (R251). -/
def State.bankScrub (s : State) (phys : Nat) (corrected damaged : List Nat) : State :=
  let rows := (corrected.filter (· < 24576)).eraseDups
  let before := Store.get [] s.tables.corrected phys
  let s := { s with tables := { s.tables with corrected := Store.set [] s.tables.corrected phys rows } }
  let s := s.count (bankSrc phys) 0x15 rows.length
  let s := (rows.filter before.contains).foldl (fun s r => s.repairRow phys r) s
  let new := ((damaged.filter (· < 24576)).map (fun r => phys * 24576 + r)).eraseDups.filter (fun r => !s.tables.bad.contains r)
  let s := { s with tables := { s.tables with bad := s.tables.bad ++ new } }
  (s.tables.bad.filter (fun r => r / 24576 == phys)).foldl (fun s r => s.tsEcc phys (r % 24576) 0x4102 0xA) s

def execBankScrub (bank : Nat) (corrected damaged : List Nat) (s : State) : Host.Outcome State Fault Refusal :=
  answer (if bank < 36 && s.up (37 + bank / 9) then s.bankScrub bank corrected damaged else s)

/-- The oldest live or staged tag. -/
def State.oldestTag (s : State) : BitVec 4 :=
  if s.accord.drainValid then s.accord.draining else if s.accord.live then s.accord.current else s.accord.staged

/-- One entry of a sweep: freed when no live or staged Accord sees it, restamped when it was born under the tag. -/
def State.sweepEntry (s : State) (tag : Nat) (e : TEntry) : Option TEntry :=
  let tags := [s.accord.staged.toNat] ++ (if s.accord.live then [s.accord.current.toNat] else [])
    ++ (if s.accord.drainValid then [s.accord.draining.toNat] else [])
  if !tags.any (fun a => s.visible a e) then none
  else if e.born.toNat = tag then some { e with born := s.oldestTag, dead := if e.dead = e.born then s.oldestTag else e.dead }
  else some e

/-- SWEEP_DONE: the sweep of the oldest retired tag ends. -/
def State.sweepDone (s : State) : State :=
  match s.tables.sweeping with
  | [] => s
  | tag :: rest =>
    let s := { s with tables := { s.tables with sweeping := rest } }
    s.tables.structs.foldl (fun s x =>
      let y := s.struct x.num x.desc
      let es := s.allEntries y
      let kept := es.filterMap (s.sweepEntry tag)
      State.count (s.setEntries y { y with entries := kept }) (engineSrc x.desc) 0x12 (es.length - kept.length)) s

def execSweepDone (s : State) : Host.Outcome State Fault Refusal :=
  answer (if (span 37 41).all s.up then s.sweepDone else s)

end Sys2Proof.Machine
end

