-- ==== Sys2Proof/Machine/Tasks.lean ====
section
/-! DEFINITION. The Task Scheduler: ticks, the delay list, ready queues, offers, and the end of a run
(spec/11_task_scheduler.md R270 to R280). -/

namespace Sys2Proof.Machine

/-! ### Lists -/

/-- Insert a task into the delay list by its due tick, behind equal ones (R274). -/
def delayInsert (due n : Nat) : List (Nat × Nat) → List (Nat × Nat)
  | [] => [(due, n)]
  | e :: t => if due < e.1 then (due, n) :: e :: t else e :: delayInsert due n t

/-- Take a task out of the delay list and the ready queues. -/
def State.unlistTask (s : State) (n : Nat) : State :=
  { s with tasks := { s.tasks with delay := s.tasks.delay.filter (fun e => e.2 != n), ready := s.tasks.ready.filter (· != n) } }

/-- The task becomes DELAYED with a due tick. -/
def State.delayTask (s : State) (n due : Nat) : State :=
  let s := (s.unlistTask n).modTask n (fun x => { x with st := .delayed, due := due, armPending := none, cancelled := false })
  { s with tasks := { s.tasks with delay := delayInsert due n s.tasks.delay } }

/-- The task goes to the tail of its ready queue. -/
def State.readyTask (s : State) (n : Nat) : State :=
  let s := (s.unlistTask n).modTask n (fun x => { x with st := .ready })
  { s with tasks := { s.tasks with ready := s.tasks.ready ++ [n] } }

def taskSrc : Nat := src 42 0

/-- The scheduler reads a task's words: an uncorrectable one takes the task from every list and makes it IDLE with
FAULTED set (R280; DEDUCED, log 20: the words written then are whole). -/
def State.taskEcc (s : State) (n : Nat) (master : Nat := 0x1000) (access : Nat := 1) : State :=
  if s.tasks.bad.contains n then
    let s := s.unlistTask n
    let s := { s with tasks := { s.tasks with bad := s.tasks.bad.filter (· != n) } }
    (s.modTask n (fun x => { x with st := .idle, faulted := true, armPending := none })).raise taskSrc 0x8A { addr := n, master := master, access := access }
  else s

/-! ### Ticks (R274) -/

/-- Ticks whose instants device time has reached and that have not fallen: the first one TICK after the last, by the TICK then in force, and
the others by the parameter, which takes effect with the first (DEDUCED, log 62). -/
def State.ticksDue (s : State) : Nat :=
  let first := s.tasks.tickAt + s.tasks.period
  if s.now < first then 0 else (s.now - first) / s.param 0x05 + 1

/-- Every tick that device time has reached falls, and each task due at or before the last of them moves to its ready queue, in list order. -/
def State.tick (s : State) : State :=
  let n := s.ticksDue
  if n = 0 then s
  else
    let k := s.tasks.tick + n
    let s := { s with tasks := { s.tasks with
      tick := k, tickAt := s.tasks.tickAt + s.tasks.period + (n - 1) * s.param 0x05, period := s.param 0x05 } }
    (s.tasks.delay.filter (fun e => e.1 ≤ k)).foldl (fun s e =>
      let s := s.taskEcc e.2
      if (s.tsk e.2).st = .delayed then
        (State.modTask (s.readyTask e.2) e.2 (fun x => { x with fellAt := some s.time.elapsed })).count taskSrc 0x10
      else s) s

def execTick (s : State) : Host.Outcome State Fault Refusal := answer (if s.up 42 then s.tick else s)

/-! ### Offers (R276, R277) -/

/-- READY tasks by priority, highest first, the oldest first in each. -/
def State.readyOrder (s : State) : List Nat :=
  [7, 6, 5, 4, 3, 2, 1, 0].flatMap (fun p => s.tasks.ready.filter (fun n => (s.tsk n).prio.toNat == p))

/-- TASK_OFFER: the oldest acceptable task of the highest priority is stamped and sent toward I26. -/
def State.taskOffer (s : State) : State :=
  let s := s.tasks.ready.foldl (fun s n => s.taskEcc n) s
  match s.tasks.tag with
  | none => s
  | some tag =>
    let order := s.readyOrder
    let fits := fun (n : Nat) => s.recFree.isSome && s.taskFits (s.tsk n) tag
    let passed := (order.takeWhile (fun n => !fits n)).length
    let s := if passed = 0 then s else s.count taskSrc 0x15 passed
    match order.find? fits with
    | none => s
    | some n =>
      State.count (((s.unlistTask n).modTask n (fun x => { x with st := .dispatched })).send 42 26 (.task n tag)) taskSrc 0x11

def execTaskOffer (s : State) : Host.Outcome State Fault Refusal := answer (if s.up 42 then s.taskOffer else s)

/-- A task that did not get a record goes back to the head of its ready queue. -/
def State.taskReturn (s : State) (n : Nat) (passed : Bool) : State :=
  let s := s.taskEcc n
  if (s.tsk n).st = .dispatched then
    let s := s.modTask n (fun x => { x with st := .ready })
    State.count { s with tasks := { s.tasks with ready := n :: s.tasks.ready } } taskSrc (if passed then 0x15 else 0x14)
  else s

/-- TASK_RESTAMP (R277). -/
def State.taskRestamp (s : State) : State :=
  match s.arrive 26 42 with
  | some (.taskBack n passed) => (s.taken 26 42).taskReturn n passed
  | _ => s

def execTaskRestamp (s : State) : Host.Outcome State Fault Refusal := answer s.taskRestamp

/-- MARKER_AT_TASK_SCHEDULER (R277, R355): later tasks are stamped with the new Accord. -/
def State.taskMarker (s : State) : State :=
  match s.arrive 26 42 with
  | some (.marker tag) =>
    let s := s.taken 26 42
    { s with tasks := { s.tasks with tag := some tag } }
  | _ => s

def execMarkerAtTaskScheduler (s : State) : Host.Outcome State Fault Refusal := answer s.taskMarker

/-! ### The end of a run (R275) -/

/-- The next due tick of a periodic re-arm, and the periods skipped. -/
def nextDue (due period tick : Nat) : Nat × Nat :=
  let d := due + period
  if tick < d then (d, 0)
  else
    let k := (tick - d) / period + 1
    (d + k * period, k)

def satAdd (a : BitVec 16) (n : Nat) : BitVec 16 := BitVec.ofNat 16 (min 65535 (a.toNat + n))

/-- A completed run: the pending arm, the periodic re-arm, or IDLE. -/
def State.taskRearm (s : State) (n : Nat) : State :=
  let x := s.tsk n
  match x.armPending with
  | some d => s.delayTask n (s.tasks.tick + d)
  | none =>
    if x.period ≠ 0 ∧ !x.cancelled then
      let (due, k) := nextDue x.due x.period.toNat s.tasks.tick
      let s := (s.delayTask n due).modTask n (fun x => { x with missed := satAdd x.missed k })
      if k = 0 then s else s.count taskSrc 0x12 k
    else s.modTask n (fun x => { x with st := .idle, cancelled := false })

def State.taskRunEnd (s : State) : State :=
  match s.arrive 26 42 with
  | some (.taskEnd n how r g) =>
    let s := (s.taken 26 42).taskEcc n
    if (s.tsk n).st ≠ .dispatched then s
    else
      let stop := fun (s : State) => s.modTask n (fun x => { x with st := .idle, armPending := none, cancelled := false })
      match how with
      | .consume => s.taskRearm n
      | .drop => stop s
      | .faulted =>
        let s := (s.modTask n (fun x => { x with faulted := true })).raise taskSrc 0x88 { detail := recDetail g r }
        if (s.tsk n).rearmFault then s.taskRearm n else stop s
  | _ => s

def execTaskRunEnd (s : State) : Host.Outcome State Fault Refusal := answer s.taskRunEnd

/-! ### Task commands (R270, R272) -/

/-- The task a handle names, where its GEN is the task's. -/
def State.taskOf (s : State) (h : Nat) : Option Nat :=
  if bits h 31 24 = (s.tsk (h % 65536)).gen.toNat ∧ bits h 23 16 = 0 then some (h % 65536) else none

/-- The lowest-numbered FREE task. -/
def State.freeTask (s : State) : Option Nat :=
  let n := firstGap 0 ((s.tasks.task.filter (fun e => e.2.st != .free)).map (·.1))
  if n < 65536 then some n else none

/-- TASK_ARM with a delay: its status (DEDUCED, log 49). One with d 0 in the instant of a TASK_CANCEL is CANCELLED (R273, log 57). -/
def State.taskArm (s : State) (n d : Nat) : Nat × State :=
  let s := s.taskEcc n
  match (s.tsk n).st with
  | .free => (stBadState, s)
  | .idle =>
    if d = 0 ∧ (s.tsk n).cancelAt = some s.time.elapsed then (stCancelled, s)
    else if d = 0 then (stDone, (s.modTask n (fun x => { x with due := s.tasks.tick, cancelled := false })).readyTask n) else (stDone, s.delayTask n (s.tasks.tick + d))
  | .delayed => (stDone, s.delayTask n (s.tasks.tick + d))
  | .ready => (stAlready, s)
  | .dispatched => (stDone, s.modTask n (fun x => { x with armPending := some d }))

/-- A due that a cancel of its instant takes back is counted as CANCELLED_DUE and not as DUE (R273). -/
def State.cancelDue (s : State) : State :=
  let back := fun (x : Counter) => ({ count := x.count - 1, wrapped := x.wrapped && x.count != 0 } : Counter)
  let s := { s with obs := { s.obs with
    counter := Store.modify {} s.obs.counter (counterKey taskSrc 0x10) back
    window := s.obs.window.map (fun (e : Nat × WinCounter) =>
      if e.1 / 8 = taskSrc ∧ e.2.event = 0x10 then (e.1, { e.2 with count := e.2.count - 1 }) else e) } }
  s.count taskSrc 0x13

/-- TASK_CANCEL. One that meets the task's due tick, before that tick has been taken or in the instant in which it fell, wins (R273,
log 57). -/
def State.taskCancel (s : State) (n : Nat) : Nat × State :=
  let s := s.taskEcc n
  let x := s.tsk n
  let idle := fun (s : State) => State.modTask (s.unlistTask n) n (fun x =>
    { x with st := .idle, armPending := none, cancelled := false, fellAt := none, cancelAt := some s.time.elapsed })
  match x.st with
  | .free => (stBadState, s)
  | .idle => (stAlready, s.modTask n (fun x => { x with cancelAt := some s.time.elapsed }))
  | .delayed => (stDone, if x.due ≤ s.tasks.tick + s.ticksDue then (idle s).count taskSrc 0x13 else idle s)
  | .ready => (stDone, if x.fellAt = some s.time.elapsed then (idle s).cancelDue else idle s)
  | .dispatched => (stDone, s.modTask n (fun x => { x with armPending := none, cancelled := true }))

/-- TASK_FREE (DEDUCED, log 49). -/
def State.taskFree (s : State) (n : Nat) : Nat × State :=
  let s := s.taskEcc n
  match (s.tsk n).st with
  | .free => (stAlready, s)
  | .idle => (stDone, s.modTask n (fun x => { gen := x.gen + 1 }))
  | _ => (stBusy, s)

/-- The record a DISPATCHED task has, where I26 has accepted it. -/
def State.taskRecord (s : State) (n : Nat) : Option Nat :=
  (s.seq.recs.find? (fun e => e.2.st != .free && e.2.task && e.2.taskNo == n)).map (·.1)

/-- Some message about task `n` crosses between I42 and I26. -/
def State.taskCrosses (s : State) (n : Nat) (ended : Bool) : Bool :=
  s.net.any (fun x => match x.msg with
    | .task k _ => k == n && !ended
    | .taskBack k _ => k == n && !ended
    | .taskEnd k _ _ _ => k == n && ended
    | _ => false)

/-- TASK_ABORT: the record is faulted with TASK_ABORTED, and the command is done once the Sequencer has applied it: one for a task still on
its way to or from I26 waits, `none`. A COMMIT that I26 has accepted stands, and so does a run that has ended (R272, R273; DEDUCED, log 44). -/
def State.taskAbort (s : State) (n : Nat) : Option (Nat × State) :=
  let s := s.taskEcc n
  if (s.tsk n).st ≠ .dispatched then some (stBadState, s)
  else match s.taskRecord n with
    | none => if s.taskCrosses n false && !s.taskCrosses n true then none else some (stAlready, s)
    | some r =>
      if (s.rcd r).st = .committed then some (stAlready, s)
      else
        let s := (s.raise taskSrc 0x89 { detail := recDetail (s.rcd r).gen r }).sendAbort r
        some (stDone, s.faultRecord r 0x89 false false false)

end Sys2Proof.Machine
end

