-- ==== Sys2Proof/Machine/Steward.lean ====
section
/-! DEFINITION. How the Steward takes a packet: the transports, the checks in their order, serials and stored replies, and
the shape of every command (spec/17_command_protocol.md R389 to R402; spec/18_command_reference.md R417 to R421). -/

namespace Sys2Proof.Machine

/-! ### Packets (R389) -/

/-- A packet as it lies in its buffer; MAGIC is right and PLEN is the length of `params`. -/
structure Pkt where
  version : Nat := 1
  flags   : BitVec 8
  op      : Nat
  tag     : BitVec 32
  issuer  : Nat
  rsvd    : Nat
  serial  : Nat
  params  : List Byte
  sig     : List Byte
  deriving DecidableEq, Repr

/-- Header and parameters: what a signature covers. -/
def Pkt.body (k : Pkt) : List Byte :=
  [0x59, 0x4E, BitVec.ofNat 8 k.version, k.flags] ++ beBytes 2 k.op ++ beBytes 2 k.params.length ++ beBytes 4 k.tag.toNat
    ++ beBytes 2 k.issuer ++ beBytes 2 k.rsvd ++ beBytes 8 k.serial ++ k.params

def Pkt.bytes (k : Pkt) : List Byte := k.body ++ k.sig

def Pkt.signed (k : Pkt) : Bool := k.flags.getLsbD 5

/-- The packet a command carries: its opcode, and the selector byte that the command's name stands for. -/
def pktOf (x : Packet) (op : Nat) (sel : Option (Nat × Byte)) : Pkt :=
  { flags := x.flags, op := op, tag := x.tag, issuer := x.issuer.toNat, rsvd := x.rsvd.toNat, serial := x.serial.toNat
    params := match sel with
      | none => x.params
      | some (i, v) => x.params.take i ++ [v] ++ x.params.drop i
    sig := x.sig }

/-! ### Transports (R398 to R402) -/

def Origin.plenLimit : Origin → Nat
  | .pcie => 4096
  | .inband _ _ => 1344
  | .i2c => 256

/-- The transport's bit of TRANSPORTS (R393). -/
def Origin.transport : Origin → Nat
  | .pcie => 29
  | .inband _ _ => 28
  | .i2c => 27

/-- Master identity of a command (R20, R394). -/
def Origin.master (o : Origin) (slot : Nat) : Nat := (match o with | .pcie => 0x2000 | _ => 0x3000) + slot

/-- A ring halts on a malformed entry (R400, R415). -/
def State.haltCmd (s : State) : State := State.event { s with bar0 := { s.bar0 with cmd := { s.bar0.cmd with halted := true } } } 6
def State.haltRpl (s : State) : State := State.event { s with bar0 := { s.bar0 with rpl := { s.bar0.rpl with halted := true } } } 5

/-- A command ring entry keeps its layout; so does a posted reply entry. -/
def cmdEntryOk (e : RingEntry) : Bool := e.addr.toNat % 8 == 0 && 24 ≤ e.len.toNat && e.len.toNat ≤ 4184 && e.rest == 0
def rplEntryOk (e : RingEntry) : Bool := e.len.toNat % 64 == 0 && 4160 ≤ e.len.toNat

/-- The number of a transport, in the order of R392. -/
def viaNumber : Via → Nat
  | .pcie _ _ => 0
  | .inband => 1
  | .i2c => 2

/-- A transport has a packet waiting that the Steward could take; I2C brings its packet as it is taken. -/
def State.packetWaits (s : State) (n : Nat) : Bool :=
  let r := s.bar0.cmd
  if n = 0 then s.pcieOn && r.enable && !r.halted && r.head != r.tail && s.bar0.replyPosted
  else n == 1 && s.ycp.up && !s.ycp.mailbox.isEmpty

/-- It is the transport's turn: none before it, from the one whose turn it is, has a packet (R392). -/
def State.inTurn (s : State) (n : Nat) : Bool :=
  ((List.range 3).map (fun k => (s.ycp.turn + k) % 3)).find? (fun k => k == n || s.packetWaits k) == some n

/-- A packet of these bytes comes off its transport: `none` when it cannot now; an origin absent where what was taken is no packet of that
length (DEDUCED, log 56). -/
def State.takeFrom (s : State) (via : Via) (bytes : List Byte) : Option (Option Origin × State) :=
  if s.ycp.deferred.isSome ∨ ¬ s.serves ∨ ¬ s.up 51 then none
  else match via with
  | .pcie cmd rpl =>
    let r := s.bar0.cmd
    if s.pcieOn && r.enable && !r.halted && r.head != r.tail && s.bar0.replyPosted then
      if ¬ rplEntryOk rpl then some (none, s.haltRpl)
      else if ¬ cmdEntryOk cmd then some (none, s.haltCmd)
      else
        let s := { s with bar0 := { s.bar0 with cmd := { r with head := r.head + 1 } } }
        if cmd.len.toNat = bytes.length then some (some .pcie, s)
        else some (none, State.count { s with ycp := { s.ycp with discarded := s.ycp.discarded + 1 } } (src 51 0) 0x10)
    else none
  | .inband =>
    match s.ycp.mailbox with
    | f :: rest =>
      let t := { s with ycp := { s.ycp with mailbox := rest } }
      if ¬ s.ycp.up then none
      else if f.poison then some (none, State.count { t with ycp := { t.ycp with badFrames := t.ycp.badFrames + 1 } } (src 51 0) 0x14)
      else if s.inbandPacket f.frame = some bytes then some (some (.inband f.port f.frame), t) else none
    | [] => none
  | .i2c => if s.ycp.up ∧ (s.ycp.i2c.st ≠ 1 ∨ s.ycp.waiting.isSome) then some (some .i2c, { s with ycp := { s.ycp with i2c := {} } }) else none

/-- The Steward takes a packet of these bytes from a transport in its turn, and no other while one that it has examined waits (R392). -/
def State.takePacket (s : State) (via : Via) (bytes : List Byte) : Option (Option Origin × State) :=
  if s.ycp.waiting.isSome ∧ s.ycp.waiting ≠ some ((viaNumber via), bytes) then none
  else if s.ycp.waiting.isNone ∧ s.inTurn (viaNumber via) = false then none
  else (s.takeFrom via bytes).map (fun r => (r.1, { r.2 with ycp := { r.2.ycp with turn := ((viaNumber via) + 1) % 3, waiting := none } }))

/-- A packet waits under examination: its transport keeps it, and the I2C target reads executing (R392, R402). -/
def State.keepPacket (s : State) (via : Via) (bytes : List Byte) : State :=
  { s with ycp := { s.ycp with waiting := some ((viaNumber via), bytes), i2c := if via = .i2c then { st := 1 } else s.ycp.i2c } }

/-! ### The checks of R391 -/

/-- Object classes that I2C may read (R404). -/
def i2cClass (c : Nat) : Bool := [0x11, 0x18, 0x43, 0x90, 0xA0, 0xB4, 0xB6, 0xC0, 0xD0, 0xF0].contains c

/-- The opcode is one of the I2C subset (R402). -/
def i2cSubset (op : Nat) (params : List Byte) : Bool :=
  op == 0x0001 || op == 0x0002 || op == 0x0500 || op == 0x0502 || (op == 0x0100 && i2cClass (beVal (slice params 0 2)))

/-- The opcode is one that the boot ROM serves in recovery (R446). -/
def recoverySubset (op : Nat) (params : List Byte) : Bool :=
  [0x0001, 0x0002, 0x0702, 0x0201, 0x0202, 0x0203, 0x0700, 0x0701].contains op || (op == 0x0200 && beVal (slice params 1 1) == 3)

/-- Step 8: the slot's classes, the transport's subset, factory test and recovery. -/
def State.permitted (s : State) (o : Origin) (k : Pkt) : Bool :=
  let c := k.op / 256
  c < 16 && (s.issuer k.issuer).ctl.getLsbD c
    && (c != 0x0F || (s.sec.factoryMode && o == .pcie))
    && (o != .i2c || i2cSubset k.op k.params)
    && (!s.sec.recovery || recoverySubset k.op k.params)

/-- A packet refused with AUTH_FAIL: counted, and reported at most once a second for its slot (R391, R442). -/
def State.authReject (s : State) (o : Origin) (slot : Nat) : State :=
  let s := s.count (src 51 0) 0x13
  let last := Store.get 0 s.sec.rejectSec slot
  if last = 0 ∨ last + 1000000000 ≤ s.time.elapsed + 1 then
    State.raise { s with sec := { s.sec with rejectSec := Store.set 0 s.sec.rejectSec slot (s.time.elapsed + 1) } } (src 51 1) 0xB8
      { master := if slot < 16 then o.master slot else 0x1000 }
  else s

/-- What steps 1 to 6 make of a packet. -/
inductive Verdict where
  | discard
  | badVersion
  | authFail
  | stale
  | replay (r : Stored)
  | proceed
  deriving DecidableEq, Repr

/-- A signature is required of the packet (R394). -/
def State.mustSign (s : State) : Origin → Bool
  | .pcie => s.sec.pcieSigned
  | .inband _ _ => true
  | .i2c => false

/-- Steps 1 to 6. A serial that has executed and left no reply, as an abandoned commit does (R364), never executes again: it is answered as a
stale one (R395; DESIGN CHOICE, log 18). -/
def State.verdict (s : State) (o : Origin) (k : Pkt) : Verdict :=
  let i := s.issuer k.issuer
  if k.sig.length ≠ (if k.signed then 64 else 0) ∨ o.plenLimit < k.params.length ∨ k.flags.getLsbD 7 then .discard
  else if k.version ≠ 1 then .badVersion
  else if 15 < k.issuer ∨ ¬ (i.ctl.getLsbD 31 ∧ i.ctl.getLsbD o.transport) then .authFail
  else if k.signed = false ∧ s.mustSign o then .authFail
  else if k.signed ∧ ¬ (i.ctl.getLsbD 30 ∧ edVerify i.key k.body k.sig) then .authFail
  else if k.serial = 0 ∨ k.serial + 64 ≤ i.high then .stale
  else match i.stored.find? (fun r => r.serial == k.serial) with
    | some r => .replay r
    | none => if i.executed.contains k.serial then .stale else .proceed

/-! ### Running a command -/

/-- A command that passed the checks: where its reply goes, its master identity and its parameters. -/
structure Cmd where
  answerTo     : ReplyTo
  master : Nat
  p      : List Byte
  deriving DecidableEq, Repr

/-- `n` parameter bytes from offset `o` as a number. -/
def Cmd.n (c : Cmd) (o n : Nat) : Nat := beVal (slice c.p o n)

/-- The transport's limit on results: 4 + result bytes stay within it (R398). -/
def Cmd.fits (c : Cmd) (n : Nat) : Bool := 4 + n ≤ c.answerTo.origin.plenLimit

/-- How a command ends when it is run. -/
inductive Ran where
  /-- Its reply. -/
  | done (status : Nat) (results : List Byte) (s : State)
  /-- ACCEPTED, with the operation it starts. -/
  | start (op : AsyncOp) (s : State)
  /-- Its reply follows from a later event. -/
  | defer (wait : Wait) (s : State)
  /-- A several-index write that stops at an event: class, next index, values left, values done. -/
  | objects (wait : Wait) (cls next : Nat) (rest : List ObjWord) (done : Nat) (s : State)
  /-- It waits: it has not been taken yet (R348, R349, R520). -/
  | wait

/-- The command waits until a start-up step has ended (R520). -/
def State.after (s : State) (step : Nat) (r : Ran) : Ran := if s.startup.done.contains step then r else .wait

def Ran.ok (s : State) : Ran := .done stDone [] s
def Ran.status (st : Nat) (s : State) : Ran := .done st [] s

/-- Consume the serial (R395, R396; DEDUCED, log 46). -/
def State.consume (s : State) (k : Pkt) : State :=
  s.modIssuer k.issuer (fun i => { i with
    high := max i.high k.serial
    stored := i.stored.filter (fun r => max i.high k.serial < r.serial + 64)
    executed := (i.executed.filter (fun n => n != k.serial && decide (max i.high k.serial < n + 64))) ++ [k.serial]
    reservation := if i.reservation < max i.high k.serial + 2 ^ 19 then max i.high k.serial + 2 ^ 20 else i.reservation })

def State.settle (s : State) (answerTo : ReplyTo) : Ran → Option State
  | .done st res t => some (t.reply answerTo st res)
  | .start op t =>
    if 8 ≤ s.ycp.asyncs.countP (fun a => a.answerTo.issuer == answerTo.issuer) then some (s.reply answerTo stBusy [])
    else some (State.reply { t with ycp := { t.ycp with asyncs := t.ycp.asyncs ++ [⟨answerTo, op⟩] } } answerTo stAccepted [])
  | .defer w t => some { t with ycp := { t.ycp with deferred := some { answerTo := answerTo, wait := w } } }
  | .objects w cls next rest n t =>
    some { t with ycp := { t.ycp with deferred := some { answerTo := answerTo, wait := w, cls := cls, next := next, rest := rest, done := n } } }
  | .wait => none

/-- Steps 7 to 10 for a packet that steps 1 to 6 let pass; `none` where the command waits. `known` is false for an
unassigned opcode. -/
def State.runPacket (s : State) (o : Origin) (k : Pkt) (answerTo : ReplyTo) (known : Bool) (form : List Byte → Bool)
    (run : Cmd → State → Ran) : Option State :=
  let s := s.consume k
  if ¬ known then some (s.reply answerTo stBadOpcode [])
  else if ¬ s.permitted o k then some (s.reply answerTo stNotPermitted [])
  else if k.flags &&& 0x5F ≠ 0 ∨ k.rsvd ≠ 0 ∨ ¬ form k.params then some (s.reply answerTo stBadParam [])
  else
    let s := s.count (src 51 0) 0x11
    s.settle answerTo (run { answerTo := answerTo, master := o.master k.issuer, p := k.params } s)

/-- R391 from its first step (DEDUCED, log 47). -/
def State.examine (s : State) (o : Origin) (k : Pkt) (known : Bool) (form : List Byte → Bool) (run : Cmd → State → Ran) : Option State :=
  let answerTo : ReplyTo := { version := k.version, origin := o, opcode := k.op, tag := k.tag, issuer := k.issuer, serial := k.serial }
  match s.verdict o k with
  | .discard => some (State.count { s with ycp := { s.ycp with discarded := s.ycp.discarded + 1 } } (src 51 0) 0x10)
  | .badVersion => some (s.sendReply o (replyBytes answerTo false stBadOpcode 0 []))
  | .authFail => some ((s.authReject o k.issuer).sendReply o (replyBytes answerTo false stAuthFail 0 []))
  | .stale => some (s.sendReply o (replyBytes answerTo false stBadState 0 (beBytes 8 (s.issuer k.issuer).high)))
  | .replay r =>
    some ((s.count (src 51 0) 0x12).sendReply o (replyBytes answerTo r.completion stReplay r.status.toNat r.results))
  | .proceed => s.runPacket o k answerTo known form run

/-- One YCP command: its packet is taken from its transport, checked and run. Nothing changes while it cannot be taken, and one that waits
keeps the Steward from the next (R392). -/
def State.packet (s : State) (x : Packet) (op : Nat) (sel : Option (Nat × Byte)) (form : List Byte → Bool)
    (run : Cmd → State → Ran) : State :=
  let k := pktOf x op sel
  match s.takePacket x.via k.bytes with
  | none => s
  | some (none, t) => t
  | some (some o, t) => (t.examine o k true form run).getD (s.keepPacket x.via k.bytes)

/-- Parameters of `n` bytes with the reserved spans given, each offset and length, zero (R417). -/
def plen (n : Nat) (res : List (Nat × Nat) := []) (p : List Byte) : Bool :=
  p.length == n && res.all (fun e => (slice p e.1 e.2).all (· == 0))

/-! ### Packets that no command's row carries (R391) -/

/-- The opcodes of the command reference, each with its selector's offset and the values that name a command. -/
def opcodes : List (Nat × Option (Nat × List Nat)) :=
  [(0x0001, none), (0x0002, none), (0x0003, some (0, [0, 1, 2, 3])), (0x0004, none)]
  ++ [(0x0100, none), (0x0101, none), (0x0102, none), (0x0108, none), (0x0109, none), (0x0110, none), (0x0111, none),
      (0x0112, none), (0x0113, none), (0x0114, none), (0x0118, none), (0x0119, none), (0x011A, none), (0x0120, none),
      (0x0121, none), (0x0122, none), (0x0128, some (4, [0, 1]))]
  ++ [(0x0200, none), (0x0201, none), (0x0202, none), (0x0203, none)]
  ++ [(0x0300, none), (0x0301, none), (0x0302, none), (0x0308, none), (0x0309, none)]
  ++ [(0x0400, none), (0x0401, some (3, [0, 1]))]
  ++ [(0x0500, none), (0x0501, none), (0x0502, none), (0x0503, none), (0x0504, some (0, [0, 1]))]
  ++ [(0x0600, none), (0x0601, none), (0x0602, none), (0x0603, none), (0x0604, none), (0x0608, none), (0x0609, none),
      (0x060A, none), (0x0610, some (1, [0, 1])), (0x0611, none), (0x0612, none), (0x0618, none), (0x0619, none)]
  ++ [(0x0700, none), (0x0701, none), (0x0702, none), (0x0708, none), (0x0709, none), (0x070A, none)]
  ++ [(0x0800, none), (0x0801, none), (0x0802, none), (0x0803, none), (0x0804, none), (0x0805, none), (0x0808, none)]
  ++ [(0x0F00, none)]

/-- The packet in a byte string whose lengths and MAGIC agree. -/
def parsePkt (l : List Byte) : Option Pkt :=
  let n := beVal (slice l 6 2)
  let flags := l.getD 3 0
  if l.length < 24 ∨ l.length ≠ 24 + n + (if flags.getLsbD 5 then 64 else 0) ∨ beVal (slice l 0 2) ≠ 0x594E then none
  else some { version := beVal (slice l 2 1), flags := flags, op := beVal (slice l 4 2), tag := BitVec.ofNat 32 (beVal (slice l 8 4))
              issuer := beVal (slice l 12 2), rsvd := beVal (slice l 14 2), serial := beVal (slice l 16 8)
              params := slice l 24 n, sig := l.drop (24 + n) }

/-- The packet belongs to a command's own row: version 1, an assigned opcode, and a selector that names a command. -/
def Pkt.ownRow (k : Pkt) : Bool :=
  k.version == 1 && opcodes.any (fun e => e.1 == k.op && (match e.2 with
    | none => true
    | some (i, vs) => i < k.params.length && vs.contains (beVal (slice k.params i 1))))

/-- MALFORMED_PACKET: bytes that are no packet, or a packet with a wrong version, an unassigned opcode or a reserved
selector, meet the checks. -/
def State.malformed (s : State) (via : Via) (l : List Byte) : State :=
  match parsePkt l with
  | some k =>
    if k.ownRow then s
    else match s.takePacket via l with
      | none => s
      | some (none, t) => t
      | some (some o, t) => (t.examine o k (opcodes.any (fun e => e.1 == k.op)) (fun _ => false) (fun _ _ => .wait)).getD s
  | none =>
    match s.takePacket via l with
    | none => s
    | some (none, t) => t
    | some (some _, t) => State.count { t with ycp := { t.ycp with discarded := t.ycp.discarded + 1 } } (src 51 0) 0x10

def execMalformedPacket (via : Via) (bytes : List Byte) (s : State) : Host.Outcome State Fault Refusal :=
  answer (s.malformed via bytes)

/-- SERIAL_RESERVATION_WRITE (R396): HIGH has come within 2¹⁹ of the slot's reservation, so a new one is written. -/
def State.reserve (s : State) (i : Nat) : State :=
  let x := s.issuer i
  if i < 16 ∧ s.serves ∧ x.reservation < x.high + 2 ^ 19 then s.modIssuer i (fun x => { x with reservation := x.high + 2 ^ 20 }) else s

def execSerialReservationWrite (issuer : Nat) (s : State) : Host.Outcome State Fault Refusal := answer (s.reserve issuer)

/-- I2C_REPLY_READ (R402): STATE, RLEN and the reply; a reply read to its end is cleared. -/
def State.i2cRead (s : State) : State :=
  if s.ycp.up then
    let x := s.ycp.i2c
    let r := if x.st = 2 then x.reply else []
    State.emit { s with ycp := { s.ycp with i2c := if x.st = 2 then {} else x } } (.i2cRead ([x.st] ++ beBytes 2 r.length ++ r))
  else s

def execI2cReplyRead (s : State) : Host.Outcome State Fault Refusal := answer s.i2cRead

end Sys2Proof.Machine
end

