-- ==== Sys2Proof/Machine/Flash.lean ====
section
/-! DEFINITION. Boot flash, owner keys and firmware manifests: reading, erasing and programming, and the checks of a manifest
(spec/19_security_update.md R434 to R444). -/

namespace Sys2Proof.Machine

/-! ### Boot flash (R434, R435) -/

def complement (l : List Byte) : List Byte := l.map (~~~ ·)

def State.flashRead (s : State) (a n : Nat) : List Byte := complement (mread s.sec.flash a n)

def State.flashWrite (s : State) (a : Nat) (l : List Byte) : State :=
  { s with sec := { s.sec with flash := mwrite s.sec.flash a (complement l) } }

/-- DESIGN CHOICE, log 34. -/
def State.flashErase (s : State) (a n : Nat) : State := { s with sec := { s.sec with flash := mclear s.sec.flash a n } }

/-- Base and size of what a firmware staging selector names. -/
def flashRegion (sel : Nat) : Option (Nat × Nat) :=
  match sel with
  | 0 => some (0x400000, 14 * 2 ^ 20)
  | 1 => some (0x1200000, 14 * 2 ^ 20)
  | 2 => some (0x100000, 3 * 2 ^ 20)
  | 3 => some (0x30000, 4096)
  | _ => none

def slotBase (k : Nat) : Nat := if k = 0 then 0x400000 else 0x1200000

def State.slotSt (s : State) (k : Nat) : SlotState := if k = 0 then s.sec.slotA else s.sec.slotB

def State.setSlot (s : State) (k : Nat) (x : SlotState) : State :=
  { s with sec := if k = 0 then { s.sec with slotA := x } else { s.sec with slotB := x } }

/-! ### Owner keys (R436, R437) -/

def State.ownerGen (s : State) (slot gen : Nat) : Option (List Byte) := Store.get none s.sec.ownerKey (slot * 4 + gen - 1)

/-- The highest written generation of an owner slot, 0 when it is empty. -/
def State.ownerCurrent (s : State) (slot : Nat) : Nat := ((span 1 5).filter (fun g => (s.ownerGen slot g).isSome)).foldl max 0

def zeroBytes (l : List Byte) : Bool := l.all (· == 0)

/-- The current key of an owner slot that is neither empty nor revoked. -/
def State.ownerKeyOf (s : State) (slot : Nat) : Option (List Byte) :=
  if slot < 4 then
    match s.ownerGen slot (s.ownerCurrent slot) with
    | some k => if s.ownerCurrent slot = 0 ∨ zeroBytes k then none else some k
    | none => none
  else none

/-! ### Manifests (R441 to R443): little-endian, as Data Port images are (R4) -/

/-- A manifest is read through a function of offset and length, so that it may lie in flash or still in a window. -/
abbrev Reader := Nat → Nat → List Byte

structure Image where
  offset : Nat
  length : Nat
  digest : List Byte
  deriving DecidableEq, Repr

def manifestCount (rd : Reader) : Nat := leVal (rd 6 1)

def manifestImages (rd : Reader) : List Image :=
  (List.range (manifestCount rd)).map (fun i =>
    { offset := leVal (rd (24 + 80 * i + 4) 4), length := leVal (rd (24 + 80 * i + 8) 4), digest := rd (24 + 80 * i + 16) 64 })

/-- E of R441. -/
def manifestEnd (rd : Reader) : Nat := 24 + 80 * manifestCount rd

def manifestVersion (rd : Reader) : Nat := leVal (rd 8 4)
def manifestRollback (rd : Reader) : Nat := leVal (rd 12 2)

/-- SHA-512 over bytes 0 to E + 167. -/
def manifestSha (rd : Reader) : List Byte := sha512 (rd 0 (manifestEnd rd + 168))

/-- Check 1: the fixed fields, the reserved bytes, and images that lie within the `size` bytes given. -/
def manifestForm (rd : Reader) (size : Nat) : Bool :=
  let n := manifestCount rd
  let e := manifestEnd rd
  let ims := manifestImages rd
  leVal (rd 0 4) == 0x594E4D46 && leVal (rd 4 2) == 1 && 1 ≤ n && n ≤ 8 && leVal (rd 14 2) == 0x4208 && leVal (rd 16 1) ≤ 0xB1
    && zeroBytes (rd 7 1) && zeroBytes (rd 17 7) && zeroBytes (rd (e + 98) 6) && manifestRollback rd ≤ 256
    && (List.range n).all (fun i => zeroBytes (rd (24 + 80 * i + 1) 3) && [1, 2, 3].contains (leVal (rd (24 + 80 * i) 1)))
    && ims.all (fun m => m.offset % 4096 == 0 && 4096 ≤ m.offset && m.offset + m.length ≤ size)
    && (ims.map (·.length)).sum ≤ 8 * 2 ^ 20

/-- Check 2: an unrevoked vendor key signed it. -/
def State.manifestVendor (s : State) (rd : Reader) : Bool :=
  let e := manifestEnd rd
  let k := rd e 32
  (List.range 4).any (fun i => !s.sec.vendorRevoked.contains i && Config.vendorDigest i == (sha512 k).take 32)
    && edVerify k (ascii "YN-FWMAN" ++ rd 0 (e + 32)) (rd (e + 32) 64)

/-- Check 3: on an owned device, the owner's signature under its current key, or the claim digest. -/
def State.manifestOwner (s : State) (rd : Reader) : Bool :=
  let e := manifestEnd rd
  let o := leVal (rd (e + 96) 1)
  s.sec.lifecycle != .owned || (manifestSha rd).take 32 == s.sec.claim ||
    (match s.ownerKeyOf o with
     | some k => leVal (rd (e + 97) 1) == s.ownerCurrent o && edVerify k (ascii "YN-FWOWN" ++ rd 0 (e + 104)) (rd (e + 104) 64)
     | none => false)

/-- Check 4: every image has its digest. -/
def manifestHashes (rd : Reader) : Bool := (manifestImages rd).all (fun m => sha512 (rd m.offset m.length) == m.digest)

/-- The first check of R442 that fails; 0 when the manifest verifies. -/
def State.manifestCheck (s : State) (rd : Reader) (size : Nat) : Nat :=
  if !manifestForm rd size then 1 else if !s.manifestVendor rd then 2 else if !s.manifestOwner rd then 3
  else if !manifestHashes rd then 4 else 0

/-- What R442 and R443 say of a manifest, with the report of a failure: the status of R431. -/
def State.manifestStatus (s : State) (check rollback slot : Nat) : Nat × State :=
  if check ≠ 0 then
    (if check = 1 then stBadParam else stAuthFail, s.raise (src 51 1) 0xB8 { addr := check * 2 ^ 8 + slot % 2 })
  else if rollback < s.sec.count then (stBadState, s.raise (src 51 1) 0xBA)
  else (stDone, s)

/-! ### What a slot holds (R444; DESIGN CHOICE, log 34 for images as made) -/

def State.slotReader (s : State) (k : Nat) : Reader := fun o n => s.flashRead (slotBase k + o) n

def State.slotVersion (s : State) (k : Nat) : Nat :=
  if s.sec.written.contains k then manifestVersion (s.slotReader k) else (Config.firmwareVersion k).toNat

def State.slotRollback (s : State) (k : Nat) : Nat :=
  if s.sec.written.contains k then manifestRollback (s.slotReader k) else Config.rollbackIndex k

def State.slotSha (s : State) (k : Nat) : List Byte :=
  if s.sec.written.contains k then manifestSha (s.slotReader k) else Config.manifestDigest k

def State.slotCheck (s : State) (k : Nat) : Nat :=
  if s.sec.written.contains k then s.manifestCheck (s.slotReader k) (14 * 2 ^ 20) else Config.slotCheck k

/-- The self-test image fails its manifest as start-up examines it, with the report of the failure; one that no window has written is as
made (R435, R525; DESIGN CHOICE, log 34). -/
def State.testImage (s : State) : Bool × State :=
  if s.sec.written.contains 2 then
    let rd : Reader := fun o n => s.flashRead (0x100000 + o) n
    let r := s.manifestStatus (s.manifestCheck rd (3 * 2 ^ 20)) (manifestRollback rd) 0
    (r.1 != stDone, r.2)
  else (false, s)

/-- What a flash target holds was written by a window. -/
def State.noteWritten (s : State) (sel : Nat) : State :=
  { s with sec := { s.sec with written := if s.sec.written.contains sel then s.sec.written else s.sec.written ++ [sel] } }

/-- The slot verifies under R442 and R443. -/
def State.slotOk (s : State) (k : Nat) : Bool := s.slotCheck k == 0 && s.sec.count ≤ s.slotRollback k

/-- After a start that reaches STEWARD_UP: COUNT rises to the running index while the running slot is ACTIVE (R443). -/
def State.raiseCount (s : State) : State :=
  match s.sec.running with
  | some k =>
    if s.sec.active = k ∧ s.sec.count < s.slotRollback k then { s with sec := { s.sec with count := min 256 (s.slotRollback k) } } else s
  | none => s

/-! ### IMAGE_STAGE (R431, R444) -/

/-- A firmware staging window is open on the selector. -/
def State.stagingOpen (s : State) (sel : Nat) : Bool :=
  (List.range 16).any (fun w => let x := Store.get ({} : Window) s.ycp.windows w; x.st == 1 && x.target == 3 && x.selector == sel)

def execImageStage (pkt : Packet) (s : State) : Host.Outcome State Fault Refusal :=
  answer (s.packet pkt 0x0700 none (plen 4 [(1, 3)]) (fun c s =>
    let k := c.n 0 1
    if 2 ≤ k then .status stBadParam s
    else if s.running (.imageStage k) then .status stBusy s
    else if s.slotSt k ≠ .written ∨ s.stagingOpen k then .status stBadState s
    else .start (.imageStage k) s))

/-- IMAGE_STAGE_DONE: the verification of the slot ends. -/
def State.imageStaged (s : State) (k : Nat) : State :=
  if s.running (.imageStage k) then
    let (st, s) := s.manifestStatus (s.slotCheck k) (s.slotRollback k) k
    (if st = stDone then s.setSlot k .staged else s).complete (.imageStage k) st []
  else s

def execImageStageDone (slot : Nat) (s : State) : Host.Outcome State Fault Refusal :=
  answer (if s.serves then s.imageStaged slot else s)

end Sys2Proof.Machine
end

