-- ==== Sys2Proof/Machine/Pools.lean ====
section
/-! DEFINITION. The Buffer Pool Manager: cache refills, enabling a pool, leak sweeps and the H6 operations
(spec/12_buffer_pools.md R281 to R296, spec/08_helpers.md R224 to R228). -/

namespace Sys2Proof.Machine

/-! ### Caches (R286, R295) -/

/-- Discard ring entries that read uncorrectable: each is LOST, is not handed out any more and is reported (R295). -/
def State.loseEntries (s : State) (p : Nat) (l : List Nat) : State :=
  let l := l.filter (fun e => !(s.pool p).lost.contains e)
  if l.isEmpty then s
  else
    let s := s.modPool p (fun q =>
      let t := Pool.clip { q with lost := q.lost ++ l }
      { t with lowWater := min q.lowWater t.free })
    l.foldl (fun s e => s.raise (src 41 0) 0x90 { addr := p * 2 ^ 20 + e, master := 0x4105, access := 1 }) s

/-- Positions from the head that a refill of a cache with `n` entries reads. -/
def Pool.refillPlaces (p : Pool) (n : Nat) : List Nat := (span n (n + 64)).filter (· < p.ring.count)

/-- CACHE_REFILL: a cache that has fallen to 32 entries reads the next 64 of its ring, from DRAM in class SC1 once the channels that hold
them serve. -/
def State.cacheRefill (s : State) (p k : Nat) : State :=
  let q := s.pool p
  let n := q.cached k
  let at' := (q.refillPlaces n).map (fun i => s.slotAddr p (q.ring.slot i))
  if 32 < n then s
  else if p ≠ 0 ∧ s.poolDram p ∧ at'.any (fun a => !s.dramOpen a 8) then s
  else
    let bad := (q.refillPlaces n).filter (fun i => q.badRing.contains (q.ring.slot i) || (p != 0 && s.poolBad p (s.slotAddr p (q.ring.slot i)) 8))
    let lines := (at'.map (· / 64)).eraseDups
    let s := if p ≠ 0 ∧ s.poolDram p then ((s.dramIssue false lines 1 0x4105).readLines lines 0x4105 1).2 else s
    let s := s.loseEntries p (bad.map q.ring.entry)
    s.modPool p (fun q => { q with cache := Store.set 128 q.cache k (min (n + 64) q.free) })

def execCacheRefill (pool cache : Nat) (s : State) : Host.Outcome State Fault Refusal :=
  answer (if s.up 41 && (if pool = 0 then cache < 5 else pool < 16 && cache == 0) then s.cacheRefill pool cache else s)

/-! ### Pools (R283, R284) -/

/-- Bytes of a pool's region: buffers, state words and ring, rounded up to a cell or a MiB. -/
def regionSize (w : ObjWord) : Nat :=
  let n := fld w 56 36 * (2 ^ fld w 61 57 + 16)
  let u := if fld w 62 62 = 1 then 2 ^ 20 else 256
  (n + u - 1) / u * u

def regionBase (w : ObjWord) : Nat := fld w 18 0 * (if fld w 62 62 = 1 then 2 ^ 20 else 256)

/-- The regions of two pools overlap. -/
def regionsMeet (a b : ObjWord) : Bool :=
  fld a 62 62 == fld b 62 62 && regionBase a < regionBase b + regionSize b && regionBase b < regionBase a + regionSize a

/-- What a write that sets ENABLE needs. -/
def State.poolFits (s : State) (p : Nat) (w : ObjWord) : Bool :=
  let z := fld w 61 57
  let n := fld w 56 36
  6 ≤ z && z ≤ 21 && 1 ≤ n && n ≤ 1048576 && fld w 35 19 == 0 &&
    (if fld w 62 62 = 1 then regionBase w + regionSize w ≤ s.dramSize
     else s.param 0x06 * 256 ≤ regionBase w && regionBase w + regionSize w ≤ 262144 * 256)
    && (span 1 16).all (fun q => q == p || !s.poolOn q || !regionsMeet w (s.obj 0x0070 q))

/-- A write changes the pool's geometry. -/
def newGeometry (old w : ObjWord) : Bool := fld old 62 36 != fld w 62 36 || fld old 18 0 != fld w 18 0

/-- Bytes of a pool's buffers that are marked uncorrectable stay so; a new geometry starts with every buffer free and
every GEN 0, in the state words and in a ring that holds every buffer (R284). -/
def State.setPool (s : State) (p : Nat) (w : ObjWord) : State :=
  let n := fld w 56 36
  let fresh := newGeometry (s.obj 0x0070 p) w
  let s := s.setObj 0x0070 p w
  if fresh then
    let s := s.poolPut p (s.wordAddr p 0) (List.replicate (8 * n) 0 ++ (List.range n).flatMap (leBytes 8))
    s.modPool p (fun q => { q with
      ring := { limit := n }, cache := [], lowWater := n, lost := [], stuck := [], leaked := 0, inUse := 0, badRing := [], badBuf := [] })
  else s

/-- Buffers of a pool whose state word is not all zero, or is known to be damaged. -/
def State.usedBufs (s : State) (p : Nat) : List Nat :=
  let a := s.wordAddr p 0
  let m := if s.poolDram p then s.dram.data else s.pools.cells
  (((m.filter (fun e => a ≤ e.1 && e.1 < s.slotAddr p 0)).map (fun e => (e.1 - a) / 8)) ++ (s.pool p).stuck).eraseDups

/-! ### Leaks (R293) -/

/-- LEAK_SWEEP: every state word and descriptor state is visited, and what has been held longer than LEAK_AGE is marked. -/
def State.leakSweep (s : State) : State :=
  let age := s.param 0x08 * 100
  if age = 0 then s
  else
    let late := fun (w t : Nat) => age < (s.tenMs + 2 ^ w - t) % 2 ^ w
    let bufs := (span 1 16).flatMap (fun p => if s.poolOn p then
      ((s.usedBufs p).filter (fun i =>
        let b := s.buf p i
        (b.alloc || (s.pool p).stuck.contains i) && !b.leak && late 32 b.time.toNat)).map (fun i => (p, i)) else [])
    let ds := (s.pools.desc.filter (fun e => (e.2.st == .consumed || e.2.bad) && !e.2.leak && late 20 e.2.since.toNat)).map (·.1)
    let first := match bufs, ds with
      | (p, i) :: _, _ => bufHandle (s.buf p i).gen.toNat p i
      | [], d :: _ => (s.handleOf d).toNat
      | [], [] => 0
    let s := bufs.foldl (fun s e => (s.modBuf e.1 e.2 (fun b => { b with leak := true })).modPool e.1 (fun q => { q with leaked := q.leaked + 1 })) s
    let s := ds.foldl (fun s d => s.modDesc d (fun k => { k with leak := true })) s
    let n := bufs.length + ds.length
    if n = 0 then s else s.raise (src 41 0) 0x91 { addr := first, detail := n, master := 0x4105, access := 0xA }

def execLeakSweep (s : State) : Host.Outcome State Fault Refusal := answer (if s.up 41 then s.leakSweep else s)

/-! ### H6 (R224 to R228) -/

/-- What an H6 operation answers, with the state after it; `none` while it waits for a refill. -/
abbrev Packed := Option (HelperRes × State)

def State.cellEcc (s : State) (a master : Nat) : State := s.raise (src 41 1) 0x92 { addr := a / 256, master := master, access := 7 }

/-- Check a packet handle: the refusal, or whether it names the thread's own packet. -/
def State.packetCheck (s : State) (t : Nat) (h : HelperOp) : Sum (HelperRes × State) Bool :=
  let d := handleDesc h.xb
  let k := s.desc d
  let x := s.rcd h.record
  let plain := bits h.xb.toNat 23 19 = 0
  let own := x.disp.handle == h.xb && x.gen == h.gen && x.st == .running && !x.task && plain
  if k.bad then .inl (poisoned, s.raise (src 41 2) 0x90 { addr := d, master := t, access := 7 })
  else if k.gen.toNat ≠ bits h.xb.toNat 31 24 then .inl (refusal 1, s)
  else if own then .inr true
  else if k.st = .consumed ∧ plain then .inr false
  else .inl (refusal 2, s)

/-- Take head cells from pool 0 through the HEAD cache: none where the pool has none, `none` inside while it waits. -/
def State.headCellsFor : Nat → State → Option (Option (List Nat × State))
  | 0, s => some (some ([], s))
  | n + 1, s =>
    if !s.headGranted then some none
    else match s.takeEntry 0 4 with
      | none => if 0 < (s.pool 0).free then none else some none
      | some (c, s) =>
        match State.headCellsFor n s with
        | none => none
        | some none => some none
        | some (some (l, s)) => some (some (c :: l, s))

/-- The edited length with a head edit and a kept length. -/
def editLen (head : Option (List Nat × Nat × Nat)) (kept : Nat) : Int :=
  match head with
  | some (_, n, k) => (n : Int) + kept - k
  | none => kept

/-- DEDUCED, log 41. -/
def State.packetOp (s : State) (t : Nat) (h : HelperOp) (own : Bool) : Packed :=
  let d := handleDesc h.xb
  let k := s.desc d
  let len := metaLen k.metaw
  let n := bits h.fields.toNat 9 0
  let off := h.acc.toNat
  match h.op.toNat with
  | 0 =>
    if len ≤ off then some (refusal 3, s)
    else
      let n := min n (len - off)
      match s.chainBad k.cells off n with
      | some a => some (poisoned, s.cellEcc a t)
      | none => some ({ helpRes (BitVec.ofNat 64 n) with addr := h.dst, bytes := s.chainRead k.cells off n }, s)
  | 1 => if len < off + n then some (refusal 3, s) else some (helpRes 0, s.chainWrite k.cells off h.data)
  | 2 =>
    let cut := off % 16384
    let e : Int := (n : Int) + k.kept - cut
    if 512 < h.xa.toNat % 512 + n ∨ k.kept < cut ∨ e < 14 then some (refusal 3, s)
    else match State.headCellsFor ((n + 255) / 256) s with
      | none => none
      | some none => some (refusal 4, s.allocFail 0)
      | some (some (cells, s)) =>
        let s := (s.chainWrite cells 0 h.data).freeEntries 0 k.headCells
        some (helpRes (BitVec.ofInt 64 e), s.modDesc d (fun q => { q with head := some (cells, n, cut) }))
  | 3 =>
    let e := editLen k.head off
    if len < off ∨ e < 14 then some (refusal 3, s)
    else some (helpRes (BitVec.ofInt 64 e), s.modDesc d (fun q => { q with trim := some off }))
  | _ => if own then some (refusal 2, s) else some (helpRes 0, s.freePacket d)

def State.bufferOp (s : State) (t : Nat) (h : HelperOp) : Packed :=
  let p := bufPool h.xb.toNat
  let i := bufIndex h.xb.toNat
  let b := s.buf p i
  let n := bits h.fields.toNat 9 0
  let off := h.acc.toNat
  let a := s.bufAddr p i
  if p = 0 ∨ s.poolCount p ≤ i then some (refusal 2, s)
  else if s.poolGone p i then some (refusal 8, s)
  else if !s.poolOpen p i then none
  else if b.bad then some (poisoned, s.badWord p i t 7)
  else if b.gen.toNat ≠ bufGen h.xb.toNat then some (refusal 1, s)
  else if !b.alloc then some (refusal 2, s)
  else match h.op.toNat with
    | 6 => some (helpRes 0, s.freeBuffer p i)
    | 7 =>
      if s.poolSize p < off + n then some (refusal 3, s)
      else if s.poolDram p ∧ s.dramGone (a + off) n then some (refusal 8, s)
      else if s.poolDram p ∧ ¬ s.dramOpen (a + off) n then none
      else match s.bufRead p i off n t with
        | (some l, s) => some ({ helpRes (BitVec.ofNat 64 n) with addr := h.dst, bytes := l }, s)
        | (none, s) => some (poisoned, s)
    | _ =>
      if s.poolSize p < off + n then some (refusal 3, s)
      else if s.poolDram p ∧ s.dramGone (a + off) n then some (refusal 8, s)
      else if s.poolDram p ∧ ¬ s.dramOpen (a + off) n then none
      else some (helpRes 0, s.bufWrite p i off h.data t)

/-- I41 has accepted an operation that waits there, for a refill or a stopped channel: it holds no later one back (R17, R286). -/
def State.hopAccepted (s : State) (t id : Nat) : State :=
  s.modCl (t / 128) (fun c => { c with hops := c.hops.map (fun h => if h.id = id then { h with arrived := true } else h) })

/-- What I41 does with an H6 operation. -/
def State.h6Op (s : State) (t : Nat) (h : HelperOp) : Packed :=
  if h.op.toNat = 5 then
    match s.allocBuffer h.acc.toNat t with
    | .got hd s => some (helpRes (BitVec.ofNat 64 hd), s)
    | .none s => some (refusal 4, s)
    | .bad s => some (poisoned, s)
    | .refused => some (refusal 8, s)
    | .wait => none
  else if 5 < h.op.toNat then s.bufferOp t h
  else match s.packetCheck t h with
    | .inl r => some r
    | .inr own => s.packetOp t h own

/-- Of two frees of one handle in one cycle the lower master's counts: one that comes second here takes the place of the first, whose result
has not landed yet (R292; DESIGN CHOICE, log 57). -/
def State.freeTie (s : State) (t : Nat) (h : HelperOp) : Option FreedNow :=
  if h.op = 4 ∨ h.op = 6 then
    s.pools.freedNow.find? (fun f => f.since == s.time.elapsed && f.handle == h.xb.toNat && decide (t < f.master) && decide (h.id < f.seq)
      && (s.cl (f.master / 128)).hops.any (fun g => g.id == f.hop))
  else none

/-- I41 carries an operation out and returns its result. -/
def State.h6Do (s : State) (t : Nat) (h : HelperOp) : State :=
  match s.freeTie t h with
  | some f =>
    let s := { s with pools := { s.pools with freedNow := (s.pools.freedNow.filter (· != f)) ++ [{ f with master := t, hop := h.id }] } }
    (s.hopDone f.master f.hop (refusal 2)).hopDone t h.id (helpRes 0)
  | none =>
    match s.h6Op t h with
    | none => s.hopAccepted t h.id
    | some (r, s) =>
      let s := if (h.op = 4 ∨ h.op = 6) ∧ r = helpRes 0 then
          { s with pools := { s.pools with freedNow := (s.pools.freedNow.filter (fun f => f.since == s.time.elapsed))
              ++ [{ since := s.time.elapsed, handle := h.xb.toNat, master := t, hop := h.id, seq := s.nextId }] } }
        else s
      s.hopDone t h.id r

/-- PACKET_BUFFER_OP: an H6 operation of a thread reaches I41. -/
def State.h6Arrive (s : State) (t : Nat) : State :=
  match s.waitingHop t 6 with
  | none => s
  | some h =>
    if s.sentAhead (t / 128) h then s
    else if s.inReset 41 then s.hopDone t h.id (refusal 8)
    else if !s.up 41 then s
    else s.h6Do t h

def execPacketBufferOp (thread : ThreadId) (s : State) : Host.Outcome State Fault Refusal :=
  answer (if threadOk thread then s.h6Arrive (threadNo thread) else s)

end Sys2Proof.Machine
end

