-- ==== Sys2Proof/Machine/Windows.lean ====
section
/-! DEFINITION. The Data Port: windows, the stream they carry, what a target does with it, and BAR2
(spec/17_command_protocol.md R406 to R412; spec/18_command_reference.md R425, R426). -/

namespace Sys2Proof.Machine

def State.win (s : State) (w : Nat) : Window := Store.get {} s.ycp.windows w

def State.modWin (s : State) (w : Nat) (f : Window → Window) : State :=
  { s with ycp := { s.ycp with windows := Store.modify {} s.ycp.windows w f } }

/-- Target offset of stream byte `p` (R407). -/
def Window.at (x : Window) (p : Nat) : Nat :=
  x.start + p / x.unit * (if x.stride = 0 then x.unit else x.stride) + p % x.unit

/-- The tag whose copy a program bank or decode table selector names. -/
def State.bankTag (s : State) (sel : Nat) : Nat := if sel = 0 then s.accord.staged.toNat else s.accord.current.toNat

/-- ERROR is set, and the WINDOW cause where it was clear (R408, R409, R415). -/
def State.winError (s : State) (w : Nat) : State :=
  if (s.win w).error then s else (s.modWin w (fun x => { x with error := true })).event 4

def State.winDrop (s : State) (w : Nat) : State := s.modWin w (fun x => { x with drops := satAdd x.drops 1 })

/-! ### Checks of images (R168, R208) -/

/-- The header of a program bank obeys R167. -/
def bankOk (m : Mem) : Bool :=
  (List.range 0x50).all (fun w =>
    let v := mreadLE m (4 * w) 4
    if 0x43 ≤ w then v == 0 else v < 2 ^ 16 && 0x50 ≤ v)

/-- Extract `i` of a header is usable: USED is 1 and its bits lie within FIELDS. -/
def extractOk (h i : Nat) : Bool :=
  let x := bits h (53 - 18 * i) (36 - 18 * i)
  bitAt x 6 && bits x 17 13 + bits x 12 8 + 1 ≤ 22

/-- An extract word that is not referenced still holds no reserved encoding. -/
def extractForm (h i : Nat) : Bool :=
  let x := bits h (53 - 18 * i) (36 - 18 * i)
  bits x 5 0 == 0 && bits x 17 13 < 22 && bits x 12 8 < 22

/-- One used micro-operation obeys R205 and R208. -/
def microOk (h u : Nat) : Bool :=
  let op := bits u 57 51
  match bits u 63 62 with
  | 0 =>
    let c := bits u 44 41
    aOps.contains op && 1 ≤ op && op ≤ 0x2D && bits u 39 32 == 0
      && (if op = 0x08 ∨ op = 0x0E then bits u 50 48 == 7 else bits u 50 48 < 7)
      && c ≤ 0xA && (c < 7 || c == 0xA || extractOk h (c - 7))
      && (if op = 0x07 ∨ (0x2A ≤ op ∧ op ≤ 0x2D) then c == 0xA && bits u 31 0 == 0
          else if op = 0x28 ∨ op = 0x29 then c == 0xA && [8, 16, 32].contains (bits u 31 0) else true)
  | 1 =>
    let r := bits u 50 48
    let d := bits u 42 40
    (op == 1 || op == 2 || op == 3) && bits u 39 32 == 0 && bits u 45 43 < 7 && d < 4 && (d == 0 || extractOk h (d - 1))
      && (op != 2 || r == 0 || (3 ≤ r && r < 7)) && (!(r == 1 || r == 2) || bits u 47 46 != 3)
  | _ => false

/-- A valid entry of a decode table obeys R208. -/
def entryOk (dt : Mem) (e : Nat) : Bool :=
  let h := entryHeader dt e
  let n := bits h 58 54
  let us := (List.range n).map (entrySlot dt e)
  let steps := us.map (fun u => bits u 61 58)
  !entryValid dt e ||
    (1 ≤ n && n ≤ 16 && (span n 16).all (fun k => entrySlot dt e k == 0)
      && (List.range 3).all (extractForm h) && us.all (microOk h)
      && (List.zip steps (steps.drop 1)).all (fun p => p.1 ≤ p.2)
      && (List.range 16).all (fun k =>
          us.countP (fun u => bits u 61 58 == k && bits u 63 62 == 0) ≤ 1 && us.countP (fun u => bits u 61 58 == k && bits u 63 62 == 1) ≤ 1)
      && steps.getLast? == some (bits h 62 59)
      && us.countP (fun u => bits u 63 62 == 1 && bits u 57 51 == 3) ≤ 4)

def decodeOk (dt : Mem) : Bool := (List.range 32).all (entryOk dt)

/-! ### Table images (R411, R426) -/

/-- What stands before a record of a table image is applied. -/
def State.recordUndo (s : State) (num : Nat) (body : List Byte) : TableUndo :=
  let a := s.accord.staged.toNat
  let d := s.tdesc a num
  let x := s.struct num d
  let kl := dKeyLen d
  match dKind d with
  | 1 =>
    let k := beVal (slice body 0 1)
    let o := beVal (slice body 4 4)
    .direct k o (mread s.tables.rows (s.directAddr d (s.copyNo x a) k o) (body.length - 8))
  | 3 | 4 =>
    let len := beVal (slice body 0 1)
    let bytes := slice body 4 kl
    .lpmEntry len bytes ((s.rootOf x a).find? (fun e => e.len == len && e.bytes == bytes)) (x.gone.contains (leBytes 1 len ++ bytes))
  | 5 =>
    let r := body.take (4 + 2 * kl + 8 * beVal (slice body 2 1))
    .rule r (x.entries.filter (fun e => e.rule == r && e.born.toNat == a)) (x.gone.contains r)
  | _ =>
    let key := body.take kl
    .key key (((s.bucketsOf x key).find? (fun e => e.key == key && e.born.toNat == a)).map (·.result)) (x.gone.contains key)

/-- Restore the note that a staged deletion found a key absent. -/
def State.setGone (s : State) (num : Nat) (d : ObjWord) (key : List Byte) (gone : Bool) : State :=
  let s := s.begin' { num := num, desc := d }
  let x := s.struct num d
  s.putStruct { x with gone := x.gone.filter (· != key) ++ (if gone then [key] else []) }

/-- Withdraw one staged write. -/
def State.withdraw (s : State) (num : Nat) (u : TableUndo) : State :=
  let a := s.accord.staged.toNat
  let d := s.tdesc a num
  let x := s.struct num d
  match u with
  | .key key prior gone =>
    let s := match (s.bucketsOf x key).find? (fun e => e.key == key && e.born.toNat == a), prior with
      | some e, some r => s.putEntry x { e with result := r }
      | some e, none => s.dropEntry x e
      | none, _ => s
    s.setGone num d key gone
  | .lpmEntry len bytes prior gone =>
    let rest := (s.rootOf x a).filter (fun e => !(e.len == len && e.bytes == bytes))
    (s.setRoot x a (rest ++ prior.toList)).setGone num d (leBytes 1 len ++ bytes) gone
  | .rule body prior gone =>
    let rest := x.entries.filter (fun e => !(e.rule == body && e.born.toNat == a))
    (s.putStruct { x with entries := rest ++ prior }).setGone num d body gone
  | .direct k o old =>
    let c := Store.get 0 x.copyOf a
    if c = 0 then s.putStruct { x with waiting := x.waiting.filter (fun w => !(w.1 == k && w.2.1 == o && w.2.2.length == old.length)) }
    else s.directWrite d c k o old

/-- Apply one record of a table image; a record that fails its checks sets ERROR. -/
def State.takeRecord (s : State) (w : Nat) (l : List Byte) : State :=
  let num := (s.win w).selector
  let body := slice l 4 (beVal (slice l 2 2))
  if beVal (slice l 0 1) = num ∧ beVal (slice l 1 1) = 0 ∧ zeroBytes (l.drop (4 + body.length)) then
    let u := s.recordUndo num body
    match s.recordInsert num false body with
    | .done st _ t => if st = stDone then t.modWin w (fun x => { x with undo := u :: x.undo }) else t.winError w
    | .wait t => t.modWin w (fun x => { x with undo := u :: x.undo })
  else s.winError w

/-- Bytes from the start of the stream that have all been written. -/
def Window.solid (x : Window) : Nat :=
  min x.cursor (64 * ((List.range (x.cursor / 64 + 1)).find? (fun g => !x.covered.contains g)).getD (x.cursor / 64 + 1))

/-- Take the records that are complete; `n` bounds their number. -/
def State.takeRecords (w : Nat) : Nat → State → State
  | 0, s => s
  | n + 1, s =>
    let x := s.win w
    let len := (4 + beVal (mread x.bytes (x.taken + 2) 2) + 7) / 8 * 8
    if x.taken + 4 ≤ x.solid ∧ x.taken + len ≤ x.solid then
      State.takeRecords w n ((s.takeRecord w (mread x.bytes x.taken len)).modWin w (fun x => { x with taken := x.taken + len }))
    else s

/-! ### Flash and DRAM targets -/

/-- Program bytes of a staging window into its slot: a sector is erased before its first byte is programmed (R435). -/
def State.programSlot (s : State) (w p : Nat) (l : List Byte) : State :=
  let x := s.win w
  let base := slotBase x.selector
  let sectors := (span (x.at p / 4096) ((x.at (p + l.length - 1)) / 4096 + 1)).filter (fun k =>
    !x.covered.any (fun g => x.at (64 * g) / 4096 == k || x.at (min (64 * g + 63) (x.length - 1)) / 4096 == k))
  let s := sectors.foldl (fun s k => s.flashErase (base + 4096 * k) 4096) s
  (s.flashWrite (base + x.at p) l).noteWritten x.selector

/-- Device addresses of stream bytes from `p`. -/
def Window.addrs (x : Window) (p n : Nat) : List Nat := (List.range n).map (fun i => x.at (p + i))

/-- The status that refuses an access of a Data Port window to DRAM, or none: the unmapped reserve, or a channel in reset or out of
service (R339, R343, R418). -/
def State.dramRefuses (s : State) (l : List Nat) : Option Nat :=
  if l.any s.unmapped then some stBadState else if l.any (fun a => s.dramGone a 1) then some stHwFault else none

/-- The access waits at the boundary of a channel that is stopped, does not serve yet, or holds it back for refresh (R19, R335). -/
def State.dramWaits (s : State) (l : List Nat) : Bool := l.any (fun a => !s.dramOpen a 1)

/-- Write host bytes to DRAM, in SC2 (R406). -/
def State.hostStore (s : State) (x : Window) (p : Nat) (l : List Byte) : State :=
  let as := x.addrs p l.length
  let lines := (as.map (· / 64)).eraseDups
  let s := (s.dramIssue true lines 2 (0x2000 + x.owner.toNat)).readyLines lines (fun k => (span (64 * k) (64 * k + 64)).all as.contains)
  { s with dram := { s.dram with data := l.zipIdx.foldl (fun m e => mput m (x.at (p + e.2)) e.1) s.dram.data } }

/-- Stream bytes of a read window, and whether uncorrectable data lies in them. -/
def State.hostLoad (s : State) (x : Window) (p n master : Nat) : List Byte × Bool × State :=
  match x.target with
  | 0 => (mread (s.copy (s.bankTag x.selector)).bank p n, false, s)
  | 1 => (mread (s.copy (s.bankTag x.selector)).dtab p n, false, s)
  | _ =>
    let as := x.addrs p n
    let lines := (as.map (· / 64)).eraseDups
    let (bad, t) := (s.dramIssue false lines 2 master).readLines lines master 8
    (as.map (mget s.dram.data), bad, t)

/-- Stream bytes from `p` arrive at a write window. -/
def State.winWrite (s : State) (w p : Nat) (l : List Byte) : State :=
  let s := match (s.win w).target with
    | 3 => if (s.win w).selector < 2 then s.programSlot w p l else s
    | 4 => s.hostStore (s.win w) p l
    | _ => s
  let s := s.modWin w (fun x => { x with
    bytes := mwrite x.bytes p l
    covered := x.covered ++ (span (p / 64) ((p + l.length - 1) / 64 + 1)).filter (fun g => !x.covered.contains g)
    cursor := max x.cursor (p + l.length) })
  if (s.win w).target = 2 then State.takeRecords w ((s.win w).cursor / 8 + 1) s else s

/-! ### Closing -/

/-- What a mismatch or an abort does to the target (R411, R412). -/
def State.mismatch (s : State) (w : Nat) : State :=
  let x := s.win w
  if x.st ≠ 1 then s
  else match x.target with
    | 2 => x.undo.foldl (fun s u => s.withdraw x.selector u) s
    | 3 => if x.selector < 2 then s.setSlot x.selector .invalid else s
    | _ => s

/-- The window closes; its words stay readable in WIN_STATUS. -/
def State.winClose (s : State) (w : Nat) : State :=
  s.modWin w (fun x => { x with st := 0, bytes := [], covered := [], taken := 0, undo := [] })

/-- An abort (R412). -/
def State.winAbort (s : State) (w : Nat) : State :=
  (((s.mismatch w).winClose w).modWin w (fun x => { x with aborted := true })).event 4

/-- A cluster's bank copy of a tag is written whole: its uncorrectable marks go (R387). -/
def State.bankWritten (s : State) (c tag : Nat) : State :=
  let lo := 2 ^ 33 + tag * 2 ^ 18
  if (s.cl c).bad.any (fun k => decide (lo ≤ k ∧ k < lo + 2 ^ 18)) then
    s.modCl c (fun x => { x with bad := x.bad.filter (fun k => !(decide (lo ≤ k ∧ k < lo + 2 ^ 18))) })
  else s

/-- Tags of the live Accords. -/
def State.liveTags (s : State) : List Nat :=
  (if s.accord.live then [s.accord.current.toNat] else []) ++ (if s.accord.drainValid then [s.accord.draining.toNat] else [])

/-- A program bank image replaces the staged copy of every cluster: its uncorrectable marks go (R347, R387, R406; DEDUCED, log 28). -/
def State.stageBank (s : State) (m : Mem) : State :=
  let a := s.accord.staged.toNat
  let s := (List.range 26).foldl (fun s c => s.bankWritten c a) (s.modCopy a (fun c => { c with bank := m }))
  { s with startup := { s.startup with bankStaged := true } }

/-- Apply the target of a window whose digest matches: the status of its own check (R411). -/
def State.winApply (s : State) (w : Nat) : Nat × State :=
  let x := s.win w
  match x.target with
  | 0 => if bankOk x.bytes then (stDone, s.stageBank x.bytes) else (stBadParam, s)
  | 1 =>
    if decodeOk x.bytes then (stDone, s.modCopy s.accord.staged.toNat (fun c => { c with dtab := x.bytes })) else (stBadParam, s)
  | 3 =>
    match x.selector with
    | 2 =>
      let rd : Reader := fun o n => mread x.bytes o n
      let (st, s) := s.manifestStatus (s.manifestCheck rd (3 * 2 ^ 20)) (manifestRollback rd) 0
      (st, if st = stDone then
          ((s.flashErase 0x100000 (3 * 2 ^ 20)).flashWrite (0x100000 + x.start) (mread x.bytes 0 x.cursor)).noteWritten 2 else s)
    | 3 => (stDone, (s.flashErase 0x30000 4096).flashWrite (0x30000 + x.start) (mread x.bytes 0 x.cursor))
    | k => (stDone, s.setSlot k .written)
  | _ => (stDone, s)

/-! ### PORT_OPEN, DATA, PORT_CLOSE, PORT_ABORT (R425) -/

/-- The extent and the selector that PORT_OPEN gives suit its target (R406, R407, R435; DEDUCED, log 48). -/
def State.openOk (s : State) (x : Window) (read : Bool) : Bool :=
  let last := if x.length = 0 then 0 else x.at (x.length - 1)
  1 ≤ x.length && x.length < 2 ^ 40 && x.unit % 8 == 0 && 8 ≤ x.unit && x.unit ≤ 4096 && 1 ≤ x.idle && x.idle ≤ 3600
    && (x.target == 4 || x.stride == 0)
    && (x.stride == 0 || (x.stride % 8 == 0 && x.unit ≤ x.stride && x.stride ≤ 2 ^ 24))
    && match x.target with
      | 0 => x.selector ≤ 1 && (read || x.selector == 0) && x.start == 0 && x.length ≤ 262144
      | 1 => x.selector ≤ 1 && (read || x.selector == 0) && x.start == 0 && x.length ≤ 4352
      | 2 => !read && x.selector < 256 && x.start == 0
      | 3 => !read && (match flashRegion x.selector with
          | some (_, n) => x.start + x.length ≤ n && !(x.selector < 2 && s.sec.running == some x.selector)
          | none => false)
      | 4 => x.selector == 0 && last < s.dramSize
      | _ => false

/-- An activation runs (R451). -/
def State.activating (s : State) : Bool :=
  s.ycp.asyncs.any (fun a => match a.op with | .imageActivate _ => true | _ => false)

def State.portOpen (s : State) (c : Cmd) : Ran :=
  let w := c.n 0 1
  let read := c.n 2 1 == 1
  let x : Window := { st := if read then 2 else 1, owner := BitVec.ofNat 4 c.answerTo.issuer, drops := (s.win w).drops, target := c.n 1 1
                      selector := c.n 4 4, start := c.n 8 8, length := c.n 16 8, stride := c.n 24 4, unit := c.n 28 2, idle := c.n 30 2
                      viaPcie := c.answerTo.origin == .pcie }
  if 16 ≤ w ∨ 2 ≤ c.n 2 1 ∨ 4 < c.n 1 1 then .status stBadParam s
  else
    let go : Ran :=
      if !s.openOk x read then .status stBadParam s
      else if (s.win w).st ≠ 0 then .status stBusy s
      else if x.target ≤ 1 ∧ s.accord.drainValid then .status stBusy s
      else if x.target = 3 ∧ x.selector < 2 ∧ s.activating then .status stBusy s
      else .ok (s.modWin w (fun _ => x))
    match x.target with
    | 4 => s.after 7 go
    | 3 => go
    | 2 => s.after 6 go
    | _ => s.after 9 go

def execPortOpen (pkt : Packet) (s : State) : Host.Outcome State Fault Refusal :=
  answer (s.packet pkt 0x0200 none (plen 32 [(3, 1)]) (fun c s => s.portOpen c))

/-- The window's staged target waits for a discard that runs (R349). -/
def State.winWaits (s : State) (x : Window) : Bool := x.st == 1 && x.target ≤ 2 && s.accord.discarding

def State.portData (s : State) (c : Cmd) : Ran :=
  let w := c.n 0 1
  let n := c.n 2 2
  let o := c.n 4 8
  let x := s.win w
  if 16 ≤ w ∨ n = 0 ∨ 1024 < n ∨ o % 64 ≠ 0 then .status stBadParam s
  else if x.st = 0 then .status stBadState s
  else if x.owner.toNat ≠ c.answerTo.issuer then .status stNotPermitted s
  else if c.p.length ≠ 12 + (if x.st = 1 then n else 0) ∨ x.length < o + n then .status stBadParam s
  else if s.winWaits x then .wait
  else match (if x.target = 4 then s.dramRefuses (x.addrs o n) else none) with
    | some st => .status st s
    | none =>
      if x.target = 4 ∧ s.dramWaits (x.addrs o n) = true then .wait
      else if x.st = 1 then .ok (s.winWrite w o (c.p.drop 12))
      else
        let (l, bad, t) := s.hostLoad x o n c.master
        let t := t.modWin w (fun x => { x with bytes := mwrite x.bytes o l, cursor := max x.cursor (o + n) })
        .done stDone l (if bad then t.winError w else t)

def execData (pkt : Packet) (s : State) : Host.Outcome State Fault Refusal :=
  answer (s.packet pkt 0x0201 none (fun p => 12 ≤ p.length && zeroBytes (slice p 1 1)) (fun c s => s.portData c))

/-- DEDUCED, log 48. -/
def State.portClose (s : State) (c : Cmd) : Ran :=
  let w := c.n 0 1
  let digest := slice c.p 4 64
  let x := s.win w
  if 16 ≤ w then .status stBadParam s
  else if x.st = 0 then .status (if x.expired = some s.time.elapsed then stCancelled else stBadState) s
  else if x.owner.toNat ≠ c.answerTo.issuer then .status stNotPermitted s
  else if x.st = 2 then
    if !zeroBytes digest then .status stBadParam s
    else .done stDone (beBytes 8 x.cursor ++ sha512 (mread x.bytes 0 x.cursor)) (s.winClose w)
  else if s.winWaits x then .wait
  else if x.solid < x.cursor then .done stBadState (beBytes 8 x.solid) ((s.mismatch w).winClose w)
  else if x.error ∨ (x.target = 2 ∧ x.taken < x.cursor) then .status stBadState ((s.mismatch w).winClose w)
  else if sha512 (mread x.bytes 0 x.cursor) ≠ digest then .status stBadParam ((s.mismatch w).winClose w)
  else
    let (st, t) := s.winApply w
    .done st (if st = stDone then beBytes 8 x.cursor else []) (t.winClose w)

def execPortClose (pkt : Packet) (s : State) : Host.Outcome State Fault Refusal :=
  answer (s.packet pkt 0x0202 none (plen 68 [(1, 3)]) (fun c s => s.portClose c))

def State.portAbort (s : State) (c : Cmd) : Ran :=
  let w := c.n 0 1
  let x := s.win w
  if 16 ≤ w then .status stBadParam s
  else if x.st = 0 then .status stAlready s
  else if x.owner.toNat ≠ c.answerTo.issuer then .status stNotPermitted s
  else .ok (s.winAbort w)

def execPortAbort (pkt : Packet) (s : State) : Host.Outcome State Fault Refusal :=
  answer (s.packet pkt 0x0203 none (plen 4 [(1, 3)]) (fun c s => s.portAbort c))

/-- WINDOW_IDLE_EXPIRE (R412). -/
def State.idleExpire (s : State) (w : Nat) : State :=
  if w < 16 ∧ (s.win w).st ≠ 0 ∧ s.serves then (s.winAbort w).modWin w (fun x => { x with expired := some s.time.elapsed }) else s

def execWindowIdleExpire (window : Nat) (s : State) : Host.Outcome State Fault Refusal := answer (s.idleExpire window)

/-! ### BAR2 (R408, R409) -/

def State.bar2Write (s : State) (w o : Nat) (l : List Byte) (contiguous : Bool) : State :=
  let x := s.win w
  if x.st ≠ 1 ∨ !x.viaPcie then s.winDrop w
  else if s.winWaits x then s
  else if o ≠ x.cursor % 2 ^ 22 ∨ x.length < x.cursor + l.length ∨ !contiguous then (s.winDrop w).winError w
  else if x.target = 4 ∧ (s.dramRefuses (x.addrs x.cursor l.length)).isSome then (s.winDrop w).winError w
  else if x.target = 4 ∧ s.dramWaits (x.addrs x.cursor l.length) = true then s
  else s.winWrite w x.cursor l

def execBar2Write (window offset : Nat) (bytes : List Byte) (contiguous : Bool) (s : State) : Host.Outcome State Fault Refusal :=
  answer (if window < 16 && offset < 2 ^ 22 && !bytes.isEmpty && s.pcieOn then s.bar2Write window offset bytes contiguous else s)

/-- DEDUCED, log 48. -/
def State.bar2Read (s : State) (w o n : Nat) : State :=
  let x := s.win w
  let ones := List.replicate n (0xFF : Byte)
  if x.st ≠ 2 ∨ !x.viaPcie then (s.winDrop w).emit (.bar2Read w ones false)
  else if o ≠ x.cursor % 2 ^ 22 ∨ x.length < x.cursor + n then (s.winError w).emit (.bar2Read w ones false)
  else if x.target = 4 ∧ s.dramRefuses (x.addrs x.cursor n) = none ∧ s.dramWaits (x.addrs x.cursor n) = true then s
  else
    let refused := x.target = 4 ∧ (s.dramRefuses (x.addrs x.cursor n)).isSome
    let (l, bad, t) := if refused then (ones, true, s) else s.hostLoad x x.cursor n (0x2000 + x.owner.toNat)
    let t := t.modWin w (fun y => { y with bytes := mwrite y.bytes x.cursor l, cursor := x.cursor + n })
    State.emit (if bad then t.winError w else t) (.bar2Read w l bad)

def execBar2Read (window offset length : Nat) (s : State) : Host.Outcome State Fault Refusal :=
  answer (if window < 16 && offset < 2 ^ 22 && 0 < length && s.pcieOn then s.bar2Read window offset length else s)

end Sys2Proof.Machine
end

