-- ==== Sys2Proof/Machine/Reset.lean ====
section
/-! DEFINITION. Crossings refused at an island in reset, and the block reset of every island with its release
(spec/01_architecture.md R19, spec/16_faults_recovery.md R376, and the chapters it names). -/

namespace Sys2Proof.Machine

/-! ### Refused crossings (R19) -/

/-- A dispatch refused at a cluster's boundary: its record is QUEUED again with its place, SAFE and REPLAYED, and a replay keeps its
precedence and the thread whose fault re-queued it (R96, R103, R105). -/
def State.undispatch (s : State) (d : DispatchMsg) : State :=
  let s := { s with seq := { s.seq with busy := s.seq.busy.filter (· != d.thread) } }
  if s.current d.record d.gen then State.count (s.modRec d.record (fun x =>
    { x with st := .queued, replay := x.refused.map (·.1), thread := (x.refused.map (·.2)).getD x.thread, refused := none })) (src 26 0) 0x18
  else s

/-- A task refused at I26 returns to the head of its ready queue (R279). -/
def State.taskHead (s : State) (n : Nat) : State :=
  if (s.tsk n).st = .dispatched then
    let s := s.modTask n (fun x => { x with st := .ready })
    { s with tasks := { s.tasks with ready := n :: s.tasks.ready } }
  else s

/-- MARKERS bit of the island `i`: slices 0 to 3 and the Task Scheduler (R346). -/
def markerBit (i : Nat) : Nat := if i = 42 then 4 else i - 27

def State.clearMarker (s : State) (i : Nat) : State :=
  { s with accord := { s.accord with markers := s.accord.markers &&& ~~~((1 : BitVec 5) <<< markerBit i) } }

/-- The island owes its marker no more: it has taken it, and its last descriptor or task with the old stamp has gone (DEDUCED, log 56). -/
def State.markerOwed (s : State) (i : Nat) : Bool :=
  if i = 42 then
    s.tasks.tag != some s.accord.current.toNat ||
      s.net.any (fun c => match c.msg with | .task _ t => t != s.accord.current.toNat | _ => false)
  else
    (s.slc (i - 27)).tag != some s.accord.current.toNat || (s.slc (i - 27)).oldTag.isSome

/-- Markers that their islands have returned and I26 has not accepted count as returned at its block reset (R100). -/
def State.markersReturned (s : State) : State :=
  [27, 28, 29, 30, 42].foldl (fun s i => if s.up i && !s.markerOwed i then s.clearMarker i else s) s

/-- What the sender does with a message from `a` that the island `b`, in reset, has refused. Tokens that have nothing left to
tell are dropped. -/
def State.refuse (s : State) (a b : Nat) (m : Msg) : State :=
  match m with
  | .task n _ => s.taskHead n
  | .dispatch d => s.undispatch d
  | .threadFree t => { s with seq := { s.seq with busy := s.seq.busy.filter (· != t) } }
  | .notice c => { s with seq := { s.seq with busy := s.seq.busy.filter (fun t => t / 128 != c) } }
  | .marker _ => if b = 36 then s else s.clearMarker b
  | .arm _ =>
    State.undefer { s with accord := { s.accord with preparing := false, armed := false } } stBadState []
  | .chan t _ _ _ id => (s.answerLoad t id 0 (some (mkFl false false false true)) false).count (src a 0x11) 0x11
  | .lockReq id t _ _ =>
    s.answerLoad t id (BitVec.ofNat 64 LockStatus.refused.code) (some (mkFl false false false true)) false
  | .mem r => s.refuseMem r (if 43 ≤ b then 0xA6 else 0x7C) (s.inReset b)
  | .handover _ d _ _ _ _ _ => (s.freePacket d).count (src 26 0) 0x1A
  | _ => s

/-- The oldest descriptor that a slice offers while I26 is in reset: its frame is discarded (R75). -/
def State.seqRefused (s : State) (i : Nat) : State :=
  match (s.slc i).pipe with
  | f :: rest =>
    if f.complete then
      State.raise (((s.modSlc i (fun q => { q with pipe := rest })).dropPacket (handleDesc f.disp.handle)).count (src (27 + i) 0) 0x19)
        (src (27 + i) 0) 0x4B { master := 0x40C0 + i, conseq := true }
    else s
  | [] => s

/-- The island refuses crossings: it is in reset, or is a cluster that has sent RESET_NOTICE (R19, R92). -/
def State.refuses (s : State) (b : Nat) : Bool := s.inReset b || s.seq.noticed.contains b

def State.refuseOldest (s : State) (a b : Nat) : State :=
  match s.oldest a b with
  | some m => (s.taken a b).refuse a b m
  | none => if b = 26 ∧ 27 ≤ a ∧ a < 31 ∧ s.up a then s.seqRefused (a - 27) else s

/-- CROSSING_REFUSED (R19). -/
def execCrossingRefused (src' dst : Nat) (s : State) : Host.Outcome State Fault Refusal :=
  answer (if src' < 53 && dst < 53 && s.refuses dst then s.refuseOldest src' dst else s)

/-- Every helper operation on its way to an island is refused (R19, R217). -/
def State.refuseHops (s : State) (b : Nat) : State :=
  (s.clusters.flatMap (fun e => (e.2.hops.filter (fun h => h.goesTo b && (s.hopIslands h).contains b)).map (fun h => (e.1 * 128 + h.thread, h.id)))).foldl
    (fun s e => s.hopDone e.1 e.2 (refusal 8)) s

/-- Every message on its way to an island is refused, in its order. -/
def State.refuseAll (s : State) (b : Nat) : State :=
  let s := s.refuseHops b
  let ms := s.net.filter (fun c => c.dst == b)
  ms.foldl (fun s c => s.refuse c.src b c.msg) { s with net := s.net.filter (fun c => c.dst != b) }

/-! ### Extrait settings of a cluster (R482) -/

/-- The device is in Extrait, from acceptance to the end of its exit. -/
def State.inExtrait (s : State) : Bool := s.power.extrait.phase != .off

/-- A cluster that enters service in Extrait steps to 0.85 V and 1,800 MHz (PRESUMED, log 16). -/
def State.extraitSettings (s : State) (c : Nat) : State :=
  if s.power.extrait.phase = .on then s.modIsl c (fun x => { x with extrait := true, vmeas := 850 }) else s

/-- A cluster that leaves service returns to its own FREQ and VOLT. -/
def State.ownSettings (s : State) (c : Nat) : State :=
  s.modIsl c (fun x => if x.extrait then { x with extrait := false, vmeas := x.volt } else x)

/-! ### The islands' treatment of their work (R376) -/

/-- The registers that a cluster keeps for a thread: its frame is core-local memory. A frame under an unresolved branch
is what the squash restores. -/
def Thread.keepFrame (x : Thread) : Thread :=
  { regs := { frame := match x.branches with | b :: _ => b.regs.frame | [] => x.regs.frame } }

/-- The thread runs a record: one halted on a fault whose record I26 has already treated runs none (R362). -/
def State.runsRecord (s : State) (x : Thread) : Bool := x.busy && !(x.halt == .fault && !s.current x.record x.gen)

/-- BUSY_THREADS of a cluster (R361). -/
def State.runningThreads (s : State) (c : Nat) : Nat := (s.cl c).thread.countP (fun e => s.runsRecord e.2)

/-- The results of a drain's completion (R430). -/
def State.drainResult (s : State) (c : Nat) : List Byte := beBytes 1 (s.runningThreads c) ++ [0, 0, 0]

/-- A cluster (R92, R130, R262, R362): its threads become free, I26 and the lock slices are told, and a drain is cancelled. -/
def State.resetCluster (s : State) (c : Nat) : State :=
  let busy := ((s.cl c).thread.filter (fun e => e.2.busy)).map (·.1)
  let s := s.complete (.drain c) stCancelled (s.drainResult c)
  let s := busy.foldl (fun s u => (s.dropStaged (c * 128 + u) true).count (src c (u / 16)) 0x13) s
  let s := (s.masterReset (c * 128) true).send c 26 (.notice c)
  let s := { s with seq := { s.seq with noticed := s.seq.noticed ++ [c] } }
  s.modCl c (fun k => { k with
    thread := k.thread.filterMap (fun (e : Nat × Thread) => if e.2.keepFrame = ({} : Thread) then none else some (e.1, e.2.keepFrame))
    chan := k.chan.filterMap (fun (e : Nat × Channel) =>
      let h : Channel := { e.2 with blocked := [] }
      if h = ({} : Channel) then none else some (e.1, h))
    rblocked := [], hops := [], rrIssue := [], rrHelp := [], quietRep := false, svc := { k.svc with st := 4 } })

/-- I26 (R100): every record is resolved as a drop and its thread aborted; one report gives the count (DEDUCED, log 15). -/
def State.resetSequencer (s : State) : State :=
  let s := s.markersReturned
  let s := { s with seq := { s.seq with recs := s.seq.recs.map (fun (e : Nat × Rec) => (e.1, ({ e.2 with waitPt := none } : Rec))) } }
  let rs := (s.seq.recs.filter (fun e => e.2.st != .free)).map (·.1)
  let s := rs.foldl (fun s r => s.sendAbort r true) s
  let s := rs.foldl (fun s r => s.resolveDrop r .faulted) s
  let s := s.raise (src 26 0) 0x5A { detail := rs.length, conseq := true }
  { s with seq := { s.seq with rr := [], chosen := [], stopped := false } }

/-- A slice (R76, R353): its frames are lost, what they had allocated is returned after the release, and a marker it owed
is cleared (DEDUCED, log 15). -/
def State.resetSlice (s : State) (i : Nat) : State :=
  let s := s.modSlc i (fun q => { q with
    reclaim := q.reclaim ++ q.pipe.filter (·.desc), pipe := [], input := [], tag := none, oldTag := none })
  if s.net.any (fun c => c.src == 26 && c.dst == 27 + i) then s else s.clearMarker (27 + i)

/-- A MAC octet: its ports go down, frames in it are lost, and its lanes acquire anew (R51, R376). -/
def State.resetOctet (s : State) (i : Nat) : State :=
  (span ((i - 31) * 8) ((i - 31) * 8 + 8)).foldl (fun s p =>
    let s := s.portDown p
    let s := (s.port p).txAhead.foldl (fun s k => s.freePacket k.desc) s
    let s := s.modPort p (fun q => { q with rxFifo := [], txAhead := [] })
    let s := s.complete (.laneRecal p) stCancelled []
    if (s.lane p).ready then s.modLane p (fun x => { x with recal := 0, lost := true, holding := false, acquiring := true }) else s) s

/-- A Table Store group (R267): queues empty, every lock word is free and marked abandoned, a broken one stays broken (DEDUCED, log 15). -/
def State.resetGroup (s : State) (g : Nat) : State :=
  let lo := g * 16384
  let inside := fun (w : Nat) => decide (lo ≤ w ∧ w < lo + 16384)
  let broken := (s.tables.locks.filter (fun e => e.2.broken)).map (·.1)
  let free := (span lo (lo + 16384)).map (fun w =>
    (w, if broken.contains w then ({ held := true, abandoned := true, broken := true, owner := 0xFFFF } : Lock) else { abandoned := true }))
  let s := { s with tables := { s.tables with
    locks := s.tables.locks.filter (fun (e : Nat × Lock) => e.1 < lo) ++ free ++ s.tables.locks.filter (fun (e : Nat × Lock) => lo + 16384 ≤ e.1)
    leases := s.tables.leases.filter (fun e => !inside e.1) } }
  { s with clusters := s.clusters.map (fun (e : Nat × Cluster) => (e.1, ({ e.2 with
      thread := e.2.thread.filterMap (fun (x : Nat × Thread) =>
        let y : Thread := if x.2.lockWait.any inside then { x.2 with lockWait := none } else x.2
        if y = ({} : Thread) then none else some (x.1, y)) } : Cluster))) }

/-- I41 (R296): the caches clear. -/
def State.resetPools (s : State) : State :=
  let s := (List.range 16).foldl (fun s p => (List.range (if p = 0 then 5 else 1)).foldl (fun s k => s.cacheRefill p k) s) s
  let s := (List.range 26).foldl (fun s c => ((s.cl c).hops.filter (fun h => h.unit == 6 && h.arrived && h.res.isNone)).foldl (fun s h =>
    s.h6Do (c * 128 + h.thread) h) s) s
  let s := s.modPool 0 (fun q => { q with cache := (List.range 5).map (fun k => (k, 0)) })
  (span 1 16).foldl (fun s p => s.modPool p (fun q => { q with cache := [(0, 0)] })) s

/-- I42 (R279). -/
def State.resetTasks (s : State) : State :=
  let n := s.tasks.task.countP (fun e => e.2.st != .free)
  let s := { s with tasks := { s.tasks with task := [], ready := [], delay := [], tag := none } }
  let s := if s.net.any (fun c => c.src == 26 && c.dst == 42 && (match c.msg with | .marker _ => true | _ => false)) then s
    else s.clearMarker 42
  s.raise (src 42 0) 0x8B { detail := n, conseq := true }

/-- A channel (R342): it completes what it has accepted; its DRAMs keep their contents (DEDUCED, log 43). -/
def State.resetChannel (s : State) (c : Nat) : State :=
  let l := (s.chan c).writes ++ (s.chan c).reads ++ (s.chan c).inbound
  (l.foldl (fun s r => s.serve c r false true) s).modChan c (fun k => { k with openRow := [], hold := none, walk := 0 })

/-- I51 (R364): a Steward restart. The reply that a command still owed is lost, windows close and statements are gone (DEDUCED, log 18). -/
def State.resetSteward (s : State) : State :=
  let s := { s with
    accord := if s.accord.armed then s.accord else { s.accord with preparing := false }
    ycp := { s.ycp with up := false, deferred := none, waiting := none }
    sec := { s.sec with restart := match s.sec.restart with | .starting k o => .starting k o | _ => .reset } }
  let s := (s.ycp.windows.map (·.1)).foldl (fun s w => if (s.win w).st = 0 then s else s.winAbort w) s
  { s with ycp := { s.ycp with issuers := s.ycp.issuers.filterMap (fun (e : Nat × Issuer) =>
      let i : Issuer := { e.2 with statement := none }
      if i = issuerReset then none else some (e.1, i)) } }

/-- I52: the Observation counters clear; the Fault Collector keeps what it holds (R376). -/
def State.resetObserver (s : State) : State :=
  { s with obs := { s.obs with
      counter := [], cycles := [], cycRead := []
      window := s.obs.window.map (fun (e : Nat × WinCounter) => (e.1, ({ e.2 with count := 0 } : WinCounter)))
      thresh := s.obs.thresh.map (fun (e : Nat × Threshold) =>
        (e.1, ({ occupancy := e.2.occupancy, level := e.2.level, last := e.2.last } : Threshold))) } }

/-- The treatment of the island's own work. -/
def State.resetWork (s : State) (i : Nat) : State :=
  if i < 26 then s.resetCluster i else if i = 26 then s.resetSequencer else if i < 31 then s.resetSlice (i - 27)
  else if i < 36 then s.resetOctet i else if i = 36 then s.qmReset else if i < 41 then s.resetGroup (i - 37)
  else if i = 41 then s.resetPools else if i = 42 then s.resetTasks else if i < 51 then s.resetChannel (i - 43)
  else if i = 51 then s.resetSteward else s.resetObserver

/-- The island is in reset, or has not returned to service after a block reset (R380). -/
def State.underReset (s : State) (i : Nat) : Bool := s.inReset i || (s.isl i).blockReset

/-- Put an island into block reset; one that is under reset stays as it is (R380). Crossings that wait at a stopped
island are refused in that cycle (R19), and a change of its clock or rail ends with the old values. `reaction` says that
BLOCK_RESET_DONE follows. -/
def State.resetIsland (s : State) (i : Nat) (reaction : Bool) : State :=
  if s.underReset i then s
  else
    let stopped := (s.isl i).st != .run
    let s := match s.ycp.deferred with
      | some d => if d.wait = Wait.island i then s.undefer stHwFault [] else s
      | none => s
    let s := ((s.resetWork i).modIsl i (fun x => { x with st := .reset, blockReset := reaction, target := none })).ownSettings i
    let s := if stopped then s.refuseAll i else s
    if i = 36 then s.flushInband else if 43 ≤ i ∧ i < 51 then s.drainSpill else s

/-! ### Release -/

/-- MODE SERVICE goes into the decode word of a cluster that returns to IN_SERVICE after the first commit, where the host
has not written the word since (R362). -/
def State.serveMode (s : State) (c : Nat) : State :=
  if s.accord.live && !(s.cl c).svc.decodeWr then s.setObj 0x0042 c (setFld (s.obj 0x0042 c) 1 0 1) else s

/-- A cluster empties its channels, where an uncorrectable word stays marked (R387), and the credit of each sender that a remote channel names goes back to 8 (R130). -/
def State.emptyChannels (s : State) (c : Nat) : State :=
  let p := s.positionOf c
  let s := s.modCl c (fun k => { k with chan := k.chan.filterMap (fun (e : Nat × Channel) => if e.2.bad then some (e.1, ({ bad := true } : Channel)) else none) })
  (List.range 32).foldl (fun s n =>
    if s.chRemote c n && p < 24 && s.clusterAt (s.chSource c n) < 26 then s.send c (s.clusterAt (s.chSource c n)) (.credit p n 0 true) else s) s

/-- The Accord tag that an island stamps after its release (R353). -/
def State.liveTag (s : State) : Option Nat := if s.accord.live then some s.accord.current.toNat else none

def State.releaseWork (s : State) (i : Nat) : State :=
  if i < 26 then
    let s := { s with seq := { s.seq with noticed := s.seq.noticed.filter (· != i) } }
    let s := (s.modCl i (fun k => { k with mcycles := 0 })).emptyChannels i
    if s.positionOf i < 24 then ((s.modCl i (fun k => { k with svc := { k.svc with st := 1 } })).serveMode i).extraitSettings i
    else s.modCl i (fun k => { k with svc := { k.svc with st := 5 } })
  else if i = 26 then
    (List.range 4).foldl (fun s q => ((s.slc q).pipe.takeWhile (·.complete)).foldl (fun s _ => s.seqRefused q) s) s
  else if i < 31 then
    let l := (s.slc (i - 27)).reclaim
    let s := s.modSlc (i - 27) (fun q => { q with reclaim := [], tag := s.liveTag })
    l.foldl (fun s f => s.dropPacket (handleDesc f.disp.handle)) s
  else if i = 36 then (match s.liveTag with | some t => s.loadTree t | none => s)
  else if i = 42 then { s with tasks := { s.tasks with tag := s.liveTag } }
  else if 43 ≤ i ∧ i < 51 then
    (if (s.chan (i - 43)).st = .service then s.modChan (i - 43) (fun k => { k with st := .training, retrain := true }) else s)
  else s

/-- Release an island. Whatever crossed to it during the reset has been refused first. -/
def State.releaseIsland (s : State) (i : Nat) : State :=
  ((s.refuseAll i).modIsl i (fun x => { x with st := if x.unlocked then .stopped else .run })).releaseWork i

/-- A released island is back in service: its clock runs, a channel has trained, and the Steward's firmware or its ROM serves (R364, R376). -/
def State.backInService (s : State) (i : Nat) : State :=
  let waits := (decide (43 ≤ i ∧ i < 51) && (s.chan (i - 43)).st == .training) || (i == 51 && !s.serves)
  if waits then s else s.returned i

/-- BLOCK_RESET_RELEASE (R376): an island that a reaction has reset is released; the collector reports it as it returns to service. -/
def State.blockRelease (s : State) (i : Nat) : State :=
  if s.inReset i && (s.isl i).blockReset && !s.running (.clusterReset i) then
    (s.releaseIsland i).backInService i
  else s

def execBlockResetRelease (island : Nat) (s : State) : Host.Outcome State Fault Refusal :=
  answer (if island < 53 then s.blockRelease island else s)

end Sys2Proof.Machine
end

