-- ==== Sys2Proof/Machine/Accord.lean ====
section
/-! DEFINITION. Accords: the checks, the preparation and the commit point, markers, retirement and the discard
(spec/15_accord_live_service.md R344 to R357, spec/23_startup.md R527). -/

namespace Sys2Proof.Machine

/-! ### ACCORD_COMMIT (R350, R520, R527) -/

/-- A window is open on the staged program bank, decode table or a table image. -/
def State.stagedWindow (s : State) : Bool :=
  s.ycp.windows.any (fun e => e.2.st != 0 && (e.2.target == 2 || (e.2.target ≤ 1 && e.2.selector == 0)))

/-- The checks in their order: the first status that applies. -/
def State.commitCheck (s : State) : Option Nat :=
  if !s.startup.bringup then some stBadState
  else if s.accord.drainValid || s.accord.preparing then some stBusy
  else if s.tables.sweeping.contains ((s.accord.staged + 1).toNat) then some stBusy
  else if !s.tables.macerating.isEmpty then some stBusy
  else if s.stagedWindow then some stBadState
  else if s.inReset 26 || s.inReset 42 then some stBadState
  else if !s.accord.live && !s.startup.bankStaged then some stBadState
  else none

/-- ACCORD_COMMIT: a commit that passes the checks starts its preparation; while a discard runs it waits (R349). -/
def State.accordCommit (s : State) : Ran :=
  if s.accord.discarding then .wait
  else match s.commitCheck with
    | some st => .done st [] s
    | none => .defer .commit { s with accord := { s.accord with preparing := true } }

def execAccordCommit (pkt : Packet) (s : State) : Host.Outcome State Fault Refusal :=
  answer (s.packet pkt 0x0108 none (plen 0) (fun _ s => s.accordCommit))

/-- The unit of an island that failed to prepare a copy (R368). -/
def prepSrc (i : Nat) : Nat := if i < 26 then src i 0x12 else if i < 31 then src i 0 else src i 0x18

/-- Islands that hold copies: clusters, slices and Table Store groups. -/
def holdsCopies (i : Nat) : Bool := i < 26 || (27 ≤ i && i < 31) || (37 ≤ i && i < 41)

/-- Objects of the slices' parse and class memories in an Accord's copy. -/
def State.sliceObjs (s : State) (tag : Nat) : Store ObjWord := (s.copy tag).objs.filter (fun e => decide (0x20 ≤ e.1 / 2 ^ 32 ∧ e.1 / 2 ^ 32 ≤ 0x25))

/-- Preparation writes each copy of the staged tag that no staging has changed whole, in the islands that are not in reset (R351): what stood
uncorrectable there is gone (R387). -/
def State.fillCopies (s : State) : State :=
  let a := s.accord.staged.toNat
  let c := s.accord.current.toNat
  let s := if (s.copy a).bank = (s.copy c).bank then (List.range 26).foldl (fun s i => if s.inReset i then s else s.bankWritten i a) s else s
  if s.sliceObjs a = s.sliceObjs c then (List.range 4).foldl (fun s i =>
    if s.inReset (27 + i) then s else s.modSlc i (fun q => { q with badWords := q.badWords.filter (fun w => w / 4096 != a % 2) })) s
  else s

/-- ACCORD_PREPARE_DONE (R351, R352, R527): preparation ends with the islands where it failed; one in reset is prepared
later and does not count. -/
def State.prepareDone (s : State) (failed : List Nat) : State :=
  if !s.accord.preparing || s.accord.armed || !s.up 51 then s
  else
    let bad := (failed.eraseDups).filter (fun i => holdsCopies i && !s.inReset i)
    if !bad.isEmpty then
      let s := bad.foldl (fun s i => s.raise (prepSrc i) 0xA9) s
      State.undefer { s with accord := { s.accord with preparing := false } } stHwFault []
    else
      let s := if s.accord.live then s.fillCopies else (List.range 26).foldl (fun s c =>
        if (s.cl c).svc.st.toNat ≤ 1 then s.setObj 0x0042 c (setFld (s.obj 0x0042 c) 1 0 1) else s) s
      State.send { s with accord := { s.accord with armed := true } } 51 26 (.arm s.accord.staged.toNat)

def execAccordPrepareDone (failed : List Nat) (s : State) : Host.Outcome State Fault Refusal := answer (s.prepareDone failed)

/-! ### The commit point (R352, R345) -/

/-- Versioned tables: the new Accord reads the copy it read while it was staged (R238). -/
def State.keepCopies (s : State) (tag : Nat) : State :=
  { s with tables := { s.tables with structs := s.tables.structs.map (fun x =>
      if dVersioned x.desc then { x with copyOf := Store.set 0 x.copyOf tag (s.copyNo x tag) } else x) } }

/-- COMMIT_POINT: I26 takes ARM; the live set changes, markers leave, and ACCORD_COMMIT returns DONE. -/
def State.commitPoint (s : State) : State :=
  match s.arrive 51 26 with
  | some (.arm _) =>
    let new := s.accord.staged
    let s := (s.taken 51 26).keepCopies new.toNat
    let s := s.modCopy (new + 1).toNat (fun _ => s.copy new.toNat)
    let s := { s with accord := { s.accord with
      current := new, staged := new + 1
      draining := if s.accord.live then s.accord.current else s.accord.draining
      drainValid := s.accord.live, live := true, preparing := false, armed := false, markers := 0x1F
      drainStart := s.time.elapsed, struck := 0
      digestDue := true } }
    let s := s.trace 8 0 0x1000 0 0 0xFFFF 0 new.toNat
    let s := [27, 28, 29, 30, 42, 36].foldl (fun s i => s.send 26 i (.marker new.toNat)) s
    s.undefer stDone (beBytes 1 new.toNat ++ [0, 0, 0] ++ beBytes 8 s.now)
  | _ => s

def execCommitPoint (s : State) : Host.Outcome State Fault Refusal := answer s.commitPoint

/-! ### Markers and retirement (R352, R356, R357) -/

/-- MARKER_RETURN: a slice's or I42's marker comes back to I26; one that I26 refuses in reset counts as returned (R100). -/
def State.markerReturn (s : State) (i : Nat) : State :=
  if ((27 ≤ i && i < 31) || i == 42) && s.up i && (s.up 26 || s.inReset 26) && s.accord.markers.getLsbD (markerBit i) && !s.markerOwed i then
    s.clearMarker i
  else s

def execMarkerReturn (island : Nat) (s : State) : Host.Outcome State Fault Refusal := answer (s.markerReturn island)

/-- ACCORD_RETIRE: no marker is out and no record counts, so the draining tag retires. -/
def execAccordRetire (s : State) : Host.Outcome State Fault Refusal :=
  answer (if s.up 26 ∧ s.accord.drainValid ∧ s.accord.markers = 0 ∧ s.inflight = 0 then s.retireTag false 0 else s)

/-- A thread of the cluster runs under the tag. -/
def State.runsUnder (s : State) (c tag : Nat) : Bool := (s.cl c).thread.any (fun e => e.2.busy && e.2.accord == tag)

/-- A tag that no cluster holds and that names no Accord has no copy any more. -/
def State.dropCopies (s : State) : State :=
  let held := fun (tag : Nat) =>
    tag == s.accord.staged.toNat || (s.accord.live && tag == s.accord.current.toNat) || (s.accord.drainValid && tag == s.accord.draining.toNat)
      || (List.range 26).any (fun c => (s.cl c).svc.old.contains tag)
  { s with accord := { s.accord with copy := s.accord.copy.filter (fun e => held e.1) } }

/-- CLUSTER_BANK_FREE (R357). -/
def State.bankFree (s : State) (c : Nat) : State :=
  State.dropCopies (s.modCl c (fun k => { k with svc := { k.svc with old := k.svc.old.filter (s.runsUnder c) } }))

def execClusterBankFree (cluster : Nat) (s : State) : Host.Outcome State Fault Refusal :=
  answer (if cluster < 26 && s.up cluster then s.bankFree cluster else s)

/-! ### The discard (R349) -/

/-- ACCORD_DISCARD starts; a second one while it runs is refused (R359). -/
def State.accordDiscard (s : State) : Ran :=
  if s.accord.discarding then .done stBusy [] s
  else .start .discard { s with accord := { s.accord with discarding := true } }

def execAccordDiscard (pkt : Packet) (s : State) : Host.Outcome State Fault Refusal :=
  answer (s.packet pkt 0x0109 none (plen 0) (fun _ s => s.accordDiscard))

/-- Take the staged Accord's entries out of a structure that a live Accord has too, and restore those it had marked deleted. -/
def State.discardEntries (s : State) (x : TStruct) : State :=
  let a := s.accord.staged
  let y := s.struct x.num x.desc
  let es := ((s.allEntries y).filter (fun e => e.born != a)).map (fun (e : TEntry) =>
    if e.dead = a then ({ e with dead := e.born } : TEntry) else e)
  s.setEntries y { y with entries := es, roots := Store.erase y.roots a.toNat, copyOf := Store.erase y.copyOf a.toNat, waiting := [], gone := [], wrote := [] }

/-- ACCORD_DISCARD_DONE: every staged copy holds the current Accord's contents again, or the reset contents before the first
commit; a Maceration into the staged Accord ends with it (DEDUCED, log 56). -/
def State.discardDone (s : State) : State :=
  if !s.accord.discarding then s
  else
    let a := s.accord.staged.toNat
    let c := s.accord.current.toNat
    let kept := fun (x : TStruct) => s.accord.live && x.desc == s.tdesc c x.num
      || s.accord.drainValid && x.desc == s.tdesc s.accord.draining.toNat x.num
    let gone := s.tables.structs.filter (fun x => !kept x)
    let s := (s.tables.structs.filter kept).foldl (fun s x => s.discardEntries x) s
    let s := { s with tables := { s.tables with structs := s.tables.structs.filter (fun x => !gone.any (fun g => g.num == x.num && g.desc == x.desc)) } }
    let s := s.tables.macerating.foldl (fun s n => s.complete (.macerate n) stCancelled []) s
    let s := s.modCopy a (fun _ => if s.accord.live then s.copy c else {})
    State.complete { s with
      tables := { s.tables with macerating := [] }
      accord := { s.accord with discarding := false } } .discard stDone []

def execAccordDiscardDone (s : State) : Host.Outcome State Fault Refusal := answer (if s.up 51 then s.discardDone else s)

end Sys2Proof.Machine
end

