-- ==== Sys2Proof/Machine/BClass.lean ====
section
/-! DEFINITION. The meanings of the B-class instructions (spec/07_isa_reference.md R188 to R202). Each issues its syllable; what the syllable does is in Flags, HelperUnits and Issue. -/

namespace Sys2Proof.Machine

/-- BR (R188). -/
def execBr (y : Syl) (s : State) : Host.Outcome State Fault Refusal := answer (s.syllable y 3 0x01)

/-- BRI (R188). -/
def execBri (y : Syl) (s : State) : Host.Outcome State Fault Refusal := answer (s.syllable y 3 0x02)

/-- CALL (R188). -/
def execCall (y : Syl) (s : State) : Host.Outcome State Fault Refusal := answer (s.syllable y 3 0x03)

/-- RET (R188). -/
def execRet (y : Syl) (s : State) : Host.Outcome State Fault Refusal := answer (s.syllable y 3 0x04)

/-- BHB (R189). -/
def execBhb (y : Syl) (s : State) : Host.Outcome State Fault Refusal := answer (s.syllable y 3 0x05)

/-- RTT (R176). -/
def execRtt (y : Syl) (s : State) : Host.Outcome State Fault Refusal := answer (s.syllable y 3 0x06)

/-- NOP (R188). -/
def execNop (y : Syl) (s : State) : Host.Outcome State Fault Refusal := answer (s.syllable y 3 0x07)

/-- WFE (R120). -/
def execWfe (y : Syl) (s : State) : Host.Outcome State Fault Refusal := answer (s.syllable y 3 0x10)

/-- SEV (R123). -/
def execSev (y : Syl) (s : State) : Host.Outcome State Fault Refusal := answer (s.syllable y 3 0x11)

/-- CHS (R126). -/
def execChs (y : Syl) (s : State) : Host.Outcome State Fault Refusal := answer (s.syllable y 3 0x12)

/-- CHC (R126). -/
def execChc (y : Syl) (s : State) : Host.Outcome State Fault Refusal := answer (s.syllable y 3 0x13)

/-- CHR (R128). -/
def execChr (y : Syl) (s : State) : Host.Outcome State Fault Refusal := answer (s.syllable y 3 0x14)

/-- ORD (R191). -/
def execOrd (y : Syl) (s : State) : Host.Outcome State Fault Refusal := answer (s.syllable y 3 0x18)

/-- REL (R192). -/
def execRel (y : Syl) (s : State) : Host.Outcome State Fault Refusal := answer (s.syllable y 3 0x19)

/-- COMMIT (R193). -/
def execCommit (y : Syl) (s : State) : Host.Outcome State Fault Refusal := answer (s.syllable y 3 0x1A)

/-- LKA (R199). -/
def execLka (y : Syl) (s : State) : Host.Outcome State Fault Refusal := answer (s.syllable y 3 0x20)

/-- LKT (R199). -/
def execLkt (y : Syl) (s : State) : Host.Outcome State Fault Refusal := answer (s.syllable y 3 0x21)

/-- LKR (R199). -/
def execLkr (y : Syl) (s : State) : Host.Outcome State Fault Refusal := answer (s.syllable y 3 0x22)

/-- CAS32 (R201). -/
def execCas32 (y : Syl) (s : State) : Host.Outcome State Fault Refusal := answer (s.syllable y 3 0x28)

/-- CAS64 (R201). -/
def execCas64 (y : Syl) (s : State) : Host.Outcome State Fault Refusal := answer (s.syllable y 3 0x29)

/-- FADD (R201). -/
def execFadd (y : Syl) (s : State) : Host.Outcome State Fault Refusal := answer (s.syllable y 3 0x2A)

/-- SWAP (R201). -/
def execSwap (y : Syl) (s : State) : Host.Outcome State Fault Refusal := answer (s.syllable y 3 0x2B)

/-- FAND (R201). -/
def execFand (y : Syl) (s : State) : Host.Outcome State Fault Refusal := answer (s.syllable y 3 0x2C)

/-- FOR (R201). -/
def execForr (y : Syl) (s : State) : Host.Outcome State Fault Refusal := answer (s.syllable y 3 0x2D)

/-- BINC (R201). -/
def execBinc (y : Syl) (s : State) : Host.Outcome State Fault Refusal := answer (s.syllable y 3 0x2E)

end Sys2Proof.Machine
end

