-- ==== Sys2Proof/Machine/Service.lean ====
section
/-! DEFINITION. Live service: cluster commands, scrubs of the on-chip arrays, and the commands that start a Decant, a lane
recalibration, a bank replacement or a queue flush (spec/15_accord_live_service.md R358 to R363,
spec/18_command_reference.md R430). -/

namespace Sys2Proof.Machine

/-! ### Clusters (R361, R362) -/

/-- A reset or a self-test that a command started runs on the cluster (R359). -/
def State.clusterBusy (s : State) (c : Nat) : Bool := s.running (.clusterReset c) || s.running (.spareCheck c)

/-- The checks every cluster command starts with: the number, another service of the cluster, and an array that start-up
could not repair. -/
def State.onCluster (s : State) (c : Nat) (r : Ran) : Ran :=
  if 26 ≤ c then .done stBadParam [] s
  else s.after 9 (if s.clusterBusy c then .done stBusy [] s else if (s.isl c).broken then .done stHwFault [] s else r)

def State.setSvc (s : State) (c : Nat) (st : BitVec 3) : State := s.modCl c (fun k => { k with svc := { k.svc with st := st } })

/-- CLUSTER_DRAIN: the Atomizer chooses the cluster no more. -/
def State.clusterDrain (s : State) (c wait : Nat) : Ran :=
  if wait = 0 ∨ 1000000 < wait then .done stBadParam [] s
  else s.onCluster c (if s.running (.drain c) then .done stBusy [] s else if (s.cl c).svc.st ≠ 1 ∨ s.inReset 26 then .done stBadState [] s else .start (.drain c) (s.setSvc c 2))

def execClusterDrain (pkt : Packet) (s : State) : Host.Outcome State Fault Refusal :=
  answer (s.packet pkt 0x0600 none (plen 8 [(1, 3)]) (fun c s => s.clusterDrain (c.n 0 1) (c.n 4 4)))

/-- CLUSTER_RESUME: a drained or draining cluster that a position names serves again; its drain is cancelled. -/
def State.clusterResume (s : State) (c : Nat) : Ran :=
  s.onCluster c (
    if (s.cl c).svc.st = 1 then .done stAlready [] s
    else if ((s.cl c).svc.st = 2 ∨ (s.cl c).svc.st = 3) ∧ s.positionOf c < 24 then
      .ok ((((s.complete (.drain c) stCancelled (s.drainResult c)).setSvc c 1).serveMode c).extraitSettings c)
    else .done stBadState [] s)

def execClusterResume (pkt : Packet) (s : State) : Host.Outcome State Fault Refusal :=
  answer (s.packet pkt 0x0601 none (plen 4 [(1, 3)]) (fun c s => s.clusterResume (c.n 0 1)))

/-- CLUSTER_RESET: a block reset of a cluster in any state. -/
def execClusterReset (pkt : Packet) (s : State) : Host.Outcome State Fault Refusal :=
  answer (s.packet pkt 0x0602 none (plen 4 [(1, 3)]) (fun c s =>
    s.onCluster (c.n 0 1) (.start (.clusterReset (c.n 0 1)) (s.resetIsland (c.n 0 1) false))))

/-- CLUSTER_RESET_DONE: the reset ends, and the completion gives the cluster's state. A reset that a reaction had begun is
also reported as one. -/
def State.clusterResetDone (s : State) (c : Nat) : State :=
  if s.running (.clusterReset c) && s.inReset c then
    let s := (s.releaseIsland c).backInService c
    s.complete (.clusterReset c) stDone (beBytes 1 (s.cl c).svc.st.toNat ++ [0, 0, 0])
  else s

def execClusterResetDone (cluster : Nat) (s : State) : Host.Outcome State Fault Refusal :=
  answer (if cluster < 26 then s.clusterResetDone cluster else s)

/-- SPARE_CHECK: the self-test of a cluster that serves no position. -/
def execSpareCheck (pkt : Packet) (s : State) : Host.Outcome State Fault Refusal :=
  answer (s.packet pkt 0x0603 none (plen 4 [(1, 3)]) (fun c s =>
    let n := c.n 0 1
    s.onCluster n (if ((s.cl n).svc.st = 0 ∨ (s.cl n).svc.st = 5) ∧ ¬ s.inReset n then .start (.spareCheck n) s else .done stBadState [] s)))

/-- SPARE_CHECK_DONE: the test ends, and the banks and decode copies of the live tags are loaded again, each written whole (R387). -/
def State.spareCheckDone (s : State) (c : Nat) (pass : Bool) : State :=
  if s.running (.spareCheck c) then
    let s := s.liveTags.foldl (fun s t => s.bankWritten c t) s
    let s := s.modCl c (fun k => { k with svc := { k.svc with st := if pass then 0 else 5, check := pass } })
    if pass then s.complete (.spareCheck c) stDone []
    else (s.raise (src c 0x13) 0xAA).complete (.spareCheck c) stHwFault []
  else s

def execSpareCheckDone (cluster : Nat) (pass : Bool) (s : State) : Host.Outcome State Fault Refusal :=
  answer (if cluster < 26 && s.up cluster then s.spareCheckDone cluster pass else s)

/-- CLUSTER_DRAINED: no thread runs a record, no dispatch is on its way, and every THREAD_FREE has reached I26 (DEDUCED, log 19). -/
def State.clusterDrained (s : State) (c : Nat) : State :=
  let coming := s.net.any (fun m => match m.msg with
    | .dispatch _ => m.dst == c
    | .threadFree t => t / 128 == c
    | _ => false)
  if (s.cl c).svc.st = 2 ∧ s.runningThreads c = 0 ∧ ¬ coming then ((s.setSvc c 3).ownSettings c).complete (.drain c) stDone [0, 0, 0, 0] else s

def execClusterDrained (cluster : Nat) (s : State) : Host.Outcome State Fault Refusal :=
  answer (if cluster < 26 then s.clusterDrained cluster else s)

/-- CLUSTER_DRAIN_TIMEOUT: the wait ends first; the cluster stays DRAINING. -/
def execClusterDrainTimeout (cluster : Nat) (s : State) : Host.Outcome State Fault Refusal :=
  answer (if cluster < 26 then s.complete (.drain cluster) stBusy (s.drainResult cluster) else s)

/-! ### Adoption (R363) -/

/-- The words that a spare takes from the cluster it replaces. -/
def State.copyWords (s : State) (old new : Nat) : State :=
  let s := (List.range 32).foldl (fun s n => s.setObj 0x0040 (new * 32 + n) (s.obj 0x0040 (old * 32 + n))) s
  let s := (s.setObj 0x0041 new (s.obj 0x0041 old)).setObj 0x0042 new (s.obj 0x0042 old)
  s.modCl new (fun k => { k with svc := { k.svc with decodeWr := (s.cl old).svc.decodeWr } })

/-- CLUSTER_ADOPT_SPARE: role position `p` moves to the spare `n` (DEDUCED, log 19). -/
def State.adopt (s : State) (p n : Nat) : Ran :=
  let old := s.clusterAt p
  if 24 ≤ p ∨ 26 ≤ n then .done stBadParam [] s
  else s.after 9 (
    if s.clusterBusy n then .done stBusy [] s
    else if (s.cl n).svc.st ≠ 0 ∨ ¬ (s.cl n).svc.check ∨ ¬ ((s.cl old).svc.st = 3 ∨ (s.cl old).svc.st = 4) ∨ s.inReset 26 then
      .done stBadState [] s
    else
      let s := s.copyWords old n
      let s := { s with seq := { s.seq with position := Store.set p s.seq.position p n } }
      .ok ((((s.emptyChannels n).setSvc old 5).setSvc n 1).extraitSettings n))

def execClusterAdoptSpare (pkt : Packet) (s : State) : Host.Outcome State Fault Refusal :=
  answer (s.packet pkt 0x0604 none (plen 4 [(2, 2)]) (fun c s => s.adopt (c.n 0 1) (c.n 1 1)))

/-! ### Scrubs of the on-chip arrays (R360, R387) -/

/-- Mark word `n` of the array of a unit as uncorrectable, with the kind that reports it and its ADDRESS: what the block
itself would meet at its next read. None where the unit holds no such word (PRESUMED, log 45). -/
def State.markWord (s : State) (i u n : Nat) : Option (Nat × Nat × State) :=
  let cluster := fun (k : Nat) => s.modCl i (fun x => { x with bad := (k :: x.bad).eraseDups })
  if i < 26 then
    if u < 8 ∧ n < 65536 then some (0x63, if n < 32768 then n % 2048 else 0x10000 + (n - 32768), cluster (u * 65536 + n / 8 * 8))
    else if u = 0x10 ∧ n < 0x80000 then some (0x63, 0x100000 + n, cluster (2 ^ 32 + n / 8 * 8))
    else if u = 0x11 ∧ n < 32 then some (0x64, n, s.modCl i (·.modCh n (fun k => { k with bad := !k.msgs.isEmpty })))
    else if u = 0x12 ∧ n < 2 ^ 22 then some (0x63, n % 2 ^ 18 / 4, cluster (2 ^ 33 + n / 8 * 8))
    else none
  else if 27 ≤ i ∧ i < 31 ∧ u = 0 ∧ n < 8192 then some (0x48, n % 4096, s.modSlc (i - 27) (fun q => { q with badWords := (n :: q.badWords).eraseDups }))
  else if 31 ≤ i ∧ i < 36 ∧ u = 0x10 ∧ n / 512 = i - 31 then
    some (0x44, n, { s with ports := { s.ports with badSa := (n :: s.ports.badSa).eraseDups } })
  else if i = 41 ∧ u = 0 ∧ n < 2 ^ 24 then some (0x90, n, s.modPool (n / 2 ^ 20) (fun q => { q with badBuf := (n % 2 ^ 20 :: q.badBuf).eraseDups }))
  else if i = 41 ∧ u = 0 ∧ n < 2 ^ 25 then
    some (0x90, n - 2 ^ 24, s.modPool (n / 2 ^ 20 - 16) (fun q => { q with badRing := (n % 2 ^ 20 :: q.badRing).eraseDups }))
  else if i = 41 ∧ u = 1 ∧ n < 2 ^ 20 then some (0x92, n / 4, { s with pools := { s.pools with badCell := (n :: s.pools.badCell).eraseDups } })
  else if i = 41 ∧ u = 2 ∧ n < 2 ^ 19 then some (0x90, n, s.modDesc n (fun d => { d with bad := true }))
  else if i = 52 ∧ u = 0 ∧ n < 65536 then
    some (0xC0, n, { s with faults := { s.faults with badEntry := (n :: s.faults.badEntry).eraseDups } })
  else none

/-- A scrub finds word `n` uncorrectable. Records, queues, locks and tasks are treated as the block treats a word it reads (R20: the scrub engine is the master);
any other word is marked and reported by the scrub engine. -/
def State.foundBad (s : State) (source n : Nat) : State :=
  let i := source / 64
  let u := source % 64
  if i = 26 ∧ u = 0 ∧ n < 8192 then State.eccRecord { s with seq := { s.seq with badRec := (n :: s.seq.badRec).eraseDups } } n (some (0x4104, 0xA))
  else if i = 36 ∧ u = 0 ∧ n < 262144 then (s.modQueue n (fun k => { k with bad := true })).queueEcc n 0x4104 0xA
  else if 37 ≤ i ∧ i < 41 ∧ 0x10 ≤ u ∧ u < 0x18 ∧ n < 2048 then
    let w := ((i - 37) * 8 + (u - 0x10)) * 2048 + n
    State.lockEcc { s with tables := { s.tables with badLocks := w :: s.tables.badLocks } } w 0x4104 0xA
  else if i = 42 ∧ u = 0 ∧ n < 65536 then State.taskEcc { s with tasks := { s.tasks with bad := n :: s.tasks.bad } } n 0x4104 0xA
  else match s.markWord i u n with
    | some (kind, a, s) => s.raise source kind { addr := a, master := 0x4104, access := 0xA }
    | none => s

/-- A row that yields corrected errors in two passes running takes a spare row of its array, while one is left. -/
def State.repairArray (s : State) (source row : Nat) : State :=
  let used := Store.get 0 s.scrub.spare source
  if used < Config.spareRows source then { s with scrub := { s.scrub with spare := Store.set 0 s.scrub.spare source (used + 1) } }
  else s.raise source 0xA8 { addr := Config.arrayAddress source row, master := 0x4104, access := 0xA }

/-- SRAM_SCRUB: one pass over the array of a unit, with the rows it corrected and the words it found uncorrectable. -/
def State.sramScrub (s : State) (source : Nat) (corrected damaged : List Nat) : State :=
  let rows := corrected.eraseDups
  let before := Store.get [] s.scrub.corrected source
  let s := { s with scrub := { s.scrub with corrected := Store.set [] s.scrub.corrected source rows } }
  let s := (rows.filter before.contains).foldl (fun s r => s.repairArray source r) s
  damaged.eraseDups.foldl (fun s n => s.foundBad source n) s

/-- The unit holds an array that R360 names. -/
def holdsArray (source : Nat) : Bool :=
  let i := source / 64
  let u := source % 64
  (i < 26 && (u < 8 || (0x10 ≤ u && u ≤ 0x12))) || ((i == 26 || (27 ≤ i && i < 31) || i == 36 || i == 42 || i == 52) && u == 0)
    || (31 ≤ i && i < 36 && u == 0x10) || (37 ≤ i && i < 41 && 0x10 ≤ u && u < 0x18) || (i == 41 && u < 3)

def execSramScrub (source : BitVec 12) (corrected damaged : List Nat) (s : State) : Host.Outcome State Fault Refusal :=
  answer (if holdsArray source.toNat && s.up (source.toNat / 64) then s.sramScrub source.toNat corrected damaged else s)

/-! ### Decant commands (R339, R341) -/

/-- A pool, an EXT table of a live or staged Accord, or the spill region reaches above a device address. -/
def State.usedAbove (s : State) (a : Nat) : Bool :=
  let tags := [s.accord.staged.toNat] ++ (if s.accord.live then [s.accord.current.toNat] else [])
    ++ (if s.accord.drainValid then [s.accord.draining.toNat] else [])
  (span 1 16).any (fun p => s.poolOn p && s.poolDram p && a < regionBase (s.obj 0x0070 p) + regionSize (s.obj 0x0070 p))
    || tags.any (fun t => (s.tablesOf t).any (fun e => dKind e.2 == 6 && a < dExt e.2 * 2 ^ 20 + 2 ^ (dLog e.2 + 7)))
    || (s.param 0x0A != 0 && a < (s.param 0x09 + s.param 0x0A) * 2 ^ 20)

/-- DECANT: the checks of R339 in their order. -/
def State.decant (s : State) (c mode : Nat) : Ran :=
  if 8 ≤ c ∨ 1 < mode then .done stBadParam [] s
  else s.after 7 (
    if s.dram.n ≤ 1 ∨ (s.chan c).st ≠ .service then .done stBadState [] s
    else if s.param 0x0C < s.dram.segs / s.dram.n then .done stNoSpace [] s
    else if s.dram.decant.isSome then .done stBusy [] s
    else if s.usedAbove s.reserveBase then .done stBadState [] s
    else .start (.decant c) (s.startDecant c (mode == 1)))

def execDecant (pkt : Packet) (s : State) : Host.Outcome State Fault Refusal :=
  answer (s.packet pkt 0x0608 none (plen 4 [(2, 2)]) (fun c s => s.decant (c.n 0 1) (c.n 1 1)))

/-- DECANT_RETURN: copy-back starts; after a retraining that failed, the retraining is tried again first. -/
def State.decantReturn (s : State) (c : Nat) : Ran :=
  if 8 ≤ c then .done stBadParam [] s
  else match s.dram.decant with
    | none => .done stBadState [] s
    | some d =>
      if d.channel ≠ c then .done stBadState [] s
      else match d.phase with
        | .copyBack => .done stAlready [] s
        | .held =>
          if d.failed then .ok ((s.modDecant (fun d => { d with phase := .retrain, hold := false, failed := false })).modChan c
            (fun k => { k with retrain := true }))
          else .ok (s.modDecant (fun d => { d with phase := .copyBack, moved := 0 }))
        | _ => .done stBadState [] s

def execDecantReturn (pkt : Packet) (s : State) : Host.Outcome State Fault Refusal :=
  answer (s.packet pkt 0x0609 none (plen 4 [(1, 3)]) (fun c s => s.decantReturn (c.n 0 1)))

/-- DECANT_ABORT: the copy-out stops, and what has moved goes home; one that meets the completion of the Decant, in the same instant of
device time, is already done (R341; DESIGN CHOICE, log 57). -/
def State.decantAbort (s : State) (c : Nat) : Ran :=
  if 8 ≤ c then .done stBadParam [] s
  else match s.dram.decant with
    | none => if s.dram.ended = some (c, s.time.elapsed) then .done stAlready [] s else .done stBadState [] s
    | some d =>
      if d.channel ≠ c then .done stBadState [] s
      else match d.phase with
        | .copyOut => .ok (s.modDecant (fun d => { d with phase := .aborting, limit := d.moved, moved := 0 }))
        | .aborting => .done stAlready [] s
        | _ => .done stBadState [] s

def execDecantAbort (pkt : Packet) (s : State) : Host.Outcome State Fault Refusal :=
  answer (s.packet pkt 0x060A none (plen 4 [(1, 3)]) (fun c s => s.decantAbort (c.n 0 1)))

/-! ### Lanes, banks and queues (R48, R250, R320, R430) -/

/-- LANE_RECAL of either kind: 1 BACKGROUND, 2 FULL, which takes the lane's port down. -/
def State.laneRecal (s : State) (l : Nat) (kind : BitVec 2) : Ran :=
  if 40 ≤ l then .done stBadParam [] s
  else s.after 8 (
    match s.portOfLane l with
    | none => .done stBadState [] s
    | some p =>
      if (s.lane l).recal ≠ 0 then .done stBusy [] s
      else if s.inReset (portIsl l) then .done stHwFault [] s
      else
        let s := if kind = 2 then s.portDown p else s
        .start (.laneRecal l) (s.modLane l (fun x => { x with recal := kind })))

def execLaneRecalBackground (pkt : Packet) (s : State) : Host.Outcome State Fault Refusal :=
  answer (s.packet pkt 0x0610 (some (1, 0)) (plen 4 [(2, 2)]) (fun c s => s.laneRecal (c.n 0 1) 1))

def execLaneRecalFull (pkt : Packet) (s : State) : Host.Outcome State Fault Refusal :=
  answer (s.packet pkt 0x0610 (some (1, 1)) (plen 4 [(2, 2)]) (fun c s => s.laneRecal (c.n 0 1) 2))

/-- BANK_REPLACE: the group's spare takes the bank's role, unless it is in use or replacing. -/
def State.bankReplace (s : State) (b : Nat) : Ran :=
  if 32 ≤ b then .done stBadParam [] s
  else s.after 6 (
    if s.tables.spareUsed.contains (b / 8) ∨ s.tables.replacing.any (fun r => r / 8 == b / 8) then .done stNoSpace [] s
    else if s.inReset (37 + b / 8) then .done stHwFault [] s
    else .start (.bankReplace b) { s with tables := { s.tables with replacing := s.tables.replacing ++ [b] } })

def execBankReplace (pkt : Packet) (s : State) : Host.Outcome State Fault Refusal :=
  answer (s.packet pkt 0x0611 none (plen 4 [(1, 3)]) (fun c s => s.bankReplace (c.n 0 1)))

/-- QUEUE_FLUSH: the packets and pages of a queue are freed, and it runs again. -/
def State.queueFlush (s : State) (q : Nat) : Ran :=
  if 262144 ≤ q then .done stBadParam [] s
  else s.after 6 (
    if s.inReset 36 then .done stHwFault [] s
    else let r := s.flushQueue q 0x16; .done stDone (beBytes 4 r.1) r.2)

def execQueueFlush (pkt : Packet) (s : State) : Host.Outcome State Fault Refusal :=
  answer (s.packet pkt 0x0612 none (plen 4) (fun c s => s.queueFlush (c.n 0 4)))

end Sys2Proof.Machine
end

