-- ==== Sys2Proof/Machine/Collector.lean ====
section
/-! DEFINITION. The Fault Collector: acceptance of a message, first-error capture, escalation, reactions, ERR_N, the Sillage
and its DRAM extension, and acknowledgement (spec/16_faults_recovery.md R365 to R387). -/

namespace Sys2Proof.Machine

/-! ### Messages as words (R365) -/

/-- The 256-bit message. -/
def FaultMsg.word (m : FaultMsg) : Nat :=
  m.detail.toNat * 2 ^ 224 + m.seq.toNat * 2 ^ 192 + m.time.toNat * 2 ^ 128 + m.address.toNat * 2 ^ 64 + m.source.toNat * 2 ^ 52
    + m.kind.toNat * 2 ^ 44 + m.cls.toNat * 2 ^ 40 + m.level.toNat * 2 ^ 37 + m.flags.toNat * 2 ^ 32 + m.master.toNat * 2 ^ 16
    + m.access.toNat * 2 ^ 12

/-- The capture object: the message with REPEATS and VALID (R372). -/
def Capture.word (c : Capture) : Nat := if c.valid then c.msg.word + c.repeats.toNat * 2 ^ 112 + 2 ^ 11 else 0

def State.capture (s : State) (source : Nat) : Capture := Store.get {} s.faults.capture source
def State.escState (s : State) (k : Nat) : Esc := Store.get {} s.faults.esc k

/-- Escalation state as an object (R378). -/
def Esc.word (e : Esc) : Nat := e.level.toNat * 2 ^ 61 + e.unacked.toNat * 2 ^ 32 + e.lastSeq.toNat

def State.modFaults (s : State) (f : Faults → Faults) : State := { s with faults := f s.faults }

/-- The class a message is treated under: OUTBOX_OVERRUN follows the class of the most recent loss (R370). -/
def FaultMsg.effClass (m : FaultMsg) : Nat := if m.kind = 0xC3 then m.address.toNat % 16 else m.cls.toNat

/-- The reaction entry, escalation state and capture that a message meets are one set by SOURCE × 16 + CLASS. -/
def FaultMsg.entry (m : FaultMsg) : Nat := m.source.toNat * 16 + m.effClass

def entryBase (e : ObjWord) : Nat := fld e 15 13
def entryCeiling (e : ObjWord) : Nat := fld e 12 10
def entryErrAt (e : ObjWord) (level : Nat) : Bool := (fld e 9 6).testBit (level - 1)

/-! ### Escalation (R378, R379) -/

/-- Never escalates and never counts as a repeat: class SLOT, and every consequence of a reset or a reaction. -/
def FaultMsg.plain (m : FaultMsg) : Bool := m.effClass == 1 || m.conseq

/-- The level a repeat takes: one above the last, up to CEILING; a device-wide source passes over level 3. -/
def repeatLevel (island last ceiling : Nat) : Nat :=
  let l := min (last + 1) ceiling
  if island = 0x3F ∧ l = 3 then 4 else l

/-- The level applied and whether it is an escalation. -/
def State.faultLevel (s : State) (m : FaultMsg) : Nat × Bool :=
  let e := s.obj 0x00B0 m.entry
  let st := s.escState m.entry
  if m.plain ∨ st.unacked = 0 then (entryBase e, false)
  else
    let l := repeatLevel (m.source.toNat / 64) st.level.toNat (entryCeiling e)
    (l, decide (st.level.toNat < l))

/-- Count the message in its escalation state. -/
def State.countEsc (s : State) (m : FaultMsg) (level : Nat) : State :=
  if m.plain then s
  else s.modFaults (fun f => { f with esc := Store.modify {} f.esc m.entry (fun e =>
    { level := BitVec.ofNat 3 level, unacked := satAdd e.unacked 1, lastSeq := f.nextSeq }) })

/-! ### Capture and Sillage (R372, R384, R385) -/

/-- First-error capture: the first message of a source is copied, later ones are counted. -/
def State.captureMsg (s : State) (m : FaultMsg) : State :=
  s.modFaults (fun f => { f with capture := Store.modify {} f.capture m.source.toNat (fun c =>
    if c.valid then { c with repeats := satAdd c.repeats 1 } else { valid := true, msg := m }) })

/-- The DRAM extension is on. -/
def State.extOn (s : State) : Bool := s.param 0x17 != 0

/-- EXT_LAG: entries not yet copied. -/
def State.extLag (s : State) : Nat := if s.extOn then (s.faults.nextSeq - s.faults.extNext).toNat else 0

/-- Write entry SEQ mod 4,096. An entry overwritten before its copy is lost: counted, and reported once for each run. -/
def State.sillage (s : State) (m : FaultMsg) : State :=
  let lost := s.extLag ≥ 4096
  let s := s.modFaults (fun f => { f with
    sillage := Store.insert (f.nextSeq.toNat % 4096) m (Store.erase f.sillage (f.nextSeq.toNat % 4096)), nextSeq := f.nextSeq + 1 })
  if lost then
    let first := !s.faults.lossRun
    let s := s.modFaults (fun f => { f with extNext := f.extNext + 1, extLost := satAdd f.extLost 1, lossRun := true })
    if first then s.raise (src 52 0) 0xC1 { master := 0x4106 } else s
  else s

/-- A copy of the Sillage reaches its channel. -/
def State.dramServes (s : State) (a : Nat) : Bool := a < s.dramSize && !s.dramGone a 32 && s.dramOpen a 32

/-- SILLAGE_COPY: the oldest entry not copied goes to the region, in SC3; a copy to a channel that does not serve waits (R384). -/
def State.sillageCopy (s : State) : State :=
  let q := s.faults.extNext
  let a := s.param 0x16 * 2 ^ 20 + 32 * (q.toNat % (32768 * s.param 0x17))
  if s.extLag = 0 ∨ ¬ s.dramServes a then s
  else
    let s := (s.dramIssue true [a / 64] 3 0x4106).dramWrite a (leBytes 32 (Store.get ({} : FaultMsg) s.faults.sillage (q.toNat % 4096)).word)
    s.modFaults (fun f => { f with extNext := q + 1, lossRun := false })

def execSillageCopy (s : State) : Host.Outcome State Fault Refusal := answer (if s.up 52 then s.sillageCopy else s)

/-! ### ERR_N (R383) -/

/-- Assert ERR_N: a pulse of 20 µs starts or starts again, and HOLD sets. -/
def State.assertErr (s : State) : State :=
  s.modFaults (fun f => { f with errPulsing := true, errHold := true, errRelease := false, errAt := some s.time.elapsed })

/-- A host write of HOLD: 1 asserts with no pulse, 0 takes effect at the end of a pulse; an assertion of the same instant stands
(R382; DESIGN CHOICE, log 57). -/
def State.writeHold (s : State) (hold : Bool) : State :=
  s.modFaults (fun f =>
    if hold then { f with errHold := true, errRelease := false }
    else if f.errAt = some s.time.elapsed then f
    else if f.errPulsing then { f with errRelease := true } else { f with errHold := false })

/-- ERR_N_PULSE_END. -/
def execErrNPulseEnd (s : State) : Host.Outcome State Fault Refusal :=
  answer (if s.faults.errPulsing then
    s.modFaults (fun f => { f with errPulsing := false, errHold := f.errHold && !f.errRelease, errRelease := false }) else s)

/-! ### Reactions (R374, R376, R377) -/

/-- The class's FAULT_CAUSE bit; one that rises sends the class's MSI-X vector (R374, R416). -/
def State.faultCause (s : State) (cls : Nat) : State :=
  if s.bar0.faultCause.getLsbD cls || !s.pins.perstN then s
  else State.msix { s with bar0 := { s.bar0 with faultCause := s.bar0.faultCause ||| (1 <<< cls) } } (4 + cls)

/-- Deliver an NMI to the thread that a cluster's watch word designates; one that is free or halted on a fault takes none,
which is counted (R374). -/
def State.deliverNmi (s : State) (c : Nat) : State :=
  let t := c * 128 + fld (s.obj 0x0041 c) 6 0
  let x := s.th t
  if x.busy && x.halt != .fault then s.modTh t (fun x => { x with nmi := true }) else s.count (src c 0x13) 0x10

/-- The actions of a level, with those of every lower one; BLOCK_RESET and CHIP_RESET deliver no NMI. -/
def State.react (s : State) (m : FaultMsg) (level : Nat) : State :=
  let isl := m.source.toNat / 64
  let s := (s.faultCause m.effClass).stewardEvent (.fault m.seq)
  let s := if 2 ≤ level then s.stewardEvent (.trap m.seq) else s
  match level with
  | 2 => if isl < 26 then s.deliverNmi isl else s
  | 3 => if isl < 53 then s.resetIsland isl true else s
  | 4 =>
    let s := if isl < 53 then s.resetIsland isl true else s
    if s.faults.chipReset.isSome then s
    else s.modFaults (fun f => { f with
      chipReset := some (BitVec.ofNat 32 (2 * 2 ^ 28 + m.seq.toNat % 2 ^ 28)), chipErr := m.flags.getLsbD 2 })
  | _ => s

/-! ### FAULT_MESSAGE_ACCEPT (R370, R373, R378) -/

/-- The next island, round-robin, whose outbox holds a message (DEDUCED, log 12). -/
def State.nextOutbox (s : State) : Option Nat :=
  ((List.range 64).map (fun k => (s.faults.lastIsland + 1 + k) % 64)).find? (fun i => !(Store.get ({} : Outbox) s.faults.outbox i).msgs.isEmpty)

/-- Treat an accepted message: level, capture, Sillage, reaction. An entry that reads uncorrectable reports FC_ECC, and the
message takes level 1 with ERR_N asserted (R373; DEDUCED, log 12). -/
def State.acceptMsg (s : State) (m : FaultMsg) : State :=
  let bad := s.faults.badEntry.contains m.entry
  let (level, escalated) := if bad then (1, false) else s.faultLevel m
  let err := bad || entryErrAt (s.obj 0x00B0 m.entry) level
  let first := !(s.capture m.source.toNat).valid
  let m : FaultMsg := { m with
    seq := s.faults.nextSeq, level := BitVec.ofNat 3 level
    flags := BitVec.ofNat 5 (16 * b2n first + 8 * b2n escalated + 4 * b2n err + 2 * b2n m.conseq + b2n m.injected) }
  let s := s.count (src 52 0) 0x10
  let s := if escalated then s.count (src 52 0) 0x11 else s
  let s := s.trace 7 0 m.master.toNat 0 0 0xFFFF 0 (Config.traceFault m.seq.toNat m.kind.toNat)
  let s := if bad then s.raise (src 52 0) 0xC0 { addr := m.entry } else s.countEsc m level
  let s := (s.captureMsg m).sillage m
  let s := if err then s.assertErr else s
  s.react m level

/-- FAULT_MESSAGE_ACCEPT: one message, from the next island's outbox. -/
def State.faultAccept (s : State) : State :=
  match s.nextOutbox with
  | none => s
  | some i =>
    match (Store.get ({} : Outbox) s.faults.outbox i).msgs with
    | [] => s
    | m :: rest =>
      State.acceptMsg (s.modFaults (fun f => { f with
        lastIsland := i, outbox := Store.modify {} f.outbox i (fun o => { o with msgs := rest }) })) m

def execFaultMessageAccept (s : State) : Host.Outcome State Fault Refusal := answer (if s.up 52 then s.faultAccept else s)

/-- OUTBOX_OVERRUN (R370): room has appeared, and the losses are reported with their count and the class of the last. -/
def State.outboxOverrun (s : State) (i : Nat) : State :=
  let o := Store.get ({} : Outbox) s.faults.outbox i
  if o.msgs.length < 16 ∧ ¬ o.lost.isEmpty then
    let n := (o.lost.map (fun e => e.2.toNat)).sum
    State.raise (s.modFaults (fun f => { f with outbox := Store.set {} f.outbox i { o with lost := [] } })) (src i 0x3F) 0xC3
      { addr := o.lastClass.toNat, detail := n }
  else s

def execOutboxOverrun (island : Nat) (s : State) : Host.Outcome State Fault Refusal :=
  answer (if island < 64 then s.outboxOverrun island else s)

/-! ### Crossings with damaged flits (R371) -/

/-- A flit is on its way from `a` to `b`. -/
def State.crosses (s : State) (a b : Nat) : Bool :=
  (s.oldest a b).isSome || (b == 26 && 27 ≤ a && a < 31 && ((s.slc (a - 27)).pipe.head?.any (·.complete)))

/-- FLIT_RESEND: the receiver rejects the flit. When the third re-send is rejected too, it reports, and the crossing is
refused. -/
def State.flitResend (s : State) (a b : Nat) : State :=
  if s.crosses a b && s.up b then
    let k := a * 64 + b
    let n := Store.get 0 s.faults.flitTries k
    if n < 3 then s.modFaults (fun f => { f with flitTries := Store.set 0 f.flitTries k (n + 1) })
    else
      let s := (s.modFaults (fun f => { f with flitTries := Store.erase f.flitTries k })).raise (src b 0x3F) 0xC2 { addr := a }
      s.refuseOldest a b
  else s

def execFlitResend (src' dst : Nat) (s : State) : Host.Outcome State Fault Refusal :=
  answer (if src' < 53 && dst < 53 then s.flitResend src' dst else s)

/-! ### FAULT_ACK (R381, R382) -/

/-- a lies at or after b among serial numbers modulo 2³². -/
def seqAfter (a b : BitVec 32) : Bool := decide ((a - b).toNat < 2 ^ 31)

def State.faultAck (s : State) (source cls : Nat) (seq : BitVec 32) : Ran :=
  let k := source * 16 + cls
  let e := s.escState k
  let c := s.capture source
  let clearEsc := e.unacked != 0 && seqAfter seq e.lastSeq
  let clearCap := c.valid && c.msg.cls.toNat == cls && seqAfter seq c.msg.seq
  let t := s.modFaults (fun f => { f with
    esc := if clearEsc then Store.set {} f.esc k { e with level := 0, unacked := 0 } else f.esc
    capture := if clearCap then Store.erase f.capture source else f.capture })
  .done (if clearEsc || clearCap then stDone else stAlready)
    (beBytes 4 e.lastSeq.toNat ++ beBytes 1 (b2n clearEsc + 2 * b2n clearCap) ++ [0, 0, 0]) t

def execFaultAck (pkt : Packet) (s : State) : Host.Outcome State Fault Refusal :=
  answer (s.packet pkt 0x0400 none (plen 8 [(3, 1)]) (fun c s =>
    if c.n 0 2 ≥ 4096 ∨ c.n 2 1 ≥ 16 then .done stBadParam [] s
    else if s.inReset 52 then .done stHwFault [] s
    else s.faultAck (c.n 0 2) (c.n 2 1) (BitVec.ofNat 32 (c.n 4 4))))

/-! ### SLOT_RESOLVE (R95, R101) -/

/-- HOLD_LIMIT resolved the record, of this GEN, in this instant (R101; DEDUCED, log 57: one elapsed nanosecond). -/
def State.justExpired (s : State) (r gen : Nat) : Bool :=
  s.seq.expired.any (fun e => e.1 == r && e.2.1.toNat == gen && e.2.2 == s.time.elapsed)

/-- A report of I26 about a record that a tie withdraws before the collector takes it (R101). -/
def State.withdrawReport (s : State) (kind r gen : Nat) : State :=
  s.modFaults (fun f => { f with outbox := Store.modify {} f.outbox 26 (fun o => { o with msgs := o.msgs.filter (fun m =>
    !(m.kind.toNat == kind && m.detail.toNat == gen * 8192 + r && m.time == s.time.ns)) }) })

/-- SLOT_RESOLVE of either action on a HELD record. With HOLD_LIMIT in one instant the record is resolved once: REPLAY returns CANCELLED,
and DROP returns DONE with no HOLD_EXPIRED (R101). -/
def State.slotResolve (s : State) (r gen : Nat) (replay : Bool) : Ran :=
  if 8192 ≤ r then .done stBadParam [] s
  else if s.inReset 26 then .done stBadState [] s
  else
    let x := s.rcd r
    if x.gen.toNat ≠ gen then .done stAlready [] s
    else if x.st ≠ .held then
      if !s.justExpired r gen then .done stBadState [] s
      else if replay then .done stCancelled [] s
      else .ok { s.withdrawReport 0x54 r gen with seq := { s.seq with expired := s.seq.expired.filter (fun e => e.1 != r) } }
    else if !replay then .ok ((s.traceRec 5 0 r 0 0).resolveDrop r .faulted)
    else if x.safe && !x.replayed && !x.struck && !x.eccHeld && s.tagLive x.accord.toNat then .ok ((s.raiseRec 0x51 r).requeue r)
    else .done stBadState [] s

def execSlotResolveDrop (pkt : Packet) (s : State) : Host.Outcome State Fault Refusal :=
  answer (s.packet pkt 0x0401 (some (3, 0)) (plen 4) (fun c s => s.slotResolve (c.n 0 2) (c.n 2 1) false))

def execSlotResolveReplay (pkt : Packet) (s : State) : Host.Outcome State Fault Refusal :=
  answer (s.packet pkt 0x0401 (some (3, 1)) (plen 4) (fun c s => s.slotResolve (c.n 0 2) (c.n 2 1) true))

end Sys2Proof.Machine
end

