-- ==== Sys2Proof/Machine/Bar0.lean ====
section
/-! DEFINITION. The BAR0 registers: what a write of each does and what a read returns (spec/17_command_protocol.md R414 to
R416, with R9 and R11 of spec/00_scope.md). -/

namespace Sys2Proof.Machine

/-- Replace the low or high 32 bits of a 64-bit register. -/
def putHalf (w : BitVec 64) (high : Bool) (v : BitVec 32) : BitVec 64 :=
  if high then BitVec.ofNat 64 (v.toNat * 2 ^ 32 + w.toNat % 2 ^ 32) else BitVec.ofNat 64 (w.toNat / 2 ^ 32 * 2 ^ 32 + v.toNat)

/-- Clear the bits that a write of 1s names in one half of a 64-bit cause register. -/
def clearHalf (w : BitVec 64) (high : Bool) (v : BitVec 32) : BitVec 64 := w &&& ~~~(putHalf 0 high v)

/-! ### Rings (R414, R415) -/

/-- A write of a ring's control register: ENABLE 0 clears HALTED; the size changes only while the ring is off, and a
reserved size leaves it as it was (R11). -/
def Ring.ctrl (r : Ring) (v : BitVec 32) : Ring :=
  let on := v.getLsbD 31
  let size := v.toNat % 32
  { r with enable := on, halted := r.halted && on
           size := if r.enable || size < 6 || 12 < size then r.size else BitVec.ofNat 5 size }

/-- A write of one half of a ring's base: none while the ring is on. -/
def Ring.setBase (r : Ring) (high : Bool) (v : BitVec 32) : Ring := if r.enable then r else { r with base := putHalf r.base high v }

/-- A tail that leaves at most 2^`log` − 1 entries posted; any other write has no effect. -/
def newTail (tail head : BitVec 16) (log : Nat) (v : BitVec 32) : BitVec 16 :=
  let t : BitVec 16 := v.truncate 16
  if (t - head).toNat ≤ 2 ^ log - 1 then t else tail

def Ring.setTail (r : Ring) (v : BitVec 32) : Ring := { r with tail := newTail r.tail r.head r.size.toNat v }

/-- A host ring's tail: ring `k` is device-to-host r at r and host-to-device r at 64 + r. -/
def State.hostTail (s : State) (k : Nat) (v : BitVec 32) : State :=
  let log := if k < 64 then fld (s.obj 0x0086 k) 62 58 else fld (s.obj 0x0087 (k - 64)) 62 58
  { s with bar0 := { s.bar0 with
      tails := Store.set 0 s.bar0.tails k (newTail (Store.get 0 s.bar0.tails k) (Store.get 0 s.bar0.heads k) log v) } }

/-! ### MSI-X (R416) -/

/-- A write of one 32-bit word of the MSI-X table. A vector unmasked while it is pending is sent. -/
def State.msixWrite (s : State) (o : Nat) (v : BitVec 32) : State :=
  let n := o / 16
  let lo := o % 16 * 8
  let old := Store.get ((1 : BitVec 128) <<< 96) s.bar0.msix n
  let v := if lo = 96 then v.toNat % 2 else v.toNat
  let w : BitVec 128 := BitVec.ofNat 128 (old.toNat - bits old.toNat (lo + 31) lo * 2 ^ lo + v * 2 ^ lo)
  let s := { s with bar0 := { s.bar0 with msix := Store.set ((1 : BitVec 128) <<< 96) s.bar0.msix n w } }
  if !w.getLsbD 96 && s.bar0.msixPend.getLsbD n then
    State.emit { s with bar0 := { s.bar0 with msixPend := s.bar0.msixPend &&& ~~~((1 : BitVec 64) <<< n) } } (.msix n)
  else s

/-! ### Writes -/

def State.modBar0 (s : State) (f : Bar0 → Bar0) : State := { s with bar0 := f s.bar0 }

/-- A write of the 32-bit word at an offset. Registers that are RO and offsets without a register take nothing. -/
def State.bar0Word (s : State) (o : Nat) (v : BitVec 32) : State :=
  if o = 0x08 then s.modBar0 (fun b => { b with scratch := v })
  else if o = 0x10 ∨ o = 0x14 then s.modBar0 (fun b => { b with cmd := b.cmd.setBase (o == 0x14) v })
  else if o = 0x18 then s.modBar0 (fun b => { b with cmd := b.cmd.ctrl v })
  else if o = 0x1C then s.modBar0 (fun b => { b with cmd := b.cmd.setTail v })
  else if o = 0x28 ∨ o = 0x2C then s.modBar0 (fun b => { b with rpl := b.rpl.setBase (o == 0x2C) v })
  else if o = 0x30 then (s.modBar0 (fun b => { b with rpl := b.rpl.ctrl v })).flushAll
  else if o = 0x34 then (s.modBar0 (fun b => { b with rpl := b.rpl.setTail v })).flushAll
  else if o = 0x40 then s.modBar0 (fun b => { b with faultCause := b.faultCause &&& ~~~(v.truncate 16) })
  else if o = 0x44 then s.modBar0 (fun b => { b with eventCause := b.eventCause &&& ~~~(v.truncate 7) })
  else if o = 0x50 ∨ o = 0x54 then s.modBar0 (fun b => { b with d2hCause := clearHalf b.d2hCause (o == 0x54) v })
  else if o = 0x58 ∨ o = 0x5C then s.modBar0 (fun b => { b with h2dCause := clearHalf b.h2dCause (o == 0x5C) v })
  else if 0x400 ≤ o ∧ o < 0x800 ∧ o % 8 = 0 then s.hostTail ((o - 0x400) / 8) v
  else if 0x2000 ≤ o ∧ o < 0x2400 then s.msixWrite (o - 0x2000) v
  else s

/-- A register's row: BAR0 answers while the endpoint is out of reset and its link is up. -/
def State.bar0Reg (s : State) (o : Nat) (v : BitVec 32) : State := if s.pcieOn then s.bar0Word o v else s

def State.bar0Pair (s : State) (o : Nat) (v : BitVec 64) : State := (s.bar0Reg o (v.truncate 32)).bar0Reg (o + 4) ((v >>> 32).truncate 32)

/-- CMD_TAIL. -/
def execCmdTail (value : BitVec 32) (s : State) : Host.Outcome State Fault Refusal := answer (s.bar0Reg 0x1C value)
/-- RPL_TAIL. -/
def execRplTail (value : BitVec 32) (s : State) : Host.Outcome State Fault Refusal := answer (s.bar0Reg 0x34 value)
/-- CMD_RING_CTRL. -/
def execCmdRingCtrl (value : BitVec 32) (s : State) : Host.Outcome State Fault Refusal := answer (s.bar0Reg 0x18 value)
/-- RPL_RING_CTRL. -/
def execRplRingCtrl (value : BitVec 32) (s : State) : Host.Outcome State Fault Refusal := answer (s.bar0Reg 0x30 value)
/-- FAULT_CAUSE. -/
def execFaultCause (value : BitVec 32) (s : State) : Host.Outcome State Fault Refusal := answer (s.bar0Reg 0x40 value)
/-- EVENT_CAUSE. -/
def execEventCause (value : BitVec 32) (s : State) : Host.Outcome State Fault Refusal := answer (s.bar0Reg 0x44 value)
/-- RING_CAUSE_D2H. -/
def execRingCauseD2h (value : BitVec 64) (s : State) : Host.Outcome State Fault Refusal := answer (s.bar0Pair 0x50 value)
/-- RING_CAUSE_H2D. -/
def execRingCauseH2d (value : BitVec 64) (s : State) : Host.Outcome State Fault Refusal := answer (s.bar0Pair 0x58 value)

/-- D2H_TAIL of ring `ring`. -/
def execD2hTail (ring : Nat) (value : BitVec 32) (s : State) : Host.Outcome State Fault Refusal :=
  answer (if ring < 64 then s.bar0Reg (0x400 + 8 * ring) value else s)

/-- H2D_TAIL of ring `ring`. -/
def execH2dTail (ring : Nat) (value : BitVec 32) (s : State) : Host.Outcome State Fault Refusal :=
  answer (if ring < 64 then s.bar0Reg (0x600 + 8 * ring) value else s)

/-- BAR0_WRITE: an aligned write of 4 or 8 bytes reaches its words in ascending order; any other has no effect. -/
def execBar0Write (offset size : Nat) (value : BitVec 64) (s : State) : Host.Outcome State Fault Refusal :=
  answer (if offset < 0x4000 ∧ size = 4 ∧ offset % 4 = 0 then s.bar0Reg offset (value.truncate 32)
    else if offset < 0x4000 ∧ size = 8 ∧ offset % 8 = 0 then s.bar0Pair offset value else s)

/-! ### Reads -/

/-- DEV_STATUS. -/
def State.devStatus (s : State) : Nat :=
  b2n s.ycp.up * 2 ^ 31 + b2n s.accord.live * 2 ^ 30 + b2n s.sec.factoryMode * 2 ^ 29 + b2n s.sec.pcieSigned * 2 ^ 28
    + b2n (s.sec.running == some 1) * 2 ^ 27

def Ring.ctrlWord (r : Ring) : Nat := b2n r.enable * 2 ^ 31 + b2n r.halted * 2 ^ 30 + r.size.toNat

def Window.status (x : Window) : Nat :=
  x.st.toNat * 2 ^ 62 + b2n x.error * 2 ^ 61 + b2n x.aborted * 2 ^ 60 + x.owner.toNat * 2 ^ 56 + x.drops.toNat * 2 ^ 40 + x.cursor % 2 ^ 40

/-- The 32-bit word at an offset of BAR0; zero where no register lies. -/
def State.bar0Read (s : State) (o : Nat) : Nat :=
  let half := fun (w : Nat) => if o % 8 = 4 then w / 2 ^ 32 % 2 ^ 32 else w % 2 ^ 32
  if o = 0x00 then 0x4208B101 else if o = 0x04 then s.devStatus else if o = 0x08 then s.bar0.scratch.toNat
  else if o = 0x10 ∨ o = 0x14 then half s.bar0.cmd.base.toNat
  else if o = 0x18 then s.bar0.cmd.ctrlWord else if o = 0x1C then s.bar0.cmd.tail.toNat else if o = 0x20 then s.bar0.cmd.head.toNat
  else if o = 0x28 ∨ o = 0x2C then half s.bar0.rpl.base.toNat
  else if o = 0x30 then s.bar0.rpl.ctrlWord else if o = 0x34 then s.bar0.rpl.tail.toNat else if o = 0x38 then s.bar0.rpl.head.toNat
  else if o = 0x40 then s.bar0.faultCause.toNat else if o = 0x44 then s.bar0.eventCause.toNat
  else if o = 0x50 ∨ o = 0x54 then half s.bar0.d2hCause.toNat else if o = 0x58 ∨ o = 0x5C then half s.bar0.h2dCause.toNat
  else if 0x80 ≤ o ∧ o < 0x100 then half (s.win ((o - 0x80) / 8)).status
  else if 0x400 ≤ o ∧ o < 0x800 then
    (if o % 8 = 0 then Store.get 0 s.bar0.tails ((o - 0x400) / 8) else Store.get 0 s.bar0.heads ((o - 0x400) / 8)).toNat
  else if 0x2000 ≤ o ∧ o < 0x2400 then
    bits (Store.get ((1 : BitVec 128) <<< 96) s.bar0.msix ((o - 0x2000) / 16)).toNat ((o - 0x2000) % 16 * 8 + 31) ((o - 0x2000) % 16 * 8)
  else if o = 0x3000 ∨ o = 0x3004 then half s.bar0.msixPend.toNat
  else 0

end Sys2Proof.Machine
end

