-- ==== Sys2Proof/Machine/HClass.lean ====
section
/-! DEFINITION. The meanings of the H-class instructions: each hands its operands to a helper of the cluster (spec/08_helpers.md R217 to R229). Each issues its syllable; what the syllable does is in Flags, HelperUnits and Issue. -/

namespace Sys2Proof.Machine

/-- LKP (R217). -/
def execLkp (y : Syl) (s : State) : Host.Outcome State Fault Refusal := answer (s.syllable y 2 0x00)

/-- LKPW (R217). -/
def execLkpw (y : Syl) (s : State) : Host.Outcome State Fault Refusal := answer (s.syllable y 2 0x01)

/-- INS (R217). -/
def execIns (y : Syl) (s : State) : Host.Outcome State Fault Refusal := answer (s.syllable y 2 0x02)

/-- DEL (R217). -/
def execDel (y : Syl) (s : State) : Host.Outcome State Fault Refusal := answer (s.syllable y 2 0x03)

/-- CRC32 (R218). -/
def execCrc32 (y : Syl) (s : State) : Host.Outcome State Fault Refusal := answer (s.syllable y 2 0x10)

/-- CRC32C (R218). -/
def execCrc32c (y : Syl) (s : State) : Host.Outcome State Fault Refusal := answer (s.syllable y 2 0x11)

/-- TPLZ (R218). -/
def execTplz (y : Syl) (s : State) : Host.Outcome State Fault Refusal := answer (s.syllable y 2 0x12)

/-- SIPH (R218). -/
def execSiph (y : Syl) (s : State) : Host.Outcome State Fault Refusal := answer (s.syllable y 2 0x13)

/-- SUM (R220). -/
def execSum (y : Syl) (s : State) : Host.Outcome State Fault Refusal := answer (s.syllable y 2 0x20)

/-- INC16 (R220). -/
def execInc16 (y : Syl) (s : State) : Host.Outcome State Fault Refusal := answer (s.syllable y 2 0x21)

/-- INC32 (R220). -/
def execInc32 (y : Syl) (s : State) : Host.Outcome State Fault Refusal := answer (s.syllable y 2 0x22)

/-- EXT (R221). -/
def execExt (y : Syl) (s : State) : Host.Outcome State Fault Refusal := answer (s.syllable y 2 0x30)

/-- BFX_INS (R221). -/
def execBfxIns (y : Syl) (s : State) : Host.Outcome State Fault Refusal := answer (s.syllable y 2 0x31)

/-- EXTW (R221). -/
def execExtw (y : Syl) (s : State) : Host.Outcome State Fault Refusal := answer (s.syllable y 2 0x32)

/-- DIVS (R222). -/
def execDivs (y : Syl) (s : State) : Host.Outcome State Fault Refusal := answer (s.syllable y 2 0x40)

/-- DIVU (R222). -/
def execDivu (y : Syl) (s : State) : Host.Outcome State Fault Refusal := answer (s.syllable y 2 0x41)

/-- REMS (R222). -/
def execRems (y : Syl) (s : State) : Host.Outcome State Fault Refusal := answer (s.syllable y 2 0x42)

/-- REMU (R222). -/
def execRemu (y : Syl) (s : State) : Host.Outcome State Fault Refusal := answer (s.syllable y 2 0x43)

/-- NOW (R223). -/
def execNow (y : Syl) (s : State) : Host.Outcome State Fault Refusal := answer (s.syllable y 2 0x50)

/-- NOWF (R223). -/
def execNowf (y : Syl) (s : State) : Host.Outcome State Fault Refusal := answer (s.syllable y 2 0x51)

/-- TADD (R223). -/
def execTadd (y : Syl) (s : State) : Host.Outcome State Fault Refusal := answer (s.syllable y 2 0x52)

/-- TDIFF (R223). -/
def execTdiff (y : Syl) (s : State) : Host.Outcome State Fault Refusal := answer (s.syllable y 2 0x53)

/-- TPAST (R223). -/
def execTpast (y : Syl) (s : State) : Host.Outcome State Fault Refusal := answer (s.syllable y 2 0x54)

/-- TSEC (R223). -/
def execTsec (y : Syl) (s : State) : Host.Outcome State Fault Refusal := answer (s.syllable y 2 0x55)

/-- TNSEC (R223). -/
def execTnsec (y : Syl) (s : State) : Host.Outcome State Fault Refusal := answer (s.syllable y 2 0x56)

/-- RDC (R225). -/
def execRdc (y : Syl) (s : State) : Host.Outcome State Fault Refusal := answer (s.syllable y 2 0x60)

/-- WRC (R225). -/
def execWrc (y : Syl) (s : State) : Host.Outcome State Fault Refusal := answer (s.syllable y 2 0x61)

/-- HEAD (R226). -/
def execHead (y : Syl) (s : State) : Host.Outcome State Fault Refusal := answer (s.syllable y 2 0x62)

/-- TRIM (R226). -/
def execTrim (y : Syl) (s : State) : Host.Outcome State Fault Refusal := answer (s.syllable y 2 0x63)

/-- PFREE (R225). -/
def execPfree (y : Syl) (s : State) : Host.Outcome State Fault Refusal := answer (s.syllable y 2 0x64)

/-- BALLOC (R288). -/
def execBalloc (y : Syl) (s : State) : Host.Outcome State Fault Refusal := answer (s.syllable y 2 0x65)

/-- BFREE (R225). -/
def execBfree (y : Syl) (s : State) : Host.Outcome State Fault Refusal := answer (s.syllable y 2 0x66)

/-- BRD (R225). -/
def execBrd (y : Syl) (s : State) : Host.Outcome State Fault Refusal := answer (s.syllable y 2 0x67)

/-- BWR (R225). -/
def execBwr (y : Syl) (s : State) : Host.Outcome State Fault Refusal := answer (s.syllable y 2 0x68)

/-- KEXP (R229). -/
def execKexp (y : Syl) (s : State) : Host.Outcome State Fault Refusal := answer (s.syllable y 2 0x70)

/-- GCTR (R229). -/
def execGctr (y : Syl) (s : State) : Host.Outcome State Fault Refusal := answer (s.syllable y 2 0x71)

/-- GHM (R229). -/
def execGhm (y : Syl) (s : State) : Host.Outcome State Fault Refusal := answer (s.syllable y 2 0x72)

/-- SHB (R229). -/
def execShb (y : Syl) (s : State) : Host.Outcome State Fault Refusal := answer (s.syllable y 2 0x73)

end Sys2Proof.Machine
end

