-- ==== Sys2Proof/Machine/MClass.lean ====
section
/-! DEFINITION. The meanings of the M-class instructions (spec/07_isa_reference.md R184 to R186). Each issues its syllable; what the syllable does is in Flags, HelperUnits and Issue. -/

namespace Sys2Proof.Machine

/-- LD (R184). -/
def execLd (y : Syl) (s : State) : Host.Outcome State Fault Refusal := answer (s.syllable y 1 0x01)

/-- LDS (R184). -/
def execLds (y : Syl) (s : State) : Host.Outcome State Fault Refusal := answer (s.syllable y 1 0x02)

/-- ST (R184). -/
def execSt (y : Syl) (s : State) : Host.Outcome State Fault Refusal := answer (s.syllable y 1 0x03)

/-- FLD (R184). -/
def execFld (y : Syl) (s : State) : Host.Outcome State Fault Refusal := answer (s.syllable y 1 0x08)

/-- FLDS (R184). -/
def execFlds (y : Syl) (s : State) : Host.Outcome State Fault Refusal := answer (s.syllable y 1 0x09)

/-- FST (R186). -/
def execFst (y : Syl) (s : State) : Host.Outcome State Fault Refusal := answer (s.syllable y 1 0x0A)

/-- CNT (R186). -/
def execCnt (y : Syl) (s : State) : Host.Outcome State Fault Refusal := answer (s.syllable y 1 0x18)

/-- LDP (R184). -/
def execLdp (y : Syl) (s : State) : Host.Outcome State Fault Refusal := answer (s.syllable y 1 0x30)

/-- CUSTOM_M (R206): opcode 0x70 + n, decode table entry 16 + n. -/
def execCustomM (y : Syl) (n : BitVec 4) (s : State) : Host.Outcome State Fault Refusal :=
  answer (s.syllable y 1 (0x70 + n.toNat))

end Sys2Proof.Machine
end

