-- ==== Sys2Proof/Machine/Objects.lean ====
section
/-! DEFINITION. Objects: their classes, what a read returns and clears, and what a write checks and does
(spec/17_command_protocol.md R403 to R405, spec/18_command_reference.md R421 to R424, and the chapters of each object). -/

namespace Sys2Proof.Machine

/-! ### Classes (R403, R404) -/

inductive ObjKind where
  | live | staged | ro
  deriving DecidableEq, Repr

/-- A class: bytes and bits of a value, its kind, and how many indices it has. -/
structure ObjClass where
  size  : Nat
  width : Nat
  kind  : ObjKind
  count : Nat
  deriving DecidableEq, Repr

def objClass (cls : Nat) : Option ObjClass :=
  match cls with
  | 0x10 => some ⟨4, 32, .live, 40⟩ | 0x11 => some ⟨4, 32, .live, 40⟩ | 0x12 => some ⟨8, 64, .live, 40⟩
  | 0x13 => some ⟨8, 64, .live, 320⟩ | 0x14 => some ⟨16, 128, .live, 2560⟩ | 0x15 => some ⟨48, 384, .live, 10240⟩
  | 0x16 => some ⟨16, 128, .live, 40⟩ | 0x17 => some ⟨16, 128, .ro, 40⟩ | 0x18 => some ⟨16, 128, .live, 1⟩
  | 0x20 => some ⟨16, 128, .staged, 256⟩ | 0x21 => some ⟨9, 72, .staged, 2048⟩ | 0x22 => some ⟨4, 32, .staged, 512⟩
  | 0x23 => some ⟨12, 96, .staged, 1024⟩ | 0x24 => some ⟨8, 64, .staged, 256⟩ | 0x25 => some ⟨8, 64, .staged, 1⟩
  | 0x30 => some ⟨2, 16, .staged, 65536⟩ | 0x31 => some ⟨8, 64, .staged, 256⟩ | 0x32 => some ⟨8, 64, .ro, 8192⟩
  | 0x33 => some ⟨4, 32, .staged, 64⟩ | 0x34 => some ⟨1, 8, .ro, 24⟩
  | 0x40 => some ⟨2, 16, .live, 832⟩ | 0x41 => some ⟨4, 32, .live, 26⟩ | 0x42 => some ⟨4, 32, .live, 26⟩
  | 0x43 => some ⟨4, 32, .ro, 26⟩ | 0x44 => some ⟨136, 1088, .staged, 32⟩
  | 0x50 => some ⟨16, 128, .staged, 256⟩ | 0x51 => some ⟨32, 256, .staged, 256⟩ | 0x52 => some ⟨4, 32, .ro, 65536⟩
  | 0x60 => some ⟨16, 128, .live, 65536⟩
  | 0x70 => some ⟨8, 64, .live, 16⟩ | 0x71 => some ⟨8, 64, .ro, 16777216⟩ | 0x72 => some ⟨8, 64, .live, 320⟩
  | 0x80 => some ⟨8, 64, .staged, 262144⟩ | 0x81 => some ⟨16, 128, .staged, 65536⟩ | 0x82 => some ⟨16, 128, .staged, 16384⟩
  | 0x83 => some ⟨16, 128, .staged, 2048⟩ | 0x84 => some ⟨8, 64, .staged, 44⟩ | 0x85 => some ⟨16, 128, .staged, 256⟩
  | 0x86 => some ⟨16, 128, .live, 64⟩ | 0x87 => some ⟨16, 128, .live, 64⟩
  | 0x90 => some ⟨8, 64, .live, 8⟩ | 0xA0 => some ⟨8, 64, .ro, 1⟩
  | 0xB0 => some ⟨2, 16, .live, 65536⟩ | 0xB1 => some ⟨8, 64, .ro, 65536⟩ | 0xB2 => some ⟨32, 256, .ro, 4096⟩
  | 0xB3 => some ⟨32, 256, .ro, 4096⟩ | 0xB4 => some ⟨8, 64, .ro, 1⟩ | 0xB5 => some ⟨4, 32, .live, 1⟩ | 0xB6 => some ⟨4, 32, .ro, 1⟩
  | 0xC0 => some ⟨8, 64, .live, 27⟩ | 0xD0 => some ⟨16, 128, .live, 53⟩
  | 0xE0 => some ⟨36, 288, .ro, 16⟩ | 0xF0 => some ⟨144, 1152, .ro, 1⟩
  | _ => none

/-- The index lies within the class's range: MACsec channels 33 to 63 are reserved, and pools start at 1. -/
def objIndexOk (cls idx : Nat) : Bool :=
  match cls with
  | 0x14 => idx < 2560 && idx % 64 ≤ 32
  | 0x15 => idx < 10240 && idx / 4 % 64 ≤ 32
  | 0x70 => 1 ≤ idx && idx < 16
  | 0x71 => 2 ^ 20 ≤ idx && idx < 2 ^ 24
  | _ => match objClass cls with | some c => idx < c.count | none => false

/-- The start-up step after which objects of a class are served (R520): 0 where they are served at once. -/
def objStep (cls : Nat) (write : Bool) (idx : Nat) : Nat :=
  if 0x10 ≤ cls ∧ cls ≤ 0x17 then 8
  else if cls = 0x18 then 6
  else if (0x20 ≤ cls ∧ cls ≤ 0x34) ∨ (0x50 ≤ cls ∧ cls ≤ 0x60) ∨ (0x80 ≤ cls ∧ cls ≤ 0x87) then 6
  else if cls = 0x40 ∨ cls = 0x41 ∨ cls = 0x42 ∨ cls = 0x44 then 9
  else if 0x70 ≤ cls ∧ cls ≤ 0x72 then 7
  else if cls = 0x90 then (if write then 7 else 0)
  else if cls = 0xC0 then (if write then 7 else 0)
  else if cls = 0xD0 then (if write ∧ idx < 26 then 9 else 0)
  else 0

/-- The island that an access to an object crosses to; none where the Steward holds it itself. -/
def objIsland (cls idx : Nat) (write : Bool) : Option Nat :=
  match cls with
  | 0x10 | 0x11 | 0x12 | 0x16 | 0x17 => some (portIsl idx)
  | 0x13 => some (portIsl (idx / 8))
  | 0x14 => some (portIsl (idx / 64))
  | 0x15 => some (portIsl (idx / 256))
  | 0x18 | 0xB0 | 0xB1 | 0xB2 | 0xB3 | 0xB4 | 0xB5 => some 52
  | 0x32 | 0x34 => some 26
  | 0x40 => some (idx / 32)
  | 0x41 | 0x42 => some idx
  | 0x52 => some (37 + idx / 16384)
  | 0x60 => some 42
  | 0x70 | 0x71 | 0x72 => some 41
  | 0x86 | 0x87 => some 36
  | 0x90 => if write then some (43 + idx) else none
  | _ => none

/-! ### Words of objects that are read from the device's state -/

/-- Port status word (R52). -/
def Port.word (q : Port) : Nat :=
  b2n q.linkUp * 2 ^ 31 + b2n q.remoteFault * 2 ^ 30 + q.events.toNat * 2 ^ 17 + q.lastOutage.toNat

def RecState.code : RecState → Nat
  | .free => 0 | .queued => 1 | .running => 2 | .committed => 3 | .held => 4

/-- Record status word (R81). -/
def Rec.word (x : Rec) : Nat :=
  x.domain.toNat * 2 ^ 48 + x.fault.toNat * 2 ^ 40 + x.st.code * 2 ^ 37 + b2n x.safe * 2 ^ 36 + b2n x.replayed * 2 ^ 35
    + b2n x.poison * 2 ^ 34 + b2n x.task * 2 ^ 33 + x.passed.toNat * 2 ^ 29 + x.released.toNat * 2 ^ 25 + x.accord.toNat * 2 ^ 21
    + x.gen.toNat * 2 ^ 13 + x.thread.toNat

/-- Cluster service word (R361). POSITION reads its reset value until start-up has set the words. -/
def State.serviceWord (s : State) (c : Nat) : Nat :=
  (s.cl c).svc.st.toNat * 2 ^ 29 + (if s.startup.done.contains 9 then s.positionOf c else 0x1F) * 2 ^ 24
    + s.runningThreads c * 2 ^ 16 + b2n (s.cl c).svc.check * 2 ^ 15

/-- Lock word (R257). -/
def Lock.word (l : Lock) : Nat :=
  b2n l.held * 2 ^ 31 + b2n l.abandoned * 2 ^ 30 + b2n l.broken * 2 ^ 29 + (if l.broken then 0 else l.queue.length) * 2 ^ 16 + l.owner.toNat

def TaskState.code : TaskState → Nat
  | .free => 0 | .idle => 1 | .delayed => 2 | .ready => 3 | .dispatched => 4

/-- Task object (R271). -/
def Task.word (x : Task) : Nat :=
  x.st.code * 2 ^ 125 + x.gen.toNat * 2 ^ 117 + b2n x.armPending.isSome * 2 ^ 116 + b2n x.faulted * 2 ^ 115 + b2n x.domained * 2 ^ 114
    + b2n x.rearmFault * 2 ^ 113 + x.prio.toNat * 2 ^ 110 + x.role.toNat * 2 ^ 104 + x.domain.toNat * 2 ^ 88 + x.missed.toNat * 2 ^ 72
    + x.period.toNat * 2 ^ 32 + x.arg.toNat

def ChanState.code : ChanState → Nat
  | .absent => 0 | .service => 1 | .decanted => 2 | .training => 3

/-- DRAM channel object (R324): REFRESH and MARK as written, the rest as the channel stands. -/
def State.channelWord (s : State) (c : Nat) : Nat :=
  let k := s.chan c
  k.st.code * 2 ^ 62 + k.ranks.toNat * 2 ^ 60 + k.width.toNat * 2 ^ 59 + k.density.toNat * 2 ^ 57 + k.rate.toNat * 2 ^ 54
    + fld (s.obj 0x0090 c) 53 46 * 2 ^ 46 + k.temp.toNat * 2 ^ 38 + b2n k.hot * 2 ^ 37 + min 15 k.owed * 2 ^ 33 + k.gib % 128 * 2 ^ 26

/-- Accord status word (R346). -/
def State.accordWord (s : State) : Nat :=
  let a := s.accord
  let us := (s.time.elapsed - a.drainStart) / 1000
  a.current.toNat * 2 ^ 60 + a.draining.toNat * 2 ^ 56 + a.staged.toNat * 2 ^ 52 + b2n a.live * 2 ^ 51 + b2n a.drainValid * 2 ^ 50
    + b2n a.preparing * 2 ^ 49 + b2n (!s.tables.sweeping.isEmpty) * 2 ^ 48 + a.markers.toNat * 2 ^ 43
    + (if a.drainValid then min 8191 s.inflight * 2 ^ 30 + min (2 ^ 30 - 1) us else 0)

/-- Sillage status word (R384). -/
def State.sillageWord (s : State) : Nat :=
  s.faults.nextSeq.toNat * 2 ^ 32 + min 65535 s.extLag * 2 ^ 16 + s.faults.extLost.toNat

def IslandState.code : IslandState → Nat
  | .run => 0 | .stopped => 1 | .reset => 2 | .relocking => 3

/-- Island object (R472). LIFE drops the accumulator's 32 further fraction bits (R487). -/
def State.islandWord (s : State) (i : Nat) : Nat :=
  let x := s.isl i
  x.temp.toNat * 2 ^ 120 + x.peak.toNat * 2 ^ 112 + x.limit.toNat * 2 ^ 104 + (if i = 51 then b2n s.power.governor else 0) * 2 ^ 103
    + x.st.code * 2 ^ 100 + b2n x.locked * 2 ^ 99 + b2n x.sensorOk * 2 ^ 98 + b2n x.extrait * 2 ^ 97 + x.freq.toNat * 2 ^ 84
    + x.volt.toNat * 2 ^ 74 + x.vmeas.toNat * 2 ^ 64 + x.life / 2 ^ 32 % 2 ^ 64

/-- OWNER_STATE (R447): revoked, and the current generation, of each owner slot. -/
def State.ownerState (s : State) : List Byte :=
  (List.range 4).map (fun k =>
    let g := s.ownerCurrent k
    BitVec.ofNat 8 (b2n (g != 0 && (s.ownerKeyOf k).isNone) * 128 + g))

def Lifecycle.code : Lifecycle → Nat
  | .factory => 1 | .unowned => 2 | .owned => 3

/-- The identity image (R447). -/
def State.identity (s : State) : List Byte :=
  ([0x00, 0x01, 0x42, 0x08, 0xB1, 0, 0, 0] : List Byte) ++ beBytes 8 Config.deviceSerial ++ identityPublic
    ++ (span 48 128).map Config.certificate
    ++ [BitVec.ofNat 8 s.sec.lifecycle.code, BitVec.ofNat 8 (s.sec.running.getD 0xFF)] ++ beBytes 2 s.sec.count
    ++ beBytes 4 (match s.sec.running with | some k => s.slotVersion k | none => 0) ++ s.ownerState
    ++ beBytes 4 (b2n s.sec.securityLost + 2 * b2n s.sec.recovery)

/-! ### OBJ_READ (R403) -/

/-- The Accord whose copy a read of a staged class returns. -/
def State.readTag (s : State) : Nat := if s.accord.live then s.accord.current.toNat else s.accord.staged.toNat

/-- The value of a staged object as a host reads it. -/
def State.stagedValue (s : State) (cls idx : Nat) : List Byte :=
  match objClass cls with
  | none => []
  | some c =>
    if cls = 0x44 then mread (s.copy s.readTag).dtab (136 * idx) 136
    else if 0x80 ≤ cls ∧ s.accord.live then beBytes c.size (s.qo cls idx).toNat
    else beBytes c.size (s.sobj s.readTag cls idx).toNat

/-- A two-step record leaves its FIFO (R46). -/
def State.popTwoStep (s : State) (p : Nat) : Nat × State :=
  match (s.port p).tsFifo with
  | [] => (0, s)
  | (tag, t) :: rest => (2 ^ 127 + tag.toNat * 2 ^ 64 + t.toNat, s.modPort p (fun q => { q with tsFifo := rest }))

/-- What an uncorrectable word does when the block reads it for the host: records, locks, tasks and reaction entries. -/
def State.readMeets (s : State) (cls idx master : Nat) : State :=
  match cls with
  | 0x32 => s.eccRecord idx (some (master, 1))
  | 0x52 => s.lockEcc idx master
  | 0x60 => s.taskEcc idx master 1
  | 0xB0 | 0xB1 => if s.faults.badEntry.contains idx then s.raise (src 52 0) 0xC0 { addr := idx, access := 0xB } else s
  | _ => s

/-- The value of a live or read-only object, with what the read clears. -/
def State.liveValue (s : State) (cls idx : Nat) : Nat × State :=
  match cls with
  | 0x11 => ((s.port idx).word, s)
  | 0x15 => (fld (s.obj cls idx) 31 0, s)
  | 0x17 => s.popTwoStep idx
  | 0x18 =>
    let t := s.ports.pins
    (t.ppsInTime.toNat * 2 ^ 64 + fld (s.obj cls 0) 63 45 * 2 ^ 45 + b2n t.ppsInNew * 2 ^ 44 + t.ppsInCount.toNat, s)
  | 0x32 => ((s.rcd idx).word, s)
  | 0x34 => (s.clusterAt idx, s)
  | 0x43 => (s.serviceWord idx, s)
  | 0x52 => ((s.lock idx).word, s)
  | 0x60 => ((s.tsk idx).word, s.modTask idx (fun x => { x with missed := 0 }))
  | 0x71 => ((s.buf (idx / 2 ^ 20) (idx % 2 ^ 20)).code, s)
  | 0x90 => (s.channelWord idx, s)
  | 0xA0 => (s.accordWord, s)
  | 0xB1 => ((s.escState idx).word, s)
  | 0xB2 => ((s.capture idx).word, s)
  | 0xB3 => (match s.faults.sillage.find? (fun e => e.1 == idx) with | some e => e.2.word | none => 0, s)
  | 0xB4 => (s.sillageWord, s.modFaults (fun f => { f with extLost := 0 }))
  | 0xB5 => (2 * b2n s.faults.errPulsing + b2n s.faults.errHold, s)
  | 0xB6 => (s.faults.resetCause.toNat, s)
  | 0xC0 => (if idx = 0x1A then b2n s.profileFull else s.param idx, s)
  | 0xD0 => (s.islandWord idx, s.modIsl idx (fun x => { x with peak := 0x80 }))
  | _ => ((s.obj cls idx).toNat, s)

/-- One object as OBJ_READ returns it. -/
def State.readObj (s : State) (cls idx master : Nat) : List Byte × State :=
  match objClass cls with
  | none => ([], s)
  | some c =>
    if c.kind = .staged then (s.stagedValue cls idx, s)
    else if cls = 0xE0 then ((s.issuer idx).key ++ beBytes 4 (s.issuer idx).ctl.toNat, s)
    else if cls = 0xF0 then (s.identity, s)
    else
      let r := (s.readMeets cls idx master).liveValue cls idx
      (beBytes c.size r.1, r.2)

/-- Whether an object's island takes an access now: a status where it refuses, `none` where it takes it. -/
def State.objRefused (s : State) (cls idx : Nat) (write : Bool) : Option Nat :=
  if !objIndexOk cls idx then some stBadParam
  else match objIsland cls idx write with
    | some i => if s.inReset i then some stHwFault else none
    | none => none

/-- The access waits: a start-up step has not ended, or a stopped island's clock (R19, R520). -/
def State.objWaits (s : State) (cls idx : Nat) (write : Bool) : Bool :=
  (objStep cls write idx != 0 && !s.startup.done.contains (objStep cls write idx))
    || (match objIsland cls idx write with | some i => !s.up i && !s.inReset i | none => false)

/-- Results of a command that stops at a failure: the count done, where it names several indices (R421). -/
def partialResults (many : Bool) (done : Nat) : List Byte := if many then beBytes 2 done ++ [0, 0] else []

/-- Read `n` objects from `idx`. -/
def State.readAll (cls master : Nat) (many : Bool) : Nat → Nat → Nat → List Byte → State → Ran
  | 0, _, _, acc, s => .done stDone acc s
  | n + 1, idx, done, acc, s =>
    match s.objRefused cls idx false with
    | some st => .done st (partialResults many done ++ (if many then acc else [])) s
    | none =>
      let r := s.readObj cls idx master
      State.readAll cls master many n (idx + 1) (done + 1) (acc ++ r.1) r.2

/-- The object head: CLASS, INDEX and COUNT. -/
def objHead (p : List Byte) : Bool := 12 ≤ p.length && beVal (slice p 2 2) == 0 && beVal (slice p 10 2) == 0

def State.objRead (s : State) (c : Cmd) : Ran :=
  let cls := c.n 0 2
  let idx := c.n 4 4
  let n := c.n 8 2
  match objClass cls with
  | none => .done stBadParam [] s
  | some k =>
    if c.p.length ≠ 12 ∨ n = 0 ∨ !c.fits (n * k.size) ∨ (cls = 0xF0 ∧ n ≠ 1) then .done stBadParam [] s
    else if !objIndexOk cls idx then .done stBadParam (partialResults (n != 1) 0) s
    else if (span idx (idx + n)).any (fun i => objIndexOk cls i && s.objWaits cls i false) then .wait
    else State.readAll cls c.master (n != 1) n idx 0 [] s

/-- OBJ_READ. -/
def execObjRead (pkt : Packet) (s : State) : Host.Outcome State Fault Refusal :=
  answer (s.packet pkt 0x0100 none objHead (fun c s => s.objRead c))

/-! ### Writes: what each object's chapter checks and does -/

/-- How the write of one object ends. -/
inductive ObjRes where
  | ok (s : State)
  | fail (status : Nat)
  /-- It takes effect at a later event; its checks have passed. -/
  | wait (w : Wait) (s : State)

def ObjRes.guard (bad : Bool) (status : Nat) (r : ObjRes) : ObjRes := if bad then .fail status else r

/-- A lane on which a mode may start (R29). -/
def modeStarts (m p : Nat) : Bool :=
  match m with
  | 0 => true
  | 1 => p < 32 && p % 8 == 0
  | 2 => p < 32 && p % 4 == 0
  | 3 => p < 32 && p % 2 == 0
  | 4 => p < 32
  | _ => 32 ≤ p && m ≤ 8

/-- The lanes that a port in a mode uses. -/
def lanesOf (m p : Nat) : List Nat := (List.range (modeLanes m)).map (p + ·)

/-- R31: the forms of a port control word. -/
def State.portWordOk (s : State) (p : Nat) (w : ObjWord) : Bool :=
  let m := fld w 27 24
  let fec := fld w 23 22
  fld w 31 28 == 0 && fld w 15 14 == 0 && m ≤ 8 && fec != 3 && fld w 21 20 != 3 && fld w 19 18 != 3
    && modeStarts m p
    && (List.range 40).all (fun q => q == p || (s.portLanes q).all (fun l => !(lanesOf m p).contains l))
    && (fec == 0 || m == 5) && (fld w 16 16 == 0 || m == 7)
    && 64 ≤ fld w 13 0 && fld w 13 0 ≤ 10240

/-- A change of MODE or FEC (R32, R46, R49): recalibrations of the port's lanes end, it goes down, and the lanes of the new
mode acquire. Frames taken ahead of the transmitter stay with the port under MODE 0x0, and REMOTE_FAULT keeps its value
(DESIGN CHOICE, log 23). -/
def State.modeChange (s : State) (p m : Nat) (w : ObjWord) : State :=
  let old := s.portLanes p
  let mode := s.portMode p != m
  let s := (s.portDown p (m == 0)).setObj 0x0010 p w
  let s := (old ++ (lanesOf m p).filter (fun l => !old.contains l)).foldl (fun s l =>
    (s.complete (.laneRecal l) stCancelled []).modLane l (fun x =>
      { x with recal := 0, lost := false, holding := false, acquiring := (lanesOf m p).contains l })) s
  if mode then s.modPort p (fun q => { q with tsFifo := [] }) else s

def State.writePort (s : State) (p : Nat) (w : ObjWord) : ObjRes :=
  let m := fld w 27 24
  let old := s.portWord p
  .guard (!s.portWordOk p w) stBadParam (
    .guard (s.ports.pllOff.contains (portIsl p)) stBadState (.ok (
      if fld old 27 22 = fld w 27 22 then s.setObj 0x0010 p w else s.modeChange p m w)))

/-- Enabled receive channels other than channel `idx` (R40). -/
def State.receiveChannels (s : State) (idx : Nat) : Nat :=
  s.live.countP (fun e => e.1 / 2 ^ 32 == 0x14 && e.1 % 2 ^ 32 != idx && e.1 % 2 ^ 32 % 64 != 0 && fld e.2 63 63 == 1)

/-- The replay window suits the suites of the channel's associations (R39). -/
def windowOk (window : Nat) (xpn : Bool) : Bool := !xpn || window ≤ 2 ^ 30

def State.writeChannel (s : State) (idx : Nat) (w : ObjWord) : ObjRes :=
  let rx := idx % 64 != 0
  .guard (fld w 61 60 == 3 || fld w 23 0 != 0 || (rx && (fld w 62 62 != 0 || fld w 57 56 != 0))
      || !windowOk (fld w 55 24) ((List.range 4).any (fun k => saXpn (s.saObj (4 * idx + k))))) stBadParam (
    .guard (rx && fld w 63 63 == 1 && fld (s.obj 0x14 idx) 63 63 == 0 && 512 ≤ s.receiveChannels idx) stNoSpace (
      .ok ({ s with ports := { s.ports with badSa := s.ports.badSa.filter (· != idx) } }.setObj 0x14 idx w)))

def State.writeAssociation (s : State) (idx : Nat) (w : ObjWord) : ObjRes :=
  .guard (fld w 23 0 != 0 || (!saXpn w && 31 < fld w 29 24) || !windowOk (fld (s.obj 0x14 (idx / 4)) 55 24) (saXpn w)) stBadParam (
    .ok (({ s with ports := { s.ports with badSa := s.ports.badSa.filter (· != idx / 4) } }.setObj 0x15 idx w).modSa idx
      (fun x => { x with threshed := false, exhausted := false })))

/-- |PRE| + MAIN + |POST| of a lane word (R424). -/
def tapSum (w : ObjWord) : Nat := (signed 8 (fld w 63 56)).natAbs + fld w 55 48 + (signed 8 (fld w 47 40)).natAbs

def State.writePins (s : State) (w : ObjWord) : ObjRes :=
  .guard (fld w 43 32 != 0 || fld w 63 45 == 0 || 500000 < fld w 63 45) stBadParam (
    .ok ({ s with ports := { s.ports with pins := { s.ports.pins with
      ppsInNew := s.ports.pins.ppsInNew && fld w 44 44 == 0 } } }.setObj 0x18 0 (setFld 0 63 45 (fld w 63 45))))

/-- A message is held in the channel, or on its way to it (R125). -/
def State.channelBusy (s : State) (c n : Nat) : Bool :=
  !((Store.get ({} : Channel) (s.cl c).chan n).msgs.isEmpty)
    || s.net.any (fun x => x.dst == c && (match x.msg with | .chan _ _ k _ _ => k == n | _ => false))

/-- A task object's RW fields, and FAULTED cleared by a 1 (R271). -/
def State.writeTask (s : State) (n : Nat) (w : ObjWord) : ObjRes :=
  .guard (fld w 71 64 != 0 || 4 < fld w 127 125) stBadParam (
    .guard ((s.tsk n).st != .idle) stBusy (
      .ok (s.modTask n (fun x => { x with
        faulted := x.faulted && fld w 115 115 == 0, domained := fld w 114 114 == 1, rearmFault := fld w 113 113 == 1
        prio := BitVec.ofNat 3 (fld w 112 110), role := BitVec.ofNat 6 (fld w 109 104), domain := BitVec.ofNat 16 (fld w 103 88)
        period := BitVec.ofNat 32 (fld w 63 32), arg := BitVec.ofNat 32 (fld w 31 0) }))))

/-- A pool object (R283, R284). Setting ENABLE takes effect once the ring holds every buffer. -/
def State.writePool (s : State) (p : Nat) (w : ObjWord) : ObjRes :=
  let old := s.obj 0x70 p
  let z := fld w 61 57
  .guard (fld w 35 19 != 0 || z < 6 || 21 < z || 1048576 < fld w 56 36) stBadParam (
  if fld old 63 63 = 1 then
    .guard (setFld old 63 63 0 != w) stBusy (.ok ((s.setObj 0x70 p w).modPool p (fun q => { q with offAt := some s.time.elapsed })))
  else
      .guard (fld w 63 63 == 1 && !s.poolFits p w) stBadParam (
        .guard (newGeometry old w && 0 < (s.pool p).inUse) stBusy (
          let s := s.setPool p (setFld w 63 63 0)
          if fld w 63 63 = 1 then .wait (.pool p) s else .ok s)))

/-- The sum of all MIN with HEAD_RESERVE fits pool 0 (R289). -/
def State.minsFit (s : State) : Bool :=
  ((s.live.filter (fun e => e.1 / 2 ^ 32 == 0x72)).map (fun e => fld e.2 35 18)).sum + s.param 0x07 ≤ s.param 0x06

def State.writeCellWord (s : State) (idx : Nat) (w : ObjWord) : ObjRes :=
  .guard (fld w 63 36 != 0 || fld w 17 0 < fld w 35 18 || !(s.setObj 0x72 idx w).minsFit) stBadParam (.ok (s.setObj 0x72 idx w))

/-- A host ring's object (R316): HALTED is a status bit that a write clears. -/
def State.writeRing (s : State) (cls r : Nat) (w : ObjWord) : ObjRes :=
  let w := setFld w 57 57 0
  let old := setFld (s.obj cls r) 57 57 0
  .guard (fld w 69 64 != 0 || fld w 56 0 != 0 || fld w 62 58 < 6 || 16 < fld w 62 58) stBadParam (
    .guard (fld old 63 63 == 1 && setFld old 63 63 0 != w) stBusy (.ok (s.setObj cls r w)))

/-- REFRESH and MARK of a DRAM channel (R324). -/
def State.writeDramChannel (s : State) (c : Nat) (w : ObjWord) : ObjRes :=
  let k := fld w 51 47
  .guard (fld w 25 0 != 0 || !(k == 0x1F || k < (if (s.chan c).width = 1 then 10 else 20))) stBadParam (
    .ok (s.setObj 0x90 c (setFld 0 53 46 (fld w 53 46))))

/-- A reaction entry (R373). -/
def State.writeReaction (s : State) (idx : Nat) (w : ObjWord) : ObjRes :=
  let b := entryBase w
  let c := entryCeiling w
  let wide := idx / 16 / 64 = 63
  .guard (fld w 5 0 != 0 || b < 1 || 4 < b || c < b || 4 < c || (wide && (b == 3 || c == 3))) stBadParam (
    .ok ((s.modFaults (fun f => { f with badEntry := f.badEntry.filter (· != idx) })).setObj 0xB0 idx w))

/-! ### Device parameters (R405) -/

/-- The range a parameter's chapter gives. -/
def State.paramRange (s : State) (p v : Nat) : Bool :=
  let within := fun (lo hi : Nat) => decide (lo ≤ v ∧ v ≤ hi)
  match p with
  | 0x00 => within 0 1024 | 0x01 => within 1000 1000000 | 0x02 => within 1000 1000000 | 0x03 => within 2 6
  | 0x04 => within 100 10000 | 0x05 => within 50 10000000 | 0x06 => within 65536 262144 | 0x07 => within 0 4096
  | 0x08 => within 0 3600 | 0x0B => within 0 39 | 0x0C => within 0 s.dram.segs
  | 0x0D | 0x0E | 0x0F | 0x10 => within 100 1000000
  | 0x11 => within 1 12 | 0x12 => within 1 168 | 0x13 => within 1 65535 | 0x14 => within 10 10000000
  | 0x15 => within 100 10000 | 0x17 => within 0 1024 | 0x18 => within 0 65535 | 0x19 => within 0 262143
  | _ => true

/-- The state refuses a write of a parameter: POOL0_CELLS after the first commit (R281), the spill region while a queue holds
spilled packets (R312), RESERVE_SEG (R326), and the Sillage extension while it is on (R385). -/
def State.paramRefused (s : State) (p v : Nat) : Bool :=
  match p with
  | 0x06 => s.accord.live
  | 0x09 | 0x0A => s.qm.queue.any (fun e => !e.2.spilled.isEmpty)
  | 0x0C => s.dram.decant.isSome || (s.param 0x0C < v && s.usedAbove ((s.dram.segs - v) * 2 ^ 26))
  | 0x16 | 0x17 => s.extOn
  | _ => false

/-- Spill pages that a region of `m` MiB holds beside their free ring (DEDUCED, log 31). -/
def spillPages (m : Nat) : Nat := m * 2 ^ 20 / (16384 + 8)

def State.setParam (s : State) (p v : Nat) : State := s.setObj 0xC0 p (BitVec.ofNat 384 v)

/-- What a parameter's write changes beside the parameter. -/
def State.paramEffect (s : State) (p v : Nat) : State :=
  match p with
  | 0x06 => s.modPool 0 (fun q =>
      let t : Pool := { q with
        ring := { q.ring with next := min q.ring.next v, limit := v, freed := q.ring.freed.filter (· < v) }
        lost := q.lost.filter (· < v), badRing := [] }
      { t with lowWater := min q.lowWater t.free })
  | 0x09 | 0x0A =>
    { s with qm := { s.qm with
        pages := { limit := spillPages (s.param 0x0A) }, pageUse := []
        queue := s.qm.queue.filterMap (fun (e : Nat × Queue) =>
          let k : Queue := { e.2 with page := none }
          if k = ({} : Queue) then none else some (e.1, k)) } }
  | 0x17 => s.modFaults (fun f => { f with extNext := f.nextSeq, lossRun := false })
  | _ => s

def State.writeParam (s : State) (p v : Nat) : ObjRes :=
  if p = 0x1A then .ok s
  else
    .guard (!s.paramRange p v || ((p == 6 || p == 7) && !(s.setParam p v).minsFit)) stBadParam (
      .guard (s.paramRefused p v) stBadState (.ok ((s.setParam p v).paramEffect p v)))

/-! ### Islands (R472 to R474) -/

/-- The least supply for a cluster clock, in mV (R471). -/
def leastVolt (f : Nat) : Nat := if f ≤ 1000 then 700 else if f ≤ 1200 then 720 else if f ≤ 1350 then 735 else 750

/-- FREQ and VOLT lie in the ranges of R471 and suit each other. -/
def clockOk (f v : Nat) : Bool :=
  800 ≤ f && f ≤ 1500 && f % 50 == 0 && 700 ≤ v && v ≤ 750 && v % 5 == 0 && leastVolt f ≤ v

/-- Begin a change that the governor spaces: at once where it does not run (R479; DEDUCED, log 50). -/
def State.startChange (s : State) (c : PowerChange) : State :=
  match c with
  | .island i => s.modIsl i (fun x => if x.st = .run ∧ x.target.isSome then { x with st := .relocking, locked := false } else x)
  | _ => s

def State.governed (s : State) (c : PowerChange) : State :=
  if s.power.governor then { s with power := { s.power with waiting := s.power.waiting ++ [c] } } else s.startChange c

/-- LIMIT and GOVERNOR of an island object. -/
def State.setLimit (s : State) (i : Nat) (w : ObjWord) : State :=
  let s := s.modIsl i (fun x => { x with limit := BitVec.ofNat 8 (fld w 111 104) })
  if i = 51 then { s with power := { s.power with governor := fld w 103 103 == 1 } } else s

def State.writeIsland (s : State) (i : Nat) (w : ObjWord) : ObjRes :=
  let x := s.isl i
  let f := fld w 95 84
  let v := fld w 83 74
  let lim := fld w 111 104
  .guard (fld w 96 96 != 0 || (i != 51 && fld w 103 103 != 0) || lim < 60 || 110 < lim) stBadParam (
    if f = x.freq.toNat ∧ v = x.volt.toNat then .ok (s.setLimit i w)
    else .guard (26 ≤ i || !clockOk f v) stBadParam (
      .guard s.inExtrait stBusy (
        .guard (!([0, 3, 5].contains (s.cl i).svc.st.toNat)) stBadState (
          .guard (s.inReset i) stHwFault (
            .wait (.island i) ((((s.setLimit i w).modIsl i (fun x => { x with
              target := some (BitVec.ofNat 12 f, BitVec.ofNat 10 v) }))).governed (.island i)))))))

/-! ### OBJ_WRITE -/

/-- A reserved field that is not zero, or a reserved encoding, in the value of a live object (R10). -/
def objReserved (cls idx : Nat) (w : ObjWord) : Bool :=
  match cls with
  | 0x10 => fld w 31 28 != 0 || fld w 15 14 != 0 || 8 < fld w 27 24 || fld w 23 22 == 3 || fld w 21 20 == 3 || fld w 19 18 == 3
  | 0x11 => fld w 29 24 != 0 || fld w 16 16 != 0
  | 0x12 => fld w 4 0 != 0
  | 0x13 => fld w 63 36 != 0
  | 0x14 => fld w 61 60 == 3 || fld w 23 0 != 0 || (idx % 64 != 0 && (fld w 62 62 != 0 || fld w 57 56 != 0))
  | 0x15 => fld w 23 0 != 0 || (!saXpn w && 31 < fld w 29 24)
  | 0x16 => fld w 127 64 != 0 || fld w 39 32 != 0
  | 0x18 => fld w 43 32 != 0
  | 0x40 => fld w 15 8 != 0 || fld w 1 0 != 0 || 23 < fld w 6 2
  | 0x41 => fld w 31 16 != 0 || fld w 14 12 != 0 || fld w 11 7 < 10 || 30 < fld w 11 7
  | 0x42 => fld w 31 2 != 0 || 1 < fld w 1 0
  | 0x60 => fld w 71 64 != 0 || 4 < fld w 127 125
  | 0x70 => fld w 35 19 != 0 || fld w 61 57 < 6 || 21 < fld w 61 57
  | 0x72 => fld w 63 36 != 0
  | 0x86 | 0x87 => fld w 69 64 != 0 || fld w 56 0 != 0 || fld w 62 58 < 6 || 16 < fld w 62 58
  | 0x90 => fld w 25 0 != 0
  | 0xB0 => fld w 5 0 != 0 || entryBase w < 1 || 4 < entryBase w || entryCeiling w < 1 || 4 < entryCeiling w
  | 0xB5 => fld w 31 2 != 0
  | 0xD0 => fld w 96 96 != 0 || (idx != 51 && fld w 103 103 != 0)
  | _ => false

/-- Write one live object. -/
def State.writeObj (s : State) (cls idx : Nat) (w : ObjWord) : ObjRes :=
  match cls with
  | 0x10 => s.writePort idx w
  | 0x11 =>
    .guard (fld w 29 24 != 0 || fld w 16 16 != 0) stBadParam (
      .ok (s.modPort idx (fun q => { q with events := q.events &&& ~~~(BitVec.ofNat 7 (fld w 23 17)) })))
  | 0x12 => .guard (fld w 4 0 != 0) stBadParam (.ok (s.setObj cls idx w))
  | 0x13 => .guard (fld w 63 36 != 0 || fld w 35 18 ≤ fld w 17 0) stBadParam (.ok ((s.setObj cls idx w).flowCheck (idx / 8) (idx % 8)))
  | 0x14 => s.writeChannel idx w
  | 0x15 => s.writeAssociation idx w
  | 0x16 => .guard (fld w 127 64 != 0 || fld w 39 32 != 0 || 64 < tapSum w) stBadParam (.ok (s.setObj cls idx w))
  | 0x18 => s.writePins w
  | 0x40 =>
    .guard (fld w 15 8 != 0 || fld w 1 0 != 0 || 23 < fld w 6 2) stBadParam (
      .guard (s.channelBusy (idx / 32) (idx % 32)) stBusy (.ok (s.setObj cls idx w)))
  | 0x41 => .guard (fld w 31 16 != 0 || fld w 14 12 != 0 || fld w 11 7 < 10 || 30 < fld w 11 7) stBadParam (.ok (s.setObj cls idx w))
  | 0x42 =>
    .guard (fld w 31 2 != 0 || 1 < fld w 1 0) stBadParam (
      .ok ((s.setObj cls idx w).modCl idx (fun k => { k with svc := { k.svc with decodeWr := k.svc.decodeWr || s.accord.live } })))
  | 0x60 => s.writeTask idx w
  | 0x70 => s.writePool idx w
  | 0x72 => s.writeCellWord idx w
  | 0x86 | 0x87 => s.writeRing cls idx w
  | 0x90 => s.writeDramChannel idx w
  | 0xB0 => s.writeReaction idx w
  | 0xB5 => .guard (fld w 31 2 != 0) stBadParam (.ok (s.writeHold (fld w 0 0 == 1)))
  | 0xC0 => s.writeParam idx w.toNat
  | 0xD0 => s.writeIsland idx w
  | _ => .fail stBadState

/-- Write objects from `idx` in ascending order, up to the first failure or the first that waits for an event. -/
def State.writeAll (cls : Nat) (put : State → Nat → ObjWord → ObjRes) (many : Bool) : List ObjWord → Nat → Nat → State → Ran
  | [], _, _, s => .done stDone [] s
  | w :: rest, idx, done, s =>
    match s.objRefused cls idx true with
    | some st => .done st (partialResults many done) s
    | none =>
      match put s idx w with
      | .ok t => State.writeAll cls put many rest (idx + 1) (done + 1) t
      | .fail st => .done st (partialResults many done) s
      | .wait k t => .objects k cls (idx + 1) rest (done + 1) t

/-- The values of a write: COUNT of them, each with zero padding. -/
def objValues (k : ObjClass) (p : List Byte) (n : Nat) : List Nat := (List.range n).map (fun i => beVal (slice p (12 + i * k.size) k.size))

/-- The checks that come before the first object is written (DEDUCED, log 17). -/
def objCheck (c : Cmd) (kind : ObjKind) : Sum Nat ObjClass :=
  let cls := c.n 0 2
  let n := c.n 8 2
  match objClass cls with
  | none => .inl stBadParam
  | some k =>
    if n = 0 ∨ c.p.length ≠ 12 + n * k.size ∨ (objValues k c.p n).any (fun v => 2 ^ k.width ≤ v) ∨ !objIndexOk cls (c.n 4 4) then .inl stBadParam
    else if k.kind ≠ kind then .inl stBadState
    else .inr k

def State.objWrite (s : State) (c : Cmd) : Ran :=
  let cls := c.n 0 2
  let idx := c.n 4 4
  let n := c.n 8 2
  match objCheck c .live with
  | .inl st => .done st (partialResults (n != 1 && objIndexOk cls idx == false) 0) s
  | .inr k =>
    if (List.zip (span idx (idx + n)) (objValues k c.p n)).any (fun e => objIndexOk cls e.1 && objReserved cls e.1 (BitVec.ofNat 384 e.2)) then
      .done stBadParam (partialResults (n != 1) 0) s
    else if (span idx (idx + n)).any (fun i => objIndexOk cls i && s.objWaits cls i true) then .wait
    else State.writeAll cls (fun s i w => s.writeObj cls i w) (n != 1) ((objValues k c.p n).map (BitVec.ofNat 384)) idx 0 s

/-- OBJ_WRITE. -/
def execObjWrite (pkt : Packet) (s : State) : Host.Outcome State Fault Refusal :=
  answer (s.packet pkt 0x0101 none objHead (fun c s => s.objWrite c))

/-- The rest of a several-index write goes on after the object that had to wait. -/
def State.resumeWrite (s : State) : State :=
  match s.ycp.deferred with
  | none => s
  | some d =>
    match State.writeAll d.cls (fun s i w => s.writeObj d.cls i w) (1 < d.done + d.rest.length) d.rest d.next d.done s with
    | .done st res t => t.undefer st res
    | .objects w cls next rest n t =>
      { t with ycp := { t.ycp with deferred := some { d with wait := w, cls := cls, next := next, rest := rest, done := n } } }
    | _ => s

/-- POOL_ENABLE_DONE (R284): the ring holds every buffer, and the pool allocates. -/
def State.poolEnabled (s : State) (p : Nat) : State :=
  match s.ycp.deferred with
  | some d =>
    if d.wait = Wait.pool p ∧ (s.pool p).inUse = 0 then (s.setObj 0x70 p (setFld (s.obj 0x70 p) 63 63 1)).resumeWrite else s
  | none => s

def execPoolEnableDone (pool : Nat) (s : State) : Host.Outcome State Fault Refusal :=
  answer (if s.up 41 && pool < 16 then s.poolEnabled pool else s)

/-- ISLAND_RELOCK_DONE (R474): the FLL has relocked at FREQ, the clock restarts, and the write goes on. -/
def State.relockDone (s : State) (i : Nat) : State :=
  match (s.isl i).target with
  | some (f, v) =>
    if (s.isl i).st = .relocking then
      let s := s.modIsl i (fun x => { x with st := .run, locked := true, freq := f, volt := v, vmeas := v, target := none })
      match s.ycp.deferred with
      | some d => if d.wait = Wait.island i then s.resumeWrite else s
      | none => s
    else s
  | none => s

def execIslandRelockDone (island : Nat) (s : State) : Host.Outcome State Fault Refusal :=
  answer (if island < 53 then s.relockDone island else s)

/-- GOVERNOR_GRANT (R479): the oldest waiting change begins. -/
def State.governorGrant (s : State) : State :=
  match s.power.waiting with
  | [] => s
  | c :: rest => State.startChange { s with power := { s.power with waiting := rest } } c

def execGovernorGrant (s : State) : Host.Outcome State Fault Refusal := answer s.governorGrant

/-! ### OBJ_STAGE -/

/-- A parse state entry obeys R57 and R58. -/
def parseStateOk (w : ObjWord) : Bool :=
  fld w 60 0 == 0 && fld w 119 118 != 3 && fld w 106 102 ≤ 16 && fld w 93 92 != 3 && fld w 63 61 ≤ 4
    && fld w 117 107 + fld w 106 102 ≤ 2048 && fld w 72 64 + fld w 63 61 ≤ 512 && !(fld w 75 75 == 1 && fld w 74 74 == 1)

/-- An extraction entry obeys R57 and R58. -/
def extractionOk (w : ObjWord) : Bool :=
  fld w 14 0 == 0 && fld w 23 19 + fld w 18 16 + 1 ≤ 32 && (fld w 15 15 == 0 || fld w 18 16 == 0)

/-- A rate field with its depth field (R300). -/
def shaperOk (rate depth : Nat) : Bool := rate / 2048 < 23 && (rate % 2048 == 0 || depth % 256 != 0)

/-- A node of level 3, 2 or 1 by class (R299, R300). -/
def nodeOk (cls : Nat) (w : ObjWord) : Bool :=
  fld w 46 0 == 0 && fld w 110 103 != 0 && shaperOk (fld w 102 87) (fld w 70 59) && shaperOk (fld w 86 71) (fld w 58 47)
    && fld w 127 114 < (if cls = 0x81 then 16384 else if cls = 0x82 then 2048 else 44)

/-- An admission profile (R304). -/
def profileOk (w : ObjWord) : Bool :=
  fld w 11 0 == 0 && fld w 41 40 ≤ 1 && fld w 127 108 != 0
    && (fld w 71 64 == 0 || (fld w 107 90 < fld w 89 72 && fld w 89 72 ≤ fld w 127 108))
    && (fld w 31 31 == 0 || (fld w 30 15 != 0 && fld w 30 15 < fld w 127 108))

/-- Rows that a descriptor needs in each of its banks (R240). -/
def rowsNeeded (w : ObjWord) : Nat :=
  if dKind w = 2 then max (dRpb w) (dRpb w * 2 ^ dLog w / (dBanks w / 2)) else 0

/-- Rows that a table holds in each bank, both copies of a versioned one together. -/
def rowsHeld (w : ObjWord) : Nat := if dVersioned w then 2 * dRows w else dRows w

/-- The rows of two tables meet in some bank. EXT tables use none. -/
def rowsMeet (a b : ObjWord) : Bool :=
  dKind a != 0 && dKind b != 0 && dKind a != 6 && dKind b != 6
    && dFirst a < dFirst b + dBanks b && dFirst b < dFirst a + dBanks a
    && dBase a < dBase b + rowsHeld b && dBase b < dBase a + rowsHeld a

def keyLenOk (w : ObjWord) : Bool :=
  let k := dKeyLen w
  match dKind w with
  | 1 => k == 0 | 2 => 1 ≤ k && k ≤ 48 | 3 => k == 4 | 4 => k == 16 | 5 => 1 ≤ k && k ≤ 40 | 6 => 1 ≤ k && k ≤ 20 | _ => true

/-- A table descriptor obeys R233. -/
def State.descriptorOk (s : State) (num : Nat) (w : ObjWord) : Bool :=
  let k := dKind w
  let live := (if s.accord.live then [s.accord.current.toNat] else []) ++ (if s.accord.drainValid then [s.accord.draining.toNat] else [])
  k ≤ 6 && fld w 50 32 == 0 && dWriters w ≤ 1 && fld w 114 113 != 3 && fld w 107 105 ≤ 5
    && (!dVersioned w || k == 1)
    && dFirst w + dBanks w ≤ 32 && dBase w + dRows w ≤ 24576
    && (k == 0 || k == 6 || 1 ≤ dRows w)
    && keyLenOk w
    && !((k == 2 || k == 6) && dBanks w == 1)
    && !(k == 2 && 5 ≤ dKeyLen w && 64 < dKeyLen w + dResLen w)
    && (k != 6 || dResLen w == 8)
    && (k != 2 || (9 ≤ dLog w && dLog w ≤ 17)) && (k != 6 || (8 ≤ dLog w && dLog w ≤ 24))
    && rowsNeeded w ≤ dRows w
    && dBase w + rowsHeld w ≤ 24576
    && (dWriters w == 0 || !(3 ≤ k && k ≤ 5) && !dVersioned w)
    && (s.tablesOf s.accord.staged.toNat).all (fun e => e.1 == num || !rowsMeet w e.2)
    && live.all (fun t => s.tdesc t num == w || !rowsMeet w (s.tdesc t num))

/-- A reserved field that is not zero, or a reserved encoding, in the value of a staged object (R10). -/
def stageReserved (cls : Nat) (w : ObjWord) : Bool :=
  match cls with
  | 0x20 => fld w 60 0 != 0 || fld w 119 118 == 3 || 16 < fld w 106 102 || fld w 93 92 == 3 || 4 < fld w 63 61
  | 0x22 => fld w 14 0 != 0
  | 0x23 => fld w 95 82 != 0
  | 0x24 => 16 < fld w 47 43
  | 0x25 => fld w 63 37 != 0
  | 0x30 => fld w 15 8 != 0
  | 0x31 => fld w 63 62 == 3 || fld w 27 0 != 0
  | 0x33 => fld w 31 24 != 0
  | 0x50 => 6 < dKind w || fld w 50 32 != 0 || 1 < dWriters w || fld w 114 113 == 3 || 5 < fld w 107 105
  | 0x80 => fld w 22 0 != 0
  | 0x81 | 0x82 | 0x83 => fld w 46 0 != 0
  | 0x84 => fld w 27 0 != 0
  | 0x85 => fld w 11 0 != 0 || 1 < fld w 41 40
  | _ => false

/-- A staged object obeys its chapter. -/
def State.stageOk (s : State) (cls idx : Nat) (w : ObjWord) : Bool :=
  match cls with
  | 0x20 => parseStateOk w
  | 0x22 => extractionOk w
  | 0x23 => fld w 95 82 == 0
  | 0x24 => fld w 47 43 ≤ 16 && fld w 63 48 + 2 ^ fld w 47 43 - 1 ≤ 65535
  | 0x25 => fld w 63 37 == 0
  | 0x30 => fld w 15 8 == 0
  | 0x31 => fld w 63 62 != 3 && 1 ≤ fld w 41 28 && fld w 41 28 ≤ 8192 && fld w 27 0 == 0
  | 0x33 => fld w 31 24 == 0 && fld w 23 0 != 0
  | 0x50 => s.descriptorOk idx w
  | 0x80 => fld w 22 0 == 0 && fld w 44 37 != 0
  | 0x81 | 0x82 | 0x83 => nodeOk cls w
  | 0x84 => fld w 27 0 == 0 && shaperOk (fld w 63 48) (fld w 47 36)
  | 0x85 => profileOk w
  | _ => true

/-- The word of slice memory that a staged object fills: its slices and its number (R57, R62, R63). -/
def parseWord (cls idx : Nat) : Option (List Nat × Nat) :=
  match cls with
  | 0x20 => some ([0, 1, 2, 3], pgState idx)
  | 0x21 => some ([0, 1, 2, 3], pgTrans idx)
  | 0x22 => some ([0, 1, 2, 3], pgExt idx)
  | 0x23 => some ([idx / 256], pgRule (idx % 256))
  | 0x24 => some ([0, 1, 2, 3], pgProfile idx)
  | _ => none

/-- Put a staged object into the staged Accord's copy. A rewritten parse or class word is whole again; a descriptor that is
replaced takes the structure staged under it away. -/
def State.putStaged (s : State) (cls idx : Nat) (w : ObjWord) : State :=
  let a := s.accord.staged.toNat
  let s := match parseWord cls idx with
    | some (l, n) => l.foldl (fun (s : State) i => s.modSlc i (fun q => { q with badWords := q.badWords.filter (· != a % 2 * 4096 + n) })) s
    | none => s
  let old := s.tdesc a idx
  let kept := (s.accord.live && old == s.tdesc s.accord.current.toNat idx) || (s.accord.drainValid && old == s.tdesc s.accord.draining.toNat idx)
  let s := if cls = 0x50 ∧ old ≠ w ∧ ¬ kept then
      { s with tables := { s.tables with structs := s.tables.structs.filter (fun x => !(x.num == idx && x.desc == old)) } }
    else s
  s.modCopy a (fun c => { c with objs := Store.set (objReset cls idx) c.objs (objKey cls idx) w })

/-- Stage one object. A decode table entry is written as its bytes (DEDUCED, log 17). -/
def State.stageObj (s : State) (cls idx v : Nat) : ObjRes :=
  if cls = 0x44 then
    let a := s.accord.staged.toNat
    let dt := mwrite (s.copy a).dtab (136 * idx) (beBytes 136 v)
    .guard (!entryOk dt idx) stBadParam (.guard s.accord.drainValid stBusy (.ok (s.modCopy a (fun c => { c with dtab := dt }))))
  else
    let w := BitVec.ofNat 384 v
    .guard (!s.stageOk cls idx w) stBadParam (.ok (s.putStaged cls idx w))

/-- Stage objects from `idx` in ascending order, up to the first failure. -/
def State.stageAll (cls : Nat) (many : Bool) : List Nat → Nat → Nat → State → Ran
  | [], _, _, s => .done stDone [] s
  | v :: rest, idx, done, s =>
    match s.objRefused cls idx true with
    | some st => .done st (partialResults many done) s
    | none =>
      match s.stageObj cls idx v with
      | .ok t => State.stageAll cls many rest (idx + 1) (done + 1) t
      | .fail st => .done st (partialResults many done) s
      | .wait _ t => .done stBusy (partialResults many done) t

/-- A slice still uses the old copy of its parse and class memories: until the marker has reached it and its last frame has left (R67). -/
def State.oldCopyHeld (s : State) (i : Nat) : Bool :=
  (s.slc i).oldTag.isSome || (s.accord.live && (s.slc i).tag.isSome && (s.slc i).tag != some s.accord.current.toNat)

/-- OBJ_STAGE waits while a discard runs (R349), and one of a slice's objects while a slice still holds the copy (R67). -/
def State.stageWaits (s : State) (cls : Nat) : Bool :=
  s.accord.discarding || (0x20 ≤ cls && cls ≤ 0x25 && (List.range 4).any s.oldCopyHeld)

def State.objStage (s : State) (c : Cmd) : Ran :=
  let cls := c.n 0 2
  let idx := c.n 4 4
  let n := c.n 8 2
  match objCheck c .staged with
  | .inl st => .done st (partialResults (n != 1 && objIndexOk cls idx == false) 0) s
  | .inr k =>
    if (objValues k c.p n).any (fun v => stageReserved cls (BitVec.ofNat 384 v)) then .done stBadParam (partialResults (n != 1) 0) s
    else if s.stageWaits cls || s.objWaits cls idx true then .wait
    else State.stageAll cls (n != 1) (objValues k c.p n) idx 0 s

/-- OBJ_STAGE. -/
def execObjStage (pkt : Packet) (s : State) : Host.Outcome State Fault Refusal :=
  answer (s.packet pkt 0x0102 none objHead (fun c s => s.objStage c))

end Sys2Proof.Machine
end

