-- ==== Sys2Proof/Machine/Runtime.lean ====
section
/-! DEFINITION. Session, identity and time commands, and the commands on runtime handles: tasks, buffers, packets, locks,
packet numbers and tables (spec/18_command_reference.md R422, R423, R427). -/

namespace Sys2Proof.Machine

/-- A command that crosses to an island: HW_FAULT while it is in reset, and it waits while its clock is stopped (R19, R418). -/
def State.onIsland (s : State) (i : Nat) (r : Ran) : Ran :=
  if s.inReset i then .done stHwFault [] s else if !s.up i then .wait else r

/-! ### Class 0x00 (R422) -/

/-- SYS_IDENTITY. -/
def State.sysIdentity (s : State) : Ran :=
  .done stDone (beBytes 4 0x4208B101 ++ beBytes 4 (match s.sec.running with | some k => s.slotVersion k | none => 0)
    ++ beBytes 8 Config.deviceSerial ++ identityPublic) s

def execSysIdentity (pkt : Packet) (s : State) : Host.Outcome State Fault Refusal :=
  answer (s.packet pkt 0x0001 none (plen 0) (fun _ s => s.sysIdentity))

/-- WINDOW: bit i is set when serial HIGH − i is executed, the present command's own included. -/
def Issuer.window (x : Issuer) : Nat :=
  ((List.range 64).map (fun i => b2n (x.executed.any (fun n => n + i == x.high)) * 2 ^ i)).sum

/-- SYS_SESSION. -/
def State.sysSession (s : State) (c : Cmd) : Ran :=
  let x := s.issuer c.answerTo.issuer
  .done stDone (beBytes 8 x.high ++ beBytes 8 x.window ++ beBytes 4 x.ctl.toNat
    ++ beBytes 1 (s.ycp.asyncs.countP (fun a => a.answerTo.issuer == c.answerTo.issuer)) ++ [0, 0, 0] ++ beBytes 8 s.now) s

def execSysSession (pkt : Packet) (s : State) : Host.Outcome State Fault Refusal :=
  answer (s.packet pkt 0x0002 none (plen 0) (fun c s => s.sysSession c))

/-- Device time and the trim in force. -/
def State.timeResults (s : State) : List Byte := beBytes 8 s.now ++ beBytes 8 (BitVec.ofInt 64 s.time.trim).toNat

/-- Device time moves to another value: the clusters' copies follow it (R223), and every tick it passes over falls (R274). -/
def State.moveTime (s : State) (ns : BitVec 64) (frac : BitVec 32) : State :=
  let s := { s with
    time := { s.time with ns := ns, frac := frac }
    clusters := s.clusters.filterMap (fun (e : Nat × Cluster) =>
      let c : Cluster := { e.2 with lastNow := 0, lastFrac := 0 }
      if c = ({} : Cluster) then none else some (e.1, c)) }
  if s.up 42 then s.tick else s

def State.sysTimeRead (s : State) (c : Cmd) : Ran :=
  if c.n 4 8 = 0 then .done stDone s.timeResults s else .done stBadParam [] s

def execSysTimeRead (pkt : Packet) (s : State) : Host.Outcome State Fault Refusal :=
  answer (s.packet pkt 0x0003 (some (0, 0)) (plen 12 [(1, 3)]) (fun c s => s.sysTimeRead c))

def State.sysTimeSet (s : State) (c : Cmd) : Ran :=
  let t := s.moveTime (BitVec.ofNat 64 (c.n 4 8)) 0
  .done stDone t.timeResults t

def execSysTimeSet (pkt : Packet) (s : State) : Host.Outcome State Fault Refusal :=
  answer (s.packet pkt 0x0003 (some (0, 1)) (plen 12 [(1, 3)]) (fun c s => s.sysTimeSet c))

def State.sysTimeStep (s : State) (c : Cmd) : Ran :=
  let t := s.moveTime (s.time.ns + BitVec.ofNat 64 (c.n 4 8)) s.time.frac
  .done stDone t.timeResults t

def execSysTimeStep (pkt : Packet) (s : State) : Host.Outcome State Fault Refusal :=
  answer (s.packet pkt 0x0003 (some (0, 2)) (plen 12 [(1, 3)]) (fun c s => s.sysTimeStep c))

/-- A trim is signed, with a magnitude of at most 2²⁴ steps of 2⁻³². -/
def State.sysTimeTrim (s : State) (c : Cmd) : Ran :=
  let v := signed 64 (c.n 4 8)
  if 2 ^ 24 < v.natAbs then .done stBadParam [] s
  else
    let t := { s with time := { s.time with trim := v } }
    .done stDone t.timeResults t

def execSysTimeTrim (pkt : Packet) (s : State) : Host.Outcome State Fault Refusal :=
  answer (s.packet pkt 0x0003 (some (0, 3)) (plen 12 [(1, 3)]) (fun c s => s.sysTimeTrim c))

/-- SYS_RESET: the reply goes out, and 10 ms later the chip reset begins. -/
def State.sysReset (s : State) (c : Cmd) : Ran :=
  if c.n 0 1 ≠ 1 then .done stBadParam [] s else .ok { s with ycp := { s.ycp with resetDue := true } }

def execSysReset (pkt : Packet) (s : State) : Host.Outcome State Fault Refusal :=
  answer (s.packet pkt 0x0004 none (plen 4 [(1, 3)]) (fun c s => s.sysReset c))

/-! ### Tasks (R270 to R273) -/

/-- TASK_CREATE: the lowest-numbered FREE task takes the image and becomes IDLE. -/
def State.taskCreate (s : State) (w : ObjWord) : Ran :=
  if fld w 127 115 ≠ 0 ∨ fld w 87 64 ≠ 0 then .done stBadParam [] s
  else s.after 6 (s.onIsland 42 (match s.freeTask with
    | none => .done stNoSpace [] s
    | some n =>
      let g := (s.tsk n).gen
      let s := { s with tasks := { s.tasks with bad := s.tasks.bad.filter (· != n) } }
      let s := s.modTask n (fun _ =>
        { st := .idle, gen := g, domained := fld w 114 114 == 1, rearmFault := fld w 113 113 == 1
          prio := BitVec.ofNat 3 (fld w 112 110), role := BitVec.ofNat 6 (fld w 109 104), domain := BitVec.ofNat 16 (fld w 103 88)
          period := BitVec.ofNat 32 (fld w 63 32), arg := BitVec.ofNat 32 (fld w 31 0) })
      .done stDone (beBytes 4 (g.toNat * 2 ^ 24 + n)) s))

def execTaskCreate (pkt : Packet) (s : State) : Host.Outcome State Fault Refusal :=
  answer (s.packet pkt 0x0110 none (plen 16) (fun c s => s.taskCreate (BitVec.ofNat 384 (c.n 0 16))))

/-- A command on a task handle: a stale GEN answers `stale`, and `none` of the operation leaves the command waiting. -/
def State.onTask (s : State) (h stale : Nat) (f : State → Nat → Option (Nat × State)) : Ran :=
  if bits h 23 16 ≠ 0 then .done stBadParam [] s
  else s.after 6 (s.onIsland 42 (match s.taskOf h with
    | none => .done stale [] s
    | some n => match f s n with
      | some (st, t) => .done st [] t
      | none => .wait))

def execTaskArm (pkt : Packet) (s : State) : Host.Outcome State Fault Refusal :=
  answer (s.packet pkt 0x0111 none (plen 8) (fun c s => s.onTask (c.n 0 4) stBadState (fun s n => some (s.taskArm n (c.n 4 4)))))

def execTaskCancel (pkt : Packet) (s : State) : Host.Outcome State Fault Refusal :=
  answer (s.packet pkt 0x0112 none (plen 4) (fun c s => s.onTask (c.n 0 4) stBadState (fun s n => some (s.taskCancel n))))

def execTaskAbort (pkt : Packet) (s : State) : Host.Outcome State Fault Refusal :=
  answer (s.packet pkt 0x0113 none (plen 4) (fun c s =>
    s.onTask (c.n 0 4) stBadState (fun s n => if s.inReset 26 then some (stHwFault, s) else s.taskAbort n)))

def execTaskFree (pkt : Packet) (s : State) : Host.Outcome State Fault Refusal :=
  answer (s.packet pkt 0x0114 none (plen 4) (fun c s => s.onTask (c.n 0 4) stAlready (fun s n => some (s.taskFree n))))

/-! ### Buffers and packets (R288, R291, R295) -/

def State.bufAllocate (s : State) (n master : Nat) : Ran :=
  match s.allocBuffer n master with
  | .got h t => .done stDone (beBytes 4 h) t
  | .none t => .done stNoSpace [] t
  | .bad t => .done stHwFault [] t
  | .refused => .done stHwFault [] s
  | .wait => .wait

def execBufAlloc (pkt : Packet) (s : State) : Host.Outcome State Fault Refusal :=
  answer (s.packet pkt 0x0118 none (plen 4) (fun c s => s.after 7 (s.onIsland 41 (s.bufAllocate (c.n 0 4) c.master))))

/-- BUF_FREE; an uncorrectable state word is reported, and the operation fails (R295; DEDUCED, log 49). -/
def State.bufFree (s : State) (h master : Nat) : Ran :=
  let p := bufPool h
  let i := bufIndex h
  let b := s.buf p i
  if p = 0 then .done stBadParam [] s
  else if s.poolGone p i then .done stHwFault [] s
  else if !s.poolOpen p i then .wait
  else if b.bad then .done stHwFault [] (s.badWord p i master 1)
  else if b.gen.toNat ≠ bufGen h ∨ !b.alloc then .done stAlready [] s
  else .ok (s.freeBuffer p i)

def execBufFree (pkt : Packet) (s : State) : Host.Outcome State Fault Refusal :=
  answer (s.packet pkt 0x0119 none (plen 4) (fun c s => s.after 7 (s.onIsland 41 (s.bufFree (c.n 0 4) c.master))))

def State.pktFree (s : State) (h : W32) (master : Nat) : Ran :=
  let d := handleDesc h
  let k := s.desc d
  if bits h.toNat 23 19 ≠ 0 then .done stBadParam [] s
  else s.after 7 (s.onIsland 41 (
    if k.bad then .done stHwFault [] (s.raise (src 41 2) 0x90 { addr := d, master := master, access := 1 })
    else if k.gen.toNat ≠ bits h.toNat 31 24 ∨ k.st = .free then .done stAlready [] s
    else if k.st ≠ .consumed then .done stBadState [] s
    else .ok (s.freePacket d)))

def execPktFree (pkt : Packet) (s : State) : Host.Outcome State Fault Refusal :=
  answer (s.packet pkt 0x011A none (plen 4) (fun c s => s.pktFree (BitVec.ofNat 32 (c.n 0 4)) c.master))

/-! ### Locks (R264 to R266) -/

/-- A lock command's crossing to its slice: BAD_STATE while the slice's island is in reset. -/
def State.onLock (s : State) (w master : Nat) (f : State → Ran) : Ran :=
  let i := 37 + lockBank w / 8
  s.after 6 (if s.inReset i then .done stBadState [] s else if !s.up i then .wait else f (s.lockEcc w master))

def lockResult (k : LockStatus) : List Byte := beBytes 1 k.code ++ [0, 0, 0]

/-- A lease on a lock that a host master holds starts, or starts again. -/
def State.lease (s : State) (w master : Nat) : State :=
  { s with tables := { s.tables with
      leases := Store.set 0 s.tables.leases w (BitVec.ofNat 16 master)
      expired := s.tables.expired.filter (· != (w, BitVec.ofNat 16 master)) } }

/-- LOCK_TRY. Its owner renews the lease. -/
def State.lockTryHost (s : State) (w ms master : Nat) : Ran :=
  if ms = 0 ∨ 60000 < ms then .done stBadParam [] s
  else s.onLock w master (fun s =>
    let r := s.lockTry w master
    .done stDone (lockResult r.1) (if r.1 = .ok ∨ r.1 = .okAbandoned then r.2.lease w master else r.2))

def execLockTry (pkt : Packet) (s : State) : Host.Outcome State Fault Refusal :=
  answer (s.packet pkt 0x0120 none (plen 8 [(2, 2)]) (fun c s => s.lockTryHost (c.n 0 2) (c.n 4 4) c.master))

/-- LOCK_RELEASE. A master whose lease has expired finds its lock already released (R265; DEDUCED, log 39). -/
def State.lockReleaseHost (s : State) (w master : Nat) : Ran :=
  s.onLock w master (fun s =>
    let l := s.lock w
    let mine := decide (l.owner.toNat = master)
    let gone := s.tables.expired.contains (w, BitVec.ofNat 16 master)
    if l.broken = false ∧ l.held = true ∧ mine = true then
      let r := s.lockRelease w master
      .done stDone (lockResult .ok) { r.2 with tables := { r.2.tables with leases := Store.erase r.2.tables.leases w } }
    else if (l.broken = false ∧ l.held = false) ∨ gone = true then
      .done stAlready (lockResult .notHeld) { s with tables := { s.tables with
        expired := s.tables.expired.filter (· != (w, BitVec.ofNat 16 master)) } }
    else .done stNotPermitted (lockResult .foreign) (s.foreignRelease w master).2)

def execLockRelease (pkt : Packet) (s : State) : Host.Outcome State Fault Refusal :=
  answer (s.packet pkt 0x0121 none (plen 4 [(2, 2)]) (fun c s => s.lockReleaseHost (c.n 0 2) c.master))

/-- LOCK_CLEAR: a BROKEN lock is freed and passed to its oldest waiter with OK_ABANDONED (R266; DEDUCED, log 39). -/
def State.lockClear (s : State) (w master : Nat) : Ran :=
  s.onLock w master (fun s =>
    if (s.lock w).broken then .ok ((s.modLock w (fun l => { l with broken := false, abandoned := true })).passLock w)
    else .done stBadState [] s)

def execLockClear (pkt : Packet) (s : State) : Host.Outcome State Fault Refusal :=
  answer (s.packet pkt 0x0122 none (plen 4 [(2, 2)]) (fun c s => s.lockClear (c.n 0 2) c.master))

/-! ### Packet numbers (R42, R423) -/

/-- The port, NEXT_PN and SSCI that SA_STATE names and returns: a receive association gives the lowest number it accepts. -/
def State.saResults (s : State) (i : Nat) : List Byte :=
  let x := s.sa i
  beBytes 8 (if i / 4 % 64 = 0 then x.nextPn else x.lowPn) ++ beBytes 4 x.ssci.toNat

def State.onSa (s : State) (i : Nat) (r : Ran) : Ran :=
  if !objIndexOk 0x15 i then .done stBadParam [] s else s.after 8 (s.onIsland (portIsl (i / 256)) r)

def execSaStateRead (pkt : Packet) (s : State) : Host.Outcome State Fault Refusal :=
  answer (s.packet pkt 0x0128 (some (4, 0)) (plen 20 [(5, 3)]) (fun c s =>
    s.onSa (c.n 0 4) (.done stDone (s.saResults (c.n 0 4)) s)))

/-- SA_STATE, set: refused while the association is enabled. -/
def State.saSet (s : State) (i pn : Nat) (ssci : W32) : Ran :=
  s.onSa i (
    if pnMax (s.saObj i) < pn then .done stBadParam [] s
    else if fld (s.saObj i) 31 31 = 1 then .done stBusy [] s
    else
      let t := s.modSa i (fun _ => if i / 4 % 64 = 0 then { nextPn := pn, ssci := ssci } else { nextPn := pn, lowPn := pn, ssci := ssci })
      .done stDone (t.saResults i) t)

def execSaStateSet (pkt : Packet) (s : State) : Host.Outcome State Fault Refusal :=
  answer (s.packet pkt 0x0128 (some (4, 1)) (plen 20 [(5, 3)]) (fun c s => s.saSet (c.n 0 4) (c.n 8 8) (BitVec.ofNat 32 (c.n 16 4))))

/-! ### Tables (R236, R243 to R249, R426, R427) -/

/-- Some group that a table lies in has its clock stopped. -/
def State.tableStopped (s : State) (d : ObjWord) : Bool :=
  (List.range (dBanks d)).any (fun k => let i := 37 + (dFirst d + k) / 8; !s.up i && !s.inReset i)

/-- A record command: the head, the body, and the waits for the groups' wake and for a discard (R349, R520). -/
def State.onRecord (s : State) (c : Cmd) (staged : Bool) (tag : Nat) (f : Nat → List Byte → Ran) : Ran :=
  if c.p.length ≠ 4 + c.n 2 2 then .done stBadParam [] s
  else s.after 6 (
    if (staged && s.accord.discarding) || s.tableStopped (s.tdesc tag (c.n 0 1)) then .wait else f (c.n 0 1) (c.p.drop 4))

/-- The Accord that a record's LIVE bit names. -/
def State.writeTag (s : State) (live : Bool) : Nat := if live then s.accord.current.toNat else s.accord.staged.toNat

/-- TBL_INSERT. A staged write to a versioned DIRECT table answers once it has been applied (R238). -/
def State.tblInsert (s : State) (c : Cmd) : Ran :=
  let live := c.n 1 1 == 1
  if 1 < c.n 1 1 then .done stBadParam [] s
  else s.onRecord c (!live) (s.writeTag live) (fun num body =>
    match s.recordInsert num live body with
    | .done st res t => .done st res t
    | .wait t => .defer (.versioned num) t)

def execTblInsert (pkt : Packet) (s : State) : Host.Outcome State Fault Refusal :=
  answer (s.packet pkt 0x0300 none (fun p => 4 ≤ p.length) (fun c s => s.tblInsert c))

def State.tblDelete (s : State) (c : Cmd) : Ran :=
  let live := c.n 1 1 == 1
  if 1 < c.n 1 1 then .done stBadParam [] s
  else s.onRecord c (!live) (s.writeTag live) (fun num body => let r := s.recordDelete num live body; .done r.1 [] r.2)

def execTblDelete (pkt : Packet) (s : State) : Host.Outcome State Fault Refusal :=
  answer (s.packet pkt 0x0301 none (fun p => 4 ≤ p.length) (fun c s => s.tblDelete c))

def State.tblLookup (s : State) (c : Cmd) : Ran :=
  if 16 ≤ c.n 1 1 then .done stBadParam [] s
  else s.onRecord c false (c.n 1 1) (fun num body =>
    let r := s.recordLookup num (c.n 1 1) body c.master
    if c.fits r.2.1.length then .done r.1 r.2.1 r.2.2 else .done stBadParam [] s)

def execTblLookup (pkt : Packet) (s : State) : Host.Outcome State Fault Refusal :=
  answer (s.packet pkt 0x0302 none (fun p => 4 ≤ p.length) (fun c s => s.tblLookup c))

/-- A Maceration or a resize of the table runs (R359). -/
def State.tableBusy (s : State) (num : Nat) : Bool := s.tables.macerating.contains num || s.tables.resizing.contains num

/-- TBL_MACERATE (R247). -/
def State.tblMacerate (s : State) (num : Nat) : Ran :=
  let d := s.tdesc s.accord.staged.toNat num
  s.after 6 (
    if s.accord.discarding then .wait
    else if d = s.tdesc s.accord.current.toNat num then .done stBadState [] s
    else if s.tableBusy num then .done stBusy [] s
    else if (List.range (dBanks d)).any (fun k => s.inReset (37 + (dFirst d + k) / 8)) then .done stHwFault [] s
    else .start (.macerate num) { s with tables := { s.tables with macerating := s.tables.macerating ++ [num] } })

def execTblMacerate (pkt : Packet) (s : State) : Host.Outcome State Fault Refusal :=
  answer (s.packet pkt 0x0308 none (plen 4 [(1, 3)]) (fun c s => s.tblMacerate (c.n 0 1)))

/-- The tags of every live and staged Accord. -/
def State.keptTags (s : State) : List Nat :=
  (if s.accord.drainValid then [s.accord.draining.toNat] else []) ++ (if s.accord.live then [s.accord.current.toNat] else [])
    ++ [s.accord.staged.toNat]

/-- The descriptor with its buckets doubled. -/
def doubled (d : ObjWord) : ObjWord := setFld d 74 70 (dLog d + 1)

/-- The doubled region of an EXT table ends within DRAM and meets no enabled pool and no other table (R249; DEDUCED, log 29). -/
def State.extFits (s : State) (num : Nat) (d : ObjWord) : Bool :=
  let lo := dExt d * 2 ^ 20
  let hi := lo + 2 ^ (dLog d + 8)
  hi ≤ s.dramSize
    && (span 1 16).all (fun p => !(s.poolOn p && s.poolDram p)
        || hi ≤ regionBase (s.obj 0x70 p) || regionBase (s.obj 0x70 p) + regionSize (s.obj 0x70 p) ≤ lo)
    && s.keptTags.all (fun t => (s.tablesOf t).all (fun e => e.1 == num || dKind e.2 != 6
        || hi ≤ dExt e.2 * 2 ^ 20 || dExt e.2 * 2 ^ 20 + 2 ^ (dLog e.2 + 7) ≤ lo))

/-- A descriptor's space and range hold the doubled buckets. -/
def State.mayDouble (s : State) (num : Nat) (d : ObjWord) : Bool :=
  if dKind d = 2 then dLog d < 17 && rowsNeeded (doubled d) ≤ dRows d else dLog d < 24 && s.extFits num d

/-- TBL_RESIZE (R249): every live and staged descriptor of the table doubles, and the engine splits its buckets. -/
def State.tblResize (s : State) (num : Nat) : Ran :=
  let hashed := fun (d : ObjWord) => dKind d == 2 || dKind d == 6
  let named := s.tdesc (s.writeTag s.accord.live) num
  let ds := ((s.keptTags.map (fun t => s.tdesc t num)).filter hashed).eraseDups
  s.after 6 (
    if s.accord.discarding then .wait
    else if !hashed named then .done stBadParam [] s
    else if s.tableBusy num then .done stBusy [] s
    else if ds.any (fun d => !s.mayDouble num d) then .done stBadParam [] s
    else if ds.any (fun d => (List.range (dBanks d)).any (fun k => s.inReset (37 + (dFirst d + k) / 8))) then .done stHwFault [] s
    else
      let s := ds.foldl (fun (s : State) d => s.begin' { num := num, desc := d }) s
      let xs := ds.map (fun d => ({ s.struct num d with desc := doubled d, migr := some ⟨dLog d, 0⟩ } : TStruct))
      let old := s.tables.structs.filter (fun x => !(x.num == num && ds.contains x.desc))
      let reloc := s.tables.reloc.map (fun (e : Nat × ObjWord × List Byte) =>
        if e.1 = num ∧ ds.contains e.2.1 then (e.1, doubled e.2.1, e.2.2) else e)
      let copies := s.accord.copy.map (fun (e : Nat × Copy) =>
        let w := Store.get 0 e.2.objs (objKey 0x50 num)
        if s.keptTags.contains e.1 && hashed w then
          (e.1, ({ e.2 with objs := Store.set 0 e.2.objs (objKey 0x50 num) (doubled w) } : Copy))
        else e)
      .start (.resize num) { s with
        tables := { s.tables with structs := old ++ xs, reloc := reloc, resizing := s.tables.resizing ++ [num] }
        accord := { s.accord with copy := copies } })

def execTblResize (pkt : Packet) (s : State) : Host.Outcome State Fault Refusal :=
  answer (s.packet pkt 0x0309 none (plen 4 [(1, 3)]) (fun c s => s.tblResize (c.n 0 1)))

end Sys2Proof.Machine
end

