-- ==== Sys2Proof/Machine/Security.lean ====
section
/-! DEFINITION. Activation of firmware, owner keys, issuer slots, attestation, and the end of a Steward restart
(spec/19_security_update.md R437 to R451, spec/15_accord_live_service.md R364). -/

namespace Sys2Proof.Machine

/-! ### Activation and restart (R364, R445) -/

/-- IMAGE_ACTIVATE: the running firmware starts to load the slot. -/
def State.imageActivate (s : State) (k : Nat) : Ran :=
  if 2 ≤ k then .done stBadParam [] s
  else if s.accord.preparing then .wait
  else if s.sec.running = some k then .done stAlready [] s
  else if s.activating then .done stBusy [] s
  else if s.slotSt k ≠ .staged then .done stBadState [] s
  else .start (.imageActivate k) { s with sec := { s.sec with restart := .loading k } }

def execImageActivate (pkt : Packet) (s : State) : Host.Outcome State Fault Refusal :=
  answer (s.packet pkt 0x0701 none (plen 4 [(1, 3)]) (fun c s => s.imageActivate (c.n 0 1)))

/-- The completion's result: the running slot, 0xFF in recovery. -/
def State.slotResult (s : State) : List Byte := beBytes 1 (s.sec.running.getD 0xFF) ++ [0, 0, 0]

/-- IMAGE_LOAD_DONE: the loaded images are hashed; `corrupt` says that one was misread. A mismatch ends the command; otherwise the Steward restarts into them. -/
def State.imageLoaded (s : State) (corrupt : Bool) : State :=
  match s.sec.restart with
  | .loading k =>
    if corrupt || (s.sec.written.contains k && !manifestHashes (s.slotReader k)) then
      let s := { s with sec := { s.sec with restart := .none } }
      (s.setSlot k .invalid).complete (.imageActivate k) stHwFault s.slotResult
    else State.resetSteward { s with sec := { s.sec with restart := .starting k s.sec.running, running := some k, recovery := false } }
  | _ => s

def execImageLoadDone (corrupt : Bool) (s : State) : Host.Outcome State Fault Refusal :=
  answer (if s.serves && s.up 51 then s.imageLoaded corrupt else s)

/-- The firmware serves commands again: events and replies that were kept are delivered (R364, R374). -/
def State.serveAgain (s : State) : State :=
  let ev := s.ycp.kept
  let late := s.ycp.late
  let s := { s with
    sec := { s.sec with restart := .none }
    ycp := { s.ycp with up := true, events := s.ycp.events ++ ev, kept := [], late := [] } }
  let s := if ev.isEmpty then s else s.event 2
  State.flushAll (late.foldl (fun s e => s.sendReply e.1 e.2) s)

/-- The firmware reports its restart, with the code of its cause (R364): a consequence after a block reset (R379). -/
def State.reportRestart (s : State) (why : Nat) : State := s.raise (src 51 0) 0xAB { addr := Config.restartCause why, conseq := why == 2 }

/-- Operations of the firmware itself that a block reset of the Steward has ended (R419). -/
def State.cancelImages (s : State) : State :=
  [0, 1].foldl (fun s k => (s.complete (.imageStage k) stCancelled []).complete (.imageActivate k) stCancelled s.slotResult) s

/-- The slot that no longer runs is STAGED when its manifest verifies, and WRITTEN otherwise (R444). -/
def State.reviewOld (s : State) (k : Nat) : State :=
  if s.slotSt k = .running then
    let r := s.manifestStatus (s.slotCheck k) (s.slotRollback k) k
    r.2.setSlot k (if r.1 = stDone then .staged else .written)
  else s

/-- The ledger record that start-up takes: the valid one of the higher SEQ, `lost` where neither copy verifies and `older` where only the
copy with the lower SEQ does (R489). -/
def State.ledgerRecord (s : State) (lost older : Bool) : Option (Store Nat) :=
  if lost ∨ s.power.ledgerSeq = 0 then none else if older then s.power.ledgerOld else some s.power.ledger

/-- LIFE of every island at start-up (R489): from the ledger record, where one verifies, and no less than the milestone fuses
say. The ledger event names whether a record verified and whether a value was raised. -/
def State.ledgerLoad (s : State) (lost older : Bool) : State :=
  let record := s.ledgerRecord lost older
  let found := fun (i : Nat) => match record with | some m => Store.get 0 m i * 2 ^ 32 | none => 0
  let least := s.sec.milestones * 1000 * 2 ^ 48
  let t := (List.range 53).foldl (fun (s : State) i => s.modIsl i (fun x => { x with life := max (found i) least })) s
  t.stewardEvent (.ledger record.isSome ((List.range 53).any (fun i => decide (found i < least))))

/-- Start-up step 5: STEWARD_UP sets (R514). -/
def State.stepUp (s : State) (ledgerLost ledgerOlder : Bool) : State :=
  let s := State.ledgerLoad s.raiseCount.serveAgain ledgerLost ledgerOlder
  { s with startup := { s.startup with done := s.startup.done ++ [5] } }

/-- STEWARD_RESUME (R364, R445 step 4): the restarted firmware is up. After an activation the boot header names the new
slot, COUNT may rise, and the command completes. Firmware started out of recovery ends start-up's step 5 (DEDUCED, log 52). -/
def State.stewardResume (s : State) : State :=
  match s.sec.restart with
  | .starting k old =>
    let s := State.raiseCount { s with sec := { s.sec with active := k } }
    let s := (s.reviewOld (1 - k)).setSlot k .running
    let s := if old.isNone then s.stepUp false false else s.serveAgain
    ((s.reportRestart 0).complete (.imageActivate k) stDone s.slotResult).returned 51
  | .reset =>
    if s.sec.recovery then { s with sec := { s.sec with restart := .none } }
    else (((s.raiseCount.serveAgain).reportRestart 2).cancelImages).returned 51
  | _ => s

def execStewardResume (s : State) : Host.Outcome State Fault Refusal :=
  answer (if !s.ycp.up && s.up 51 then s.stewardResume else s)

/-- BOOT_FALLBACK (R445 step 4′): the ROM starts the previous memory, which reports and completes the command. A device that
ran in recovery returns to it. -/
def State.bootFallback (s : State) : State :=
  match s.sec.restart with
  | .starting k old =>
    let s := { s with sec := { s.sec with restart := .none, running := old, recovery := old.isNone } }
    let s := if old.isSome then s.serveAgain else s
    (((s.reportRestart 1).raise (src 51 1) 0xB9).complete (.imageActivate k) stHwFault s.slotResult).returned 51
  | _ => s

def execBootFallback (s : State) : Host.Outcome State Fault Refusal :=
  answer (if !s.ycp.up && s.up 51 then s.bootFallback else s)

/-! ### Digests and attestation (R447 to R450) -/

/-- Every object of a staged class of an Accord, in its object encoding. -/
def State.classBytes (s : State) (tag cls : Nat) : List Byte :=
  match objClass cls with
  | some c => (List.range c.count).flatMap (fun i => beBytes c.size (s.sobj tag cls i).toNat)
  | none => []

/-- The configuration digest of a live Accord. -/
def State.configDigest (s : State) (tag : Nat) : List Byte :=
  sha512 ([0x20, 0x21, 0x22, 0x23, 0x24, 0x25, 0x30, 0x31, 0x33, 0x50, 0x51, 0x80, 0x81, 0x82, 0x83, 0x84, 0x85].flatMap
    (fun c => s.classBytes tag c))

/-- Program bank, decode table and configuration digests of a live Accord. -/
def State.accordDigests (s : State) (tag : Nat) : List Byte :=
  sha512 (mread (s.copy tag).bank 0 262144) ++ sha512 (mread (s.copy tag).dtab 0 4352) ++ s.configDigest tag

/-- CONFIG_DIGEST_DONE (R449). -/
def execConfigDigestDone (s : State) : Host.Outcome State Fault Refusal :=
  answer (if s.serves && s.up 51 then { s with accord := { s.accord with digestDue := false } } else s)

def State.slotDigest (s : State) (k : Nat) : List Byte :=
  if s.slotSt k = .staged ∨ s.slotSt k = .running then s.slotSha k else List.replicate 64 0

/-- Life of an island in units of 1/65,536 life unit (R448, R487). -/
def State.lifeOf (s : State) (i : Nat) : Nat := (s.isl i).life / 2 ^ 32 % 2 ^ 64

/-- What the SECURITY digest covers. -/
def State.securityBytes (s : State) : List Byte :=
  s.ownerState ++ (List.range 16).flatMap (fun i => (s.issuer i).key ++ beBytes 4 (s.issuer i).ctl.toNat)
    ++ beBytes 1 (b2n s.sec.pcieSigned) ++ beBytes 8 s.sec.recordSeq

/-- Bytes 0 to 1,103 of a statement. -/
def State.statementBody (s : State) (nonce : List Byte) : List Byte :=
  let tagByte := fun (on : Bool) (t : BitVec 4) => beBytes 1 (if on then t.toNat else 0xFF)
  ([0x00, 0x01, 0x42, 0x08, 0xB1] : List Byte) ++ beBytes 1 s.sec.lifecycle.code ++ [0, 0] ++ beBytes 8 Config.deviceSerial
    ++ nonce ++ beBytes 8 s.now ++ beBytes 8 s.sec.statements
    ++ beBytes 1 (s.sec.running.getD 0xFF) ++ beBytes 2 s.sec.count ++ [0] ++ beBytes 4 (s.slotVersion 0) ++ beBytes 4 (s.slotVersion 1)
    ++ [0, 0, 0, 0] ++ s.slotDigest 0 ++ s.slotDigest 1
    ++ tagByte s.accord.live s.accord.current ++ tagByte s.accord.drainValid s.accord.draining ++ List.replicate 6 0
    ++ (if s.accord.live then s.accordDigests s.accord.current.toNat else List.replicate 192 0)
    ++ (if s.accord.drainValid then s.accordDigests s.accord.draining.toNat else List.replicate 192 0)
    ++ sha512 s.securityBytes
    ++ beBytes 8 ((List.range 53).map s.lifeOf |>.foldl max 0) ++ beBytes 2 s.sec.milestones ++ beBytes 2 53 ++ [0, 0, 0, 0]
    ++ (List.range 53).flatMap (fun i => beBytes 8 (s.lifeOf i))

/-- The statement with its signature: 1,168 bytes. -/
def State.makeStatement (s : State) (nonce : List Byte) : List Byte :=
  let b := s.statementBody nonce
  b ++ edSign identitySeed (ascii "YN-ATTST" ++ b)

/-- One part of a statement as ATTEST returns it. -/
def statementPart (l : List Byte) (part : Nat) : List Byte :=
  let x := (l.drop (1024 * part)).take 1024
  beBytes 1 2 ++ beBytes 1 part ++ beBytes 2 x.length ++ x

/-- ATTEST: part 0 makes a statement, once the configuration digest is complete; part 1 returns the rest of it (DEDUCED, log 52). -/
def State.attest (s : State) (c : Cmd) : Ran :=
  let nonce := slice c.p 0 32
  let part := c.n 32 1
  if 2 ≤ part then .done stBadParam [] s
  else if part = 0 then
    if s.accord.digestDue then .wait
    else
      let s := { s with sec := { s.sec with statements := s.sec.statements + 1 } }
      let l := s.makeStatement nonce
      .done stDone (statementPart l 0) (s.modIssuer c.answerTo.issuer (fun i => { i with statement := some (l, nonce) }))
  else match (s.issuer c.answerTo.issuer).statement with
    | some (l, n) => if n = nonce then .done stDone (statementPart l 1) s else .done stBadState [] s
    | none => .done stBadState [] s

def execAttest (pkt : Packet) (s : State) : Host.Outcome State Fault Refusal :=
  answer (s.packet pkt 0x0702 none (plen 36 [(33, 3)]) (fun c s => s.attest c))

/-! ### Owner signatures and the security record (R437 to R440) -/

/-- What an owner signature covers, the signature field of the parameters starting at `n`. -/
def ownerMessage (c : Cmd) (n : Nat) : List Byte :=
  ascii "YN-OWNER" ++ beBytes 8 Config.deviceSerial ++ beBytes 2 c.answerTo.issuer ++ beBytes 8 c.answerTo.serial ++ beBytes 2 c.answerTo.opcode ++ c.p.take n

/-- The signature at offset `n` verifies under a key. -/
def ownerSigned (c : Cmd) (key : List Byte) (n : Nat) : Bool := edVerify key (ownerMessage c n) (slice c.p n 64)

/-- A failed owner signature: AUTH_FAIL, and AUTH_REJECT is reported. -/
def State.ownerReject (s : State) (c : Cmd) : Ran := .done stAuthFail [] (s.raise (src 51 1) 0xB8 { master := c.master })

/-- Run `r` when the signature verifies under the current key of an owner slot. -/
def State.underOwner (s : State) (c : Cmd) (slot n : Nat) (r : Ran) : Ran :=
  match s.ownerKeyOf slot with
  | some k => if ownerSigned c k n then r else s.ownerReject c
  | none => s.ownerReject c

/-- The fuses of the next generation of an owner slot. -/
def State.blowOwner (s : State) (slot : Nat) (key : List Byte) : State :=
  { s with sec := { s.sec with ownerKey := Store.set none s.sec.ownerKey (slot * 4 + s.ownerCurrent slot) (some key) } }

/-- OWNER_KEY_SET. -/
def State.ownerKeySet (s : State) (c : Cmd) : Ran :=
  let owner := c.n 0 1
  let signer := c.n 1 1
  let key := slice c.p 4 32
  if s.sec.lifecycle = .factory then .done stNotPermitted [] s
  else if 4 ≤ owner ∨ 4 ≤ signer then .done stBadParam [] s
  else if s.sec.lifecycle = .unowned then
    if c.answerTo.origin ≠ .pcie then .done stNotPermitted [] s
    else if owner ≠ 0 ∨ signer ≠ 0 then .done stBadParam [] s
    else if ownerSigned c key 36 = false then s.ownerReject c
    else if zeroBytes key then .done stBadParam [] s
    else
      let s := s.blowOwner 0 key
      .ok { s with sec := { s.sec with
        lifecycle := .owned, claim := (match s.sec.running with | some k => (s.slotSha k).take 32 | none => []) } }
  else s.underOwner c signer 36 (
    let t := s.blowOwner owner key
    if s.ownerCurrent owner = 4 ∨ (zeroBytes key ∧ s.ownerCurrent owner = 0) ∨ (List.range 4).all (fun k => (t.ownerKeyOf k).isNone) then
      .done stBadParam [] s
    else .ok t)

def execOwnerKeySet (pkt : Packet) (s : State) : Host.Outcome State Fault Refusal :=
  answer (s.packet pkt 0x0709 none (plen 100 [(2, 2)]) (fun c s => s.ownerKeySet c))

/-- An enabled and keyed slot permits class 0x07 on PCIe (R439). -/
def State.keyedSlot (s : State) : Bool :=
  (List.range 16).any (fun i => let w := (s.issuer i).ctl; w.getLsbD 31 && w.getLsbD 30 && w.getLsbD 29 && w.getLsbD 7)

/-- What the security record in force holds. -/
def State.recordCopy (s : State) : RecordCopy :=
  { seq := s.sec.recordSeq, signed := s.sec.pcieSigned
    slots := (List.range 16).map (fun k => let i := s.issuer k; (i.ctl, i.key)) }

/-- The security record is written afresh into the copy that does not hold the higher SEQ, with SEQ raised by 1; `last` was in force and
stays in the other copy, unless that had been lost (R440). -/
def State.writeRecord (s last : State) : State :=
  { s with sec := { s.sec with
    recordSeq := s.sec.recordSeq + 1, securityLost := false
    recordOld := if last.sec.securityLost then none else some last.recordCopy } }

/-- A change of the security record stands unless it locks PCIe out. -/
def State.recordChange (s t : State) : Ran :=
  if (s.sec.pcieSigned || t.sec.pcieSigned) && !t.keyedSlot then .done stBadParam [] s else .ok (t.writeRecord s)

/-- ISSUER_SET. -/
def State.issuerSet (s : State) (c : Cmd) : Ran :=
  let slot := c.n 0 1
  let ctl := c.n 4 4
  let key := slice c.p 8 32
  if 16 ≤ slot ∨ 4 ≤ c.n 1 1 ∨ bits ctl 26 16 ≠ 0 then .done stBadParam [] s
  else s.underOwner c (c.n 1 1) 40 (
    if bitAt ctl 30 = zeroBytes key then .done stBadParam [] s
    else s.recordChange (s.modIssuer slot (fun i => { i with ctl := BitVec.ofNat 32 ctl, key := key })))

def execIssuerSet (pkt : Packet) (s : State) : Host.Outcome State Fault Refusal :=
  answer (s.packet pkt 0x0708 none (plen 104 [(2, 2)]) (fun c s => s.issuerSet c))

/-- SEC_CONFIG. -/
def State.secConfig (s : State) (c : Cmd) : Ran :=
  if 2 ≤ c.n 0 1 ∨ 4 ≤ c.n 1 1 then .done stBadParam [] s
  else s.underOwner c (c.n 1 1) 4 (s.recordChange { s with sec := { s.sec with pcieSigned := c.n 0 1 == 1 } })

def execSecConfig (pkt : Packet) (s : State) : Host.Outcome State Fault Refusal :=
  answer (s.packet pkt 0x070A none (plen 68 [(2, 2)]) (fun c s => s.secConfig c))

end Sys2Proof.Machine
end

