-- ==== Sys2Proof/Machine/Observe.lean ====
section
/-! DEFINITION. Counters, windows, thresholds and trace as a host reads them, the debugger's commands, and the JTAG port
(spec/20_observation_debug.md R452 to R470). -/

namespace Sys2Proof.Machine

/-! ### Units and events (R366, R455 to R457) -/

/-- The units of R366. -/
def unitOk (island unit : Nat) : Bool :=
  if island = 63 then unit == 0
  else if 53 ≤ island then false
  else unit == 0x3F ||
    (if island < 26 then unit < 0x14
     else if island < 31 ∨ island = 42 then unit == 0
     else if island < 36 then unit < 8 || unit == 0x10 || unit == 0x11
     else if island = 36 then unit < 3
     else if island < 41 then unit < 9 || (0x10 ≤ unit && unit ≤ 0x18)
     else if island = 41 ∨ island = 51 then unit < 3
     else if island < 51 then unit < 5
     else unit < 2)

/-- A queue counter unit. -/
def queueUnit (block : Nat) : Bool := 36 * 64 + 0x20 ≤ block && block ≤ 36 * 64 + 0x27

/-- The unit's own page-0 events. -/
def ownEvent (island unit ev : Nat) : Bool :=
  let within := fun (lo hi : Nat) => decide (lo ≤ ev ∧ ev ≤ hi)
  if island < 26 then
    if unit < 8 then within 0x10 0x16 || within 0x20 0x2A
    else if unit < 16 then within 0x10 0x12 || within 0x21 0x29
    else (unit == 0x11 || unit == 0x13) && within 0x10 0x11
  else if island = 26 then unit == 0 && (within 0x10 0x1A || within 0x20 0x24 || within 0x100 0x1FF)
  else if island < 31 then unit == 0 && (within 0x10 0x1B || within 0x100 0x1FF)
  else if island < 36 then
    if unit < 8 then within 0x10 0x1E || within 0x40 0x43
    else if unit = 0x10 then within 0x10 0x11 || within 0x1000 0x10FF
    else unit == 0x11 && within 0x10 0x11
  else if island = 36 then
    match unit with
    | 0 => within 0x10 0x19 | 1 => within 0x10 0x13 | 2 => within 0x100 0x1BF | _ => false
  else if island < 41 then
    if unit < 9 then within 0x10 0x16 else if unit = 0x18 then within 0x10 0x12 else 0x10 ≤ unit && unit < 0x18 && within 0x10 0x15
  else if island = 41 then unit == 0 && (within 0x10 0x11 || (within 0x100 0x1FF && (ev - 0x100) % 16 < 7))
  else if island = 42 then unit == 0 && within 0x10 0x15
  else if island < 51 then
    match unit with
    | 0 => within 0x10 0x21 | 3 => within 0x10 0x11 | _ => false
  else if island = 51 then unit == 0 && within 0x10 0x15
  else if island = 52 then
    match unit with
    | 0 => within 0x10 0x11 | 1 => within 0x10 0x11 || within 0x100 0x1FF | _ => false
  else false

/-- The unit has page-0 events of its own, and so the common ones and window counters. -/
def hasEvents (island unit : Nat) : Bool := unitOk island unit && [0x10, 0x20, 0x21, 0x100].any (ownEvent island unit)

def eventOk (island unit ev : Nat) : Bool := hasEvents island unit && (ev < 3 || ownEvent island unit ev)

/-! ### Counter words (R453, R454, R459, R461, R294) -/

def counterWord (wrapped : Bool) (n : Nat) : Nat := b2n wrapped * 2 ^ 63 + n % 2 ^ 48

/-- Cycles of an island's clock since the counters were cleared. -/
def State.cyclesOf (s : State) (island : Nat) : Nat := Store.get 0 s.obs.cycles island / 1000

def State.modObs (s : State) (f : Obs → Obs) : State := { s with obs := f s.obs }

/-- CYCLES, with WRAPPED since the unit's last read of it. -/
def State.cycleWord (s : State) (block : Nat) : Nat × State :=
  let n := s.cyclesOf (block / 64)
  (counterWord (n / 2 ^ 48 != Store.get 0 s.obs.cycRead block / 2 ^ 48) n,
   s.modObs (fun o => { o with cycRead := Store.set 0 o.cycRead block n }))

/-- An event counter; a read clears WRAPPED. -/
def State.eventWord (s : State) (key : Nat) : Nat × State :=
  let c := Store.get ({} : Counter) s.obs.counter key
  (counterWord c.wrapped c.count.toNat,
   s.modObs (fun o => { o with counter := Store.modify {} o.counter key (fun c => { c with wrapped := false }) }))

/-- Word `k` of a pool: LOW_WATER, ALLOC_FAIL and FALLBACK clear on the read. -/
def State.poolWord (s : State) (q k : Nat) : Nat × State :=
  let p := s.pool q
  match k with
  | 0 => (p.free, s)
  | 1 => (p.inUse, s)
  | 2 => (p.lowWater, s.modPool q (fun p => { p with lowWater := p.free }))
  | 5 => (p.lost.length, s)
  | 6 => (if q = 0 then 0 else p.leaked, s)
  | _ =>
    let key := counterKey (src 41 0) (0x100 + 16 * q + k)
    let c := Store.get ({} : Counter) s.obs.counter key
    (counterWord c.wrapped c.count.toNat, s.modObs (fun o => { o with counter := Store.set {} o.counter key {} }))

/-- Bandwidth words of a lane; the peaks clear on the read. -/
def State.bandwidthWord (s : State) (lane k : Nat) : Nat × State :=
  let b := Store.get ({} : Bandwidth) s.obs.bw lane
  match k with
  | 0 => (b.rx1ms, s)
  | 1 => (b.tx1ms, s)
  | 2 => (b.rxPeak, s.modObs (fun o => { o with bw := Store.modify {} o.bw lane (fun b => { b with rxPeak := 0 }) }))
  | _ => (b.txPeak, s.modObs (fun o => { o with bw := Store.modify {} o.bw lane (fun b => { b with txPeak := 0 }) }))

/-- Words of a threshold slot; PEAK clears on the read, and follows the occupancy again. -/
def State.thresholdWord (s : State) (n k : Nat) : Nat × State :=
  let t := Store.get ({} : Threshold) s.obs.thresh n
  let put := fun (f : Threshold → Threshold) => s.modObs (fun o => { o with thresh := Store.modify {} o.thresh n f })
  match k with
  | 0 => (counterWord t.crossings.wrapped t.crossings.count.toNat, put (fun t => { t with crossings := { t.crossings with wrapped := false } }))
  | 1 => (counterWord t.above.wrapped t.above.count.toNat, put (fun t => { t with above := { t.above with wrapped := false } }))
  | 2 => (t.peak, put (fun t => { t with peak := 0 }))
  | _ => (t.level.toNat * 2 ^ 32 + t.occupancy.toNat, s)

/-- The word of an event of a unit and page, with what the read clears. An undefined event reads zero (DEDUCED, log 54). -/
def State.obsWord (s : State) (block page ev : Nat) : Nat × State :=
  let i := block / 64
  let u := block % 64
  if queueUnit block then s.eventWord (counterKey block (page * 65536 + ev))
  else if !eventOk i u ev then (0, s)
  else if ev = 0 then s.cycleWord block
  else if i = 41 ∧ 0x100 ≤ ev then s.poolWord ((ev - 0x100) / 16) ((ev - 0x100) % 16)
  else if 31 ≤ i ∧ i < 36 ∧ u < 8 ∧ 0x40 ≤ ev then s.bandwidthWord ((i - 31) * 8 + u) (ev - 0x40)
  else if i = 52 ∧ u = 1 ∧ 0x100 ≤ ev then s.thresholdWord ((ev - 0x100) / 4) (ev % 4)
  else s.eventWord (counterKey block ev)

/-- BLOCK names a unit and a page that it has. -/
def blockOk (block page : Nat) : Bool := if queueUnit block then page < 4 else page == 0 && unitOk (block / 64) (block % 64)

/-- The words of `n` events from `ev`. -/
def State.obsWords (block page : Nat) : Nat → Nat → List Byte → State → List Byte × State
  | 0, _, acc, s => (acc, s)
  | n + 1, ev, acc, s =>
    let r := if ev < 65536 then s.obsWord block page ev else (0, s)
    State.obsWords block page n (ev + 1) (acc ++ beBytes 8 r.1) r.2

/-- The counters are read by I52's Observation Unit. -/
def State.onObserver (s : State) (r : Ran) : Ran := s.onIsland 52 r

/-- OBS_READ. -/
def State.obsRead (s : State) (b first n : Nat) : Ran :=
  if !blockOk (b % 4096) (b / 4096) then .done stBadParam [] s
  else s.onObserver (let r := State.obsWords (b % 4096) (b / 4096) n first [] s; .done stDone r.1 r.2)

def execObsRead (pkt : Packet) (s : State) : Host.Outcome State Fault Refusal :=
  answer (s.packet pkt 0x0500 none (plen 8 [(6, 2)]) (fun c s =>
    if c.fits (8 * c.n 4 2) then s.obsRead (c.n 0 2) (c.n 2 2) (c.n 4 2) else .done stBadParam [] s))

/-! ### Window counters (R458) -/

def winKey (block n : Nat) : Nat := block * 8 + n

/-- A window counter restarted under an event. -/
def State.freshWindow (s : State) (block ev : Nat) : WinCounter :=
  { event := ev, count := if ev = 0 then BitVec.ofNat 48 (s.cyclesOf (block / 64)) else 0 }

def State.setWindow (s : State) (block n : Nat) (w : WinCounter) : State :=
  s.modObs (fun o => { o with window := Store.set {} o.window (winKey block n) w })

/-- OBS_SELECT. -/
def State.obsSelect (s : State) (b n ev : Nat) : Ran :=
  let block := b % 4096
  if 4096 ≤ b ∨ 8 ≤ n ∨ !eventOk (block / 64) (block % 64) ev then .done stBadParam [] s
  else s.onObserver (.ok (s.setWindow block n (s.freshWindow block ev)))

def execObsSelect (pkt : Packet) (s : State) : Host.Outcome State Fault Refusal :=
  answer (s.packet pkt 0x0501 none (plen 8 [(3, 1), (6, 2)]) (fun c s => s.obsSelect (c.n 0 2) (c.n 2 1) (c.n 4 2)))

/-- The count of a window counter now. -/
def State.windowCount (s : State) (block n : Nat) : Nat :=
  let w := Store.get ({} : WinCounter) s.obs.window (winKey block n)
  if w.event = 0 then (BitVec.ofNat 48 (s.cyclesOf (block / 64)) - w.count).toNat else w.count.toNat

/-- OBS_WINDOW_READ: the eight counters are sampled together and restart at zero. -/
def State.obsWindowRead (s : State) (b : Nat) : Ran :=
  let block := b % 4096
  if 4096 ≤ b ∨ !hasEvents (block / 64) (block % 64) then .done stBadParam [] s
  else s.onObserver (.done stDone ((List.range 8).flatMap (fun n => beBytes 8 (s.windowCount block n)))
    ((List.range 8).foldl (fun s n =>
      s.setWindow block n (s.freshWindow block (Store.get ({} : WinCounter) s.obs.window (winKey block n)).event)) s))

def execObsWindowRead (pkt : Packet) (s : State) : Host.Outcome State Fault Refusal :=
  answer (s.packet pkt 0x0502 none (plen 4 [(2, 2)]) (fun c s => s.obsWindowRead (c.n 0 2)))

/-! ### Thresholds (R460, R461) -/

/-- Indices and the greatest value of each occupancy; a queue's depth is bounded only by LEVEL's own width. -/
def occupancyRange (kind : Nat) (idx : Nat) : Option (Nat × Nat) :=
  match kind with
  | 1 => some (262144, 2 ^ 26 - 1) | 2 => some (16, if idx = 0 then 262144 else 1048576) | 3 => some (32, 128) | 4 => some (65536, 8192)
  | 5 => some (26, 128) | 6 => some (1, 8192) | 7 => some (320, 262144) | _ => none

/-- OBS_THRESHOLD: LEVEL 0 frees the slot (DEDUCED, log 54). -/
def State.obsThreshold (s : State) (occ th : Nat) : Ran :=
  let slot := bits th 31 26
  let level := bits th 25 0
  match occupancyRange (bits occ 31 24) (bits occ 23 0) with
  | none => .done stBadParam [] s
  | some (n, top) =>
    if n ≤ bits occ 23 0 ∨ top < level then .done stBadParam [] s
    else
      let t : Threshold := if level = 0 then {} else
        { occupancy := BitVec.ofNat 32 occ, level := BitVec.ofNat 26 level, last := s.occupancy (bits occ 31 24) (bits occ 23 0) }
      s.onObserver (.ok (s.modObs (fun o => { o with thresh := Store.set {} o.thresh slot t })))

def execObsThreshold (pkt : Packet) (s : State) : Host.Outcome State Fault Refusal :=
  answer (s.packet pkt 0x0503 none (plen 8) (fun c s => s.obsThreshold (c.n 0 4) (c.n 4 4)))

/-! ### Trace and bandwidth windows (R459, R463) -/

/-- Records written by the run that ends. -/
def State.traceResult (s : State) : List Byte := beBytes 8 (match s.obs.trace with | some t => t.written | none => 0)

/-- OBS_TRACE_START. -/
def State.traceBegin (s : State) (filter base size : Nat) : Ran :=
  if bitAt filter 16 then .done stBadParam [] s
  else s.after 7 (
    if size = 0 ∨ s.dramSize < (base + size) * 2 ^ 20 then .done stBadParam [] s
    else s.onObserver (.done stDone s.traceResult
      (s.modObs (fun o => { o with trace := some { filter := BitVec.ofNat 32 filter, base := base, size := size } }))))

def execObsTraceStart (pkt : Packet) (s : State) : Host.Outcome State Fault Refusal :=
  answer (s.packet pkt 0x0504 (some (0, 1)) (plen 16 [(1, 3)]) (fun c s => s.traceBegin (c.n 4 4) (c.n 8 4) (c.n 12 4)))

def execObsTraceStop (pkt : Packet) (s : State) : Host.Outcome State Fault Refusal :=
  answer (s.packet pkt 0x0504 (some (0, 0)) (plen 16 [(1, 3)]) (fun c s =>
    if bitAt (c.n 4 4) 16 then .done stBadParam [] s
    else s.onObserver (.done stDone s.traceResult (s.modObs (fun o => { o with trace := none })))))

/-- BW_WINDOW_END: a whole millisecond of device time ends, and its byte counts stand. -/
def State.bwWindowEnd (s : State) : State :=
  s.modObs (fun o => { o with bw := o.bw.filterMap (fun (e : Nat × Bandwidth) =>
    let b : Bandwidth := { e.2 with rx1ms := e.2.rxNow, tx1ms := e.2.txNow, rxNow := 0, txNow := 0 }
    if b = ({} : Bandwidth) then none else some (e.1, b)) })

def execBwWindowEnd (s : State) : Host.Outcome State Fault Refusal := answer s.bwWindowEnd

/-! ### The debugger (R135 to R137, R432, R469, R470) -/

/-- An operation on a thread by its index: it crosses to the thread's cluster. -/
def State.onThread (s : State) (t : Nat) (r : Ran) : Ran :=
  if 26 * 128 ≤ t then .done stBadParam [] s else s.onIsland (t / 128) r

/-- DBG_HALT: at once in WFE, ORD or a blocked CHC, else at the next boundary (THREAD_HALT). -/
def State.dbgHalt (s : State) (t master : Nat) : Ran :=
  let x := s.th t
  let now := some (s.time.elapsed, master)
  s.onThread t (
    if !x.busy then .done stBadState [] s
    else if x.halt ≠ .none then .done stAlready [] s
    else match x.wait with
      | .wfe _ | .ord _ | .chc _ _ _ => .ok (s.modTh t (fun x => { x with halt := .debug, haltReq := false, haltAt := now }))
      | _ => .ok (s.modTh t (fun x => { x with haltReq := true, haltAt := now })))

/-- A DBG_HALT of another master fell in this instant: a resume is applied before it (R470, log 57). -/
def Thread.haltMeets (x : Thread) (now master : Nat) : Bool :=
  match x.haltAt with
  | some h => h.1 == now && h.2 != master && (x.halt == .debug || x.haltReq)
  | none => false

/-- What the thread held back while it was halted takes effect (R135). -/
def State.applyHeld (s : State) (t : Nat) : State :=
  let x := s.th t
  let s := s.modTh t (fun x => { x with granted := false, lockGranted := false })
  let s := if x.lockGranted then s.edge t 4 else s
  if x.granted then s.granted t else s

/-- DBG_RESUME: a thread halted by the debugger goes on, or a halt asked for is withdrawn; the bundle at a breakpoint issues. -/
def State.dbgResume (s : State) (t master : Nat) : Ran :=
  let x := s.th t
  s.onThread t (
    if x.haltMeets s.time.elapsed master then .ok s
    else if x.halt = .debug then .ok ((s.modTh t (fun x => { x with halt := .none, haltReq := false, bpPass := true })).applyHeld t)
    else if x.haltReq then .ok (s.modTh t (fun x => { x with haltReq := false }))
    else .done stAlready [] s)

/-- The results of DBG_STATE. -/
def State.threadWord (s : State) (t : Nat) : List Byte :=
  let x := s.th t
  beBytes 8 x.regs.acc.toNat ++ beBytes 4 x.regs.xa.toNat ++ beBytes 4 x.regs.xb.toNat ++ beBytes 2 x.pc.toNat ++ beBytes 1 x.regs.fl.toNat
    ++ beBytes 1 (b2n (x.halt != .none) + 2 * b2n x.inTrap + 4 * b2n x.busy) ++ beBytes 4 (recDetail x.gen x.record)

/-- The bundle at a thread's PC, and whether it ends with a stop bit. -/
def State.bundleAt (s : State) (t : Nat) : List RawSyl × Bool :=
  let x := s.th t
  let at' := fun (i : Nat) => sylOf (bankWord s x.accord ((x.pc.toNat + i) % 65536))
  match (List.range 4).find? (fun i => (at' i).2) with
  | some n => ((List.range (n + 1)).map (fun i => (at' i).1), true)
  | none => ((List.range 4).map (fun i => (at' i).1), false)

/-- The wait of a halted thread goes on under a step: its bundle issues where the wait is over (DEDUCED, log 8). -/
def State.stepWait (s : State) (t : Nat) : State :=
  let x := s.th t
  let s := s.applyHeld t
  match (s.th t).wait with
  | .wfe m => if wfeWord s t m ≠ 0 then s.wake t else s
  | .chc remote pos n =>
    if (s.cl (t / 128)).blockedOn remote pos n |>.head? |>.any (· == t % 128) then
      if (s.cl (t / 128)).roomFor remote pos n x.staging.length then (s.modCl (t / 128) (·.unblock (t % 128))).wake t else s
    else s
  | _ => s

/-- One bundle of a halted thread: none where it cannot issue yet. A branch under a step resolves at once. -/
def State.stepBundle (s : State) (t : Nat) : Option State :=
  if (s.th t).wait ≠ .none then some (s.stepWait t)
  else
    let b := s.bundleAt t
    (State.tryIssue (s.modTh t (fun x => { x with stepping := true, bpPass := true })) t b.1 b.2).map (fun s => s.branchResolve t)

/-- The thread is halted again after a step. -/
def State.haltAgain (s : State) (t : Nat) : State :=
  s.modTh t (fun x => if x.busy then { x with stepping := false, bpPass := false, halt := if x.halt = .none then .debug else x.halt } else x)

/-- DBG_STEP; it waits until the bundle can issue (R114). -/
def State.dbgStep (s : State) (t : Nat) : Ran :=
  s.onThread t (
    if (s.th t).halt ≠ .debug then .done stBadState [] s
    else match s.stepBundle t with
      | some u => let u := u.haltAgain t; .done stDone (u.threadWord t) u
      | none => .wait)

/-- DBG_STATE. -/
def State.dbgState (s : State) (t : Nat) : Ran := s.onThread t (.done stDone (s.threadWord t) s)

/-- DBG_CH_ABORT: staged words and a blocked CHC of a halted thread are discarded. The bundle that held the CHC issues after a
resume, with nothing staged. -/
def State.dbgChAbort (s : State) (t : Nat) : Ran :=
  let x := s.th t
  let blocked := match x.wait with | .chc _ _ _ => true | _ => false
  s.onThread t (
    if x.halt = .none then .done stBadState [] s
    else if x.staging.isEmpty && !blocked then .done stAlready [] s
    else
      let s := (s.leaveWait t).dropStaged t false
      .ok (if blocked then s.modTh t (fun x => { x with wait := .none, waitSyls := [] }) else s))

/-- DBG_ABORT: the thread stops at its next boundary (THREAD_ABORT). -/
def State.dbgAbort (s : State) (t : Nat) : Ran :=
  s.onThread t (if !(s.th t).busy then .done stAlready [] s else .ok (s.modTh t (fun x => { x with abortReq := true })))

/-- DBG_BREAK. -/
def State.dbgBreak (s : State) (p : List Byte) : Ran :=
  let c := beVal (slice p 0 1)
  let k := beVal (slice p 1 1)
  let tag := beVal (slice p 4 1)
  let on := beVal (slice p 5 1)
  if 26 ≤ c ∨ 4 ≤ k ∨ 16 ≤ tag ∨ 2 ≤ on then .done stBadParam [] s
  else s.onIsland c (.ok (s.modCl c (fun x => { x with brk := Store.set {} x.brk k (
    if on = 1 then { pc := BitVec.ofNat 16 (beVal (slice p 2 2)), tag := BitVec.ofNat 4 tag, enable := true } else {}) })))

/-- A debug operation by the low byte of its opcode, of class 0x08. -/
def State.dbgOp (s : State) (op master : Nat) (p : List Byte) : Ran :=
  let t := beVal (slice p 0 2)
  match op with
  | 0x00 => s.dbgHalt t master
  | 0x01 => s.dbgResume t master
  | 0x02 => s.dbgStep t
  | 0x03 => s.dbgState t
  | 0x04 => s.dbgChAbort t
  | 0x05 => s.dbgAbort t
  | 0x08 => s.dbgBreak p
  | _ => .done stBadOpcode [] s

def execDbgHalt (pkt : Packet) (s : State) : Host.Outcome State Fault Refusal :=
  answer (s.packet pkt 0x0800 none (plen 4 [(2, 2)]) (fun c s => s.after 9 (s.dbgOp 0x00 c.master c.p)))

def execDbgResume (pkt : Packet) (s : State) : Host.Outcome State Fault Refusal :=
  answer (s.packet pkt 0x0801 none (plen 4 [(2, 2)]) (fun c s => s.after 9 (s.dbgOp 0x01 c.master c.p)))

def execDbgStep (pkt : Packet) (s : State) : Host.Outcome State Fault Refusal :=
  answer (s.packet pkt 0x0802 none (plen 4 [(2, 2)]) (fun c s => s.after 9 (s.dbgOp 0x02 c.master c.p)))

def execDbgState (pkt : Packet) (s : State) : Host.Outcome State Fault Refusal :=
  answer (s.packet pkt 0x0803 none (plen 4 [(2, 2)]) (fun c s => s.after 9 (s.dbgOp 0x03 c.master c.p)))

def execDbgChAbort (pkt : Packet) (s : State) : Host.Outcome State Fault Refusal :=
  answer (s.packet pkt 0x0804 none (plen 4 [(2, 2)]) (fun c s => s.after 9 (s.dbgOp 0x04 c.master c.p)))

def execDbgAbort (pkt : Packet) (s : State) : Host.Outcome State Fault Refusal :=
  answer (s.packet pkt 0x0805 none (plen 4 [(2, 2)]) (fun c s => s.after 9 (s.dbgOp 0x05 c.master c.p)))

def execDbgBreak (pkt : Packet) (s : State) : Host.Outcome State Fault Refusal :=
  answer (s.packet pkt 0x0808 none (plen 8 [(6, 2)]) (fun c s => s.after 9 (s.dbgOp 0x08 c.master c.p)))

/-! ### The JTAG port (R466 to R468) -/

def State.jtag (s : State) (i : JtagInstr) : State := s.modObs (fun o => { o with jtag := i })

/-- How many parameter bytes a DEBUG operation has, and where its reserved bytes lie. -/
def debugForm (op : Nat) : Nat × List (Nat × Nat) :=
  match op with
  | 0x08 => (8, [(6, 2)])
  | 0x80 => (8, [(6, 2)])
  | _ => (4, [(2, 2)])

/-- The operation of a DEBUG register: a class 0x08 command or an OBS_READ of one counter, without the Steward. -/
def State.debugRun (s : State) (op : Nat) (p : List Byte) : Ran :=
  let n := beVal (slice p 4 2)
  let f := debugForm op
  if !([0, 1, 2, 3, 4, 5, 8, 0x80].contains op) then .done stBadOpcode [] s
  else if !plen f.1 f.2 (slice p 0 f.1) ∨ !zeroBytes (p.drop f.1) ∨ (op = 0x80 ∧ n ≠ 1) then .done stBadParam [] s
  else if op = 0x80 then s.obsRead (beVal (slice p 0 2)) (beVal (slice p 2 2)) 1
  else s.dbgOp op 0x6000 p

/-- The operation runs, and its status and first 30 result bytes stand for the next capture. One that must wait shows BUSY and goes on
(R467). -/
def State.debugTry (s : State) (op : Nat) (p : List Byte) : State :=
  match s.debugRun op p with
  | .done st res t => t.modObs (fun o => { o with dbgStatus := BitVec.ofNat 16 st, dbgResult := slice res 0 30, dbgWait := none })
  | _ => s.modObs (fun o => { o with dbgStatus := BitVec.ofNat 16 stBusy, dbgResult := [], dbgWait := some (op, p) })

/-- DEBUG: Update-DR runs the operation. On an OWNED device it acts as BYPASS (DESIGN CHOICE, log 35). -/
def State.debug (s : State) (op : Nat) (p : List Byte) : State :=
  if s.sec.lifecycle = .owned then s.jtag .bypass
  else if !s.up 52 ∨ 31 < p.length then s
  else (s.jtag .debugReg).debugTry op p

/-- A DEBUG operation that waits is tried again as time passes. -/
def State.debugWaits (s : State) : State :=
  match s.obs.dbgWait with
  | some w => if s.up 52 then s.debugTry w.1 w.2 else s
  | none => s

@[simp] theorem State.debugWaits_of_none (s : State) (h : s.obs.dbgWait = none) : s.debugWaits = s := by simp [State.debugWaits, h]

def execDebugOp (op : BitVec 8) (params : List Byte) (s : State) : Host.Outcome State Fault Refusal :=
  answer (s.debug op.toNat params)

/-- EXTEST, CLAMP and HIGHZ act only while RESET_N is asserted, and as BYPASS otherwise. -/
def State.boundaryDrive (s : State) (i : JtagInstr) (drive : List Bool) : State :=
  if s.pins.resetN then s.jtag .bypass
  else ((s.jtag i).modObs (fun o => { o with boundary := drive })).emit (.balls drive)

def execExtest (drive : List Bool) (s : State) : Host.Outcome State Fault Refusal := answer (s.boundaryDrive .extest drive)

def execClamp (drive : List Bool) (s : State) : Host.Outcome State Fault Refusal := answer (s.boundaryDrive .clamp drive)

def execHighz (s : State) : Host.Outcome State Fault Refusal :=
  answer (if s.pins.resetN then s.jtag .bypass else (s.jtag .highz).emit (.balls []))

/-- SAMPLE/PRELOAD: the boundary register takes the levels of the balls. -/
def execSamplePreload (balls : List Bool) (s : State) : Host.Outcome State Fault Refusal :=
  answer ((s.jtag .sample).modObs (fun o => { o with boundary := balls }))

def execBypass (s : State) : Host.Outcome State Fault Refusal := answer (s.jtag .bypass)

end Sys2Proof.Machine
end

