-- ==== Sys2Proof/Machine/Power.lean ====
section
/-! DEFINITION. Sensors, clock supervision, Extrait and the wear ledger (spec/21_clocks_power_life.md R471 to R489). -/

namespace Sys2Proof.Machine

/-! ### Extrait (R481 to R484) -/

/-- DEVICE_LIFE in whole life units (R487). -/
def State.deviceLife (s : State) : Nat := ((List.range 53).map (fun i => (s.isl i).life / 2 ^ 48)).foldl max 0

/-- What is left of the rated life is at or below a reserve. -/
def State.wornTo (s : State) (reserve : Nat) : Bool := 350640 ≤ s.deviceLife + reserve

/-- A sensor reading. -/
def Island.reading (x : Island) : Int := x.temp.toInt

def State.modExtrait (s : State) (f : Extrait → Extrait) : State := { s with power := { s.power with extrait := f s.power.extrait } }

/-- EXTRAIT_ENTER: the exit conditions are armed, and the ramps begin under the governor. -/
def State.extraitEnter (s : State) (window ceiling reserve : Nat) : Ran :=
  if window = 0 ∨ 300000 < window ∨ ceiling < 60 ∨ 110 < ceiling then .done stBadParam [] s
  else s.after 9 (
    if s.inExtrait then .done stBusy [] s
    else if (List.range 53).any (fun i => decide ((ceiling : Int) - 3 ≤ (s.isl i).reading) || !(s.isl i).sensorOk) ∨ s.wornTo reserve then
      .done stBadState [] s
    else .start .extrait ((s.modExtrait (fun _ => { phase := .entering, window := window, ceiling := ceiling, reserve := reserve })).governed
      .extraitEntry))

def execExtraitEnter (pkt : Packet) (s : State) : Host.Outcome State Fault Refusal :=
  answer (s.packet pkt 0x0618 none (plen 12 [(5, 3)]) (fun c s => s.extraitEnter (c.n 0 4) (c.n 4 1) (c.n 8 4)))

/-- EXTRAIT_ENTRY_DONE: the rail and the clusters in service have stepped up, and the window starts. -/
def State.extraitEntered (s : State) : State :=
  if s.power.extrait.phase = .entering ∧ ¬ s.power.waiting.contains .extraitEntry then
    let s := s.modExtrait (fun e => { e with phase := .on, start := s.time.elapsed })
    let s := { s with power := { s.power with railMv := 850 } }
    (List.range 26).foldl (fun s c => if (s.cl c).svc.st = 1 ∧ s.up c then s.extraitSettings c else s) s
  else s

def execExtraitEntryDone (s : State) : Host.Outcome State Fault Refusal := answer s.extraitEntered

/-- Exit begins with a cause; causes of one instant are recorded as the lowest (R484; DEDUCED, log 50). -/
def State.beginExit (s : State) (cause : Nat) : State :=
  match s.power.extrait.phase with
  | .off => s
  | .exiting c =>
    if s.power.extrait.stop = s.time.elapsed ∧ cause < c then s.modExtrait (fun e => { e with phase := .exiting cause }) else s
  | .entering =>
    let s := { s with power := { s.power with waiting := s.power.waiting.filter (· != PowerChange.extraitEntry) } }
    (s.modExtrait (fun e => { e with phase := .exiting cause, start := s.time.elapsed, stop := s.time.elapsed })).governed .extraitExit
  | .on => (s.modExtrait (fun e => { e with phase := .exiting cause, stop := s.time.elapsed })).governed .extraitExit

/-- EXTRAIT_EXIT. -/
def State.extraitExit (s : State) : Ran :=
  if s.power.extrait.phase = .entering ∨ s.power.extrait.phase = .on then .ok (s.beginExit 4) else .done stAlready [] s

def execExtraitExit (pkt : Packet) (s : State) : Host.Outcome State Fault Refusal :=
  answer (s.packet pkt 0x0619 none (plen 0) (fun _ s => s.extraitExit))

/-- EXTRAIT_WINDOW_EXPIRE. -/
def execExtraitWindowExpire (s : State) : Host.Outcome State Fault Refusal :=
  answer (if s.power.extrait.phase = .on then s.beginExit 1 else s)

/-- EXTRAIT_EXIT_DONE: clusters and rail have stepped down; the command completes with CAUSE and DURATION. -/
def State.extraitLeft (s : State) : State :=
  match s.power.extrait.phase with
  | .exiting cause =>
    if s.power.waiting.contains .extraitExit then s
    else
      let ms := (s.power.extrait.stop - s.power.extrait.start) / 1000000
      let s := (List.range 26).foldl (fun s c => s.ownSettings c) s
      let s := { s with power := { s.power with railMv := 750, extrait := {} } }
      (s.stewardEvent (.extrait cause ms)).complete .extrait stDone (beBytes 1 cause ++ [0, 0, 0] ++ beBytes 4 ms)
  | _ => s

def execExtraitExitDone (s : State) : Host.Outcome State Fault Refusal := answer s.extraitLeft

/-! ### Sensors and clocks (R475 to R477) -/

def commonSrc (i : Nat) : Nat := src i 0x3F

/-- ISLAND_TEMP_SAMPLE: a reading, its peak, the limit with its hysteresis, and the Extrait ceiling. A sensor that has failed its
self-check leaves TEMP at its last good value (DEDUCED, log 50). -/
def State.tempSample (s : State) (i : Nat) (t : Int) : State :=
  let x := s.isl i
  if !x.sensorOk then s
  else
    let w := BitVec.ofInt 8 t
    let hot := decide (x.limit.toInt < t)
    let cool := decide (t + 5 ≤ x.limit.toInt)
    let s := s.modIsl i (fun x => { x with
      temp := w, peak := if x.peak.toInt < t then w else x.peak, hotRep := (x.hotRep || hot) && !cool })
    let s := if t < 120 then { s with pins := { s.pins with tripHot := s.pins.tripHot.filter (· != i) } } else s
    let s := if hot && !x.hotRep then s.raise (commonSrc i) 0xB0 { addr := w.toNat } else s
    if s.inExtrait ∧ (s.power.extrait.ceiling : Int) ≤ t then s.beginExit 2 else s

def execIslandTempSample (island : Nat) (temp : Int) (s : State) : Host.Outcome State Fault Refusal :=
  answer (if island < 53 ∧ ¬ s.inReset island ∧ -128 ≤ temp ∧ temp ≤ 127 then s.tempSample island temp else s)

/-- SENSOR_SELF_CHECK. -/
def State.selfCheck (s : State) (i : Nat) (ok : Bool) : State :=
  let s := s.modIsl i (fun x => { x with sensorOk := ok })
  if ok then s else (s.raise (commonSrc i) 0xB3).beginExit 5

def execSensorSelfCheck (island : Nat) (ok : Bool) (s : State) : Host.Outcome State Fault Refusal :=
  answer (if island < 53 ∧ ¬ s.inReset island then s.selfCheck island ok else s)

/-- CLOCK_UNLOCK: the island's clock stops, and it keeps its state. -/
def State.clockUnlock (s : State) (i : Nat) : State :=
  let x := s.isl i
  if x.unlocked ∨ x.st = .relocking then s
  else (s.modIsl i (fun x => { x with unlocked := true, locked := false, st := if x.st = .run then .stopped else x.st })).raise (commonSrc i) 0xB2

def execClockUnlock (island : Nat) (s : State) : Host.Outcome State Fault Refusal :=
  answer (if island < 53 then s.clockUnlock island else s)

/-- CLOCK_RELOCK: the island regains lock, and its clock restarts; so does a SerDes reference PLL that start-up found
unlocked (R523). -/
def State.clockRelock (s : State) (i : Nat) : State :=
  let s := { s with ports := { s.ports with pllOff := s.ports.pllOff.filter (· != i) } }
  if (s.isl i).unlocked then
    (s.modIsl i (fun x => { x with unlocked := false, locked := true, st := if x.st = .stopped then .run else x.st })).backInService i
  else s

def execClockRelock (island : Nat) (s : State) : Host.Outcome State Fault Refusal :=
  answer (if island < 53 then s.clockRelock island else s)

/-! ### The wear ledger (R486 to R488) -/

/-- One in the fixed-point numbers in which a wear factor is computed. -/
def fixOne : Int := 2 ^ 128

/-- exp of a fixed-point number: the series at x/64, squared six times. -/
def expSeries (y : Int) : Nat → Int → Int → Int → Int
  | 0, _, _, sum => sum
  | k + 1, n, t, sum => let u := t * y / (n * fixOne); expSeries y k (n + 1) u (sum + u)

def squareFix : Nat → Int → Int
  | 0, v => v
  | n + 1, v => squareFix n (v * v / fixOne)

def expFix (x : Int) : Int := squareFix 6 (expSeries (x / 64) 40 1 fixOne fixOne)

/-- F × (1 ms / 1 h) in units of 2⁻⁴⁸ life unit, rounded down: FT × FV is one exponential. -/
def wearFloor (temp : Int) (mv : Nat) : Nat :=
  let t := 8123 * (100 * fixOne / 35815 - 100 * fixOne / (100 * temp + 27315))
  let v := ((mv : Int) - 750) * fixOne / 100
  (2 ^ 48 * expFix (t + v) / fixOne / 3600000).toNat

/-- The wear of 1 ms, in the rounding that the controller takes (DESIGN CHOICE, log 51). -/
def wearStep (temp : Int) (mv : Nat) : Nat := wearFloor temp mv + b2n (Config.wearRounding temp mv)

/-- Milestone fuses follow DEVICE_LIFE at each further 1,000 units. -/
def State.milestones (s : State) : State :=
  { s with sec := { s.sec with milestones := max s.sec.milestones (min 512 (s.deviceLife / 1000)) } }

/-- WEAR_ACCRUE: every island ages, powered as they all are, and Extrait ends when the reserve is reached. -/
def State.wearAccrue (s : State) : State :=
  let s := (List.range 53).foldl (fun s i =>
    s.modIsl i (fun x => { x with life := x.life + wearStep (if x.sensorOk then x.reading else 110) x.vmeas.toNat })) s
  let s := s.milestones
  if s.inExtrait ∧ s.wornTo s.power.extrait.reserve then s.beginExit 3 else s

def execWearAccrue (s : State) : Host.Outcome State Fault Refusal :=
  answer (if s.pins.pwrGood && s.pins.resetN then s.wearAccrue else s)

/-- LEDGER_WRITE: the record takes every island's LIFE and the next SEQ, in the copy that does not hold the higher one. -/
def State.ledgerWrite (s : State) : State :=
  let l := (List.range 53).foldl (fun (m : Store Nat) i => Store.set 0 m i (s.lifeOf i)) []
  let old := if s.power.ledgerSeq = 0 then none else some s.power.ledger
  State.milestones { s with power := { s.power with ledgerSeq := s.power.ledgerSeq + 1, ledger := l, ledgerOld := old } }

def execLedgerWrite (s : State) : Host.Outcome State Fault Refusal :=
  answer (if s.ycp.up && s.up 51 then s.ledgerWrite else s)

end Sys2Proof.Machine
end

