-- ==== Sys2Proof/Machine/StartUp.lean ====
section
/-! DEFINITION. Supplies and reset pins, the chip reset, start-up, the PCIe reset and its errors, the thermal trip, and fault
injection (spec/22_pins_electrical_package.md R493 to R506, spec/23_startup.md R514 to R526, spec/16_faults_recovery.md R377
and R388, spec/21_clocks_power_life.md R478). -/

namespace Sys2Proof.Machine

/-! ### States of the device and its status balls (R493, R496, R499) -/

/-- The device's state. -/
def State.deviceState (s : State) : DeviceState :=
  if s.pins.rails.isEmpty then .unpowered else if !s.pins.pwrGood then .partialPower
  else if s.pins.resetN then .running else .reset

/-- ERR_N is driven low: during a pulse and while HOLD is 1; released outside RUNNING. -/
def State.errLow (s : State) : Bool := s.deviceState == .running && (s.faults.errPulsing || s.faults.errHold)

/-- ALARM0_N is asserted: an island has read above its LIMIT, and not yet 5 °C below it since. -/
def State.alarm0Low (s : State) : Bool := s.deviceState == .running && (List.range 53).any (fun i => (s.isl i).hotRep)

/-- ALARM1_N is asserted: the device runs without its firmware. -/
def State.alarm1Low (s : State) : Bool := s.deviceState == .running && !s.ycp.up

/-- The trip comparators work, in reset included. -/
def State.tripPowered (s : State) : Bool := s.pins.rails.contains .core && s.pins.rails.contains .io18

/-! ### What resets keep (R377, R383, R396, R435, R436) -/

/-- Issuer slots after retained memory is lost: key, control word and reservation stand, HIGH becomes the reservation and
the window is empty. -/
def Issuer.lost (i : Issuer) : Issuer := { i with high := i.reservation, stored := [], statement := none, executed := [] }

/-- What fuses and boot flash hold. -/
def Security.kept (x : Security) : Security :=
  { lifecycle := x.lifecycle, ownerKey := x.ownerKey, vendorRevoked := x.vendorRevoked, claim := x.claim, count := x.count
    milestones := x.milestones, factoryMode := x.factoryMode, flash := x.flash, active := x.active, written := x.written
    securityLost := x.securityLost, pcieSigned := x.pcieSigned, recordSeq := x.recordSeq, recordOld := x.recordOld }

/-- Every island in reset and every register at its reset value, but what fuses and boot flash hold and the pins. -/
def State.atReset (s : State) : State :=
  { pending := s.pending, nextId := s.nextId, fresh := s.fresh, out := s.out
    ycp := { issuers := s.ycp.issuers.filterMap (fun (e : Nat × Issuer) => if e.2.lost = issuerReset then none else some (e.1, e.2.lost)) }
    sec := s.sec.kept
    power := { ledgerSeq := s.power.ledgerSeq, ledger := s.power.ledger, ledgerOld := s.power.ledgerOld }
    pins := { s.pins with pcieUp := false } }

/-- The collector's records that survive a reset while power is held, with the reset cause word. -/
def Faults.kept (f : Faults) (cause : BitVec 32) : Faults :=
  { sillage := f.sillage, nextSeq := f.nextSeq, capture := f.capture, resetCause := cause }

/-- A reset with power held. STATEMENTS counts from power-on (R448), so it stands. -/
def State.heldReset (s : State) (cause : BitVec 32) : State :=
  { s.atReset with
    sec := { s.sec.kept with statements := s.sec.statements }
    faults := s.faults.kept cause
    obs := { jtag := s.obs.jtag, boundary := s.obs.boundary, dbgStatus := s.obs.dbgStatus, dbgResult := s.obs.dbgResult } }

/-- Start-up begins at step 2: I51 and I52 have locked their clocks and run. -/
def State.begin (s : State) : State :=
  [51, 52].foldl (fun s i => s.modIsl i (fun x => { x with st := .run, locked := true, vmeas := x.volt }))
    { s with startup := { running := true } }

/-! ### Pins and supplies (R496, R497, R506, R515) -/

/-- PWR_GOOD_RISE: the device leaves PARTIAL, and FIELD_EL selects the mode of the field pins. -/
def State.pwrRise (s : State) : State :=
  if s.pins.pwrGood then s else { s with pins := { s.pins with pwrGood := true, fieldMode := s.pins.fieldEl } }

def execPwrGoodRise (s : State) : Host.Outcome State Fault Refusal := answer s.pwrRise

/-- Power is lost: only fuses and boot flash keep what they hold. THERM_TRIP_N is released (DEDUCED, log 55). -/
def State.powerLost (s : State) : State := { s.atReset with pins := { s.pins with pcieUp := false, therm := false } }

/-- PWR_GOOD_FALL: start-up is abandoned, and the DRAM contents are lost. -/
def State.pwrFall (s : State) : State :=
  if s.pins.pwrGood then
    let t := s.powerLost
    { t with pins := { t.pins with pwrGood := false } }
  else s

def execPwrGoodFall (s : State) : Host.Outcome State Fault Refusal := answer s.pwrFall

/-- RESET_N_RISE: with PWR_GOOD high, start-up begins. EXTEST, CLAMP and HIGHZ act as BYPASS from here (R466). -/
def State.resetRise (s : State) : State :=
  if s.pins.resetN then s
  else
    let s := { s with pins := { s.pins with resetN := true } }
    if s.pins.pwrGood then s.begin else s

def execResetNRise (s : State) : Host.Outcome State Fault Refusal := answer s.resetRise

/-- RESET_N_FALL: the device enters reset, start-up is abandoned, and a thermal trip ends when every comparator has cooled. -/
def State.resetFall (s : State) : State :=
  if s.pins.resetN then
    let t := if s.pins.pwrGood then s.heldReset (BitVec.ofNat 32 (2 ^ 28)) else s
    { t with pins := { t.pins with resetN := false, therm := s.pins.therm && !s.pins.tripHot.isEmpty } }
  else s

def execResetNFall (s : State) : Host.Outcome State Fault Refusal := answer s.resetFall

/-- SUPPLY_RISE. -/
def State.supplyRise (s : State) (r : Rail) : State :=
  if s.pins.rails.contains r then s else { s with pins := { s.pins with rails := s.pins.rails ++ [r] } }

def execSupplyRise (rail : Rail) (s : State) : Host.Outcome State Fault Refusal := answer (s.supplyRise rail)

/-- SUPPLY_FALL: the comparators stop with either of their rails, and with the last rail every register is lost. -/
def State.supplyFall (s : State) (r : Rail) : State :=
  if s.pins.rails.contains r then
    let s := { s with pins := { s.pins with rails := s.pins.rails.filter (· != r) } }
    let s := if s.pins.rails.isEmpty then s.powerLost else s
    if s.tripPowered then s else { s with pins := { s.pins with therm := false, tripHot := [] } }
  else s

def execSupplyFall (rail : Rail) (s : State) : Host.Outcome State Fault Refusal := answer (s.supplyFall rail)

/-! ### The chip reset (R377, R422) -/

/-- Every island resets and start-up runs from fuse load. The ERR_N control word stands; a reaction whose message carries ERR_PIN
leaves HOLD at 1. -/
def State.resetChip (s : State) (cause : BitVec 32) (err : Bool) : State :=
  let f := s.faults
  let t := s.heldReset cause
  State.begin { t with faults := { t.faults with
    errPulsing := f.errPulsing, errRelease := f.errRelease && !err, errHold := f.errHold || err } }

/-- CHIP_RESET: the reset that a level 4 reaction asked for. -/
def State.chipResetNow (s : State) : State :=
  match s.faults.chipReset with
  | some cause => s.resetChip cause s.faults.chipErr
  | none => s

def execChipReset (s : State) : Host.Outcome State Fault Refusal := answer s.chipResetNow

/-- SYS_RESET_EXPIRE: 10 ms after SYS_RESET's reply, with reset cause 0x3. -/
def execSysResetExpire (s : State) : Host.Outcome State Fault Refusal :=
  answer (if s.ycp.resetDue then s.resetChip (BitVec.ofNat 32 (3 * 2 ^ 28)) false else s)

/-! ### The PCIe endpoint (R399, R498, R518) -/

/-- PCIE_PERST_N_ASSERT: the endpoint, its rings and BAR0 return to reset. -/
def State.perstFall (s : State) : State :=
  if s.pins.perstN then { s with bar0 := {}, pins := { s.pins with perstN := false, pcieUp := false } } else s

def execPciePerstNAssert (s : State) : Host.Outcome State Fault Refusal := answer s.perstFall

/-- PCIE_PERST_N_DEASSERT: the link trains once fuse load has ended. -/
def State.perstRise (s : State) : State :=
  { s with pins := { s.pins with perstN := true, pcieUp := s.startup.done.contains 2 } }

def execPciePerstNDeassert (s : State) : Host.Outcome State Fault Refusal :=
  answer (if s.pins.perstN then s else s.perstRise)

/-- PCIE_ERROR: the endpoint has logged an uncorrectable error. -/
def execPcieError (s : State) : Host.Outcome State Fault Refusal :=
  answer (if s.pcieOn then s.raise (src 51 2) 0xBB else s)

/-! ### The thermal trip (R478) -/

/-- THERM_TRIP: an island's comparator exceeds 125 °C. THERM_TRIP_N asserts, and a running collector reports it. -/
def State.trip (s : State) (i : Nat) : State :=
  let t := { s with pins := { s.pins with therm := true, tripHot := (s.pins.tripHot ++ [i]).eraseDups } }
  if s.pins.therm ∨ ¬ s.up 52 then t else t.raise (63 * 64) 0xB1

def execThermTrip (island : Nat) (s : State) : Host.Outcome State Fault Refusal :=
  answer (if island < 53 ∧ s.tripPowered then s.trip island else s)

/-! ### Start-up, step by step (R514 to R526) -/

/-- The steps that a step waits for. -/
def stepNeeds (step : Nat) : List Nat :=
  match step with
  | 2 => []
  | 3 => [2]
  | 4 => [3]
  | 5 => [4]
  | 6 => [5]
  | 7 => [6]
  | 8 => [6]
  | 9 => [6]
  | _ => [7, 8, 9]

/-- The step is under way. -/
def State.stepRuns (s : State) (step : Nat) : Bool :=
  s.startup.running && 2 ≤ step && step ≤ 10 && !s.startup.done.contains step && (stepNeeds step).all s.startup.done.contains
    && (step == 4 || !s.sec.recovery)

def State.halt (s : State) : State := { s with startup := { s.startup with running := false, stopped := true } }

/-- Step 2, fuse load (R516, R518): an ambiguous block stops the device; otherwise the PCIe link trains. -/
def State.stepFuses (s : State) (r : StepResult) : State :=
  if r.ambiguous then s.halt else { s with pins := { s.pins with pcieUp := s.pins.perstN } }

/-- The array of a source is a Table Store bank, which stays in use when it cannot be repaired (R517). -/
def isBank (source : Nat) : Bool := 37 ≤ source / 64 && source / 64 < 41 && source % 64 < 9

/-- Rows that BIST has mapped to spare rows (DEDUCED, log 55). -/
def State.bistRepair (s : State) (source n : Nat) : State :=
  if isBank source then
    let k := (source / 64 - 37) * 9 + source % 64
    State.count { s with tables := { s.tables with spareRows := Store.modify 0 s.tables.spareRows k (· + n) } } source 0x16 n
  else { s with scrub := { s.scrub with spare := Store.modify 0 s.scrub.spare source (· + n) } }

/-- Step 3, BIST and repair (R517). -/
def State.stepBist (s : State) (r : StepResult) : State :=
  if r.arrays.any (fun e => e.1.toNat / 64 == 51 || e.1.toNat / 64 == 52) then s.halt
  else
    let s := r.repairs.foldl (fun (s : State) e => s.bistRepair e.1.toNat e.2) s
    r.arrays.foldl (fun (s : State) e =>
      let source := e.1.toNat
      let s := s.raise source 0xA8 { addr := Config.arrayAddress source e.2 }
      if isBank source ∨ 51 ≤ source / 64 then s else s.modIsl (source / 64) (fun x => { x with broken := true })) s

/-- The copy of the security record with the lower SEQ is the one that verifies, and is taken (R440). -/
def State.takeRecordCopy (s : State) (r : RecordCopy) : State :=
  let s := r.slots.zipIdx.foldl (fun (s : State) e => s.modIssuer e.2 (fun i => { i with ctl := e.1.1, key := e.1.2 })) s
  { s with sec := { s.sec with recordSeq := r.seq, pcieSigned := r.signed, recordOld := none } }

/-- The security record (R440): the copy of the higher SEQ, where it verifies, else the other. An owned device that finds no copy it can
trust uses the slots as manufactured, with fewer classes. -/
def State.loadRecord (s : State) (lost older : Bool) : State :=
  let lost := lost || s.sec.securityLost || (older && s.sec.recordOld.isNone)
  let s := match s.sec.recordOld with
    | some r => if older && !lost then s.takeRecordCopy r else s
    | none => s
  if s.sec.lifecycle = .owned ∧ lost = true then
    let s := (List.range 16).foldl (fun (s : State) k => s.modIssuer k (fun i =>
      { issuerReset with ctl := 0xA80000A1, high := i.high, reservation := i.reservation })) s
    State.raise { s with sec := { s.sec with securityLost := true, pcieSigned := false } } (src 51 1) 0xB8
  else s

/-- The ROM examines a slot, with its report of a failure (R442, R443). -/
def State.examineSlot (s : State) (k : Nat) : Bool × State :=
  let r := s.manifestStatus (s.slotCheck k) (s.slotRollback k) k
  (r.1 == stDone, r.2)

/-- The firmware of slot `k` starts; `other` says that the other slot verifies too (R444). -/
def State.runSlot (s : State) (k : Nat) (other : Bool) : State :=
  State.setSlot (State.setSlot { s with sec := { s.sec with running := some k, recovery := false } } k .running) (1 - k)
    (if other then .staged else .written)

/-- Recovery: the ROM serves, and steps 5 to 10 do not run (R446, R519). -/
def State.recover (s : State) : State := { s with sec := { s.sec with running := none, recovery := true } }

/-- Step 4, boot (R446): the ACTIVE slot, then the other (DEDUCED, log 55). -/
def State.stepBoot (s : State) (r : StepResult) : State :=
  let s := s.loadRecord (r.recordLost || r.noFlash) r.recordOlder
  if r.noFlash then s.recover
  else
    let a := s.sec.active % 2
    let first := s.examineSlot a
    let second := first.2.examineSlot (1 - a)
    if first.1 then second.2.runSlot a second.1
    else if second.1 then (second.2.raise (src 51 1) 0xB9).runSlot (1 - a) false
    else ((second.2.setSlot 0 .written).setSlot 1 .written).recover

/-- Step 6, the islands wake (R521). VMEAS reads VOLT: PRESUMED, log 16. -/
def State.stepWake (s : State) : State :=
  (List.range 51).foldl (fun (s : State) i => s.modIsl i (fun x =>
    if x.broken then x else
    { x with st := .run, locked := true, freq := BitVec.ofNat 12 (islandFreq i), volt := 750, vmeas := 750 })) s

/-- Capacity of a channel in GiB for a supported configuration, 0 for any other (R322). -/
def chanGib (f : ChanFound) : Nat :=
  if f.ranks = 0 ∨ f.ranks = 3 ∨ f.density = 3 ∨ f.rate = 7 ∨ (f.width = 1 ∧ f.density = 0) then 0
  else 2 ^ f.density.toNat * (if f.width = 0 then 8 else 4) * f.ranks.toNat

/-- Transfer rate in MT/s by its code. -/
def rateOf (c : Nat) : Nat := ([1600, 1866, 2133, 2400, 2666, 2933, 3200] : List Nat).getD c 0

/-- What a channel is found to be: a configuration, or one that fails its check, and the training step that failed. -/
structure ChanConfig where
  channel : Nat
  found   : ChanFound
  /-- The configuration's own check failed (R323). -/
  bad     : Bool := false

/-- The training step a channel failed, 0 for a check: every populated channel shall be as channel 0 is, and lie in channels 0 to N − 1 for
the `n` channels that the populated ones may be (R322; DEDUCED, log 55). -/
def chanFails (n : Nat) (first : Option ChanFound) (k : ChanConfig) : Option Nat :=
  let f := k.found
  let same := match first with
    | some g => f.ranks == g.ranks && f.width == g.width && f.density == g.density && f.rate == g.rate
    | none => true
  if k.bad ∨ chanGib f = 0 ∨ same = false ∨ n ≤ k.channel then some 0 else f.failed

/-- The first channels in service: 8, 4, 2, 1 or none (R522). -/
def leadingChannels (good : Nat → Bool) : Nat := (([8, 4, 2, 1] : List Nat).find? (fun n => (List.range n).all good)).getD 0

/-- The geometry record is valid: MAGIC, FORMAT, reserved bytes and CHECK (R323). CHECK is the standard CRC of R219. -/
def geometryValid (l : List Byte) : Bool :=
  leVal (slice l 0 4) == 0x594E4447 && leVal (slice l 4 2) == 1 && zeroBytes (slice l 7 1) && zeroBytes (slice l 72 4020)
    && (List.range 8).all (fun k => zeroBytes (slice l (14 + 8 * k) 2))
    && leVal (slice l 4092 4) == (~~~(crcRun polyCrc32c 0xFFFFFFFF (l.take 4092))).toNat

/-- The geometry record names channel `k` as soldered. -/
def soldered (l : List Byte) (k : Nat) : Bool := geometryValid l && bitAt (leVal (slice l 6 1)) k

/-- Entry `k` of the geometry record, with the training step that failed. An entry outside R322, or whose CL the speed bins of its rate do
not allow, fails its check; a TEMP_ADDR of 0 means no sensor (R323). -/
def geometryEntry (l : List Byte) (k : Nat) (failed : Option Nat) : ChanConfig :=
  let b := fun (i : Nat) => leVal (slice l (8 + 8 * k + i) 1)
  { channel := k
    found := { channel := k, width := BitVec.ofNat 1 (b 0), density := BitVec.ofNat 2 (b 1), ranks := BitVec.ofNat 2 (b 2)
               rate := BitVec.ofNat 3 (b 3), noSensor := b 5 == 0, failed := failed }
    bad := 1 < b 0 || 2 < b 1 || b 2 == 0 || 2 < b 2 || 6 < b 3 || !Config.clAllowed (b 3) (b 4) }

/-- The populated channels: those that the geometry record names as soldered, and those whose SPD answers (R322, R323). -/
def populated (l : List Byte) (found : List ChanFound) : List ChanConfig :=
  (List.range 8).filterMap (fun k =>
    let spd := found.find? (fun f => f.channel == k)
    if soldered l k then some (geometryEntry l k (spd.bind (·.failed))) else spd.map (fun f => { channel := k, found := f }))

/-- A channel enters service, trained, and starts its initialisation sweep; one without a sensor runs hot throughout (R323, R337, R338). -/
def State.serveChannel (s : State) (f : ChanFound) : State :=
  let s := s.modIsl (43 + f.channel) (fun x => { x with freq := BitVec.ofNat 12 (rateOf f.rate.toNat / 2) })
  s.modChan f.channel (fun k => { k with
    st := .service, ranks := f.ranks, width := f.width, density := f.density, rate := f.rate, gib := chanGib f
    noSensor := f.noSensor, hot := f.noSensor, sweepDone := false, early := [], again := [], swept := 0, step := 6, dqs := [] })

/-- Step 7, DRAM training (R522; DEDUCED, log 55). -/
def State.stepDram (s : State) (r : StepResult) : State :=
  let all := populated (s.flashRead 0x30000 4096) r.channels
  let may := leadingChannels (fun c => all.any (fun k => k.channel == c))
  let l := all.filter (fun k => !s.inReset (43 + k.channel))
  let fails := chanFails may ((l.find? (fun k => k.channel == 0)).map (·.found))
  let good := l.filter (fun k => (fails k).isNone)
  let s := l.foldl (fun (s : State) k => match fails k with
    | some step => s.raise (src (43 + k.channel) 1) 0xA5 { addr := step }
    | none => s) s
  let n := leadingChannels (fun c => good.any (fun k => k.channel == c))
  let s := (good.filter (fun k => decide (k.channel < n))).foldl (fun (s : State) k => s.serveChannel k.found) s
  { s with dram := { s.dram with n := n, segs := n * (s.chan 0).gib * 16 } }

/-- Step 8, PLLs and lanes (R523). A lane whose PLL has not locked, or that fails, is not calibrated. -/
def State.stepLanes (s : State) (r : StepResult) : State :=
  let off := (r.plls.filter (fun i => decide (31 ≤ i ∧ i < 36) && !s.inReset i)).eraseDups
  let s := off.foldl (fun (s : State) i => s.raise (commonSrc i) 0xB2) { s with ports := { s.ports with pllOff := off } }
  (List.range 40).foldl (fun (s : State) l =>
    let i := 31 + l / 8
    if s.inReset i ∨ off.contains i then s
    else if r.lanes.contains l then s.raise (src i (l % 8)) 0x43
    else s.modLane l (fun x => { x with ready := true })) s

/-- Step 9, the self-test of every cluster (R524, R525). One held in reset has failed (DEDUCED, log 55). -/
def State.stepTest (s : State) (r : StepResult) : State :=
  let image := s.testImage
  let noImage := r.noImage || image.1
  let s := if noImage then image.2.raise (src 0 0x13) 0xAA { addr := 0xFF } else image.2
  (List.range 26).foldl (fun (s : State) c =>
    let fails := (s.isl c).broken || (!noImage && r.clusters.contains c)
    let pass := !fails && !noImage
    let s := if fails then s.raise (src c 0x13) 0xAA else s
    s.modCl c (fun k => { k with svc := { k.svc with
      st := if c < 24 then (if fails then 3 else 1) else (if pass then 0 else 5), check := pass } })) s

/-- A mask with bit `i` set where `p i`. -/
def maskOf (n : Nat) (p : Nat → Bool) : Nat := ((List.range n).map (fun i => if p i then 2 ^ i else 0)).sum

/-- Step 10, the end of bring-up (R526). -/
def State.stepEnd (s : State) : State :=
  let s := { s with startup := { s.startup with running := false, bringup := true } }
  s.stewardEvent (.bringupDone (maskOf 8 (fun c => (s.chan c).st == .service)) (maskOf 26 (fun c => (s.cl c).svc.check)) s.startup.faults)

def State.stepWork (s : State) (step : Nat) (r : StepResult) : State :=
  match step with
  | 2 => s.stepFuses r
  | 3 => s.stepBist r
  | 4 => s.stepBoot r
  | 5 => s.stepUp r.ledgerLost r.ledgerOlder
  | 6 => s.stepWake
  | 7 => s.stepDram r
  | 8 => s.stepLanes r
  | 9 => s.stepTest r
  | _ => s.stepEnd

/-- Fault messages that stand in the outboxes or have been lost there. -/
def State.messages (s : State) : Nat :=
  (s.faults.outbox.map (fun e => e.2.msgs.length + (e.2.lost.map (fun x => x.2.toNat)).sum)).sum

/-- STARTUP_STEP_DONE: a step ends, and what it raised is counted. A step that stops the device has not ended. -/
def State.stepDone (s : State) (step : Nat) (r : StepResult) : State :=
  if s.stepRuns step then
    let t := s.stepWork step r
    let n := t.startup.faults + (t.messages - s.messages)
    { t with startup := { t.startup with
      faults := n, done := if t.startup.stopped ∨ t.startup.done.contains step then t.startup.done else t.startup.done ++ [step] } }
  else s

def execStartupStepDone (step : Nat) (result : StepResult) (s : State) : Host.Outcome State Fault Refusal :=
  answer (s.stepDone step result)

/-! ### FAULT_INJECT (R388, R433) -/

/-- The unit is a core of a cluster. -/
def onCore (i u : Nat) : Bool := i < 26 && u < 8

/-- The source may raise the kind (R368). -/
def kindFits (k source : Nat) : Bool :=
  let i := source / 64
  let u := source % 64
  let lane := decide (31 ≤ i ∧ i < 36)
  let group := decide (37 ≤ i ∧ i < 41)
  let chan := decide (43 ≤ i ∧ i < 51)
  if k = 0x40 ∨ k = 0x43 ∨ k = 0x45 then lane && u < 8
  else if k = 0x41 ∨ k = 0x44 then lane && u == 0x10
  else if k = 0x42 then lane && u == 0x11
  else if 0x48 ≤ k ∧ k ≤ 0x4C then 27 ≤ i && i < 31 && u == 0
  else if 0x50 ≤ k ∧ k ≤ 0x5A then i == 26 && u == 0
  else if k = 0x60 ∨ k = 0xAA then i < 26 && u == 0x13
  else if k = 0x61 ∨ k = 0x62 ∨ (0x68 ≤ k ∧ k ≤ 0x6E) ∨ k = 0x7C ∨ k = 0xA6 then onCore i u
  else if k = 0x63 then onCore i u || (i < 26 && (u == 0x10 || u == 0x12))
  else if k = 0x64 then i < 26 && u == 0x11
  else if k = 0x70 then i < 26 && 8 ≤ u && u < 16
  else if k = 0x78 ∨ k = 0x7A ∨ k = 0x7B then group && u < 9
  else if k = 0x79 then group && u == 0x18
  else if 0x80 ≤ k ∧ k ≤ 0x82 then group && 0x10 ≤ u && u < 0x18
  else if 0x88 ≤ k ∧ k ≤ 0x8B then i == 42 && u == 0
  else if k = 0x90 then i == 41 && (u == 0 || u == 2)
  else if k = 0x91 then i == 41 && u == 0
  else if k = 0x92 then i == 41 && u == 1
  else if k = 0x98 ∨ k = 0x99 ∨ k = 0x9D ∨ k = 0x9E then i == 36 && u == 0
  else if k = 0x9A ∨ k = 0x9B then i == 36 && u == 1
  else if k = 0x9C then i == 36 && u == 2
  else if 0xA0 ≤ k ∧ k ≤ 0xA2 then chan && u == 0
  else if k = 0xA3 ∨ k = 0xA4 then chan && u == 4
  else if k = 0xA5 ∨ k = 0xA7 then chan && u == 1
  else if k = 0xA8 then holdsArray source || isBank source
  else if k = 0xA9 then (i < 26 && u ≤ 0x13) || (27 ≤ i && i < 31 && u == 0) || (group && u ≤ 0x18)
  else if k = 0xAB then i == 51 && u == 0
  else if k = 0xB0 ∨ k = 0xB2 ∨ k = 0xB3 ∨ k = 0xC2 ∨ k = 0xC3 then i < 53 && u == 0x3F
  else if k = 0xB1 then i == 63 && u == 0
  else if 0xB8 ≤ k ∧ k ≤ 0xBA then i == 51 && u == 1
  else if k = 0xBB then i == 51 && u == 2
  else if k = 0xC0 ∨ k = 0xC1 ∨ k = 0xC4 then i == 52 && u == 0
  else if k = 0xF0 then i < 53 || (i == 63 && u == 0)
  else false

/-- The source's own treatment of a kind, where SOURCE and ADDRESS say all it acts on (DEDUCED, log 53). -/
def State.ownTreatment (s : State) (source k a : Nat) : State :=
  let i := source / 64
  if k = 0x59 ∨ k = 0x99 ∨ k = 0x82 ∨ k = 0x8A ∨ k = 0x63 ∨ k = 0x64 ∨ k = 0x48 ∨ k = 0x44 ∨ k = 0x90 ∨ k = 0x92 ∨ k = 0xC0 then
    s.foundBad source a
  else if k = 0xA0 then { s with dram := { s.dram with bad := ((a / 64) :: s.dram.bad).eraseDups } }
  else if k = 0x78 then { s with tables := { s.tables with bad := (((i - 37) * 9 + source % 64) * 24576 + a % 65536) :: s.tables.bad } }
  else if k = 0x7B then { s with tables := { s.tables with spareRows := Store.set 0 s.tables.spareRows ((i - 37) * 9 + source % 64) 32 } }
  else if k = 0x9A then { s with qm := { s.qm with spillRep := true } }
  else if k = 0xA1 then s.modChan (i - 43) (fun c => { c with ceRep := (bits a 5 0 :: c.ceRep).eraseDups })
  else if k = 0xA2 then s.modChan (i - 43) (fun c => { c with preempt := true })
  else if k = 0xA4 then s.tempLost (i - 43)
  else if k = 0xA5 then s.trainFail (i - 43) a
  else if k = 0xA7 then s.modChan (i - 43) (fun c => { c with caRetry := c.caRetry + 1 })
  else if k = 0xA8 then { s with scrub := { s.scrub with spare := Store.set 0 s.scrub.spare source (Config.spareRows source) } }
  else if k = 0xA9 then s.prepareDone [i]
  else if k = 0xAA then s.modCl i (fun c => { c with svc := { c.svc with check := false } })
  else if k = 0xC1 then s.modFaults (fun f => { f with lossRun := true })
  else if k = 0xB0 then s.modIsl i (fun x => { x with hotRep := true })
  else if k = 0xB1 then { s with pins := { s.pins with therm := true } }
  else if k = 0xB2 then s.clockUnlock i
  else if k = 0xB3 then s.selfCheck i false
  else s

/-- Messages of a source and kind at the end of its outbox, past the first `n`, carry INJECTED. -/
def State.markInjected (s : State) (source k n : Nat) : State :=
  s.modFaults (fun f => { f with outbox := Store.modify {} f.outbox (source / 64) (fun o => { o with
    msgs := o.msgs.take n ++ (o.msgs.drop n).map (fun m =>
      if m.source.toNat = source ∧ m.kind.toNat = k then { m with injected := true } else m) }) })

def State.outboxLength (s : State) (i : Nat) : Nat := (Store.get ({} : Outbox) s.faults.outbox i).msgs.length

/-- FAULT_INJECT: the message and the treatment; a treatment that reports for itself reports once. -/
def State.inject (s : State) (source k a : Nat) : Ran :=
  if 4096 ≤ source ∨ kindFits k source = false then .done stBadParam [] s
  else
    let n := s.outboxLength (source / 64)
    let t := s.ownTreatment source k a
    let reported := ((Store.get ({} : Outbox) t.faults.outbox (source / 64)).msgs.drop n).any
      (fun m => m.source.toNat == source && m.kind.toNat == k)
    .ok (if reported then t.markInjected source k n else t.raise source k { addr := a, injected := true })

def execFaultInject (pkt : Packet) (s : State) : Host.Outcome State Fault Refusal :=
  answer (s.packet pkt 0x0F00 none (plen 12 [(3, 1), (4, 2)]) (fun c s => s.inject (c.n 0 2) (c.n 2 1) (c.n 4 8)))

end Sys2Proof.Machine
end

