-- ==== Sys2Proof/Machine/Dispatch.lean ====
section
/-! DEFINITION. One arm per command of the table: the meaning each command has. -/

namespace Sys2Proof.Machine

def exec (i : Instr) (s : State) : Host.Outcome State Fault Refusal :=
  match i with
  | .pwrGoodRise => Sys2Proof.Machine.execPwrGoodRise s
  | .pwrGoodFall => Sys2Proof.Machine.execPwrGoodFall s
  | .resetNRise => Sys2Proof.Machine.execResetNRise s
  | .resetNFall => Sys2Proof.Machine.execResetNFall s
  | .pciePerstNAssert => Sys2Proof.Machine.execPciePerstNAssert s
  | .pciePerstNDeassert => Sys2Proof.Machine.execPciePerstNDeassert s
  | .pcieError => Sys2Proof.Machine.execPcieError s
  | .ppsInEdge => Sys2Proof.Machine.execPpsInEdge s
  | .thermTrip island => Sys2Proof.Machine.execThermTrip island s
  | .dramCaParity channel => Sys2Proof.Machine.execDramCaParity channel s
  | .frameReceive port wire fecBad => Sys2Proof.Machine.execFrameReceive port wire fecBad s
  | .fifoToInputBuffer port => Sys2Proof.Machine.execFifoToInputBuffer port s
  | .pauseQuantaExpire port cls => Sys2Proof.Machine.execPauseQuantaExpire port cls s
  | .pauseRepeat port cls => Sys2Proof.Machine.execPauseRepeat port cls s
  | .frameTransmit port => Sys2Proof.Machine.execFrameTransmit port s
  | .lockLost lane => Sys2Proof.Machine.execLockLost lane s
  | .linkDown port => Sys2Proof.Machine.execLinkDown port s
  | .linkUp port => Sys2Proof.Machine.execLinkUp port s
  | .surgeHoldExpire lane => Sys2Proof.Machine.execSurgeHoldExpire lane s
  | .remoteFault port => Sys2Proof.Machine.execRemoteFault port s
  | .fecDegrade port corrected => Sys2Proof.Machine.execFecDegrade port corrected s
  | .ppsOutEdge => Sys2Proof.Machine.execPpsOutEdge s
  | .todTxMessage => Sys2Proof.Machine.execTodTxMessage s
  | .laneRecalDone lane converged => Sys2Proof.Machine.execLaneRecalDone lane converged s
  | .sliceParseStart slice => Sys2Proof.Machine.execSliceParseStart slice s
  | .cellRequest slice => Sys2Proof.Machine.execCellRequest slice s
  | .cellWaitExpire slice => Sys2Proof.Machine.execCellWaitExpire slice s
  | .markerAtSlice slice => Sys2Proof.Machine.execMarkerAtSlice slice s
  | .sliceCopyRelease slice => Sys2Proof.Machine.execSliceCopyRelease slice s
  | .descriptorAccept slice => Sys2Proof.Machine.execDescriptorAccept slice s
  | .taskAccept => Sys2Proof.Machine.execTaskAccept s
  | .atomizerDispatch lane => Sys2Proof.Machine.execAtomizerDispatch lane s
  | .dispatchAgePromote record => Sys2Proof.Machine.execDispatchAgePromote record s
  | .threadDispatch cluster => Sys2Proof.Machine.execThreadDispatch cluster s
  | .headerBytesArrive thread => Sys2Proof.Machine.execHeaderBytesArrive thread s
  | .crossingRefused src dst => Sys2Proof.Machine.execCrossingRefused src dst s
  | .ordRequest cluster => Sys2Proof.Machine.execOrdRequest cluster s
  | .ordGrant cluster => Sys2Proof.Machine.execOrdGrant cluster s
  | .relToken cluster => Sys2Proof.Machine.execRelToken cluster s
  | .effectToken cluster => Sys2Proof.Machine.execEffectToken cluster s
  | .effectAck cluster => Sys2Proof.Machine.execEffectAck cluster s
  | .commitAccept cluster => Sys2Proof.Machine.execCommitAccept cluster s
  | .outcomeHandover record => Sys2Proof.Machine.execOutcomeHandover record s
  | .threadFreeToken cluster => Sys2Proof.Machine.execThreadFreeToken cluster s
  | .faultToken cluster => Sys2Proof.Machine.execFaultToken cluster s
  | .resetNotice cluster => Sys2Proof.Machine.execResetNotice cluster s
  | .poisonToken cluster => Sys2Proof.Machine.execPoisonToken cluster s
  | .holdExpired record => Sys2Proof.Machine.execHoldExpired record s
  | .drainBoundExpire => Sys2Proof.Machine.execDrainBoundExpire s
  | .loadLand thread reg => Sys2Proof.Machine.execLoadLand thread reg s
  | .storeCompletion thread => Sys2Proof.Machine.execStoreCompletion thread s
  | .helperResult thread checkFail => Sys2Proof.Machine.execHelperResult thread checkFail s
  | .branchResolve thread => Sys2Proof.Machine.execBranchResolve thread s
  | .wfeWake thread => Sys2Proof.Machine.execWfeWake thread s
  | .threadTimerExpire thread => Sys2Proof.Machine.execThreadTimerExpire thread s
  | .chcUnblock cluster remote position channel => Sys2Proof.Machine.execChcUnblock cluster remote position channel s
  | .remoteMessageArrive src dst => Sys2Proof.Machine.execRemoteMessageArrive src dst s
  | .creditReturn src dst => Sys2Proof.Machine.execCreditReturn src dst s
  | .quiescent cluster => Sys2Proof.Machine.execQuiescent cluster s
  | .nmiEntry thread => Sys2Proof.Machine.execNmiEntry thread s
  | .trapEntry thread => Sys2Proof.Machine.execTrapEntry thread s
  | .lockGrantArrive group cluster => Sys2Proof.Machine.execLockGrantArrive group cluster s
  | .threadHalt thread => Sys2Proof.Machine.execThreadHalt thread s
  | .threadAbort thread => Sys2Proof.Machine.execThreadAbort thread s
  | .mov y => Sys2Proof.Machine.execMov y s
  | .add y => Sys2Proof.Machine.execAdd y s
  | .adc y => Sys2Proof.Machine.execAdc y s
  | .sub y => Sys2Proof.Machine.execSub y s
  | .sbc y => Sys2Proof.Machine.execSbc y s
  | .rsb y => Sys2Proof.Machine.execRsb y s
  | .neg y => Sys2Proof.Machine.execNeg y s
  | .cmp y => Sys2Proof.Machine.execCmp y s
  | .and y => Sys2Proof.Machine.execAnd y s
  | .or y => Sys2Proof.Machine.execOr y s
  | .xor y => Sys2Proof.Machine.execXor y s
  | .andn y => Sys2Proof.Machine.execAndn y s
  | .tst y => Sys2Proof.Machine.execTst y s
  | .shl y => Sys2Proof.Machine.execShl y s
  | .shr y => Sys2Proof.Machine.execShr y s
  | .sar y => Sys2Proof.Machine.execSar y s
  | .rol y => Sys2Proof.Machine.execRol y s
  | .ror y => Sys2Proof.Machine.execRor y s
  | .mul y => Sys2Proof.Machine.execMul y s
  | .mulh y => Sys2Proof.Machine.execMulh y s
  | .mulhu y => Sys2Proof.Machine.execMulhu y s
  | .min y => Sys2Proof.Machine.execMin y s
  | .max y => Sys2Proof.Machine.execMax y s
  | .minu y => Sys2Proof.Machine.execMinu y s
  | .maxu y => Sys2Proof.Machine.execMaxu y s
  | .sext y => Sys2Proof.Machine.execSext y s
  | .zext y => Sys2Proof.Machine.execZext y s
  | .bswap y => Sys2Proof.Machine.execBswap y s
  | .popc y => Sys2Proof.Machine.execPopc y s
  | .clz y => Sys2Proof.Machine.execClz y s
  | .ctz y => Sys2Proof.Machine.execCtz y s
  | .xmova y => Sys2Proof.Machine.execXmova y s
  | .xmovb y => Sys2Proof.Machine.execXmovb y s
  | .xadda y => Sys2Proof.Machine.execXadda y s
  | .xaddb y => Sys2Proof.Machine.execXaddb y s
  | .customA y n => Sys2Proof.Machine.execCustomA y n s
  | .customM y n => Sys2Proof.Machine.execCustomM y n s
  | .ld y => Sys2Proof.Machine.execLd y s
  | .lds y => Sys2Proof.Machine.execLds y s
  | .st y => Sys2Proof.Machine.execSt y s
  | .fld y => Sys2Proof.Machine.execFld y s
  | .flds y => Sys2Proof.Machine.execFlds y s
  | .fst y => Sys2Proof.Machine.execFst y s
  | .cnt y => Sys2Proof.Machine.execCnt y s
  | .ldp y => Sys2Proof.Machine.execLdp y s
  | .lkp y => Sys2Proof.Machine.execLkp y s
  | .lkpw y => Sys2Proof.Machine.execLkpw y s
  | .ins y => Sys2Proof.Machine.execIns y s
  | .del y => Sys2Proof.Machine.execDel y s
  | .crc32 y => Sys2Proof.Machine.execCrc32 y s
  | .crc32c y => Sys2Proof.Machine.execCrc32c y s
  | .tplz y => Sys2Proof.Machine.execTplz y s
  | .siph y => Sys2Proof.Machine.execSiph y s
  | .sum y => Sys2Proof.Machine.execSum y s
  | .inc16 y => Sys2Proof.Machine.execInc16 y s
  | .inc32 y => Sys2Proof.Machine.execInc32 y s
  | .ext y => Sys2Proof.Machine.execExt y s
  | .bfxIns y => Sys2Proof.Machine.execBfxIns y s
  | .extw y => Sys2Proof.Machine.execExtw y s
  | .divs y => Sys2Proof.Machine.execDivs y s
  | .divu y => Sys2Proof.Machine.execDivu y s
  | .rems y => Sys2Proof.Machine.execRems y s
  | .remu y => Sys2Proof.Machine.execRemu y s
  | .now y => Sys2Proof.Machine.execNow y s
  | .nowf y => Sys2Proof.Machine.execNowf y s
  | .tadd y => Sys2Proof.Machine.execTadd y s
  | .tdiff y => Sys2Proof.Machine.execTdiff y s
  | .tpast y => Sys2Proof.Machine.execTpast y s
  | .tsec y => Sys2Proof.Machine.execTsec y s
  | .tnsec y => Sys2Proof.Machine.execTnsec y s
  | .rdc y => Sys2Proof.Machine.execRdc y s
  | .wrc y => Sys2Proof.Machine.execWrc y s
  | .head y => Sys2Proof.Machine.execHead y s
  | .trim y => Sys2Proof.Machine.execTrim y s
  | .pfree y => Sys2Proof.Machine.execPfree y s
  | .balloc y => Sys2Proof.Machine.execBalloc y s
  | .bfree y => Sys2Proof.Machine.execBfree y s
  | .brd y => Sys2Proof.Machine.execBrd y s
  | .bwr y => Sys2Proof.Machine.execBwr y s
  | .kexp y => Sys2Proof.Machine.execKexp y s
  | .gctr y => Sys2Proof.Machine.execGctr y s
  | .ghm y => Sys2Proof.Machine.execGhm y s
  | .shb y => Sys2Proof.Machine.execShb y s
  | .br y => Sys2Proof.Machine.execBr y s
  | .bri y => Sys2Proof.Machine.execBri y s
  | .call y => Sys2Proof.Machine.execCall y s
  | .ret y => Sys2Proof.Machine.execRet y s
  | .bhb y => Sys2Proof.Machine.execBhb y s
  | .rtt y => Sys2Proof.Machine.execRtt y s
  | .nop y => Sys2Proof.Machine.execNop y s
  | .wfe y => Sys2Proof.Machine.execWfe y s
  | .sev y => Sys2Proof.Machine.execSev y s
  | .chs y => Sys2Proof.Machine.execChs y s
  | .chc y => Sys2Proof.Machine.execChc y s
  | .chr y => Sys2Proof.Machine.execChr y s
  | .ord y => Sys2Proof.Machine.execOrd y s
  | .rel y => Sys2Proof.Machine.execRel y s
  | .commit y => Sys2Proof.Machine.execCommit y s
  | .lka y => Sys2Proof.Machine.execLka y s
  | .lkt y => Sys2Proof.Machine.execLkt y s
  | .lkr y => Sys2Proof.Machine.execLkr y s
  | .cas32 y => Sys2Proof.Machine.execCas32 y s
  | .cas64 y => Sys2Proof.Machine.execCas64 y s
  | .fadd y => Sys2Proof.Machine.execFadd y s
  | .swap y => Sys2Proof.Machine.execSwap y s
  | .fand y => Sys2Proof.Machine.execFand y s
  | .forr y => Sys2Proof.Machine.execForr y s
  | .binc y => Sys2Proof.Machine.execBinc y s
  | .lockRequest cluster bank => Sys2Proof.Machine.execLockRequest cluster bank s
  | .atomicAtSlice cluster island => Sys2Proof.Machine.execAtomicAtSlice cluster island s
  | .apertureAccess cluster bank => Sys2Proof.Machine.execApertureAccess cluster bank s
  | .farAccess cluster channel => Sys2Proof.Machine.execFarAccess cluster channel s
  | .masterReset src bank => Sys2Proof.Machine.execMasterReset src bank s
  | .lockLeaseExpire lock => Sys2Proof.Machine.execLockLeaseExpire lock s
  | .lookup thread => Sys2Proof.Machine.execLookup thread s
  | .tableWrite thread => Sys2Proof.Machine.execTableWrite thread s
  | .relocation table => Sys2Proof.Machine.execRelocation table s
  | .versionedCopy table => Sys2Proof.Machine.execVersionedCopy table s
  | .bankScrub bank corrected damaged => Sys2Proof.Machine.execBankScrub bank corrected damaged s
  | .macerationDone table => Sys2Proof.Machine.execMacerationDone table s
  | .resizeDone table => Sys2Proof.Machine.execResizeDone table s
  | .bankReplaceDone bank mismatch => Sys2Proof.Machine.execBankReplaceDone bank mismatch s
  | .sweepDone => Sys2Proof.Machine.execSweepDone s
  | .tick => Sys2Proof.Machine.execTick s
  | .taskOffer => Sys2Proof.Machine.execTaskOffer s
  | .taskRestamp => Sys2Proof.Machine.execTaskRestamp s
  | .markerAtTaskScheduler => Sys2Proof.Machine.execMarkerAtTaskScheduler s
  | .taskRunEnd => Sys2Proof.Machine.execTaskRunEnd s
  | .cacheRefill pool cache => Sys2Proof.Machine.execCacheRefill pool cache s
  | .poolEnableDone pool => Sys2Proof.Machine.execPoolEnableDone pool s
  | .leakSweep => Sys2Proof.Machine.execLeakSweep s
  | .packetBufferOp thread => Sys2Proof.Machine.execPacketBufferOp thread s
  | .qmHandover => Sys2Proof.Machine.execQmHandover s
  | .h2dRingFrame ring entry frame dmaError => Sys2Proof.Machine.execH2dRingFrame ring entry frame dmaError s
  | .schedChoice port => Sys2Proof.Machine.execSchedChoice port s
  | .bucketCredit level node => Sys2Proof.Machine.execBucketCredit level node s
  | .spillRefill queue => Sys2Proof.Machine.execSpillRefill queue s
  | .d2hDeliver ring entries dmaError => Sys2Proof.Machine.execD2hDeliver ring entries dmaError s
  | .recircSend => Sys2Proof.Machine.execRecircSend s
  | .markerAtQm => Sys2Proof.Machine.execMarkerAtQm s
  | .dramCommandSlot channel => Sys2Proof.Machine.execDramCommandSlot channel s
  | .refreshDue channel rank => Sys2Proof.Machine.execRefreshDue channel rank s
  | .dramTempRead channel temp => Sys2Proof.Machine.execDramTempRead channel temp s
  | .dramTempLost channel => Sys2Proof.Machine.execDramTempLost channel s
  | .patrolScrub channel before after => Sys2Proof.Machine.execPatrolScrub channel before after s
  | .driftTrack channel found => Sys2Proof.Machine.execDriftTrack channel found s
  | .zqShort channel failed => Sys2Proof.Machine.execZqShort channel failed s
  | .initSweepDone channel => Sys2Proof.Machine.execInitSweepDone channel s
  | .decantCopyOutDone => Sys2Proof.Machine.execDecantCopyOutDone s
  | .decantDone => Sys2Proof.Machine.execDecantDone s
  | .accordPrepareDone failed => Sys2Proof.Machine.execAccordPrepareDone failed s
  | .commitPoint => Sys2Proof.Machine.execCommitPoint s
  | .markerReturn island => Sys2Proof.Machine.execMarkerReturn island s
  | .accordRetire => Sys2Proof.Machine.execAccordRetire s
  | .clusterBankFree cluster => Sys2Proof.Machine.execClusterBankFree cluster s
  | .configDigestDone => Sys2Proof.Machine.execConfigDigestDone s
  | .accordDiscardDone => Sys2Proof.Machine.execAccordDiscardDone s
  | .sramScrub source corrected damaged => Sys2Proof.Machine.execSramScrub source corrected damaged s
  | .clusterDrained cluster => Sys2Proof.Machine.execClusterDrained cluster s
  | .clusterDrainTimeout cluster => Sys2Proof.Machine.execClusterDrainTimeout cluster s
  | .clusterResetDone cluster => Sys2Proof.Machine.execClusterResetDone cluster s
  | .spareCheckDone cluster pass => Sys2Proof.Machine.execSpareCheckDone cluster pass s
  | .stewardResume => Sys2Proof.Machine.execStewardResume s
  | .faultMessageAccept => Sys2Proof.Machine.execFaultMessageAccept s
  | .blockResetRelease island => Sys2Proof.Machine.execBlockResetRelease island s
  | .chipReset => Sys2Proof.Machine.execChipReset s
  | .outboxOverrun island => Sys2Proof.Machine.execOutboxOverrun island s
  | .flitResend src dst => Sys2Proof.Machine.execFlitResend src dst s
  | .errNPulseEnd => Sys2Proof.Machine.execErrNPulseEnd s
  | .sillageCopy => Sys2Proof.Machine.execSillageCopy s
  | .serialReservationWrite issuer => Sys2Proof.Machine.execSerialReservationWrite issuer s
  | .cmdTail value => Sys2Proof.Machine.execCmdTail value s
  | .rplTail value => Sys2Proof.Machine.execRplTail value s
  | .d2hTail ring value => Sys2Proof.Machine.execD2hTail ring value s
  | .h2dTail ring value => Sys2Proof.Machine.execH2dTail ring value s
  | .cmdRingCtrl value => Sys2Proof.Machine.execCmdRingCtrl value s
  | .rplRingCtrl value => Sys2Proof.Machine.execRplRingCtrl value s
  | .faultCause value => Sys2Proof.Machine.execFaultCause value s
  | .eventCause value => Sys2Proof.Machine.execEventCause value s
  | .ringCauseD2h value => Sys2Proof.Machine.execRingCauseD2h value s
  | .ringCauseH2d value => Sys2Proof.Machine.execRingCauseH2d value s
  | .bar0Write offset size value => Sys2Proof.Machine.execBar0Write offset size value s
  | .bar2Write window offset bytes contiguous => Sys2Proof.Machine.execBar2Write window offset bytes contiguous s
  | .bar2Read window offset length => Sys2Proof.Machine.execBar2Read window offset length s
  | .windowIdleExpire window => Sys2Proof.Machine.execWindowIdleExpire window s
  | .i2cReplyRead => Sys2Proof.Machine.execI2cReplyRead s
  | .sysIdentity pkt => Sys2Proof.Machine.execSysIdentity pkt s
  | .sysSession pkt => Sys2Proof.Machine.execSysSession pkt s
  | .sysTimeRead pkt => Sys2Proof.Machine.execSysTimeRead pkt s
  | .sysTimeSet pkt => Sys2Proof.Machine.execSysTimeSet pkt s
  | .sysTimeStep pkt => Sys2Proof.Machine.execSysTimeStep pkt s
  | .sysTimeTrim pkt => Sys2Proof.Machine.execSysTimeTrim pkt s
  | .sysReset pkt => Sys2Proof.Machine.execSysReset pkt s
  | .sysResetExpire => Sys2Proof.Machine.execSysResetExpire s
  | .objRead pkt => Sys2Proof.Machine.execObjRead pkt s
  | .objWrite pkt => Sys2Proof.Machine.execObjWrite pkt s
  | .objStage pkt => Sys2Proof.Machine.execObjStage pkt s
  | .accordCommit pkt => Sys2Proof.Machine.execAccordCommit pkt s
  | .accordDiscard pkt => Sys2Proof.Machine.execAccordDiscard pkt s
  | .taskCreate pkt => Sys2Proof.Machine.execTaskCreate pkt s
  | .taskArm pkt => Sys2Proof.Machine.execTaskArm pkt s
  | .taskCancel pkt => Sys2Proof.Machine.execTaskCancel pkt s
  | .taskAbort pkt => Sys2Proof.Machine.execTaskAbort pkt s
  | .taskFree pkt => Sys2Proof.Machine.execTaskFree pkt s
  | .bufAlloc pkt => Sys2Proof.Machine.execBufAlloc pkt s
  | .bufFree pkt => Sys2Proof.Machine.execBufFree pkt s
  | .pktFree pkt => Sys2Proof.Machine.execPktFree pkt s
  | .lockTry pkt => Sys2Proof.Machine.execLockTry pkt s
  | .lockRelease pkt => Sys2Proof.Machine.execLockRelease pkt s
  | .lockClear pkt => Sys2Proof.Machine.execLockClear pkt s
  | .saStateRead pkt => Sys2Proof.Machine.execSaStateRead pkt s
  | .saStateSet pkt => Sys2Proof.Machine.execSaStateSet pkt s
  | .portOpen pkt => Sys2Proof.Machine.execPortOpen pkt s
  | .data pkt => Sys2Proof.Machine.execData pkt s
  | .portClose pkt => Sys2Proof.Machine.execPortClose pkt s
  | .portAbort pkt => Sys2Proof.Machine.execPortAbort pkt s
  | .tblInsert pkt => Sys2Proof.Machine.execTblInsert pkt s
  | .tblDelete pkt => Sys2Proof.Machine.execTblDelete pkt s
  | .tblLookup pkt => Sys2Proof.Machine.execTblLookup pkt s
  | .tblMacerate pkt => Sys2Proof.Machine.execTblMacerate pkt s
  | .tblResize pkt => Sys2Proof.Machine.execTblResize pkt s
  | .faultAck pkt => Sys2Proof.Machine.execFaultAck pkt s
  | .slotResolveDrop pkt => Sys2Proof.Machine.execSlotResolveDrop pkt s
  | .slotResolveReplay pkt => Sys2Proof.Machine.execSlotResolveReplay pkt s
  | .obsRead pkt => Sys2Proof.Machine.execObsRead pkt s
  | .obsSelect pkt => Sys2Proof.Machine.execObsSelect pkt s
  | .obsWindowRead pkt => Sys2Proof.Machine.execObsWindowRead pkt s
  | .obsThreshold pkt => Sys2Proof.Machine.execObsThreshold pkt s
  | .obsTraceStart pkt => Sys2Proof.Machine.execObsTraceStart pkt s
  | .obsTraceStop pkt => Sys2Proof.Machine.execObsTraceStop pkt s
  | .clusterDrain pkt => Sys2Proof.Machine.execClusterDrain pkt s
  | .clusterResume pkt => Sys2Proof.Machine.execClusterResume pkt s
  | .clusterReset pkt => Sys2Proof.Machine.execClusterReset pkt s
  | .spareCheck pkt => Sys2Proof.Machine.execSpareCheck pkt s
  | .clusterAdoptSpare pkt => Sys2Proof.Machine.execClusterAdoptSpare pkt s
  | .decant pkt => Sys2Proof.Machine.execDecant pkt s
  | .decantReturn pkt => Sys2Proof.Machine.execDecantReturn pkt s
  | .decantAbort pkt => Sys2Proof.Machine.execDecantAbort pkt s
  | .laneRecalBackground pkt => Sys2Proof.Machine.execLaneRecalBackground pkt s
  | .laneRecalFull pkt => Sys2Proof.Machine.execLaneRecalFull pkt s
  | .bankReplace pkt => Sys2Proof.Machine.execBankReplace pkt s
  | .queueFlush pkt => Sys2Proof.Machine.execQueueFlush pkt s
  | .extraitEnter pkt => Sys2Proof.Machine.execExtraitEnter pkt s
  | .extraitExit pkt => Sys2Proof.Machine.execExtraitExit pkt s
  | .extraitWindowExpire => Sys2Proof.Machine.execExtraitWindowExpire s
  | .extraitExitDone => Sys2Proof.Machine.execExtraitExitDone s
  | .imageStage pkt => Sys2Proof.Machine.execImageStage pkt s
  | .imageStageDone slot => Sys2Proof.Machine.execImageStageDone slot s
  | .imageActivate pkt => Sys2Proof.Machine.execImageActivate pkt s
  | .imageLoadDone corrupt => Sys2Proof.Machine.execImageLoadDone corrupt s
  | .bootFallback => Sys2Proof.Machine.execBootFallback s
  | .attest pkt => Sys2Proof.Machine.execAttest pkt s
  | .issuerSet pkt => Sys2Proof.Machine.execIssuerSet pkt s
  | .ownerKeySet pkt => Sys2Proof.Machine.execOwnerKeySet pkt s
  | .secConfig pkt => Sys2Proof.Machine.execSecConfig pkt s
  | .dbgHalt pkt => Sys2Proof.Machine.execDbgHalt pkt s
  | .dbgResume pkt => Sys2Proof.Machine.execDbgResume pkt s
  | .dbgStep pkt => Sys2Proof.Machine.execDbgStep pkt s
  | .dbgState pkt => Sys2Proof.Machine.execDbgState pkt s
  | .dbgChAbort pkt => Sys2Proof.Machine.execDbgChAbort pkt s
  | .dbgAbort pkt => Sys2Proof.Machine.execDbgAbort pkt s
  | .dbgBreak pkt => Sys2Proof.Machine.execDbgBreak pkt s
  | .faultInject pkt => Sys2Proof.Machine.execFaultInject pkt s
  | .bwWindowEnd => Sys2Proof.Machine.execBwWindowEnd s
  | .debugOp op params => Sys2Proof.Machine.execDebugOp op params s
  | .extest drive => Sys2Proof.Machine.execExtest drive s
  | .clamp drive => Sys2Proof.Machine.execClamp drive s
  | .highz => Sys2Proof.Machine.execHighz s
  | .samplePreload balls => Sys2Proof.Machine.execSamplePreload balls s
  | .bypass => Sys2Proof.Machine.execBypass s
  | .islandTempSample island temp => Sys2Proof.Machine.execIslandTempSample island temp s
  | .sensorSelfCheck island ok => Sys2Proof.Machine.execSensorSelfCheck island ok s
  | .clockUnlock island => Sys2Proof.Machine.execClockUnlock island s
  | .clockRelock island => Sys2Proof.Machine.execClockRelock island s
  | .islandRelockDone island => Sys2Proof.Machine.execIslandRelockDone island s
  | .governorGrant => Sys2Proof.Machine.execGovernorGrant s
  | .wearAccrue => Sys2Proof.Machine.execWearAccrue s
  | .ledgerWrite => Sys2Proof.Machine.execLedgerWrite s
  | .lockRegained lane => Sys2Proof.Machine.execLockRegained lane s
  | .remoteFaultCleared port => Sys2Proof.Machine.execRemoteFaultCleared port s
  | .ppsOutPulseEnd => Sys2Proof.Machine.execPpsOutPulseEnd s
  | .channelRetrainDone channel failedStep => Sys2Proof.Machine.execChannelRetrainDone channel failedStep s
  | .malformedPacket via bytes => Sys2Proof.Machine.execMalformedPacket via bytes s
  | .extraitEntryDone => Sys2Proof.Machine.execExtraitEntryDone s
  | .startupStepDone step result => Sys2Proof.Machine.execStartupStepDone step result s
  | .supplyRise rail => Sys2Proof.Machine.execSupplyRise rail s
  | .supplyFall rail => Sys2Proof.Machine.execSupplyFall rail s

end Sys2Proof.Machine
end

