-- ==== Sys2Proof/Machine/Tick.lean ====
section
/-! DEFINITION. One nanosecond of device time, which passes when no command waits: device time with its trim, thread timers, the
counters that count time, and the engines that work at a rate (DESIGN CHOICE, log 38). -/

namespace Sys2Proof.Machine

/-- Device time and the model's elapsed time move by 1 ns at the trimmed rate; `trim` is in units of 2⁻³² ns per ns. -/
def DevTime.tick (t : DevTime) : DevTime :=
  let step := (2 ^ 32 + t.trim).toNat
  let f := t.frac.toNat + step
  let e := t.efrac + step
  { t with ns := t.ns + BitVec.ofNat 64 (f / 2 ^ 32), frac := BitVec.ofNat 32 f, elapsed := t.elapsed + e / 2 ^ 32, efrac := e % 2 ^ 32 }

/-- The threads that a cluster lists, by number. -/
def State.listed (s : State) (c : Nat) : List Nat := (s.cl c).thread.map (fun e => c * 128 + e.1)

def State.timersFall (s : State) (n : Nat) : State :=
  ((List.range 26).filter (fun c => !s.inReset c)).foldl (fun (s : State) c => (s.listed c).foldl (fun (s : State) t => s.timerFalls n t) s) s

/-- An island's clock in MHz, which is thousandths of a cycle per ns; 1,800 in Extrait (R471). -/
def State.clockOf (s : State) (i : Nat) : Nat := if (s.isl i).extrait then 1800 else (s.isl i).freq.toNat

/-- Cycles of one running island (R148, R456). -/
def State.islandCycles (s : State) (i : Nat) : State :=
  if s.up i then
    let f := s.clockOf i
    let s := { s with obs := { s.obs with cycles := Store.modify 0 s.obs.cycles i (· + f) } }
    if i < 26 then s.modCl i (fun k => { k with mcycles := k.mcycles + f }) else s
  else s

/-! ### Slot categories (R462) -/

/-- The thread that names a core's unused slots: of the highest priority among those holding work, ties in rr order. -/
def State.slotThread (s : State) (c core : Nat) : Option Nat :=
  let busy := fun (p u : Nat) => let x := s.th (c * 128 + core * 16 + u); x.busy && x.prio.toNat == p
  ((([3, 2, 1, 0] : List Nat).flatMap (fun p =>
    let r := Store.get 0 (s.cl c).rrIssue (core * 4 + p)
    ((List.range 16).map (fun k => (r + k) % 16)).filter (busy p))).head?).map (fun u => c * 128 + core * 16 + u)

/-- Its category: NO_SYLLABLE for a thread whose next bundle is ready, else what it waits for. A helper's limit counts as HELPER, and an
aperture's crossing as MEMORY (DEDUCED, log 38). -/
def slotCategory (s : State) (t : Nat) : Nat :=
  let x := s.th t
  if x.halt != .none || x.trap.isSome then 0x29
  else match x.wait with
    | .ord _ => 0x26
    | .effect => 0x26
    | .wfe _ => 0x27
    | .chc _ _ _ => 0x27
    | .none =>
      let ys := (s.bundleAt t).1
      if bundleReady s t x.regs ys then 0x23
      else if x.helper.isSome && ys.any (fun y => y.reads.acc || y.reads.fl || y.writes.acc || y.writes.fl)
        || ys.any (fun y => y.cls == 2 && helperLimit y.helper ≤ hopCount s (t / 128) y.helper) then 0x24
      else if x.branches.any (·.late.isSome) || !(x.plain || (!ys.any (nonSpec x.regs) && x.branches.all (·.issued < 2))) then 0x28
      else 0x25

/-- Slots of a core counted so far, with those that an unresolved branch still holds. -/
def State.slotsCounted (s : State) (c core : Nat) : Nat :=
  ((span 0x20 0x2B).map (fun e => (Store.get ({} : Counter) s.obs.counter (counterKey (src c core) e)).count.toNat)).sum
    + (((s.cl c).thread.filter (fun e => e.1 / 16 == core)).map (fun e => (e.2.branches.map (·.slots)).sum)).sum

/-- Every slot of the cycles so far that no syllable has filled takes the category of the present (DEDUCED, log 38). -/
def State.countSlots (s : State) (c core : Nat) : State :=
  let want := 6 * (Store.get 0 s.obs.cycles c / 1000)
  let have' := s.slotsCounted c core
  if want ≤ have' then s
  else s.count (src c core) (match s.slotThread c core with | some t => slotCategory s t | none => 0x2A) (want - have')

def State.slotsPass (s : State) : State :=
  ((List.range 26).filter s.up).foldl (fun (s : State) c => (List.range 8).foldl (fun (s : State) k => s.countSlots c k) s) s

/-! ### Rates -/

/-- TIME_ABOVE of every slot at or above its LEVEL (R461). -/
def State.timeAbove (s : State) (n : Nat) : State :=
  { s with obs := { s.obs with thresh := s.obs.thresh.map (fun (e : Nat × Threshold) =>
      (e.1, if e.2.level ≠ 0 ∧ e.2.level.toNat ≤ e.2.last then { e.2 with above := e.2.above.add n } else e.2)) } }

/-- PREEMPT_NS (R456). -/
def State.preemptNs (s : State) (n : Nat) : State :=
  ((List.range 8).filter (fun c => s.up (43 + c) && (s.chan c).preempt)).foldl (fun (s : State) c => s.count (dramSrc c) 0x1F n) s

/-- The Decant mover copies at DECANT_RATE, in bytes per ns (R339). -/
def State.moverWorks (s : State) (n : Nat) : State :=
  match s.dram.decant with
  | some d =>
    if (d.phase = .copyOut ∨ d.phase = .copyBack ∨ d.phase = .aborting) ∧ s.moverRuns d then
      let b := d.part + n * s.param 0x11
      (s.modDecant (fun d => { d with part := b % 64 })).moveLines (b / 64)
    else s
  | none => s

/-- What follows the passing of `n` whole nanoseconds of elapsed time. -/
def State.afterNs (s : State) (n : Nat) : State :=
  if n = 0 then s else ((((s.timersFall n).timeAbove n).preemptNs n).moverWorks n).migrate

/-- One nanosecond passes in a device that runs; in any other state nothing does (R496). -/
def State.passNs (s : State) : State :=
  if s.deviceState = .running then
    let t := { s with time := s.time.tick }
    State.watch (State.debugWaits ((List.range 53).foldl (fun (s : State) i => s.islandCycles i) (t.afterNs (t.time.elapsed - s.time.elapsed))).slotsPass)
  else s

end Sys2Proof.Machine
end

