-- ==== Sys2Proof/Certificates/Slice0/Obligations.lean ====
section
/-! DEFINITION. What is stated about the machine, for the provers. A command's effect is stated as the next state that `exec` answers. -/

namespace Sys2Proof.Claims

open Sys2Proof.Machine

/-- The command answers the next state `t`; every answer compares the threshold slots with their occupancies (R461). -/
def gives (c : Instr) (s t : State) : Prop := exec c s = .next t.watch

/-- The command answers a next state of which `p` holds. -/
def givesSome (c : Instr) (s : State) (p : State → Prop) : Prop := ∃ t, exec c s = .next t ∧ p t

end Sys2Proof.Claims

open Sys2Proof Sys2Proof.Machine Sys2Proof.Claims

/-- A step takes the command at the front of the queue and runs it on the state with the rest of the queue. -/
def Obligations.StepRunsFrontCommand : Prop :=
  ∀ (c : Instr) (rest : List Instr) (s : State),
    step { s with pending := c :: rest } = exec c { s with pending := rest }

/-- Every command answers a next state: none ends in a fault or a refusal (log 9). -/
def Obligations.EveryCommandAnswersNext : Prop :=
  ∀ (c : Instr) (s : State), ∃ t, exec c s = .next t

/-- PWR_GOOD, RESET_N and the supplies (R496, R497, R506, R515, R478): what each change does. -/
def Obligations.PowerAndResetPinsAct : Prop :=
  (∀ s : State, s.pins.pwrGood = false →
    gives .pwrGoodRise s { s with pins := { s.pins with pwrGood := true, fieldMode := s.pins.fieldEl } }) ∧
  (∀ s : State, s.pins.pwrGood = true →
    givesSome .pwrGoodFall s (fun t => t.pins.pwrGood = false ∧ t.dram = {} ∧ t.startup = {} ∧ t.faults = {} ∧ t.live = []
      ∧ (∀ i, t.inReset i = true) ∧ t.sec.flash = s.sec.flash ∧ t.sec.lifecycle = s.sec.lifecycle ∧ t.sec.ownerKey = s.sec.ownerKey)) ∧
  (∀ s : State, s.pins.resetN = false → s.pins.pwrGood = true →
    givesSome .resetNRise s (fun t => t.pins = { s.pins with resetN := true } ∧ t.startup = { running := true }
      ∧ t.up 51 = true ∧ t.up 52 = true ∧ (∀ i < 51, t.isl i = s.isl i) ∧ t.sec = s.sec ∧ t.faults = s.faults)) ∧
  (∀ s : State, s.pins.resetN = true → s.pins.pwrGood = true →
    givesSome .resetNFall s (fun t => t.pins.resetN = false ∧ t.pins.therm = (s.pins.therm && !s.pins.tripHot.isEmpty)
      ∧ t.startup = {} ∧ (∀ i, t.inReset i = true) ∧ t.live = [] ∧ t.faults.sillage = s.faults.sillage ∧ t.faults.nextSeq = s.faults.nextSeq
      ∧ t.faults.capture = s.faults.capture ∧ t.faults.resetCause = 0x10000000 ∧ t.faults.errHold = false
      ∧ t.sec.flash = s.sec.flash)) ∧
  (∀ (s : State) (r : Rail), r ∉ s.pins.rails →
    gives (.supplyRise r) s { s with pins := { s.pins with rails := s.pins.rails ++ [r] } }) ∧
  (∀ (s : State) (r : Rail), r ∈ s.pins.rails →
    givesSome (.supplyFall r) s (fun t => t.pins.rails = s.pins.rails.filter (· != r)
      ∧ (r = .core ∨ r = .io18 → t.pins.therm = false)))


/-! ### Instructions of a thread -/

namespace Sys2Proof.Claims

/-- The thread a syllable names. -/
def tidOf (y : Syl) : Nat := threadNo ⟨y.cluster, y.core, y.thread⟩

/-- The syllable of a class and opcode with a command's fields. -/
def sylRaw (y : Syl) (cls op : Nat) : RawSyl := { cls := BitVec.ofNat 2 cls, op := BitVec.ofNat 7 op, fields := y.fields }

/-- The syllable, alone in its bundle, is ready: its thread exists, may issue and holds no earlier syllable of the bundle (R114,
R115), no breakpoint or uncorrectable word stands at its PC, decode admits it in the cluster's mode (R169, R171), its operands
have landed and are readable and aligned (R114, R158, R159, R185), and it need not wait for an acknowledgement of its first
effect (R90). -/
def Ready (s : State) (y : Syl) (cls op : Nat) : Prop :=
  let t := tidOf y
  let r := (s.th t).regs
  let z := sylRaw y cls op
  threadOk ⟨y.cluster, y.core, y.thread⟩ = true ∧ y.stop = true ∧ (s.th t).bundle = [] ∧ s.mayIssue t = true ∧ s.breakHit t = false
    ∧ bankBad s t ((s.th t).pc.toNat % 65536) = false
    ∧ decodeFrom (s.service (t / 128)) (s.copy (s.th t).accord).dtab 0 [z] = .ok
    ∧ bundleReady s t r [z] = true ∧ execFault s t r z = none
    ∧ ((s.th t).effected = true ∨ isEffect s t r z = false)

/-- It is ready and executes at once: no WFE without its event, no ORD of a point not passed, no CHC without room (R120, R127,
R191). -/
def Executes (s : State) (y : Syl) (cls op : Nat) : Prop := Ready s y cls op ∧ s.beginsWait (tidOf y) [sylRaw y cls op] = none

/-- Every thread but `t` is as before. -/
def othersSame (s u : State) (t : Nat) : Prop := ∀ k, k ≠ t → u.th k = s.th k

/-- The clusters are as before but for their threads and the pointers that choose the next thread to issue: their memories,
channels, credits, helpers, breakpoints and marks. -/
def clustersSame (s u : State) : Prop :=
  ∀ c, { u.cl c with thread := [], rrIssue := [] } = { s.cl c with thread := [], rrIssue := [] }

/-- Outside the clusters and the observation counters nothing changes: no memory, no message, no object, no block. -/
def outsideSame (s u : State) : Prop := u = { s with clusters := u.clusters, obs := u.obs }

/-- Thread `t` is past one syllable and is otherwise `x`; every other thread is as before. -/
def past (s u : State) (t : Nat) (x : Thread) : Prop :=
  u.th t = { x with pc := (s.th t).pc + 1, waitSyls := [], bpPass := false, branches := (u.th t).branches } ∧ othersSame s u t

/-- The thread's registers are now `r`, its PC has gone past the syllable, and neither the rest of the thread nor another thread,
a cluster or the rest of the device has changed. -/
def ran (s u : State) (t : Nat) (r : Regs) : Prop :=
  past s u t { s.th t with regs := r } ∧ clustersSame s u ∧ outsideSame s u

/-- What an A-class instruction that writes FL computes from acc, the operand and FL: result, C and V (R178, R179, R181). -/
abbrev AluRow := W64 → W64 → Fl → W64 × Bool × Bool

/-- A signed result lies outside the signed 64-bit range. -/
def outside64 (i : Int) : Bool := decide (i < -(2 ^ 63) ∨ 2 ^ 63 ≤ i)

/-- The count of a shift or rotate, operand bits [6:0] (R181). -/
def countOf (b : W64) : Nat := b.toNat % 128

/-- The A-class instructions of R179 that write ACC and FL. -/
def aluRows : List ((Syl → Instr) × Nat × AluRow) := [
  (.mov, 0x01, fun _ b f => (b, flC f, flV f)),
  (.add, 0x02, fun a b _ => (a + b, decide (2 ^ 64 ≤ a.toNat + b.toNat), outside64 (a.toInt + b.toInt))),
  (.adc, 0x03, fun a b f => (a + b + BitVec.ofNat 64 (b2n (flC f)), decide (2 ^ 64 ≤ a.toNat + b.toNat + b2n (flC f)),
    outside64 (a.toInt + b.toInt + b2n (flC f)))),
  (.sub, 0x04, fun a b _ => (a - b, decide (b.toNat ≤ a.toNat), outside64 (a.toInt - b.toInt))),
  (.sbc, 0x05, fun a b f => (a - b - BitVec.ofNat 64 (1 - b2n (flC f)), decide (b.toNat + (1 - b2n (flC f)) ≤ a.toNat),
    outside64 (a.toInt - b.toInt - (1 - b2n (flC f) : Nat)))),
  (.rsb, 0x06, fun a b _ => (b - a, decide (a.toNat ≤ b.toNat), outside64 (b.toInt - a.toInt))),
  (.neg, 0x07, fun a _ _ => (0 - a, a == 0, a == BitVec.intMin 64)),
  (.and, 0x0A, fun a b _ => (a &&& b, false, false)),
  (.or, 0x0B, fun a b _ => (a ||| b, false, false)),
  (.xor, 0x0C, fun a b _ => (a ^^^ b, false, false)),
  (.andn, 0x0D, fun a b _ => (a &&& ~~~b, false, false)),
  (.shl, 0x10, fun a b _ => let n := countOf b
    if n = 0 then (a, false, false) else if n < 64 then (a <<< n, a.getLsbD (64 - n), false)
    else if n = 64 then (0, a.getLsbD 0, false) else (0, false, false)),
  (.shr, 0x11, fun a b _ => let n := countOf b
    if n = 0 then (a, false, false) else if n < 64 then (a >>> n, a.getLsbD (n - 1), false)
    else if n = 64 then (0, a.msb, false) else (0, false, false)),
  (.sar, 0x12, fun a b _ => let n := countOf b
    if n = 0 then (a, false, false) else if n < 64 then (a.sshiftRight n, a.getLsbD (n - 1), false)
    else (if a.msb then BitVec.allOnes 64 else 0, a.msb, false)),
  (.rol, 0x13, fun a b _ => let n := countOf b % 64
    if n = 0 then (a, false, false) else (a.rotateLeft n, (a.rotateLeft n).getLsbD 0, false)),
  (.ror, 0x14, fun a b _ => let n := countOf b % 64
    if n = 0 then (a, false, false) else (a.rotateRight n, (a.rotateRight n).msb, false)),
  (.mul, 0x18, fun a b _ => (a * b, decide (2 ^ 64 - 1 < a.toNat * b.toNat), outside64 (a.toInt * b.toInt))),
  (.mulh, 0x19, fun a b _ => (BitVec.ofInt 64 (a.toInt * b.toInt / 2 ^ 64), false, false)),
  (.mulhu, 0x1A, fun a b _ => (BitVec.ofNat 64 (a.toNat * b.toNat / 2 ^ 64), false, false)),
  (.min, 0x20, fun a b _ => (if a.toInt ≤ b.toInt then a else b, false, false)),
  (.max, 0x21, fun a b _ => (if a.toInt ≤ b.toInt then b else a, false, false)),
  (.minu, 0x22, fun a b _ => (if a.toNat ≤ b.toNat then a else b, false, false)),
  (.maxu, 0x23, fun a b _ => (if a.toNat ≤ b.toNat then b else a, false, false)),
  (.sext, 0x28, fun a b _ => ((a.setWidth b.toNat).signExtend 64, false, false)),
  (.zext, 0x29, fun a b _ => ((a.setWidth b.toNat).setWidth 64, false, false)),
  (.bswap, 0x2A, fun a _ _ => (a.extractLsb' 0 8 ++ a.extractLsb' 8 8 ++ a.extractLsb' 16 8 ++ a.extractLsb' 24 8
    ++ a.extractLsb' 32 8 ++ a.extractLsb' 40 8 ++ a.extractLsb' 48 8 ++ a.extractLsb' 56 8, false, false)),
  (.popc, 0x2B, fun a _ _ => (BitVec.ofNat 64 ((List.range 64).countP (fun i => a.getLsbD i)), false, false)),
  (.clz, 0x2C, fun a _ _ =>
    (BitVec.ofNat 64 ((List.range 64).takeWhile (fun i => !a.getLsbD (63 - i))).length, false, false)),
  (.ctz, 0x2D, fun a _ _ =>
    (BitVec.ofNat 64 ((List.range 64).takeWhile (fun i => !a.getLsbD i)).length, false, false))]

/-- CMP and TST: the flags of a difference and of a conjunction. -/
def compareRows : List ((Syl → Instr) × Nat × AluRow) := [
  (.cmp, 0x08, fun a b _ => (a - b, decide (b.toNat ≤ a.toNat), outside64 (a.toInt - b.toInt))),
  (.tst, 0x0E, fun a b _ => (a &&& b, false, false))]

/-- XMOVA, XMOVB, XADDA, XADDB: the index registers after the instruction, from XA, XB and the operand's low 32 bits. -/
def indexRows : List ((Syl → Instr) × Nat × (W32 → W32 → W32 → W32 × W32)) := [
  (.xmova, 0x30, fun _ b v => (v, b)), (.xmovb, 0x31, fun a _ v => (a, v)),
  (.xadda, 0x32, fun a b v => (a + v, b)), (.xaddb, 0x33, fun a b v => (a, b + v))]

end Sys2Proof.Claims

/-- R178, R179, R181: each A-class instruction that writes ACC and FL computes its row of the table from acc and its operand, sets Z
and N from the 64-bit result and C and V as the row gives, and moves PC past itself; XA, XB, the frame, every other thread and
every memory stay as they were. -/
def Sys2Proof.Claims.AluInstructionsComputeResultAndFlags : Prop :=
  ∀ row ∈ aluRows, ∀ (y : Syl) (s : State), Executes s y 0 row.2.1 →
    let t := tidOf y
    let r := (s.th t).regs
    let v := row.2.2 r.acc (aOperand s t r (sylRaw y 0 row.2.1)) r.fl
    givesSome (row.1 y) s (fun u => ran s u t { r with acc := v.1, fl := mkFl (v.1 == 0) v.1.msb v.2.1 v.2.2 })

/-- R178: CMP and TST set Z and N from the result they compute and C and V as their rows give, and write no register. -/
def Sys2Proof.Claims.CompareAndTestWriteOnlyFlags : Prop :=
  ∀ row ∈ compareRows, ∀ (y : Syl) (s : State), Executes s y 0 row.2.1 →
    let t := tidOf y
    let r := (s.th t).regs
    let v := row.2.2 r.acc (aOperand s t r (sylRaw y 0 row.2.1)) r.fl
    givesSome (row.1 y) s (fun u => ran s u t { r with fl := mkFl (v.1 == 0) v.1.msb v.2.1 v.2.2 })

/-- R180: XMOVA and XMOVB set XA or XB to the operand's low 32 bits, XADDA and XADDB add them modulo 2³²; none of them writes a
flag, ACC, the other index register or anything outside its thread. -/
def Sys2Proof.Claims.IndexInstructionsWriteIndexRegisters : Prop :=
  ∀ row ∈ indexRows, ∀ (y : Syl) (s : State), Executes s y 0 row.2.1 →
    let t := tidOf y
    let r := (s.th t).regs
    let x := row.2.2 r.xa r.xb ((aOperand s t r (sylRaw y 0 row.2.1)).setWidth 32)
    givesSome (row.1 y) s (fun u => ran s u t { r with xa := x.1, xb := x.2 })

/-- The register and index instructions of the A slots: results, flags and index registers. -/
def Obligations.RegisterInstructionsComputeResultAndFlags : Prop := Claims.AluInstructionsComputeResultAndFlags ∧ Claims.CompareAndTestWriteOnlyFlags ∧ Claims.IndexInstructionsWriteIndexRegisters


/-! ### Loads, stores and custom instructions -/

namespace Sys2Proof.Claims

/-- Outside the clusters only the crossings and the next identity have changed: one message has been sent from island `a` to `b`. -/
def sent (s u : State) (a b : Nat) (m : Msg) : Prop :=
  u = { s with clusters := u.clusters, obs := u.obs, net := s.net ++ [⟨a, b, m⟩], nextId := s.nextId + 1 }

/-- As `clustersSame`, but for marks of uncorrectable words, which a store of a whole word clears. -/
def clustersSameButMarks (s u : State) : Prop :=
  ∀ c, { u.cl c with thread := [], rrIssue := [], bad := [] } = { s.cl c with thread := [], rrIssue := [], bad := [] }

/-- The memory `m'` is `m` with the `n` low bytes of `v` stored at `a`, the least significant at the lowest address: every other
byte reads as before. -/
def storedAt (m m' : Mem) (a n v : Nat) : Prop :=
  ∀ k, mget m' k = if a ≤ k ∧ k < a + n then BitVec.ofNat 8 (v / 256 ^ (k - a)) else mget m k

/-- The operand size in bytes of an M-class syllable. -/
def mSize (z : RawSyl) : Nat := 2 ^ z.f 19 18

/-- A load's value in a register: sign- or zero-extended. -/
def widened (sgn : Bool) (n v : Nat) : W64 := if sgn then (BitVec.ofNat (8 * n) v).signExtend 64 else BitVec.ofNat 64 v

/-- LD and LDS, FLD and FLDS: constructor, opcode, and whether the value is sign-extended. -/
def nearLoads : List ((Syl → Instr) × Nat × Bool) := [(.ld, 0x01, false), (.lds, 0x02, true)]
def farLoads : List ((Syl → Instr) × Nat × Bool) := [(.fld, 0x08, false), (.flds, 0x09, true)]

/-- The load that an M-class syllable begins: the next identity, its register, size and sign extension. -/
def loadOf (s : State) (z : RawSyl) (sgn : Bool) : Load :=
  { id := s.nextId, reg := BitVec.ofNat 2 (z.f 21 20), size := BitVec.ofNat 2 (z.f 19 18), signed := sgn }

/-- The thread with one more outstanding load, or one more counted write. -/
def withLoad (x : Thread) (l : Load) : Thread := { x with loads := x.loads ++ [l] }
def withStore (x : Thread) (id isl : Nat) : Thread := { x with stores := x.stores ++ [{ id := id, isl := isl }] }

/-- A request to memory by the thread. -/
def request (s : State) (t : Nat) (kind : AccKind) (a : Nat) (size : BitVec 2) (d d2 : W64) : Msg :=
  .mem { id := s.nextId, thread := t, tag := (s.th t).accord, kind := kind, addr := a, size := size, data := d, data2 := d2,
         record := (s.th t).record, gen := (s.th t).gen, sc := if (s.th t).task then 2 else 1 }

end Sys2Proof.Claims

/-- R184, R185: a load makes one outstanding load of its register. A near load outside the aperture takes its bytes, little-endian
and extended, at issue; a load of the aperture or of device DRAM sends its request to the bank's slice or to the address's home
channel. No memory and no register changes. -/
def Obligations.LoadsBeginWithTheirBytesOrRequest : Prop :=
  (∀ row ∈ nearLoads, ∀ (y : Syl) (s : State), Executes s y 1 row.2.1 →
    let t := tidOf y
    let z := sylRaw y 1 row.2.1
    let a := nearAddr (s.th t).regs z
    let size := BitVec.ofNat 2 (z.f 19 18)
    (inAperture a = false → givesSome (row.1 y) s (fun u =>
      past s u t (withLoad (s.th t) { loadOf s z row.2.2 with value := some (widened row.2.2 (mSize z) (nearValue s t (s.th t).regs a (mSize z)), none), ecc := nearBad s t a (mSize z) })
        ∧ clustersSame s u ∧ u = { s with clusters := u.clusters, obs := u.obs, nextId := s.nextId + 1 })) ∧
    (inAperture a = true → givesSome (row.1 y) s (fun u =>
      past s u t (withLoad (s.th t) { loadOf s z row.2.2 with remote := true, isl := apertureIsland a })
        ∧ clustersSame s u ∧ sent s u (t / 128) (apertureIsland a) (request s t .load a size 0 0)))) ∧
  (∀ row ∈ farLoads, ∀ (y : Syl) (s : State), Executes s y 1 row.2.1 →
    let t := tidOf y
    let z := sylRaw y 1 row.2.1
    let a := farAddr (s.th t).regs
    let size := BitVec.ofNat 2 (z.f 19 18)
    givesSome (row.1 y) s (fun u =>
      past s u t (withLoad (s.th t) { loadOf s z row.2.2 with remote := true, isl := 43 + s.homeChannel a })
        ∧ clustersSame s u ∧ sent s u (t / 128) (43 + s.homeChannel a) (request s t .load a size 0 0))) ∧
  (∀ (y : Syl) (s : State), Executes s y 1 0x30 →
    let t := tidOf y
    givesSome (.ldp y) s (fun u =>
      past s u t (withLoad (s.th t) { loadOf s (sylRaw y 1 0x30) false with reg := 0, size := 3, value := some (BitVec.ofNat 64 (bankWord s (s.th t).accord ((s.th t).regs.xa.toNat % 65536)), none) })
        ∧ clustersSame s u ∧ u = { s with clusters := u.clusters, obs := u.obs, nextId := s.nextId + 1 }))

/-- R158, R161, R163, R184, R255: a near store writes its bytes, least significant at the lowest address, to the frame, to the
core's or cluster's shared memory (held while a branch is unresolved), or to a register of the event block; a store to the aperture
or to device DRAM, and CNT, count one outstanding write and send their request. Every other byte of near memory is unchanged. -/
def Obligations.StoresWriteTheirBytesOrSendTheirRequest : Prop :=
  (∀ (y : Syl) (s : State), Executes s y 1 0x03 →
    let t := tidOf y
    let z := sylRaw y 1 0x03
    let r := (s.th t).regs
    let a := nearAddr r z
    let n := mSize z
    let v := regVal r (z.f 21 20)
    (∀ o, region a = .frame o → givesSome (.st y) s (fun u =>
      past s u t { s.th t with regs := { r with frame := (u.th t).regs.frame } } ∧ storedAt r.frame (u.th t).regs.frame o n v
        ∧ clustersSameButMarks s u)) ∧
    (∀ o, region a = .core o → (s.th t).branches = [] → givesSome (.st y) s (fun u =>
      past s u t (s.th t) ∧ storedAt (s.cl (t / 128)).coreMem (u.cl (t / 128)).coreMem (coreOf t * 32768 + o) n v
        ∧ (u.cl (t / 128)).clMem = (s.cl (t / 128)).clMem
        ∧ (∀ c, c ≠ t / 128 → u.cl c = s.cl c))) ∧
    (∀ o, region a = .cluster o → (s.th t).branches = [] → givesSome (.st y) s (fun u =>
      past s u t (s.th t) ∧ storedAt (s.cl (t / 128)).clMem (u.cl (t / 128)).clMem o n v
        ∧ (u.cl (t / 128)).coreMem = (s.cl (t / 128)).coreMem
        ∧ (∀ c, c ≠ t / 128 → u.cl c = s.cl c))) ∧
    (∀ o, region a = .core o ∨ region a = .cluster o → (s.th t).branches ≠ [] → givesSome (.st y) s (fun u =>
      past s u t (s.th t) ∧ (u.th t).heldStores = (s.th t).heldStores ++ [(a, leBytes n v)] ∧ clustersSame s u)) ∧
    (∀ o, region a = .events o → givesSome (.st y) s (fun u =>
      ran { s with nextId := s.nextId + 1 } u t (eventWrite r o (v % 256 ^ n)))) ∧
    (inAperture a = true → givesSome (.st y) s (fun u =>
      past s u t (withStore (s.th t) s.nextId (apertureIsland a)) ∧ clustersSame s u
        ∧ sent s u (t / 128) (apertureIsland a) (request s t .store a (BitVec.ofNat 2 (z.f 19 18)) (BitVec.ofNat 64 v) 0)))) ∧
  (∀ (y : Syl) (s : State), Executes s y 1 0x0A →
    let t := tidOf y
    let z := sylRaw y 1 0x0A
    let r := (s.th t).regs
    givesSome (.fst y) s (fun u =>
      past s u t (withStore (s.th t) s.nextId (43 + s.homeChannel (farAddr r))) ∧ clustersSame s u
        ∧ sent s u (t / 128) (43 + s.homeChannel (farAddr r))
            (request s t .store (farAddr r) (BitVec.ofNat 2 (z.f 19 18)) (BitVec.ofNat 64 (regVal r (z.f 21 20))) 0))) ∧
  (∀ (y : Syl) (s : State), Executes s y 1 0x18 →
    let t := tidOf y
    let r := (s.th t).regs
    givesSome (.cnt y) s (fun u =>
      past s u t (withStore (s.th t) s.nextId (apertureIsland r.xa.toNat)) ∧ clustersSame s u
        ∧ sent s u (t / 128) (apertureIsland r.xa.toNat) (request s t .cnt r.xa.toNat 3 r.acc 0)))


/-! ### Helpers and custom instructions -/

namespace Sys2Proof.Claims

/-- The helper operations of R217 to R229: constructor and opcode, unit × 16 + operation. -/
def helperRows : List ((Syl → Instr) × Nat) := [
  (.lkp, 0x00), (.lkpw, 0x01), (.ins, 0x02), (.del, 0x03), (.crc32, 0x10), (.crc32c, 0x11), (.tplz, 0x12), (.siph, 0x13),
  (.sum, 0x20), (.inc16, 0x21), (.inc32, 0x22), (.ext, 0x30), (.bfxIns, 0x31), (.extw, 0x32), (.divs, 0x40), (.divu, 0x41),
  (.rems, 0x42), (.remu, 0x43), (.now, 0x50), (.nowf, 0x51), (.tadd, 0x52), (.tdiff, 0x53), (.tpast, 0x54), (.tsec, 0x55),
  (.tnsec, 0x56), (.rdc, 0x60), (.wrc, 0x61), (.head, 0x62), (.trim, 0x63), (.pfree, 0x64), (.balloc, 0x65), (.bfree, 0x66),
  (.brd, 0x67), (.bwr, 0x68), (.kexp, 0x70), (.gctr, 0x71), (.ghm, 0x72), (.shb, 0x73)]

/-- The operation a helper takes from a syllable: its identity, its thread, its operands as they stood before the bundle, and the
work it belongs to. -/
def handed (s : State) (t : Nat) (z : RawSyl) (h : HelperOp) : Prop :=
  let x := s.th t
  h.id = s.nextId ∧ h.thread = t % 128 ∧ h.unit.toNat = z.helper ∧ h.op.toNat = z.hop ∧ h.fields = z.fields ∧ h.cancelled = false
    ∧ h.acc = x.regs.acc ∧ h.xa = x.regs.xa ∧ h.xb = x.regs.xb ∧ h.tag = x.accord ∧ h.record = x.record ∧ h.gen = x.gen

/-- One operation more waits in the cluster's helpers, and nothing else of any cluster's memories and channels has changed. -/
def oneMore (s u : State) (t : Nat) (h : HelperOp) : Prop :=
  (u.cl (t / 128)).hops = (s.cl (t / 128)).hops ++ [h] ∧ (u.cl (t / 128)).coreMem = (s.cl (t / 128)).coreMem
    ∧ (u.cl (t / 128)).clMem = (s.cl (t / 128)).clMem ∧ (u.cl (t / 128)).chan = (s.cl (t / 128)).chan
    ∧ ∀ c, c ≠ t / 128 → u.cl c = s.cl c

/-- The divisor that SRC selects (R222): XA:XB, XB zero- or sign-extended, or FIELDS [19:0] sign-extended. -/
def divisorOf (z : RawSyl) (r : Regs) : W64 :=
  if z.f 21 20 = 0 then r.xa ++ r.xb else if z.f 21 20 = 1 then r.xb.setWidth 64 else if z.f 21 20 = 2 then r.xb.signExtend 64
  else (z.fields.setWidth 20).signExtend 64

/-- A division's result and flags (R183): a zero divisor gives `zero` with V and C set; min64 by −1 sets V of a signed one. -/
def divided (z : RawSyl) (r : Regs) (sgn : Bool) (zero : W64) (v : W64 → W64 → W64) : W64 × Bool × Bool :=
  let d := divisorOf z r
  if d = 0 then (zero, true, true) else (v r.acc d, false, sgn && r.acc == BitVec.intMin 64 && d == BitVec.allOnes 64)

/-- A bit field of a value, extended (R221). -/
def fieldOf (z : RawSyl) (v : W64) : W64 :=
  let w := z.f 15 10 + 1
  if z.f 9 9 = 1 then ((v >>> z.f 21 16).setWidth w).signExtend 64 else ((v >>> z.f 21 16).setWidth w).setWidth 64

/-- Helper operations on registers alone: result, C and V from the registers as they stood before the bundle. -/
def resultRows : List ((Syl → Instr) × Nat × (RawSyl → Regs → W64 × Bool × Bool)) := [
  (.divs, 0x40, fun z r => divided z r true 0 (fun a d => BitVec.ofInt 64 (a.toInt.tdiv d.toInt))),
  (.divu, 0x41, fun z r => divided z r false 0 (fun a d => a / d)),
  (.rems, 0x42, fun z r => divided z r true r.acc (fun a d => BitVec.ofInt 64 (a.toInt.tmod d.toInt))),
  (.remu, 0x43, fun z r => divided z r false r.acc (fun a d => a % d)),
  (.ext, 0x30, fun z r => (fieldOf z r.acc, false, false)),
  (.tadd, 0x52, fun _ r => (r.acc + (r.xa ++ r.xb), false, outside64 (r.acc.toInt + (r.xa ++ r.xb).toInt))),
  (.tsec, 0x55, fun _ r => (r.acc / 1000000000, false, false)), (.tnsec, 0x56, fun _ r => (r.acc % 1000000000, false, false))]

end Sys2Proof.Claims

/-- R187, R209: an H-class instruction hands one operation, with the registers as they stood before its bundle, to the helper its
opcode names; ACC and FL become pending on it, and no register, near byte, other thread or other cluster changes. -/
def Sys2Proof.Claims.HelperInstructionsHandOverOperands : Prop :=
  ∀ row ∈ helperRows, ∀ (y : Syl) (s : State), Executes s y 2 row.2 →
    let t := tidOf y
    givesSome (row.1 y) s (fun u =>
      past s u t { s.th t with helper := some s.nextId } ∧ (∃ h, oneMore s u t h ∧ handed s t (sylRaw y 2 row.2) h)
        ∧ u = { s with clusters := u.clusters, obs := u.obs, nextId := s.nextId + 1 })

/-- R183, R213, R221, R222, R223: what the helper operations on registers alone return: quotients and remainders with their edge
cases, a bit field, a sum of times, seconds and nanoseconds; Z and N are of the result. -/
def Sys2Proof.Claims.HelperResultsOfRegisterOperations : Prop :=
  ∀ row ∈ resultRows, ∀ (y : Syl) (s : State), Executes s y 2 row.2.1 →
    let t := tidOf y
    let v := row.2.2 (sylRaw y 2 row.2.1) (s.th t).regs
    givesSome (row.1 y) s (fun u => ∃ h, oneMore s u t h
      ∧ h.res = some { acc := v.1, fl := mkFl (v.1 == 0) v.1.msb v.2.1 v.2.2 })

/-- R223: the readings of now that NOW, NOWF, TDIFF and TPAST return. A reading never falls below the cluster's last one, and lies
within 2 ns of device time unless it repeats that one.
The model's own choices in it: log 11. -/
def Obligations.TimeReadingsStayNearDeviceTimeAndNeverFall : Prop :=
  ∀ (y : Syl) (s : State),
    let t := tidOf y
    let acc := (s.th t).regs.acc
    let reading (u : State) (now : Nat) : Prop := (u.cl (t / 128)).lastNow = now ∧ (s.cl (t / 128)).lastNow ≤ now
      ∧ (now = (s.cl (t / 128)).lastNow ∨ (now ≤ s.time.ns.toNat + 2 ∧ s.time.ns.toNat ≤ now + 2))
    let returned (u : State) (v : W64) (c o : Bool) : Prop := ∃ h, oneMore s u t h
      ∧ h.res = some { acc := v, fl := mkFl (v == 0) v.msb c o }
    (Executes s y 2 0x50 → givesSome (.now y) s (fun u => ∃ now, reading u now ∧ returned u (BitVec.ofNat 64 now) false false)) ∧
    (Executes s y 2 0x51 → givesSome (.nowf y) s (fun u =>
      ∃ now f, reading u now ∧ (u.cl (t / 128)).lastFrac = f ∧ (f = s.time.frac ∨ (now = (s.cl (t / 128)).lastNow ∧ f = (s.cl (t / 128)).lastFrac))
        ∧ ((s.cl (t / 128)).lastNow < now ∨ (s.cl (t / 128)).lastFrac.toNat ≤ f.toNat) ∧ returned u (BitVec.ofNat 32 now ++ f) false false)) ∧
    (Executes s y 2 0x53 → givesSome (.tdiff y) s (fun u => ∃ now, reading u now
      ∧ returned u (BitVec.ofNat 64 now - acc) false (outside64 ((BitVec.ofNat 64 now).toInt - acc.toInt)))) ∧
    (Executes s y 2 0x54 → givesSome (.tpast y) s (fun u => ∃ now, reading u now
      ∧ returned u (BitVec.ofNat 64 now) (decide (acc.toNat ≤ (BitVec.ofNat 64 now).toNat)) false))

/-- R206, R207: a custom instruction takes effect all at once as its decode table entry says. With no store its registers are those
its steps leave, XA and XB in 32 bits, and nothing else changes; its stores to the frame are made in order; one that has read an
uncorrectable aperture word poisons its record. -/
def Obligations.CustomInstructionsRunTheirEntry : Prop :=
  ∀ row ∈ ([(.customA, 0), (.customM, 1)] : List ((Syl → BitVec 4 → Instr) × Nat)), ∀ (y : Syl) (n : BitVec 4) (s : State),
    Executes s y row.2 (0x70 + n.toNat) →
    let t := tidOf y
    let r := (s.th t).regs
    let m := customRun s t r (sylRaw y row.2 (0x70 + n.toNat))
    let q : Regs := { r with acc := m.reg 0, xa := (m.reg 1).setWidth 32, xb := (m.reg 2).setWidth 32, fl := m.fl }
    (m.poison = false → m.stores = [] → givesSome (row.1 y n) s (fun u => ran s u t q)) ∧
    (m.poison = false → (∀ e ∈ m.stores, ∃ o, region e.1 = .frame o) → givesSome (row.1 y n) s (fun u =>
      past s u t { s.th t with regs := { q with frame := m.stores.foldl (fun f e => mwrite f e.1 e.2) r.frame } }
        ∧ clustersSameButMarks s u ∧ outsideSame { s with fresh := u.fresh } u)) ∧
    (m.poison = true → m.stores = [] → (s.th t).branches = [] → givesSome (row.1 y n) s (fun u =>
      past s u t { s.th t with regs := q } ∧ clustersSame s u
        ∧ u.net = s.net ++ [⟨t / 128, 26, .poison t (s.th t).record (s.th t).gen⟩]))

/-- Helper instructions: what is handed over, and what the helpers over registers compute. -/
def Obligations.HelperInstructionsHandOverAndReturn : Prop := Claims.HelperInstructionsHandOverOperands ∧ Claims.HelperResultsOfRegisterOperations


/-! ### Control, events, channels, ordered points, locks and atomics -/

namespace Sys2Proof.Claims

/-- Whether a branch condition holds under Z, N, C and V (R156): 0x0 always, and from 0x2 upwards in pairs, the odd member the
inverse of the even one. -/
def condition (code : Nat) (f : Fl) : Bool :=
  if code = 0 then true else
    xor (code % 2 == 1) (match code / 2 with
      | 1 => flZ f | 2 => flN f | 3 => flC f | 4 => flV f | 5 => flC f && !flZ f | 6 => flN f == flV f
      | _ => !flZ f && flN f == flV f)

/-- The branch instructions but CALL and BHB: constructor, opcode, whether it is taken and where it goes. -/
def branchRows : List ((Syl → Instr) × Nat × (State → Nat → RawSyl → Bool) × (Regs → RawSyl → BitVec 16)) := [
  (.br, 0x01, fun s t z => condition (z.f 21 18) (s.th t).regs.fl, fun _ z => z.fields.setWidth 16),
  (.bri, 0x02, fun s t z => condition (z.f 21 18) (s.th t).regs.fl, fun r _ => r.xa.setWidth 16),
  (.ret, 0x04, fun _ _ _ => true, fun r z => BitVec.ofNat 16 (mreadLE r.frame (0x570 + 2 * z.f 18 16) 2))]

/-- The newest unresolved branch of the thread is `b`, one more than before. -/
def branchedAs (s u : State) (t : Nat) (b : Branch) : Prop :=
  (u.th t).branches.length = (s.th t).branches.length + 1 ∧ (u.th t).branches.getLast? = some b

/-- The newest unresolved branch of the thread, one more than before. -/
def branched (s u : State) (t : Nat) (taken : Bool) (target : BitVec 16) (snapshot : Regs) : Prop :=
  branchedAs s u t { taken := taken, target := target, regs := snapshot }

/-- The thread that an event of SEV reaches: the one that XA [6:0] names, or, with XA [7], every other of the cluster (R123). -/
def sevNames (t : Nat) (xa : W32) (k : Nat) : Prop :=
  k / 128 = t / 128 ∧ if xa.getLsbD 7 then k ≠ t else k % 128 = xa.toNat % 128

/-- The lock and atomic instructions with their codes. -/
def lockRows : List ((Syl → Instr) × Nat × LockOp) := [(.lka, 0x20, .acquire), (.lkt, 0x21, .tryLock), (.lkr, 0x22, .release)]
def atomicRows : List ((Syl → Instr) × Nat) :=
  [(.cas32, 0x28), (.cas64, 0x29), (.fadd, 0x2A), (.swap, 0x2B), (.fand, 0x2C), (.forr, 0x2D), (.binc, 0x2E)]

end Sys2Proof.Claims

/-- R117, R156, R188, R189, R176: a branch goes on past itself with its outcome, target and the registers after its bundle held until it
resolves; BHB's outcome is left to the helper's state as it resolves; CALL also writes the address after it to its link slot. RTT restores PC and FL from the trap save area and leaves the
trap; NOP does nothing.
The model's own choices in it: log 7. -/
def Obligations.ControlInstructionsHoldTheirOutcome : Prop :=
  (∀ row ∈ branchRows, ∀ (y : Syl) (s : State), Executes s y 3 row.2.1 →
    let t := tidOf y
    let z := sylRaw y 3 row.2.1
    givesSome (row.1 y) s (fun u =>
      past s u t (s.th t) ∧ branched s u t (row.2.2.1 s t z) (row.2.2.2 (s.th t).regs z) (s.th t).regs ∧ clustersSame s u ∧ outsideSame s u)) ∧
  (∀ (y : Syl) (s : State), Executes s y 3 0x05 →
    let t := tidOf y
    let z := sylRaw y 3 0x05
    givesSome (.bhb y) s (fun u =>
      past s u t (s.th t) ∧ branchedAs s u t { taken := false, target := z.fields.setWidth 16, regs := (s.th t).regs, bhb := some (BitVec.ofNat 3 (z.f 21 19)) }
        ∧ clustersSame s u ∧ outsideSame s u)) ∧
  (∀ (y : Syl) (s : State), Executes s y 3 0x03 →
    let t := tidOf y
    let z := sylRaw y 3 0x03
    let r := (s.th t).regs
    givesSome (.call y) s (fun u =>
      past s u t { s.th t with regs := { r with frame := (u.th t).regs.frame } }
        ∧ storedAt r.frame (u.th t).regs.frame (0x570 + 2 * z.f 18 16) 2 ((s.th t).pc + 1).toNat
        ∧ branched s u t true (z.fields.setWidth 16) (u.th t).regs ∧ clustersSameButMarks s u ∧ outsideSame s u)) ∧
  (∀ (y : Syl) (s : State), Executes s y 3 0x06 →
    let t := tidOf y
    let r := (s.th t).regs
    givesSome (.rtt y) s (fun u =>
      u.th t = { s.th t with inTrap := false, regs := { r with fl := (mget r.frame 0x5F7).setWidth 4 }, pc := BitVec.ofNat 16 (mreadLE r.frame 0x5F4 2), waitSyls := [], bpPass := false }
        ∧ othersSame s u t ∧ clustersSame s u ∧ outsideSame s u)) ∧
  (∀ (y : Syl) (s : State), Executes s y 3 0x07 → givesSome (.nop y) s (fun u => ran s u (tidOf y) (s.th (tidOf y)).regs))

/-- R120, R123: a WFE that meets a pending event returns the events of its mask in ACC and clears the edges it returns; one that
meets none waits. SEV sets its software event in every thread holding work that its operand names, and a free thread takes none.
The model's own choices in it: log 8. -/
def Sys2Proof.Claims.EventInstructionsWaitAndSignal : Prop :=
  (∀ (y : Syl) (s : State),
    let t := tidOf y
    let z := sylRaw y 3 0x10
    let m := BitVec.ofNat 16 (z.f 15 0)
    let w := wfeWord s t m
    (Executes s y 3 0x10 → w ≠ 0 ∧ givesSome (.wfe y) s (fun u =>
      past s u t { s.th t with regs := { (s.th t).regs with acc := w.setWidth 64 }, edges := (s.th t).edges &&& ~~~(w &&& 0xFFFC) }
        ∧ clustersSame s u ∧ outsideSame s u)) ∧
    (Ready s y 3 0x10 → w = 0 → givesSome (.wfe y) s (fun u =>
      u.th t = { s.th t with wait := .wfe m, waitSyls := [z], bpPass := false } ∧ othersSame s u t ∧ clustersSame s u ∧ outsideSame s u))) ∧
  (∀ (y : Syl) (s : State), Executes s y 3 0x11 →
    let t := tidOf y
    let e := (sylRaw y 3 0x11).f 2 0
    givesSome (.sev y) s (fun u =>
      (∀ k, k ≠ t → (sevNames t (s.th t).regs.xa k ∧ (s.th k).busy = true → u.th k = { s.th k with edges := (s.th k).edges ||| 1 <<< (8 + e) })
        ∧ (¬ (sevNames t (s.th t).regs.xa k ∧ (s.th k).busy = true) → u.th k = s.th k))
        ∧ (u.th t).pc = (s.th t).pc + 1 ∧ (u.th t).regs = (s.th t).regs
        ∧ (u.th t).edges = (if (s.th t).regs.xa.toNat % 256 = t % 128 then (s.th t).edges ||| 1 <<< (8 + e) else (s.th t).edges)
        ∧ clustersSame s u ∧ outsideSame s u))

/-- R126 to R130: CHS stages ACC. CHC sends the staged words whole, to a channel of the cluster or, against credit, to another
cluster, and clears the flags, which stay pending until a remote message is accepted or refused; a local send on a remote-inbound
channel is turned away with V (log 61); with nothing staged it sends nothing and sets V. CHR takes the oldest message into the frame and its
word count into ACC with Z clear; on an empty channel it takes nothing, ACC is 0 and Z set. -/
def Sys2Proof.Claims.ChannelInstructionsMoveWholeMessages : Prop :=
  (∀ (y : Syl) (s : State), Executes s y 3 0x12 →
    let t := tidOf y
    givesSome (.chs y) s (fun u =>
      past s u t { s.th t with staging := (s.th t).staging ++ [(s.th t).regs.acc] } ∧ clustersSame s u ∧ outsideSame s u)) ∧
  (∀ (y : Syl) (s : State), Executes s y 3 0x13 →
    let t := tidOf y
    let z := sylRaw y 3 0x13
    let n := z.f 4 0
    let c := t / 128
    let sentOff := { s.th t with staging := [], regs := { (s.th t).regs with fl := if z.f 10 10 = 1 ∧ s.inReset (s.clusterAt (z.f 9 5)) = true then 1 else 0 } }
    ((s.th t).staging = [] → givesSome (.chc y) s (fun u => ran s u t { (s.th t).regs with fl := 1 })) ∧
    ((s.th t).staging ≠ [] → z.f 10 10 = 0 → s.chRemote c n = true → givesSome (.chc y) s (fun u =>
      past s u t { s.th t with staging := [], regs := { (s.th t).regs with fl := 1 } } ∧ clustersSame s u ∧ outsideSame s u)) ∧
    ((s.th t).staging ≠ [] → z.f 10 10 = 0 → s.chRemote c n = false → givesSome (.chc y) s (fun u =>
      past s u t sentOff ∧ ((u.cl c).ch n).msgs = ((s.cl c).ch n).msgs ++ [(c, (s.th t).staging)]
        ∧ (∀ k, k ≠ n → (u.cl c).ch k = (s.cl c).ch k) ∧ (∀ k, k ≠ c → u.cl k = s.cl k) ∧ outsideSame s u)) ∧
    ((s.th t).staging ≠ [] → z.f 10 10 = 1 → givesSome (.chc y) s (fun u =>
      past s u t (if s.inReset (s.clusterAt (z.f 9 5)) = true then sentOff
        else withLoad sentOff { id := s.nextId, reg := 3, fl := true, flOnly := true, isl := s.clusterAt (z.f 9 5) })
        ∧ (u.cl c).creditOf (creditKey (z.f 9 5) n) = (s.cl c).creditOf (creditKey (z.f 9 5) n) - (s.th t).staging.length
        ∧ u = { s with clusters := u.clusters, obs := u.obs, nextId := s.nextId + 1, net := s.net ++ [⟨c, s.clusterAt (z.f 9 5), .chan t (z.f 9 5) n (s.th t).staging s.nextId⟩] }))) ∧
  (∀ (y : Syl) (s : State), Executes s y 3 0x14 →
    let t := tidOf y
    let z := sylRaw y 3 0x14
    let n := z.f 4 0
    let c := t / 128
    (((s.cl c).ch n).msgs = [] → givesSome (.chr y) s (fun u => ran s u t { (s.th t).regs with acc := 0, fl := 8 })) ∧
    (∀ from' w rest, ((s.cl c).ch n).msgs = (from', w) :: rest → givesSome (.chr y) s (fun u =>
      past s u t { s.th t with regs := { (s.th t).regs with acc := BitVec.ofNat 64 w.length, fl := 0, frame := mwrite (s.th t).regs.frame (32 * z.f 10 5) (w.flatMap (fun v => leBytes 8 v.toNat)) } }
        ∧ ((u.cl c).ch n).msgs = rest ∧ (∀ k, k ≠ n → (u.cl c).ch k = (s.cl c).ch k)
        ∧ u = { s with clusters := u.clusters, obs := u.obs, net := s.net ++ if s.chRemote c n then [⟨c, from', .credit (s.positionOf c) n w.length false⟩] else [] })))

/-- R89, R91, R191, R192, R193: an ORD of a point passed or released, or of a task with no domain, passes it at once, and any other
asks I26 and waits; REL releases its point and the earlier ones and tells I26; COMMIT sends its outcome and ACC to I26, and its
thread becomes free, which I26 learns too.
The model's own choices in it: log 5, 8. -/
def Sys2Proof.Claims.OrderedPointsAndCommitReachTheSequencer : Prop :=
  (∀ (y : Syl) (s : State),
    let t := tidOf y
    let z := sylRaw y 3 0x18
    let k := z.f 1 0
    let x := s.th t
    (Executes s y 3 0x18 → (x.noDomain = true ∨ (x.passed ||| x.released).getLsbD k = true) ∧ givesSome (.ord y) s (fun u =>
      past s u t { x with passed := x.passed ||| (1 <<< k) } ∧ clustersSame s u
        ∧ u = { s with clusters := u.clusters, obs := u.obs, seq := { s.seq with recs := u.seq.recs } }
        ∧ (∀ q, q ≠ x.record → u.rcd q = s.rcd q)
        ∧ u.rcd x.record = (if (s.rcd x.record).gen = x.gen ∧ (s.rcd x.record).st = .running
            then { s.rcd x.record with passed := (s.rcd x.record).passed ||| (1 <<< k) } else s.rcd x.record))) ∧
    (Ready s y 3 0x18 → x.noDomain = false → (x.passed ||| x.released).getLsbD k = false → givesSome (.ord y) s (fun u =>
      u.th t = { x with wait := .ord k, waitSyls := [z], bpPass := false } ∧ othersSame s u t ∧ clustersSame s u
        ∧ u = { s with clusters := u.clusters, obs := u.obs, net := s.net ++ [⟨t / 128, 26, .ordReq t x.record x.gen k⟩] }))) ∧
  (∀ (y : Syl) (s : State), Executes s y 3 0x19 →
    let t := tidOf y
    let k := (sylRaw y 3 0x19).f 1 0
    let x := s.th t
    givesSome (.rel y) s (fun u =>
      past s u t { x with released := x.released ||| BitVec.ofNat 4 (2 ^ (k + 1) - 1) } ∧ clustersSame s u
        ∧ u = { s with clusters := u.clusters, obs := u.obs, net := s.net ++ [⟨t / 128, 26, .rel t x.record x.gen k x.pc⟩] })) ∧
  (∀ (y : Syl) (s : State), Executes s y 3 0x1A →
    let t := tidOf y
    let x := s.th t
    givesSome (.commit y) s (fun u =>
      (u.th t).busy = false ∧ othersSame s u t
        ∧ ⟨t / 128, 26, .commit t x.record x.gen (BitVec.ofNat 3 ((sylRaw y 3 0x1A).f 2 0)) x.regs.acc x.pc⟩ ∈ u.net
        ∧ ⟨t / 128, 26, .threadFree t⟩ ∈ u.net ∧ ∀ m ∈ s.net, m ∈ u.net))

/-- R185, R198, R201: a lock instruction sends its request to the slice of the lock's bank, an atomic instruction its operands to
the slice or the home channel of its address; ACC and FL become pending on the answer, and nothing else changes. -/
def Sys2Proof.Claims.LocksAndAtomicsSendTheirRequest : Prop :=
  (∀ row ∈ lockRows, ∀ (y : Syl) (s : State), Executes s y 3 row.2.1 →
    let t := tidOf y
    let w := (s.th t).regs.xa.toNat % 65536
    givesSome (row.1 y) s (fun u =>
      past s u t (withLoad (s.th t) { id := s.nextId, reg := 0, fl := true, isl := 37 + w / 2048 / 8 }) ∧ clustersSame s u
        ∧ sent s u (t / 128) (37 + w / 2048 / 8) (.lockReq s.nextId t w row.2.2))) ∧
  (∀ row ∈ atomicRows, ∀ (y : Syl) (s : State), Executes s y 3 row.2 →
    let t := tidOf y
    let r := (s.th t).regs
    let far := (sylRaw y 3 row.2).f 21 21 = 1
    let a := if far then farAddr r else r.xa.toNat
    givesSome (row.1 y) s (fun u =>
      past s u t (withLoad (s.th t) { id := s.nextId, reg := 0, fl := true, isl := if far then 43 + s.homeChannel a else apertureIsland a }) ∧ clustersSame s u
        ∧ sent s u (t / 128) (if far then 43 + s.homeChannel a else apertureIsland a)
            (request s t (.atomic (BitVec.ofNat 3 (row.2 - 0x28))) a (if row.2 = 0x28 then 2 else 3) r.acc
              (BitVec.ofNat 64 (mreadLE r.frame 0x568 8)))))

/-- Event and channel instructions. -/
def Obligations.EventAndChannelInstructionsWaitAndSend : Prop := Claims.EventInstructionsWaitAndSignal ∧ Claims.ChannelInstructionsMoveWholeMessages

/-- Ordered points, commits, locks and atomics: what each sends. -/
def Obligations.OrderedLockAndAtomicInstructionsSendTheirRequest : Prop := Claims.OrderedPointsAndCommitReachTheSequencer ∧ Claims.LocksAndAtomicsSendTheirRequest


/-! ### Threads between their bundles -/

namespace Sys2Proof.Claims

/-- The thread exists and its cluster's island runs. -/
def lives (s : State) (id : ThreadId) : Prop := threadOk id = true ∧ s.up id.cluster = true

/-- Only thread `t`, now `x`, has changed, apart from counters and, where given, the crossings. -/
def onlyThread (s u : State) (t : Nat) (x : Thread) (net : List Crossing) : Prop :=
  u.th t = x ∧ othersSame s u t ∧ clustersSame s u ∧ u = { s with clusters := u.clusters, obs := u.obs, net := net }

/-- The outbox of an island. -/
def outboxOf (s : State) (i : Nat) : Outbox := Store.get {} s.faults.outbox i

/-- A fault message of `kind` has been raised from `source`: it is the newest of its island's outbox, or, where that held sixteen, it
is discarded and counted under its class (R370). -/
def reported (s u : State) (source kind : Nat) (i : FaultInfo) : Prop :=
  let o := outboxOf s (source / 64)
  outboxOf u (source / 64) = if o.msgs.length < 16 then { o with msgs := o.msgs ++ [mkFault s source kind i] }
    else { o with lost := Store.modify 0 o.lost (kindClass kind) (· + 1), lastClass := BitVec.ofNat 4 (kindClass kind) }

/-- The registers after a result lands: the value in its register, and FL where the operation writes it. -/
def landed (r : Regs) (reg : BitVec 2) (v : W64) (fl : Option Fl) : Regs :=
  let q := if reg = 0 then { r with acc := v } else if reg = 1 then { r with xa := v.setWidth 32 } else { r with xb := v.setWidth 32 }
  { q with fl := fl.getD q.fl }

end Sys2Proof.Claims

/-- R185, R186, R213, R216, R255, R256: results land. A load's value enters its register, with FL for an atomic or lock instruction, and a
load of an uncorrectable word also poisons the record; a helper's result enters ACC and FL and sets HELPER_DONE, and a cancelled
operation leaves its helper without a result; a completed write is no longer counted, and STORE_DONE sets when none is left.
The model's own choices in it: log 5, 8. -/
def Sys2Proof.Claims.ResultsLandInTheirRegisters : Prop :=
  (∀ (s : State) (id : ThreadId) (reg : BitVec 2) (l : Load) (v : W64) (fl : Option Fl), lives s id →
    let t := threadNo id
    let x := s.th t
    x.branches = [] → s.landing t reg = some l → l.value = some (v, fl) → l.ecc = none →
    givesSome (.loadLand id reg) s (fun u => onlyThread s u t
      { x with loads := x.loads.filter (fun k => k.id != l.id), regs := if l.flOnly then { x.regs with fl := fl.getD x.regs.fl } else landed x.regs reg v fl }
      (s.net ++ if l.poison then [⟨t / 128, 26, .poison t x.record x.gen⟩] else []))) ∧
  (∀ (s : State) (id : ThreadId) (e : StoreOut), lives s id →
    let t := threadNo id
    let x := s.th t
    let left := x.stores.filter (fun k => k.id != e.id)
    s.completed t = some e → givesSome (.storeCompletion id) s (fun u => onlyThread s u t
      { x with stores := left, edges := if left = [] ∧ x.busy = true then x.edges ||| 0x20 else x.edges } s.net)) ∧
  (∀ (s : State) (id : ThreadId) (h : HelperOp) (r : HelperRes), lives s id →
    let t := threadNo id
    let x := s.th t
    x.branches = [] → s.helperDone t = some h → h.res = some r → r.bytes = [] → r.poison = false →
    givesSome (.helperResult id false) s (fun u =>
      (u.cl (t / 128)).hops = (s.cl (t / 128)).hops.filter (fun g => g.id != h.id) ∧ othersSame s u t
        ∧ u = { s with clusters := u.clusters, obs := u.obs }
        ∧ u.th t = if h.cancelled then x else
            { x with regs := { x.regs with acc := r.acc, fl := r.fl }, helper := if x.helper = some h.id then none else x.helper
                     edges := if x.busy then x.edges ||| 4 else x.edges }))

/-- R117, R119, R189: the oldest branch resolves; a BHB is taken when its helper then holds an operation of the thread from before it, or is
full. One that stands goes on: the stores held under it are made. One that is taken squashes
what was issued under it: the registers are those of its snapshot, PC is its target, and loads begun under it are forgotten. -/
def Sys2Proof.Claims.BranchesStandOrSquash : Prop :=
  ∀ (s : State) (id : ThreadId) (b : Branch) (rest : List Branch), lives s id →
    let t := threadNo id
    let x := s.th t
    x.branches = b :: rest →
    let takes := match b.bhb with
      | none => b.taken
      | some k => decide (helperLimit k.toNat ≤ hopCount s (t / 128) k.toNat) || (s.cl (t / 128)).hops.any (fun h =>
          h.unit == k && h.thread == t % 128 && !(b.begun ++ rest.flatMap (·.begun)).contains h.id)
    let due := match rest with | [] => b.liveDue | r :: _ => r.due
    (takes = false → b.late = none → b.stores = [] → b.poison = false → givesSome (.branchResolve id) s (fun u =>
      onlyThread s u t { x with branches := rest, edges := if due = true ∧ x.busy = true then x.edges ||| 8 else x.edges } s.net)) ∧
    (takes = false → b.late = none → b.poison = true → givesSome (.branchResolve id) s (fun u =>
      u.net = s.net ++ [⟨t / 128, 26, .poison t x.record x.gen⟩] ∧ (u.th t).branches = rest ∧ othersSame s u t)) ∧
    (takes = false → b.late = none → b.poison = false → due = false → givesSome (.branchResolve id) s (fun u =>
      let w := b.stores.foldl (fun v e => v.nearWrite t e.1 e.2) (s.modTh t (fun x => { x with branches := rest }))
      (∀ k, u.th k = w.th k) ∧ ∀ c, (u.cl c).coreMem = (w.cl c).coreMem ∧ (u.cl c).clMem = (w.cl c).clMem)) ∧
    (takes = false → ∀ f, b.late = some f → f.trap = none → givesSome (.branchResolve id) s (fun u =>
      (u.th t).halt = .fault ∧ (u.th t).wait = .none ∧ ⟨t / 128, 26, .fault t x.record x.gen f.kind⟩ ∈ u.net)) ∧
    (takes = true → givesSome (.branchResolve id) s (fun u =>
      (u.th t).regs = b.regs ∧ (u.th t).pc = b.target ∧ (u.th t).branches = [] ∧ (u.th t).bundle = []
        ∧ (u.th t).loads = x.loads.filter (fun l => !(b.begun ++ rest.flatMap (·.begun)).contains l.id)
        ∧ othersSame s u t ∧ (∀ c, (u.cl c).coreMem = (s.cl c).coreMem ∧ (u.cl c).clMem = (s.cl c).clMem)
        ∧ u = { s with clusters := u.clusters, obs := u.obs }))

/-- R120, R122, R124, R127: waits end. A WFE ends with the pending events of its mask in ACC; a thread timer that reaches zero sets
TIMER; a blocked sender at the head of a channel with room sends its words and goes on. -/
def Sys2Proof.Claims.WaitsEndWithTheirEvent : Prop :=
  (∀ (s : State) (id : ThreadId) (m : BitVec 16) (y : Syl), lives s id →
    let t := threadNo id
    let x := s.th t
    let w := wfeWord s t m
    x.wait = .wfe m → x.waitSyls = [sylRaw y 3 0x10] → m = y.fields.setWidth 16 → x.busy = true → x.branches = [] → x.bundle = [] →
    x.halt = .none → w ≠ 0 → givesSome (.wfeWake id) s (fun u =>
      u.th t = { x with wait := .none, waitSyls := [], bpPass := false, pc := x.pc + 1, regs := { x.regs with acc := w.setWidth 64 },
                        edges := x.edges &&& ~~~(w &&& 0xFFFC) } ∧ othersSame s u t ∧ outsideSame s u)) ∧
  (∀ (s : State) (id : ThreadId), lives s id →
    let t := threadNo id
    let x := s.th t
    x.busy = true → x.regs.timer ≠ 0 → x.branches = [] → givesSome (.threadTimerExpire id) s (fun u =>
      onlyThread s u t { x with regs := { x.regs with timer := 0 }, edges := x.edges ||| 8 } s.net)) ∧
  (∀ (s : State) (c n v : Nat) (more : List Nat) (y : Syl), c < 26 → s.up c = true → v < 128 →
    let t := c * 128 + v
    let x := s.th t
    ((s.cl c).ch n).blocked = v :: more → x.waitSyls = [sylRaw y 3 0x13] → y.fields = BitVec.ofNat 22 n → n < 32 → x.busy = true →
    x.branches = [] → x.bundle = [] → x.halt = .none → x.staging ≠ [] → s.chRemote c n = false →
    ((s.cl c).ch n).words + x.staging.length ≤ 8 → givesSome (.chcUnblock c false 0 n) s (fun u =>
      ((u.cl c).ch n).msgs = ((s.cl c).ch n).msgs ++ [(c, x.staging)] ∧ ((u.cl c).ch n).blocked = (v :: more).filter (· != v)
        ∧ (u.th t).staging = [] ∧ (u.th t).wait = .none ∧ (u.th t).pc = x.pc + 1 ∧ (u.th t).regs = { x.regs with fl := 0 }
        ∧ othersSame s u t ∧ outsideSame s u)) ∧
  (∀ (s : State) (c pos n v : Nat) (more : List Nat) (y : Syl), c < 26 → s.up c = true → v < 128 →
    let t := c * 128 + v
    let x := s.th t
    let z := sylRaw y 3 0x13
    Store.get [] (s.cl c).rblocked (creditKey pos n) = v :: more → x.waitSyls = [z] → z.f 10 10 = 1 → z.f 9 5 = pos → z.f 4 0 = n →
    x.busy = true → x.branches = [] → x.bundle = [] → x.halt = .none → x.staging ≠ [] →
    x.staging.length ≤ (s.cl c).creditOf (creditKey pos n) → givesSome (.chcUnblock c true pos n) s (fun u =>
      (u.cl c).creditOf (creditKey pos n) = (s.cl c).creditOf (creditKey pos n) - x.staging.length
        ∧ Store.get [] (u.cl c).rblocked (creditKey pos n) = (v :: more).filter (· != v)
        ∧ u.net = s.net ++ [⟨c, s.clusterAt pos, .chan t pos n x.staging s.nextId⟩]
        ∧ (u.th t).staging = [] ∧ (u.th t).wait = .none ∧ (u.th t).pc = x.pc + 1 ∧ othersSame s u t))

/-- R125, R129, R130, R132: a message from another cluster joins a channel that names its sender, whose CHC completes with V clear, and is refused by any other, with V set; credit that
returns is added up to the whole eight words; a cluster quiet since its watch began reports QUIESCENT once. -/
def Obligations.ClustersExchangeMessagesAndCredit : Prop :=
  (∀ (s : State) (a b t pos n k : Nat) (w : List W64), a < 26 → b < 26 → s.arrive a b = some (.chan t pos n w k) → t / 128 = a →
    let answered (u : State) (v : Fl) : Prop := ∃ q, (u.th t).loads = (s.th t).loads.map (fun l =>
      if l.id = k then { l with value := some (0, some v), poison := false, seq := q } else l)
    givesSome (.remoteMessageArrive a b) s (fun u => u.net = dropCrossing a b s.net ∧
      (if s.chRemote b n = true ∧ s.clusterAt (s.chSource b n) = a then
        ((u.cl b).ch n).msgs = ((s.cl b).ch n).msgs ++ [(a, w)] ∧ answered u 0 ∧ ∀ c, c ≠ a → c ≠ b → u.cl c = s.cl c
      else answered u 1 ∧ ∀ c, c ≠ a → u.cl c = s.cl c))) ∧
  (∀ (s : State) (a b pos n w : Nat) (all : Bool), a < 26 → b < 26 → s.arrive a b = some (.credit pos n w all) →
    givesSome (.creditReturn a b) s (fun u => u.net = dropCrossing a b s.net
      ∧ (u.cl b).creditOf (creditKey pos n) = (if all then 8 else min 8 ((s.cl b).creditOf (creditKey pos n) + w))
      ∧ ∀ c, c ≠ b → u.cl c = s.cl c)) ∧
  (∀ (s : State) (c : Nat), c < 26 → s.up c = true → fld (s.obj 0x0041 c) 15 15 = 1 → s.quiet c = true → (s.cl c).quietRep = false →
    givesSome (.quiescent c) s (fun u => (u.cl c).quietRep = true ∧ (∀ t, u.th t = s.th t) ∧ reported s u (64 * c + 0x13) 0x60 {}))

/-- R134, R135, R174, R175, R199, R99: an NMI or a trap whose results have landed saves its bundle, PC, cause and flags in the save
area and starts at its vector; a lock grant sets LOCK_GRANT; a halt asked for takes effect; an abort frees the thread.
The model's own choices in it: log 40. -/
def Sys2Proof.Claims.TrapsGrantsHaltsAndAbortsReachTheThread : Prop :=
  (∀ (s : State) (id : ThreadId), lives s id →
    let t := threadNo id
    let x := s.th t
    x.nmi = true → x.busy = true → x.halt = .none → x.inTrap = false → x.branches = [] → x.trap = none → x.loads = [] → x.helper = none →
    (x.wait = .none ∨ x.idle = true) → givesSome (.nmiEntry id) s (fun u =>
      (u.th t).pc = BitVec.ofNat 16 (bankWord s x.accord 0x42) ∧ (u.th t).inTrap = true ∧ (u.th t).nmi = false ∧ (u.th t).wait = .none
        ∧ (u.th t).staging = x.staging ∧ mreadLE (u.th t).regs.frame 0x5F4 2 = x.pc.toNat ∧ mget (u.th t).regs.frame 0x5F6 = 4
        ∧ mget (u.th t).regs.frame 0x5F7 = x.regs.fl.setWidth 8 ∧ (u.th t).regs.acc = x.regs.acc ∧ othersSame s u t)) ∧
  (∀ (s : State) (id : ThreadId) (q : TrapReq), lives s id →
    let t := threadNo id
    let x := s.th t
    x.trap = some q → x.loads = [] → x.helper = none → x.halt = .none → givesSome (.trapEntry id) s (fun u =>
      onlyThread s u t { x with regs := { x.regs with frame := mwrite x.regs.frame 0x5F0 (saveArea q x.regs.fl) }, inTrap := true, trap := none,
                                pc := BitVec.ofNat 16 (bankWord s x.accord (if q.nmi then 0x42 else 0x41)), nmi := x.nmi && !q.nmi } s.net)) ∧
  (∀ (s : State) (g c t lock q : Nat), g < 4 → c < 26 → t / 128 = c → s.arrive (37 + g) c = some (.lockGrant t lock q) →
    s.replyAhead c (37 + g) q = false → (s.th t).busy = true → (s.th t).lockWait = some lock → (s.th t).halt ≠ .debug → givesSome (.lockGrantArrive g c) s (fun u =>
      u.th t = { s.th t with lockWait := none, edges := (s.th t).edges ||| 0x10 } ∧ othersSame s u t ∧ u.net = dropCrossing (37 + g) c s.net)) ∧
  (∀ (s : State) (id : ThreadId), lives s id →
    let t := threadNo id
    let x := s.th t
    x.haltReq = true → x.branches = [] → givesSome (.threadHalt id) s (fun u =>
      onlyThread s u t { x with haltReq := false, bundle := [], halt := if x.halt = .fault then .fault else .debug } s.net)) ∧
  (∀ (s : State) (id : ThreadId), lives s id →
    let t := threadNo id
    let x := s.th t
    x.abortReq = true → x.busy = true → givesSome (.threadAbort id) s (fun u =>
      (u.th t).busy = false ∧ ⟨t / 128, 26, .fault t x.record x.gen 0⟩ ∈ u.net ∧ ⟨t / 128, 26, .threadFree t⟩ ∈ u.net ∧ othersSame s u t))

/-- Results land in their registers, and waits end with their event. -/
def Obligations.ResultsAndWaitsReachTheirThread : Prop := Claims.ResultsLandInTheirRegisters ∧ Claims.WaitsEndWithTheirEvent

/-- Branches, traps, grants, halts and aborts. -/
def Obligations.BranchesTrapsAndAbortsTakeEffect : Prop := Claims.BranchesStandOrSquash ∧ Claims.TrapsGrantsHaltsAndAbortsReachTheThread


/-! ### The Sequencer and the Atomizer -/

namespace Sys2Proof.Claims

/-- Every record but `r` is the same. -/
def otherRecords (s u : State) (r : Nat) : Prop := ∀ k, k ≠ r → u.rcd k = s.rcd k

/-- No record is listed twice: part of the canonical form of the record store. -/
def eachOnce (s : State) : Prop := (s.seq.recs.map (·.1)).Nodup

/-- A token of record `r` in its life `g`: the record runs that life and is not damaged. -/
def runsLife (s : State) (r : Nat) (g : BitVec 8) : Prop :=
  (s.rcd r).gen = g ∧ (s.rcd r).st = .running ∧ r ∉ s.seq.badRec ∧ eachOnce s

/-- The ordered points up to `k`, as released bits (R84). -/
def upTo (k : Nat) : BitVec 4 := BitVec.ofNat 4 (2 ^ (k + 1) - 1)

/-- The packet of descriptor `d` is freed: its cells and head cells are at the tail of pool 0's ring and the descriptor is free. -/
def packetFreed (s u : State) (d : Nat) : Prop :=
  (u.desc d).st = .free ∧ (u.desc d).gen = (s.desc d).gen
    ∧ (u.pool 0).ring.freed = (s.pool 0).ring.freed ++ (s.desc d).cells ++ (s.desc d).headCells

end Sys2Proof.Claims

/-- R79 to R81, R356, R94: a complete descriptor whose stamp names a live Accord, whose domain has room and for which a record is free
becomes a QUEUED record in the next place of the order of acceptance, and one for which none is free stays where it is; one with a stale stamp is refused and reported with its packet
freed, and one whose domain is full likewise. -/
def Sys2Proof.Claims.DescriptorsBecomeRecordsOrAreRefused : Prop :=
  ∀ (s : State) (i : Nat) (f : InFlight) (rest : List InFlight), i < 4 → s.up 26 = true → s.up (27 + i) = true →
    (s.slc i).pipe = f :: rest → f.complete = true →
    let tag := bits f.disp.metaw.toNat 63 60
    let dom := bits f.disp.metaw.toNat 59 44
    let limit := fld (s.sobj tag 0x0031 (fld (s.sobj tag 0x0030 dom) 7 0)) 41 28
    (∀ r, s.tagLive tag = true → s.domainCount dom < limit → s.recFree = some r → s.packetRecords < 8192 - s.param 0 →
      givesSome (.descriptorAccept i) s (fun u =>
        u.rcd r = { packetRec f.disp with st := .queued, gen := (s.rcd r).gen + 1, safe := true, order := s.seq.nextOrder }
          ∧ otherRecords s u r ∧ u.seq.nextOrder = s.seq.nextOrder + 1 ∧ (u.slc i).pipe = rest ∧ (∀ j, j ≠ i → u.slc j = s.slc j))) ∧
    (s.tagLive tag = true → s.domainCount dom < limit → (s.recFree = none ∨ 8192 - s.param 0 ≤ s.packetRecords) →
      gives (.descriptorAccept i) s s) ∧
    (s.tagLive tag = false → givesSome (.descriptorAccept i) s (fun u =>
      packetFreed s u (handleDesc f.disp.handle) ∧ u.seq = s.seq ∧ (u.slc i).pipe = rest
        ∧ reported s u (64 * (27 + i)) 0x4C { master := 0x40C0 + i })) ∧
    (s.tagLive tag = true → limit ≤ s.domainCount dom → givesSome (.descriptorAccept i) s (fun u =>
      packetFreed s u (handleDesc f.disp.handle) ∧ u.seq = s.seq ∧ (u.slc i).pipe = rest
        ∧ reported s u (64 * 26) 0x55 { master := 0x40C0 + i }))

/-- R79, R276 to R278: an offered task becomes a QUEUED record; one with a stale stamp, or a DOMAINED one that its domain cannot take,
goes back to the Task Scheduler. -/
def Sys2Proof.Claims.TasksBecomeRecordsOrGoBack : Prop :=
  ∀ (s : State) (n tag : Nat), s.arrive 42 26 = some (.task n tag) →
    let x := s.tsk n
    (∀ r, s.tagLive tag = true → s.taskFits x tag = true → s.recFree = some r → givesSome .taskAccept s (fun u =>
      (u.rcd r).st = .queued ∧ (u.rcd r).gen = (s.rcd r).gen + 1 ∧ (u.rcd r).task = true ∧ (u.rcd r).placed = x.domained
        ∧ (u.rcd r).domain = x.domain ∧ (u.rcd r).accord = BitVec.ofNat 4 tag ∧ (u.rcd r).prio = x.prio ∧ (u.rcd r).role = x.role.toNat
        ∧ (u.rcd r).safe = true ∧ (u.rcd r).order = s.seq.nextOrder ∧ (u.rcd r).disp.metaw = taskWord x n tag
        ∧ (u.rcd r).taskId = BitVec.ofNat 32 (x.gen.toNat * 2 ^ 24 + n) ∧ otherRecords s u r ∧ u.net = dropCrossing 42 26 s.net)) ∧
    (s.tagLive tag = true → s.taskFits x tag = true → s.recFree = none → gives .taskAccept s s) ∧
    (s.tagLive tag = false → givesSome .taskAccept s (fun u =>
      u.seq = s.seq ∧ u.net = dropCrossing 42 26 s.net ++ [⟨26, 42, .taskBack n false⟩])) ∧
    (s.tagLive tag = true → s.taskFits x tag = false → givesSome .taskAccept s (fun u =>
      u.seq = s.seq ∧ u.net = dropCrossing 42 26 s.net ++ [⟨26, 42, .taskBack n true⟩]))

/-- R102, R103: a dispatch lane sends the record of greatest right, unless it is damaged, to a free thread of a cluster its role group may
use, and the record runs; a lane that finds none stops the cycle. DISPATCH_AGE raises a waiting record to the highest priority.
The model's own choices in it: log 14, 26. -/
def Sys2Proof.Claims.AtomizerDispatchesTheNextRecord : Prop :=
  (∀ (s : State) (lane r : Nat), lane < 4 → s.up 26 = true → eachOnce s →
    let s' := if lane = 0 then { s with seq := { s.seq with chosen := [], stopped := false } } else s
    s'.seq.stopped = false → s'.nextRecord = some r → r ∉ s.seq.badRec → givesSome (.atomizerDispatch lane) s (fun u =>
      let x := s.rcd r
      let start := Store.get 0 s.seq.rr x.role
      let after (p : Nat) : Nat := if p < start then p + 24 else p
      let idle (c : Nat) : Nat := ((List.range 8).map (fun k => (s.freeThreads c k).length)).sum
      ∃ p t, p ∈ s'.choices x ∧ s.clusterAt p = t / 128
        ∧ (∀ q ∈ s'.choices x, idle (s.clusterAt q) < idle (t / 128) ∨ (idle (s.clusterAt q) = idle (t / 128) ∧ after p ≤ after q))
        ∧ s'.coreOk x (t / 128) (coreOf t) = true
        ∧ (∀ k < 8, s'.coreOk x (t / 128) k = true → (s.freeThreads (t / 128) k).length < (s.freeThreads (t / 128) (coreOf t)).length
            ∨ ((s.freeThreads (t / 128) k).length = (s.freeThreads (t / 128) (coreOf t)).length ∧ coreOf t ≤ k))
        ∧ t ∈ s.freeThreads (t / 128) (coreOf t) ∧ (∀ v ∈ s.freeThreads (t / 128) (coreOf t), t ≤ v) ∧ t ∉ s.seq.busy
        ∧ Store.get 0 u.seq.rr x.role = (p + 1) % 24
        ∧ u.rcd r = { s.rcd r with st := .running, gen := (s.rcd r).gen + 1, thread := BitVec.ofNat 12 t, replay := none, aged := false,
                                         refused := (s.rcd r).replay.map (fun n => (n, (s.rcd r).thread)) }
        ∧ otherRecords s u r ∧ u.seq.busy = s.seq.busy ++ [t] ∧ u.seq.chosen = s'.seq.chosen ++ [t / 128]
        ∧ ∃ m, u.net = s.net ++ [⟨26, t / 128, .dispatch m⟩] ∧ m.thread = t ∧ m.record = r ∧ m.gen = (s.rcd r).gen + 1
          ∧ m.tag = (s.rcd r).accord.toNat ∧ m.disp = (s.rcd r).disp ∧ m.passed = (s.rcd r).passed ∧ m.released = (s.rcd r).released
          ∧ m.prio = BitVec.ofNat 2 ((s.rcd r).prio.toNat / 2) ∧ m.role = (s.rcd r).role ∧ m.task = (s.rcd r).task
          ∧ m.noDomain = !(s.rcd r).placed ∧ m.taskId = (s.rcd r).taskId)) ∧
  (∀ (s : State) (r q : Nat), s.nextRecord = some r → (q, s.rcd q) ∈ s.seq.recs → (s.rcd q).st = .queued →
    ((s.rcd q).placed = true → s.domHeld (s.rcd q).domain.toNat = false) → s.choices (s.rcd q) ≠ [] → eachOnce s →
    let x := s.rcd r
    let y := s.rcd q
    x.st = .queued ∧ s.choices x ≠ [] ∧ (x.placed = true → s.domHeld x.domain.toNat = false) ∧
    match x.replay, y.replay with
    | some m, some n => m ≤ n
    | some _, none => True
    | none, some _ => False
    | none, none => y.eff < x.eff ∨ (y.eff = x.eff ∧ x.order ≤ y.order)) ∧
  (∀ (s : State) (lane : Nat), lane < 4 → s.up 26 = true →
    let s' := if lane = 0 then { s with seq := { s.seq with chosen := [], stopped := false } } else s
    s'.seq.stopped = false → s'.nextRecord = none →
    gives (.atomizerDispatch lane) s { s' with seq := { s'.seq with stopped := true } }) ∧
  (∀ (s : State) (r : Nat), r < 8192 → s.up 26 = true → (s.rcd r).st = .queued →
    gives (.dispatchAgePromote r) s (s.modRec r (fun x => { x with aged := true })))

/-- R111, R61, R105, R23, R19: a dispatch that arrives sets the thread's registers, PC, priority and frame; one refused at the boundary
of a cluster in reset gives its record back to be dispatched again; later header bytes follow into the frame. -/
def Sys2Proof.Claims.DispatchesReachTheirThreads : Prop :=
  (∀ (s : State) (c : Nat) (m : DispatchMsg), c < 26 → m.thread / 128 = c → s.arrive 26 c = some (.dispatch m) → c ∉ s.seq.noticed →
    givesSome (.threadDispatch c) s (fun u =>
      let x := u.th m.thread
      x.busy = true ∧ x.regs.acc = m.disp.metaw ∧ x.regs.xa = (if m.task then 0 else m.disp.handle) ∧ x.regs.xb = BitVec.ofNat 32 m.record
        ∧ x.regs.fl = 0 ∧ x.prio = m.prio ∧ x.record = m.record ∧ x.gen = m.gen ∧ x.accord = m.tag ∧ x.passed = m.passed
        ∧ x.released = m.released ∧ x.edges = 0 ∧ x.staging = [] ∧ x.wait = .none ∧ x.halt = .none
        ∧ x.pc = BitVec.ofNat 16 (bankWord s m.tag (if m.task then 0x40 else m.role % 64))
        ∧ (∀ a, a < 0x580 → mget x.regs.frame a = mget (s.th m.thread).regs.frame a)
        ∧ (∀ o, o < 0x70 → mget x.regs.frame (0x580 + o) = (leBytes 8 m.disp.ts.toNat ++ leBytes 8 m.disp.metaw.toNat
            ++ leBytes 4 m.disp.handle.toNat ++ leBytes 4 m.disp.hash.toNat ++ leBytes 4 m.disp.valid.toNat ++ leBytes 4 0
            ++ slice m.disp.slots 0 64 ++ leBytes 16 0).getD o 0)
        ∧ (∀ i, i < 64 → mget x.regs.frame (0x600 + i) =
            let a := cellAddr (s.desc (handleDesc m.disp.handle)).cells i
            if m.task = true ∨ m.disp.metaw.toNat % 16384 ≤ i ∨ a / 64 ∈ s.pools.badCell then 0 else mget s.pools.cells a)
        ∧ (∀ k, k ≠ m.thread → u.th k = s.th k))) ∧
  (∀ (s : State) (c : Nat) (m : DispatchMsg), c < 26 → s.arrive 26 c = some (.dispatch m) → c ∈ s.seq.noticed →
    gives (.threadDispatch c) s s) ∧
  (∀ (s : State) (id : ThreadId), lives s id →
    let t := threadNo id
    let x := s.th t
    x.busy = true → x.window ≠ [] → givesSome (.headerBytesArrive id) s (fun u =>
      onlyThread s u t { x.everywhere (fun r => { r with frame := mwrite r.frame (0x600 + x.delivered) (x.window.take 64) }) with
                         delivered := x.delivered + 64, window := x.window.drop 64 } s.net)) ∧
  (∀ (s : State) (c : Nat) (d : DispatchMsg), c < 26 → s.refuses c = true → s.oldest 26 c = some (.dispatch d) →
    (s.rcd d.record).gen = d.gen → (s.rcd d.record).st = .running → givesSome (.crossingRefused 26 c) s (fun u =>
      u.rcd d.record = { s.rcd d.record with st := .queued, replay := (s.rcd d.record).refused.map (·.1),
                                             thread := ((s.rcd d.record).refused.map (·.2)).getD (s.rcd d.record).thread, refused := none }
        ∧ otherRecords s u d.record ∧ d.thread ∉ u.seq.busy
        ∧ u.net = dropCrossing 26 c s.net ∧ u.clusters = s.clusters))

/-- R83, R84, R90, R97: what a token does to the running record it names. A point the record may pass is passed and granted, one it may
not pass is waited at; REL releases a point and every lower one; the first effect clears SAFE and is acknowledged; POISON marks. -/
def Sys2Proof.Claims.TokensChangeTheirRecord : Prop :=
  (∀ (s : State) (c t r k : Nat) (g : BitVec 8), c < 26 → k < 4 → s.arrive c 26 = some (.ordReq t r g k) → runsLife s r g →
    givesSome (.ordRequest c) s (fun u => otherRecords s u r ∧
      if s.mayPass r k = true then
        u.rcd r = { s.rcd r with waitPt := none, passed := (s.rcd r).passed ||| (1 <<< k) }
          ∧ u.net = dropCrossing c 26 s.net ++ [⟨26, (s.rcd r).thread.toNat / 128, .ordGrant (s.rcd r).thread.toNat r g k⟩]
      else u.rcd r = { s.rcd r with waitPt := some k } ∧ u.net = dropCrossing c 26 s.net)) ∧
  (∀ (s : State) (c t r k : Nat) (g : BitVec 8) (pc : BitVec 16), c < 26 → k < 4 → s.arrive c 26 = some (.rel t r g k pc) → runsLife s r g →
    (s.rcd r).waitPt = none → givesSome (.relToken c) s (fun u =>
      u.rcd r = { s.rcd r with released := (s.rcd r).released ||| upTo k }
        ∧ ∀ q, q ≠ r → (u.rcd q).released = (s.rcd q).released ∧ (u.rcd q).st = (s.rcd q).st)) ∧
  (∀ (s : State) (c t r : Nat) (g : BitVec 8), c < 26 → s.arrive c 26 = some (.effect t r g) → runsLife s r g →
    givesSome (.effectToken c) s (fun u => u.rcd r = { s.rcd r with safe := false } ∧ otherRecords s u r
      ∧ u.net = dropCrossing c 26 s.net ++ [⟨26, c, .effectAck t r g⟩])) ∧
  (∀ (s : State) (c t r : Nat) (g : BitVec 8), c < 26 → s.arrive c 26 = some (.poison t r g) → runsLife s r g →
    givesSome (.poisonToken c) s (fun u => u.rcd r = { s.rcd r with poison := true } ∧ otherRecords s u r ∧ u.net = dropCrossing c 26 s.net))

/-- R83, R89, R90, R91: the grant of the ordered point a thread waits at lets its ORD pass the point, and the acknowledgement of its first
effect lets its bundle take effect; both are held while the debugger holds the thread (R135). -/
def Sys2Proof.Claims.GrantsAndAcknowledgementsEndTheirWaits : Prop :=
  (∀ (s : State) (c t r k : Nat) (g : BitVec 8) (y : Syl), c < 26 → t / 128 = c → s.arrive 26 c = some (.ordGrant t r g k) →
    let x := s.th t
    x.busy = true → x.record = r → x.gen = g → x.wait = .ord k → x.waitSyls = [sylRaw y 3 0x18] → (sylRaw y 3 0x18).f 1 0 = k →
    x.branches = [] →
    (x.halt ≠ .debug → givesSome (.ordGrant c) s (fun u =>
      u.th t = { x with wait := .none, waitSyls := [], bundle := [], bpPass := false, pc := x.pc + 1, passed := x.passed ||| (1 <<< k) }
        ∧ othersSame s u t ∧ clustersSame s u ∧ u.net = dropCrossing 26 c s.net)) ∧
    (x.halt = .debug → givesSome (.ordGrant c) s (fun u =>
      u.th t = { x with granted := true } ∧ othersSame s u t ∧ u.net = dropCrossing 26 c s.net))) ∧
  (∀ (s : State) (c t r : Nat) (g : BitVec 8) (y : Syl), c < 26 → t / 128 = c → s.arrive 26 c = some (.effectAck t r g) →
    let x := s.th t
    x.busy = true → x.record = r → x.gen = g → x.wait = .effect → x.waitSyls = [sylRaw y 3 0x1A] → x.branches = [] →
    (x.halt ≠ .debug → givesSome (.effectAck c) s (fun u => (u.th t).busy = false ∧ othersSame s u t
      ∧ ⟨c, 26, .commit t r g (BitVec.ofNat 3 ((sylRaw y 3 0x1A).f 2 0)) x.regs.acc x.pc⟩ ∈ u.net)) ∧
    (x.halt = .debug → givesSome (.effectAck c) s (fun u =>
      u.th t = { x with granted := true } ∧ othersSame s u t ∧ u.net = dropCrossing 26 c s.net)))

/-- R82: a token whose GEN is not the record's changes no record; it is discarded and counted. -/
def Sys2Proof.Claims.StaleTokensChangeNoRecord : Prop :=
  ∀ (s : State) (c t r k : Nat) (g : BitVec 8) (pc : BitVec 16) (op : BitVec 3) (w : W64) (f : BitVec 8),
    c < 26 → (s.rcd r).gen ≠ g → r ∉ s.seq.badRec →
    ∀ m ∈ [(Msg.ordReq t r g k, Instr.ordRequest c), (.rel t r g k pc, .relToken c), (.effect t r g, .effectToken c),
           (.poison t r g, .poisonToken c), (.commit t r g op w pc, .commitAccept c), (.fault t r g f, .faultToken c)],
      s.arrive c 26 = some m.1 → givesSome m.2 s (fun u =>
        u.seq = s.seq ∧ u.net = dropCrossing c 26 s.net ∧ u.pools = s.pools
          ∧ (Store.get {} u.obs.counter (counterKey (26 * 64) 0x16)).count = (Store.get {} s.obs.counter (counterKey (26 * 64) 0x16)).count + 1)

/-- R86, R87, R97: a commit releases P2 and below and leaves the record COMMITTED with its outcome; DROP frees the record and the packet;
a poisoned record's commit is dropped instead and reported; a task's commit for a packet faults it. A COMMITTED record with no earlier
record of its domain left hands its outcome to the Queue Manager and becomes FREE. -/
def Sys2Proof.Claims.CommitsHoldAndHandOverOutcomes : Prop :=
  (∀ (s : State) (c t r : Nat) (g : BitVec 8) (op : BitVec 3) (w : W64) (pc : BitVec 16), c < 26 →
    s.arrive c 26 = some (.commit t r g op w pc) → runsLife s r g → (s.rcd r).waitPt = none →
    let x := s.rcd r
    ((op = 0 ∨ op = 2 ∨ op = 3) → x.task = false → x.poison = false → givesSome (.commitAccept c) s (fun u =>
      u.rcd r = { x with st := .committed, outcome := some { op := op, word := w }, released := x.released ||| 7 } ∧ u.pools = s.pools)) ∧
    (op = 1 → x.task = false → x.poison = false → givesSome (.commitAccept c) s (fun u =>
      u.rcd r = { gen := g } ∧ packetFreed s u (handleDesc x.disp.handle))) ∧
    (op = 4 → x.task = false → x.poison = false → givesSome (.commitAccept c) s (fun u =>
      u.rcd r = { gen := g } ∧ (u.desc (handleDesc x.disp.handle)).st = .consumed)) ∧
    (x.task = false → x.poison = true → givesSome (.commitAccept c) s (fun u =>
      u.rcd r = { gen := g } ∧ packetFreed s u (handleDesc x.disp.handle)
        ∧ reported s u (64 * 26) 0x58 { detail := g.toNat * 8192 + r, master := x.thread.toNat }))) ∧
  (∀ (s : State) (r : Nat) (o : Outcome), r < 8192 → s.up 26 = true → (s.rcd r).st = .committed → (s.rcd r).outcome = some o →
    s.earlier r = [] → r ∉ s.seq.badRec → givesSome (.outcomeHandover r) s (fun u =>
      u.rcd r = { gen := (s.rcd r).gen } ∧ ∃ grants, u.net = s.net ++ grants ++
        [⟨26, 36, .handover r (handleDesc (s.rcd r).disp.handle) o.op o.word (s.rcd r).accord.toNat (s.rcd r).thread.toNat
          (s.rcd r).domain.toNat⟩])) ∧
  (∀ (s : State) (r : Nat), r < 8192 → s.up 26 = true → (s.rcd r).st = .committed → s.earlier r ≠ [] → r ∉ s.seq.badRec →
    gives (.outcomeHandover r) s s)

/-- R92 to R98: a fault token treats the record by its domain class's policy: HOLD keeps it HELD, REPLAY queues a SAFE record once more in
its own place, and DROP_IN_PLACE, or a record in no domain, resolves it. A record HELD past its limit is resolved; the reset of a cluster
treats what runs there in the same way; a thread reported free can be dispatched to; the drain bound ends the draining Accord.
The model's own choices in it: log 15, 41. -/
def Obligations.FaultedRecordsFollowTheirPolicy : Prop :=
  (∀ (s : State) (c t r : Nat) (g k : BitVec 8), c < 26 → s.arrive c 26 = some (.fault t r g k) → runsLife s r g → k ≠ 0x56 → k ≠ 0x57 →
    let x := s.rcd r
    let policy := fld (s.sobj x.accord.toNat 0x0031 (fld (s.sobj x.accord.toNat 0x0030 x.domain.toNat) 7 0)) 63 62
    (x.placed = true → policy = 0 → givesSome (.faultToken c) s (fun u =>
      u.rcd r = { x with st := .held, fault := k, waitPt := none } ∧ otherRecords s u r
        ∧ reported s u (64 * 26) 0x50 { detail := g.toNat * 8192 + r, master := x.thread.toNat })) ∧
    (x.placed = true → policy = 1 → x.safe = true → x.replayed = false → givesSome (.faultToken c) s (fun u =>
      u.rcd r = { x with st := .queued, fault := k, replayed := true, replay := some s.seq.nextReplay, waitPt := none, aged := false }
        ∧ otherRecords s u r ∧ reported s u (64 * 26) 0x51 { detail := g.toNat * 8192 + r, master := x.thread.toNat })) ∧
    (x.task = false → (x.placed = false ∨ policy ≥ 2 ∨ policy = 1 ∧ (x.safe = false ∨ x.replayed = true)) →
      givesSome (.faultToken c) s (fun u => u.rcd r = { gen := g } ∧ packetFreed s u (handleDesc x.disp.handle)
        ∧ reported s u (64 * 26) 0x52 { detail := g.toNat * 8192 + r, master := x.thread.toNat }))) ∧
  (∀ (s : State) (r : Nat), r < 8192 → s.up 26 = true → (s.rcd r).st = .held → (s.rcd r).eccHeld = false → (s.rcd r).placed = true →
    (s.rcd r).task = false →
    (if (s.rcd r).struck then (s.rcd r).hold else domHold (s.domClass (s.rcd r).accord.toNat (s.rcd r).domain.toNat)) ≠ 0 →
    givesSome (.holdExpired r) s (fun u => u.rcd r = { gen := (s.rcd r).gen } ∧ packetFreed s u (handleDesc (s.rcd r).disp.handle)
      ∧ reported s u (64 * 26) 0x54 { detail := (s.rcd r).gen.toNat * 8192 + r, master := (s.rcd r).thread.toNat })) ∧
  (∀ (s : State) (c r b : Nat), c < 26 → s.arrive c 26 = some (.notice b) → eachOnce s →
    (s.rcd r).st = .running → (s.rcd r).thread.toNat / 128 = c → (s.rcd r).placed = true → s.seq.badRec = [] →
    (∀ m ∈ s.net, ∀ d, m.msg ≠ .dispatch d) →
    domPolicy (s.domClass (s.rcd r).accord.toNat (s.rcd r).domain.toNat) = 0 →
    givesSome (.resetNotice c) s (fun u => (u.rcd r).st = .held ∧ (u.rcd r).fault = 0xFF ∧ ∀ t ∈ u.seq.busy, t / 128 ≠ c)) ∧
  (∀ (s : State) (c t : Nat), c < 26 → s.arrive c 26 = some (.threadFree t) → givesSome (.threadFreeToken c) s (fun u =>
    u.seq = { s.seq with busy := s.seq.busy.filter (· != t) } ∧ u.net = dropCrossing c 26 s.net)) ∧
  (∀ s : State, s.up 26 = true → s.accord.drainValid = true → eachOnce s → givesSome .drainBoundExpire s (fun u =>
    u.accord.drainValid = false ∧ u.accord.markers = 0 ∧ u.tables.sweeping = s.tables.sweeping ++ [s.accord.draining.toNat]
      ∧ u.accord.struck = s.seq.recs.countP (fun e => e.2.st != .free && e.2.st != .committed && !e.2.struck && e.2.accord == s.accord.draining)
      ∧ ∀ e ∈ u.seq.recs, e.2.accord = s.accord.draining → e.2.counts = false))

/-- Descriptors and task requests become records of the Sequencer, or go back. -/
def Obligations.DescriptorsAndTasksBecomeRecords : Prop := Claims.DescriptorsBecomeRecordsOrAreRefused ∧ Claims.TasksBecomeRecordsOrGoBack

/-- The Atomizer dispatches the next record, and the dispatch reaches its thread. -/
def Obligations.RecordsAreDispatchedToThreads : Prop := Claims.AtomizerDispatchesTheNextRecord ∧ Claims.DispatchesReachTheirThreads

/-- A token changes the record it names, and a stale token changes none. -/
def Obligations.TokensChangeOnlyTheirRecord : Prop := Claims.TokensChangeTheirRecord ∧ Claims.StaleTokensChangeNoRecord

/-- Grants, acknowledgements and commits. -/
def Obligations.GrantsAndCommitsEndTheirWaits : Prop := Claims.GrantsAndAcknowledgementsEndTheirWaits ∧ Claims.CommitsHoldAndHandOverOutcomes


/-! ### Ports, lanes and the field time pins -/

namespace Sys2Proof.Claims

/-- Nothing but what is counted has changed. -/
def onlyCounted (s u : State) : Prop := u = { s with obs := u.obs }

/-- The frame joins the port's receive FIFO, or, where the FIFO has no room for it, is discarded whole and reported (R74). -/
def toFifo (s u : State) (p : Nat) (f : RxFrame) : Prop :=
  if ((s.port p).rxFifo.map (·.data.length)).sum + f.data.length ≤ 12288 * modeLanes (s.portMode p) then
    u.port p = { s.port p with rxFifo := (s.port p).rxFifo ++ [f] } ∧ u.faults = s.faults
  else u.port p = s.port p ∧ reported s u (laneSrc p) 0x45 {}

/-- An event bit of a port is set (R52). -/
def portEventSet (s u : State) (p bit : Nat) (x : Port) : Prop :=
  u.port p = { x with events := (s.port p).events ||| (1 <<< (bit - 17)) }

end Sys2Proof.Claims

/-- R33, R36, R37, R43, R74: a received frame meets the checks in their order. A bad or short frame is discarded; an over-long one is cut to
the maximum and one byte more and passed with verdict 1; a MAC Control frame is consumed, and a pause frame that FLOW enables stops or
frees the port, a PFC frame the classes that it and the port's map name; another frame of a port without MACsec passes without its FCS with verdict 0.
The model's own choices in it: log 23. -/
def Sys2Proof.Claims.ReceivedFramesPassTheChecksInOrder : Prop :=
  ∀ (s : State) (p : Nat) (wire : List Byte) (fecBad : Bool), s.portOn p = true → (s.port p).linkUp = true →
    let n := wire.length
    let body := wire.take (n - 4)
    let maxf := fld (s.portWord p) 13 0
    let time := s.stamp (fld (s.obj 0x0016 p) 31 16)
    let good := fecBad = false ∧ 4 ≤ n ∧ wire.drop (n - 4) = fcs body
    (¬ good ∨ n < 64 → givesSome (.frameReceive p wire fecBad) s (onlyCounted s)) ∧
    (good → 64 ≤ n → maxf < n → givesSome (.frameReceive p wire fecBad) s (fun u =>
      let l := wire.take (maxf + 1)
      toFifo s u p { data := l, time := time, port := p, verdict := 1, tclass := BitVec.ofNat 3 (s.trafficClass p l), wire := n })) ∧
    (good → 64 ≤ n → n ≤ maxf → etherType wire = 0x8808 → givesSome (.frameReceive p wire fecBad) s (fun u =>
      (u.port p).rxFifo = (s.port p).rxFifo ∧ u.slices = s.slices ∧
        (s.portFlow p = 1 → beVal (slice body 14 2) = 1 →
          (u.port p).paused.getLsbD 8 = (beVal (slice body 16 2) != 0) ∧ ∀ c < 8, (u.port p).paused.getLsbD c = (s.port p).paused.getLsbD c) ∧
        (s.portFlow p = 2 → beVal (slice body 14 2) = 0x0101 → (u.port p).paused.getLsbD 8 = (s.port p).paused.getLsbD 8 ∧
          ∀ c < 8, (u.port p).paused.getLsbD c = if (beVal (slice body 16 2)).testBit c ∧ (fld (s.obj 0x0012 p) 36 29).testBit c
            then beVal (slice body (18 + 2 * c) 2) != 0 else (s.port p).paused.getLsbD c) ∧
        (s.portFlow p = 0 → (u.port p).paused = (s.port p).paused))) ∧
    (good → 64 ≤ n → n ≤ maxf → etherType wire ≠ 0x8808 → s.portMacsec p = 0 → givesSome (.frameReceive p wire fecBad) s (fun u =>
      toFifo s u p { data := body, time := time, port := p, verdict := 0, tclass := BitVec.ofNat 3 (s.trafficClass p body), wire := n })) ∧
    (good → 64 ≤ n → n ≤ maxf → etherType wire = 0x888E → s.portMacsec p ≠ 0 → givesSome (.frameReceive p wire fecBad) s (fun u =>
      toFifo s u p { data := body, time := time, port := p, verdict := 3, tclass := BitVec.ofNat 3 (s.trafficClass p body), wire := n }))

/-- R37, R38, R74, R376: a whole frame passes to the input buffer of its slice when it fits and is discarded where the slice is in reset;
traffic may start again when its quanta have passed; an account still above XON has its pause or PFC frame repeated.
The model's own choices in it: log 15. -/
def Sys2Proof.Claims.FifoAndPauseFollowTheSlices : Prop :=
  (∀ (s : State) (p : Nat) (f : RxFrame) (rest : List RxFrame), p < 40 → s.up (portIsl p) = true → (s.port p).rxFifo = f :: rest →
    let i := if p < 32 then p / 8 else 0
    (s.inReset (27 + i) = true → givesSome (.fifoToInputBuffer p) s (fun u =>
      u.port p = { s.port p with rxFifo := rest } ∧ u.slices = s.slices)) ∧
    (s.inReset (27 + i) = false → s.inputUsed i + f.data.length ≤ 65536 → givesSome (.fifoToInputBuffer p) s (fun u =>
      u.port p = { s.port p with rxFifo := rest } ∧ u.slc i = { s.slc i with input := (s.slc i).input ++ [f] }
        ∧ ∀ k, k ≠ i → u.slc k = s.slc k)) ∧
    (s.inReset (27 + i) = false → 65536 < s.inputUsed i + f.data.length → gives (.fifoToInputBuffer p) s s)) ∧
  (∀ (s : State) (p c : Nat), p < 40 → c < 9 → s.up (portIsl p) = true → givesSome (.pauseQuantaExpire p c) s (fun u =>
    (u.port p).paused.getLsbD c = false ∧ (∀ k, k < 9 → k ≠ c → (u.port p).paused.getLsbD k = (s.port p).paused.getLsbD k)
      ∧ (∀ q, q ≠ p → u.port q = s.port q) ∧ u.out = s.out)) ∧
  (∀ (s : State) (p c : Nat), c < 8 → s.portOn p = true → (s.port p).linkUp = true → (s.port p).xoffSent.getLsbD c = true →
    fld (s.obj 0x0013 (p * 8 + c)) 17 0 < s.account p c →
    (s.portFlow p = 1 → givesSome (.pauseRepeat p c) s (fun u => u.out = .pause p 8 0xFFFF :: s.out ∧ u.ports = s.ports)) ∧
    (s.portFlow p = 2 → fld (s.obj 0x0012 p) 36 29 / 2 ^ c % 2 = 1 → givesSome (.pauseRepeat p c) s (fun u =>
      u.out = .pause p c 0xFFFF :: s.out ∧ u.ports = s.ports)) ∧
    (s.portFlow p = 0 → givesSome (.pauseRepeat p c) s (fun u => u.out = s.out ∧ u.ports = s.ports)))

/-- R34, R35, R43 to R46, R386: a port sends the next frame it has taken with its FCS, padded to the least length; the frame of an
uncorrectable packet leaves with its FCS inverted and is reported; a two-step frame leaves its tag and egress time, or a report where its FIFO is full; while the link is
down a frame is discarded where the port's word says so and kept where it does not. The packet is freed with it. -/
def Obligations.TransmittedFramesLeaveWhole : Prop :=
  ∀ (s : State) (p : Nat) (k : QPkt) (rest : List QPkt), s.portOn p = true → (s.port p).txAhead = k :: rest →
    let l := padTo 60 (s.packetBytes k.desc)
    let act := bits k.word.toNat 63 62
    ((s.port p).linkUp = true → s.portMacsec p = 0 → act ≠ 2 → k.poison = false → s.packetBad k.desc = none →
      givesSome (.frameTransmit p) s (fun u =>
        (∃ o, u.out = .frame p (l ++ fcs l) true :: o) ∧ (u.port p).txAhead = rest ∧ packetFreed s u k.desc ∧
          (act ≠ 1 → u.port p = { s.port p with txAhead := rest } ∧ u.out = .frame p (l ++ fcs l) true :: s.out) ∧
          (act = 1 → (s.port p).tsFifo.length < 64 → (u.port p).tsFifo = (s.port p).tsFifo ++
            [(BitVec.ofNat 16 (bits k.word.toNat 61 46), s.stamp (fld (s.obj 0x0016 p) 15 0))]) ∧
          (act = 1 → 64 ≤ (s.port p).tsFifo.length → (u.port p).tsFifo = (s.port p).tsFifo
            ∧ reported s u (64 * portIsl p + 0x11) 0x42 {}))) ∧
    ((s.port p).linkUp = true → s.portMacsec p = 0 → act = 0 → k.poison = true → givesSome (.frameTransmit p) s (fun u =>
      u.out = .frame p (l ++ (fcs l).map (~~~ ·)) false :: s.out ∧ packetFreed s u k.desc ∧ reported s u (laneSrc p) 0x40 {})) ∧
    ((s.port p).linkUp = false → fld (s.portWord p) 17 17 = 1 → givesSome (.frameTransmit p) s (fun u =>
      u.port p = { s.port p with txAhead := rest } ∧ packetFreed s u k.desc ∧ u.out = s.out)) ∧
    ((s.port p).linkUp = false → fld (s.portWord p) 17 17 = 0 → gives (.frameTransmit p) s s)

/-- R48 to R52: what befalls lanes and links. A lane that loses lock holds its coefficients; after the hold it acquires in full; a loss of
10 µs takes the link down and sends remote fault; LINK_UP records the outage. Each event sets its bit of the port's status word. -/
def Sys2Proof.Claims.LinksAndLanesRaiseTheirEvents : Prop :=
  (∀ (s : State) (l p : Nat), l < 40 → s.up (portIsl l) = true → s.portOfLane l = some p → (s.lane l).lost = false →
    givesSome (.lockLost l) s (fun u => u.lane l = { s.lane l with lost := true, holding := true } ∧ portEventSet s u p 21 (s.port p))) ∧
  (∀ (s : State) (l p : Nat), l < 40 → s.up (portIsl l) = true → s.portOfLane l = some p → (s.port p).linkUp = true →
    gives (.lockRegained l) s (s.modLane l (fun x => { x with lost := false, holding := false }))) ∧
  (∀ (s : State) (p : Nat), s.portOn p = true → (∃ l ∈ s.portLanes p, (s.lane l).lost = true) → (s.port p).linkUp = true →
    givesSome (.linkDown p) s (fun u => portEventSet s u p 23 { s.port p with linkUp := false, downSince := s.time.elapsed }
      ∧ ∃ o, u.out = .remoteFault p :: o)) ∧
  (∀ (s : State) (p : Nat), s.portOn p = true → (s.port p).linkUp = false → (∀ l ∈ s.portLanes p, (s.lane l).recal ≠ 2) →
    givesSome (.linkUp p) s (fun u =>
      portEventSet s u p 22 { s.port p with linkUp := true, lastOutage := BitVec.ofNat 16 (min ((s.time.elapsed - (s.port p).downSince) / 1000) 65535) }
        ∧ ∀ l ∈ s.portLanes p, (u.lane l).lost = false ∧ (u.lane l).acquiring = false ∧ (u.lane l).ready = true)) ∧
  (∀ (s : State) (l : Nat), l < 40 → s.up (portIsl l) = true → (s.lane l).lost = true → (s.lane l).holding = true →
    gives (.surgeHoldExpire l) s (s.modLane l (fun x => { x with holding := false, acquiring := true }))) ∧
  (∀ (s : State) (p : Nat), s.portOn p = true → (s.port p).remoteFault = false → givesSome (.remoteFault p) s (fun u =>
    portEventSet s u p 18 { s.port p with remoteFault := true })) ∧
  (∀ (s : State) (p : Nat), s.portOn p = true → givesSome (.remoteFaultCleared p) s (fun u =>
    u.port p = { s.port p with remoteFault := false } ∧ ∀ q, q ≠ p → u.port q = s.port q)) ∧
  (∀ (s : State) (p n : Nat), s.portOn p = true →
    let t := fld (s.obj 0x0012 p) 28 5
    givesSome (.fecDegrade p n) s (fun u => if t ≠ 0 ∧ t < n then portEventSet s u p 20 (s.port p) else u.port p = s.port p)) ∧
  (∀ (s : State) (l : Nat) (ok : Bool), l < 40 → s.up (portIsl l) = true → (s.lane l).recal = 0 → (s.lane l).acquiring = true →
    givesSome (.laneRecalDone l ok) s (fun u =>
      (ok = true → u.lane l = { s.lane l with acquiring := false, lost := false, ready := true }) ∧
      (ok = false → u.lane l = { s.lane l with acquiring := false } ∧ reported s u (laneSrc l) 0x43 {})))

/-- R47: PPS_IN captures device time and counts; PPS_OUT rises at a whole second not yet marked, with the width now set, and falls after it;
the time-of-day message is T, twelve hexadecimal digits of the seconds and a carriage return. -/
def Sys2Proof.Claims.TimePinsMarkTheSecond : Prop :=
  (∀ s : State, s.up 52 = true → gives .ppsInEdge s { s with ports := { s.ports with pins := { s.ports.pins with
    ppsInTime := s.time.ns, ppsInCount := s.ports.pins.ppsInCount + 1, ppsInNew := true } } }) ∧
  (∀ s : State, s.up 52 = true → s.ports.pins.ppsOut = false → s.ports.pins.lastEdge ≠ some (s.time.ns.toNat / 1000000000) →
    gives .ppsOutEdge s { s with ports := { s.ports with pins := { s.ports.pins with
      ppsOut := true, lastEdge := some (s.time.ns.toNat / 1000000000), todDue := some (BitVec.ofNat 48 (s.time.ns.toNat / 1000000000)),
      width := fld (s.obj 0x0018 0) 63 45 } } }) ∧
  (∀ s : State, givesSome .ppsOutPulseEnd s (fun u => u.ports.pins = { s.ports.pins with ppsOut := false })) ∧
  (∀ (s : State) (sec : BitVec 48), s.up 52 = true → s.ports.pins.todDue = some sec → givesSome .todTxMessage s (fun u =>
    u.ports.pins = { s.ports.pins with todDue := none } ∧ ∃ d : List Byte, u.out = .tod ([0x54] ++ d ++ [0x0D]) :: s.out ∧ d.length = 12
      ∧ ∀ i < 12, d.getD i 0 = let n := sec.toNat / 16 ^ (11 - i) % 16; BitVec.ofNat 8 (if n < 10 then 0x30 + n else 0x41 + (n - 10))))

/-- Received frames, the receive FIFO and pause. -/
def Obligations.ReceivedFramesAndPauseFollowTheSlices : Prop := Claims.ReceivedFramesPassTheChecksInOrder ∧ Claims.FifoAndPauseFollowTheSlices

/-- Links, lanes and the time pins. -/
def Obligations.LinksLanesAndTimePinsRaiseTheirEvents : Prop := Claims.LinksAndLanesRaiseTheirEvents ∧ Claims.TimePinsMarkTheSecond


/-! ### The Ingress Front End -/

/-- R59 to R71, R74: the oldest frame of a slice's input buffer is discarded before the first Accord; after it the frame is walked and
classified, and is discarded where a word it read is uncorrectable or its profile says so, or takes a hand-off place, with the stamp, domain, priority, role, port, verdict,
class and length in its metadata word and the flow hash of its slots.
The model's own choices in it: log 10, 14, 24. -/
def Sys2Proof.Claims.SlicesStampTheFramesTheyParse : Prop :=
  ∀ (s : State) (i : Nat) (f : RxFrame) (rest : List RxFrame), i < 4 → s.up (27 + i) = true → (s.slc i).input = f :: rest →
    ((s.slc i).tag = none → givesSome (.sliceParseStart i) s (fun u =>
      u.slc i = { s.slc i with input := rest } ∧ ∀ k, k ≠ i → u.slc k = s.slc k)) ∧
    (∀ tag row, (s.slc i).tag = some tag → (s.slc i).pipe.length < 256 →
      let w := parseWalk s tag f.data
      let c := classify s tag i (classKey s tag f w)
      (w.touched ++ (List.range c.2).map pgRule ++ [pgProfile c.1]).find? (fun r => (s.slc i).badWords.contains (tag % 2 * 4096 + r)) = some row →
      givesSome (.sliceParseStart i) s (fun u => u.slc i = { s.slc i with input := rest } ∧ (∀ k, k ≠ i → u.slc k = s.slc k)
        ∧ reported s u (64 * (27 + i)) 0x48 { addr := row, master := 0x40C0 + i, access := 1 })) ∧
    (∀ tag, (s.slc i).tag = some tag → tag < 16 → f.port < 40 → f.data.length < 16384 → (s.slc i).pipe.length < 256 →
      (s.slc i).badWords = [] → givesSome (.sliceParseStart i) s (fun u =>
        let w := parseWalk s tag f.data
        let e := s.sobj tag 0x0024 (classify s tag i (classKey s tag f w)).1
        let h := flowHash (fld (s.sobj tag 0x0025 0) 31 0) w.slots w.valid (fld e 31 0)
        (∀ k, k ≠ i → u.slc k = s.slc k) ∧
        if fld e 32 32 = 1 then u.slc i = { s.slc i with input := rest }
        else ∃ x : InFlight, u.slc i = { s.slc i with input := rest, pipe := (s.slc i).pipe ++ [x] } ∧ x.frame = f ∧ x.cells = []
          ∧ x.desc = false ∧ x.waiting = false ∧ x.disp.ts = f.time ∧ x.disp.hash = h ∧ x.disp.slots = w.slots
          ∧ let m := x.disp.metaw.toNat
            bits m 63 60 = tag ∧ bits m 59 44 = (fld e 63 48 + h.toNat % 2 ^ fld e 47 43) % 65536
              ∧ bits m 43 41 = (if fld e 42 42 = 1 then f.tclass.toNat else fld e 41 39) ∧ bits m 40 35 = fld e 38 33
              ∧ bits m 34 29 = f.port ∧ bits m 28 27 = f.verdict.toNat ∧ bits m 26 24 = f.tclass.toNat ∧ bits m 23 16 = w.state
              ∧ bits m 15 15 = b2n (w.err != .none) ∧ bits m 14 14 = b2n w.ptp ∧ bits m 13 0 = f.data.length))

/-- R69, R71, R73, R290, R294: the first frame of a slice that is not complete takes a descriptor, then its cells one at a time while its
ingress account lets it; where one is refused it waits, and a frame that has waited CELL_WAIT is discarded with what it holds.
The model's own choices in it: log 25. -/
def Sys2Proof.Claims.FramesTakeDescriptorsAndCells : Prop :=
  ∀ (s : State) (i : Nat) (pre post : List InFlight) (x : InFlight), i < 4 → s.up (27 + i) = true →
    (s.slc i).pipe = pre ++ x :: post → (∀ y ∈ pre, y.complete = true) → x.complete = false →
    let d := handleDesc x.disp.handle
    (∀ n, s.up 41 = true → x.desc = false → s.freeDesc = some n → givesSome (.cellRequest i) s (fun u =>
      let h := BitVec.ofNat 32 (((s.desc n).gen + 1).toNat * 2 ^ 24 + n)
      u.desc n = { st := .held, gen := (s.desc n).gen + 1, metaw := x.disp.metaw, ts := x.disp.ts.truncate 32 }
        ∧ (∀ k, k ≠ n → u.desc k = s.desc k) ∧ (u.slc i).pipe = pre ++ { x with desc := true, disp := { x.disp with handle := h } } :: post)) ∧
    (s.up 41 = true → x.desc = true → s.cellGranted x.frame.port x.frame.tclass.toNat = true → (s.pool 0).cached i ≠ 0 →
      (s.pool 0).lost = [] → (s.pool 0).stuck = [] → (s.pool 0).ring.next < (s.pool 0).ring.limit → givesSome (.cellRequest i) s (fun u =>
        let c := (s.pool 0).ring.next
        let n := x.cells.length
        (u.slc i).pipe = pre ++ { x with cells := x.cells ++ [c], denied := false } :: post ∧ (u.pool 0).ring.next = c + 1
          ∧ (u.desc d).cells = (s.desc d).cells ++ [c] ∧ u.account x.frame.port x.frame.tclass.toNat = s.account x.frame.port x.frame.tclass.toNat + 1
          ∧ (∀ k, k < 256 → n * 256 + k < x.frame.data.length → mget u.pools.cells (c * 256 + k) = x.frame.data.getD (n * 256 + k) 0)
          ∧ ∀ a, a < c * 256 ∨ c * 256 + 256 ≤ a → mget u.pools.cells a = mget s.pools.cells a)) ∧
    (s.up 41 = false ∨ x.desc = false ∧ s.freeDesc = none ∨ x.desc = true ∧ s.cellGranted x.frame.port x.frame.tclass.toNat = false →
      givesSome (.cellRequest i) s (fun u =>
        (u.slc i).pipe = pre ++ { x with waiting := true, denied := x.denied || (s.up 41 && x.desc) } :: post ∧ u.pools = s.pools)) ∧
    (x.waiting = true → x.desc = true → givesSome (.cellWaitExpire i) s (fun u =>
      (u.slc i).pipe = pre ++ post ∧ packetFreed s u d ∧ reported s u (64 * (27 + i)) 0x49 { master := 0x40C0 + i })) ∧
    (x.waiting = true → x.desc = false → givesSome (.cellWaitExpire i) s (fun u =>
      (u.slc i).pipe = pre ++ post ∧ u.pools = s.pools ∧ reported s u (64 * (27 + i)) 0x4A { master := 0x40C0 + i }))

/-- R66, R67, R352: a marker makes its tag current in a slice, which keeps the old copy until no frame stamped with it is left. -/
def Obligations.MarkersChangeTheSlicesAccord : Prop :=
  (∀ (s : State) (i tag : Nat), i < 4 → s.arrive 26 (27 + i) = some (.marker tag) → givesSome (.markerAtSlice i) s (fun u =>
    u.slc i = { s.slc i with oldTag := (s.slc i).tag, tag := some tag } ∧ (∀ k, k ≠ i → u.slc k = s.slc k)
      ∧ u.net = dropCrossing 26 (27 + i) s.net)) ∧
  (∀ (s : State) (i tag : Nat), i < 4 → s.up (27 + i) = true → (s.slc i).oldTag = some tag →
    ((∃ x ∈ (s.slc i).pipe, bits x.disp.metaw.toNat 63 60 = tag) → gives (.sliceCopyRelease i) s s) ∧
    ((∀ x ∈ (s.slc i).pipe, bits x.disp.metaw.toNat 63 60 ≠ tag) → givesSome (.sliceCopyRelease i) s (fun u =>
      (u.slc i).oldTag = none ∧ (u.slc i).tag = (s.slc i).tag ∧ (u.slc i).pipe = (s.slc i).pipe)))

/-! ### The slices of the Atomic and Lock Unit -/

namespace Sys2Proof.Claims

/-- The load of thread `t` with this identity has its answer: the value and the flags it will write. -/
def answered (s u : State) (t id : Nat) (v : W64) (fl : Fl) : Prop :=
  ∃ q, (u.th t).loads = (s.th t).loads.map (fun l => if l.id = id then { l with value := some (v, some fl), poison := false, seq := q } else l)

/-- The answer of a lock instruction: its status code, Z where the lock is now owned, C where it was abandoned (R198). -/
def lockAnswer (s u : State) (t id code : Nat) : Prop :=
  answered s u t id (BitVec.ofNat 64 code) (mkFl (decide (code ≤ 1)) false (decide (code = 1)) false)

/-- What an atomic leaves in memory, by OP: CAS32, CAS64, FADD, SWAP, AND, OR, BINC (R201). -/
def afterAtomic (op : Nat) (old acc new2 : W64) : W64 :=
  match op with
  | 0 => if old.toNat % 2 ^ 32 = acc.toNat % 2 ^ 32 then BitVec.ofNat 64 (acc.toNat / 2 ^ 32) else old
  | 1 => if old = acc then new2 else old
  | 2 => old + acc
  | 3 => acc
  | 4 => old &&& acc
  | 5 => old ||| acc
  | _ => if old.toNat < acc.toNat then old + 1 else old

/-- The flags it gives. -/
def atomicFlags (op : Nat) (old acc : W64) : Fl :=
  match op with
  | 0 => mkFl (old.toNat % 2 ^ 32 == acc.toNat % 2 ^ 32) false false false
  | 1 => mkFl (old == acc) old.msb false false
  | 2 => mkFl (old == 0) old.msb (decide (2 ^ 64 ≤ old.toNat + acc.toNat)) (outside64 (old.toInt + acc.toInt))
  | 6 => mkFl (old == 0) old.msb (decide (acc.toNat ≤ old.toNat)) false
  | _ => mkFl (old == 0) old.msb false false

/-- The width of an atomic in bytes. -/
def atomicWidth (op : Nat) : Nat := if op = 0 then 4 else 8

end Sys2Proof.Claims

/-- R198, R199, R257 to R260: what a lock request does at its slice. A free lock is granted, and a release of it
changes nothing; a held one queues an LKA and turns an LKT away; its owner's LKR passes it to the oldest waiter or frees it; another master's LKR withdraws that master's request, or is refused and reported. -/
def Obligations.LocksFollowTheLockWord : Prop :=
  ∀ (s : State) (c b id t w : Nat) (op : LockOp), c < 26 → b < 32 → w / 2048 = b → t < 4096 →
    s.arrive c (37 + b / 8) = some (.lockReq id t w op) → s.hopAhead c (37 + b / 8) id = false → w ∉ s.tables.badLocks → (s.lock w).broken = false →
    let l := s.lock w
    (op ≠ .release → l.held = false → givesSome (.lockRequest c b) s (fun u =>
      u.lock w = { l with held := true, owner := BitVec.ofNat 16 t, abandoned := false } ∧ lockAnswer s u t id (b2n l.abandoned)
        ∧ ∀ k, k ≠ w → u.lock k = s.lock k)) ∧
    (op = .release → l.held = false → (∀ m ∈ l.queue, m.toNat ≠ t) → givesSome (.lockRequest c b) s (fun u =>
      u.lock w = l ∧ lockAnswer s u t id 5)) ∧
    (op = .acquire → l.held = true → l.owner.toNat ≠ t → s.lockQueued t = false → givesSome (.lockRequest c b) s (fun u =>
      u.lock w = { l with queue := l.queue ++ [BitVec.ofNat 16 t] } ∧ lockAnswer s u t id 2 ∧ (u.th t).lockWait = some w)) ∧
    (op = .tryLock → l.held = true → l.owner.toNat ≠ t → givesSome (.lockRequest c b) s (fun u =>
      u.lock w = l ∧ lockAnswer s u t id 3)) ∧
    (op = .release → l.held = true → l.owner.toNat = t → (∀ m ∈ l.queue, m.toNat ≠ t) →
      (l.queue = [] → givesSome (.lockRequest c b) s (fun u =>
        u.lock w = { l with held := false, owner := 0 } ∧ lockAnswer s u t id 0)) ∧
      (∀ m rest, l.queue = m :: rest → givesSome (.lockRequest c b) s (fun u =>
        u.lock w = { l with owner := m, queue := rest } ∧ lockAnswer s u t id 0
          ∧ ⟨37 + b / 8, m.toNat / 128, .lockGrant m.toNat w s.nextId⟩ ∈ u.net))) ∧
    (op = .release → l.held = true → l.owner.toNat ≠ t → (∀ m ∈ l.queue, m.toNat ≠ t) → givesSome (.lockRequest c b) s (fun u =>
      u.lock w = l ∧ lockAnswer s u t id 4 ∧ (u.th t).halt = (s.th t).halt
        ∧ reported s u (64 * (37 + b / 8) + 0x10 + b % 8) 0x80 { addr := w, master := t, access := 4 })) ∧
    (op = .release → (∃ m ∈ l.queue, m.toNat = t) → givesSome (.lockRequest c b) s (fun u =>
      u.lock w = { l with queue := l.queue.filter (fun m => m.toNat != t) } ∧ lockAnswer s u t id 6 ∧ (u.th t).lockWait = none))

/-- R201, R202, R253, R254, R186: an atomic at its slice leaves its row of the table in memory, in the Table Store or in DRAM, and answers
the old value with its flags; an aperture load answers the bytes it reads, a store writes its own and CNT adds. No other byte changes. -/
def Sys2Proof.Claims.AtomicsAndAperturesActAtTheirSlice : Prop :=
  (∀ (s : State) (c i : Nat) (r : MemReq) (op : BitVec 3), c < 26 → 37 ≤ i → i ≤ 40 → s.arrive c i = some (.mem r) → s.hopAhead c i r.id = false → r.kind = .atomic op →
    op.toNat < 7 → 2 ^ r.size.toNat = atomicWidth op.toNat → (∀ y ∈ s.tables.structs, y.mirror = false) →
    let a := s.aperturePhys r.tag (apertureBank r.addr) (r.addr % 0x200000)
    let old := BitVec.ofNat 64 (mreadLE s.tables.rows a (atomicWidth op.toNat))
    s.rowBad a = false → givesSome (.atomicAtSlice c i) s (fun u =>
      mreadLE u.tables.rows a (atomicWidth op.toNat) = (afterAtomic op.toNat old r.data r.data2).toNat % 2 ^ (8 * atomicWidth op.toNat)
        ∧ (∀ x, x < a ∨ a + atomicWidth op.toNat ≤ x → mget u.tables.rows x = mget s.tables.rows x)
        ∧ answered s u r.thread r.id old (atomicFlags op.toNat old r.data))) ∧
  (∀ (s : State) (c i : Nat) (r : MemReq) (op : BitVec 3), c < 26 → 43 ≤ i → i ≤ 50 → s.arrive c i = some (.mem r) → s.hopAhead c i r.id = false → r.kind = .atomic op →
    op.toNat < 7 → 2 ^ r.size.toNat = atomicWidth op.toNat → r.addr / 64 ∉ s.dram.bad → s.dram.flips = [] →
    s.dramGone r.addr (2 ^ r.size.toNat) = false → s.dramOpen r.addr (2 ^ r.size.toNat) = true →
    let old := BitVec.ofNat 64 (mreadLE s.dram.data r.addr (atomicWidth op.toNat))
    givesSome (.atomicAtSlice c i) s (fun u =>
      mreadLE u.dram.data r.addr (atomicWidth op.toNat) = (afterAtomic op.toNat old r.data r.data2).toNat % 2 ^ (8 * atomicWidth op.toNat)
        ∧ (∀ x, x < r.addr ∨ r.addr + atomicWidth op.toNat ≤ x → mget u.dram.data x = mget s.dram.data x)
        ∧ answered s u r.thread r.id old (atomicFlags op.toNat old r.data))) ∧
  (∀ (s : State) (c b : Nat) (r : MemReq), c < 26 → b < 32 → s.arrive c (37 + b / 8) = some (.mem r) → s.hopAhead c (37 + b / 8) r.id = false → apertureBank r.addr = b →
    let a := s.aperturePhys r.tag b (r.addr % 0x200000)
    let n := 2 ^ r.size.toNat
    (r.kind = .load → s.rowBad a = false → givesSome (.apertureAccess c b) s (fun u =>
      u.tables = s.tables ∧ (u.th r.thread).loads = (s.th r.thread).loads.map (fun l => if l.id = r.id then
        { l with value := some (extendLoad (2 ^ l.size.toNat) l.signed (BitVec.ofNat 64 (mreadLE s.tables.rows a n)).toNat, none), poison := false, seq := s.nextId } else l))) ∧
    (r.kind = .store → (∀ y ∈ s.tables.structs, y.mirror = false) → givesSome (.apertureAccess c b) s (fun u =>
      mreadLE u.tables.rows a n = r.data.toNat % 2 ^ (8 * n) ∧ (∀ x, x < a ∨ a + n ≤ x → mget u.tables.rows x = mget s.tables.rows x)
        ∧ (u.th r.thread).stores = (s.th r.thread).stores.map (fun e => if e.id = r.id then { e with done := true, seq := s.nextId } else e))) ∧
    (r.kind = .cnt → s.rowBad a = false → (∀ y ∈ s.tables.structs, y.mirror = false) → givesSome (.apertureAccess c b) s (fun u =>
      mreadLE u.tables.rows a 8 = (mreadLE s.tables.rows a 8 + r.data.toNat) % 2 ^ 64
        ∧ ∀ x, x < a ∨ a + 8 ≤ x → mget u.tables.rows x = mget s.tables.rows x)))

/-- R255, R332, R338, R343: a far load takes a read place of its channel with the bytes it will answer, and one of a frame not yet swept
is answered zero; a far store writes its bytes, takes a write place and is complete; an access to a channel in reset is refused. -/
def Sys2Proof.Claims.FarAccessesTakeTheirPlace : Prop :=
  ∀ (s : State) (c ch : Nat) (r : MemReq), c < 26 → ch < 8 → s.arrive c (43 + ch) = some (.mem r) → s.hopAhead c (43 + ch) r.id = false →
    s.dram.decant = none → s.homeChannel r.addr = ch →
    let n := 2 ^ r.size.toNat
    let unswept := (s.chan ch).unswept ((s.place' r.addr).2 / 2 ^ 23)
    let complete := fun (u : State) =>
      (u.th r.thread).stores = (s.th r.thread).stores.map (fun e => if e.id = r.id then { e with done := true, seq := s.nextId } else e)
    (s.dramGone r.addr n = false → s.dramRuns r.addr n = true → r.kind = .load → (s.chan ch).reads.length < 64 → (s.chan ch).writes = [] →
      unswept = false → givesSome (.farAccess c ch) s (fun u =>
      (∃ q, (u.chan ch).reads = (s.chan ch).reads ++ [q] ∧ q.id = r.id ∧ q.thread = r.thread ∧ q.addr = r.addr ∧ q.cls = r.sc
        ∧ q.data = BitVec.ofNat 64 (mreadLE s.dram.data r.addr n) ∧ q.bad = s.lineBad (r.addr / 64))
        ∧ u.dram.data = s.dram.data ∧ u.clusters = s.clusters)) ∧
    (s.dramGone r.addr n = false → s.dramRuns r.addr n = true → r.kind = .load → (s.chan ch).reads.length < 64 → unswept = true →
      givesSome (.farAccess c ch) s (fun u => u.dram = s.dram ∧ (u.th r.thread).loads = (s.th r.thread).loads.map (fun l =>
        if l.id = r.id then { l with value := some (extendLoad (2 ^ l.size.toNat) l.signed 0, none), poison := false, seq := s.nextId } else l))) ∧
    (s.dramGone r.addr n = true → r.kind = .load ∨ r.kind = .store → givesSome (.farAccess c ch) s (fun u => u.dram = s.dram
      ∧ reported s u (64 * (r.thread / 128) + coreOf r.thread) 0xA6
          { addr := r.addr, master := r.thread, access := if r.kind = .load then 1 else 2, detail := r.gen.toNat * 8192 + r.record, conseq := true }
      ∧ (r.kind = .store → complete u ∧ u.net = dropCrossing c (43 + ch) s.net ++ [⟨r.thread / 128, 26, .poison r.thread r.record r.gen⟩]))) ∧
    (s.dramGone r.addr n = false → s.dramRuns r.addr n = true → r.kind = .store → (s.chan ch).writes.length < 64 → givesSome (.farAccess c ch) s (fun u =>
      mreadLE u.dram.data r.addr n = r.data.toNat % 2 ^ (8 * n) ∧ (∀ x, x < r.addr ∨ r.addr + n ≤ x → mget u.dram.data x = mget s.dram.data x)
        ∧ (u.chan ch).writes.length = (s.chan ch).writes.length + 1 ∧ complete u))

/-- R261 to R263, R265: the reset of a master frees and marks the locks it owns and withdraws its requests, bank by bank; a lease that
expires does the same to the lock it was for, and is reported. One row scans a whole bank: the model's choice, log 14; log 39. -/
def Obligations.ResetsAndLeasesAbandonLocks : Prop :=
  (∀ (s : State) (c b t w : Nat), c < 26 → b < 32 → w / 2048 = b → s.arrive c (37 + b / 8) = some (.masterReset t false b) →
    s.tables.badLocks = [] → (s.lock w).broken = false →
    ((s.lock w).held = true → (s.lock w).owner.toNat = t → (s.lock w).queue = [] → givesSome (.masterReset c b) s (fun u =>
      u.lock w = { held := false, owner := 0, abandoned := true })) ∧
    ((s.lock w).held = true → (s.lock w).owner.toNat ≠ t → givesSome (.masterReset c b) s (fun u =>
      u.lock w = { s.lock w with queue := (s.lock w).queue.filter (fun m => m.toNat != t) }))) ∧
  (∀ (s : State) (c b t w : Nat), c < 26 → b < 32 → w / 2048 = b → s.arrive c (37 + b / 8) = some (.masterReset t false b) →
    s.tables.badLocks = [] → (s.lock w).broken = true → givesSome (.masterReset c b) s (fun u =>
      u.lock w = { s.lock w with queue := (s.lock w).queue.filter (fun m => m.toNat != t) })) ∧
  (∀ (s : State) (w : Nat), w < 65536 → s.up (37 + w / 2048 / 8) = true → (∃ e ∈ s.tables.leases, e.1 = w) → w ∉ s.tables.badLocks →
    (s.lock w).held = true → (s.lock w).broken = false → (s.lock w).owner = Store.get 0 s.tables.leases w → (s.lock w).queue = [] →
    givesSome (.lockLeaseExpire w) s (fun u =>
      u.lock w = { s.lock w with held := false, owner := 0, abandoned := true } ∧ (∀ e ∈ u.tables.leases, e.1 ≠ w)
        ∧ reported s u (64 * (37 + w / 2048 / 8) + 0x10 + w / 2048 % 8) 0x81 { detail := 1, master := (s.lock w).owner.toNat }))

/-- Slices parse and stamp frames, and give them a descriptor and cells. -/
def Obligations.SlicesStampAndPlaceFrames : Prop := Claims.SlicesStampTheFramesTheyParse ∧ Claims.FramesTakeDescriptorsAndCells

/-- Atomics, aperture and far accesses. -/
def Obligations.AccessesActAtTheirSlice : Prop := Claims.AtomicsAndAperturesActAtTheirSlice ∧ Claims.FarAccessesTakeTheirPlace


/-! ### The Table Store's engines -/

namespace Sys2Proof.Claims

/-- The asynchronous command that started `op` has its completion: the operation runs no longer, and the command's reply stored in its
issuer slot, where the window still holds it, is now the completion with this status and these results (R397). -/
def completed (s u : State) (op : AsyncOp) (status : Nat) (results : List Byte) : Prop :=
  (∀ a ∈ u.ycp.asyncs, a.op ≠ op) ∧ ∀ a, s.ycp.asyncs.find? (fun a => a.op == op) = some a →
    u.issuer a.answerTo.issuer = if (s.issuer a.answerTo.issuer).stored.any (fun x => x.serial == a.answerTo.serial) then
      (s.issuer a.answerTo.issuer).put { serial := a.answerTo.serial, status := BitVec.ofNat 16 status, results := results, completion := true }
      else s.issuer a.answerTo.issuer

/-- The helper operation `id` of thread `t` has this result. -/
def hopAnswered (s u : State) (t id : Nat) (r : HelperRes) : Prop :=
  ∃ q, (u.cl (t / 128)).hops = (s.cl (t / 128)).hops.map (fun h => if h.id = id then { h with res := some r, seq := q } else h)

/-- What LKP (op 0) or LKPW (op 1) returns of a result: its first eight bytes in ACC with Z and N of them and C for a hit; LKPW also writes
the result to its destination (R217). -/
def lookAnswer (h : HelperOp) (l : List Byte) (hit : Bool) : HelperRes :=
  let v : W64 := BitVec.ofNat 64 (beVal (l.take 8))
  { acc := v, fl := mkFl (v == 0) v.msb hit false, addr := h.dst, bytes := if h.op = 1 then l else [] }

/-- The islands run. -/
def allUp (s : State) (l : List Nat) : Prop := ∀ i ∈ l, s.up i = true

/-- The sub-rules of a ternary table that the Accord sees and that match the key (R245). -/
def matching (s : State) (x : TStruct) (tag : Nat) (key : List Byte) : List TEntry :=
  x.entries.filter (fun e => s.visible tag e && maskBytes e.mask key == e.key)

end Sys2Proof.Claims

/-- R217, R235, R241, R244, R246: a lookup returns the result of the entry its Accord sees. In an EXACT or EXT table that is the one entry
with its key; in an LPM table the longest of the prefixes that agree with the key, in a ternary one the matching rule of the highest
priority; where there is none the table's default is returned. A group or channel in reset refuses the lookup.
The model's own choices in it: log 10, 29. -/
def Sys2Proof.Claims.LookupsReturnWhatTheAccordSees : Prop :=
  ∀ (s : State) (id : ThreadId) (h : HelperOp), threadOk id = true →
    let t := threadNo id
    let num := bits h.fields.toNat 21 14
    let d := s.tdesc h.tag num
    let x := s.struct num d
    let seen := fun (e : TEntry) => e ∈ s.bucketsOf x h.data ∧ e.key = h.data ∧ s.visible h.tag e = true
    let prefixes := (s.rootOf x h.tag).filter (fun e => bitsAgree e.len e.bytes h.data)
    let rules := matching s x h.tag h.data
    let isl := s.lookIslands num h.tag h.data
    s.waitingHop t 0 = some h → s.sentAhead (t / 128) h = false → h.op.toNat < 2 →
    (s.hopRefused num h.tag h.data isl = true → givesSome (.lookup id) s (fun u =>
      hopAnswered s u t h.id { acc := 8, fl := 1 } ∧ u.tables = s.tables)) ∧
    (s.hopRefused num h.tag h.data isl = false → s.hopRuns num h.tag h.data isl = true → s.tables.bad = [] → s.dram.bad = [] → s.dram.flips = [] →
    ((dKind d = 2 ∨ dKind d = 6) → (∀ e, seen e → (∀ e', seen e' → e'.result = e.result) →
      givesSome (.lookup id) s (fun u => hopAnswered s u t h.id (lookAnswer h e.result true) ∧ u.tables = s.tables)) ∧
      ((∀ e, ¬ seen e) → givesSome (.lookup id) s (fun u =>
        hopAnswered s u t h.id (lookAnswer h (s.defaultResult h.tag num) false) ∧ u.tables = s.tables))) ∧
    ((dKind d = 3 ∨ dKind d = 4) → (∀ e ∈ prefixes, (∀ e' ∈ prefixes, e' ≠ e → e'.len < e.len) →
      givesSome (.lookup id) s (fun u => hopAnswered s u t h.id (lookAnswer h e.result true) ∧ u.tables = s.tables)) ∧
      (prefixes = [] → givesSome (.lookup id) s (fun u =>
        hopAnswered s u t h.id (lookAnswer h (s.defaultResult h.tag num) false) ∧ u.tables = s.tables))) ∧
    (dKind d = 5 → (∀ e ∈ rules, (∀ e' ∈ rules, e' ≠ e → e'.prio < e.prio) →
      givesSome (.lookup id) s (fun u => hopAnswered s u t h.id (lookAnswer h e.result true) ∧ u.tables = s.tables)) ∧
      (rules = [] → givesSome (.lookup id) s (fun u =>
        hopAnswered s u t h.id (lookAnswer h (s.defaultResult h.tag num) false) ∧ u.tables = s.tables))))

/-- R213, R235, R236, R242, R243: an insert of a program into an EXACT table puts its entry into the slot found for it, born under the
program's Accord, or is refused with FULL and left to the engine; a delete ends the entries its Accord sees, or is refused. A damaged tag row
answers POISONED, and an insert that meets a delete of its key in one cycle leaves it absent.
The model's own choices in it: log 57 (which writes share a cycle). -/
def Sys2Proof.Claims.ProgramsWriteTablesThroughTheSequencer : Prop :=
  ∀ (s : State) (id : ThreadId) (h : HelperOp), threadOk id = true →
    let t := threadNo id
    let num := bits h.fields.toNat 21 14
    let d := s.tdesc h.tag num
    let x := s.struct num d
    let key := h.data.take (dKeyLen d)
    let seen := (s.bucketsOf x key).filter (fun e => e.key == key && s.visible h.tag e)
    s.waitingHop t 0 = some h → s.sentAhead (t / 128) h = false → allUp s (s.writeIslands num h.tag key) → dKind d = 2 → h.tag ≠ s.accord.staged.toNat →
    (∀ y ∈ s.tables.structs, y.mirror = false) →
    ((h.op = 2 ∨ h.op = 3) → ∀ w ∈ [0, 1], s.badRow (bucketRow d w (x.place w key).2).1 (bucketRow d w (x.place w key).2).2 = true →
      givesSome (.tableWrite id) s (fun u => u.tables = s.tables ∧ hopAnswered s u t h.id { acc := 9, fl := 1, poison := true })) ∧
    (s.tables.bad = [] → s.tables.cycle = [] →
    (∀ w i k, h.op = 2 → seen = [] → s.roomFor x key = some (w, i, k) → givesSome (.tableWrite id) s (fun u =>
      (u.struct num d).entries = x.entries.filter (fun o => !(o.way == w && o.bucket == i && o.slot == k))
          ++ [{ key := key, result := h.data.drop (dKeyLen d), born := BitVec.ofNat 4 h.tag, dead := BitVec.ofNat 4 h.tag, way := w, bucket := i, slot := k }]
        ∧ hopAnswered s u t h.id { acc := 0, fl := 8 })) ∧
    (h.op = 2 → seen = [] → s.roomFor x key = none → givesSome (.tableWrite id) s (fun u =>
      (u.struct num d).entries = x.entries ∧ u.tables.reloc = s.tables.reloc ++ [(num, d, key)]
        ∧ hopAnswered s u t h.id { acc := 5, fl := 1 })) ∧
    (h.op = 3 → seen = [] → givesSome (.tableWrite id) s (fun u =>
      (u.struct num d).entries = x.entries ∧ hopAnswered s u t h.id { acc := 6, fl := 1 })) ∧
    (∀ e, h.op = 3 → seen = [e] → e.born.toNat = h.tag → givesSome (.tableWrite id) s (fun u =>
      (∀ o ∈ (u.struct num d).entries, ¬ (o.way = e.way ∧ o.bucket = e.bucket ∧ o.slot = e.slot))
        ∧ hopAnswered s u t h.id { acc := 0, fl := 8 }))) ∧
    (∀ (v : TieWrite) (i : Nat), s.tables.bad = [] → h.op = 2 → s.tables.cycle = [v] → v.since = s.time.elapsed → v.num = num → v.key = key → v.tag = h.tag →
      h.id < v.seq → v.thread ≠ t → v.del = true → h.tag < 16 → seen = [] → v.hop = i → i ≠ h.id → (∃ w i k, s.roomFor x key = some (w, i, k)) →
      givesSome (.tableWrite id) s (fun u => ∀ e ∈ (u.struct num d).entries, e ∈ x.entries))

/-- R237, R238, R243, R247, R249: what the Table Store's engines do at their ends. Relocation takes up the full buckets it was left; a free
copy of a versioned table takes the staged writes; a Maceration completes, or fails where the entries do not fit the new descriptor; a
resize leaves no migration; a sweep frees what no Accord sees any more and keeps the rest.
The model's own choices in it: log 20, 29. -/
def Sys2Proof.Claims.TableEnginesFinishTheirWork : Prop :=
  (∀ (s : State) (num : Nat), (∀ e ∈ s.tables.reloc, e.1 = num → (s.roomFor (s.struct num e.2.1) e.2.2).isSome = true) →
    gives (.relocation num) s { s with tables := { s.tables with reloc := s.tables.reloc.filter (fun e => e.1 != num) } }) ∧
  (∀ (s : State) (num : Nat) (d : ObjWord) (key : List Byte) (v : State), s.tables.reloc = [(num, d, key)] →
    let s' : State := { s with tables := { s.tables with reloc := [] } }
    s.up (37 + dFirst d / 8) = true → (s'.allEntries (s'.struct num d)).length * 100 < 95 * dSlots d →
    s'.roomFor (s'.struct num d) key = none → s'.makeRoom (s'.struct num d) key = some v →
    gives (.relocation num) s v) ∧
  (∀ (s : State) (num c k o : Nat) (l : List Byte),
    let a := s.accord.staged.toNat
    let d := s.tdesc a num
    let x := s.struct num d
    s.up (37 + dFirst d / 8) = true → x.waiting = [(k, o, l)] → s.freeCopy x = some c → s.ycp.deferred = none → (∀ y ∈ s.tables.structs, y.mirror = false) →
    givesSome (.versionedCopy num) s (fun u => (u.struct num d).waiting = [] ∧ Store.get 0 (u.struct num d).copyOf a = c
      ∧ mread u.tables.rows (s.directAddr d c k o) l.length = l)) ∧
  (∀ (s : State) (num : Nat),
    let d := s.tdesc s.accord.staged.toNat num
    let old := s.tdesc s.accord.current.toNat num
    s.up (37 + dFirst d / 8) = true → num ∈ s.tables.macerating →
    (dKind old = 0 → givesSome (.macerationDone num) s (fun u =>
      num ∉ u.tables.macerating ∧ u.tables.structs = s.tables.structs ∧ completed s u (.macerate num) 0 [])) ∧
    (dKind d = 3 ∨ dKind d = 4 → sameShape old d = true →
      let mine := s.rootOf (s.struct num d) s.accord.staged.toNat
      let kept := (s.rootOf (s.struct num old) s.accord.staged.toNat).filter (fun e =>
        !(s.struct num d).gone.contains (leBytes 1 e.len ++ e.bytes) && !mine.any (fun o => o.len == e.len && o.bytes == e.bytes))
      lpmFits d (kept.length + mine.length) = true → givesSome (.macerationDone num) s (fun u =>
        num ∉ u.tables.macerating ∧ Store.get none (u.struct num d).roots s.accord.staged.toNat = some (kept ++ mine)
          ∧ (u.struct num d).mirror = true ∧ completed s u (.macerate num) 0 [])) ∧
    (1 ≤ dKind old → (sameShape old d = false ∨ dKind old = 1 ∧ dKind d = 1 ∧ (dBanks d < dBanks old ∨ dRows d < dRows old)) → givesSome (.macerationDone num) s (fun u =>
      num ∉ u.tables.macerating ∧ u.tables.structs = s.tables.structs ∧ completed s u (.macerate num) 0x104 []
        ∧ reported s u (64 * (37 + dFirst d / 8) + 0x18) 0x79 { master := 0x4100 }))) ∧
  (∀ (s : State) (num : Nat), s.up (37 + dFirst (s.tdesc s.accord.staged.toNat num) / 8) = true → num ∈ s.tables.resizing →
    (∀ x ∈ s.tables.structs, ∀ m, x.migr = some m → m.oldLog < 32) → givesSome (.resizeDone num) s (fun u =>
      num ∉ u.tables.resizing ∧ (∀ x ∈ u.tables.structs, x.num = num → x.migr = none) ∧
        completed s u (.resize num) 0 [BitVec.ofNat 8 (dLog (s.tdesc (if s.accord.live then s.accord.current.toNat else s.accord.staged.toNat) num)), 0, 0, 0])) ∧
  (∀ (s : State) (tag : Nat) (rest : List Nat), (∀ i, 37 ≤ i → i < 41 → s.up i = true) → s.tables.sweeping = tag :: rest →
    (s.tables.structs.map (fun x => (x.num, x.desc))).Nodup → givesSome .sweepDone s (fun u =>
      u.tables.sweeping = rest ∧ ∀ x ∈ s.tables.structs, dKind x.desc ≠ 6 → ∀ e ∈ x.entries, e.born.toNat ≠ tag →
        let seen := s.visible s.accord.staged.toNat e = true ∨ s.accord.live = true ∧ s.visible s.accord.current.toNat e = true
          ∨ s.accord.drainValid = true ∧ s.visible s.accord.draining.toNat e = true
        (seen → e ∈ (u.struct x.num x.desc).entries)
          ∧ (¬ seen → (∀ o ∈ x.entries, o.born.toNat ≠ tag) → e ∉ (u.struct x.num x.desc).entries)))

/-- R250, R251: a bank that is replaced is read from its spare, whose rows are a copy of it; a mismatch ends the replacement and is
reported. A scrub pass marks the rows it found uncorrectable and moves a row corrected twice running to a spare row while one is left.
The model's own choices in it: log 20, 29. -/
def Sys2Proof.Claims.BanksAreReplacedAndScrubbed : Prop :=
  (∀ (s : State) (b : Nat), b < 32 → s.up (37 + b / 8) = true → b ∈ s.tables.replacing → Memory.wf s.tables.rows = true → s.physBank b < 36 →
    ∀ p, ((List.range 9).map (fun k => 9 * (b / 8) + k)).find? (fun p => (s.logicalOf p).isNone) = some p →
    givesSome (.bankReplaceDone b false) s (fun u => u.physBank b = p ∧ (∀ k, k ≠ b → u.physBank k = s.physBank k) ∧ b ∉ u.tables.replacing
      ∧ (∀ o, o < 1572864 → mget u.tables.rows (p * 1572864 + o) = mget s.tables.rows (s.physBank b * 1572864 + o))
      ∧ (∀ a, a / 1572864 ≠ p → mget u.tables.rows a = mget s.tables.rows a) ∧ completed s u (.bankReplace b) 0 []) ∧
    givesSome (.bankReplaceDone b true) s (fun u => (∀ k, u.physBank k = s.physBank k) ∧ u.tables.rows = s.tables.rows
      ∧ b ∉ u.tables.replacing ∧ reported s u (64 * (37 + s.physBank b / 9) + s.physBank b % 9) 0x7A { addr := b * 65536, master := 0x4102 }
      ∧ completed s u (.bankReplace b) 0x300 [])) ∧
  (∀ (s : State) (p : Nat) (corrected damaged : List Nat), p < 36 → s.up (37 + p / 9) = true →
    givesSome (.bankScrub p corrected damaged) s (fun u => u.tables.rows = s.tables.rows
      ∧ (∀ r ∈ damaged, r < 24576 → p * 24576 + r ∈ u.tables.bad) ∧ ∀ r ∈ s.tables.bad, r ∈ u.tables.bad)) ∧
  (∀ (s : State) (p r : Nat), p < 36 → s.up (37 + p / 9) = true → s.tables.bad = [p * 24576 + r] → r < 24576 →
    givesSome (.bankScrub p [] []) s (fun u => reported s u (64 * (37 + p / 9) + p % 9) 0x78 { addr := s.rowAddress p r, master := 0x4102, access := 0xA })) ∧
  (∀ (s : State) (p r : Nat), p < 36 → s.up (37 + p / 9) = true → r < 24576 → Store.get [] s.tables.corrected p = [r] →
    let used := Store.get 0 s.tables.spareRows p
    (∀ b ∈ s.tables.bad, b / 24576 ≠ p) →
    (used < 32 → givesSome (.bankScrub p [r] []) s (fun u => Store.get 0 u.tables.spareRows p = used + 1 ∧ u.faults = s.faults)) ∧
    (32 ≤ used → givesSome (.bankScrub p [r] []) s (fun u => u.tables.spareRows = s.tables.spareRows
      ∧ reported s u (64 * (37 + p / 9) + p % 9) 0x7B { addr := s.rowAddress p r, master := 0x4102, access := 0xA })))

/-! ### The Task Scheduler -/

/-- R274, R276, R277: the ticks that device time has reached move every task due from the delay list to the tail of the ready queue, in the
list's order, and none falls before its instant; the first task
of the ready order that fits is stamped and offered; one that comes back goes to the head; a marker changes the stamp of later tasks.
The model's own choices in it: log 62 (the instants of ticks after a change of TICK). -/
def Sys2Proof.Claims.TasksBecomeReadyAndAreOffered : Prop :=
  (∀ s : State, s.up 42 = true → s.tasks.bad = [] →
    let ticks := s.ticksDue
    let k := s.tasks.tick + ticks
    let due := (s.tasks.delay.filter (fun e => decide (e.1 ≤ k))).map (·.2)
    (s.time.ns.toNat < s.tasks.tickAt + s.tasks.period → gives .tick s s) ∧
    (s.tasks.tickAt + s.tasks.period ≤ s.time.ns.toNat → (s.tasks.delay.map (·.2)).Nodup → (∀ n ∈ s.tasks.delay.map (·.2), (s.tsk n).st = .delayed ∧ n ∉ s.tasks.ready) →
    givesSome .tick s (fun u => u.tasks.tick = k ∧ u.tasks.ready = s.tasks.ready ++ due
      ∧ u.tasks.tickAt = s.tasks.tickAt + s.tasks.period + (ticks - 1) * s.param 5 ∧ u.tasks.period = s.param 5
      ∧ u.tasks.delay = s.tasks.delay.filter (fun e => decide (k < e.1))
      ∧ (∀ n ∈ due, u.tsk n = { s.tsk n with st := .ready, fellAt := some s.time.elapsed }) ∧ ∀ n, n ∉ due → u.tsk n = s.tsk n))) ∧
  (∀ (s : State) (n tag : Nat), s.up 42 = true → s.tasks.bad = [] → s.tasks.tag = some tag → s.recFree.isSome = true →
    s.readyOrder.find? (fun n => s.taskFits (s.tsk n) tag) = some n → givesSome .taskOffer s (fun u =>
      u.tsk n = { s.tsk n with st := .dispatched } ∧ (∀ k, k ≠ n → u.tsk k = s.tsk k)
        ∧ u.tasks.ready = s.tasks.ready.filter (· != n) ∧ u.net = s.net ++ [⟨42, 26, .task n tag⟩])) ∧
  (∀ (s : State) (n : Nat) (passed : Bool), s.arrive 26 42 = some (.taskBack n passed) → n ∉ s.tasks.bad → (s.tsk n).st = .dispatched →
    givesSome .taskRestamp s (fun u => u.tsk n = { s.tsk n with st := .ready } ∧ u.tasks.ready = n :: s.tasks.ready
      ∧ u.net = dropCrossing 26 42 s.net)) ∧
  (∀ (s : State) (tag : Nat), s.arrive 26 42 = some (.marker tag) → givesSome .markerAtTaskScheduler s (fun u =>
    u.tasks = { s.tasks with tag := some tag } ∧ u.net = dropCrossing 26 42 s.net))

/-- R272, R275: the end of a run. A consumed run takes its pending arm, or the next due tick of its period that is still to come with the
skipped ones counted in MISSED, or becomes IDLE; a dropped run becomes IDLE; a faulted one sets FAULTED, is reported, and re-arms only
where the task says so. -/
def Sys2Proof.Claims.TaskRunsEndAsTheirTaskSays : Prop :=
  ∀ (s : State) (n r : Nat) (how : RunEnd) (g : BitVec 8), s.arrive 26 42 = some (.taskEnd n how r g) → n ∉ s.tasks.bad →
    (s.tsk n).st = .dispatched →
    let x := s.tsk n
    let armed := fun (due : Nat) (u : State) =>
      u.tsk n = { x with st := .delayed, due := due, armPending := none, cancelled := false } ∧ (due, n) ∈ u.tasks.delay
    let next := fun (y : Task) (u : State) =>
      ∃ k, u.tsk n = { y with st := .delayed, due := x.due + (k + 1) * x.period.toNat, missed := BitVec.ofNat 16 (min 65535 (x.missed.toNat + k)) }
        ∧ s.tasks.tick < x.due + (k + 1) * x.period.toNat ∧ (k ≠ 0 → x.due + k * x.period.toNat ≤ s.tasks.tick)
    (∀ d, how = .consume → x.armPending = some d → givesSome .taskRunEnd s (armed (s.tasks.tick + d))) ∧
    (how = .consume → x.armPending = none → x.period = 0 ∨ x.cancelled = true → givesSome .taskRunEnd s (fun u =>
      u.tsk n = { x with st := .idle, cancelled := false })) ∧
    (how = .consume → x.armPending = none → x.period ≠ 0 → x.cancelled = false → givesSome .taskRunEnd s (next x)) ∧
    (how = .drop → givesSome .taskRunEnd s (fun u => u.tsk n = { x with st := .idle, armPending := none, cancelled := false })) ∧
    (how = .faulted → x.rearmFault = false → givesSome .taskRunEnd s (fun u =>
      u.tsk n = { x with st := .idle, armPending := none, faulted := true, cancelled := false } ∧ reported s u (64 * 42) 0x88 { detail := g.toNat * 8192 + r })) ∧
    (∀ d, how = .faulted → x.rearmFault = true → x.armPending = some d → givesSome .taskRunEnd s (fun u =>
      u.tsk n = { x with st := .delayed, due := s.tasks.tick + d, armPending := none, faulted := true, cancelled := false })) ∧
    (how = .faulted → x.rearmFault = true → x.armPending = none → x.period ≠ 0 → x.cancelled = false →
      givesSome .taskRunEnd s (next { x with faulted := true }))

/-! ### Buffer pools -/

namespace Sys2Proof.Claims

/-- A refusal of an H6 operation: its code, with V (R213, R214). -/
def refused (code : Nat) : HelperRes := { acc := BitVec.ofNat 64 code, fl := 1 }

/-- Its result: the value, with Z and N of it. -/
def returned (v : W64) : HelperRes := { acc := v, fl := mkFl (v == 0) v.msb false false }

end Sys2Proof.Claims

/-- R284, R286, R291, R293, R295: a cache that has fallen to 32 entries holds 64 more, and an entry of the ring that it reads uncorrectable is
lost and reported; a pool without buffers in use is enabled; a leak sweep marks
what has been held too long, once, and reports it. -/
def Sys2Proof.Claims.PoolsRefillEnableAndSweep : Prop :=
  (∀ (s : State) (p k : Nat), s.up 41 = true → (p = 0 ∧ k < 5 ∨ 1 ≤ p ∧ p < 16 ∧ k = 0) →
    let q := s.pool p
    let slots := (q.refillPlaces (q.cached k)).map q.ring.slot
    (q.cached k ≤ 32 → (∀ n ∈ slots, n ∉ q.badRing ∧ (p ≠ 0 → s.poolBad p (s.slotAddr p n) 8 = false
        ∧ (s.poolDram p = true → s.dramOpen (s.slotAddr p n) 8 = true))) → givesSome (.cacheRefill p k) s (fun u =>
      (u.pool p).cached k = min (q.cached k + 64) q.free ∧ (u.pool p).ring = q.ring ∧ u.faults = s.faults)) ∧
    (∀ i, p = 0 → q.cached k ≤ 32 → (q.refillPlaces (q.cached k)).filter (fun i => q.badRing.contains (q.ring.slot i)) = [i] → q.ring.entry i ∉ q.lost →
      givesSome (.cacheRefill p k) s (fun u => (u.pool p).lost = q.lost ++ [q.ring.entry i]
        ∧ reported s u (64 * 41) 0x90 { addr := q.ring.entry i, master := 0x4105, access := 1 })) ∧
    (32 < (s.pool p).cached k → gives (.cacheRefill p k) s s)) ∧
  (∀ (s : State) (p : Nat) (d : Deferred), s.up 41 = true → 1 ≤ p → p < 16 → s.ycp.deferred = some d → d.wait = .pool p → d.rest = [] →
    d.cls = 0x70 → (s.pool p).inUse = 0 → givesSome (.poolEnableDone p) s (fun u => u.poolOn p = true ∧ u.ycp.deferred = none)) ∧
  (∀ (s : State) (p i : Nat), s.up 41 = true → 1 ≤ p → p < 16 → s.poolOn p = true → s.pools.desc = [] → s.param 8 ≠ 0 →
    (∀ q, 1 ≤ q → q < 16 → q ≠ p → s.poolOn q = true → s.usedBufs q = []) → s.usedBufs p = [i] → i < s.poolCount p → (s.buf p i).alloc = true → (s.buf p i).bad = false →
    (s.buf p i).leak = false →
    let age := (s.time.ns.toNat / 10000000 + 2 ^ 32 - (s.buf p i).time.toNat) % 2 ^ 32
    (s.param 8 * 100 < age → givesSome .leakSweep s (fun u => u.buf p i = { s.buf p i with leak := true }
      ∧ (u.pool p).leaked = (s.pool p).leaked + 1
      ∧ reported s u (64 * 41) 0x91 { addr := (s.buf p i).gen.toNat * 2 ^ 24 + p * 2 ^ 20 + i, detail := 1, master := 0x4105, access := 0xA })) ∧
    (age ≤ s.param 8 * 100 → gives .leakSweep s s))

/-- R224 to R228, R288, R291: the operations of H6. HEAD, PGET and PPUT are checked against the packet's handle and length; an allocation
returns a new handle of the smallest pool that fits; a free returns the buffer to its ring, and of two frees of one handle in one cycle the
lower master's counts.
The model's own choices in it: log 41, 57 (what shares a cycle). -/
def Sys2Proof.Claims.PacketAndBufferOperationsCheckTheirHandle : Prop :=
  ∀ (s : State) (id : ThreadId) (h : HelperOp), threadOk id = true → s.up 41 = true →
    let t := threadNo id
    s.waitingHop t 6 = some h → s.sentAhead (t / 128) h = false →
    let d := handleDesc h.xb
    let k := s.desc d
    let len := metaLen k.metaw
    let own := (s.rcd h.record).disp.handle = h.xb ∧ (s.rcd h.record).gen = h.gen ∧ (s.rcd h.record).st = .running
      ∧ (s.rcd h.record).task = false ∧ bits h.xb.toNat 23 19 = 0
    let n := bits h.fields.toNat 9 0
    let off := h.acc.toNat
    let p := bits h.xb.toNat 23 20
    let i := bits h.xb.toNat 19 0
    (∀ f, s.freeTie t h = some f → f.master / 128 ≠ t / 128 → givesSome (.packetBufferOp id) s (fun u =>
      hopAnswered s u t h.id (returned 0) ∧ hopAnswered s u f.master f.hop (refused 2)
        ∧ u.pools.desc = s.pools.desc ∧ u.pools.pool = s.pools.pool)) ∧
    (s.freeTie t h = none →
    (h.op.toNat ≤ 4 → k.bad = false → k.gen.toNat ≠ bits h.xb.toNat 31 24 → givesSome (.packetBufferOp id) s (fun u =>
      hopAnswered s u t h.id (refused 1) ∧ u.pools = s.pools)) ∧
    (h.op = 0 → k.bad = false → k.gen.toNat = bits h.xb.toNat 31 24 → own → off < len → s.pools.badCell = [] →
      givesSome (.packetBufferOp id) s (fun u => u.pools = s.pools ∧ hopAnswered s u t h.id
        { returned (BitVec.ofNat 64 (min n (len - off))) with addr := h.dst, bytes := s.chainRead k.cells off (min n (len - off)) })) ∧
    (h.op.toNat ≤ 1 → k.bad = false → k.gen.toNat = bits h.xb.toNat 31 24 → own → (h.op = 0 ∧ len ≤ off ∨ h.op = 1 ∧ len < off + n) →
      givesSome (.packetBufferOp id) s (fun u => hopAnswered s u t h.id (refused 3) ∧ u.pools = s.pools)) ∧
    (h.op = 3 → k.bad = false → k.gen.toNat = bits h.xb.toNat 31 24 → own → k.head = none → 14 ≤ off → off ≤ len →
      givesSome (.packetBufferOp id) s (fun u => hopAnswered s u t h.id (returned (BitVec.ofNat 64 off)) ∧ (u.desc d).trim = some off)) ∧
    (h.op = 4 → k.bad = false → k.gen.toNat = bits h.xb.toNat 31 24 → k.st = .consumed → bits h.xb.toNat 23 19 = 0 →
      (s.rcd h.record).disp.handle ≠ h.xb → givesSome (.packetBufferOp id) s (fun u =>
        hopAnswered s u t h.id (returned 0) ∧ packetFreed s u d)) ∧
    (6 ≤ h.op.toNat → 1 ≤ p → i < s.poolCount p → s.poolGone p i = true → givesSome (.packetBufferOp id) s (fun u =>
      hopAnswered s u t h.id (refused 8) ∧ u.pools = s.pools)) ∧
    (h.op = 6 → 1 ≤ p → i < s.poolCount p → s.poolGone p i = false → s.poolOpen p i = true → (s.buf p i).bad = false → (s.buf p i).gen.toNat = bits h.xb.toNat 31 24 → (s.buf p i).alloc = true →
      givesSome (.packetBufferOp id) s (fun u => hopAnswered s u t h.id (returned 0) ∧ (u.buf p i).alloc = false
        ∧ (u.buf p i).gen = (s.buf p i).gen ∧ (u.pool p).ring.freed = (s.pool p).ring.freed ++ [i])) ∧
    (6 ≤ h.op.toNat → 1 ≤ p → i < s.poolCount p → s.poolGone p i = false → s.poolOpen p i = true → (s.buf p i).bad = false → (s.buf p i).gen.toNat = bits h.xb.toNat 31 24 →
      (s.buf p i).alloc = false → givesSome (.packetBufferOp id) s (fun u => hopAnswered s u t h.id (refused 2) ∧ u.pools = s.pools)) ∧
    (∀ q rest, h.op = 5 → 1 ≤ off → s.candidates off = q :: rest → s.poolHas q ≠ 0 → (s.pool q).lost = [] → (s.pool q).stuck = [] →
      (s.pool q).ring.next < (s.pool q).ring.limit → (s.pool q).cached 0 ≠ 0 → s.poolGone q (s.pool q).ring.next = false →
      s.poolOpen q (s.pool q).ring.next = true →
      let b := leVal (s.poolBytes q (s.slotAddr q (s.pool q).ring.next) 8) % 2 ^ 20
      let g := (s.buf q b).gen + 1
      b < s.poolCount q → (s.buf q b).bad = false → givesSome (.packetBufferOp id) s (fun u =>
        hopAnswered s u t h.id (returned (BitVec.ofNat 64 (g.toNat * 2 ^ 24 + q * 2 ^ 20 + b))) ∧ (u.buf q b).alloc = true ∧ (u.buf q b).gen = g
          ∧ (u.buf q b).owner = BitVec.ofNat 16 t ∧ (u.pool q).ring.next = (s.pool q).ring.next + 1)))

/-- Table lookups and table writes by programs. -/
def Obligations.LookupsAndTablePrograms : Prop := Claims.LookupsReturnWhatTheAccordSees ∧ Claims.ProgramsWriteTablesThroughTheSequencer

/-- The table engines and the banks. -/
def Obligations.TableEnginesAndBanks : Prop := Claims.TableEnginesFinishTheirWork ∧ Claims.BanksAreReplacedAndScrubbed

/-- Tasks become ready, are offered, and end. -/
def Obligations.TasksBecomeReadyRunAndEnd : Prop := Claims.TasksBecomeReadyAndAreOffered ∧ Claims.TaskRunsEndAsTheirTaskSays

/-- Pools, packets and buffers. -/
def Obligations.PoolsPacketsAndBuffersCheckTheirHandles : Prop := Claims.PoolsRefillEnableAndSweep ∧ Claims.PacketAndBufferOperationsCheckTheirHandle


/-! ### The Queue Manager -/

namespace Sys2Proof.Claims

/-- The profile of a queue in the tree in force. -/
def profile (s : State) (q : Nat) : ObjWord := s.qo 0x85 (fld (s.qo 0x80 q) 36 29)

/-- The queue runs, is undamaged and takes a packet of this length without drop, mark or spill: its depth leaves room, WRED has no drop
probability, ECN is off and it does not spill (R304 to R306, R312); and no packet has been linked in this instant (R302). -/
def takesWhole (s : State) (q len : Nat) : Prop :=
  (s.queue q).bad = false ∧ (s.queue q).stopped = false ∧ (s.queue q).spilled = [] ∧ (∀ e ∈ s.qm.linked, e.time ≠ s.time.elapsed) ∧ queueDepth (s.queue q) + len ≤ fld (profile s q) 127 108 * 1024
    ∧ fld (profile s q) 71 64 = 0 ∧ fld (profile s q) 41 40 = 0 ∧ fld (profile s q) 31 31 = 0

end Sys2Proof.Claims

/-- R226, R301, R304, R305: a hand-over to a queue whose port cannot take its outcome is discarded and reported; one that its queue takes is
linked at the tail with its edited length and commit word; one that would pass the queue's limit, or meets a stopped queue, is discarded.
The model's own choices in it: log 31, 41. -/
def Sys2Proof.Claims.HandoversAreAdmittedAndLinked : Prop :=
  ∀ (s : State) (r d tag domain : Nat) (op : BitVec 3) (word : W64) (master : BitVec 16),
    s.arrive 26 36 = some (.handover r d op word tag master domain) →
    let q := word.toNat % 2 ^ 18
    let len := (s.desc d).editedLen.toNat
    (l0Kind (s.l0Of q) ≠ (if op = 0 then 0 else if op = 2 then 1 else 2) → givesSome .qmHandover s (fun u =>
      packetFreed s u d ∧ u.qm = s.qm ∧ reported s u (64 * 36) 0x98 { master := master.toNat })) ∧
    (l0Kind (s.l0Of q) = (if op = 0 then 0 else if op = 2 then 1 else 2) → bits word.toNat 63 62 ≠ 2 → takesWhole s q len →
      givesSome .qmHandover s (fun u => (u.queue q).pkts = (s.queue q).pkts ++ [{ desc := d, len := len, queue := q, word := word }]
        ∧ (∀ k, k ≠ q → u.queue k = s.queue k) ∧ bits (u.desc d).metaw.toNat 13 0 = len % 16384 ∧ (u.desc d).cells = (s.desc d).cells)) ∧
    (l0Kind (s.l0Of q) = (if op = 0 then 0 else if op = 2 then 1 else 2) → (s.queue q).bad = false → (s.queue q).stopped = false →
      fld (profile s q) 127 108 * 1024 < queueDepth (s.queue q) + len → givesSome .qmHandover s (fun u =>
        packetFreed s u d ∧ (u.queue q).pkts = (s.queue q).pkts ∧ ∀ k, k ≠ q → u.queue k = s.queue k)) ∧
    (l0Kind (s.l0Of q) = (if op = 0 then 0 else if op = 2 then 1 else 2) → (s.queue q).stopped = true →
      givesSome .qmHandover s (fun u => packetFreed s u d ∧ (u.queue q).pkts = (s.queue q).pkts ∧ ∀ k, k ≠ q → u.queue k = s.queue k))

/-- R307, R310, R311: the choice of a port takes packets from the head of one queue at most, and delivers what it takes: where one
undamaged queue of a network port holds packets, nothing shapes its path and its deficits are positive, its first packet goes to the port. -/
def Sys2Proof.Claims.SchedulingTakesQueueHeads : Prop :=
  (∀ (s t : State) (p : Nat), exec (.schedChoice p) s = .next t → ∃ q,
    (∀ k, k ≠ q → (t.queue k).pkts = (s.queue k).pkts ∧ (t.queue k).spilled = (s.queue k).spilled) ∧
    ((t.queue q).pkts = (s.queue q).pkts ∨ ∃ k, (s.queue q).pkts = k :: (t.queue q).pkts)) ∧
  (∀ (s : State) (p q : Nat) (k : QPkt) (rest : List QPkt), p < 40 → s.up 36 = true → s.heldQueues = [q] → s.l0Of q = p →
    (s.queue q).bad = false → (s.queue q).pkts = k :: rest → s.leafFree p q = true → s.l0Free p = true →
    s.peakRate 0 p = 0 → (∀ e ∈ (s.pathOf q).zipIdx, s.peakRate (e.2 + 1) e.1 = 0 ∧ s.commRate (e.2 + 1) e.1 = 0) →
    (∀ e ∈ (s.pathOf q).zipIdx, 0 < (s.child (e.2 + 1) e.1).dcE) →
    givesSome (.schedChoice p) s (fun u => (u.queue q).pkts = rest ∧ (u.port p).txAhead = (s.port p).txAhead ++ [k]
      ∧ ∀ j, j ≠ p → u.port j = s.port j))

/-- R309: the credit of a bucket is its rate over the time since the last credit, with the part below a unit carried, up to its depth.
The model's own choices in it: log 31. -/
def Sys2Proof.Claims.BucketsCreditTheirRate : Prop :=
  ∀ (s : State) (l n : Nat), s.up 36 = true → (l = 1 ∧ n < 2048 ∨ l = 2 ∧ n < 16384 ∨ l = 3 ∧ n < 65536) →
    givesSome (.bucketCredit l n) s (fun u =>
      let b := (s.child l n).pir
      let c := (u.child l n).pir
      (∃ add : Nat, add * 8000000000 + c.rem = s.peakRate l n * (s.time.elapsed - b.last) * 65536 + b.rem ∧ c.rem < 8000000000
        ∧ c.level = min (b.level + (add : Int)) ((s.peakDepth l n * 65536 : Nat) : Int)) ∧ c.last = s.time.elapsed
        ∧ (u.child l n).cir.level ≤ ((s.commDepth l n * 65536 : Nat) : Int) ∧ (u.child l n).dcC = (s.child l n).dcC
        ∧ (u.child l n).dcE = (s.child l n).dcE ∧ ∀ k, k ≠ childKey l n → Store.get {} u.qm.child k = Store.get {} s.qm.child k)

/-- R313, R315 to R318, R320: spilled packets come back behind those on-chip in their order; host rings take and give frames in the order of
their entries, mark each entry and halt when their DMA fails; a recirculated frame enters its slice.
The model's own choices in it: log 13, 31. -/
def Obligations.SpillHostRingsAndRecirculation : Prop :=
  (∀ (s v : State) (q d : Nat) (r : Spilled) (rest : List Spilled), q < 262144 → s.up 36 = true → (s.queue q).spilled = r :: rest →
    (s.queue q).pkts = [] → s.dram.bad = [] → s.dram.flips = [] → s.qm.writing = [] →
    s.dramGone r.addr ((16 + r.len + 63) / 64 * 64) = false → s.dramOpen r.addr ((16 + r.len + 63) / 64 * 64) = true →
    let hd := s.dramBytes r.addr 16
    s.buildPacket (BitVec.ofNat 64 (leVal (slice hd 0 8))) (BitVec.ofNat 32 (leVal (slice hd 8 4))) (s.dramBytes (r.addr + 16) r.len) = some (d, v) →
    givesSome (.spillRefill q) s (fun u => (u.queue q).spilled = rest ∧
      (u.queue q).pkts = [{ desc := d, len := r.len, queue := q, word := BitVec.ofNat 64 (leVal (slice hd 12 4) % 2 ^ 23 * 2 ^ 41 + q), poison := false }]
        ∧ u.pools = v.pools ∧ u.faults = s.faults)) ∧
  (∀ (s : State) (r : Nat) (e : HostEntry) (f : List Byte), r < 64 → s.up 36 = true → s.pcieOn = true → s.ringRuns 0x0087 r = true →
    s.posted (64 + r) ≠ 0 →
    let w := s.obj 0x0087 r
    let head := Store.get 0 s.bar0.heads (64 + r)
    (givesSome (.h2dRingFrame r e f true) s (fun u => s.bar0 = u.bar0 ∧ u.qm = s.qm ∧ fld (u.obj 0x0087 r) 57 57 = 1
      ∧ reported s u (64 * 36 + 2) 0x9C { addr := r, master := 0x4000 + r, access := 8 })) ∧
    (s.badEntry e = true → givesSome (.h2dRingFrame r e f false) s (fun u =>
      Store.get 0 u.bar0.heads (64 + r) = head + 1 ∧ u.qm = s.qm ∧ u.pools = s.pools ∧
        .hostWrite (fld w 127 64 + head.toNat % 2 ^ fld w 62 58 * 16 + 12) (leBytes 4 (e.last.toNat % 2 ^ 18 + 2 ^ 30 + 2 ^ 31)) ∈ u.out)) ∧
    (∀ (d : Nat) (v : State), s.badEntry e = false →
      s.buildPacket (BitVec.ofNat 64 (s.accord.current.toNat * 2 ^ 60 + e.len.toNat)) 0 (slice f 0 e.len.toNat) = some (d, v) →
      takesWhole s (e.last.toNat % 2 ^ 18) e.len.toNat → givesSome (.h2dRingFrame r e f false) s (fun u =>
        Store.get 0 u.bar0.heads (64 + r) = head + 1 ∧ (u.queue (e.last.toNat % 2 ^ 18)).pkts
          = (s.queue (e.last.toNat % 2 ^ 18)).pkts ++ [{ desc := d, len := e.len.toNat, queue := e.last.toNat % 2 ^ 18 }]))) ∧
  (∀ (s : State) (r : Nat) (k : QPkt) (rest : List QPkt) (e : HostEntry), r < 64 → s.up 36 = true → s.pcieOn = true →
    Store.get [] s.qm.host r = k :: rest → s.ringRuns 0x0086 r = true → s.posted r ≠ 0 →
    let d := s.desc k.desc
    let l := leBytes 8 d.metaw.toNat ++ leBytes 4 d.ts.toNat ++ leBytes 4 k.queue ++ List.replicate 16 0 ++ s.packetBytes k.desc
    let w := s.obj 0x0086 r
    let head := Store.get 0 s.bar0.heads r
    l.length ≤ e.len.toNat → k.poison = false → s.packetBad k.desc = none → givesSome (.d2hDeliver r [e] false) s (fun u =>
      .hostWrite e.addr.toNat l ∈ u.out ∧ .hostWrite (fld w 127 64 + head.toNat % 2 ^ fld w 62 58 * 16 + 8)
          (leBytes 2 e.len.toNat ++ leBytes 2 l.length ++ [7, 0, 0, 0]) ∈ u.out
        ∧ Store.get 0 u.bar0.heads r = head + 1 ∧ Store.get [] u.qm.host r = rest ∧ packetFreed s u k.desc)) ∧
  (∀ (s : State) (k : QPkt) (rest : List QPkt), s.up 36 = true → s.qm.recirc = k :: rest → s.param 0x0B < 40 →
    let i := if s.param 0x0B < 32 then s.param 0x0B / 8 else 0
    s.up (27 + i) = true → s.packetBad k.desc = none → s.inputUsed i + (s.packetBytes k.desc).length ≤ 65536 →
    givesSome .recircSend s (fun u => u.qm.recirc = rest ∧ packetFreed s u k.desc ∧ ∃ f : RxFrame,
      (u.slc i).input = (s.slc i).input ++ [f] ∧ f.data = s.packetBytes k.desc ∧ f.port = s.param 0x0B ∧ f.time = s.time.ns ∧ f.verdict = 0)) ∧
  (∀ (s : State) (tag : Nat), s.arrive 26 36 = some (.marker tag) → (∀ e ∈ s.qm.queue, e.2.pkts = [] ∧ e.2.spilled = []) →
    givesSome .markerAtQm s (fun u => u.qm.queue = s.qm.queue ∧ u.faults.outbox = s.faults.outbox
      ∧ ∀ cls n, 0x80 ≤ cls → cls ≤ 0x85 → n < 2 ^ 32 → u.qo cls n = s.sobj tag cls n))

/-! ### The DRAM channels -/

/-- R329, R332, R334, R335, R338: a command slot first opens the row of the request that waits and then serves it, or pays a refresh where
the debt pre-empts; where nothing waits it pays a refresh, one row of it in Row-walk, or sweeps a line. A read answers its bytes, and an
uncorrectable one answers zero with POISON and is reported. A refresh due is added to its rank's debt, and at the limit it is performed at once. -/
def Sys2Proof.Claims.CommandSlotsServeAndRefresh : Prop :=
  (∀ (s : State) (c : Nat) (q : DramReq), c < 8 → s.up (43 + c) = true → (s.chan c).st = .service → (s.chan c).preempt = false →
    (s.chan c).inbound = [] →
    (s.rowHit c q = true → (s.chan c).reads = [q] → (s.chan c).writes = [] → q.kind = .load → q.quiet = false → q.bad = false → s.dram.flips = [] →
      givesSome (.dramCommandSlot c) s (fun u =>
      (u.chan c).reads = [] ∧ (u.chan c).debt0 = (s.chan c).debt0 ∧ u.dram.data = s.dram.data ∧
        (u.th q.thread).loads = (s.th q.thread).loads.map (fun l => if l.id = q.id then
          { l with value := some (extendLoad (2 ^ l.size.toNat) l.signed q.data.toNat, none), poison := false, seq := s.nextId } else l))) ∧
    (s.rowHit c q = true → (s.chan c).reads = [q] → (s.chan c).writes = [] → q.kind = .load → q.quiet = false → q.bad = true →
      (s.place' q.addr).1 = c → givesSome (.dramCommandSlot c) s (fun u =>
      (u.chan c).reads = [] ∧ reported s u (64 * (43 + c)) 0xA0 { addr := q.addr / 64 * 64, master := q.thread, access := 1 } ∧
        (u.th q.thread).loads = (s.th q.thread).loads.map (fun l => if l.id = q.id then
          { l with value := some (0, none), poison := true, seq := s.nextId } else l))) ∧
    (s.rowHit c q = true → (s.chan c).reads = [q] → (s.chan c).writes = [] → q.kind = .load → q.quiet = true →
      givesSome (.dramCommandSlot c) s (fun u => (u.chan c).reads = [] ∧ u.clusters = s.clusters ∧ u.dram.data = s.dram.data)) ∧
    (s.rowHit c q = true → (s.chan c).reads = [] → (s.chan c).writes = [q] → q.kind = .store → givesSome (.dramCommandSlot c) s (fun u =>
      (u.chan c).writes = [] ∧ u.clusters = s.clusters ∧ u.dram.data = s.dram.data)) ∧
    (s.rowHit c q = false → (s.chan c).reads ++ (s.chan c).writes = [q] → (s.chan c).hold = none → givesSome (.dramCommandSlot c) s (fun u =>
      (u.chan c).reads = (s.chan c).reads.map (fun x => { x with opened := true })
        ∧ (u.chan c).writes = (s.chan c).writes.map (fun x => { x with opened := true })
        ∧ u.rowHit c q = true ∧ u.clusters = s.clusters ∧ u.dram.data = s.dram.data))) ∧
  (∀ (s : State) (c : Nat), c < 8 → s.up (43 + c) = true → (s.chan c).st = .service →
    let k := s.chan c
    let paid := fun (u : State) => (u.chan c).debt0 = k.debt0 - modeQuarters k.mode ∧ (u.chan c).debt1 = k.debt1 - modeQuarters k.mode
      ∧ (u.chan c).reads = k.reads ∧ (u.chan c).writes = k.writes
    (k.preempt = true ∨ k.reads = [] ∧ k.writes = [] ∧ 0 < max k.debt0 k.debt1 →
      (k.mode ≠ 0 → givesSome (.dramCommandSlot c) s (fun u => paid u ∧ (u.chan c).openRow = [])) ∧
      (k.mode = 0 → k.walkRows ≤ k.walk + 1 → givesSome (.dramCommandSlot c) s (fun u => paid u ∧ (u.chan c).walk = 0)) ∧
      (k.mode = 0 → k.walk + 1 < k.walkRows → givesSome (.dramCommandSlot c) s (fun u =>
        (u.chan c).walk = k.walk + 1 ∧ (u.chan c).debt0 = k.debt0 ∧ (u.chan c).debt1 = k.debt1))) ∧
    (k.preempt = false → k.reads = [] → k.writes = [] → k.debt0 = 0 → k.debt1 = 0 → k.sweepDone = false → k.swept < k.gib * 2 ^ 24 →
      givesSome (.dramCommandSlot c) s (fun u => u.chan c = { k with swept := k.swept + 1 }))) ∧
  (∀ (s : State) (c : Nat), c < 8 → s.up (43 + c) = true → (s.chan c).st = .service → 0 < (s.chan c).ranks.toNat →
    let m := BitVec.ofNat 2 (fld (s.obj 0x0090 c) 53 52)
    let k := s.chan c
    let w := if k.hot then 2 else 1
    let atLimit := k.debt0 * w ≤ 32 ∧ 32 < (k.debt0 + modeQuarters m) * w
    (¬ atLimit → givesSome (.refreshDue c 0) s (fun u =>
      u.chan c = { k with mode := m, debt0 := k.debt0 + modeQuarters m } ∧ ∀ j, j ≠ c → u.chan j = s.chan j)) ∧
    (atLimit → givesSome (.refreshDue c 0) s (fun u => u.chan c = { k with mode := m })))

/-- R336, R337, R338, R368: temperature readings set the regime of a channel with 2 °C of hysteresis, and are reported above 95 °C and when
they fail; a drift window moves a DQS delay by one step however often it is named, and a failed drift or calibration step takes the channel
out of service; the end of the initial sweep marks every frame swept.
The model's own choices in it: log 43. -/
def Sys2Proof.Claims.ChannelsFollowTemperatureAndTraining : Prop :=
  (∀ (s : State) (c : Nat) (t : Int), c < 8 → s.up (43 + c) = true → (s.chan c).st ≠ .absent → (s.chan c).noSensor = false →
    (s.chan c).debt0 = 0 → (s.chan c).debt1 = 0 → (s.chan c).preempt = false → givesSome (.dramTempRead c t) s (fun u =>
      u.chan c = { s.chan c with temp := BitVec.ofInt 8 t, lost := false, hot := if 85 < t then true else if t ≤ 83 then false else (s.chan c).hot }
        ∧ if 95 < t then reported s u (64 * (43 + c) + 4) 0xA3 {} else u.faults = s.faults)) ∧
  (∀ (s : State) (c : Nat), c < 8 → s.up (43 + c) = true → (s.chan c).st ≠ .absent → (s.chan c).noSensor = false → (s.chan c).lost = false →
    (s.chan c).debt0 = 0 → (s.chan c).debt1 = 0 → (s.chan c).preempt = false → givesSome (.dramTempLost c) s (fun u =>
      u.chan c = { s.chan c with lost := true, hot := true } ∧ reported s u (64 * (43 + c) + 4) 0xA4 {})) ∧
  (∀ (s : State) (c : Nat), c < 8 → s.up (43 + c) = true → (s.chan c).st = .service →
    gives (.driftTrack c {}) s (s.modChan c (fun k => { k with drift := k.drift + 1 })) ∧
    (∀ (m : DelayMove) (rest : List DelayMove), m.rank < (s.chan c).ranks.toNat → m.device < (if (s.chan c).width = 0 then 20 else 10) →
      (∀ x ∈ rest, sameDelay m x = true) → givesSome (.driftTrack c { moves := m :: rest }) s (fun u =>
        let key := (if m.write then 64 else 0) + m.rank * 32 + m.device
        Store.get 0 (u.chan c).dqs key = Store.get 0 (s.chan c).dqs key + (if m.up then 1 else -1)
          ∧ (∀ n, n ≠ key → Store.get 0 (u.chan c).dqs n = Store.get 0 (s.chan c).dqs n) ∧ (u.chan c).drift = (s.chan c).drift + 1)) ∧
    gives (.zqShort c false) s (s.modChan c (fun k => { k with zq := k.zq + 1 })) ∧
    (∀ l, givesSome (.driftTrack c { moves := l, failed := true }) s (fun u => u.chan c = { s.chan c with st := .absent, retrain := false, step := 3 }
      ∧ reported s u (64 * (43 + c) + 1) 0xA5 { addr := 4 })) ∧
    givesSome (.zqShort c true) s (fun u => u.chan c = { s.chan c with st := .absent, retrain := false, step := 0 }
      ∧ reported s u (64 * (43 + c) + 1) 0xA5 { addr := 1 })) ∧
  (∀ (s : State) (c : Nat), c < 8 → s.up (43 + c) = true → (s.chan c).sweepDone = false → givesSome (.initSweepDone c) s (fun u =>
    u.chan c = { s.chan c with sweepDone := true, early := [], again := [], swept := (s.chan c).gib * 2 ^ 24 } ∧ ∀ j, j ≠ c → u.chan j = s.chan j)) ∧
  (∀ (s : State) (c : Nat), c < 8 → s.up (43 + c) = true → (s.chan c).st ≠ .absent → givesSome (.dramCaParity c) s (fun u =>
    u.chan c = { s.chan c with caRetry := (s.chan c).caRetry + 1 } ∧ reported s u (64 * (43 + c) + 1) 0xA7 {}))

/-- R327 to R330, R339 to R342: a scrub pass corrects the lines that Burst Guard can correct, leaves the others uncorrectable, changes no
byte, counts a corrected symbol under its device and reports a device that reaches the threshold; a Decant moves every chunk away, then
back, and maps its reserve again; a channel that retrains returns to service, which ends its block reset, or fails.
The model's own choices in it: log 43, 58. -/
def Obligations.ScrubAndDecantKeepTheMemory : Prop :=
  (∀ (s : State) (c : Nat), c < 8 → s.up (43 + c) = true → (s.chan c).st = .service →
    givesSome (.patrolScrub c [] []) s (fun u => u.dram.data = s.dram.data ∧ (∀ l ∈ s.dram.bad, l ∈ u.dram.bad)
      ∧ ∀ l, (s.place' (64 * l)).1 = c → u.lineBad l = s.lineBad l ∧ (s.lineBad l = false → u.lineErrors l = 0))) ∧
  (∀ (s : State) (c : Nat) (x : Upset), c < 8 → s.up (43 + c) = true → (s.chan c).st = .service → s.dram.bad = [] → s.dram.flips = [] →
    x.dq < 80 → x.beat < 8 → 64 * x.line < s.dramSize → (s.place' (64 * x.line)).1 = c →
    (s.chan c).unswept ((s.place' (64 * x.line)).2 / 2 ^ 23) = false → (s.chan c).ceHour = s.time.ns.toNat / 3600000000000 →
    let k := s.chan c
    let rank := k.rankOf (s.place' (64 * x.line)).2
    let dev := symbolDevice k.width (dqBit k.width x.dq x.beat / 16)
    givesSome (.patrolScrub c [x] []) s (fun u => u.dram.data = s.dram.data ∧ u.dram.bad = [] ∧ u.lineErrors x.line = 0
      ∧ Store.get 0 (u.chan c).ce (rank * 32 + dev) = Store.get 0 k.ce (rank * 32 + dev) + 1
      ∧ (s.param 0x13 ≤ Store.get 0 k.ce (rank * 32 + dev) + 1 → rank * 32 + dev ∉ k.ceRep →
        reported s u (64 * (43 + c)) 0xA1 { addr := c * 256 + rank * 32 + dev, access := 0xA, master := 0x4103 }
          ∧ rank * 32 + dev ∈ (u.chan c).ceRep)) ∧
    givesSome (.patrolScrub c [] [x]) s (fun u => u.dram.data = s.dram.data
      ∧ u.lineErrors x.line = BitVec.twoPow 640 (dqBit k.width x.dq x.beat) ∧ u.faults = s.faults)) ∧
  (∀ (s : State) (d : Decant), s.dram.decant = some d → s.moverRuns d = true →
    (d.phase = .copyOut → givesSome .decantCopyOutDone s (fun u => (u.chan d.channel).st = .decanted ∧ u.dram.data = s.dram.data
      ∧ ∃ m, u.dram.decant = some { d with phase := .retrain, moved := m } ∧ d.chunks.length * 131072 ≤ m)) ∧
    (d.phase = .retrain → d.channel < 8 → (s.chan d.channel).st = .decanted →
      givesSome (.channelRetrainDone d.channel none) s (fun u =>
        u.dram.decant = some { d with phase := if d.hold then .held else .copyBack, moved := 0, failed := false } ∧ (u.chan d.channel).retrain = false) ∧
      ∀ k, givesSome (.channelRetrainDone d.channel (some k)) s (fun u =>
        u.dram.decant = some { d with phase := .held, failed := true } ∧ reported s u (64 * (43 + d.channel) + 1) 0xA5 { addr := k }
          ∧ completed s u (.decant d.channel) 0x300 [])) ∧
    (d.phase = .copyBack → givesSome .decantDone s (fun u => u.dram.decant = none ∧ (u.chan d.channel).st = .service
      ∧ completed s u (.decant d.channel) 0 [])) ∧
    (d.phase = .aborting → givesSome .decantDone s (fun u => u.dram.decant = none ∧ (u.chan d.channel).st = .service
      ∧ completed s u (.decant d.channel) 4 []))) ∧
  (∀ (s : State) (c : Nat), c < 8 → s.up (43 + c) = true → (s.chan c).st = .training →
    (s.dram.decant = none → givesSome (.channelRetrainDone c none) s (fun u =>
      u.chan c = { s.chan c with st := .service, retrain := false, step := 6, dqs := [] } ∧ (u.isl (43 + c)).blockReset = false
        ∧ ((s.isl (43 + c)).blockReset = true → reported s u (64 * 52) 0xC4 { addr := 43 + c, conseq := true })
        ∧ ((s.isl (43 + c)).blockReset = false → u.faults = s.faults))) ∧
    ∀ k, givesSome (.channelRetrainDone c (some k)) s (fun u => u.chan c = { s.chan c with st := .absent, retrain := false, step := k - 1 }
      ∧ reported s u (64 * (43 + c) + 1) 0xA5 { addr := k }))

/-- The Queue Manager admits, schedules and shapes. -/
def Obligations.QueuesAdmitScheduleAndShape : Prop := Claims.HandoversAreAdmittedAndLinked ∧ Claims.SchedulingTakesQueueHeads ∧ Claims.BucketsCreditTheirRate

/-- DRAM command slots and channels. -/
def Obligations.DramCommandsAndChannels : Prop := Claims.CommandSlotsServeAndRefresh ∧ Claims.ChannelsFollowTemperatureAndTraining


/-! ### Accords -/

namespace Sys2Proof.Claims

/-- The command answers by replying: from a state of which `p` holds, the reply with this status and these results is stored in its issuer
slot and sent where the command came from (R395, R397). -/
def replies (c : Instr) (s : State) (answerTo : ReplyTo) (status : Nat) (results : List Byte) (p : State → Prop) : Prop :=
  ∃ w, exec c s = .next (w.reply answerTo status results).watch ∧ p w

end Sys2Proof.Claims

/-- R351, R352, R527: a preparation that no island failed arms I26; one that an island failed ends, is reported and answers HW_FAULT. -/
def Sys2Proof.Claims.PreparationsArmOrFail : Prop :=
  (∀ (s : State) (failed : List Nat), s.accord.preparing = true → s.accord.armed = false → s.up 51 = true →
    (∀ i ∈ failed, holdsCopies i = false ∨ s.inReset i = true) → givesSome (.accordPrepareDone failed) s (fun u =>
      u.accord = { s.accord with armed := true } ∧ u.net = s.net ++ [⟨51, 26, .arm s.accord.staged.toNat⟩] ∧ (s.accord.live = true → u.live = s.live)
        ∧ (s.accord.live = false → ∀ c, c < 26 → (s.cl c).svc.st.toNat ≤ 1 → fld (u.obj 0x0042 c) 1 0 = 1))) ∧
  (∀ (s : State) (i : Nat) (d : Deferred), s.accord.preparing = true → s.accord.armed = false → s.up 51 = true → holdsCopies i = true →
    s.inReset i = false → s.ycp.deferred = some d → replies (.accordPrepareDone [i]) s d.answerTo 0x300 [] (fun w =>
      w.accord = { s.accord with preparing := false } ∧ w.ycp.deferred = none ∧ w.net = s.net
        ∧ reported s w (if i < 26 then 64 * i + 0x12 else if i < 31 then 64 * i else 64 * i + 0x18) 0xA9 {}))

/-- R345, R346, R352: the commit point. The staged Accord becomes current and the current one drains; its copy becomes the new staged one;
every marker leaves, and ACCORD_COMMIT answers with the tag and the time. -/
def Sys2Proof.Claims.CommitPointChangesTheLiveAccord : Prop :=
  ∀ (s : State) (t : Nat) (d : Deferred), s.arrive 51 26 = some (.arm t) → s.ycp.deferred = some d →
    let new := s.accord.staged
    replies .commitPoint s d.answerTo 0 (beBytes 1 new.toNat ++ [0, 0, 0] ++ beBytes 8 s.time.ns.toNat) (fun w =>
      w.accord.current = new ∧ w.accord.staged = new + 1 ∧ w.accord.live = true ∧ w.accord.drainValid = s.accord.live
        ∧ (s.accord.live = true → w.accord.draining = s.accord.current) ∧ w.accord.markers = 0x1F ∧ w.accord.preparing = false
        ∧ w.accord.armed = false ∧ w.accord.drainStart = s.time.elapsed ∧ w.accord.digestDue = true
        ∧ w.copy (new + 1).toNat = s.copy new.toNat ∧ w.copy new.toNat = s.copy new.toNat
        ∧ w.net = dropCrossing 51 26 s.net ++ [27, 28, 29, 30, 42, 36].map (fun i => ⟨26, i, .marker new.toNat⟩)
        ∧ (∀ r, w.rcd r = s.rcd r) ∧ w.slices = s.slices)

/-- R237, R346, R349, R356, R357, R449: a slice or the Task Scheduler that owes its marker no more returns it; the draining Accord retires when
no marker is out and no record counts toward it; clusters let go of copies no thread runs under; a discard ends with the staged copy that
of the current Accord; the configuration digest completes.
The model's own choices in it: log 56. -/
def Obligations.AccordsDrainRetireAndDiscard : Prop :=
  (∀ (s : State) (i : Nat), 27 ≤ i → i < 31 → s.up i = true → (s.up 26 = true ∨ s.inReset 26 = true) → s.accord.markers.getLsbD (i - 27) = true →
    (((s.slc (i - 27)).tag = some s.accord.current.toNat ∧ (s.slc (i - 27)).oldTag = none) → givesSome (.markerReturn i) s (fun u =>
      u.accord.markers.getLsbD (i - 27) = false ∧ ∀ k, k < 5 → k ≠ i - 27 → u.accord.markers.getLsbD k = s.accord.markers.getLsbD k)) ∧
    (((s.slc (i - 27)).tag ≠ some s.accord.current.toNat ∨ (s.slc (i - 27)).oldTag ≠ none) → gives (.markerReturn i) s s)) ∧
  (∀ s : State, s.up 42 = true → (s.up 26 = true ∨ s.inReset 26 = true) → s.accord.markers.getLsbD 4 = true →
    let owed := s.tasks.tag ≠ some s.accord.current.toNat ∨ ∃ m ∈ s.net, ∃ n t, m.msg = .task n t ∧ t ≠ s.accord.current.toNat
    (¬ owed → givesSome (.markerReturn 42) s (fun u =>
      u.accord.markers.getLsbD 4 = false ∧ ∀ k, k < 4 → u.accord.markers.getLsbD k = s.accord.markers.getLsbD k)) ∧
    (owed → gives (.markerReturn 42) s s)) ∧
  (∀ s : State, s.up 26 = true → s.accord.drainValid = true →
    (s.accord.markers = 0 → (∀ e ∈ s.seq.recs, e.2.counts = true → e.2.accord ≠ s.accord.draining) → givesSome .accordRetire s (fun u =>
      u.accord.drainValid = false ∧ u.accord.markers = 0 ∧ u.tables.sweeping = s.tables.sweeping ++ [s.accord.draining.toNat]
        ∧ (∀ c, c < 26 → (u.cl c).svc.old = (s.cl c).svc.old ++ [s.accord.draining.toNat]) ∧ u.seq = s.seq)) ∧
    ((s.accord.markers ≠ 0 ∨ ∃ e ∈ s.seq.recs, e.2.counts = true ∧ e.2.accord = s.accord.draining) → gives .accordRetire s s)) ∧
  (∀ (s : State) (c : Nat), c < 26 → s.up c = true → givesSome (.clusterBankFree c) s (fun u =>
    (∀ t ∈ (u.cl c).svc.old, ∃ e ∈ (s.cl c).thread, e.2.busy = true ∧ e.2.accord = t) ∧ (∀ j, j ≠ c → u.cl j = s.cl j)
      ∧ (∀ t, (t = s.accord.staged.toNat ∨ s.accord.live = true ∧ t = s.accord.current.toNat) → u.copy t = s.copy t))) ∧
  (∀ s : State, s.up 51 = true → s.accord.discarding = true → s.tables.structs = [] → s.tables.macerating = [] →
    givesSome .accordDiscardDone s (fun u => u.accord.discarding = false
      ∧ u.copy s.accord.staged.toNat = (if s.accord.live then s.copy s.accord.current.toNat else {}) ∧ completed s u .discard 0 [])) ∧
  (∀ s : State, s.serves = true → s.up 51 = true → gives .configDigestDone s { s with accord := { s.accord with digestDue := false } })

/-! ### Live service -/

/-- R361, R362, R430: a drain ends when no thread of the cluster runs a record and none is coming, or answers BUSY when its time is over; a
reset ends with the cluster's state; a self-test leaves a good spare or an unchecked cluster that is reported.
The model's own choices in it: log 19. -/
def Sys2Proof.Claims.ClusterServicesEnd : Prop :=
  (∀ (s : State) (c : Nat), c < 26 → (s.cl c).svc.st = 2 → s.runningThreads c = 0 →
    (∀ m ∈ s.net, (∀ d, m.msg = .dispatch d → m.dst ≠ c) ∧ ∀ t, m.msg = .threadFree t → t / 128 ≠ c) →
    givesSome (.clusterDrained c) s (fun u => (u.cl c).svc.st = 3 ∧ (∀ j, j ≠ c → u.cl j = s.cl j) ∧ completed s u (.drain c) 0 [0, 0, 0, 0])) ∧
  (∀ (s : State) (c : Nat), c < 26 → givesSome (.clusterDrainTimeout c) s (fun u =>
    u.clusters = s.clusters ∧ completed s u (.drain c) 0x103 [BitVec.ofNat 8 (s.runningThreads c), 0, 0, 0])) ∧
  (∀ (s : State) (c : Nat), c < 26 → s.running (.clusterReset c) = true → s.inReset c = true → (s.isl c).unlocked = false →
    (s.isl c).blockReset = false → (∀ m ∈ s.net, m.dst ≠ c) → 24 ≤ s.positionOf c →
    (∀ e ∈ (s.cl c).chan, e.2.bad = false) → givesSome (.clusterResetDone c) s (fun u =>
      u.up c = true ∧ (u.cl c).svc.st = 5 ∧ c ∉ u.seq.noticed ∧ (u.cl c).chan = [] ∧ completed s u (.clusterReset c) 0 [5, 0, 0, 0])) ∧
  (∀ (s : State) (c : Nat) (pass : Bool), c < 26 → s.up c = true → s.running (.spareCheck c) = true →
    givesSome (.spareCheckDone c pass) s (fun u => (u.cl c).svc.check = pass ∧ (∀ j, j ≠ c → u.cl j = s.cl j)
      ∧ (pass = true → (u.cl c).svc.st = 0 ∧ completed s u (.spareCheck c) 0 [])
      ∧ (pass = false → (u.cl c).svc.st = 5 ∧ reported s u (64 * c + 0x13) 0xAA {} ∧ completed s u (.spareCheck c) 0x300 [])))

/-- R360, R364, R386, R445: a scrub of an on-chip array moves a row corrected twice running to a spare, or reports it when none is left, and treats a word it finds
uncorrectable as the block does (R530 for a record); the Steward's restart delivers what it kept.
The model's own choices in it: log 18, 20, 45. -/
def Sys2Proof.Claims.ScrubsAndRestartsResumeService : Prop :=
  (∀ (s : State) (src : BitVec 12) (row : Nat), holdsArray src.toNat = true → s.up (src.toNat / 64) = true →
    Store.get [] s.scrub.corrected src.toNat = [row] → givesSome (.sramScrub src [row] []) s (fun u =>
      let used := Store.get 0 s.scrub.spare src.toNat
      (used < Config.spareRows src.toNat → Store.get 0 u.scrub.spare src.toNat = used + 1 ∧ u.faults = s.faults) ∧
      (Config.spareRows src.toNat ≤ used → u.scrub.spare = s.scrub.spare ∧
        reported s u src.toNat 0xA8 { addr := Config.arrayAddress src.toNat row, master := 0x4104, access := 0xA }))) ∧
  (∀ (s : State) (r : Nat), s.up 26 = true → r < 8192 → r ∉ s.seq.badRec → (s.rcd r).st = .running →
    givesSome (.sramScrub 0x680 [] [r]) s (fun u =>
      u.rcd r = { s.rcd r with st := .held, fault := 0x59, eccHeld := true, waitPt := none, outcome := none }
        ∧ reported s u 0x680 0x59 { addr := r, detail := (s.rcd r).gen.toNat * 8192 + r, master := 0x4104, access := 0xA }
        ∧ ⟨26, (s.rcd r).thread.toNat / 128, .abort (s.rcd r).thread.toNat r (s.rcd r).gen false⟩ ∈ u.net)) ∧
  (∀ s : State, s.ycp.up = false → s.up 51 = true → s.sec.restart = .reset → s.sec.recovery = false → s.sec.running = none → s.ycp.late = [] →
    s.ycp.asyncs = [] → givesSome .stewardResume s (fun u =>
      u.ycp.up = true ∧ u.sec.restart = .none ∧ u.ycp.kept = [] ∧ u.ycp.events = s.ycp.events ++ s.ycp.kept
        ∧ reported s u (64 * 51) 0xAB { addr := Config.restartCause 2, conseq := true } ∧ (u.isl 51).blockReset = false
        ∧ ((s.isl 51).blockReset = true → reported s u (64 * 52) 0xC4 { addr := 51, conseq := true }))) ∧
  (∀ (s : State) (k old : Nat), s.ycp.up = false → s.up 51 = true → s.sec.restart = .starting k (some old) →
    givesSome .bootFallback s (fun u => u.ycp.up = true ∧ u.sec.restart = .none ∧ u.sec.running = some old ∧ u.sec.recovery = false
      ∧ completed s u (.imageActivate k) 0x300 [BitVec.ofNat 8 old, 0, 0, 0])) ∧
  (∀ (s : State) (k old : Nat), s.ycp.up = false → s.up 51 = true → s.sec.restart = .starting k (some old) → k ≤ 1 →
    givesSome .stewardResume s (fun u => u.ycp.up = true ∧ u.sec.restart = .none ∧ u.sec.active = k ∧ u.slotSt k = .running)) ∧
  (∀ (s : State) (k : Nat), s.ycp.up = true → s.up 51 = true → s.sec.restart = .loading k → k ≤ 1 →
    (∀ corrupt, corrupt = true ∨ s.sec.written.contains k = true ∧ manifestHashes (s.slotReader k) = false →
      givesSome (.imageLoadDone corrupt) s (fun u => u.slotSt k = .invalid ∧ u.sec.restart = .none ∧ u.ycp.up = true
        ∧ completed s u (.imageActivate k) 0x300 [BitVec.ofNat 8 (s.sec.running.getD 0xFF), 0, 0, 0])) ∧
    (s.sec.written.contains k = false ∨ manifestHashes (s.slotReader k) = true → givesSome (.imageLoadDone false) s (fun u => u.ycp.up = false ∧ u.sec.restart = .starting k s.sec.running ∧ u.sec.running = some k
      ∧ u.ycp.deferred = none))) ∧
  (∀ (s : State) (i : Nat), i < 16 → s.serves = true → (s.issuer i).reservation < (s.issuer i).high + 2 ^ 19 →
    gives (.serialReservationWrite i) s (s.modIssuer i (fun x => { x with reservation := x.high + 2 ^ 20 })))

/-! ### The Fault Collector -/

namespace Sys2Proof.Claims

/-- The message that a collector takes next from an island's outbox. -/
def nextMsg (s : State) (i : Nat) (m : FaultMsg) : Prop := s.nextOutbox = some i ∧ ∃ rest, (outboxOf s i).msgs = m :: rest

end Sys2Proof.Claims

/-- R370, R372, R378, R379, R384: an accepted message takes the level of its first report, or one above the last for a repeat, and never above
its ceiling; the first message of a source is captured and later ones are counted; the Sillage takes the message under the next SEQ.
The model's own choices in it: log 12. -/
def Sys2Proof.Claims.AcceptedFaultsEscalateAndAreKept : Prop :=
  ∀ (s : State) (i : Nat) (m : FaultMsg), s.up 52 = true → nextMsg s i m → m.entry ∉ s.faults.badEntry → m.kind ≠ 0xC3 →
    let e := s.obj 0x00B0 (m.source.toNat * 16 + m.cls.toNat)
    let st := s.escState (m.source.toNat * 16 + m.cls.toNat)
    let base := fld e 15 13
    let up := min (st.level.toNat + 1) (fld e 12 10)
    let level := if m.cls = 1 ∨ m.conseq = true ∨ st.unacked = 0 then base else if m.source.toNat / 64 = 63 ∧ up = 3 then 4 else up
    s.extLag < 4096 → givesSome .faultMessageAccept s (fun u =>
      (level < 3 → s.obs.trace = none → (outboxOf u i).msgs = (outboxOf s i).msgs.tail) ∧ u.faults.lastIsland = i ∧ u.faults.nextSeq = s.faults.nextSeq + 1
        ∧ (∃ k, Store.get {} u.faults.sillage (s.faults.nextSeq.toNat % 4096) = k ∧ k.level = BitVec.ofNat 3 level ∧ k.seq = s.faults.nextSeq
          ∧ k.source = m.source ∧ k.kind = m.kind ∧ k.cls = m.cls ∧ k.master = m.master ∧ k.address = m.address ∧ k.detail = m.detail
          ∧ k.time = m.time ∧ ((s.capture m.source.toNat).valid = false → u.capture m.source.toNat = { valid := true, msg := k }))
        ∧ ((s.capture m.source.toNat).valid = true → (u.capture m.source.toNat).msg = (s.capture m.source.toNat).msg
          ∧ (u.capture m.source.toNat).repeats = satAdd (s.capture m.source.toNat).repeats 1)
        ∧ (m.cls ≠ 1 → m.conseq = false → (u.escState (m.source.toNat * 16 + m.cls.toNat)).unacked = satAdd st.unacked 1
          ∧ (u.escState (m.source.toNat * 16 + m.cls.toNat)).level = BitVec.ofNat 3 level)
        ∧ ((m.cls = 1 ∨ m.conseq = true) → u.faults.esc = s.faults.esc))

/-- R373, R374, R376, R377, R380, R383: what the reaction of an accepted message does besides: FAULT_CAUSE of its class, an event for the Steward,
ERR_N where its entry says so; level 3 resets its island, unless it is under reset already, and level 4 does so too and asks for the chip
reset with its SEQ in the cause.
The model's own choices in it: log 12. -/
def Sys2Proof.Claims.ReactionsFollowTheLevel : Prop :=
  ∀ (s : State) (i : Nat) (m : FaultMsg), s.up 52 = true → nextMsg s i m → m.entry ∉ s.faults.badEntry → m.kind ≠ 0xC3 →
    m.cls ≠ 1 → m.conseq = false → s.extLag < 4096 → s.ycp.up = false → s.pins.perstN = true →
    let e := s.obj 0x00B0 (m.source.toNat * 16 + m.cls.toNat)
    let base := fld e 15 13
    let isl := m.source.toNat / 64
    (s.escState (m.source.toNat * 16 + m.cls.toNat)).unacked = 0 →
    (base = 1 → givesSome .faultMessageAccept s (fun u =>
      u.bar0.faultCause.getLsbD m.cls.toNat = true ∧ u.ycp.kept = s.ycp.kept ++ [.fault s.faults.nextSeq] ∧ u.power = s.power
        ∧ u.faults.chipReset = s.faults.chipReset ∧ (fld e 9 6 % 2 = 1 → u.faults.errHold = true ∧ u.faults.errPulsing = true)
        ∧ (fld e 9 6 % 2 = 0 → u.faults.errHold = s.faults.errHold))) ∧
    (base = 4 → s.faults.chipReset = none → givesSome .faultMessageAccept s (fun u =>
      u.bar0.faultCause.getLsbD m.cls.toNat = true
        ∧ u.faults.chipReset = some (BitVec.ofNat 32 (2 * 2 ^ 28 + s.faults.nextSeq.toNat % 2 ^ 28))
        ∧ (53 ≤ isl → u.power = s.power) ∧ (isl < 53 → u.inReset isl = true ∨ s.underReset isl = true))) ∧
    (base = 3 → isl < 53 → s.underReset isl = false → givesSome .faultMessageAccept s (fun u =>
      u.inReset isl = true ∧ (u.isl isl).blockReset = true ∧ u.faults.chipReset = s.faults.chipReset ∧ u.faults.nextSeq = s.faults.nextSeq + 1)) ∧
    (base = 3 → isl < 53 → s.underReset isl = true → givesSome .faultMessageAccept s (fun u => u.isl isl = s.isl isl ∧ u.power = s.power))

/-- R19, R365, R370, R371, R376, R377, R383, R385: an overrun outbox reports its losses once it has room; a flit rejected four times is refused and
reported; a block reset that a reaction began ends with its report once its island serves again; a pulse on ERR_N ends; the extension takes the oldest entry; a chip reset
starts start-up anew and keeps what survives it.
The model's own choices in it: log 12, 15. -/
def Obligations.CollectorEventsReportAndRelease : Prop :=
  (∀ (s : State) (i : Nat), i < 64 → (outboxOf s i).msgs.length < 16 → (outboxOf s i).lost ≠ [] → givesSome (.outboxOverrun i) s (fun u =>
    outboxOf u i = { outboxOf s i with lost := [], msgs := (outboxOf s i).msgs ++ [mkFault s (64 * i + 0x3F) 0xC3
      { addr := (outboxOf s i).lastClass.toNat, detail := ((outboxOf s i).lost.map (fun e => e.2.toNat)).sum }] })) ∧
  (∀ (s : State) (a b : Nat) (m : Msg), a < 53 → b < 53 → s.up b = true → s.oldest a b = some m →
    Store.get 0 s.faults.flitTries (a * 64 + b) < 3 → givesSome (.flitResend a b) s (fun u =>
      Store.get 0 u.faults.flitTries (a * 64 + b) = Store.get 0 s.faults.flitTries (a * 64 + b) + 1 ∧ u.net = s.net)) ∧
  (∀ (s : State) (a b t r k : Nat) (g : BitVec 8), a < 53 → b < 53 → s.up b = true → s.oldest a b = some (.ordReq t r g k) →
    3 ≤ Store.get 0 s.faults.flitTries (a * 64 + b) → givesSome (.flitResend a b) s (fun u =>
      u.net = dropCrossing a b s.net ∧ reported s u (64 * b + 0x3F) 0xC2 { addr := a })) ∧
  (∀ (s : State) (i : Nat), i < 53 → s.inReset i = true → (s.isl i).blockReset = true → (s.isl i).unlocked = false →
    s.running (.clusterReset i) = false → (∀ m ∈ s.net, m.dst ≠ i) →
    (i = 41 ∨ i = 51 ∧ s.serves = true → givesSome (.blockResetRelease i) s (fun u => u.up i = true ∧ (u.isl i).blockReset = false
      ∧ (∀ j, j ≠ i → u.isl j = s.isl j) ∧ reported s u (64 * 52) 0xC4 { addr := i, conseq := true })) ∧
    (i = 51 → s.serves = false → givesSome (.blockResetRelease i) s (fun u =>
      u.up i = true ∧ (u.isl i).blockReset = true ∧ u.faults = s.faults)) ∧
    (43 ≤ i → i < 51 → (s.chan (i - 43)).st = .service → givesSome (.blockResetRelease i) s (fun u =>
      u.up i = true ∧ (u.isl i).blockReset = true ∧ (u.chan (i - 43)).st = .training ∧ u.faults = s.faults))) ∧
  (∀ s : State, s.faults.errPulsing = true → gives .errNPulseEnd s { s with faults := { s.faults with
    errPulsing := false, errHold := s.faults.errHold && !s.faults.errRelease, errRelease := false } }) ∧
  (∀ s : State, s.up 52 = true → s.extLag ≠ 0 →
    let a := s.param 0x16 * 2 ^ 20 + 32 * (s.faults.extNext.toNat % (32768 * s.param 0x17))
    s.dramServes a = true → givesSome .sillageCopy s (fun u => u.faults.extNext = s.faults.extNext + 1 ∧
      mreadLE u.dram.data a 32 = (Store.get ({} : FaultMsg) s.faults.sillage (s.faults.extNext.toNat % 4096)).word % 2 ^ 256
        ∧ ∀ b, b < a ∨ a + 32 ≤ b → mget u.dram.data b = mget s.dram.data b)) ∧
  (∀ (s : State) (cause : BitVec 32), s.faults.chipReset = some cause → givesSome .chipReset s (fun u =>
    u.startup = { running := true } ∧ u.faults.resetCause = cause ∧ u.faults.chipReset = none ∧ u.faults.sillage = s.faults.sillage
      ∧ u.faults.nextSeq = s.faults.nextSeq ∧ u.faults.capture = s.faults.capture ∧ (s.faults.chipErr = true → u.faults.errHold = true)
      ∧ u.up 51 = true ∧ u.up 52 = true ∧ (∀ i, i < 51 → u.inReset i = true) ∧ u.live = [] ∧ u.sec.flash = s.sec.flash
      ∧ u.pins = { s.pins with pcieUp := false })) ∧
  (∀ s : State, s.ycp.resetDue = true → givesSome .sysResetExpire s (fun u =>
    u.startup = { running := true } ∧ u.faults.resetCause = 0x30000000 ∧ u.faults.sillage = s.faults.sillage ∧ u.up 51 = true
      ∧ u.sec.flash = s.sec.flash ∧ u.ycp.resetDue = false))

/-- Preparations arm or fail, and the Commit Point changes the live Accord. -/
def Obligations.PreparationsCommitOrFail : Prop := Claims.PreparationsArmOrFail ∧ Claims.CommitPointChangesTheLiveAccord

/-- Cluster services, scrubs and restarts. -/
def Obligations.ServicesEndAndServiceResumes : Prop := Claims.ClusterServicesEnd ∧ Claims.ScrubsAndRestartsResumeService

/-- Accepted faults escalate, are kept and set off the reactions of their level. -/
def Obligations.AcceptedFaultsEscalateAndReact : Prop := Claims.AcceptedFaultsEscalateAndAreKept ∧ Claims.ReactionsFollowTheLevel


/-! ### Commands of the Yunanath Command Protocol: session, objects, Accords and handles -/

namespace Sys2Proof.Claims

/-- Where a packet's reply goes, and what of the packet it repeats (R390). -/
def toOf (x : Packet) (op : Nat) (o : Origin) : ReplyTo :=
  { version := 1, origin := o, opcode := op, tag := x.tag, issuer := x.issuer.toNat, serial := x.serial.toNat }

/-- The packet of opcode `op` meets none of the conditions 1 to 9 of R391: the Steward takes it from transport `o`, and `v` is the state in
which its command executes, the serial consumed and the execution counted. `sel` is the selector byte that the command's name stands
for, and `form` the layout that R417 asks of the parameters. -/
def runs (s : State) (x : Packet) (op : Nat) (sel : Option (Nat × Byte)) (form : List Byte → Bool) (o : Origin) (v : State) : Prop :=
  let k := pktOf x op sel
  ∃ t, s.takePacket x.via k.bytes = some (some o, t) ∧ t.verdict o k = .proceed ∧ (t.consume k).permitted o k = true
    ∧ x.flags &&& 0x5F = 0 ∧ x.rsvd = 0 ∧ form k.params = true ∧ v = (t.consume k).count (src 51 0) 0x11

/-- `n` parameter bytes from offset `i`, as the big-endian number they hold and as they stand. -/
def arg (x : Packet) (sel : Option (Nat × Byte)) (i n : Nat) : Nat := beVal (slice (pktOf x 0 sel).params i n)
def argBytes (x : Packet) (sel : Option (Nat × Byte)) (i n : Nat) : List Byte := slice (pktOf x 0 sel).params i n

/-- The issuer's slot holds fewer than eight commands in ACCEPTED (R397). -/
abbrev fewer (v : State) (x : Packet) : Prop := v.ycp.asyncs.countP (fun a => a.answerTo.issuer == x.issuer.toNat) < 8

/-- The command starts an operation: ACCEPTED is stored and sent, and from a state of which `p` holds the operation runs until its one
completion (R397). -/
def starts (c : Instr) (s : State) (answerTo : ReplyTo) (op : AsyncOp) (p : State → Prop) : Prop :=
  ∃ w, exec c s = .next (State.reply { w with ycp := { w.ycp with asyncs := w.ycp.asyncs ++ [⟨answerTo, op⟩] } } answerTo 1 []).watch ∧ p w

/-- The steps of start-up have ended (R520). -/
abbrev after (v : State) (l : List Nat) : Prop := ∀ k ∈ l, k ∈ v.startup.done

/-- The task that a task object image makes (R271). -/
def taskImage (w : Nat) (g : BitVec 8) : Task :=
  { st := .idle
    gen := g
    domained := bits w 114 114 == 1
    rearmFault := bits w 113 113 == 1
    prio := BitVec.ofNat 3 (bits w 112 110)
    role := BitVec.ofNat 6 (bits w 109 104)
    domain := BitVec.ofNat 16 (bits w 103 88)
    period := BitVec.ofNat 32 (bits w 63 32)
    arg := BitVec.ofNat 32 (bits w 31 0) }

end Sys2Proof.Claims

/-- R422: the session and system commands. SYS_TIME returns the time after the operation and the trim in force, and SYS_RESET's reply goes
out before its chip reset.
The model's own choices in it: log 49. -/
def Obligations.SessionAndTimeCommandsAnswer : Prop :=
  ∀ (s v : State) (x : Packet) (o : Origin),
  (runs s x 0x0001 none (plen 0) o v → replies (.sysIdentity x) s (toOf x 0x0001 o) 0
    (beBytes 4 0x4208B101 ++ beBytes 4 (match v.sec.running with | some k => v.slotVersion k | none => 0) ++ beBytes 8 Config.deviceSerial
      ++ identityPublic) (· = v)) ∧
  (runs s x 0x0002 none (plen 0) o v →
    let i := v.issuer x.issuer.toNat
    ∃ m, (∀ k, k < 64 → (Nat.testBit m k = true ↔ ∃ n ∈ i.executed, n + k = i.high)) ∧
      replies (.sysSession x) s (toOf x 0x0002 o) 0 (beBytes 8 i.high ++ beBytes 8 m ++ beBytes 4 i.ctl.toNat
        ++ beBytes 1 (v.ycp.asyncs.countP (fun a => a.answerTo.issuer == x.issuer.toNat)) ++ [0, 0, 0] ++ beBytes 8 v.time.ns.toNat) (· = v)) ∧
  (let trim := beBytes 8 (BitVec.ofInt 64 v.time.trim).toNat
   (runs s x 0x0003 (some (0, 0)) (plen 12 [(1, 3)]) o v → arg x (some (0, 0)) 4 8 = 0 →
     replies (.sysTimeRead x) s (toOf x 0x0003 o) 0 (beBytes 8 v.time.ns.toNat ++ trim) (· = v)) ∧
   (runs s x 0x0003 (some (0, 1)) (plen 12 [(1, 3)]) o v →
     let n := BitVec.ofNat 64 (arg x (some (0, 1)) 4 8)
     replies (.sysTimeSet x) s (toOf x 0x0003 o) 0 (beBytes 8 n.toNat ++ trim) (fun w => w.time.ns = n ∧ w.time.trim = v.time.trim
       ∧ w.time.elapsed = v.time.elapsed)) ∧
   (runs s x 0x0003 (some (0, 2)) (plen 12 [(1, 3)]) o v →
     let n := v.time.ns + BitVec.ofNat 64 (arg x (some (0, 2)) 4 8)
     replies (.sysTimeStep x) s (toOf x 0x0003 o) 0 (beBytes 8 n.toNat ++ trim) (fun w => w.time = { v.time with ns := n }))) ∧
  (runs s x 0x0003 (some (0, 3)) (plen 12 [(1, 3)]) o v →
    let n := signed 64 (arg x (some (0, 3)) 4 8)
    (n.natAbs ≤ 2 ^ 24 → replies (.sysTimeTrim x) s (toOf x 0x0003 o) 0 (beBytes 8 v.time.ns.toNat ++ beBytes 8 (BitVec.ofInt 64 n).toNat)
      (· = { v with time := { v.time with trim := n } })) ∧
    (2 ^ 24 < n.natAbs → replies (.sysTimeTrim x) s (toOf x 0x0003 o) 0x101 [] (· = v))) ∧
  (runs s x 0x0004 none (plen 4 [(1, 3)]) o v →
    (arg x none 0 1 = 1 → replies (.sysReset x) s (toOf x 0x0004 o) 0 [] (· = { v with ycp := { v.ycp with resetDue := true } })) ∧
    (arg x none 0 1 ≠ 1 → replies (.sysReset x) s (toOf x 0x0004 o) 0x101 [] (· = v)))

/-- R403, R404, R421, R271, R345, R373, R474, R479: objects are read, written and staged by class and index. A read returns the value, and clears
the fields that a read clears; a write stores a value its chapter allows and refuses any other, or a class it does not suit; a staged value
goes to the staged Accord alone. A cluster's clock restarts relocked, and a change that waits for the governor begins.
The model's own choices in it: log 17, 50. -/
def Obligations.ObjectsAreReadWrittenAndStaged : Prop :=
  (∀ (s v : State) (x : Packet) (o : Origin),
    let cls := arg x none 0 2
    let i := arg x none 4 4
    arg x none 8 2 = 1 →
    (runs s x 0x0100 none objHead o v → x.params.length = 12 →
      (cls = 0xC0 → i < 0x1A → replies (.objRead x) s (toOf x 0x0100 o) 0 (beBytes 8 (v.obj 0xC0 i).toNat) (· = v)) ∧
      (cls = 0x60 → i < 65536 → after v [6] → v.up 42 = true → i ∉ v.tasks.bad →
        replies (.objRead x) s (toOf x 0x0100 o) 0 (beBytes 16 (v.tsk i).word) (fun w => w.tsk i = { v.tsk i with missed := 0 }
          ∧ (∀ k, k ≠ i → w.tsk k = v.tsk k) ∧ w.seq = v.seq ∧ w.dram = v.dram)) ∧
      (cls = 0x60 → i < 65536 → after v [6] → v.inReset 42 = true → replies (.objRead x) s (toOf x 0x0100 o) 0x300 [] (· = v)) ∧
      (cls = 0xC0 → 27 ≤ i → replies (.objRead x) s (toOf x 0x0100 o) 0x101 [] (· = v))) ∧
    (runs s x 0x0101 none objHead o v →
      (cls = 0xC0 → i = 5 → x.params.length = 20 → after v [7] →
        let n := arg x none 12 8
        (50 ≤ n → n ≤ 10000000 → replies (.objWrite x) s (toOf x 0x0101 o) 0 [] (fun w => w.param 5 = n
          ∧ (∀ k, k < 27 → k ≠ 5 → w.param k = v.param k) ∧ w.tasks = v.tasks)) ∧
        (n < 50 ∨ 10000000 < n → replies (.objWrite x) s (toOf x 0x0101 o) 0x101 [] (· = v))) ∧
      (cls = 0xB0 → i < 65536 → x.params.length = 14 → v.up 52 = true →
        let e := arg x none 12 2
        let ok := bits e 5 0 = 0 ∧ 1 ≤ bits e 15 13 ∧ bits e 15 13 ≤ bits e 12 10 ∧ bits e 12 10 ≤ 4
          ∧ (i / 1024 = 63 → bits e 15 13 ≠ 3 ∧ bits e 12 10 ≠ 3)
        (ok → replies (.objWrite x) s (toOf x 0x0101 o) 0 [] (fun w => (w.obj 0xB0 i).toNat = e ∧ i ∉ w.faults.badEntry
          ∧ ∀ k, k ≠ i → k < 65536 → w.obj 0xB0 k = v.obj 0xB0 k)) ∧
        (¬ ok → replies (.objWrite x) s (toOf x 0x0101 o) 0x101 [] (· = v))) ∧
      (cls = 0xA0 → i = 0 → x.params.length = 20 → replies (.objWrite x) s (toOf x 0x0101 o) 0x102 [] (· = v))) ∧
    (runs s x 0x0102 none objHead o v →
      (cls = 0x33 → i < 64 → x.params.length = 16 → after v [6] → v.accord.discarding = false →
        let n := arg x none 12 4
        (n < 2 ^ 24 → n ≠ 0 → replies (.objStage x) s (toOf x 0x0102 o) 0 [] (fun w =>
          (w.sobj v.accord.staged.toNat 0x33 i).toNat = n ∧ (∀ t, t ≠ v.accord.staged.toNat → w.copy t = v.copy t) ∧ w.live = v.live)) ∧
        (2 ^ 24 ≤ n ∨ n = 0 → replies (.objStage x) s (toOf x 0x0102 o) 0x101 [] (· = v))) ∧
      (cls = 0xC0 → i < 27 → x.params.length = 20 → replies (.objStage x) s (toOf x 0x0102 o) 0x102 [] (· = v)))) ∧
  (∀ (s : State) (i : Nat) (f : BitVec 12) (mv : BitVec 10) (d : Deferred), i < 53 → (s.isl i).st = .relocking → (s.isl i).target = some (f, mv) →
    s.ycp.deferred = some d → d.wait = .island i → d.rest = [] → replies (.islandRelockDone i) s d.answerTo 0 [] (fun w =>
      w.isl i = { s.isl i with st := .run, locked := true, freq := f, volt := mv, vmeas := mv, target := none } ∧ w.ycp.deferred = none
        ∧ ∀ j, j ≠ i → w.isl j = s.isl j)) ∧
  (∀ (s : State) (i : Nat) (rest : List PowerChange), s.power.waiting = .island i :: rest → (s.isl i).st = .run → (s.isl i).target.isSome = true →
    givesSome .governorGrant s (fun u => u.power.waiting = rest ∧ u.isl i = { s.isl i with st := .relocking, locked := false }
      ∧ ∀ j, j ≠ i → u.isl j = s.isl j))

/-- R349, R350, R359: ACCORD_COMMIT passes its checks in their order and starts the preparation, and its reply waits for the commit point; a
discard starts, and a second one is refused while it runs. -/
def Sys2Proof.Claims.AccordCommandsPrepareOrRefuse : Prop :=
  ∀ (s v : State) (x : Packet) (o : Origin),
  (runs s x 0x0108 none (plen 0) o v → v.accord.discarding = false →
    (v.startup.bringup = false → replies (.accordCommit x) s (toOf x 0x0108 o) 0x102 [] (· = v)) ∧
    (v.startup.bringup = true → (v.accord.drainValid = true ∨ v.accord.preparing = true) →
      replies (.accordCommit x) s (toOf x 0x0108 o) 0x103 [] (· = v)) ∧
    (v.startup.bringup = true → v.accord.drainValid = false → v.accord.preparing = false → v.tables.sweeping = [] → v.tables.macerating = [] →
      ((∃ e ∈ v.ycp.windows, e.2.st ≠ 0 ∧ (e.2.target = 2 ∨ e.2.target ≤ 1 ∧ e.2.selector = 0)) →
        replies (.accordCommit x) s (toOf x 0x0108 o) 0x102 [] (· = v)) ∧
      ((∀ e ∈ v.ycp.windows, e.2.st = 0 ∨ e.2.target = 3 ∨ e.2.target = 4 ∨ e.2.target ≤ 1 ∧ e.2.selector ≠ 0) → v.inReset 26 = false →
        v.inReset 42 = false → (v.accord.live = true ∨ v.startup.bankStaged = true) →
        let d : Deferred := { answerTo := toOf x 0x0108 o, wait := .commit }
        gives (.accordCommit x) s { v with accord := { v.accord with preparing := true }, ycp := { v.ycp with deferred := some d } }))) ∧
  (runs s x 0x0109 none (plen 0) o v →
    (v.accord.discarding = true → replies (.accordDiscard x) s (toOf x 0x0109 o) 0x103 [] (· = v)) ∧
    (v.accord.discarding = false → fewer v x →
      starts (.accordDiscard x) s (toOf x 0x0109 o) .discard (· = { v with accord := { v.accord with discarding := true } })) ∧
    (v.accord.discarding = false → ¬ fewer v x → replies (.accordDiscard x) s (toOf x 0x0109 o) 0x103 [] (· = v)))

/-- R270 to R273: the commands on task handles. A created task is the lowest-numbered FREE one, with its GEN in the handle; a stale handle is
refused; arming, cancelling, aborting and freeing act by the task's state.
The model's own choices in it: log 44, 49. -/
def Sys2Proof.Claims.TaskCommandsActOnTheirHandle : Prop :=
  ∀ (s v : State) (x : Packet) (o : Origin), v.up 42 = true → after v [6] → v.tasks.bad = [] →
  (∀ n, runs s x 0x0110 none (plen 16) o v → Store.wf ({} : Task) v.tasks.task = true → n < 65536 → (∀ k, k < n → (v.tsk k).st ≠ .free) →
    (v.tsk n).st = .free →
    let w := arg x none 0 16
    (bits w 127 115 = 0 → bits w 87 64 = 0 → replies (.taskCreate x) s (toOf x 0x0110 o) 0 (beBytes 4 ((v.tsk n).gen.toNat * 2 ^ 24 + n)) (fun u =>
      u.tsk n = taskImage w (v.tsk n).gen ∧ ∀ k, k ≠ n → u.tsk k = v.tsk k)) ∧
    (bits w 127 115 ≠ 0 ∨ bits w 87 64 ≠ 0 → replies (.taskCreate x) s (toOf x 0x0110 o) 0x101 [] (· = v))) ∧
  (let h := arg x none 0 4
   let n := h % 65536
   let g := h / 2 ^ 24
   h / 65536 % 256 = 0 →
   (g ≠ (v.tsk n).gen.toNat →
     (runs s x 0x0111 none (plen 8) o v → replies (.taskArm x) s (toOf x 0x0111 o) 0x102 [] (· = v)) ∧
     (runs s x 0x0112 none (plen 4) o v → replies (.taskCancel x) s (toOf x 0x0112 o) 0x102 [] (· = v)) ∧
     (runs s x 0x0113 none (plen 4) o v → replies (.taskAbort x) s (toOf x 0x0113 o) 0x102 [] (· = v)) ∧
     (runs s x 0x0114 none (plen 4) o v → replies (.taskFree x) s (toOf x 0x0114 o) 2 [] (· = v))) ∧
   (g = (v.tsk n).gen.toNat →
     (runs s x 0x0111 none (plen 8) o v →
       let d := arg x none 4 4
       ((v.tsk n).st = .idle → d = 0 → (v.tsk n).cancelAt = some v.time.elapsed → replies (.taskArm x) s (toOf x 0x0111 o) 4 [] (· = v)) ∧
       ((v.tsk n).st = .idle → d = 0 → (v.tsk n).cancelAt ≠ some v.time.elapsed → replies (.taskArm x) s (toOf x 0x0111 o) 0 [] (fun u =>
         u.tsk n = { v.tsk n with st := .ready, due := v.tasks.tick, cancelled := false } ∧ u.tasks.ready = v.tasks.ready.filter (· != n) ++ [n])) ∧
       (((v.tsk n).st = .idle ∧ d ≠ 0 ∨ (v.tsk n).st = .delayed) → replies (.taskArm x) s (toOf x 0x0111 o) 0 [] (fun u =>
         u.tsk n = { v.tsk n with st := .delayed, due := v.tasks.tick + d, armPending := none, cancelled := false } ∧ (v.tasks.tick + d, n) ∈ u.tasks.delay)) ∧
       ((v.tsk n).st = .ready → replies (.taskArm x) s (toOf x 0x0111 o) 2 [] (· = v)) ∧
       ((v.tsk n).st = .dispatched → replies (.taskArm x) s (toOf x 0x0111 o) 0 [] (fun u => u.tsk n = { v.tsk n with armPending := some d }))) ∧
     (runs s x 0x0112 none (plen 4) o v →
       ((v.tsk n).st = .idle → replies (.taskCancel x) s (toOf x 0x0112 o) 2 [] (fun u =>
         u.tsk n = { v.tsk n with cancelAt := some v.time.elapsed } ∧ (∀ k, k ≠ n → u.tsk k = v.tsk k) ∧ u.tasks.ready = v.tasks.ready
           ∧ u.tasks.delay = v.tasks.delay)) ∧
       (((v.tsk n).st = .delayed ∨ (v.tsk n).st = .ready) → replies (.taskCancel x) s (toOf x 0x0112 o) 0 [] (fun u =>
         u.tsk n = { v.tsk n with st := .idle, armPending := none, cancelled := false, fellAt := none, cancelAt := some v.time.elapsed }
           ∧ n ∉ u.tasks.ready ∧ ∀ e ∈ u.tasks.delay, e.2 ≠ n)) ∧
       ((v.tsk n).st = .dispatched → replies (.taskCancel x) s (toOf x 0x0112 o) 0 [] (fun u =>
         u.tsk n = { v.tsk n with armPending := none, cancelled := true }))) ∧
     (runs s x 0x0113 none (plen 4) o v → v.inReset 26 = false →
       ((v.tsk n).st ≠ .dispatched → replies (.taskAbort x) s (toOf x 0x0113 o) 0x102 [] (· = v)) ∧
       ((v.tsk n).st = .dispatched → v.seq.recs = [] →
         (((∃ m ∈ v.net, ∃ p q z, m.msg = .taskEnd n p q z) ∨ ∀ m ∈ v.net, (∀ p, m.msg ≠ .task n p) ∧ ∀ p, m.msg ≠ .taskBack n p) →
           replies (.taskAbort x) s (toOf x 0x0113 o) 2 [] (· = v)) ∧
         ((∀ m ∈ v.net, ∀ p q z, m.msg ≠ .taskEnd n p q z) → (∃ m ∈ v.net, (∃ p, m.msg = .task n p) ∨ ∃ p, m.msg = .taskBack n p) →
           gives (.taskAbort x) s (s.keepPacket x.via (pktOf x 0x0113 none).bytes))) ∧
       (∀ r y, (v.tsk n).st = .dispatched → v.seq.recs = [(r, y)] → y.task = true → y.taskNo = n →
         (y.st = .committed → replies (.taskAbort x) s (toOf x 0x0113 o) 2 [] (· = v)) ∧
         (y.st = .running → y.placed = false → replies (.taskAbort x) s (toOf x 0x0113 o) 0 [] (fun u =>
           reported v u (64 * 42) 0x89 { detail := y.gen.toNat * 8192 + r }
             ∧ ⟨26, y.thread.toNat / 128, .abort y.thread.toNat r y.gen false⟩ ∈ u.net)))) ∧
     (runs s x 0x0114 none (plen 4) o v →
       ((v.tsk n).st = .idle → replies (.taskFree x) s (toOf x 0x0114 o) 0 [] (fun u => u.tsk n = { gen := (v.tsk n).gen + 1 })) ∧
       ((v.tsk n).st = .free → replies (.taskFree x) s (toOf x 0x0114 o) 2 [] (· = v)) ∧
       ((v.tsk n).st = .delayed ∨ (v.tsk n).st = .ready ∨ (v.tsk n).st = .dispatched →
         replies (.taskFree x) s (toOf x 0x0114 o) 0x103 [] (· = v)))))

/-- The Accord and task commands of YCP. -/
def Obligations.AccordAndTaskCommands : Prop := Claims.AccordCommandsPrepareOrRefuse ∧ Claims.TaskCommandsActOnTheirHandle


/-- R42, R257, R264 to R266, R285, R288, R291, R295, R423: the host's commands on buffers, packets, locks and packet numbers. BUF_ALLOC returns a new
handle of the smallest pool that fits, or is refused; BUF_FREE and PKT_FREE free what a current handle names, answer ALREADY_DONE to a stale
one, and refuse a malformed handle and a packet still in use; LOCK_TRY takes a free lock under a lease or answers BUSY; LOCK_RELEASE frees
its owner's lock and changes no other; LOCK_CLEAR frees a BROKEN one; SA_STATE reads an SA's packet number, and sets it within its width
while the SA is disabled. The model's own choices in it: log 39, 49. -/
def Obligations.BufferLockAndPacketNumberCommands : Prop :=
  ∀ (s v : State) (x : Packet) (o : Origin),
  let master := o.master x.issuer.toNat
  (after v [7] → v.up 41 = true →
    (∀ q rest, runs s x 0x0118 none (plen 4) o v → 1 ≤ arg x none 0 4 → v.candidates (arg x none 0 4) = q :: rest →
      v.poolHas q ≠ 0 → (v.pool q).lost = [] → (v.pool q).stuck = [] → (v.pool q).ring.next < (v.pool q).ring.limit → (v.pool q).cached 0 ≠ 0 →
      v.poolGone q (v.pool q).ring.next = false → v.poolOpen q (v.pool q).ring.next = true →
      let b := leVal (v.poolBytes q (v.slotAddr q (v.pool q).ring.next) 8) % 2 ^ 20
      let g := (v.buf q b).gen + 1
      b < v.poolCount q → (v.buf q b).bad = false → replies (.bufAlloc x) s (toOf x 0x0118 o) 0 (beBytes 4 (g.toNat * 2 ^ 24 + q * 2 ^ 20 + b)) (fun u => (u.buf q b).alloc = true
        ∧ (u.buf q b).gen = g ∧ (u.buf q b).owner = BitVec.ofNat 16 master ∧ (u.pool q).ring.next = (v.pool q).ring.next + 1)) ∧
    (runs s x 0x0118 none (plen 4) o v → v.candidates (arg x none 0 4) = [] → replies (.bufAlloc x) s (toOf x 0x0118 o) 0x104 [] (· = v)) ∧
    (runs s x 0x0119 none (plen 4) o v →
      let h := arg x none 0 4
      let p := bits h 23 20
      let i := bits h 19 0
      (p = 0 → replies (.bufFree x) s (toOf x 0x0119 o) 0x101 [] (· = v)) ∧
      (p ≠ 0 → v.poolGone p i = true → replies (.bufFree x) s (toOf x 0x0119 o) 0x300 [] (· = v)) ∧
      (p ≠ 0 → v.poolGone p i = false → v.poolOpen p i = false → gives (.bufFree x) s (s.keepPacket x.via (pktOf x 0x0119 none).bytes)) ∧
      (p ≠ 0 → v.poolGone p i = false → v.poolOpen p i = true → (v.buf p i).bad = false → ((v.buf p i).gen.toNat ≠ bits h 31 24 ∨ (v.buf p i).alloc = false) →
        replies (.bufFree x) s (toOf x 0x0119 o) 2 [] (· = v)) ∧
      (p ≠ 0 → v.poolGone p i = false → v.poolOpen p i = true → (v.buf p i).bad = false → (v.buf p i).gen.toNat = bits h 31 24 → (v.buf p i).alloc = true →
        replies (.bufFree x) s (toOf x 0x0119 o) 0 [] (fun u => (u.buf p i).alloc = false ∧ (u.buf p i).gen = (v.buf p i).gen
          ∧ (u.pool p).ring.freed = (v.pool p).ring.freed ++ [i]))) ∧
    (runs s x 0x011A none (plen 4) o v →
      let h := arg x none 0 4
      let d := h % 2 ^ 19
      (v.desc d).bad = false →
      (bits h 23 19 ≠ 0 → replies (.pktFree x) s (toOf x 0x011A o) 0x101 [] (· = v)) ∧
      (bits h 23 19 = 0 → ((v.desc d).gen.toNat ≠ bits h 31 24 ∨ (v.desc d).st = .free) →
        replies (.pktFree x) s (toOf x 0x011A o) 2 [] (· = v)) ∧
      (bits h 23 19 = 0 → (v.desc d).gen.toNat = bits h 31 24 → (v.desc d).st = .consumed →
        replies (.pktFree x) s (toOf x 0x011A o) 0 [] (packetFreed v · d)) ∧
      (bits h 23 19 = 0 → (v.desc d).gen.toNat = bits h 31 24 → (v.desc d).st ≠ .consumed → (v.desc d).st ≠ .free →
        replies (.pktFree x) s (toOf x 0x011A o) 0x102 [] (· = v)))) ∧
  (let w := arg x none 0 2
   let i := 37 + w / 2048 / 8
   let l := v.lock w
   after v [6] →
   (v.inReset i = true →
     (runs s x 0x0120 none (plen 8 [(2, 2)]) o v → 1 ≤ arg x none 4 4 → arg x none 4 4 ≤ 60000 →
       replies (.lockTry x) s (toOf x 0x0120 o) 0x102 [] (· = v)) ∧
     (runs s x 0x0121 none (plen 4 [(2, 2)]) o v → replies (.lockRelease x) s (toOf x 0x0121 o) 0x102 [] (· = v)) ∧
     (runs s x 0x0122 none (plen 4 [(2, 2)]) o v → replies (.lockClear x) s (toOf x 0x0122 o) 0x102 [] (· = v))) ∧
   (v.up i = true → v.tables.badLocks = [] →
     (runs s x 0x0120 none (plen 8 [(2, 2)]) o v → 1 ≤ arg x none 4 4 → arg x none 4 4 ≤ 60000 →
       (l.broken = false → l.held = false → replies (.lockTry x) s (toOf x 0x0120 o) 0 [BitVec.ofNat 8 (b2n l.abandoned), 0, 0, 0] (fun u =>
         u.lock w = { l with held := true, owner := BitVec.ofNat 16 master, abandoned := false }
           ∧ Store.get 0 u.tables.leases w = BitVec.ofNat 16 master ∧ ∀ k, k ≠ w → u.lock k = v.lock k)) ∧
       (l.broken = false → l.held = true → l.owner.toNat ≠ master → replies (.lockTry x) s (toOf x 0x0120 o) 0 [3, 0, 0, 0] (fun u =>
         u.tables = v.tables))) ∧
     (runs s x 0x0120 none (plen 8 [(2, 2)]) o v → (arg x none 4 4 = 0 ∨ 60000 < arg x none 4 4) →
       replies (.lockTry x) s (toOf x 0x0120 o) 0x101 [] (· = v)) ∧
     (runs s x 0x0121 none (plen 4 [(2, 2)]) o v → l.broken = false →
       (l.held = true → l.owner.toNat = master → l.queue = [] → replies (.lockRelease x) s (toOf x 0x0121 o) 0 [0, 0, 0, 0] (fun u =>
         u.lock w = { l with held := false, owner := 0 } ∧ Store.get 0 u.tables.leases w = 0)) ∧
       (l.held = false → replies (.lockRelease x) s (toOf x 0x0121 o) 2 [5, 0, 0, 0] (fun u => u.lock w = l)) ∧
       (l.held = true → l.owner.toNat ≠ master → (w, BitVec.ofNat 16 master) ∉ v.tables.expired →
         replies (.lockRelease x) s (toOf x 0x0121 o) 0x201 [4, 0, 0, 0] (fun u => u.lock w = l
           ∧ reported v u (64 * i + 0x10 + w / 2048 % 8) 0x80 { addr := w, master := master, access := 4 }))) ∧
     (runs s x 0x0122 none (plen 4 [(2, 2)]) o v →
       (l.broken = true → l.queue = [] → replies (.lockClear x) s (toOf x 0x0122 o) 0 [] (fun u =>
         u.lock w = { l with held := false, owner := 0, broken := false, abandoned := true })) ∧
       (l.broken = false → replies (.lockClear x) s (toOf x 0x0122 o) 0x102 [] (· = v))))) ∧
  (let n (k : Nat) := arg x (some (4, BitVec.ofNat 8 k)) 0 4
   let here (k : Nat) := n k < 10240 ∧ n k / 4 % 64 ≤ 32 ∧ v.up (31 + n k / 256 / 8) = true
   after v [8] →
   (runs s x 0x0128 (some (4, 0)) (plen 20 [(5, 3)]) o v → here 0 → replies (.saStateRead x) s (toOf x 0x0128 o) 0
     (beBytes 8 (if n 0 / 4 % 64 = 0 then (v.sa (n 0)).nextPn else (v.sa (n 0)).lowPn) ++ beBytes 4 (v.sa (n 0)).ssci.toNat) (· = v)) ∧
   (runs s x 0x0128 (some (4, 1)) (plen 20 [(5, 3)]) o v → here 1 →
     let pn := arg x (some (4, 1)) 8 8
     let ssci := arg x (some (4, 1)) 16 4
     let a := v.obj 0x15 (n 1)
     let top := if fld a 30 30 = 1 then 2 ^ 64 - 1 else 2 ^ 32 - 1
     (pn ≤ top → fld a 31 31 = 0 → replies (.saStateSet x) s (toOf x 0x0128 o) 0 (beBytes 8 pn ++ beBytes 4 ssci) (fun u =>
       (u.sa (n 1)).nextPn = pn ∧ (u.sa (n 1)).ssci = BitVec.ofNat 32 ssci ∧ ∀ k, k ≠ n 1 → u.sa k = v.sa k)) ∧
     (pn ≤ top → fld a 31 31 = 1 → replies (.saStateSet x) s (toOf x 0x0128 o) 0x103 [] (· = v)) ∧
     (top < pn → replies (.saStateSet x) s (toOf x 0x0128 o) 0x101 [] (· = v))))

/-! ### The Data Port -/

/-- R406 to R412, R425: windows open, take and return bytes, close with a digest, and abort; a gap, an error or a wrong digest closes a window
without its effect.
The model's own choices in it: log 10, 48. -/
def Sys2Proof.Claims.WindowsMoveBytesAndCloseByDigest : Prop :=
  ∀ (s v : State) (x : Packet) (o : Origin),
  let w := arg x none 0 1
  let k := v.win w
  w < 16 →
  (runs s x 0x0200 none (plen 32 [(3, 1)]) o v → after v [7, 9] →
    let read := arg x none 2 1
    let win : Window := { st := if read = 1 then 2 else 1, owner := BitVec.ofNat 4 x.issuer.toNat, drops := k.drops, target := arg x none 1 1, selector := arg x none 4 4, start := arg x none 8 8, length := arg x none 16 8, stride := arg x none 24 4, unit := arg x none 28 2, idle := arg x none 30 2, viaPcie := o == .pcie }
    let opened := fun (u : State) => u.win w = win ∧ (∀ j, j ≠ w → u.win j = v.win j) ∧ u.dram = v.dram ∧ u.accord = v.accord
    let plain := 1 ≤ win.length ∧ win.unit % 8 = 0 ∧ 8 ≤ win.unit ∧ win.unit ≤ 4096 ∧ 1 ≤ win.idle ∧ win.idle ≤ 3600 ∧ win.stride = 0
    read ≤ 1 → plain →
    (k.st = 0 → win.target = 0 → win.selector = 0 → win.start = 0 → win.length ≤ 262144 → v.accord.drainValid = false →
      replies (.portOpen x) s (toOf x 0x0200 o) 0 [] opened) ∧
    (k.st = 0 → win.target = 0 → win.selector = 0 → win.start = 0 → win.length ≤ 262144 → v.accord.drainValid = true →
      replies (.portOpen x) s (toOf x 0x0200 o) 0x103 [] (· = v)) ∧
    (k.st = 0 → win.target = 4 → win.selector = 0 → win.length < 2 ^ 40 → win.start + win.length ≤ v.dramSize →
      replies (.portOpen x) s (toOf x 0x0200 o) 0 [] opened) ∧
    (k.st ≠ 0 → win.target = 4 → win.selector = 0 → win.length < 2 ^ 40 → win.start + win.length ≤ v.dramSize →
      replies (.portOpen x) s (toOf x 0x0200 o) 0x103 [] (· = v))) ∧
  (runs s x 0x0201 none (fun p => decide (12 ≤ p.length) && zeroBytes (slice p 1 1)) o v →
    let n := arg x none 2 2
    let off := arg x none 4 8
    1 ≤ n → n ≤ 1024 → off % 64 = 0 →
    (k.st = 0 → replies (.data x) s (toOf x 0x0201 o) 0x102 [] (· = v)) ∧
    (k.st ≠ 0 → k.owner.toNat ≠ x.issuer.toNat → replies (.data x) s (toOf x 0x0201 o) 0x201 [] (· = v)) ∧
    (k.st = 1 → k.owner.toNat = x.issuer.toNat → k.length < off + n → replies (.data x) s (toOf x 0x0201 o) 0x101 [] (· = v)) ∧
    (k.st = 1 → k.owner.toNat = x.issuer.toNat → x.params.length = 12 + n → off + n ≤ k.length → k.target = 0 → v.accord.discarding = false →
      replies (.data x) s (toOf x 0x0201 o) 0 [] (fun u => mread (u.win w).bytes off n = x.params.drop 12
        ∧ (∀ a, a < off ∨ off + n ≤ a → mget (u.win w).bytes a = mget k.bytes a) ∧ (u.win w).cursor = max k.cursor (off + n)
        ∧ (u.win w).st = 1 ∧ u.accord = v.accord)) ∧
    (k.st = 2 → k.owner.toNat = x.issuer.toNat → x.params.length = 12 → off + n ≤ k.length → k.target = 4 → v.dram.bad = [] → v.dram.flips = [] →
      v.dramRefuses (k.addrs off n) = none → v.dramWaits (k.addrs off n) = false →
      replies (.data x) s (toOf x 0x0201 o) 0 ((k.addrs off n).map (mget v.dram.data)) (fun u =>
        (u.win w).cursor = max k.cursor (off + n) ∧ (u.win w).error = k.error ∧ u.dram.data = v.dram.data)) ∧
    (k.st = 2 → k.owner.toNat = x.issuer.toNat → x.params.length = 12 → off + n ≤ k.length → k.target = 4 →
      (∀ st, v.dramRefuses (k.addrs off n) = some st → replies (.data x) s (toOf x 0x0201 o) st [] (· = v)) ∧
      (v.dramRefuses (k.addrs off n) = none → v.dramWaits (k.addrs off n) = true →
        gives (.data x) s (s.keepPacket x.via (pktOf x 0x0201 none).bytes)))) ∧
  (runs s x 0x0202 none (plen 68 [(1, 3)]) o v →
    let closed := fun (u : State) => (u.win w).st = 0 ∧ (u.win w).bytes = [] ∧ ∀ j, j ≠ w → u.win j = v.win j
    let digest := argBytes x none 4 64
    (k.st = 0 → k.expired ≠ some v.time.elapsed → replies (.portClose x) s (toOf x 0x0202 o) 0x102 [] (· = v)) ∧
    (k.st ≠ 0 → k.owner.toNat ≠ x.issuer.toNat → replies (.portClose x) s (toOf x 0x0202 o) 0x201 [] (· = v)) ∧
    (k.st = 2 → k.owner.toNat = x.issuer.toNat → zeroBytes digest = true → replies (.portClose x) s (toOf x 0x0202 o) 0
      (beBytes 8 k.cursor ++ sha512 (mread k.bytes 0 k.cursor)) closed) ∧
    (k.st = 1 → k.owner.toNat = x.issuer.toNat → k.target = 4 → k.solid < k.cursor →
      replies (.portClose x) s (toOf x 0x0202 o) 0x102 (beBytes 8 k.solid) closed) ∧
    (k.st = 1 → k.owner.toNat = x.issuer.toNat → k.target = 4 → k.solid = k.cursor → k.error = true →
      replies (.portClose x) s (toOf x 0x0202 o) 0x102 [] closed) ∧
    (k.st = 1 → k.owner.toNat = x.issuer.toNat → k.target = 4 → k.solid = k.cursor → k.error = false →
      (sha512 (mread k.bytes 0 k.cursor) ≠ digest → replies (.portClose x) s (toOf x 0x0202 o) 0x101 [] closed) ∧
      (sha512 (mread k.bytes 0 k.cursor) = digest → replies (.portClose x) s (toOf x 0x0202 o) 0 (beBytes 8 k.cursor) closed)) ∧
    (k.st = 1 → k.owner.toNat = x.issuer.toNat → k.target = 0 → k.solid = k.cursor → k.error = false → v.accord.discarding = false →
      bankOk k.bytes = true → sha512 (mread k.bytes 0 k.cursor) = digest → replies (.portClose x) s (toOf x 0x0202 o) 0 (beBytes 8 k.cursor) (fun u =>
        closed u ∧ (u.copy v.accord.staged.toNat).bank = k.bytes ∧ u.startup.bankStaged = true
          ∧ ∀ t, t ≠ v.accord.staged.toNat → u.copy t = v.copy t))) ∧
  (runs s x 0x0203 none (plen 4 [(1, 3)]) o v →
    (k.st = 0 → replies (.portAbort x) s (toOf x 0x0203 o) 2 [] (· = v)) ∧
    (k.st ≠ 0 → k.owner.toNat ≠ x.issuer.toNat → replies (.portAbort x) s (toOf x 0x0203 o) 0x201 [] (· = v)) ∧
    (k.st ≠ 0 → k.owner.toNat = x.issuer.toNat → replies (.portAbort x) s (toOf x 0x0203 o) 0 [] (fun u =>
      (u.win w).st = 0 ∧ (u.win w).aborted = true)))

/-- R402, R408, R409, R412, R415: BAR2 moves the bytes of a window that PCIe opened, in ascending order alone; an idle window aborts; and a reply
read over I2C leaves its register.
The model's own choices in it: log 48. -/
def Sys2Proof.Claims.Bar2AndIdleWindows : Prop :=
  (∀ (s : State) (w off : Nat) (l : List Byte) (c : Bool), w < 16 → off < 2 ^ 22 → l ≠ [] → s.pcieOn = true →
    let k := s.win w
    (k.st = 1 → k.viaPcie = true → k.target = 0 → s.accord.discarding = false → c = true → off = k.cursor % 2 ^ 22 →
      k.cursor + l.length ≤ k.length → givesSome (.bar2Write w off l c) s (fun u =>
        mread (u.win w).bytes k.cursor l.length = l ∧ (u.win w).cursor = k.cursor + l.length ∧ (u.win w).error = k.error
          ∧ (u.win w).drops = k.drops ∧ ∀ j, j ≠ w → u.win j = s.win j)) ∧
    (k.st = 1 → k.viaPcie = true → k.target = 0 → s.accord.discarding = false → (c = false ∨ off ≠ k.cursor % 2 ^ 22 ∨ k.length < k.cursor + l.length) →
      givesSome (.bar2Write w off l c) s (fun u => u.win w = { k with error := true, drops := satAdd k.drops 1 }
        ∧ (k.error = false → u.bar0.eventCause.getLsbD 4 = true))) ∧
    (k.st ≠ 1 → givesSome (.bar2Write w off l c) s (fun u => u.win w = { k with drops := satAdd k.drops 1 }))) ∧
  (∀ (s : State) (w off n : Nat), w < 16 → off < 2 ^ 22 → 0 < n → s.pcieOn = true →
    let k := s.win w
    (k.st = 2 → k.viaPcie = true → k.target = 0 → off = k.cursor % 2 ^ 22 → k.cursor + n ≤ k.length →
      let l := mread (s.copy (if k.selector = 0 then s.accord.staged.toNat else s.accord.current.toNat)).bank k.cursor n
      givesSome (.bar2Read w off n) s (fun u => u.out = .bar2Read w l false :: s.out ∧ (u.win w).cursor = k.cursor + n)) ∧
    (k.st ≠ 2 → givesSome (.bar2Read w off n) s (fun u => u.out = .bar2Read w (List.replicate n 0xFF) false :: s.out
      ∧ u.win w = { k with drops := satAdd k.drops 1 }))) ∧
  (∀ (s : State) (w : Nat), w < 16 → (s.win w).st ≠ 0 → s.serves = true → givesSome (.windowIdleExpire w) s (fun u =>
    (u.win w).st = 0 ∧ (u.win w).aborted = true ∧ ∀ j, j ≠ w → u.win j = s.win j)) ∧
  (∀ s : State, s.ycp.up = true →
    (s.ycp.i2c.st = 2 → givesSome .i2cReplyRead s (fun u => u.ycp.i2c = {}
      ∧ u.out = .i2cRead ([2] ++ beBytes 2 s.ycp.i2c.reply.length ++ s.ycp.i2c.reply) :: s.out)) ∧
    (s.ycp.i2c.st ≠ 2 → givesSome .i2cReplyRead s (fun u => u.ycp.i2c = s.ycp.i2c ∧ u.out = .i2cRead [s.ycp.i2c.st, 0, 0] :: s.out)))

/-! ### Tables from the host -/

/-- R235, R236, R243, R249, R426, R427: a record of the host reaches its table as its kind says, under the Accord that the record names; a
Maceration and a resize start.
The model's own choices in it: log 29. -/
def Obligations.TableCommandsReachTheirAccord : Prop :=
  ∀ (s v : State) (x : Packet) (o : Origin), after v [6] →
  let num := arg x none 0 1
  let live := arg x none 1 1
  let body := x.params.drop 4
  let a := v.accord.current.toNat
  let d := v.tdesc a num
  let st := v.struct num d
  let groups (d : ObjWord) := ∀ k, k < dBanks d → v.up (37 + (dFirst d + k) / 8) = true
  (live = 1 → x.params.length = 4 + arg x none 2 2 → v.accord.live = true → a ≠ v.accord.staged.toNat → groups d →
    (∀ y ∈ v.tables.structs, y.mirror = false) →
    (dKind d = 1 → dVersioned d = false → runs s x 0x0300 none (fun p => decide (4 ≤ p.length)) o v →
      let k := beVal (slice body 0 1)
      let off := beVal (slice body 4 4)
      let n := body.length - 8
      beVal (slice body 1 3) = 0 → k < dBanks d → off % 8 = 0 → n % 8 = 0 → 8 ≤ n → n ≤ 512 → off + n ≤ 64 * dRows d →
      replies (.tblInsert x) s (toOf x 0x0300 o) 0 [0, 0, 0, 0, 0, 0, 0, 1] (fun u =>
        let at' := v.directAddr d 1 k off
        mread u.tables.rows at' n = body.drop 8 ∧ ∀ z, z < at' ∨ at' + n ≤ z → mget u.tables.rows z = mget v.tables.rows z)) ∧
    (dKind d = 2 → dWriters d ≠ 0 →
      (∀ w i k, runs s x 0x0300 none (fun p => decide (4 ≤ p.length)) o v → body.length = dKeyLen d + dResLen d →
        let key := body.take (dKeyLen d)
        (v.bucketsOf st key).filter (fun e => e.key == key && v.visible a e) = [] → v.roomFor st key = some (w, i, k) →
        replies (.tblInsert x) s (toOf x 0x0300 o) 0 [0, 0, 0, 0, 0, 0, 0, 1] (fun u =>
          (u.struct num d).entries = st.entries.filter (fun e => !(e.way == w && e.bucket == i && e.slot == k))
            ++ [{ key := key, result := body.drop (dKeyLen d), born := BitVec.ofNat 4 a, dead := BitVec.ofNat 4 a, way := w, bucket := i, slot := k }])) ∧
      (runs s x 0x0301 none (fun p => decide (4 ≤ p.length)) o v → body.length = dKeyLen d →
        let seen := (v.bucketsOf st body).filter (fun e => e.key == body && v.visible a e)
        (seen = [] → replies (.tblDelete x) s (toOf x 0x0301 o) 2 [] (fun u => (u.struct num d).entries = st.entries)) ∧
        (∀ e, seen = [e] → e.born.toNat = a → replies (.tblDelete x) s (toOf x 0x0301 o) 0 [] (fun u =>
          ∀ z ∈ (u.struct num d).entries, ¬ (z.way = e.way ∧ z.bucket = e.bucket ∧ z.slot = e.slot))))) ∧
    (dKind d = 2 → dWriters d = 0 → body.length = dKeyLen d + dResLen d → runs s x 0x0300 none (fun p => decide (4 ≤ p.length)) o v →
      replies (.tblInsert x) s (toOf x 0x0300 o) 0x102 [] (· = v)) ∧
    (dKind d = 1 → runs s x 0x0301 none (fun p => decide (4 ≤ p.length)) o v → replies (.tblDelete x) s (toOf x 0x0301 o) 0x101 [] (· = v))) ∧
  (runs s x 0x0302 none (fun p => decide (4 ≤ p.length)) o v → live < 16 → x.params.length = 4 + arg x none 2 2 →
    let d := v.tdesc live num
    let st := v.struct num d
    let seen := fun (e : TEntry) => e ∈ v.bucketsOf st body ∧ e.key = body ∧ v.visible live e = true
    groups d → v.tables.bad = [] →
    (v.tagRank live = 0 → replies (.tblLookup x) s (toOf x 0x0302 o) 0x102 [] (· = v)) ∧
    (v.tagRank live ≠ 0 → dKind d = 2 → body.length = dKeyLen d →
      (∀ e, seen e → (∀ e', seen e' → e'.result = e.result) → e.result.length ≤ 512 →
        replies (.tblLookup x) s (toOf x 0x0302 o) 0 ([1, BitVec.ofNat 8 (e.result.length / 8), 0, 0] ++ e.result) (fun u => u.tables = v.tables)) ∧
      ((∀ e, ¬ seen e) → (v.defaultResult live num).length ≤ 512 →
        replies (.tblLookup x) s (toOf x 0x0302 o) 0
          ([0, BitVec.ofNat 8 ((v.defaultResult live num).length / 8), 0, 0] ++ v.defaultResult live num) (fun u => u.tables = v.tables)))) ∧
  (runs s x 0x0308 none (plen 4 [(1, 3)]) o v → v.accord.discarding = false →
    let n := v.tdesc v.accord.staged.toNat num
    (n = d → replies (.tblMacerate x) s (toOf x 0x0308 o) 0x102 [] (· = v)) ∧
    (n ≠ d → num ∈ v.tables.macerating → replies (.tblMacerate x) s (toOf x 0x0308 o) 0x103 [] (· = v)) ∧
    (n ≠ d → num ∉ v.tables.macerating → num ∉ v.tables.resizing → groups n → fewer v x →
      starts (.tblMacerate x) s (toOf x 0x0308 o) (.macerate num)
        (· = { v with tables := { v.tables with macerating := v.tables.macerating ++ [num] } }))) ∧
  (runs s x 0x0309 none (plen 4 [(1, 3)]) o v → v.accord.discarding = false →
    let hashed (d : ObjWord) := dKind d = 2 ∨ dKind d = 6
    let named := if v.accord.live then d else v.tdesc v.accord.staged.toNat num
    (¬ hashed named → replies (.tblResize x) s (toOf x 0x0309 o) 0x101 [] (· = v)) ∧
    (hashed named → num ∈ v.tables.resizing → replies (.tblResize x) s (toOf x 0x0309 o) 0x103 [] (· = v)) ∧
    (hashed named → num ∉ v.tables.resizing → num ∉ v.tables.macerating → fewer v x →
      (∀ t ∈ v.keptTags, hashed (v.tdesc t num) → v.mayDouble num (v.tdesc t num) = true ∧ groups (v.tdesc t num)) →
      starts (.tblResize x) s (toOf x 0x0309 o) (.resize num) (fun u => u.tables.resizing = v.tables.resizing ++ [num]
        ∧ ∀ t ∈ v.keptTags, hashed (v.tdesc t num) → dLog (u.tdesc t num) = dLog (v.tdesc t num) + 1)))

/-- Windows, BAR2 and the idle windows. -/
def Obligations.WindowsAndBar2 : Prop := Claims.WindowsMoveBytesAndCloseByDigest ∧ Claims.Bar2AndIdleWindows


/-! ### Faults, observation and live service from the host -/

/-- R95, R101, R381, R382, R428: an acknowledgement clears what its SEQ covers, the escalation state of the class and the capture, and says which, and
a repeat of it clears nothing more; a held record is dropped or replayed, and any other is left alone. -/
def Obligations.FaultCommandsAcknowledgeAndResolve : Prop :=
  (∀ (s t : State) (x : Packet) (o : Origin) (r : Stored), s.takePacket x.via (pktOf x 0x0400 none).bytes = some (some o, t) →
    t.verdict o (pktOf x 0x0400 none) = .replay r → givesSome (.faultAck x) s (fun u =>
      u.faults.esc = s.faults.esc ∧ u.faults.capture = s.faults.capture)) ∧
  (∀ (s v : State) (x : Packet) (o : Origin),
  (let source := arg x none 0 2
   let cls := arg x none 2 1
   let seq := BitVec.ofNat 32 (arg x none 4 4)
   let e := v.escState (source * 16 + cls)
   let c := v.capture source
   let ce := e.unacked ≠ 0 ∧ (seq - e.lastSeq).toNat < 2 ^ 31
   let cc := c.valid = true ∧ c.msg.cls.toNat = cls ∧ (seq - c.msg.seq).toNat < 2 ^ 31
   runs s x 0x0400 none (plen 8 [(3, 1)]) o v → source < 4096 → cls < 16 → v.inReset 52 = false →
     (ce → cc → replies (.faultAck x) s (toOf x 0x0400 o) 0 (beBytes 4 e.lastSeq.toNat ++ [3, 0, 0, 0]) (fun u =>
       u.escState (source * 16 + cls) = { e with level := 0, unacked := 0 } ∧ u.capture source = {})) ∧
     (ce → ¬ cc → replies (.faultAck x) s (toOf x 0x0400 o) 0 (beBytes 4 e.lastSeq.toNat ++ [1, 0, 0, 0]) (fun u =>
       u.escState (source * 16 + cls) = { e with level := 0, unacked := 0 } ∧ u.faults.capture = v.faults.capture)) ∧
     (¬ ce → cc → replies (.faultAck x) s (toOf x 0x0400 o) 0 (beBytes 4 e.lastSeq.toNat ++ [2, 0, 0, 0]) (fun u =>
       u.faults.esc = v.faults.esc ∧ u.capture source = {})) ∧
     (¬ ce → ¬ cc → replies (.faultAck x) s (toOf x 0x0400 o) 2 (beBytes 4 e.lastSeq.toNat ++ [0, 0, 0, 0]) (fun u => u.faults = v.faults))) ∧
  (∀ replay : Bool,
    let sel : Option (Nat × Byte) := some (3, if replay then 1 else 0)
    let c : Instr := if replay then .slotResolveReplay x else .slotResolveDrop x
    let r := arg x sel 0 2
    let y := v.rcd r
    runs s x 0x0401 sel (plen 4) o v → r < 8192 → v.inReset 26 = false →
      (y.gen.toNat ≠ arg x sel 2 1 → replies c s (toOf x 0x0401 o) 2 [] (· = v)) ∧
      (y.gen.toNat = arg x sel 2 1 → y.st ≠ .held → (∀ e ∈ v.seq.expired, e.1 = r → e.2.2 ≠ v.time.elapsed) →
        replies c s (toOf x 0x0401 o) 0x102 [] (· = v)) ∧
      (y.gen.toNat = arg x sel 2 1 → y.st ≠ .held → (r, y.gen, v.time.elapsed) ∈ v.seq.expired →
        (replay = true → replies c s (toOf x 0x0401 o) 4 [] (· = v)) ∧
        (replay = false → replies c s (toOf x 0x0401 o) 0 [] (fun u => u.seq.recs = v.seq.recs ∧ u.pools = v.pools))) ∧
      (y.gen.toNat = arg x sel 2 1 → y.st = .held → replay = false → y.task = false → replies c s (toOf x 0x0401 o) 0 [] (fun u =>
        u.rcd r = { gen := y.gen } ∧ packetFreed v u (handleDesc y.disp.handle))) ∧
      (y.gen.toNat = arg x sel 2 1 → y.st = .held → replay = true →
        let may := y.safe = true ∧ y.replayed = false ∧ y.struck = false ∧ y.eccHeld = false
          ∧ (v.accord.live = true ∧ v.accord.current.toNat = y.accord.toNat ∨ v.accord.drainValid = true ∧ v.accord.draining.toNat = y.accord.toNat)
        (may → replies c s (toOf x 0x0401 o) 0 [] (fun u =>
          u.rcd r = { y with st := .queued, replayed := true, replay := some v.seq.nextReplay, waitPt := none, aged := false } ∧ otherRecords v u r)) ∧
        (¬ may → replies c s (toOf x 0x0401 o) 0x102 [] (· = v)))))

/-- R452, R453, R458, R459, R461, R463, R429: counters are read, selected, sampled and watched; a trace starts and stops with the records it has
written; a millisecond's byte counts stand at its end. The counters read here are those of the Sequencer and of the record occupancy.
The model's own choices in it: log 54. -/
def Sys2Proof.Claims.ObservationCommandsReadAndSelect : Prop :=
  (∀ (s v : State) (x : Packet) (o : Origin), v.up 52 = true →
    (let ev := arg x none 2 2
     let c := Store.get ({} : Counter) v.obs.counter (26 * 64 * 2 ^ 20 + ev)
     runs s x 0x0500 none (plen 8 [(6, 2)]) o v → arg x none 0 2 = 26 * 64 → arg x none 4 2 = 1 → 0x10 ≤ ev → ev ≤ 0x1A →
       replies (.obsRead x) s (toOf x 0x0500 o) 0 (beBytes 8 (b2n c.wrapped * 2 ^ 63 + c.count.toNat)) (fun u =>
         Store.get ({} : Counter) u.obs.counter (26 * 64 * 2 ^ 20 + ev) = { c with wrapped := false })) ∧
    (let n := arg x none 2 1
     let ev := arg x none 4 2
     runs s x 0x0501 none (plen 8 [(3, 1), (6, 2)]) o v → arg x none 0 2 = 26 * 64 → 0x10 ≤ ev → ev ≤ 0x1A →
       (n < 8 → replies (.obsSelect x) s (toOf x 0x0501 o) 0 [] (fun u =>
         Store.get ({} : WinCounter) u.obs.window (26 * 64 * 8 + n) = { event := ev, count := 0 } ∧ u.obs.counter = v.obs.counter)) ∧
       (8 ≤ n → replies (.obsSelect x) s (toOf x 0x0501 o) 0x101 [] (· = v))) ∧
    (let win := fun (u : State) (n : Nat) => Store.get ({} : WinCounter) u.obs.window (26 * 64 * 8 + n)
     runs s x 0x0502 none (plen 4 [(2, 2)]) o v → arg x none 0 2 = 26 * 64 → (∀ n, n < 8 → (win v n).event ≠ 0) →
       replies (.obsWindowRead x) s (toOf x 0x0502 o) 0 ((List.range 8).flatMap (fun n => beBytes 8 (win v n).count.toNat)) (fun u =>
         ∀ n, n < 8 → win u n = { event := (win v n).event, count := 0 })) ∧
    (let slot := arg x none 4 4 / 2 ^ 26
     let level := arg x none 4 4 % 2 ^ 26
     runs s x 0x0503 none (plen 8) o v → arg x none 0 4 = 6 * 2 ^ 24 →
       (1 ≤ level → level ≤ 8192 → replies (.obsThreshold x) s (toOf x 0x0503 o) 0 [] (fun u =>
         Store.get ({} : Threshold) u.obs.thresh slot
           = { occupancy := BitVec.ofNat 32 (6 * 2 ^ 24), level := BitVec.ofNat 26 level, last := v.recordsUsed })) ∧
       (level = 0 → replies (.obsThreshold x) s (toOf x 0x0503 o) 0 [] (fun u => Store.get ({} : Threshold) u.obs.thresh slot = {})) ∧
       (8192 < level → replies (.obsThreshold x) s (toOf x 0x0503 o) 0x101 [] (· = v))) ∧
    (let written := beBytes 8 (match v.obs.trace with | some t => t.written | none => 0)
     (runs s x 0x0504 (some (0, 1)) (plen 16 [(1, 3)]) o v → after v [7] →
       let sel : Option (Nat × Byte) := some (0, 1)
       let t : Trace := { filter := BitVec.ofNat 32 (arg x sel 4 4), base := arg x sel 8 4, size := arg x sel 12 4 }
       bitAt (arg x sel 4 4) 16 = false → 1 ≤ t.size → (t.base + t.size) * 2 ^ 20 ≤ v.dramSize →
       replies (.obsTraceStart x) s (toOf x 0x0504 o) 0 written (· = { v with obs := { v.obs with trace := some t } })) ∧
     (runs s x 0x0504 (some (0, 0)) (plen 16 [(1, 3)]) o v → bitAt (arg x (some (0, 0)) 4 4) 16 = true →
       replies (.obsTraceStop x) s (toOf x 0x0504 o) 0x101 [] (· = v)) ∧
     (runs s x 0x0504 (some (0, 1)) (plen 16 [(1, 3)]) o v → bitAt (arg x (some (0, 1)) 4 4) 16 = true →
       replies (.obsTraceStart x) s (toOf x 0x0504 o) 0x101 [] (· = v)) ∧
     (runs s x 0x0504 (some (0, 0)) (plen 16 [(1, 3)]) o v → bitAt (arg x (some (0, 0)) 4 4) 16 = false →
       replies (.obsTraceStop x) s (toOf x 0x0504 o) 0 written (· = { v with obs := { v.obs with trace := none } })))) ∧
  (∀ s : State, Store.wf ({} : Bandwidth) s.obs.bw = true → givesSome .bwWindowEnd s (fun u => ∀ l,
    let b := Store.get ({} : Bandwidth) s.obs.bw l
    Store.get ({} : Bandwidth) u.obs.bw l = { b with rx1ms := b.rxNow, tx1ms := b.txNow, rxNow := 0, txNow := 0 }))

namespace Sys2Proof.Claims

/-- Cluster `c` may be served: start-up has tested it, no reset or self-test that a command started runs on it, and its arrays are whole. -/
abbrev serviceable (v : State) (c : Nat) : Prop :=
  c < 26 ∧ after v [9] ∧ v.running (.clusterReset c) = false ∧ v.running (.spareCheck c) = false ∧ (v.isl c).broken = false

/-- Every cluster but `c` is the same. -/
def otherClusters (s u : State) (c : Nat) : Prop := ∀ j, j ≠ c → u.cl j = s.cl j

end Sys2Proof.Claims

/-- R359, R361 to R363, R430: the cluster commands. A drain starts from IN_SERVICE alone; a resume serves again and cancels the drain; a reset
puts any cluster into reset with its threads free; a self-test needs a cluster out of service; and a spare takes a position over.
The model's own choices in it: log 19. -/
def Sys2Proof.Claims.ClusterCommandsFollowTheServiceState : Prop :=
  ∀ (s v : State) (x : Packet) (o : Origin),
  let c := arg x none 0 1
  (runs s x 0x0600 none (plen 8 [(1, 3)]) o v →
    let wait := arg x none 4 4
    (wait = 0 ∨ 1000000 < wait → replies (.clusterDrain x) s (toOf x 0x0600 o) 0x101 [] (· = v)) ∧
    (1 ≤ wait → wait ≤ 1000000 → serviceable v c →
      (v.running (.drain c) = true → replies (.clusterDrain x) s (toOf x 0x0600 o) 0x103 [] (· = v)) ∧
      (v.running (.drain c) = false → (v.cl c).svc.st = 1 → v.inReset 26 = false → fewer v x → starts (.clusterDrain x) s (toOf x 0x0600 o) (.drain c) (fun u =>
        (u.cl c).svc = { (v.cl c).svc with st := 2 } ∧ (u.cl c).thread = (v.cl c).thread ∧ otherClusters v u c)) ∧
      (v.running (.drain c) = false → (v.cl c).svc.st ≠ 1 → replies (.clusterDrain x) s (toOf x 0x0600 o) 0x102 [] (· = v)))) ∧
  (runs s x 0x0601 none (plen 4 [(1, 3)]) o v → serviceable v c →
    ((v.cl c).svc.st = 1 → replies (.clusterResume x) s (toOf x 0x0601 o) 2 [] (· = v)) ∧
    (((v.cl c).svc.st = 2 ∨ (v.cl c).svc.st = 3) → v.positionOf c < 24 → replies (.clusterResume x) s (toOf x 0x0601 o) 0 [] (fun u =>
      (u.cl c).svc.st = 1 ∧ otherClusters v u c ∧ completed v u (.drain c) 4 [BitVec.ofNat 8 (v.runningThreads c), 0, 0, 0])) ∧
    ((v.cl c).svc.st = 4 → replies (.clusterResume x) s (toOf x 0x0601 o) 0x102 [] (· = v))) ∧
  (runs s x 0x0602 none (plen 4 [(1, 3)]) o v → serviceable v c → v.underReset c = true → fewer v x →
    starts (.clusterReset x) s (toOf x 0x0602 o) (.clusterReset c) (· = v)) ∧
  (runs s x 0x0602 none (plen 4 [(1, 3)]) o v → serviceable v c → v.up c = true → (v.isl c).blockReset = false → fewer v x →
    starts (.clusterReset x) s (toOf x 0x0602 o) (.clusterReset c) (fun u => u.inReset c = true ∧ (u.cl c).svc.st = 4 ∧ c ∈ u.seq.noticed
      ∧ ⟨c, 26, .notice c⟩ ∈ u.net ∧ (∀ t, t / 128 = c → (u.th t).busy = false) ∧ ∀ j, j ≠ c → u.isl j = v.isl j)) ∧
  (runs s x 0x0603 none (plen 4 [(1, 3)]) o v → serviceable v c →
    (((v.cl c).svc.st = 0 ∨ (v.cl c).svc.st = 5) → v.inReset c = false → fewer v x →
      starts (.spareCheck x) s (toOf x 0x0603 o) (.spareCheck c) (· = v)) ∧
    ((v.cl c).svc.st = 1 → replies (.spareCheck x) s (toOf x 0x0603 o) 0x102 [] (· = v))) ∧
  (runs s x 0x0604 none (plen 4 [(2, 2)]) o v →
    let n := arg x none 1 1
    let old := v.clusterAt c
    c < 24 → n < 26 → after v [9] →
    (v.running (.clusterReset n) = true ∨ v.running (.spareCheck n) = true →
      replies (.clusterAdoptSpare x) s (toOf x 0x0604 o) 0x103 [] (· = v)) ∧
    (v.running (.clusterReset n) = false → v.running (.spareCheck n) = false →
    ((v.cl n).svc.st = 0 → (v.cl n).svc.check = true → ((v.cl old).svc.st = 3 ∨ (v.cl old).svc.st = 4) → v.inReset 26 = false →
      replies (.clusterAdoptSpare x) s (toOf x 0x0604 o) 0 [] (fun u => u.clusterAt c = n ∧ (∀ p, p ≠ c → u.clusterAt p = v.clusterAt p)
        ∧ (u.cl n).svc.st = 1 ∧ (u.cl old).svc.st = 5 ∧ u.obj 0x41 n = v.obj 0x41 old ∧ u.obj 0x42 n = v.obj 0x42 old
        ∧ ∀ k, k < 32 → u.obj 0x40 (n * 32 + k) = v.obj 0x40 (old * 32 + k))) ∧
    ((v.cl n).svc.st ≠ 0 ∨ (v.cl n).svc.check = false ∨ (v.cl old).svc.st = 1 →
      replies (.clusterAdoptSpare x) s (toOf x 0x0604 o) 0x102 [] (· = v))))

/-- R339, R341, R430: a Decant passes its checks in their order and starts; its return and its abort take it only from the phase they name.
The model's own choices in it: log 19. -/
def Sys2Proof.Claims.DecantCommandsFollowTheirPhase : Prop :=
  ∀ (s v : State) (x : Packet) (o : Origin),
  let c := arg x none 0 1
  c < 8 →
  (runs s x 0x0608 none (plen 4 [(2, 2)]) o v → arg x none 1 1 ≤ 1 → after v [7] →
    (v.dram.n ≤ 1 ∨ (v.chan c).st ≠ .service → replies (.decant x) s (toOf x 0x0608 o) 0x102 [] (· = v)) ∧
    (1 < v.dram.n → (v.chan c).st = .service → v.param 0x0C < v.dram.segs / v.dram.n →
      replies (.decant x) s (toOf x 0x0608 o) 0x104 [] (· = v)) ∧
    (1 < v.dram.n → (v.chan c).st = .service → v.dram.segs / v.dram.n ≤ v.param 0x0C →
      (v.dram.decant.isSome = true → replies (.decant x) s (toOf x 0x0608 o) 0x103 [] (· = v)) ∧
      (v.dram.decant = none → v.usedAbove v.reserveBase = true → replies (.decant x) s (toOf x 0x0608 o) 0x102 [] (· = v)) ∧
      (v.dram.decant = none → v.usedAbove v.reserveBase = false → fewer v x → starts (.decant x) s (toOf x 0x0608 o) (.decant c) (fun u =>
        (∃ d, u.dram.decant = some d ∧ d.channel = c ∧ d.phase = .copyOut ∧ d.moved = 0 ∧ (d.hold = true ↔ arg x none 1 1 = 1))
          ∧ u.dram.data = v.dram.data ∧ u.dram.chan = v.dram.chan)))) ∧
  (∀ d, v.dram.decant = some d → d.channel = c →
    (runs s x 0x0609 none (plen 4 [(1, 3)]) o v →
      (d.phase = .copyBack → replies (.decantReturn x) s (toOf x 0x0609 o) 2 [] (· = v)) ∧
      (d.phase = .held → d.failed = false → replies (.decantReturn x) s (toOf x 0x0609 o) 0 []
        (· = { v with dram := { v.dram with decant := some { d with phase := .copyBack, moved := 0 } } })) ∧
      (d.phase = .held → d.failed = true → replies (.decantReturn x) s (toOf x 0x0609 o) 0 [] (fun u =>
        u.dram.decant = some { d with phase := .retrain, hold := false, failed := false } ∧ u.chan c = { v.chan c with retrain := true }
          ∧ u.dram.data = v.dram.data)) ∧
      (d.phase = .copyOut → replies (.decantReturn x) s (toOf x 0x0609 o) 0x102 [] (· = v))) ∧
    (runs s x 0x060A none (plen 4 [(1, 3)]) o v →
      (d.phase = .copyOut → replies (.decantAbort x) s (toOf x 0x060A o) 0 []
        (· = { v with dram := { v.dram with decant := some { d with phase := .aborting, limit := d.moved, moved := 0 } } })) ∧
      (d.phase = .aborting → replies (.decantAbort x) s (toOf x 0x060A o) 2 [] (· = v)) ∧
      (d.phase = .copyBack → replies (.decantAbort x) s (toOf x 0x060A o) 0x102 [] (· = v)))) ∧
  (v.dram.decant = none →
    (runs s x 0x0609 none (plen 4 [(1, 3)]) o v → replies (.decantReturn x) s (toOf x 0x0609 o) 0x102 [] (· = v)) ∧
    (runs s x 0x060A none (plen 4 [(1, 3)]) o v →
      (v.dram.ended = some (c, v.time.elapsed) → replies (.decantAbort x) s (toOf x 0x060A o) 2 [] (· = v)) ∧
      (v.dram.ended ≠ some (c, v.time.elapsed) → replies (.decantAbort x) s (toOf x 0x060A o) 0x102 [] (· = v))))

/-- R48, R250, R320, R430, R482 to R484: the commands on lanes, banks and queues, and Extrait from its command to the end of its exit.
The model's own choices in it: log 50. -/
def Obligations.LaneBankQueueAndExtraitService : Prop :=
  (∀ (s v : State) (x : Packet) (o : Origin),
    (∀ full : Bool,
      let sel : Option (Nat × Byte) := some (1, if full then 1 else 0)
      let c : Instr := if full then .laneRecalFull x else .laneRecalBackground x
      let l := arg x sel 0 1
      runs s x 0x0610 sel (plen 4 [(2, 2)]) o v → l < 40 → after v [8] →
        (v.portOfLane l = none → replies c s (toOf x 0x0610 o) 0x102 [] (· = v)) ∧
        (∀ p, v.portOfLane l = some p →
          ((v.lane l).recal ≠ 0 → replies c s (toOf x 0x0610 o) 0x103 [] (· = v)) ∧
          ((v.lane l).recal = 0 → v.inReset (31 + l / 8) = false → fewer v x → starts c s (toOf x 0x0610 o) (.laneRecal l) (fun u =>
            (full = false → u.ports.port = v.ports.port ∧ (u.lane l).recal = 1) ∧ (full = true → (u.port p).linkUp = false ∧ (u.lane l).recal = 2))))) ∧
    (runs s x 0x0611 none (plen 4 [(1, 3)]) o v →
      let b := arg x none 0 1
      b < 32 → after v [6] →
      (b / 8 ∈ v.tables.spareUsed → replies (.bankReplace x) s (toOf x 0x0611 o) 0x104 [] (· = v)) ∧
      (b / 8 ∉ v.tables.spareUsed → v.tables.replacing = [] → v.inReset (37 + b / 8) = false → fewer v x →
        starts (.bankReplace x) s (toOf x 0x0611 o) (.bankReplace b) (· = { v with tables := { v.tables with replacing := [b] } }))) ∧
    (runs s x 0x0612 none (plen 4) o v →
      let q := arg x none 0 4
      q < 262144 → after v [6] → v.inReset 36 = false →
      replies (.queueFlush x) s (toOf x 0x0612 o) 0 (beBytes 4 ((v.queue q).pkts.length + (v.queue q).spilled.length)) (fun u =>
        (u.queue q).pkts = [] ∧ (u.queue q).spilled = [] ∧ (u.queue q).bad = false ∧ ∀ k, k ≠ q → u.queue k = v.queue k)) ∧
    (runs s x 0x0618 none (plen 12 [(5, 3)]) o v →
      let window := arg x none 0 4
      let ceiling := arg x none 4 1
      1 ≤ window → window ≤ 300000 → 60 ≤ ceiling → ceiling ≤ 110 → after v [9] →
      (v.power.extrait.phase ≠ .off → replies (.extraitEnter x) s (toOf x 0x0618 o) 0x103 [] (· = v)) ∧
      (v.power.extrait.phase = .off → (∃ i, i < 53 ∧ ((ceiling : Int) - 3 ≤ (v.isl i).temp.toInt ∨ (v.isl i).sensorOk = false)) →
        replies (.extraitEnter x) s (toOf x 0x0618 o) 0x102 [] (· = v)) ∧
      (v.power.extrait.phase = .off → (∀ i, i < 53 → (v.isl i).temp.toInt < (ceiling : Int) - 3 ∧ (v.isl i).sensorOk = true) →
        v.deviceLife + arg x none 8 4 < 350640 → fewer v x → starts (.extraitEnter x) s (toOf x 0x0618 o) .extrait (fun u =>
          u.power.extrait = { phase := .entering, window := window, ceiling := ceiling, reserve := arg x none 8 4 } ∧ u.power.island = v.power.island))) ∧
    (runs s x 0x0619 none (plen 0) o v →
      (v.power.extrait.phase = .on → replies (.extraitExit x) s (toOf x 0x0619 o) 0 [] (fun u =>
        u.power.extrait = { v.power.extrait with phase := .exiting 4, stop := v.time.elapsed })) ∧
      (v.power.extrait.phase = .off → replies (.extraitExit x) s (toOf x 0x0619 o) 2 [] (· = v)))) ∧
  (∀ s : State, s.power.extrait.phase = .entering → PowerChange.extraitEntry ∉ s.power.waiting → givesSome .extraitEntryDone s (fun u =>
    u.power.extrait = { s.power.extrait with phase := .on, start := s.time.elapsed } ∧ u.power.railMv = 850
      ∧ ∀ c, c < 26 → u.isl c = if (s.cl c).svc.st = 1 ∧ s.up c = true then { s.isl c with extrait := true, vmeas := 850 } else s.isl c)) ∧
  (∀ s : State, s.power.extrait.phase = .on → givesSome .extraitWindowExpire s (fun u =>
    u.power.extrait = { s.power.extrait with phase := .exiting 1, stop := s.time.elapsed })) ∧
  (∀ (s : State) (cause : Nat), s.power.extrait.phase = .exiting cause → PowerChange.extraitExit ∉ s.power.waiting →
    let ms := (s.power.extrait.stop - s.power.extrait.start) / 1000000
    givesSome .extraitExitDone s (fun u => u.power.extrait = {} ∧ u.power.railMv = 750
      ∧ (∀ c, c < 26 → (u.isl c).extrait = false) ∧ completed s u .extrait 0 ([BitVec.ofNat 8 cause, 0, 0, 0] ++ beBytes 4 ms)))

/-- The cluster, Decant and observation commands of YCP. -/
def Obligations.ClusterDecantAndObservationCommands : Prop := Claims.ObservationCommandsReadAndSelect ∧ Claims.ClusterCommandsFollowTheServiceState ∧ Claims.DecantCommandsFollowTheirPhase


/-! ### Security, the debugger and the JTAG port -/

/-- R442 to R445, R451, R431: a written slot is staged by its verification, which says what failed; a staged slot is loaded.
The model's own choices in it: log 34, 52. -/
def Sys2Proof.Claims.ImagesAreStagedAndActivated : Prop :=
  (∀ (s v : State) (x : Packet) (o : Origin),
    let k := arg x none 0 1
    k ≤ 1 →
    (runs s x 0x0700 none (plen 4 [(1, 3)]) o v → v.running (.imageStage k) = false →
      (v.slotSt k = .written → v.stagingOpen k = false → fewer v x → starts (.imageStage x) s (toOf x 0x0700 o) (.imageStage k) (· = v)) ∧
      (v.slotSt k ≠ .written → replies (.imageStage x) s (toOf x 0x0700 o) 0x102 [] (· = v))) ∧
    (runs s x 0x0701 none (plen 4 [(1, 3)]) o v → v.accord.preparing = false →
      (v.sec.running = some k → replies (.imageActivate x) s (toOf x 0x0701 o) 2 [] (· = v)) ∧
      (v.sec.running ≠ some k → v.activating = false → v.slotSt k ≠ .staged → replies (.imageActivate x) s (toOf x 0x0701 o) 0x102 [] (· = v)) ∧
      (v.sec.running ≠ some k → v.activating = false → v.slotSt k = .staged → fewer v x →
        starts (.imageActivate x) s (toOf x 0x0701 o) (.imageActivate k) (· = { v with sec := { v.sec with restart := .loading k } })))) ∧
  (∀ (s : State) (k : Nat), k ≤ 1 → s.serves = true → s.running (.imageStage k) = true →
    (s.slotCheck k = 0 → s.sec.count ≤ s.slotRollback k → givesSome (.imageStageDone k) s (fun u =>
      u.slotSt k = .staged ∧ u.slotSt (1 - k) = s.slotSt (1 - k) ∧ completed s u (.imageStage k) 0 [])) ∧
    (s.slotCheck k = 0 → s.slotRollback k < s.sec.count → givesSome (.imageStageDone k) s (fun u =>
      u.slotSt k = s.slotSt k ∧ reported s u (64 * 51 + 1) 0xBA {} ∧ completed s u (.imageStage k) 0x102 [])) ∧
    (s.slotCheck k ≠ 0 → givesSome (.imageStageDone k) s (fun u => u.slotSt k = s.slotSt k
      ∧ reported s u (64 * 51 + 1) 0xB8 { addr := s.slotCheck k * 2 ^ 8 + k }
      ∧ completed s u (.imageStage k) (if s.slotCheck k = 1 then 0x101 else 0x200) [])))

/-- R437 to R440, R447, R448, R431: a statement is made for a nonce and returned in its parts; the owner's commands take effect under a signature
alone. The first owner key makes the device OWNED.
The model's own choices in it: log 33, 52. -/
def Sys2Proof.Claims.AttestationAndOwnerCommands : Prop :=
  ∀ (s v : State) (x : Packet) (o : Origin),
  let signed (op n : Nat) (key : List Byte) := edVerify key (ascii "YN-OWNER" ++ beBytes 8 Config.deviceSerial ++ beBytes 2 x.issuer.toNat
    ++ beBytes 8 x.serial.toNat ++ beBytes 2 op ++ x.params.take n) (argBytes x none n 64)
  let denied (c : Instr) (op : Nat) := replies c s (toOf x op o) 0x200 [] (fun u => reported v u (64 * 51 + 1) 0xB8 { master := o.master x.issuer.toNat }
    ∧ u.sec = v.sec ∧ u.ycp = v.ycp)
  (runs s x 0x0702 none (plen 36 [(33, 3)]) o v →
    let nonce := argBytes x none 0 32
    let i := x.issuer.toNat
    (arg x none 32 1 = 0 → v.accord.digestDue = false →
      let t := { v with sec := { v.sec with statements := v.sec.statements + 1 } }
      let l := t.statementBody nonce ++ edSign identitySeed (ascii "YN-ATTST" ++ t.statementBody nonce)
      replies (.attest x) s (toOf x 0x0702 o) 0 ([2, 0] ++ beBytes 2 (l.take 1024).length ++ l.take 1024) (fun u =>
        (u.issuer i).statement = some (l, nonce) ∧ u.sec.statements = v.sec.statements + 1)) ∧
    (∀ l, arg x none 32 1 = 1 → (v.issuer i).statement = some (l, nonce) →
      replies (.attest x) s (toOf x 0x0702 o) 0 ([2, 1] ++ beBytes 2 ((l.drop 1024).take 1024).length ++ (l.drop 1024).take 1024) (· = v)) ∧
    (arg x none 32 1 = 1 → (∀ l, (v.issuer i).statement ≠ some (l, nonce)) → replies (.attest x) s (toOf x 0x0702 o) 0x102 [] (· = v)) ∧
    (2 ≤ arg x none 32 1 → replies (.attest x) s (toOf x 0x0702 o) 0x101 [] (· = v))) ∧
  (runs s x 0x0708 none (plen 104 [(2, 2)]) o v →
    let slot := arg x none 0 1
    let ctl := arg x none 4 4
    let key := argBytes x none 8 32
    ∀ own, slot < 16 → arg x none 1 1 < 4 → bits ctl 26 16 = 0 → v.ownerKeyOf (arg x none 1 1) = some own →
      (signed 0x0708 40 own = false → denied (.issuerSet x) 0x0708) ∧
      (signed 0x0708 40 own = true → bitAt ctl 30 = zeroBytes key → replies (.issuerSet x) s (toOf x 0x0708 o) 0x101 [] (· = v)) ∧
      (signed 0x0708 40 own = true → bitAt ctl 30 = !zeroBytes key → v.sec.pcieSigned = false →
        replies (.issuerSet x) s (toOf x 0x0708 o) 0 [] (fun u => u.issuer slot = { v.issuer slot with ctl := BitVec.ofNat 32 ctl, key := key }
          ∧ (∀ j, j ≠ slot → u.issuer j = v.issuer j) ∧ u.sec.recordSeq = v.sec.recordSeq + 1 ∧ u.sec.securityLost = false
          ∧ u.sec.recordOld = if v.sec.securityLost then none else some v.recordCopy))) ∧
  (runs s x 0x070A none (plen 68 [(2, 2)]) o v →
    ∀ own, arg x none 0 1 < 2 → arg x none 1 1 < 4 → v.ownerKeyOf (arg x none 1 1) = some own →
      (signed 0x070A 4 own = false → denied (.secConfig x) 0x070A) ∧
      (signed 0x070A 4 own = true → v.keyedSlot = true → replies (.secConfig x) s (toOf x 0x070A o) 0 [] (fun u =>
        (u.sec.pcieSigned = true ↔ arg x none 0 1 = 1) ∧ u.sec.recordSeq = v.sec.recordSeq + 1 ∧ u.sec.securityLost = false
          ∧ (u.sec.recordOld = if v.sec.securityLost then none else some v.recordCopy) ∧ ∀ j, u.issuer j = v.issuer j)) ∧
      (signed 0x070A 4 own = true → v.keyedSlot = false → arg x none 0 1 = 1 → replies (.secConfig x) s (toOf x 0x070A o) 0x101 [] (· = v))) ∧
  (runs s x 0x0709 none (plen 100 [(2, 2)]) o v →
    let key := argBytes x none 4 32
    (v.sec.lifecycle = .factory → replies (.ownerKeySet x) s (toOf x 0x0709 o) 0x201 [] (· = v)) ∧
    (v.sec.lifecycle = .unowned → o = .pcie → arg x none 0 1 = 0 → arg x none 1 1 = 0 →
      (signed 0x0709 36 key = false → denied (.ownerKeySet x) 0x0709) ∧
      (signed 0x0709 36 key = true → zeroBytes key = false → v.sec.ownerKey = [] → replies (.ownerKeySet x) s (toOf x 0x0709 o) 0 [] (fun u =>
        u.sec.lifecycle = .owned ∧ u.ownerGen 0 1 = some key ∧ u.ownerKeyOf 0 = some key ∧ u.sec.flash = v.sec.flash))) ∧
    (v.sec.lifecycle = .unowned → o ≠ .pcie → arg x none 0 1 < 4 → arg x none 1 1 < 4 → replies (.ownerKeySet x) s (toOf x 0x0709 o) 0x201 [] (· = v)) ∧
    (∀ own, v.sec.lifecycle = .owned → arg x none 0 1 < 4 → arg x none 1 1 < 4 → v.ownerKeyOf (arg x none 1 1) = some own →
      (signed 0x0709 36 own = false → denied (.ownerKeySet x) 0x0709) ∧
      (signed 0x0709 36 own = true → zeroBytes key = false → v.ownerCurrent (arg x none 0 1) < 4 →
        replies (.ownerKeySet x) s (toOf x 0x0709 o) 0 [] (fun u => u.sec.lifecycle = .owned
          ∧ u.ownerGen (arg x none 0 1) (v.ownerCurrent (arg x none 0 1) + 1) = some key))))

namespace Sys2Proof.Claims

/-- The results of DBG_STATE for thread `t` (R432). -/
def stateOf (v : State) (t : Nat) : List Byte :=
  let x := v.th t
  beBytes 8 x.regs.acc.toNat ++ beBytes 4 x.regs.xa.toNat ++ beBytes 4 x.regs.xb.toNat ++ beBytes 2 x.pc.toNat ++ beBytes 1 x.regs.fl.toNat
    ++ beBytes 1 (b2n (x.halt != .none) + 2 * b2n x.inTrap + 4 * b2n x.busy) ++ beBytes 4 (x.gen.toNat * 8192 + x.record)

end Sys2Proof.Claims

/-- R135 to R137, R388, R432, R433, R469, R470: the debugger halts, resumes, steps and reads a thread, discards what it staged, asks for its abort,
and sets breakpoints; factory test injects a fault that its source may raise.
The model's own choices in it: log 8, 40, 53, 54, and 57 for a halt and a resume of one instant. -/
def Sys2Proof.Claims.DebugCommandsHoldAndStepThreads : Prop :=
  ∀ (s v : State) (x : Packet) (o : Origin),
  let t := arg x none 0 2
  let y := v.th t
  let me := o.master x.issuer.toNat
  let now (u : State) (z : Thread) := u.th t = z ∧ ∀ k, k ≠ t → u.th k = v.th k
  (after v [9] → t < 26 * 128 → v.up (t / 128) = true →
    (runs s x 0x0800 none (plen 4 [(2, 2)]) o v →
      (y.busy = false → replies (.dbgHalt x) s (toOf x 0x0800 o) 0x102 [] (· = v)) ∧
      (y.busy = true → y.halt ≠ .none → replies (.dbgHalt x) s (toOf x 0x0800 o) 2 [] (· = v)) ∧
      (y.busy = true → y.halt = .none → y.wait = .none →
        replies (.dbgHalt x) s (toOf x 0x0800 o) 0 [] (now · { y with haltReq := true, haltAt := some (v.time.elapsed, me) })) ∧
      (∀ m, y.busy = true → y.halt = .none → y.wait = .wfe m →
        replies (.dbgHalt x) s (toOf x 0x0800 o) 0 [] (now · { y with halt := .debug, haltReq := false, haltAt := some (v.time.elapsed, me) }))) ∧
    (runs s x 0x0801 none (plen 4 [(2, 2)]) o v →
      (y.halt = .none → y.haltReq = false → replies (.dbgResume x) s (toOf x 0x0801 o) 2 [] (· = v)) ∧
      (∀ other, y.halt = .debug → y.haltAt = some (v.time.elapsed, other) → other ≠ me →
        replies (.dbgResume x) s (toOf x 0x0801 o) 0 [] (· = v)) ∧
      (y.halt = .debug → y.granted = false → y.lockGranted = false → (∀ other, y.haltAt = some (v.time.elapsed, other) → other = me) →
        replies (.dbgResume x) s (toOf x 0x0801 o) 0 [] (now · { y with halt := .none, haltReq := false, bpPass := true }))) ∧
    (runs s x 0x0802 none (plen 4 [(2, 2)]) o v →
      (y.halt ≠ .debug → replies (.dbgStep x) s (toOf x 0x0802 o) 0x102 [] (· = v)) ∧
      (∀ k, y.halt = .debug → y.busy = true → y.granted = false → y.lockGranted = false → y.wait = .ord k →
        let z := { y with stepping := false, bpPass := false }
        replies (.dbgStep x) s (toOf x 0x0802 o) 0 (stateOf v t) (now · z)) ∧
      (∀ u, y.halt = .debug → y.wait = .none →
        (State.tryIssue (v.modTh t (fun x => { x with stepping := true, bpPass := true })) t (v.bundleAt t).1 (v.bundleAt t).2).map
          (fun u => u.branchResolve t) = some u →
        replies (.dbgStep x) s (toOf x 0x0802 o) 0 (stateOf (u.haltAgain t) t) (· = u.haltAgain t))) ∧
    (runs s x 0x0803 none (plen 4 [(2, 2)]) o v → replies (.dbgState x) s (toOf x 0x0803 o) 0 (stateOf v t) (· = v)) ∧
    (runs s x 0x0804 none (plen 4 [(2, 2)]) o v →
      (y.halt = .none → replies (.dbgChAbort x) s (toOf x 0x0804 o) 0x102 [] (· = v)) ∧
      (y.halt ≠ .none → y.staging = [] → y.wait = .none → replies (.dbgChAbort x) s (toOf x 0x0804 o) 2 [] (· = v)) ∧
      (y.halt ≠ .none → y.staging ≠ [] → replies (.dbgChAbort x) s (toOf x 0x0804 o) 0 [] (fun u => (u.th t).staging = []
        ∧ reported v u (64 * (t / 128) + t % 128 / 16) 0x61 { master := t, detail := y.gen.toNat * 8192 + y.record }))) ∧
    (runs s x 0x0805 none (plen 4 [(2, 2)]) o v →
      (y.busy = false → replies (.dbgAbort x) s (toOf x 0x0805 o) 2 [] (· = v)) ∧
      (y.busy = true → replies (.dbgAbort x) s (toOf x 0x0805 o) 0 [] (now · { y with abortReq := true })))) ∧
  (after v [9] → runs s x 0x0808 none (plen 8 [(6, 2)]) o v →
    let c := arg x none 0 1
    let k := arg x none 1 1
    c < 26 → v.up c = true → k < 4 → arg x none 4 1 < 16 → arg x none 5 1 < 2 → replies (.dbgBreak x) s (toOf x 0x0808 o) 0 [] (fun u =>
      Store.get {} (u.cl c).brk k = (if arg x none 5 1 = 1 then { pc := BitVec.ofNat 16 (arg x none 2 2), tag := BitVec.ofNat 4 (arg x none 4 1), enable := true } else {})
        ∧ (∀ j, j ≠ k → Store.get {} (u.cl c).brk j = Store.get {} (v.cl c).brk j) ∧ otherClusters v u c)) ∧
  (runs s x 0x0F00 none (plen 12 [(3, 1), (4, 2)]) o v →
    let source := arg x none 0 2
    let kind := arg x none 2 1
    (4096 ≤ source ∨ kindFits kind source = false → replies (.faultInject x) s (toOf x 0x0F00 o) 0x101 [] (· = v)) ∧
    (source < 4096 → kindFits kind source = true → (0x50 ≤ kind ∧ kind ≤ 0x58 ∨ 0x68 ≤ kind ∧ kind ≤ 0x7C ∨ 0xB8 ≤ kind ∧ kind ≤ 0xBB) →
      replies (.faultInject x) s (toOf x 0x0F00 o) 0 [] (fun u => reported v u source kind { addr := arg x none 4 8, injected := true })))

/-- R466 to R468: the JTAG port. DEBUG reaches the debugger without the Steward, and acts as BYPASS on an OWNED device; EXTEST, CLAMP and HIGHZ
drive the balls only while RESET_N is asserted.
The model's own choices in it: log 35. -/
def Sys2Proof.Claims.JtagInstructionsReachDebuggerAndBalls : Prop :=
  (∀ (s : State) (op : BitVec 8) (p : List Byte), s.sec.lifecycle = .owned →
    gives (.debugOp op p) s { s with obs := { s.obs with jtag := .bypass } }) ∧
  (∀ (s : State) (hi lo : Byte), s.sec.lifecycle ≠ .owned → s.up 52 = true →
    let t := beVal [hi, lo]
    t < 26 * 128 → s.up (t / 128) = true → givesSome (.debugOp 3 [hi, lo, 0, 0]) s (fun u => u.obs.jtag = .debugReg ∧ u.obs.dbgStatus = 0
      ∧ u.obs.dbgResult = slice (stateOf s t) 0 30 ∧ u.clusters = s.clusters)) ∧
  (∀ (s : State) (hi lo : Byte), s.sec.lifecycle ≠ .owned → s.up 52 = true →
    let t := beVal [hi, lo]
    t < 26 * 128 → s.up (t / 128) = true → (s.th t).halt = .debug → (s.jtag .debugReg).stepBundle t = none →
    givesSome (.debugOp 2 [hi, lo, 0, 0]) s (fun u =>
      u.obs.dbgStatus = 0x103 ∧ u.obs.dbgWait = some (2, [hi, lo, 0, 0]) ∧ u.clusters = s.clusters)) ∧
  (∀ (s : State) (p : List Byte), s.sec.lifecycle ≠ .owned → s.up 52 = true → p.length ≤ 31 → givesSome (.debugOp 6 p) s (fun u =>
    u.obs.dbgStatus = 0x100 ∧ u.clusters = s.clusters)) ∧
  (∀ (s : State) (l : List Bool),
    (s.pins.resetN = true → gives (.extest l) s { s with obs := { s.obs with jtag := .bypass } }
      ∧ gives (.clamp l) s { s with obs := { s.obs with jtag := .bypass } } ∧ gives .highz s { s with obs := { s.obs with jtag := .bypass } }) ∧
    (s.pins.resetN = false →
      gives (.extest l) s { s with obs := { s.obs with jtag := .extest, boundary := l }, out := .balls l :: s.out }
      ∧ gives (.clamp l) s { s with obs := { s.obs with jtag := .clamp, boundary := l }, out := .balls l :: s.out }
      ∧ gives .highz s { s with obs := { s.obs with jtag := .highz }, out := .balls [] :: s.out }) ∧
    gives (.samplePreload l) s { s with obs := { s.obs with jtag := .sample, boundary := l } } ∧
    gives .bypass s { s with obs := { s.obs with jtag := .bypass } })

/-- The image, attestation and owner commands of YCP. -/
def Obligations.ImageAndIdentityCommands : Prop := Claims.ImagesAreStagedAndActivated ∧ Claims.AttestationAndOwnerCommands

/-- The debug commands of YCP and the JTAG instructions. -/
def Obligations.DebugAndJtagCommands : Prop := Claims.DebugCommandsHoldAndStepThreads ∧ Claims.JtagInstructionsReachDebuggerAndBalls


/-! ### BAR0, power, start-up and what refuses a packet -/

namespace Sys2Proof.Claims

/-- What a write of a ring's tail leaves: the value, where it leaves at most 2^`log` − 1 entries posted, else what was there (R415). -/
def tailAfter (tail head : BitVec 16) (log : Nat) (value : BitVec 32) : BitVec 16 :=
  if (value.setWidth 16 - head).toNat < 2 ^ log then value.setWidth 16 else tail

/-- What a write of a ring's control register leaves (R414, R415): ENABLE 0 clears HALTED, and a size changes only while the ring is off. -/
def ringAfter (r : Ring) (value : BitVec 32) : Ring :=
  { r with enable := value.getLsbD 31, halted := r.halted && value.getLsbD 31, size := if r.enable = true ∨ (value.setWidth 5).toNat < 6 ∨ 12 < (value.setWidth 5).toNat then r.size else value.setWidth 5 }

end Sys2Proof.Claims

/-- R11, R399, R414 to R416: the registers of BAR0. Tails and control words follow the rings' rules; a cause register's bits are cleared by
writing ones; an aligned write of a word reaches its register, a misaligned one and one to no register change nothing, and none is taken while
the link is down.
The model's own choices in it: log 21, 22. -/
def Obligations.Bar0RegistersFollowTheirRules : Prop :=
  (∀ (s : State) (a : BitVec 32), s.pcieOn = true →
    gives (.cmdTail a) s { s with bar0 := { s.bar0 with cmd := { s.bar0.cmd with tail := tailAfter s.bar0.cmd.tail s.bar0.cmd.head s.bar0.cmd.size.toNat a } } } ∧
    gives (.cmdRingCtrl a) s { s with bar0 := { s.bar0 with cmd := ringAfter s.bar0.cmd a } } ∧
    (s.ycp.unsent = [] →
      gives (.rplTail a) s { s with bar0 := { s.bar0 with rpl := { s.bar0.rpl with tail := tailAfter s.bar0.rpl.tail s.bar0.rpl.head s.bar0.rpl.size.toNat a } } } ∧
      gives (.rplRingCtrl a) s { s with bar0 := { s.bar0 with rpl := ringAfter s.bar0.rpl a } }) ∧
    givesSome (.faultCause a) s (fun u => u.bar0 = { s.bar0 with faultCause := u.bar0.faultCause }
      ∧ ∀ k, k < 16 → u.bar0.faultCause.getLsbD k = (s.bar0.faultCause.getLsbD k && !a.getLsbD k)) ∧
    givesSome (.eventCause a) s (fun u => u.bar0 = { s.bar0 with eventCause := u.bar0.eventCause }
      ∧ ∀ k, k < 7 → u.bar0.eventCause.getLsbD k = (s.bar0.eventCause.getLsbD k && !a.getLsbD k)) ∧
    (∀ r, r < 64 →
      givesSome (.d2hTail r a) s (fun u => Store.get 0 u.bar0.tails r
          = tailAfter (Store.get 0 s.bar0.tails r) (Store.get 0 s.bar0.heads r) (fld (s.obj 0x86 r) 62 58) a
        ∧ ∀ k, k ≠ r → Store.get 0 u.bar0.tails k = Store.get 0 s.bar0.tails k) ∧
      givesSome (.h2dTail r a) s (fun u => Store.get 0 u.bar0.tails (64 + r)
          = tailAfter (Store.get 0 s.bar0.tails (64 + r)) (Store.get 0 s.bar0.heads (64 + r)) (fld (s.obj 0x87 r) 62 58) a
        ∧ ∀ k, k ≠ 64 + r → Store.get 0 u.bar0.tails k = Store.get 0 s.bar0.tails k))) ∧
  (∀ (s : State) (a : BitVec 64), s.pcieOn = true →
    gives (.ringCauseD2h a) s { s with bar0 := { s.bar0 with d2hCause := s.bar0.d2hCause &&& ~~~a } } ∧
    gives (.ringCauseH2d a) s { s with bar0 := { s.bar0 with h2dCause := s.bar0.h2dCause &&& ~~~a } } ∧
    gives (.bar0Write 0x08 4 a) s { s with bar0 := { s.bar0 with scratch := a.setWidth 32 } } ∧
    (s.bar0.cmd.enable = false → gives (.bar0Write 0x10 8 a) s { s with bar0 := { s.bar0 with cmd := { s.bar0.cmd with base := a } } }) ∧
    (s.bar0.cmd.enable = true → gives (.bar0Write 0x10 8 a) s s)) ∧
  (∀ (s : State) (off size : Nat) (a : BitVec 64),
    (s.pcieOn = false → gives (.bar0Write off size a) s s ∧ gives (.ringCauseD2h a) s s) ∧
    (¬ (size = 4 ∧ off % 4 = 0 ∨ size = 8 ∧ off % 8 = 0) → gives (.bar0Write off size a) s s) ∧
    (s.pcieOn = true → (off = 0x00 ∨ off = 0x04 ∨ off = 0x20 ∨ off = 0x38) → gives (.bar0Write off 4 a) s s))

/-- R475 to R477, R486 to R489, R471: sensors, clocks and wear. A reading, its peak and its limit; a failed sensor; a clock that stops with its
state kept and restarts; a millisecond of wear for every island; and the ledger's record.
The model's own choices in it: log 36, 50, 51. -/
def Obligations.SensorsClocksAndWear : Prop :=
  (∀ (s : State) (i : Nat) (t : Int), i < 53 → s.inReset i = false → -128 ≤ t → t ≤ 127 → (s.isl i).sensorOk = true → s.power.extrait.phase = .off →
    let x := s.isl i
    let peak := if x.peak.toInt < t then BitVec.ofInt 8 t else x.peak
    (t ≤ x.limit.toInt → givesSome (.islandTempSample i t) s (fun u =>
      u.isl i = { x with temp := BitVec.ofInt 8 t, peak := peak, hotRep := x.hotRep && decide (x.limit.toInt < t + 5) }
        ∧ u.faults = s.faults ∧ ∀ j, j ≠ i → u.isl j = s.isl j)) ∧
    (x.limit.toInt < t → x.hotRep = false → givesSome (.islandTempSample i t) s (fun u =>
      u.isl i = { x with temp := BitVec.ofInt 8 t, peak := peak, hotRep := true }
        ∧ reported s u (64 * i + 0x3F) 0xB0 { addr := (BitVec.ofInt 8 t).toNat })) ∧
    (x.limit.toInt < t → x.hotRep = true → givesSome (.islandTempSample i t) s (fun u => u.faults = s.faults))) ∧
  (∀ (s : State) (i : Nat), i < 53 → s.inReset i = false → s.power.extrait.phase = .off →
    givesSome (.sensorSelfCheck i true) s (fun u => u.isl i = { s.isl i with sensorOk := true } ∧ u.faults = s.faults) ∧
    givesSome (.sensorSelfCheck i false) s (fun u => u.isl i = { s.isl i with sensorOk := false } ∧ reported s u (64 * i + 0x3F) 0xB3 {})) ∧
  (∀ (s : State) (i : Nat), i < 53 →
    ((s.isl i).unlocked = false → (s.isl i).st = .run → givesSome (.clockUnlock i) s (fun u =>
      u.isl i = { s.isl i with unlocked := true, locked := false, st := .stopped } ∧ reported s u (64 * i + 0x3F) 0xB2 {}
        ∧ u.clusters = s.clusters ∧ u.seq = s.seq ∧ u.dram = s.dram)) ∧
    ((s.isl i).unlocked = true → (s.isl i).st = .stopped → (s.isl i).blockReset = false → givesSome (.clockRelock i) s (fun u =>
      u.isl i = { s.isl i with unlocked := false, locked := true, st := .run } ∧ u.clusters = s.clusters ∧ u.seq = s.seq ∧ u.dram = s.dram)) ∧
    ((s.isl i).unlocked = true → (s.isl i).st = .stopped → (s.isl i).blockReset = true → (i < 43 ∨ i = 52) → givesSome (.clockRelock i) s (fun u =>
      u.isl i = { s.isl i with unlocked := false, locked := true, st := .run, blockReset := false }
        ∧ reported s u (64 * 52) 0xC4 { addr := i, conseq := true }))) ∧
  (∀ s : State, s.pins.pwrGood = true → s.pins.resetN = true → s.power.extrait.phase = .off →
    givesSome .wearAccrue s (fun u => (∀ i, i < 53 →
        u.isl i = { s.isl i with life := (s.isl i).life + wearStep (if (s.isl i).sensorOk then (s.isl i).temp.toInt else 110) (s.isl i).vmeas.toNat })
      ∧ u.sec.milestones = max s.sec.milestones (min 512 (u.deviceLife / 1000)))) ∧
  (∀ s : State, s.ycp.up = true → s.up 51 = true → givesSome .ledgerWrite s (fun u => u.power.ledgerSeq = s.power.ledgerSeq + 1
    ∧ (s.power.ledgerSeq ≠ 0 → u.power.ledgerOld = some s.power.ledger)
    ∧ (∀ i, i < 53 → Store.get 0 u.power.ledger i = (s.isl i).life / 2 ^ 32 % 2 ^ 64) ∧ u.power.island = s.power.island))

/-- R399, R440, R478, R489, R498, R514 to R519, R521, R524 to R526: PCIE_PERST_N, the endpoint's errors and the thermal trip; and start-up's steps,
each after those it waits for, with the copies of the security record and of the wear ledger that they take.
The model's own choices in it: log 16, 34, 55. -/
def Obligations.EndpointTripAndStartUpSteps : Prop :=
  (∀ s : State,
    (s.pins.perstN = true → gives .pciePerstNAssert s { s with bar0 := {}, pins := { s.pins with perstN := false, pcieUp := false } }) ∧
    (s.pins.perstN = false → gives .pciePerstNDeassert s
      { s with pins := { s.pins with perstN := true, pcieUp := s.startup.done.contains 2 } }) ∧
    (s.pcieOn = true → givesSome .pcieError s (fun u => reported s u (64 * 51 + 2) 0xBB {} ∧ u.bar0 = s.bar0)) ∧
    (∀ i, i < 53 → s.tripPowered = true → s.pins.therm = false → givesSome (.thermTrip i) s (fun u =>
      u.pins.therm = true ∧ (s.up 52 = true → reported s u (63 * 64) 0xB1 {}) ∧ ∀ j, u.isl j = s.isl j))) ∧
  (∀ (s : State) (r : StepResult), s.startup.running = true → s.startup.stopped = false → s.sec.recovery = false →
    (s.startup.done = [] →
      (r.ambiguous = true → givesSome (.startupStepDone 2 r) s (fun u => u.startup.running = false ∧ u.startup.done = [])) ∧
      (r.ambiguous = false → givesSome (.startupStepDone 2 r) s (fun u => u.startup.done = [2] ∧ u.pins.pcieUp = s.pins.perstN))) ∧
    (s.startup.done = [2] →
      ((∃ e ∈ r.arrays, e.1.toNat / 64 = 51 ∨ e.1.toNat / 64 = 52) → givesSome (.startupStepDone 3 r) s (fun u =>
        u.startup.running = false ∧ u.startup.done = [2])) ∧
      (r.arrays = [] → r.repairs = [] → givesSome (.startupStepDone 3 r) s (fun u => u.startup.done = [2, 3] ∧ u.faults = s.faults)) ∧
      (∀ step, step ≠ 3 → gives (.startupStepDone step r) s s)) ∧
    (s.startup.done = [2, 3] → s.sec.lifecycle ≠ .owned → s.sec.active = 0 →
      (r.noFlash = true → givesSome (.startupStepDone 4 r) s (fun u => u.sec.recovery = true ∧ u.sec.running = none)) ∧
      (r.noFlash = false → s.slotCheck 0 = 0 → s.sec.count ≤ s.slotRollback 0 → givesSome (.startupStepDone 4 r) s (fun u =>
        u.sec.running = some 0 ∧ u.sec.recovery = false ∧ u.slotSt 0 = .running ∧ u.startup.done = [2, 3, 4])) ∧
      (r.noFlash = false → s.slotCheck 0 ≠ 0 → s.slotCheck 1 = 0 → s.sec.count ≤ s.slotRollback 1 → givesSome (.startupStepDone 4 r) s (fun u =>
        u.sec.running = some 1 ∧ u.slotSt 1 = .running ∧ u.slotSt 0 = .written)) ∧
      (r.noFlash = false → s.slotCheck 0 ≠ 0 → s.slotCheck 1 ≠ 0 → givesSome (.startupStepDone 4 r) s (fun u =>
        u.sec.recovery = true ∧ u.sec.running = none ∧ u.slotSt 0 = .written ∧ u.slotSt 1 = .written))) ∧
    (s.startup.done = [2, 3] → s.sec.lifecycle = .owned → s.sec.securityLost = false → r.recordLost = false → r.noFlash = false →
      (∀ p, r.recordOlder = true → s.sec.recordOld = some p → p.slots.length = 16 → givesSome (.startupStepDone 4 r) s (fun u =>
        u.sec.recordSeq = p.seq ∧ u.sec.pcieSigned = p.signed ∧ u.sec.securityLost = false
          ∧ ∀ k, k < 16 → ((u.issuer k).ctl, (u.issuer k).key) = p.slots.getD k (0, []))) ∧
      (r.recordOlder = false → givesSome (.startupStepDone 4 r) s (fun u => u.sec.recordSeq = s.sec.recordSeq ∧ ∀ k, u.issuer k = s.issuer k))) ∧
    (s.startup.done = [2, 3] → s.sec.lifecycle = .owned → r.recordLost = true → givesSome (.startupStepDone 4 r) s (fun u =>
      u.sec.securityLost = true ∧ u.sec.pcieSigned = false ∧ ∀ k, k < 16 → (u.issuer k).ctl = 0xA80000A1)) ∧
    (s.startup.done = [2, 3, 4] → givesSome (.startupStepDone 5 r) s (fun u => u.ycp.up = true ∧ u.startup.done = [2, 3, 4, 5]
      ∧ ∀ i, i < 53 → (u.isl i).life = max (match s.ledgerRecord r.ledgerLost r.ledgerOlder with | some m => Store.get 0 m i * 2 ^ 32 | none => 0)
          (s.sec.milestones * 1000 * 2 ^ 48))) ∧
    (s.startup.done = [2, 3, 4, 5] → givesSome (.startupStepDone 6 r) s (fun u => u.startup.done = [2, 3, 4, 5, 6]
      ∧ (∀ i, i < 51 → (s.isl i).broken = false → u.up i = true ∧ (u.isl i).locked = true ∧ (u.isl i).volt = 750)
      ∧ (∀ i, i < 51 → (s.isl i).broken = true → u.isl i = s.isl i))) ∧
    (∀ f : Nat → ChanFound, s.startup.done = [2, 3, 4, 5, 6] → geometryValid (s.flashRead 0x30000 4096) = false → (∀ c, c < 8 → s.inReset (43 + c) = false) →
      r.channels = (List.range 8).map f → (∀ c, c < 8 → (f c).channel = c ∧ (f c).failed = none ∧ (f c).ranks = (f 0).ranks
        ∧ (f c).width = (f 0).width ∧ (f c).density = (f 0).density ∧ (f c).rate = (f 0).rate) → chanGib (f 0) ≠ 0 →
      givesSome (.startupStepDone 7 r) s (fun u => u.dram.n = 8 ∧ u.dram.segs = 8 * chanGib (f 0) * 16 ∧ u.faults = s.faults
        ∧ ∀ c, c < 8 → (u.chan c).st = .service ∧ (u.chan c).gib = chanGib (f 0) ∧ (u.chan c).sweepDone = false ∧ (u.chan c).hot = (f c).noSensor)) ∧
    (s.startup.done = [2, 3, 4, 5, 6] → r.noImage = true ∨ s.testImage.1 = true → givesSome (.startupStepDone 9 r) s (fun u =>
      ∀ c, c < 26 → (s.isl c).broken = false → (u.cl c).svc.check = false ∧ (u.cl c).svc.st = if c < 24 then 1 else 5)) ∧
    (s.startup.done = [2, 3, 4, 5, 6] → r.noImage = false → s.testImage.1 = false → givesSome (.startupStepDone 9 r) s (fun u => u.startup.done = [2, 3, 4, 5, 6, 9]
      ∧ ∀ c, c < 26 → (s.isl c).broken = false → (c ∉ r.clusters → (u.cl c).svc.check = true ∧ (u.cl c).svc.st = if c < 24 then 1 else 0)
        ∧ (c ∈ r.clusters → (u.cl c).svc.check = false ∧ (u.cl c).svc.st = if c < 24 then 3 else 5))) ∧
    (s.startup.done = [2, 3, 4, 5, 6, 7, 8, 9] → s.ycp.up = true → s.pins.perstN = true → givesSome (.startupStepDone 10 r) s (fun u =>
      u.startup.bringup = true ∧ u.startup.running = false ∧ u.startup.done = [2, 3, 4, 5, 6, 7, 8, 9, 10] ∧ u.bar0.eventCause.getLsbD 2 = true)))

/-- R391, R395: what refuses a packet, in the order of the checks: a packet that is none is discarded and counted; a wrong version and a failed
authentication consume nothing; a stale serial is answered with HIGH; an executed one with its stored reply, or as a stale one where it has
left none, and executes nothing; an unassigned opcode and a class or transport not permitted consume the serial. SYS_RESET stands for every command.
The model's own choices in it: log 18, 46, 47. -/
def Sys2Proof.Claims.PacketChecksRefuseInOrder : Prop :=
  ∀ (s t : State) (x : Packet) (o : Origin),
  let k := pktOf x 0x0004 none
  let answerTo := toOf x 0x0004 o
  let i := t.issuer x.issuer.toNat
  let enabled := x.issuer.toNat ≤ 15 ∧ i.ctl.getLsbD 31 = true ∧ i.ctl.getLsbD o.transport = true
  let unsigned := x.sig = [] ∧ x.flags = 0 ∧ t.mustSign o = false
  s.takePacket x.via k.bytes = some (some o, t) → x.params.length ≤ o.plenLimit →
  (x.sig.length ≠ (if x.flags.getLsbD 5 then 64 else 0) ∨ x.flags.getLsbD 7 = true → givesSome (.sysReset x) s (fun u =>
    u.ycp = { t.ycp with discarded := t.ycp.discarded + 1 } ∧ u.sec = t.sec)) ∧
  (unsigned → ¬ enabled → ∃ w : State, exec (.sysReset x) s = .next (w.sendReply o (replyBytes answerTo false 0x200 0 [])).watch ∧ w.ycp = t.ycp) ∧
  (x.sig = [] → x.flags = 0 → enabled → t.mustSign o = true →
    ∃ w : State, exec (.sysReset x) s = .next (w.sendReply o (replyBytes answerTo false 0x200 0 [])).watch ∧ w.ycp = t.ycp) ∧
  (unsigned → enabled → (x.serial = 0 ∨ x.serial.toNat + 64 ≤ i.high) →
    exec (.sysReset x) s = .next (t.sendReply o (replyBytes answerTo false 0x102 0 (beBytes 8 i.high))).watch) ∧
  (∀ r, unsigned → enabled → x.serial ≠ 0 → i.high < x.serial.toNat + 64 → i.stored.find? (fun r => r.serial == x.serial.toNat) = some r →
    ∃ w : State, exec (.sysReset x) s = .next (w.sendReply o (replyBytes answerTo r.completion 3 r.status.toNat r.results)).watch ∧ w.ycp = t.ycp) ∧
  (unsigned → enabled → x.serial ≠ 0 → i.high < x.serial.toNat + 64 → (∀ r ∈ i.stored, r.serial ≠ x.serial.toNat) →
    x.serial.toNat ∈ i.executed →
    exec (.sysReset x) s = .next (t.sendReply o (replyBytes answerTo false 0x102 0 (beBytes 8 i.high))).watch) ∧
  (unsigned → enabled → x.serial ≠ 0 → i.high < x.serial.toNat + 64 → (∀ r ∈ i.stored, r.serial ≠ x.serial.toNat) → x.serial.toNat ∉ i.executed →
    (o ≠ .i2c → t.sec.recovery = false → i.ctl.getLsbD 0 = false → replies (.sysReset x) s answerTo 0x201 [] (fun u =>
      (u.issuer x.issuer.toNat).high = max i.high x.serial.toNat ∧ u.ycp.resetDue = t.ycp.resetDue)) ∧
    (o ≠ .i2c → t.sec.recovery = false → i.ctl.getLsbD 0 = true → x.rsvd ≠ 0 → replies (.sysReset x) s answerTo 0x101 [] (fun u =>
      (u.issuer x.issuer.toNat).high = max i.high x.serial.toNat ∧ u.ycp.resetDue = t.ycp.resetDue)) ∧
    (o = .i2c → replies (.sysReset x) s answerTo 0x201 [] (fun u =>
      (u.issuer x.issuer.toNat).high = max i.high x.serial.toNat ∧ u.ycp.resetDue = t.ycp.resetDue)))

/-- R391: a packet that no command's row carries is taken and refused all the same: bytes that are no packet are discarded and counted, and an
unassigned opcode is refused with its serial consumed. -/
def Sys2Proof.Claims.MalformedPacketsAreCountedOrRefused : Prop :=
  (∀ (s t : State) (via : Via) (o : Origin) (l : List Byte), l.length < 24 → s.takePacket via l = some (some o, t) →
    givesSome (.malformedPacket via l) s (fun u => u.ycp = { t.ycp with discarded := t.ycp.discarded + 1 } ∧ u.sec = t.sec ∧ u.live = t.live)) ∧
  (∀ (s : State) (via : Via) (l : List Byte), l.length < 24 → s.takePacket via l = none → gives (.malformedPacket via l) s s) ∧
  (∀ (s t : State) (via : Via) (o : Origin) (k : Pkt), parsePkt k.bytes = some k → k.version = 1 → (∀ e ∈ opcodes, e.1 ≠ k.op) →
    s.takePacket via k.bytes = some (some o, t) → t.verdict o k = .proceed →
    replies (.malformedPacket via k.bytes) s { version := 1, origin := o, opcode := k.op, tag := k.tag, issuer := k.issuer, serial := k.serial } 0x100 []
      (fun u => (u.issuer k.issuer).high = max (t.issuer k.issuer).high k.serial ∧ u.sec = t.sec ∧ u.live = t.live))

/-- Packets the Steward refuses. -/
def Obligations.RefusedPacketsInOrder : Prop := Claims.PacketChecksRefuseInOrder ∧ Claims.MalformedPacketsAreCountedOrRefused


/-! ### Reset, the passing of time, and an invariant of every step -/

namespace Sys2Proof.Claims

/-- Every threshold slot has seen its occupancy as it now stands, and its PEAK is no less (R461). -/
def watched (s : State) : Prop := ∀ e ∈ s.obs.thresh,
  e.2.last = s.occupancy (bits e.2.occupancy.toNat 31 24) (bits e.2.occupancy.toNat 23 0) ∧ e.2.last ≤ e.2.peak

/-- The byte memories of the Table Store, of the packet cells and of device DRAM are in canonical form: addresses rise strictly and no
byte that an unlisted address reads as is listed. -/
def memoriesCanonical (s : State) : Prop :=
  Memory.wf s.tables.rows = true ∧ Memory.wf s.pools.cells = true ∧ Memory.wf s.dram.data = true

end Sys2Proof.Claims

/-- R461: whatever a step does, every threshold slot has compared itself with the occupancy that the step left, and PEAK has followed it. -/
def Obligations.EveryStepWatchesItsThresholds : Prop :=
  ∀ s t : State, watched s → step s = .next t → watched t

/-- Whatever a step does, it leaves the memories in canonical form: equal contents stay equal data (the form is the model's own). -/
def Obligations.EveryStepKeepsMemoriesCanonical : Prop :=
  ∀ s t : State, memoriesCanonical s → step s = .next t → memoriesCanonical t

/-- What reset leaves: every island in reset with RESET_N asserted, no message on its way, registers and parameters at their reset values, and the
threshold slots watched. That the supplies stand with PWR_GOOD high at reset, that the queue is empty, and zero for the BAR0 registers to which
no map gives a value, are the model's own choices: log 37, 38, 21. -/
def Obligations.ResetLeavesTheSpecsValues : Prop :=
  let s := State.reset
  watched s ∧ memoriesCanonical s ∧ s.pending = [] ∧ s.net = [] ∧ s.deviceState = .reset ∧ s.startup = {} ∧ s.pins.pwrGood = true ∧ s.pins.resetN = false
    ∧ (∀ i, i < 53 → s.inReset i = true ∧ (s.isl i).peak = 0x80 ∧ (s.isl i).limit = 0x69)
    ∧ s.param 0x00 = 256 ∧ s.param 0x01 = 10000 ∧ s.param 0x02 = 100000 ∧ s.param 0x03 = 4 ∧ s.param 0x04 = 1000 ∧ s.param 0x05 = 1000
    ∧ s.param 0x06 = 262144 ∧ s.param 0x07 = 256 ∧ s.param 0x0B = 39 ∧ s.param 0x0D = 2000 ∧ s.param 0x11 = 4 ∧ s.param 0x18 = 0x4E59
    ∧ (∀ i, i < 40 → s.obj 0x12 i = BitVec.ofNat 384 (0xFAC688 * 2 ^ 40) ∧ s.obj 0x16 i = BitVec.ofNat 384 (0x40 * 2 ^ 48))
    ∧ s.obj 0xB0 0x2D02 = 0x2400 ∧ s.faults = {} ∧ s.accord.live = false ∧ s.ycp.up = false ∧ s.bar0 = {}

/-- The model's choice for an empty queue (log 38): outside RUNNING nothing changes, and in RUNNING one nanosecond passes at the trimmed rate,
after which a DEBUG operation that waits is tried again (R467). -/
def Obligations.IdleStepsLetTimePass : Prop :=
  ∀ s : State, s.pending = [] →
    (s.deviceState ≠ .running → step s = .next s) ∧
    (s.deviceState = .running → ∃ u : State, step s = .next (State.watch u.debugWaits) ∧ u.obs.dbgWait = s.obs.dbgWait
      ∧ u.pending = [] ∧ u.seq = s.seq ∧ u.ports = s.ports ∧ u.time = s.time.tick) ∧
    (s.deviceState = .running → s.obs.dbgWait = none → ∃ u, step s = .next u ∧ u.pending = [] ∧ u.seq = s.seq ∧ u.ports = s.ports ∧ u.accord = s.accord ∧ u.sec = s.sec
      ∧ u.time.trim = s.time.trim
      ∧ (-(2 ^ 32 : Int) < s.time.trim → u.time.ns.toNat * 2 ^ 32 + u.time.frac.toNat
          = ((s.time.ns.toNat * 2 ^ 32 + s.time.frac.toNat : Nat) + (2 ^ 32 + s.time.trim).toNat) % 2 ^ 96))
end

