-- ==== Sys2Proof/Laws/Store.lean ====
section
/-! SUPPORT. Sparse stores and byte memories: reading after writing, and that every operation keeps the canonical form. -/

namespace Sys2Proof.Machine

variable {α : Type}

/-! ### Reading after writing -/

@[simp] theorem Store.get_nil (d : α) (n : Nat) : Store.get d [] n = d := rfl

theorem Store.get_cons (d : α) (k n : Nat) (v : α) (t : Store α) :
    Store.get d ((k, v) :: t) n = if k = n then v else Store.get d t n := rfl

theorem Store.get_erase_same (d : α) (m : Store α) (n : Nat) : Store.get d (Store.erase m n) n = d := by
  induction m with
  | nil => rfl
  | cons e t ih =>
    obtain ⟨k, v⟩ := e
    by_cases h : k = n
    · subst h; simpa [Store.erase] using ih
    · have : Store.erase ((k, v) :: t) n = (k, v) :: Store.erase t n := by simp [Store.erase, h]
      rw [this, Store.get_cons, if_neg h, ih]

theorem Store.get_erase_other (d : α) (m : Store α) {n k : Nat} (h : k ≠ n) :
    Store.get d (Store.erase m n) k = Store.get d m k := by
  induction m with
  | nil => rfl
  | cons e t ih =>
    obtain ⟨j, v⟩ := e
    by_cases hj : j = n
    · subst hj
      have : Store.erase ((j, v) :: t) j = Store.erase t j := by simp [Store.erase]
      rw [this, ih, Store.get_cons, if_neg (Ne.symm h)]
    · have : Store.erase ((j, v) :: t) n = (j, v) :: Store.erase t n := by simp [Store.erase, hj]
      rw [this, Store.get_cons, Store.get_cons, ih]

theorem Store.get_insert_other (d : α) (m : Store α) {n k : Nat} (v : α) (h : k ≠ n) :
    Store.get d (Store.insert n v m) k = Store.get d m k := by
  induction m with
  | nil => simp [Store.insert, Store.get_cons, Ne.symm h]
  | cons e t ih =>
    obtain ⟨j, w⟩ := e
    by_cases hj : n < j
    · simp [Store.insert, hj, Store.get_cons, Ne.symm h]
    · simp [Store.insert, hj, Store.get_cons, ih]

theorem Store.get_insert_same (d : α) (m : Store α) (n : Nat) (v : α) (h : ∀ e ∈ m, e.1 ≠ n) :
    Store.get d (Store.insert n v m) n = v := by
  induction m with
  | nil => simp [Store.insert, Store.get_cons]
  | cons e t ih =>
    obtain ⟨j, w⟩ := e
    have hj : j ≠ n := h (j, w) (by simp)
    by_cases hl : n < j
    · simp [Store.insert, hl, Store.get_cons]
    · simpa [Store.insert, hl, Store.get_cons, hj] using ih (fun e he => h e (by simp [he]))

theorem Store.erase_key_ne (m : Store α) (n : Nat) : ∀ e ∈ Store.erase m n, e.1 ≠ n := by
  intro e he
  simpa using (List.mem_filter.1 he).2

@[simp] theorem Store.get_set_same [DecidableEq α] (d : α) (m : Store α) (n : Nat) (v : α) :
    Store.get d (Store.set d m n v) n = v := by
  by_cases h : v = d
  · subst h; simp [Store.set, Store.get_erase_same]
  · simp [Store.set, h, Store.get_insert_same d _ n v (Store.erase_key_ne m n)]

theorem Store.get_set_other [DecidableEq α] (d : α) (m : Store α) {n k : Nat} (v : α) (h : k ≠ n) :
    Store.get d (Store.set d m n v) k = Store.get d m k := by
  by_cases hv : v = d
  · simp [Store.set, hv, Store.get_erase_other d m h]
  · simp [Store.set, hv, Store.get_insert_other d _ v h, Store.get_erase_other d m h]

theorem Store.get_set [DecidableEq α] (d : α) (m : Store α) (n k : Nat) (v : α) :
    Store.get d (Store.set d m n v) k = if k = n then v else Store.get d m k := by
  by_cases h : k = n
  · subst h; simp
  · simp [h, Store.get_set_other d m v h]

theorem Store.get_modify [DecidableEq α] (d : α) (m : Store α) (n k : Nat) (f : α → α) :
    Store.get d (Store.modify d m n f) k = if k = n then f (Store.get d m n) else Store.get d m k :=
  Store.get_set d m n k _

@[simp] theorem Store.get_modify_same [DecidableEq α] (d : α) (m : Store α) (n : Nat) (f : α → α) :
    Store.get d (Store.modify d m n f) n = f (Store.get d m n) := by simp [Store.modify]

/-- A store whose default depends on the key, read at another key than the one written. -/
theorem Store.get_modify_otherDefault [DecidableEq α] {d e : α} {m : Store α} (v : α) {n k : Nat} (h : k ≠ n) :
    Store.get d (Store.set e m n v) k = Store.get d m k := by
  by_cases hv : v = e
  · simp [Store.set, hv, Store.get_erase_other d m h]
  · simp [Store.set, hv, Store.get_insert_other d _ v h, Store.get_erase_other d m h]

/-! ### The canonical form -/

/-- Keys rise strictly. -/
abbrev Store.rising (m : Store α) : Prop := (m.map Prod.fst).Pairwise (· < ·)

theorem Store.wf_iff [DecidableEq α] (d : α) (m : Store α) :
    Store.wf d m = true ↔ Store.rising m ∧ ∀ e ∈ m, e.2 ≠ d := by
  simp [Store.wf, Store.rising]

theorem Store.rising_erase {m : Store α} (h : Store.rising m) (n : Nat) : Store.rising (Store.erase m n) :=
  h.sublist ((List.filter_sublist (l := m)).map Prod.fst)

theorem Store.mem_insert {n : Nat} {v : α} {m : Store α} {e : Nat × α} (h : e ∈ Store.insert n v m) :
    e = (n, v) ∨ e ∈ m := by
  induction m with
  | nil => simpa [Store.insert] using h
  | cons x t ih =>
    obtain ⟨k, w⟩ := x
    by_cases hk : n < k
    · simpa [Store.insert, hk] using h
    · simp only [Store.insert, hk, if_false, List.mem_cons] at h
      rcases h with h | h
      · exact .inr (by simp [h])
      · rcases ih h with h | h
        · exact .inl h
        · exact .inr (by simp [h])

theorem Store.rising_insert {m : Store α} (h : Store.rising m) (n : Nat) (v : α) (hn : ∀ e ∈ m, e.1 ≠ n) :
    Store.rising (Store.insert n v m) := by
  induction m with
  | nil => simp [Store.insert, Store.rising]
  | cons x t ih =>
    obtain ⟨k, w⟩ := x
    have ht : Store.rising t := (List.pairwise_cons.1 h).2
    have hk : ∀ j ∈ t.map Prod.fst, k < j := (List.pairwise_cons.1 h).1
    by_cases hl : n < k
    · simp only [Store.insert, hl, if_true]
      refine List.pairwise_cons.2 ⟨?_, h⟩
      intro j hj
      rcases List.mem_cons.1 hj with h1 | h1
      · simpa [h1] using hl
      · exact lt_trans hl (hk j h1)
    · simp only [Store.insert, hl, if_false]
      refine List.pairwise_cons.2 ⟨?_, ih ht (fun e he => hn e (by simp [he]))⟩
      intro j hj
      obtain ⟨e, he, rfl⟩ := List.mem_map.1 hj
      rcases Store.mem_insert he with h1 | h1
      · have : k ≠ n := hn (k, w) (by simp)
        subst h1; simp; omega
      · exact hk _ (List.mem_map_of_mem h1)

theorem Store.wf_erase [DecidableEq α] {d : α} {m : Store α} (h : Store.wf d m = true) (n : Nat) :
    Store.wf d (Store.erase m n) = true := by
  rw [Store.wf_iff] at h ⊢
  exact ⟨Store.rising_erase h.1 n, fun e he => h.2 e (List.mem_filter.1 he).1⟩

/-- A write keeps the canonical form. -/
theorem Store.wf_set [DecidableEq α] {d : α} {m : Store α} (h : Store.wf d m = true) (n : Nat) (v : α) :
    Store.wf d (Store.set d m n v) = true := by
  by_cases hv : v = d
  · simpa [Store.set, hv] using Store.wf_erase h n
  · have he := Store.wf_erase h n
    rw [Store.wf_iff] at he ⊢
    simp only [Store.set, hv, if_false]
    refine ⟨Store.rising_insert he.1 n v (Store.erase_key_ne m n), ?_⟩
    intro e hm
    rcases Store.mem_insert hm with h1 | h1
    · simpa [h1] using hv
    · exact he.2 e h1

theorem Store.wf_modify [DecidableEq α] {d : α} {m : Store α} (h : Store.wf d m = true) (n : Nat) (f : α → α) :
    Store.wf d (Store.modify d m n f) = true := Store.wf_set h n _

/-! ### Byte memories -/

@[simp] theorem mget_mput_same (m : Mem) (a : Nat) (b : Byte) : mget (mput m a b) a = b := Store.get_set_same 0 m a b

theorem mget_mput_other (m : Mem) {a k : Nat} (b : Byte) (h : k ≠ a) : mget (mput m a b) k = mget m k :=
  Store.get_set_other 0 m b h

theorem Memory.wf_mput {m : Mem} (h : Memory.wf m = true) (a : Nat) (b : Byte) : Memory.wf (mput m a b) = true := Store.wf_set h a b

/-- A write of several bytes keeps the canonical form. -/
theorem Memory.wf_mwrite (l : List Byte) : ∀ {m : Mem} (a : Nat), Memory.wf m = true → Memory.wf (mwrite m a l) = true := by
  induction l with
  | nil => intro m a h; exact h
  | cons b t ih => intro m a h; exact ih (a + 1) (Memory.wf_mput h a b)

theorem Memory.wf_mclear {m : Mem} (h : Memory.wf m = true) (a n : Nat) : Memory.wf (mclear m a n) = true := by
  rw [Memory.wf, Store.wf_iff] at h ⊢
  exact ⟨h.1.sublist ((List.filter_sublist (l := m)).map Prod.fst), fun e he => h.2 e (List.mem_filter.1 he).1⟩

/-- Bytes outside the ones written read as before. -/
theorem mget_mwrite_outside (l : List Byte) : ∀ (m : Mem) (a k : Nat), k < a ∨ a + l.length ≤ k → mget (mwrite m a l) k = mget m k := by
  induction l with
  | nil => intro m a k _; rfl
  | cons b t ih =>
    intro m a k h
    have h1 : k ≠ a := by simp at h; omega
    rw [mwrite, ih (mput m a b) (a + 1) k (by simp at h; omega), mget_mput_other m b h1]

/-- A byte written reads as what was written. -/
theorem mget_mwrite_inside (l : List Byte) : ∀ (m : Mem) (a i : Nat), i < l.length → mget (mwrite m a l) (a + i) = l.getD i 0 := by
  induction l with
  | nil => intro m a i h; simp at h
  | cons b t ih =>
    intro m a i h
    cases i with
    | zero => rw [mwrite, mget_mwrite_outside t _ _ _ (by omega)]; simp
    | succ j =>
      have := ih (mput m a b) (a + 1) j (by simpa using h)
      rw [mwrite, show a + (j + 1) = a + 1 + j by omega, this]; simp

/-! `sortBy` -/

theorem mem_placeBy {β : Type} (le : β → β → Bool) (x y : β) (l : List β) : y ∈ placeBy le x l ↔ y = x ∨ y ∈ l := by
  induction l with
  | nil => simp [placeBy]
  | cons z t ih =>
    unfold placeBy
    split
    · simp
    · simp only [List.mem_cons, ih]; tauto

/-- Ordering a list keeps its elements. -/
@[simp] theorem mem_sortBy {β : Type} (le : β → β → Bool) (y : β) (l : List β) : y ∈ sortBy le l ↔ y ∈ l := by
  induction l with
  | nil => simp [sortBy]
  | cons z t ih =>
    rw [show sortBy le (z :: t) = placeBy le z (sortBy le t) from rfl, mem_placeBy, ih, List.mem_cons]

@[simp] theorem sortBy_nil {β : Type} (le : β → β → Bool) : sortBy le ([] : List β) = [] := rfl
@[simp] theorem sortBy_single {β : Type} (le : β → β → Bool) (x : β) : sortBy le [x] = [x] := rfl

end Sys2Proof.Machine
end

