-- ==== Sys2Proof/Laws/State.lean ====
section
/-! SUPPORT. What each named update of the state leaves as it was, field by field, and what each accessor reads after it. -/

namespace Sys2Proof.Machine

/-- A fold keeps what each of its steps keeps. -/
theorem foldl_keeps {α β γ : Type} (g : β → γ) (f : β → α → β) (h : ∀ b a, g (f b a) = g b) (l : List α) (b : β) :
    g (l.foldl f b) = g b := by
  induction l generalizing b with
  | nil => rfl
  | cons a l ih => rw [List.foldl_cons, ih, h]

/-! `modCl` -/
@[simp] theorem State.modCl_pending (s : State) (c : Nat) (f : Cluster → Cluster) : (s.modCl c f).pending = s.pending := rfl
@[simp] theorem State.modCl_time (s : State) (c : Nat) (f : Cluster → Cluster) : (s.modCl c f).time = s.time := rfl
@[simp] theorem State.modCl_net (s : State) (c : Nat) (f : Cluster → Cluster) : (s.modCl c f).net = s.net := rfl
@[simp] theorem State.modCl_nextId (s : State) (c : Nat) (f : Cluster → Cluster) : (s.modCl c f).nextId = s.nextId := rfl
@[simp] theorem State.modCl_fresh (s : State) (c : Nat) (f : Cluster → Cluster) : (s.modCl c f).fresh = s.fresh := rfl
@[simp] theorem State.modCl_live (s : State) (c : Nat) (f : Cluster → Cluster) : (s.modCl c f).live = s.live := rfl
@[simp] theorem State.modCl_faults (s : State) (c : Nat) (f : Cluster → Cluster) : (s.modCl c f).faults = s.faults := rfl
@[simp] theorem State.modCl_ycp (s : State) (c : Nat) (f : Cluster → Cluster) : (s.modCl c f).ycp = s.ycp := rfl
@[simp] theorem State.modCl_bar0 (s : State) (c : Nat) (f : Cluster → Cluster) : (s.modCl c f).bar0 = s.bar0 := rfl
@[simp] theorem State.modCl_ports (s : State) (c : Nat) (f : Cluster → Cluster) : (s.modCl c f).ports = s.ports := rfl
@[simp] theorem State.modCl_slices (s : State) (c : Nat) (f : Cluster → Cluster) : (s.modCl c f).slices = s.slices := rfl
@[simp] theorem State.modCl_seq (s : State) (c : Nat) (f : Cluster → Cluster) : (s.modCl c f).seq = s.seq := rfl
@[simp] theorem State.modCl_tables (s : State) (c : Nat) (f : Cluster → Cluster) : (s.modCl c f).tables = s.tables := rfl
@[simp] theorem State.modCl_tasks (s : State) (c : Nat) (f : Cluster → Cluster) : (s.modCl c f).tasks = s.tasks := rfl
@[simp] theorem State.modCl_pools (s : State) (c : Nat) (f : Cluster → Cluster) : (s.modCl c f).pools = s.pools := rfl
@[simp] theorem State.modCl_qm (s : State) (c : Nat) (f : Cluster → Cluster) : (s.modCl c f).qm = s.qm := rfl
@[simp] theorem State.modCl_dram (s : State) (c : Nat) (f : Cluster → Cluster) : (s.modCl c f).dram = s.dram := rfl
@[simp] theorem State.modCl_accord (s : State) (c : Nat) (f : Cluster → Cluster) : (s.modCl c f).accord = s.accord := rfl
@[simp] theorem State.modCl_scrub (s : State) (c : Nat) (f : Cluster → Cluster) : (s.modCl c f).scrub = s.scrub := rfl
@[simp] theorem State.modCl_sec (s : State) (c : Nat) (f : Cluster → Cluster) : (s.modCl c f).sec = s.sec := rfl
@[simp] theorem State.modCl_obs (s : State) (c : Nat) (f : Cluster → Cluster) : (s.modCl c f).obs = s.obs := rfl
@[simp] theorem State.modCl_power (s : State) (c : Nat) (f : Cluster → Cluster) : (s.modCl c f).power = s.power := rfl
@[simp] theorem State.modCl_pins (s : State) (c : Nat) (f : Cluster → Cluster) : (s.modCl c f).pins = s.pins := rfl
@[simp] theorem State.modCl_startup (s : State) (c : Nat) (f : Cluster → Cluster) : (s.modCl c f).startup = s.startup := rfl
@[simp] theorem State.modCl_out (s : State) (c : Nat) (f : Cluster → Cluster) : (s.modCl c f).out = s.out := rfl
/-! `modTh` -/
@[simp] theorem State.modTh_pending (s : State) (t : Nat) (f : Thread → Thread) : (s.modTh t f).pending = s.pending := rfl
@[simp] theorem State.modTh_time (s : State) (t : Nat) (f : Thread → Thread) : (s.modTh t f).time = s.time := rfl
@[simp] theorem State.modTh_net (s : State) (t : Nat) (f : Thread → Thread) : (s.modTh t f).net = s.net := rfl
@[simp] theorem State.modTh_nextId (s : State) (t : Nat) (f : Thread → Thread) : (s.modTh t f).nextId = s.nextId := rfl
@[simp] theorem State.modTh_fresh (s : State) (t : Nat) (f : Thread → Thread) : (s.modTh t f).fresh = s.fresh := rfl
@[simp] theorem State.modTh_live (s : State) (t : Nat) (f : Thread → Thread) : (s.modTh t f).live = s.live := rfl
@[simp] theorem State.modTh_faults (s : State) (t : Nat) (f : Thread → Thread) : (s.modTh t f).faults = s.faults := rfl
@[simp] theorem State.modTh_ycp (s : State) (t : Nat) (f : Thread → Thread) : (s.modTh t f).ycp = s.ycp := rfl
@[simp] theorem State.modTh_bar0 (s : State) (t : Nat) (f : Thread → Thread) : (s.modTh t f).bar0 = s.bar0 := rfl
@[simp] theorem State.modTh_ports (s : State) (t : Nat) (f : Thread → Thread) : (s.modTh t f).ports = s.ports := rfl
@[simp] theorem State.modTh_slices (s : State) (t : Nat) (f : Thread → Thread) : (s.modTh t f).slices = s.slices := rfl
@[simp] theorem State.modTh_seq (s : State) (t : Nat) (f : Thread → Thread) : (s.modTh t f).seq = s.seq := rfl
@[simp] theorem State.modTh_tables (s : State) (t : Nat) (f : Thread → Thread) : (s.modTh t f).tables = s.tables := rfl
@[simp] theorem State.modTh_tasks (s : State) (t : Nat) (f : Thread → Thread) : (s.modTh t f).tasks = s.tasks := rfl
@[simp] theorem State.modTh_pools (s : State) (t : Nat) (f : Thread → Thread) : (s.modTh t f).pools = s.pools := rfl
@[simp] theorem State.modTh_qm (s : State) (t : Nat) (f : Thread → Thread) : (s.modTh t f).qm = s.qm := rfl
@[simp] theorem State.modTh_dram (s : State) (t : Nat) (f : Thread → Thread) : (s.modTh t f).dram = s.dram := rfl
@[simp] theorem State.modTh_accord (s : State) (t : Nat) (f : Thread → Thread) : (s.modTh t f).accord = s.accord := rfl
@[simp] theorem State.modTh_scrub (s : State) (t : Nat) (f : Thread → Thread) : (s.modTh t f).scrub = s.scrub := rfl
@[simp] theorem State.modTh_sec (s : State) (t : Nat) (f : Thread → Thread) : (s.modTh t f).sec = s.sec := rfl
@[simp] theorem State.modTh_obs (s : State) (t : Nat) (f : Thread → Thread) : (s.modTh t f).obs = s.obs := rfl
@[simp] theorem State.modTh_power (s : State) (t : Nat) (f : Thread → Thread) : (s.modTh t f).power = s.power := rfl
@[simp] theorem State.modTh_pins (s : State) (t : Nat) (f : Thread → Thread) : (s.modTh t f).pins = s.pins := rfl
@[simp] theorem State.modTh_startup (s : State) (t : Nat) (f : Thread → Thread) : (s.modTh t f).startup = s.startup := rfl
@[simp] theorem State.modTh_out (s : State) (t : Nat) (f : Thread → Thread) : (s.modTh t f).out = s.out := rfl
/-! `modIsl` -/
@[simp] theorem State.modIsl_pending (s : State) (i : Nat) (f : Island → Island) : (s.modIsl i f).pending = s.pending := rfl
@[simp] theorem State.modIsl_time (s : State) (i : Nat) (f : Island → Island) : (s.modIsl i f).time = s.time := rfl
@[simp] theorem State.modIsl_net (s : State) (i : Nat) (f : Island → Island) : (s.modIsl i f).net = s.net := rfl
@[simp] theorem State.modIsl_nextId (s : State) (i : Nat) (f : Island → Island) : (s.modIsl i f).nextId = s.nextId := rfl
@[simp] theorem State.modIsl_fresh (s : State) (i : Nat) (f : Island → Island) : (s.modIsl i f).fresh = s.fresh := rfl
@[simp] theorem State.modIsl_live (s : State) (i : Nat) (f : Island → Island) : (s.modIsl i f).live = s.live := rfl
@[simp] theorem State.modIsl_faults (s : State) (i : Nat) (f : Island → Island) : (s.modIsl i f).faults = s.faults := rfl
@[simp] theorem State.modIsl_ycp (s : State) (i : Nat) (f : Island → Island) : (s.modIsl i f).ycp = s.ycp := rfl
@[simp] theorem State.modIsl_bar0 (s : State) (i : Nat) (f : Island → Island) : (s.modIsl i f).bar0 = s.bar0 := rfl
@[simp] theorem State.modIsl_ports (s : State) (i : Nat) (f : Island → Island) : (s.modIsl i f).ports = s.ports := rfl
@[simp] theorem State.modIsl_slices (s : State) (i : Nat) (f : Island → Island) : (s.modIsl i f).slices = s.slices := rfl
@[simp] theorem State.modIsl_seq (s : State) (i : Nat) (f : Island → Island) : (s.modIsl i f).seq = s.seq := rfl
@[simp] theorem State.modIsl_clusters (s : State) (i : Nat) (f : Island → Island) : (s.modIsl i f).clusters = s.clusters := rfl
@[simp] theorem State.modIsl_tables (s : State) (i : Nat) (f : Island → Island) : (s.modIsl i f).tables = s.tables := rfl
@[simp] theorem State.modIsl_tasks (s : State) (i : Nat) (f : Island → Island) : (s.modIsl i f).tasks = s.tasks := rfl
@[simp] theorem State.modIsl_pools (s : State) (i : Nat) (f : Island → Island) : (s.modIsl i f).pools = s.pools := rfl
@[simp] theorem State.modIsl_qm (s : State) (i : Nat) (f : Island → Island) : (s.modIsl i f).qm = s.qm := rfl
@[simp] theorem State.modIsl_dram (s : State) (i : Nat) (f : Island → Island) : (s.modIsl i f).dram = s.dram := rfl
@[simp] theorem State.modIsl_accord (s : State) (i : Nat) (f : Island → Island) : (s.modIsl i f).accord = s.accord := rfl
@[simp] theorem State.modIsl_scrub (s : State) (i : Nat) (f : Island → Island) : (s.modIsl i f).scrub = s.scrub := rfl
@[simp] theorem State.modIsl_sec (s : State) (i : Nat) (f : Island → Island) : (s.modIsl i f).sec = s.sec := rfl
@[simp] theorem State.modIsl_obs (s : State) (i : Nat) (f : Island → Island) : (s.modIsl i f).obs = s.obs := rfl
@[simp] theorem State.modIsl_pins (s : State) (i : Nat) (f : Island → Island) : (s.modIsl i f).pins = s.pins := rfl
@[simp] theorem State.modIsl_startup (s : State) (i : Nat) (f : Island → Island) : (s.modIsl i f).startup = s.startup := rfl
@[simp] theorem State.modIsl_out (s : State) (i : Nat) (f : Island → Island) : (s.modIsl i f).out = s.out := rfl
/-! `modSlc` -/
@[simp] theorem State.modSlc_pending (s : State) (i : Nat) (f : Slice → Slice) : (s.modSlc i f).pending = s.pending := rfl
@[simp] theorem State.modSlc_time (s : State) (i : Nat) (f : Slice → Slice) : (s.modSlc i f).time = s.time := rfl
@[simp] theorem State.modSlc_net (s : State) (i : Nat) (f : Slice → Slice) : (s.modSlc i f).net = s.net := rfl
@[simp] theorem State.modSlc_nextId (s : State) (i : Nat) (f : Slice → Slice) : (s.modSlc i f).nextId = s.nextId := rfl
@[simp] theorem State.modSlc_fresh (s : State) (i : Nat) (f : Slice → Slice) : (s.modSlc i f).fresh = s.fresh := rfl
@[simp] theorem State.modSlc_live (s : State) (i : Nat) (f : Slice → Slice) : (s.modSlc i f).live = s.live := rfl
@[simp] theorem State.modSlc_faults (s : State) (i : Nat) (f : Slice → Slice) : (s.modSlc i f).faults = s.faults := rfl
@[simp] theorem State.modSlc_ycp (s : State) (i : Nat) (f : Slice → Slice) : (s.modSlc i f).ycp = s.ycp := rfl
@[simp] theorem State.modSlc_bar0 (s : State) (i : Nat) (f : Slice → Slice) : (s.modSlc i f).bar0 = s.bar0 := rfl
@[simp] theorem State.modSlc_ports (s : State) (i : Nat) (f : Slice → Slice) : (s.modSlc i f).ports = s.ports := rfl
@[simp] theorem State.modSlc_seq (s : State) (i : Nat) (f : Slice → Slice) : (s.modSlc i f).seq = s.seq := rfl
@[simp] theorem State.modSlc_clusters (s : State) (i : Nat) (f : Slice → Slice) : (s.modSlc i f).clusters = s.clusters := rfl
@[simp] theorem State.modSlc_tables (s : State) (i : Nat) (f : Slice → Slice) : (s.modSlc i f).tables = s.tables := rfl
@[simp] theorem State.modSlc_tasks (s : State) (i : Nat) (f : Slice → Slice) : (s.modSlc i f).tasks = s.tasks := rfl
@[simp] theorem State.modSlc_pools (s : State) (i : Nat) (f : Slice → Slice) : (s.modSlc i f).pools = s.pools := rfl
@[simp] theorem State.modSlc_qm (s : State) (i : Nat) (f : Slice → Slice) : (s.modSlc i f).qm = s.qm := rfl
@[simp] theorem State.modSlc_dram (s : State) (i : Nat) (f : Slice → Slice) : (s.modSlc i f).dram = s.dram := rfl
@[simp] theorem State.modSlc_accord (s : State) (i : Nat) (f : Slice → Slice) : (s.modSlc i f).accord = s.accord := rfl
@[simp] theorem State.modSlc_scrub (s : State) (i : Nat) (f : Slice → Slice) : (s.modSlc i f).scrub = s.scrub := rfl
@[simp] theorem State.modSlc_sec (s : State) (i : Nat) (f : Slice → Slice) : (s.modSlc i f).sec = s.sec := rfl
@[simp] theorem State.modSlc_obs (s : State) (i : Nat) (f : Slice → Slice) : (s.modSlc i f).obs = s.obs := rfl
@[simp] theorem State.modSlc_power (s : State) (i : Nat) (f : Slice → Slice) : (s.modSlc i f).power = s.power := rfl
@[simp] theorem State.modSlc_pins (s : State) (i : Nat) (f : Slice → Slice) : (s.modSlc i f).pins = s.pins := rfl
@[simp] theorem State.modSlc_startup (s : State) (i : Nat) (f : Slice → Slice) : (s.modSlc i f).startup = s.startup := rfl
@[simp] theorem State.modSlc_out (s : State) (i : Nat) (f : Slice → Slice) : (s.modSlc i f).out = s.out := rfl
/-! `modRec` -/
@[simp] theorem State.modRec_pending (s : State) (r : Nat) (f : Rec → Rec) : (s.modRec r f).pending = s.pending := rfl
@[simp] theorem State.modRec_time (s : State) (r : Nat) (f : Rec → Rec) : (s.modRec r f).time = s.time := rfl
@[simp] theorem State.modRec_net (s : State) (r : Nat) (f : Rec → Rec) : (s.modRec r f).net = s.net := rfl
@[simp] theorem State.modRec_nextId (s : State) (r : Nat) (f : Rec → Rec) : (s.modRec r f).nextId = s.nextId := rfl
@[simp] theorem State.modRec_fresh (s : State) (r : Nat) (f : Rec → Rec) : (s.modRec r f).fresh = s.fresh := rfl
@[simp] theorem State.modRec_live (s : State) (r : Nat) (f : Rec → Rec) : (s.modRec r f).live = s.live := rfl
@[simp] theorem State.modRec_faults (s : State) (r : Nat) (f : Rec → Rec) : (s.modRec r f).faults = s.faults := rfl
@[simp] theorem State.modRec_ycp (s : State) (r : Nat) (f : Rec → Rec) : (s.modRec r f).ycp = s.ycp := rfl
@[simp] theorem State.modRec_bar0 (s : State) (r : Nat) (f : Rec → Rec) : (s.modRec r f).bar0 = s.bar0 := rfl
@[simp] theorem State.modRec_ports (s : State) (r : Nat) (f : Rec → Rec) : (s.modRec r f).ports = s.ports := rfl
@[simp] theorem State.modRec_slices (s : State) (r : Nat) (f : Rec → Rec) : (s.modRec r f).slices = s.slices := rfl
@[simp] theorem State.modRec_clusters (s : State) (r : Nat) (f : Rec → Rec) : (s.modRec r f).clusters = s.clusters := rfl
@[simp] theorem State.modRec_tables (s : State) (r : Nat) (f : Rec → Rec) : (s.modRec r f).tables = s.tables := rfl
@[simp] theorem State.modRec_tasks (s : State) (r : Nat) (f : Rec → Rec) : (s.modRec r f).tasks = s.tasks := rfl
@[simp] theorem State.modRec_pools (s : State) (r : Nat) (f : Rec → Rec) : (s.modRec r f).pools = s.pools := rfl
@[simp] theorem State.modRec_qm (s : State) (r : Nat) (f : Rec → Rec) : (s.modRec r f).qm = s.qm := rfl
@[simp] theorem State.modRec_dram (s : State) (r : Nat) (f : Rec → Rec) : (s.modRec r f).dram = s.dram := rfl
@[simp] theorem State.modRec_accord (s : State) (r : Nat) (f : Rec → Rec) : (s.modRec r f).accord = s.accord := rfl
@[simp] theorem State.modRec_scrub (s : State) (r : Nat) (f : Rec → Rec) : (s.modRec r f).scrub = s.scrub := rfl
@[simp] theorem State.modRec_sec (s : State) (r : Nat) (f : Rec → Rec) : (s.modRec r f).sec = s.sec := rfl
@[simp] theorem State.modRec_obs (s : State) (r : Nat) (f : Rec → Rec) : (s.modRec r f).obs = s.obs := rfl
@[simp] theorem State.modRec_power (s : State) (r : Nat) (f : Rec → Rec) : (s.modRec r f).power = s.power := rfl
@[simp] theorem State.modRec_pins (s : State) (r : Nat) (f : Rec → Rec) : (s.modRec r f).pins = s.pins := rfl
@[simp] theorem State.modRec_startup (s : State) (r : Nat) (f : Rec → Rec) : (s.modRec r f).startup = s.startup := rfl
@[simp] theorem State.modRec_out (s : State) (r : Nat) (f : Rec → Rec) : (s.modRec r f).out = s.out := rfl
/-! `modPort` -/
@[simp] theorem State.modPort_pending (s : State) (p : Nat) (f : Port → Port) : (s.modPort p f).pending = s.pending := rfl
@[simp] theorem State.modPort_time (s : State) (p : Nat) (f : Port → Port) : (s.modPort p f).time = s.time := rfl
@[simp] theorem State.modPort_net (s : State) (p : Nat) (f : Port → Port) : (s.modPort p f).net = s.net := rfl
@[simp] theorem State.modPort_nextId (s : State) (p : Nat) (f : Port → Port) : (s.modPort p f).nextId = s.nextId := rfl
@[simp] theorem State.modPort_fresh (s : State) (p : Nat) (f : Port → Port) : (s.modPort p f).fresh = s.fresh := rfl
@[simp] theorem State.modPort_live (s : State) (p : Nat) (f : Port → Port) : (s.modPort p f).live = s.live := rfl
@[simp] theorem State.modPort_faults (s : State) (p : Nat) (f : Port → Port) : (s.modPort p f).faults = s.faults := rfl
@[simp] theorem State.modPort_ycp (s : State) (p : Nat) (f : Port → Port) : (s.modPort p f).ycp = s.ycp := rfl
@[simp] theorem State.modPort_bar0 (s : State) (p : Nat) (f : Port → Port) : (s.modPort p f).bar0 = s.bar0 := rfl
@[simp] theorem State.modPort_slices (s : State) (p : Nat) (f : Port → Port) : (s.modPort p f).slices = s.slices := rfl
@[simp] theorem State.modPort_seq (s : State) (p : Nat) (f : Port → Port) : (s.modPort p f).seq = s.seq := rfl
@[simp] theorem State.modPort_clusters (s : State) (p : Nat) (f : Port → Port) : (s.modPort p f).clusters = s.clusters := rfl
@[simp] theorem State.modPort_tables (s : State) (p : Nat) (f : Port → Port) : (s.modPort p f).tables = s.tables := rfl
@[simp] theorem State.modPort_tasks (s : State) (p : Nat) (f : Port → Port) : (s.modPort p f).tasks = s.tasks := rfl
@[simp] theorem State.modPort_pools (s : State) (p : Nat) (f : Port → Port) : (s.modPort p f).pools = s.pools := rfl
@[simp] theorem State.modPort_qm (s : State) (p : Nat) (f : Port → Port) : (s.modPort p f).qm = s.qm := rfl
@[simp] theorem State.modPort_dram (s : State) (p : Nat) (f : Port → Port) : (s.modPort p f).dram = s.dram := rfl
@[simp] theorem State.modPort_accord (s : State) (p : Nat) (f : Port → Port) : (s.modPort p f).accord = s.accord := rfl
@[simp] theorem State.modPort_scrub (s : State) (p : Nat) (f : Port → Port) : (s.modPort p f).scrub = s.scrub := rfl
@[simp] theorem State.modPort_sec (s : State) (p : Nat) (f : Port → Port) : (s.modPort p f).sec = s.sec := rfl
@[simp] theorem State.modPort_obs (s : State) (p : Nat) (f : Port → Port) : (s.modPort p f).obs = s.obs := rfl
@[simp] theorem State.modPort_power (s : State) (p : Nat) (f : Port → Port) : (s.modPort p f).power = s.power := rfl
@[simp] theorem State.modPort_pins (s : State) (p : Nat) (f : Port → Port) : (s.modPort p f).pins = s.pins := rfl
@[simp] theorem State.modPort_startup (s : State) (p : Nat) (f : Port → Port) : (s.modPort p f).startup = s.startup := rfl
@[simp] theorem State.modPort_out (s : State) (p : Nat) (f : Port → Port) : (s.modPort p f).out = s.out := rfl
/-! `modLane` -/
@[simp] theorem State.modLane_pending (s : State) (l : Nat) (f : Lane → Lane) : (s.modLane l f).pending = s.pending := rfl
@[simp] theorem State.modLane_time (s : State) (l : Nat) (f : Lane → Lane) : (s.modLane l f).time = s.time := rfl
@[simp] theorem State.modLane_net (s : State) (l : Nat) (f : Lane → Lane) : (s.modLane l f).net = s.net := rfl
@[simp] theorem State.modLane_nextId (s : State) (l : Nat) (f : Lane → Lane) : (s.modLane l f).nextId = s.nextId := rfl
@[simp] theorem State.modLane_fresh (s : State) (l : Nat) (f : Lane → Lane) : (s.modLane l f).fresh = s.fresh := rfl
@[simp] theorem State.modLane_live (s : State) (l : Nat) (f : Lane → Lane) : (s.modLane l f).live = s.live := rfl
@[simp] theorem State.modLane_faults (s : State) (l : Nat) (f : Lane → Lane) : (s.modLane l f).faults = s.faults := rfl
@[simp] theorem State.modLane_ycp (s : State) (l : Nat) (f : Lane → Lane) : (s.modLane l f).ycp = s.ycp := rfl
@[simp] theorem State.modLane_bar0 (s : State) (l : Nat) (f : Lane → Lane) : (s.modLane l f).bar0 = s.bar0 := rfl
@[simp] theorem State.modLane_slices (s : State) (l : Nat) (f : Lane → Lane) : (s.modLane l f).slices = s.slices := rfl
@[simp] theorem State.modLane_seq (s : State) (l : Nat) (f : Lane → Lane) : (s.modLane l f).seq = s.seq := rfl
@[simp] theorem State.modLane_clusters (s : State) (l : Nat) (f : Lane → Lane) : (s.modLane l f).clusters = s.clusters := rfl
@[simp] theorem State.modLane_tables (s : State) (l : Nat) (f : Lane → Lane) : (s.modLane l f).tables = s.tables := rfl
@[simp] theorem State.modLane_tasks (s : State) (l : Nat) (f : Lane → Lane) : (s.modLane l f).tasks = s.tasks := rfl
@[simp] theorem State.modLane_pools (s : State) (l : Nat) (f : Lane → Lane) : (s.modLane l f).pools = s.pools := rfl
@[simp] theorem State.modLane_qm (s : State) (l : Nat) (f : Lane → Lane) : (s.modLane l f).qm = s.qm := rfl
@[simp] theorem State.modLane_dram (s : State) (l : Nat) (f : Lane → Lane) : (s.modLane l f).dram = s.dram := rfl
@[simp] theorem State.modLane_accord (s : State) (l : Nat) (f : Lane → Lane) : (s.modLane l f).accord = s.accord := rfl
@[simp] theorem State.modLane_scrub (s : State) (l : Nat) (f : Lane → Lane) : (s.modLane l f).scrub = s.scrub := rfl
@[simp] theorem State.modLane_sec (s : State) (l : Nat) (f : Lane → Lane) : (s.modLane l f).sec = s.sec := rfl
@[simp] theorem State.modLane_obs (s : State) (l : Nat) (f : Lane → Lane) : (s.modLane l f).obs = s.obs := rfl
@[simp] theorem State.modLane_power (s : State) (l : Nat) (f : Lane → Lane) : (s.modLane l f).power = s.power := rfl
@[simp] theorem State.modLane_pins (s : State) (l : Nat) (f : Lane → Lane) : (s.modLane l f).pins = s.pins := rfl
@[simp] theorem State.modLane_startup (s : State) (l : Nat) (f : Lane → Lane) : (s.modLane l f).startup = s.startup := rfl
@[simp] theorem State.modLane_out (s : State) (l : Nat) (f : Lane → Lane) : (s.modLane l f).out = s.out := rfl
/-! `modTask` -/
@[simp] theorem State.modTask_pending (s : State) (n : Nat) (f : Task → Task) : (s.modTask n f).pending = s.pending := rfl
@[simp] theorem State.modTask_time (s : State) (n : Nat) (f : Task → Task) : (s.modTask n f).time = s.time := rfl
@[simp] theorem State.modTask_net (s : State) (n : Nat) (f : Task → Task) : (s.modTask n f).net = s.net := rfl
@[simp] theorem State.modTask_nextId (s : State) (n : Nat) (f : Task → Task) : (s.modTask n f).nextId = s.nextId := rfl
@[simp] theorem State.modTask_fresh (s : State) (n : Nat) (f : Task → Task) : (s.modTask n f).fresh = s.fresh := rfl
@[simp] theorem State.modTask_live (s : State) (n : Nat) (f : Task → Task) : (s.modTask n f).live = s.live := rfl
@[simp] theorem State.modTask_faults (s : State) (n : Nat) (f : Task → Task) : (s.modTask n f).faults = s.faults := rfl
@[simp] theorem State.modTask_ycp (s : State) (n : Nat) (f : Task → Task) : (s.modTask n f).ycp = s.ycp := rfl
@[simp] theorem State.modTask_bar0 (s : State) (n : Nat) (f : Task → Task) : (s.modTask n f).bar0 = s.bar0 := rfl
@[simp] theorem State.modTask_ports (s : State) (n : Nat) (f : Task → Task) : (s.modTask n f).ports = s.ports := rfl
@[simp] theorem State.modTask_slices (s : State) (n : Nat) (f : Task → Task) : (s.modTask n f).slices = s.slices := rfl
@[simp] theorem State.modTask_seq (s : State) (n : Nat) (f : Task → Task) : (s.modTask n f).seq = s.seq := rfl
@[simp] theorem State.modTask_clusters (s : State) (n : Nat) (f : Task → Task) : (s.modTask n f).clusters = s.clusters := rfl
@[simp] theorem State.modTask_tables (s : State) (n : Nat) (f : Task → Task) : (s.modTask n f).tables = s.tables := rfl
@[simp] theorem State.modTask_pools (s : State) (n : Nat) (f : Task → Task) : (s.modTask n f).pools = s.pools := rfl
@[simp] theorem State.modTask_qm (s : State) (n : Nat) (f : Task → Task) : (s.modTask n f).qm = s.qm := rfl
@[simp] theorem State.modTask_dram (s : State) (n : Nat) (f : Task → Task) : (s.modTask n f).dram = s.dram := rfl
@[simp] theorem State.modTask_accord (s : State) (n : Nat) (f : Task → Task) : (s.modTask n f).accord = s.accord := rfl
@[simp] theorem State.modTask_scrub (s : State) (n : Nat) (f : Task → Task) : (s.modTask n f).scrub = s.scrub := rfl
@[simp] theorem State.modTask_sec (s : State) (n : Nat) (f : Task → Task) : (s.modTask n f).sec = s.sec := rfl
@[simp] theorem State.modTask_obs (s : State) (n : Nat) (f : Task → Task) : (s.modTask n f).obs = s.obs := rfl
@[simp] theorem State.modTask_power (s : State) (n : Nat) (f : Task → Task) : (s.modTask n f).power = s.power := rfl
@[simp] theorem State.modTask_pins (s : State) (n : Nat) (f : Task → Task) : (s.modTask n f).pins = s.pins := rfl
@[simp] theorem State.modTask_startup (s : State) (n : Nat) (f : Task → Task) : (s.modTask n f).startup = s.startup := rfl
@[simp] theorem State.modTask_out (s : State) (n : Nat) (f : Task → Task) : (s.modTask n f).out = s.out := rfl
/-! `modDesc` -/
@[simp] theorem State.modDesc_pending (s : State) (d : Nat) (f : Desc → Desc) : (s.modDesc d f).pending = s.pending := rfl
@[simp] theorem State.modDesc_time (s : State) (d : Nat) (f : Desc → Desc) : (s.modDesc d f).time = s.time := rfl
@[simp] theorem State.modDesc_net (s : State) (d : Nat) (f : Desc → Desc) : (s.modDesc d f).net = s.net := rfl
@[simp] theorem State.modDesc_nextId (s : State) (d : Nat) (f : Desc → Desc) : (s.modDesc d f).nextId = s.nextId := rfl
@[simp] theorem State.modDesc_fresh (s : State) (d : Nat) (f : Desc → Desc) : (s.modDesc d f).fresh = s.fresh := rfl
@[simp] theorem State.modDesc_live (s : State) (d : Nat) (f : Desc → Desc) : (s.modDesc d f).live = s.live := rfl
@[simp] theorem State.modDesc_faults (s : State) (d : Nat) (f : Desc → Desc) : (s.modDesc d f).faults = s.faults := rfl
@[simp] theorem State.modDesc_ycp (s : State) (d : Nat) (f : Desc → Desc) : (s.modDesc d f).ycp = s.ycp := rfl
@[simp] theorem State.modDesc_bar0 (s : State) (d : Nat) (f : Desc → Desc) : (s.modDesc d f).bar0 = s.bar0 := rfl
@[simp] theorem State.modDesc_ports (s : State) (d : Nat) (f : Desc → Desc) : (s.modDesc d f).ports = s.ports := rfl
@[simp] theorem State.modDesc_slices (s : State) (d : Nat) (f : Desc → Desc) : (s.modDesc d f).slices = s.slices := rfl
@[simp] theorem State.modDesc_seq (s : State) (d : Nat) (f : Desc → Desc) : (s.modDesc d f).seq = s.seq := rfl
@[simp] theorem State.modDesc_clusters (s : State) (d : Nat) (f : Desc → Desc) : (s.modDesc d f).clusters = s.clusters := rfl
@[simp] theorem State.modDesc_tables (s : State) (d : Nat) (f : Desc → Desc) : (s.modDesc d f).tables = s.tables := rfl
@[simp] theorem State.modDesc_tasks (s : State) (d : Nat) (f : Desc → Desc) : (s.modDesc d f).tasks = s.tasks := rfl
@[simp] theorem State.modDesc_qm (s : State) (d : Nat) (f : Desc → Desc) : (s.modDesc d f).qm = s.qm := rfl
@[simp] theorem State.modDesc_dram (s : State) (d : Nat) (f : Desc → Desc) : (s.modDesc d f).dram = s.dram := rfl
@[simp] theorem State.modDesc_accord (s : State) (d : Nat) (f : Desc → Desc) : (s.modDesc d f).accord = s.accord := rfl
@[simp] theorem State.modDesc_scrub (s : State) (d : Nat) (f : Desc → Desc) : (s.modDesc d f).scrub = s.scrub := rfl
@[simp] theorem State.modDesc_sec (s : State) (d : Nat) (f : Desc → Desc) : (s.modDesc d f).sec = s.sec := rfl
@[simp] theorem State.modDesc_obs (s : State) (d : Nat) (f : Desc → Desc) : (s.modDesc d f).obs = s.obs := rfl
@[simp] theorem State.modDesc_power (s : State) (d : Nat) (f : Desc → Desc) : (s.modDesc d f).power = s.power := rfl
@[simp] theorem State.modDesc_pins (s : State) (d : Nat) (f : Desc → Desc) : (s.modDesc d f).pins = s.pins := rfl
@[simp] theorem State.modDesc_startup (s : State) (d : Nat) (f : Desc → Desc) : (s.modDesc d f).startup = s.startup := rfl
@[simp] theorem State.modDesc_out (s : State) (d : Nat) (f : Desc → Desc) : (s.modDesc d f).out = s.out := rfl
/-! `modPool` -/
@[simp] theorem State.modPool_pending (s : State) (p : Nat) (f : Pool → Pool) : (s.modPool p f).pending = s.pending := rfl
@[simp] theorem State.modPool_time (s : State) (p : Nat) (f : Pool → Pool) : (s.modPool p f).time = s.time := rfl
@[simp] theorem State.modPool_net (s : State) (p : Nat) (f : Pool → Pool) : (s.modPool p f).net = s.net := rfl
@[simp] theorem State.modPool_nextId (s : State) (p : Nat) (f : Pool → Pool) : (s.modPool p f).nextId = s.nextId := rfl
@[simp] theorem State.modPool_fresh (s : State) (p : Nat) (f : Pool → Pool) : (s.modPool p f).fresh = s.fresh := rfl
@[simp] theorem State.modPool_live (s : State) (p : Nat) (f : Pool → Pool) : (s.modPool p f).live = s.live := rfl
@[simp] theorem State.modPool_faults (s : State) (p : Nat) (f : Pool → Pool) : (s.modPool p f).faults = s.faults := rfl
@[simp] theorem State.modPool_ycp (s : State) (p : Nat) (f : Pool → Pool) : (s.modPool p f).ycp = s.ycp := rfl
@[simp] theorem State.modPool_bar0 (s : State) (p : Nat) (f : Pool → Pool) : (s.modPool p f).bar0 = s.bar0 := rfl
@[simp] theorem State.modPool_ports (s : State) (p : Nat) (f : Pool → Pool) : (s.modPool p f).ports = s.ports := rfl
@[simp] theorem State.modPool_slices (s : State) (p : Nat) (f : Pool → Pool) : (s.modPool p f).slices = s.slices := rfl
@[simp] theorem State.modPool_seq (s : State) (p : Nat) (f : Pool → Pool) : (s.modPool p f).seq = s.seq := rfl
@[simp] theorem State.modPool_clusters (s : State) (p : Nat) (f : Pool → Pool) : (s.modPool p f).clusters = s.clusters := rfl
@[simp] theorem State.modPool_tables (s : State) (p : Nat) (f : Pool → Pool) : (s.modPool p f).tables = s.tables := rfl
@[simp] theorem State.modPool_tasks (s : State) (p : Nat) (f : Pool → Pool) : (s.modPool p f).tasks = s.tasks := rfl
@[simp] theorem State.modPool_qm (s : State) (p : Nat) (f : Pool → Pool) : (s.modPool p f).qm = s.qm := rfl
@[simp] theorem State.modPool_dram (s : State) (p : Nat) (f : Pool → Pool) : (s.modPool p f).dram = s.dram := rfl
@[simp] theorem State.modPool_accord (s : State) (p : Nat) (f : Pool → Pool) : (s.modPool p f).accord = s.accord := rfl
@[simp] theorem State.modPool_scrub (s : State) (p : Nat) (f : Pool → Pool) : (s.modPool p f).scrub = s.scrub := rfl
@[simp] theorem State.modPool_sec (s : State) (p : Nat) (f : Pool → Pool) : (s.modPool p f).sec = s.sec := rfl
@[simp] theorem State.modPool_obs (s : State) (p : Nat) (f : Pool → Pool) : (s.modPool p f).obs = s.obs := rfl
@[simp] theorem State.modPool_power (s : State) (p : Nat) (f : Pool → Pool) : (s.modPool p f).power = s.power := rfl
@[simp] theorem State.modPool_pins (s : State) (p : Nat) (f : Pool → Pool) : (s.modPool p f).pins = s.pins := rfl
@[simp] theorem State.modPool_startup (s : State) (p : Nat) (f : Pool → Pool) : (s.modPool p f).startup = s.startup := rfl
@[simp] theorem State.modPool_out (s : State) (p : Nat) (f : Pool → Pool) : (s.modPool p f).out = s.out := rfl
/-! `modQueue` -/
@[simp] theorem State.modQueue_pending (s : State) (q : Nat) (f : Queue → Queue) : (s.modQueue q f).pending = s.pending := rfl
@[simp] theorem State.modQueue_time (s : State) (q : Nat) (f : Queue → Queue) : (s.modQueue q f).time = s.time := rfl
@[simp] theorem State.modQueue_net (s : State) (q : Nat) (f : Queue → Queue) : (s.modQueue q f).net = s.net := rfl
@[simp] theorem State.modQueue_nextId (s : State) (q : Nat) (f : Queue → Queue) : (s.modQueue q f).nextId = s.nextId := rfl
@[simp] theorem State.modQueue_fresh (s : State) (q : Nat) (f : Queue → Queue) : (s.modQueue q f).fresh = s.fresh := rfl
@[simp] theorem State.modQueue_live (s : State) (q : Nat) (f : Queue → Queue) : (s.modQueue q f).live = s.live := rfl
@[simp] theorem State.modQueue_faults (s : State) (q : Nat) (f : Queue → Queue) : (s.modQueue q f).faults = s.faults := rfl
@[simp] theorem State.modQueue_ycp (s : State) (q : Nat) (f : Queue → Queue) : (s.modQueue q f).ycp = s.ycp := rfl
@[simp] theorem State.modQueue_bar0 (s : State) (q : Nat) (f : Queue → Queue) : (s.modQueue q f).bar0 = s.bar0 := rfl
@[simp] theorem State.modQueue_ports (s : State) (q : Nat) (f : Queue → Queue) : (s.modQueue q f).ports = s.ports := rfl
@[simp] theorem State.modQueue_slices (s : State) (q : Nat) (f : Queue → Queue) : (s.modQueue q f).slices = s.slices := rfl
@[simp] theorem State.modQueue_seq (s : State) (q : Nat) (f : Queue → Queue) : (s.modQueue q f).seq = s.seq := rfl
@[simp] theorem State.modQueue_clusters (s : State) (q : Nat) (f : Queue → Queue) : (s.modQueue q f).clusters = s.clusters := rfl
@[simp] theorem State.modQueue_tables (s : State) (q : Nat) (f : Queue → Queue) : (s.modQueue q f).tables = s.tables := rfl
@[simp] theorem State.modQueue_tasks (s : State) (q : Nat) (f : Queue → Queue) : (s.modQueue q f).tasks = s.tasks := rfl
@[simp] theorem State.modQueue_pools (s : State) (q : Nat) (f : Queue → Queue) : (s.modQueue q f).pools = s.pools := rfl
@[simp] theorem State.modQueue_dram (s : State) (q : Nat) (f : Queue → Queue) : (s.modQueue q f).dram = s.dram := rfl
@[simp] theorem State.modQueue_accord (s : State) (q : Nat) (f : Queue → Queue) : (s.modQueue q f).accord = s.accord := rfl
@[simp] theorem State.modQueue_scrub (s : State) (q : Nat) (f : Queue → Queue) : (s.modQueue q f).scrub = s.scrub := rfl
@[simp] theorem State.modQueue_sec (s : State) (q : Nat) (f : Queue → Queue) : (s.modQueue q f).sec = s.sec := rfl
@[simp] theorem State.modQueue_obs (s : State) (q : Nat) (f : Queue → Queue) : (s.modQueue q f).obs = s.obs := rfl
@[simp] theorem State.modQueue_power (s : State) (q : Nat) (f : Queue → Queue) : (s.modQueue q f).power = s.power := rfl
@[simp] theorem State.modQueue_pins (s : State) (q : Nat) (f : Queue → Queue) : (s.modQueue q f).pins = s.pins := rfl
@[simp] theorem State.modQueue_startup (s : State) (q : Nat) (f : Queue → Queue) : (s.modQueue q f).startup = s.startup := rfl
@[simp] theorem State.modQueue_out (s : State) (q : Nat) (f : Queue → Queue) : (s.modQueue q f).out = s.out := rfl
/-! `modChan` -/
@[simp] theorem State.modChan_pending (s : State) (c : Nat) (f : DramChan → DramChan) : (s.modChan c f).pending = s.pending := rfl
@[simp] theorem State.modChan_time (s : State) (c : Nat) (f : DramChan → DramChan) : (s.modChan c f).time = s.time := rfl
@[simp] theorem State.modChan_net (s : State) (c : Nat) (f : DramChan → DramChan) : (s.modChan c f).net = s.net := rfl
@[simp] theorem State.modChan_nextId (s : State) (c : Nat) (f : DramChan → DramChan) : (s.modChan c f).nextId = s.nextId := rfl
@[simp] theorem State.modChan_fresh (s : State) (c : Nat) (f : DramChan → DramChan) : (s.modChan c f).fresh = s.fresh := rfl
@[simp] theorem State.modChan_live (s : State) (c : Nat) (f : DramChan → DramChan) : (s.modChan c f).live = s.live := rfl
@[simp] theorem State.modChan_faults (s : State) (c : Nat) (f : DramChan → DramChan) : (s.modChan c f).faults = s.faults := rfl
@[simp] theorem State.modChan_ycp (s : State) (c : Nat) (f : DramChan → DramChan) : (s.modChan c f).ycp = s.ycp := rfl
@[simp] theorem State.modChan_bar0 (s : State) (c : Nat) (f : DramChan → DramChan) : (s.modChan c f).bar0 = s.bar0 := rfl
@[simp] theorem State.modChan_ports (s : State) (c : Nat) (f : DramChan → DramChan) : (s.modChan c f).ports = s.ports := rfl
@[simp] theorem State.modChan_slices (s : State) (c : Nat) (f : DramChan → DramChan) : (s.modChan c f).slices = s.slices := rfl
@[simp] theorem State.modChan_seq (s : State) (c : Nat) (f : DramChan → DramChan) : (s.modChan c f).seq = s.seq := rfl
@[simp] theorem State.modChan_clusters (s : State) (c : Nat) (f : DramChan → DramChan) : (s.modChan c f).clusters = s.clusters := rfl
@[simp] theorem State.modChan_tables (s : State) (c : Nat) (f : DramChan → DramChan) : (s.modChan c f).tables = s.tables := rfl
@[simp] theorem State.modChan_tasks (s : State) (c : Nat) (f : DramChan → DramChan) : (s.modChan c f).tasks = s.tasks := rfl
@[simp] theorem State.modChan_pools (s : State) (c : Nat) (f : DramChan → DramChan) : (s.modChan c f).pools = s.pools := rfl
@[simp] theorem State.modChan_qm (s : State) (c : Nat) (f : DramChan → DramChan) : (s.modChan c f).qm = s.qm := rfl
@[simp] theorem State.modChan_accord (s : State) (c : Nat) (f : DramChan → DramChan) : (s.modChan c f).accord = s.accord := rfl
@[simp] theorem State.modChan_scrub (s : State) (c : Nat) (f : DramChan → DramChan) : (s.modChan c f).scrub = s.scrub := rfl
@[simp] theorem State.modChan_sec (s : State) (c : Nat) (f : DramChan → DramChan) : (s.modChan c f).sec = s.sec := rfl
@[simp] theorem State.modChan_obs (s : State) (c : Nat) (f : DramChan → DramChan) : (s.modChan c f).obs = s.obs := rfl
@[simp] theorem State.modChan_power (s : State) (c : Nat) (f : DramChan → DramChan) : (s.modChan c f).power = s.power := rfl
@[simp] theorem State.modChan_pins (s : State) (c : Nat) (f : DramChan → DramChan) : (s.modChan c f).pins = s.pins := rfl
@[simp] theorem State.modChan_startup (s : State) (c : Nat) (f : DramChan → DramChan) : (s.modChan c f).startup = s.startup := rfl
@[simp] theorem State.modChan_out (s : State) (c : Nat) (f : DramChan → DramChan) : (s.modChan c f).out = s.out := rfl
/-! `modLock` -/
@[simp] theorem State.modLock_pending (s : State) (w : Nat) (f : Lock → Lock) : (s.modLock w f).pending = s.pending := rfl
@[simp] theorem State.modLock_time (s : State) (w : Nat) (f : Lock → Lock) : (s.modLock w f).time = s.time := rfl
@[simp] theorem State.modLock_net (s : State) (w : Nat) (f : Lock → Lock) : (s.modLock w f).net = s.net := rfl
@[simp] theorem State.modLock_nextId (s : State) (w : Nat) (f : Lock → Lock) : (s.modLock w f).nextId = s.nextId := rfl
@[simp] theorem State.modLock_fresh (s : State) (w : Nat) (f : Lock → Lock) : (s.modLock w f).fresh = s.fresh := rfl
@[simp] theorem State.modLock_live (s : State) (w : Nat) (f : Lock → Lock) : (s.modLock w f).live = s.live := rfl
@[simp] theorem State.modLock_faults (s : State) (w : Nat) (f : Lock → Lock) : (s.modLock w f).faults = s.faults := rfl
@[simp] theorem State.modLock_ycp (s : State) (w : Nat) (f : Lock → Lock) : (s.modLock w f).ycp = s.ycp := rfl
@[simp] theorem State.modLock_bar0 (s : State) (w : Nat) (f : Lock → Lock) : (s.modLock w f).bar0 = s.bar0 := rfl
@[simp] theorem State.modLock_ports (s : State) (w : Nat) (f : Lock → Lock) : (s.modLock w f).ports = s.ports := rfl
@[simp] theorem State.modLock_slices (s : State) (w : Nat) (f : Lock → Lock) : (s.modLock w f).slices = s.slices := rfl
@[simp] theorem State.modLock_seq (s : State) (w : Nat) (f : Lock → Lock) : (s.modLock w f).seq = s.seq := rfl
@[simp] theorem State.modLock_clusters (s : State) (w : Nat) (f : Lock → Lock) : (s.modLock w f).clusters = s.clusters := rfl
@[simp] theorem State.modLock_tasks (s : State) (w : Nat) (f : Lock → Lock) : (s.modLock w f).tasks = s.tasks := rfl
@[simp] theorem State.modLock_pools (s : State) (w : Nat) (f : Lock → Lock) : (s.modLock w f).pools = s.pools := rfl
@[simp] theorem State.modLock_qm (s : State) (w : Nat) (f : Lock → Lock) : (s.modLock w f).qm = s.qm := rfl
@[simp] theorem State.modLock_dram (s : State) (w : Nat) (f : Lock → Lock) : (s.modLock w f).dram = s.dram := rfl
@[simp] theorem State.modLock_accord (s : State) (w : Nat) (f : Lock → Lock) : (s.modLock w f).accord = s.accord := rfl
@[simp] theorem State.modLock_scrub (s : State) (w : Nat) (f : Lock → Lock) : (s.modLock w f).scrub = s.scrub := rfl
@[simp] theorem State.modLock_sec (s : State) (w : Nat) (f : Lock → Lock) : (s.modLock w f).sec = s.sec := rfl
@[simp] theorem State.modLock_obs (s : State) (w : Nat) (f : Lock → Lock) : (s.modLock w f).obs = s.obs := rfl
@[simp] theorem State.modLock_power (s : State) (w : Nat) (f : Lock → Lock) : (s.modLock w f).power = s.power := rfl
@[simp] theorem State.modLock_pins (s : State) (w : Nat) (f : Lock → Lock) : (s.modLock w f).pins = s.pins := rfl
@[simp] theorem State.modLock_startup (s : State) (w : Nat) (f : Lock → Lock) : (s.modLock w f).startup = s.startup := rfl
@[simp] theorem State.modLock_out (s : State) (w : Nat) (f : Lock → Lock) : (s.modLock w f).out = s.out := rfl
/-! `modCopy` -/
@[simp] theorem State.modCopy_pending (s : State) (t : Nat) (f : Copy → Copy) : (s.modCopy t f).pending = s.pending := rfl
@[simp] theorem State.modCopy_time (s : State) (t : Nat) (f : Copy → Copy) : (s.modCopy t f).time = s.time := rfl
@[simp] theorem State.modCopy_net (s : State) (t : Nat) (f : Copy → Copy) : (s.modCopy t f).net = s.net := rfl
@[simp] theorem State.modCopy_nextId (s : State) (t : Nat) (f : Copy → Copy) : (s.modCopy t f).nextId = s.nextId := rfl
@[simp] theorem State.modCopy_fresh (s : State) (t : Nat) (f : Copy → Copy) : (s.modCopy t f).fresh = s.fresh := rfl
@[simp] theorem State.modCopy_live (s : State) (t : Nat) (f : Copy → Copy) : (s.modCopy t f).live = s.live := rfl
@[simp] theorem State.modCopy_faults (s : State) (t : Nat) (f : Copy → Copy) : (s.modCopy t f).faults = s.faults := rfl
@[simp] theorem State.modCopy_ycp (s : State) (t : Nat) (f : Copy → Copy) : (s.modCopy t f).ycp = s.ycp := rfl
@[simp] theorem State.modCopy_bar0 (s : State) (t : Nat) (f : Copy → Copy) : (s.modCopy t f).bar0 = s.bar0 := rfl
@[simp] theorem State.modCopy_ports (s : State) (t : Nat) (f : Copy → Copy) : (s.modCopy t f).ports = s.ports := rfl
@[simp] theorem State.modCopy_slices (s : State) (t : Nat) (f : Copy → Copy) : (s.modCopy t f).slices = s.slices := rfl
@[simp] theorem State.modCopy_seq (s : State) (t : Nat) (f : Copy → Copy) : (s.modCopy t f).seq = s.seq := rfl
@[simp] theorem State.modCopy_clusters (s : State) (t : Nat) (f : Copy → Copy) : (s.modCopy t f).clusters = s.clusters := rfl
@[simp] theorem State.modCopy_tables (s : State) (t : Nat) (f : Copy → Copy) : (s.modCopy t f).tables = s.tables := rfl
@[simp] theorem State.modCopy_tasks (s : State) (t : Nat) (f : Copy → Copy) : (s.modCopy t f).tasks = s.tasks := rfl
@[simp] theorem State.modCopy_pools (s : State) (t : Nat) (f : Copy → Copy) : (s.modCopy t f).pools = s.pools := rfl
@[simp] theorem State.modCopy_qm (s : State) (t : Nat) (f : Copy → Copy) : (s.modCopy t f).qm = s.qm := rfl
@[simp] theorem State.modCopy_dram (s : State) (t : Nat) (f : Copy → Copy) : (s.modCopy t f).dram = s.dram := rfl
@[simp] theorem State.modCopy_scrub (s : State) (t : Nat) (f : Copy → Copy) : (s.modCopy t f).scrub = s.scrub := rfl
@[simp] theorem State.modCopy_sec (s : State) (t : Nat) (f : Copy → Copy) : (s.modCopy t f).sec = s.sec := rfl
@[simp] theorem State.modCopy_obs (s : State) (t : Nat) (f : Copy → Copy) : (s.modCopy t f).obs = s.obs := rfl
@[simp] theorem State.modCopy_power (s : State) (t : Nat) (f : Copy → Copy) : (s.modCopy t f).power = s.power := rfl
@[simp] theorem State.modCopy_pins (s : State) (t : Nat) (f : Copy → Copy) : (s.modCopy t f).pins = s.pins := rfl
@[simp] theorem State.modCopy_startup (s : State) (t : Nat) (f : Copy → Copy) : (s.modCopy t f).startup = s.startup := rfl
@[simp] theorem State.modCopy_out (s : State) (t : Nat) (f : Copy → Copy) : (s.modCopy t f).out = s.out := rfl
/-! `setObj` -/
@[simp] theorem State.setObj_pending (s : State) (c i : Nat) (w : ObjWord) : (s.setObj c i w).pending = s.pending := rfl
@[simp] theorem State.setObj_time (s : State) (c i : Nat) (w : ObjWord) : (s.setObj c i w).time = s.time := rfl
@[simp] theorem State.setObj_net (s : State) (c i : Nat) (w : ObjWord) : (s.setObj c i w).net = s.net := rfl
@[simp] theorem State.setObj_nextId (s : State) (c i : Nat) (w : ObjWord) : (s.setObj c i w).nextId = s.nextId := rfl
@[simp] theorem State.setObj_fresh (s : State) (c i : Nat) (w : ObjWord) : (s.setObj c i w).fresh = s.fresh := rfl
@[simp] theorem State.setObj_faults (s : State) (c i : Nat) (w : ObjWord) : (s.setObj c i w).faults = s.faults := rfl
@[simp] theorem State.setObj_ycp (s : State) (c i : Nat) (w : ObjWord) : (s.setObj c i w).ycp = s.ycp := rfl
@[simp] theorem State.setObj_bar0 (s : State) (c i : Nat) (w : ObjWord) : (s.setObj c i w).bar0 = s.bar0 := rfl
@[simp] theorem State.setObj_ports (s : State) (c i : Nat) (w : ObjWord) : (s.setObj c i w).ports = s.ports := rfl
@[simp] theorem State.setObj_slices (s : State) (c i : Nat) (w : ObjWord) : (s.setObj c i w).slices = s.slices := rfl
@[simp] theorem State.setObj_seq (s : State) (c i : Nat) (w : ObjWord) : (s.setObj c i w).seq = s.seq := rfl
@[simp] theorem State.setObj_clusters (s : State) (c i : Nat) (w : ObjWord) : (s.setObj c i w).clusters = s.clusters := rfl
@[simp] theorem State.setObj_tables (s : State) (c i : Nat) (w : ObjWord) : (s.setObj c i w).tables = s.tables := rfl
@[simp] theorem State.setObj_tasks (s : State) (c i : Nat) (w : ObjWord) : (s.setObj c i w).tasks = s.tasks := rfl
@[simp] theorem State.setObj_pools (s : State) (c i : Nat) (w : ObjWord) : (s.setObj c i w).pools = s.pools := rfl
@[simp] theorem State.setObj_qm (s : State) (c i : Nat) (w : ObjWord) : (s.setObj c i w).qm = s.qm := rfl
@[simp] theorem State.setObj_dram (s : State) (c i : Nat) (w : ObjWord) : (s.setObj c i w).dram = s.dram := rfl
@[simp] theorem State.setObj_accord (s : State) (c i : Nat) (w : ObjWord) : (s.setObj c i w).accord = s.accord := rfl
@[simp] theorem State.setObj_scrub (s : State) (c i : Nat) (w : ObjWord) : (s.setObj c i w).scrub = s.scrub := rfl
@[simp] theorem State.setObj_sec (s : State) (c i : Nat) (w : ObjWord) : (s.setObj c i w).sec = s.sec := rfl
@[simp] theorem State.setObj_obs (s : State) (c i : Nat) (w : ObjWord) : (s.setObj c i w).obs = s.obs := rfl
@[simp] theorem State.setObj_power (s : State) (c i : Nat) (w : ObjWord) : (s.setObj c i w).power = s.power := rfl
@[simp] theorem State.setObj_pins (s : State) (c i : Nat) (w : ObjWord) : (s.setObj c i w).pins = s.pins := rfl
@[simp] theorem State.setObj_startup (s : State) (c i : Nat) (w : ObjWord) : (s.setObj c i w).startup = s.startup := rfl
@[simp] theorem State.setObj_out (s : State) (c i : Nat) (w : ObjWord) : (s.setObj c i w).out = s.out := rfl
/-! `send` -/
@[simp] theorem State.send_pending (s : State) (a b : Nat) (m : Msg) : (s.send a b m).pending = s.pending := rfl
@[simp] theorem State.send_time (s : State) (a b : Nat) (m : Msg) : (s.send a b m).time = s.time := rfl
@[simp] theorem State.send_nextId (s : State) (a b : Nat) (m : Msg) : (s.send a b m).nextId = s.nextId := rfl
@[simp] theorem State.send_fresh (s : State) (a b : Nat) (m : Msg) : (s.send a b m).fresh = s.fresh := rfl
@[simp] theorem State.send_live (s : State) (a b : Nat) (m : Msg) : (s.send a b m).live = s.live := rfl
@[simp] theorem State.send_faults (s : State) (a b : Nat) (m : Msg) : (s.send a b m).faults = s.faults := rfl
@[simp] theorem State.send_ycp (s : State) (a b : Nat) (m : Msg) : (s.send a b m).ycp = s.ycp := rfl
@[simp] theorem State.send_bar0 (s : State) (a b : Nat) (m : Msg) : (s.send a b m).bar0 = s.bar0 := rfl
@[simp] theorem State.send_ports (s : State) (a b : Nat) (m : Msg) : (s.send a b m).ports = s.ports := rfl
@[simp] theorem State.send_slices (s : State) (a b : Nat) (m : Msg) : (s.send a b m).slices = s.slices := rfl
@[simp] theorem State.send_seq (s : State) (a b : Nat) (m : Msg) : (s.send a b m).seq = s.seq := rfl
@[simp] theorem State.send_clusters (s : State) (a b : Nat) (m : Msg) : (s.send a b m).clusters = s.clusters := rfl
@[simp] theorem State.send_tables (s : State) (a b : Nat) (m : Msg) : (s.send a b m).tables = s.tables := rfl
@[simp] theorem State.send_tasks (s : State) (a b : Nat) (m : Msg) : (s.send a b m).tasks = s.tasks := rfl
@[simp] theorem State.send_pools (s : State) (a b : Nat) (m : Msg) : (s.send a b m).pools = s.pools := rfl
@[simp] theorem State.send_qm (s : State) (a b : Nat) (m : Msg) : (s.send a b m).qm = s.qm := rfl
@[simp] theorem State.send_dram (s : State) (a b : Nat) (m : Msg) : (s.send a b m).dram = s.dram := rfl
@[simp] theorem State.send_accord (s : State) (a b : Nat) (m : Msg) : (s.send a b m).accord = s.accord := rfl
@[simp] theorem State.send_scrub (s : State) (a b : Nat) (m : Msg) : (s.send a b m).scrub = s.scrub := rfl
@[simp] theorem State.send_sec (s : State) (a b : Nat) (m : Msg) : (s.send a b m).sec = s.sec := rfl
@[simp] theorem State.send_obs (s : State) (a b : Nat) (m : Msg) : (s.send a b m).obs = s.obs := rfl
@[simp] theorem State.send_power (s : State) (a b : Nat) (m : Msg) : (s.send a b m).power = s.power := rfl
@[simp] theorem State.send_pins (s : State) (a b : Nat) (m : Msg) : (s.send a b m).pins = s.pins := rfl
@[simp] theorem State.send_startup (s : State) (a b : Nat) (m : Msg) : (s.send a b m).startup = s.startup := rfl
@[simp] theorem State.send_out (s : State) (a b : Nat) (m : Msg) : (s.send a b m).out = s.out := rfl
/-! `taken` -/
@[simp] theorem State.taken_pending (s : State) (a b : Nat) : (s.taken a b).pending = s.pending := rfl
@[simp] theorem State.taken_time (s : State) (a b : Nat) : (s.taken a b).time = s.time := rfl
@[simp] theorem State.taken_nextId (s : State) (a b : Nat) : (s.taken a b).nextId = s.nextId := rfl
@[simp] theorem State.taken_fresh (s : State) (a b : Nat) : (s.taken a b).fresh = s.fresh := rfl
@[simp] theorem State.taken_live (s : State) (a b : Nat) : (s.taken a b).live = s.live := rfl
@[simp] theorem State.taken_ycp (s : State) (a b : Nat) : (s.taken a b).ycp = s.ycp := rfl
@[simp] theorem State.taken_bar0 (s : State) (a b : Nat) : (s.taken a b).bar0 = s.bar0 := rfl
@[simp] theorem State.taken_ports (s : State) (a b : Nat) : (s.taken a b).ports = s.ports := rfl
@[simp] theorem State.taken_slices (s : State) (a b : Nat) : (s.taken a b).slices = s.slices := rfl
@[simp] theorem State.taken_seq (s : State) (a b : Nat) : (s.taken a b).seq = s.seq := rfl
@[simp] theorem State.taken_clusters (s : State) (a b : Nat) : (s.taken a b).clusters = s.clusters := rfl
@[simp] theorem State.taken_tables (s : State) (a b : Nat) : (s.taken a b).tables = s.tables := rfl
@[simp] theorem State.taken_tasks (s : State) (a b : Nat) : (s.taken a b).tasks = s.tasks := rfl
@[simp] theorem State.taken_pools (s : State) (a b : Nat) : (s.taken a b).pools = s.pools := rfl
@[simp] theorem State.taken_qm (s : State) (a b : Nat) : (s.taken a b).qm = s.qm := rfl
@[simp] theorem State.taken_dram (s : State) (a b : Nat) : (s.taken a b).dram = s.dram := rfl
@[simp] theorem State.taken_accord (s : State) (a b : Nat) : (s.taken a b).accord = s.accord := rfl
@[simp] theorem State.taken_scrub (s : State) (a b : Nat) : (s.taken a b).scrub = s.scrub := rfl
@[simp] theorem State.taken_sec (s : State) (a b : Nat) : (s.taken a b).sec = s.sec := rfl
@[simp] theorem State.taken_obs (s : State) (a b : Nat) : (s.taken a b).obs = s.obs := rfl
@[simp] theorem State.taken_power (s : State) (a b : Nat) : (s.taken a b).power = s.power := rfl
@[simp] theorem State.taken_pins (s : State) (a b : Nat) : (s.taken a b).pins = s.pins := rfl
@[simp] theorem State.taken_startup (s : State) (a b : Nat) : (s.taken a b).startup = s.startup := rfl
@[simp] theorem State.taken_out (s : State) (a b : Nat) : (s.taken a b).out = s.out := rfl
/-! `emit` -/
@[simp] theorem State.emit_pending (s : State) (o : Output) : (s.emit o).pending = s.pending := rfl
@[simp] theorem State.emit_time (s : State) (o : Output) : (s.emit o).time = s.time := rfl
@[simp] theorem State.emit_net (s : State) (o : Output) : (s.emit o).net = s.net := rfl
@[simp] theorem State.emit_nextId (s : State) (o : Output) : (s.emit o).nextId = s.nextId := rfl
@[simp] theorem State.emit_fresh (s : State) (o : Output) : (s.emit o).fresh = s.fresh := rfl
@[simp] theorem State.emit_live (s : State) (o : Output) : (s.emit o).live = s.live := rfl
@[simp] theorem State.emit_faults (s : State) (o : Output) : (s.emit o).faults = s.faults := rfl
@[simp] theorem State.emit_ycp (s : State) (o : Output) : (s.emit o).ycp = s.ycp := rfl
@[simp] theorem State.emit_bar0 (s : State) (o : Output) : (s.emit o).bar0 = s.bar0 := rfl
@[simp] theorem State.emit_ports (s : State) (o : Output) : (s.emit o).ports = s.ports := rfl
@[simp] theorem State.emit_slices (s : State) (o : Output) : (s.emit o).slices = s.slices := rfl
@[simp] theorem State.emit_seq (s : State) (o : Output) : (s.emit o).seq = s.seq := rfl
@[simp] theorem State.emit_clusters (s : State) (o : Output) : (s.emit o).clusters = s.clusters := rfl
@[simp] theorem State.emit_tables (s : State) (o : Output) : (s.emit o).tables = s.tables := rfl
@[simp] theorem State.emit_tasks (s : State) (o : Output) : (s.emit o).tasks = s.tasks := rfl
@[simp] theorem State.emit_pools (s : State) (o : Output) : (s.emit o).pools = s.pools := rfl
@[simp] theorem State.emit_qm (s : State) (o : Output) : (s.emit o).qm = s.qm := rfl
@[simp] theorem State.emit_dram (s : State) (o : Output) : (s.emit o).dram = s.dram := rfl
@[simp] theorem State.emit_accord (s : State) (o : Output) : (s.emit o).accord = s.accord := rfl
@[simp] theorem State.emit_scrub (s : State) (o : Output) : (s.emit o).scrub = s.scrub := rfl
@[simp] theorem State.emit_sec (s : State) (o : Output) : (s.emit o).sec = s.sec := rfl
@[simp] theorem State.emit_obs (s : State) (o : Output) : (s.emit o).obs = s.obs := rfl
@[simp] theorem State.emit_power (s : State) (o : Output) : (s.emit o).power = s.power := rfl
@[simp] theorem State.emit_pins (s : State) (o : Output) : (s.emit o).pins = s.pins := rfl
@[simp] theorem State.emit_startup (s : State) (o : Output) : (s.emit o).startup = s.startup := rfl
/-! `count` -/
@[simp] theorem State.count_pending (s : State) (u e n : Nat) : (s.count u e n).pending = s.pending := rfl
@[simp] theorem State.count_time (s : State) (u e n : Nat) : (s.count u e n).time = s.time := rfl
@[simp] theorem State.count_net (s : State) (u e n : Nat) : (s.count u e n).net = s.net := rfl
@[simp] theorem State.count_nextId (s : State) (u e n : Nat) : (s.count u e n).nextId = s.nextId := rfl
@[simp] theorem State.count_fresh (s : State) (u e n : Nat) : (s.count u e n).fresh = s.fresh := rfl
@[simp] theorem State.count_live (s : State) (u e n : Nat) : (s.count u e n).live = s.live := rfl
@[simp] theorem State.count_faults (s : State) (u e n : Nat) : (s.count u e n).faults = s.faults := rfl
@[simp] theorem State.count_ycp (s : State) (u e n : Nat) : (s.count u e n).ycp = s.ycp := rfl
@[simp] theorem State.count_bar0 (s : State) (u e n : Nat) : (s.count u e n).bar0 = s.bar0 := rfl
@[simp] theorem State.count_ports (s : State) (u e n : Nat) : (s.count u e n).ports = s.ports := rfl
@[simp] theorem State.count_slices (s : State) (u e n : Nat) : (s.count u e n).slices = s.slices := rfl
@[simp] theorem State.count_seq (s : State) (u e n : Nat) : (s.count u e n).seq = s.seq := rfl
@[simp] theorem State.count_clusters (s : State) (u e n : Nat) : (s.count u e n).clusters = s.clusters := rfl
@[simp] theorem State.count_tables (s : State) (u e n : Nat) : (s.count u e n).tables = s.tables := rfl
@[simp] theorem State.count_tasks (s : State) (u e n : Nat) : (s.count u e n).tasks = s.tasks := rfl
@[simp] theorem State.count_pools (s : State) (u e n : Nat) : (s.count u e n).pools = s.pools := rfl
@[simp] theorem State.count_qm (s : State) (u e n : Nat) : (s.count u e n).qm = s.qm := rfl
@[simp] theorem State.count_dram (s : State) (u e n : Nat) : (s.count u e n).dram = s.dram := rfl
@[simp] theorem State.count_accord (s : State) (u e n : Nat) : (s.count u e n).accord = s.accord := rfl
@[simp] theorem State.count_scrub (s : State) (u e n : Nat) : (s.count u e n).scrub = s.scrub := rfl
@[simp] theorem State.count_sec (s : State) (u e n : Nat) : (s.count u e n).sec = s.sec := rfl
@[simp] theorem State.count_power (s : State) (u e n : Nat) : (s.count u e n).power = s.power := rfl
@[simp] theorem State.count_pins (s : State) (u e n : Nat) : (s.count u e n).pins = s.pins := rfl
@[simp] theorem State.count_startup (s : State) (u e n : Nat) : (s.count u e n).startup = s.startup := rfl
@[simp] theorem State.count_out (s : State) (u e n : Nat) : (s.count u e n).out = s.out := rfl
/-! `watch` -/
@[simp] theorem State.watch_pending (s : State)  : (s.watch).pending = s.pending := rfl
@[simp] theorem State.watch_time (s : State)  : (s.watch).time = s.time := rfl
@[simp] theorem State.watch_net (s : State)  : (s.watch).net = s.net := rfl
@[simp] theorem State.watch_nextId (s : State)  : (s.watch).nextId = s.nextId := rfl
@[simp] theorem State.watch_fresh (s : State)  : (s.watch).fresh = s.fresh := rfl
@[simp] theorem State.watch_live (s : State)  : (s.watch).live = s.live := rfl
@[simp] theorem State.watch_faults (s : State)  : (s.watch).faults = s.faults := rfl
@[simp] theorem State.watch_ycp (s : State)  : (s.watch).ycp = s.ycp := rfl
@[simp] theorem State.watch_bar0 (s : State)  : (s.watch).bar0 = s.bar0 := rfl
@[simp] theorem State.watch_ports (s : State)  : (s.watch).ports = s.ports := rfl
@[simp] theorem State.watch_slices (s : State)  : (s.watch).slices = s.slices := rfl
@[simp] theorem State.watch_seq (s : State)  : (s.watch).seq = s.seq := rfl
@[simp] theorem State.watch_clusters (s : State)  : (s.watch).clusters = s.clusters := rfl
@[simp] theorem State.watch_tables (s : State)  : (s.watch).tables = s.tables := rfl
@[simp] theorem State.watch_tasks (s : State)  : (s.watch).tasks = s.tasks := rfl
@[simp] theorem State.watch_pools (s : State)  : (s.watch).pools = s.pools := rfl
@[simp] theorem State.watch_qm (s : State)  : (s.watch).qm = s.qm := rfl
@[simp] theorem State.watch_dram (s : State)  : (s.watch).dram = s.dram := rfl
@[simp] theorem State.watch_accord (s : State)  : (s.watch).accord = s.accord := rfl
@[simp] theorem State.watch_scrub (s : State)  : (s.watch).scrub = s.scrub := rfl
@[simp] theorem State.watch_sec (s : State)  : (s.watch).sec = s.sec := rfl
@[simp] theorem State.watch_power (s : State)  : (s.watch).power = s.power := rfl
@[simp] theorem State.watch_pins (s : State)  : (s.watch).pins = s.pins := rfl
@[simp] theorem State.watch_startup (s : State)  : (s.watch).startup = s.startup := rfl
@[simp] theorem State.watch_out (s : State)  : (s.watch).out = s.out := rfl
/-! `enqueueFault` -/
@[simp] theorem State.enqueueFault_pending (s : State) (m : FaultMsg) : (s.enqueueFault m).pending = s.pending := by
  unfold State.enqueueFault; dsimp only; split <;> rfl
@[simp] theorem State.enqueueFault_time (s : State) (m : FaultMsg) : (s.enqueueFault m).time = s.time := by
  unfold State.enqueueFault; dsimp only; split <;> rfl
@[simp] theorem State.enqueueFault_net (s : State) (m : FaultMsg) : (s.enqueueFault m).net = s.net := by
  unfold State.enqueueFault; dsimp only; split <;> rfl
@[simp] theorem State.enqueueFault_nextId (s : State) (m : FaultMsg) : (s.enqueueFault m).nextId = s.nextId := by
  unfold State.enqueueFault; dsimp only; split <;> rfl
@[simp] theorem State.enqueueFault_fresh (s : State) (m : FaultMsg) : (s.enqueueFault m).fresh = s.fresh := by
  unfold State.enqueueFault; dsimp only; split <;> rfl
@[simp] theorem State.enqueueFault_live (s : State) (m : FaultMsg) : (s.enqueueFault m).live = s.live := by
  unfold State.enqueueFault; dsimp only; split <;> rfl
@[simp] theorem State.enqueueFault_ycp (s : State) (m : FaultMsg) : (s.enqueueFault m).ycp = s.ycp := by
  unfold State.enqueueFault; dsimp only; split <;> rfl
@[simp] theorem State.enqueueFault_bar0 (s : State) (m : FaultMsg) : (s.enqueueFault m).bar0 = s.bar0 := by
  unfold State.enqueueFault; dsimp only; split <;> rfl
@[simp] theorem State.enqueueFault_ports (s : State) (m : FaultMsg) : (s.enqueueFault m).ports = s.ports := by
  unfold State.enqueueFault; dsimp only; split <;> rfl
@[simp] theorem State.enqueueFault_slices (s : State) (m : FaultMsg) : (s.enqueueFault m).slices = s.slices := by
  unfold State.enqueueFault; dsimp only; split <;> rfl
@[simp] theorem State.enqueueFault_seq (s : State) (m : FaultMsg) : (s.enqueueFault m).seq = s.seq := by
  unfold State.enqueueFault; dsimp only; split <;> rfl
@[simp] theorem State.enqueueFault_clusters (s : State) (m : FaultMsg) : (s.enqueueFault m).clusters = s.clusters := by
  unfold State.enqueueFault; dsimp only; split <;> rfl
@[simp] theorem State.enqueueFault_tables (s : State) (m : FaultMsg) : (s.enqueueFault m).tables = s.tables := by
  unfold State.enqueueFault; dsimp only; split <;> rfl
@[simp] theorem State.enqueueFault_tasks (s : State) (m : FaultMsg) : (s.enqueueFault m).tasks = s.tasks := by
  unfold State.enqueueFault; dsimp only; split <;> rfl
@[simp] theorem State.enqueueFault_pools (s : State) (m : FaultMsg) : (s.enqueueFault m).pools = s.pools := by
  unfold State.enqueueFault; dsimp only; split <;> rfl
@[simp] theorem State.enqueueFault_qm (s : State) (m : FaultMsg) : (s.enqueueFault m).qm = s.qm := by
  unfold State.enqueueFault; dsimp only; split <;> rfl
@[simp] theorem State.enqueueFault_dram (s : State) (m : FaultMsg) : (s.enqueueFault m).dram = s.dram := by
  unfold State.enqueueFault; dsimp only; split <;> rfl
@[simp] theorem State.enqueueFault_accord (s : State) (m : FaultMsg) : (s.enqueueFault m).accord = s.accord := by
  unfold State.enqueueFault; dsimp only; split <;> rfl
@[simp] theorem State.enqueueFault_scrub (s : State) (m : FaultMsg) : (s.enqueueFault m).scrub = s.scrub := by
  unfold State.enqueueFault; dsimp only; split <;> rfl
@[simp] theorem State.enqueueFault_sec (s : State) (m : FaultMsg) : (s.enqueueFault m).sec = s.sec := by
  unfold State.enqueueFault; dsimp only; split <;> rfl
@[simp] theorem State.enqueueFault_power (s : State) (m : FaultMsg) : (s.enqueueFault m).power = s.power := by
  unfold State.enqueueFault; dsimp only; split <;> rfl
@[simp] theorem State.enqueueFault_pins (s : State) (m : FaultMsg) : (s.enqueueFault m).pins = s.pins := by
  unfold State.enqueueFault; dsimp only; split <;> rfl
@[simp] theorem State.enqueueFault_startup (s : State) (m : FaultMsg) : (s.enqueueFault m).startup = s.startup := by
  unfold State.enqueueFault; dsimp only; split <;> rfl
@[simp] theorem State.enqueueFault_out (s : State) (m : FaultMsg) : (s.enqueueFault m).out = s.out := by
  unfold State.enqueueFault; dsimp only; split <;> rfl
/-! `raise` -/
@[simp] theorem State.raise_pending (s : State) (u k : Nat) (i : FaultInfo) : (s.raise u k i).pending = s.pending := State.enqueueFault_pending s _
@[simp] theorem State.raise_time (s : State) (u k : Nat) (i : FaultInfo) : (s.raise u k i).time = s.time := State.enqueueFault_time s _
@[simp] theorem State.raise_net (s : State) (u k : Nat) (i : FaultInfo) : (s.raise u k i).net = s.net := State.enqueueFault_net s _
@[simp] theorem State.raise_nextId (s : State) (u k : Nat) (i : FaultInfo) : (s.raise u k i).nextId = s.nextId := State.enqueueFault_nextId s _
@[simp] theorem State.raise_fresh (s : State) (u k : Nat) (i : FaultInfo) : (s.raise u k i).fresh = s.fresh := State.enqueueFault_fresh s _
@[simp] theorem State.raise_live (s : State) (u k : Nat) (i : FaultInfo) : (s.raise u k i).live = s.live := State.enqueueFault_live s _
@[simp] theorem State.raise_ycp (s : State) (u k : Nat) (i : FaultInfo) : (s.raise u k i).ycp = s.ycp := State.enqueueFault_ycp s _
@[simp] theorem State.raise_bar0 (s : State) (u k : Nat) (i : FaultInfo) : (s.raise u k i).bar0 = s.bar0 := State.enqueueFault_bar0 s _
@[simp] theorem State.raise_ports (s : State) (u k : Nat) (i : FaultInfo) : (s.raise u k i).ports = s.ports := State.enqueueFault_ports s _
@[simp] theorem State.raise_slices (s : State) (u k : Nat) (i : FaultInfo) : (s.raise u k i).slices = s.slices := State.enqueueFault_slices s _
@[simp] theorem State.raise_seq (s : State) (u k : Nat) (i : FaultInfo) : (s.raise u k i).seq = s.seq := State.enqueueFault_seq s _
@[simp] theorem State.raise_clusters (s : State) (u k : Nat) (i : FaultInfo) : (s.raise u k i).clusters = s.clusters := State.enqueueFault_clusters s _
@[simp] theorem State.raise_tables (s : State) (u k : Nat) (i : FaultInfo) : (s.raise u k i).tables = s.tables := State.enqueueFault_tables s _
@[simp] theorem State.raise_tasks (s : State) (u k : Nat) (i : FaultInfo) : (s.raise u k i).tasks = s.tasks := State.enqueueFault_tasks s _
@[simp] theorem State.raise_pools (s : State) (u k : Nat) (i : FaultInfo) : (s.raise u k i).pools = s.pools := State.enqueueFault_pools s _
@[simp] theorem State.raise_qm (s : State) (u k : Nat) (i : FaultInfo) : (s.raise u k i).qm = s.qm := State.enqueueFault_qm s _
@[simp] theorem State.raise_dram (s : State) (u k : Nat) (i : FaultInfo) : (s.raise u k i).dram = s.dram := State.enqueueFault_dram s _
@[simp] theorem State.raise_accord (s : State) (u k : Nat) (i : FaultInfo) : (s.raise u k i).accord = s.accord := State.enqueueFault_accord s _
@[simp] theorem State.raise_scrub (s : State) (u k : Nat) (i : FaultInfo) : (s.raise u k i).scrub = s.scrub := State.enqueueFault_scrub s _
@[simp] theorem State.raise_sec (s : State) (u k : Nat) (i : FaultInfo) : (s.raise u k i).sec = s.sec := State.enqueueFault_sec s _
@[simp] theorem State.raise_power (s : State) (u k : Nat) (i : FaultInfo) : (s.raise u k i).power = s.power := State.enqueueFault_power s _
@[simp] theorem State.raise_pins (s : State) (u k : Nat) (i : FaultInfo) : (s.raise u k i).pins = s.pins := State.enqueueFault_pins s _
@[simp] theorem State.raise_startup (s : State) (u k : Nat) (i : FaultInfo) : (s.raise u k i).startup = s.startup := State.enqueueFault_startup s _
@[simp] theorem State.raise_out (s : State) (u k : Nat) (i : FaultInfo) : (s.raise u k i).out = s.out := State.enqueueFault_out s _
/-! `msix` -/
@[simp] theorem State.msix_pending (s : State) (v : Nat) : (s.msix v).pending = s.pending := by
  unfold State.msix; dsimp only; split
  · rfl
  · split <;> rfl
@[simp] theorem State.msix_time (s : State) (v : Nat) : (s.msix v).time = s.time := by
  unfold State.msix; dsimp only; split
  · rfl
  · split <;> rfl
@[simp] theorem State.msix_net (s : State) (v : Nat) : (s.msix v).net = s.net := by
  unfold State.msix; dsimp only; split
  · rfl
  · split <;> rfl
@[simp] theorem State.msix_nextId (s : State) (v : Nat) : (s.msix v).nextId = s.nextId := by
  unfold State.msix; dsimp only; split
  · rfl
  · split <;> rfl
@[simp] theorem State.msix_fresh (s : State) (v : Nat) : (s.msix v).fresh = s.fresh := by
  unfold State.msix; dsimp only; split
  · rfl
  · split <;> rfl
@[simp] theorem State.msix_live (s : State) (v : Nat) : (s.msix v).live = s.live := by
  unfold State.msix; dsimp only; split
  · rfl
  · split <;> rfl
@[simp] theorem State.msix_faults (s : State) (v : Nat) : (s.msix v).faults = s.faults := by
  unfold State.msix; dsimp only; split
  · rfl
  · split <;> rfl
@[simp] theorem State.msix_ycp (s : State) (v : Nat) : (s.msix v).ycp = s.ycp := by
  unfold State.msix; dsimp only; split
  · rfl
  · split <;> rfl
@[simp] theorem State.msix_ports (s : State) (v : Nat) : (s.msix v).ports = s.ports := by
  unfold State.msix; dsimp only; split
  · rfl
  · split <;> rfl
@[simp] theorem State.msix_slices (s : State) (v : Nat) : (s.msix v).slices = s.slices := by
  unfold State.msix; dsimp only; split
  · rfl
  · split <;> rfl
@[simp] theorem State.msix_seq (s : State) (v : Nat) : (s.msix v).seq = s.seq := by
  unfold State.msix; dsimp only; split
  · rfl
  · split <;> rfl
@[simp] theorem State.msix_clusters (s : State) (v : Nat) : (s.msix v).clusters = s.clusters := by
  unfold State.msix; dsimp only; split
  · rfl
  · split <;> rfl
@[simp] theorem State.msix_tables (s : State) (v : Nat) : (s.msix v).tables = s.tables := by
  unfold State.msix; dsimp only; split
  · rfl
  · split <;> rfl
@[simp] theorem State.msix_tasks (s : State) (v : Nat) : (s.msix v).tasks = s.tasks := by
  unfold State.msix; dsimp only; split
  · rfl
  · split <;> rfl
@[simp] theorem State.msix_pools (s : State) (v : Nat) : (s.msix v).pools = s.pools := by
  unfold State.msix; dsimp only; split
  · rfl
  · split <;> rfl
@[simp] theorem State.msix_qm (s : State) (v : Nat) : (s.msix v).qm = s.qm := by
  unfold State.msix; dsimp only; split
  · rfl
  · split <;> rfl
@[simp] theorem State.msix_dram (s : State) (v : Nat) : (s.msix v).dram = s.dram := by
  unfold State.msix; dsimp only; split
  · rfl
  · split <;> rfl
@[simp] theorem State.msix_accord (s : State) (v : Nat) : (s.msix v).accord = s.accord := by
  unfold State.msix; dsimp only; split
  · rfl
  · split <;> rfl
@[simp] theorem State.msix_scrub (s : State) (v : Nat) : (s.msix v).scrub = s.scrub := by
  unfold State.msix; dsimp only; split
  · rfl
  · split <;> rfl
@[simp] theorem State.msix_sec (s : State) (v : Nat) : (s.msix v).sec = s.sec := by
  unfold State.msix; dsimp only; split
  · rfl
  · split <;> rfl
@[simp] theorem State.msix_obs (s : State) (v : Nat) : (s.msix v).obs = s.obs := by
  unfold State.msix; dsimp only; split
  · rfl
  · split <;> rfl
@[simp] theorem State.msix_power (s : State) (v : Nat) : (s.msix v).power = s.power := by
  unfold State.msix; dsimp only; split
  · rfl
  · split <;> rfl
@[simp] theorem State.msix_pins (s : State) (v : Nat) : (s.msix v).pins = s.pins := by
  unfold State.msix; dsimp only; split
  · rfl
  · split <;> rfl
@[simp] theorem State.msix_startup (s : State) (v : Nat) : (s.msix v).startup = s.startup := by
  unfold State.msix; dsimp only; split
  · rfl
  · split <;> rfl
/-! `event` -/
@[simp] theorem State.event_pending (s : State) (b : Nat) : (s.event b).pending = s.pending := by
  unfold State.event; split
  · rfl
  · exact State.msix_pending _ _
@[simp] theorem State.event_time (s : State) (b : Nat) : (s.event b).time = s.time := by
  unfold State.event; split
  · rfl
  · exact State.msix_time _ _
@[simp] theorem State.event_net (s : State) (b : Nat) : (s.event b).net = s.net := by
  unfold State.event; split
  · rfl
  · exact State.msix_net _ _
@[simp] theorem State.event_nextId (s : State) (b : Nat) : (s.event b).nextId = s.nextId := by
  unfold State.event; split
  · rfl
  · exact State.msix_nextId _ _
@[simp] theorem State.event_fresh (s : State) (b : Nat) : (s.event b).fresh = s.fresh := by
  unfold State.event; split
  · rfl
  · exact State.msix_fresh _ _
@[simp] theorem State.event_live (s : State) (b : Nat) : (s.event b).live = s.live := by
  unfold State.event; split
  · rfl
  · exact State.msix_live _ _
@[simp] theorem State.event_faults (s : State) (b : Nat) : (s.event b).faults = s.faults := by
  unfold State.event; split
  · rfl
  · exact State.msix_faults _ _
@[simp] theorem State.event_ycp (s : State) (b : Nat) : (s.event b).ycp = s.ycp := by
  unfold State.event; split
  · rfl
  · exact State.msix_ycp _ _
@[simp] theorem State.event_ports (s : State) (b : Nat) : (s.event b).ports = s.ports := by
  unfold State.event; split
  · rfl
  · exact State.msix_ports _ _
@[simp] theorem State.event_slices (s : State) (b : Nat) : (s.event b).slices = s.slices := by
  unfold State.event; split
  · rfl
  · exact State.msix_slices _ _
@[simp] theorem State.event_seq (s : State) (b : Nat) : (s.event b).seq = s.seq := by
  unfold State.event; split
  · rfl
  · exact State.msix_seq _ _
@[simp] theorem State.event_clusters (s : State) (b : Nat) : (s.event b).clusters = s.clusters := by
  unfold State.event; split
  · rfl
  · exact State.msix_clusters _ _
@[simp] theorem State.event_tables (s : State) (b : Nat) : (s.event b).tables = s.tables := by
  unfold State.event; split
  · rfl
  · exact State.msix_tables _ _
@[simp] theorem State.event_tasks (s : State) (b : Nat) : (s.event b).tasks = s.tasks := by
  unfold State.event; split
  · rfl
  · exact State.msix_tasks _ _
@[simp] theorem State.event_pools (s : State) (b : Nat) : (s.event b).pools = s.pools := by
  unfold State.event; split
  · rfl
  · exact State.msix_pools _ _
@[simp] theorem State.event_qm (s : State) (b : Nat) : (s.event b).qm = s.qm := by
  unfold State.event; split
  · rfl
  · exact State.msix_qm _ _
@[simp] theorem State.event_dram (s : State) (b : Nat) : (s.event b).dram = s.dram := by
  unfold State.event; split
  · rfl
  · exact State.msix_dram _ _
@[simp] theorem State.event_accord (s : State) (b : Nat) : (s.event b).accord = s.accord := by
  unfold State.event; split
  · rfl
  · exact State.msix_accord _ _
@[simp] theorem State.event_scrub (s : State) (b : Nat) : (s.event b).scrub = s.scrub := by
  unfold State.event; split
  · rfl
  · exact State.msix_scrub _ _
@[simp] theorem State.event_sec (s : State) (b : Nat) : (s.event b).sec = s.sec := by
  unfold State.event; split
  · rfl
  · exact State.msix_sec _ _
@[simp] theorem State.event_obs (s : State) (b : Nat) : (s.event b).obs = s.obs := by
  unfold State.event; split
  · rfl
  · exact State.msix_obs _ _
@[simp] theorem State.event_power (s : State) (b : Nat) : (s.event b).power = s.power := by
  unfold State.event; split
  · rfl
  · exact State.msix_power _ _
@[simp] theorem State.event_pins (s : State) (b : Nat) : (s.event b).pins = s.pins := by
  unfold State.event; split
  · rfl
  · exact State.msix_pins _ _
@[simp] theorem State.event_startup (s : State) (b : Nat) : (s.event b).startup = s.startup := by
  unfold State.event; split
  · rfl
  · exact State.msix_startup _ _
/-! `stewardEvent` -/
@[simp] theorem State.stewardEvent_pending (s : State) (e : StewardEvent) : (s.stewardEvent e).pending = s.pending := by
  unfold State.stewardEvent; split
  · exact State.event_pending _ _
  · rfl
@[simp] theorem State.stewardEvent_time (s : State) (e : StewardEvent) : (s.stewardEvent e).time = s.time := by
  unfold State.stewardEvent; split
  · exact State.event_time _ _
  · rfl
@[simp] theorem State.stewardEvent_net (s : State) (e : StewardEvent) : (s.stewardEvent e).net = s.net := by
  unfold State.stewardEvent; split
  · exact State.event_net _ _
  · rfl
@[simp] theorem State.stewardEvent_nextId (s : State) (e : StewardEvent) : (s.stewardEvent e).nextId = s.nextId := by
  unfold State.stewardEvent; split
  · exact State.event_nextId _ _
  · rfl
@[simp] theorem State.stewardEvent_fresh (s : State) (e : StewardEvent) : (s.stewardEvent e).fresh = s.fresh := by
  unfold State.stewardEvent; split
  · exact State.event_fresh _ _
  · rfl
@[simp] theorem State.stewardEvent_live (s : State) (e : StewardEvent) : (s.stewardEvent e).live = s.live := by
  unfold State.stewardEvent; split
  · exact State.event_live _ _
  · rfl
@[simp] theorem State.stewardEvent_faults (s : State) (e : StewardEvent) : (s.stewardEvent e).faults = s.faults := by
  unfold State.stewardEvent; split
  · exact State.event_faults _ _
  · rfl
@[simp] theorem State.stewardEvent_ports (s : State) (e : StewardEvent) : (s.stewardEvent e).ports = s.ports := by
  unfold State.stewardEvent; split
  · exact State.event_ports _ _
  · rfl
@[simp] theorem State.stewardEvent_slices (s : State) (e : StewardEvent) : (s.stewardEvent e).slices = s.slices := by
  unfold State.stewardEvent; split
  · exact State.event_slices _ _
  · rfl
@[simp] theorem State.stewardEvent_seq (s : State) (e : StewardEvent) : (s.stewardEvent e).seq = s.seq := by
  unfold State.stewardEvent; split
  · exact State.event_seq _ _
  · rfl
@[simp] theorem State.stewardEvent_clusters (s : State) (e : StewardEvent) : (s.stewardEvent e).clusters = s.clusters := by
  unfold State.stewardEvent; split
  · exact State.event_clusters _ _
  · rfl
@[simp] theorem State.stewardEvent_tables (s : State) (e : StewardEvent) : (s.stewardEvent e).tables = s.tables := by
  unfold State.stewardEvent; split
  · exact State.event_tables _ _
  · rfl
@[simp] theorem State.stewardEvent_tasks (s : State) (e : StewardEvent) : (s.stewardEvent e).tasks = s.tasks := by
  unfold State.stewardEvent; split
  · exact State.event_tasks _ _
  · rfl
@[simp] theorem State.stewardEvent_pools (s : State) (e : StewardEvent) : (s.stewardEvent e).pools = s.pools := by
  unfold State.stewardEvent; split
  · exact State.event_pools _ _
  · rfl
@[simp] theorem State.stewardEvent_qm (s : State) (e : StewardEvent) : (s.stewardEvent e).qm = s.qm := by
  unfold State.stewardEvent; split
  · exact State.event_qm _ _
  · rfl
@[simp] theorem State.stewardEvent_dram (s : State) (e : StewardEvent) : (s.stewardEvent e).dram = s.dram := by
  unfold State.stewardEvent; split
  · exact State.event_dram _ _
  · rfl
@[simp] theorem State.stewardEvent_accord (s : State) (e : StewardEvent) : (s.stewardEvent e).accord = s.accord := by
  unfold State.stewardEvent; split
  · exact State.event_accord _ _
  · rfl
@[simp] theorem State.stewardEvent_scrub (s : State) (e : StewardEvent) : (s.stewardEvent e).scrub = s.scrub := by
  unfold State.stewardEvent; split
  · exact State.event_scrub _ _
  · rfl
@[simp] theorem State.stewardEvent_sec (s : State) (e : StewardEvent) : (s.stewardEvent e).sec = s.sec := by
  unfold State.stewardEvent; split
  · exact State.event_sec _ _
  · rfl
@[simp] theorem State.stewardEvent_obs (s : State) (e : StewardEvent) : (s.stewardEvent e).obs = s.obs := by
  unfold State.stewardEvent; split
  · exact State.event_obs _ _
  · rfl
@[simp] theorem State.stewardEvent_power (s : State) (e : StewardEvent) : (s.stewardEvent e).power = s.power := by
  unfold State.stewardEvent; split
  · exact State.event_power _ _
  · rfl
@[simp] theorem State.stewardEvent_pins (s : State) (e : StewardEvent) : (s.stewardEvent e).pins = s.pins := by
  unfold State.stewardEvent; split
  · exact State.event_pins _ _
  · rfl
@[simp] theorem State.stewardEvent_startup (s : State) (e : StewardEvent) : (s.stewardEvent e).startup = s.startup := by
  unfold State.stewardEvent; split
  · exact State.event_startup _ _
  · rfl
/-! `sweepFrame` -/
@[simp] theorem State.sweepFrame_pending (s : State) (c i : Nat) : (s.sweepFrame c i).pending = s.pending := by
  unfold State.sweepFrame; split <;> rfl
@[simp] theorem State.sweepFrame_time (s : State) (c i : Nat) : (s.sweepFrame c i).time = s.time := by
  unfold State.sweepFrame; split <;> rfl
@[simp] theorem State.sweepFrame_net (s : State) (c i : Nat) : (s.sweepFrame c i).net = s.net := by
  unfold State.sweepFrame; split <;> rfl
@[simp] theorem State.sweepFrame_nextId (s : State) (c i : Nat) : (s.sweepFrame c i).nextId = s.nextId := by
  unfold State.sweepFrame; split <;> rfl
@[simp] theorem State.sweepFrame_fresh (s : State) (c i : Nat) : (s.sweepFrame c i).fresh = s.fresh := by
  unfold State.sweepFrame; split <;> rfl
@[simp] theorem State.sweepFrame_live (s : State) (c i : Nat) : (s.sweepFrame c i).live = s.live := by
  unfold State.sweepFrame; split <;> rfl
@[simp] theorem State.sweepFrame_faults (s : State) (c i : Nat) : (s.sweepFrame c i).faults = s.faults := by
  unfold State.sweepFrame; split <;> rfl
@[simp] theorem State.sweepFrame_ycp (s : State) (c i : Nat) : (s.sweepFrame c i).ycp = s.ycp := by
  unfold State.sweepFrame; split <;> rfl
@[simp] theorem State.sweepFrame_bar0 (s : State) (c i : Nat) : (s.sweepFrame c i).bar0 = s.bar0 := by
  unfold State.sweepFrame; split <;> rfl
@[simp] theorem State.sweepFrame_ports (s : State) (c i : Nat) : (s.sweepFrame c i).ports = s.ports := by
  unfold State.sweepFrame; split <;> rfl
@[simp] theorem State.sweepFrame_slices (s : State) (c i : Nat) : (s.sweepFrame c i).slices = s.slices := by
  unfold State.sweepFrame; split <;> rfl
@[simp] theorem State.sweepFrame_seq (s : State) (c i : Nat) : (s.sweepFrame c i).seq = s.seq := by
  unfold State.sweepFrame; split <;> rfl
@[simp] theorem State.sweepFrame_clusters (s : State) (c i : Nat) : (s.sweepFrame c i).clusters = s.clusters := by
  unfold State.sweepFrame; split <;> rfl
@[simp] theorem State.sweepFrame_tables (s : State) (c i : Nat) : (s.sweepFrame c i).tables = s.tables := by
  unfold State.sweepFrame; split <;> rfl
@[simp] theorem State.sweepFrame_tasks (s : State) (c i : Nat) : (s.sweepFrame c i).tasks = s.tasks := by
  unfold State.sweepFrame; split <;> rfl
@[simp] theorem State.sweepFrame_pools (s : State) (c i : Nat) : (s.sweepFrame c i).pools = s.pools := by
  unfold State.sweepFrame; split <;> rfl
@[simp] theorem State.sweepFrame_qm (s : State) (c i : Nat) : (s.sweepFrame c i).qm = s.qm := by
  unfold State.sweepFrame; split <;> rfl
@[simp] theorem State.sweepFrame_accord (s : State) (c i : Nat) : (s.sweepFrame c i).accord = s.accord := by
  unfold State.sweepFrame; split <;> rfl
@[simp] theorem State.sweepFrame_scrub (s : State) (c i : Nat) : (s.sweepFrame c i).scrub = s.scrub := by
  unfold State.sweepFrame; split <;> rfl
@[simp] theorem State.sweepFrame_sec (s : State) (c i : Nat) : (s.sweepFrame c i).sec = s.sec := by
  unfold State.sweepFrame; split <;> rfl
@[simp] theorem State.sweepFrame_obs (s : State) (c i : Nat) : (s.sweepFrame c i).obs = s.obs := by
  unfold State.sweepFrame; split <;> rfl
@[simp] theorem State.sweepFrame_power (s : State) (c i : Nat) : (s.sweepFrame c i).power = s.power := by
  unfold State.sweepFrame; split <;> rfl
@[simp] theorem State.sweepFrame_pins (s : State) (c i : Nat) : (s.sweepFrame c i).pins = s.pins := by
  unfold State.sweepFrame; split <;> rfl
@[simp] theorem State.sweepFrame_startup (s : State) (c i : Nat) : (s.sweepFrame c i).startup = s.startup := by
  unfold State.sweepFrame; split <;> rfl
@[simp] theorem State.sweepFrame_out (s : State) (c i : Nat) : (s.sweepFrame c i).out = s.out := by
  unfold State.sweepFrame; split <;> rfl
/-! `corrected` -/
@[simp] theorem State.corrected_pending (s : State) (c r d n : Nat) : (s.corrected c r d n).pending = s.pending := by
  unfold State.corrected; dsimp only; split <;> simp
@[simp] theorem State.corrected_time (s : State) (c r d n : Nat) : (s.corrected c r d n).time = s.time := by
  unfold State.corrected; dsimp only; split <;> simp
@[simp] theorem State.corrected_net (s : State) (c r d n : Nat) : (s.corrected c r d n).net = s.net := by
  unfold State.corrected; dsimp only; split <;> simp
@[simp] theorem State.corrected_nextId (s : State) (c r d n : Nat) : (s.corrected c r d n).nextId = s.nextId := by
  unfold State.corrected; dsimp only; split <;> simp
@[simp] theorem State.corrected_fresh (s : State) (c r d n : Nat) : (s.corrected c r d n).fresh = s.fresh := by
  unfold State.corrected; dsimp only; split <;> simp
@[simp] theorem State.corrected_live (s : State) (c r d n : Nat) : (s.corrected c r d n).live = s.live := by
  unfold State.corrected; dsimp only; split <;> simp
@[simp] theorem State.corrected_ycp (s : State) (c r d n : Nat) : (s.corrected c r d n).ycp = s.ycp := by
  unfold State.corrected; dsimp only; split <;> simp
@[simp] theorem State.corrected_bar0 (s : State) (c r d n : Nat) : (s.corrected c r d n).bar0 = s.bar0 := by
  unfold State.corrected; dsimp only; split <;> simp
@[simp] theorem State.corrected_ports (s : State) (c r d n : Nat) : (s.corrected c r d n).ports = s.ports := by
  unfold State.corrected; dsimp only; split <;> simp
@[simp] theorem State.corrected_slices (s : State) (c r d n : Nat) : (s.corrected c r d n).slices = s.slices := by
  unfold State.corrected; dsimp only; split <;> simp
@[simp] theorem State.corrected_seq (s : State) (c r d n : Nat) : (s.corrected c r d n).seq = s.seq := by
  unfold State.corrected; dsimp only; split <;> simp
@[simp] theorem State.corrected_clusters (s : State) (c r d n : Nat) : (s.corrected c r d n).clusters = s.clusters := by
  unfold State.corrected; dsimp only; split <;> simp
@[simp] theorem State.corrected_tables (s : State) (c r d n : Nat) : (s.corrected c r d n).tables = s.tables := by
  unfold State.corrected; dsimp only; split <;> simp
@[simp] theorem State.corrected_tasks (s : State) (c r d n : Nat) : (s.corrected c r d n).tasks = s.tasks := by
  unfold State.corrected; dsimp only; split <;> simp
@[simp] theorem State.corrected_pools (s : State) (c r d n : Nat) : (s.corrected c r d n).pools = s.pools := by
  unfold State.corrected; dsimp only; split <;> simp
@[simp] theorem State.corrected_qm (s : State) (c r d n : Nat) : (s.corrected c r d n).qm = s.qm := by
  unfold State.corrected; dsimp only; split <;> simp
@[simp] theorem State.corrected_accord (s : State) (c r d n : Nat) : (s.corrected c r d n).accord = s.accord := by
  unfold State.corrected; dsimp only; split <;> simp
@[simp] theorem State.corrected_scrub (s : State) (c r d n : Nat) : (s.corrected c r d n).scrub = s.scrub := by
  unfold State.corrected; dsimp only; split <;> simp
@[simp] theorem State.corrected_sec (s : State) (c r d n : Nat) : (s.corrected c r d n).sec = s.sec := by
  unfold State.corrected; dsimp only; split <;> simp
@[simp] theorem State.corrected_power (s : State) (c r d n : Nat) : (s.corrected c r d n).power = s.power := by
  unfold State.corrected; dsimp only; split <;> simp
@[simp] theorem State.corrected_pins (s : State) (c r d n : Nat) : (s.corrected c r d n).pins = s.pins := by
  unfold State.corrected; dsimp only; split <;> simp
@[simp] theorem State.corrected_startup (s : State) (c r d n : Nat) : (s.corrected c r d n).startup = s.startup := by
  unfold State.corrected; dsimp only; split <;> simp
@[simp] theorem State.corrected_out (s : State) (c r d n : Nat) : (s.corrected c r d n).out = s.out := by
  unfold State.corrected; dsimp only; split <;> simp
/-! `decodeLine` -/
@[simp] theorem State.decodeLine_pending (s : State) (l : Nat) : (s.decodeLine l).pending = s.pending := by
  unfold State.decodeLine; split
  · rfl
  · exact foldl_keeps State.pending _ (fun _ _ => State.corrected_pending _ _ _ _ _) _ _
@[simp] theorem State.decodeLine_time (s : State) (l : Nat) : (s.decodeLine l).time = s.time := by
  unfold State.decodeLine; split
  · rfl
  · exact foldl_keeps State.time _ (fun _ _ => State.corrected_time _ _ _ _ _) _ _
@[simp] theorem State.decodeLine_net (s : State) (l : Nat) : (s.decodeLine l).net = s.net := by
  unfold State.decodeLine; split
  · rfl
  · exact foldl_keeps State.net _ (fun _ _ => State.corrected_net _ _ _ _ _) _ _
@[simp] theorem State.decodeLine_nextId (s : State) (l : Nat) : (s.decodeLine l).nextId = s.nextId := by
  unfold State.decodeLine; split
  · rfl
  · exact foldl_keeps State.nextId _ (fun _ _ => State.corrected_nextId _ _ _ _ _) _ _
@[simp] theorem State.decodeLine_fresh (s : State) (l : Nat) : (s.decodeLine l).fresh = s.fresh := by
  unfold State.decodeLine; split
  · rfl
  · exact foldl_keeps State.fresh _ (fun _ _ => State.corrected_fresh _ _ _ _ _) _ _
@[simp] theorem State.decodeLine_live (s : State) (l : Nat) : (s.decodeLine l).live = s.live := by
  unfold State.decodeLine; split
  · rfl
  · exact foldl_keeps State.live _ (fun _ _ => State.corrected_live _ _ _ _ _) _ _
@[simp] theorem State.decodeLine_ycp (s : State) (l : Nat) : (s.decodeLine l).ycp = s.ycp := by
  unfold State.decodeLine; split
  · rfl
  · exact foldl_keeps State.ycp _ (fun _ _ => State.corrected_ycp _ _ _ _ _) _ _
@[simp] theorem State.decodeLine_bar0 (s : State) (l : Nat) : (s.decodeLine l).bar0 = s.bar0 := by
  unfold State.decodeLine; split
  · rfl
  · exact foldl_keeps State.bar0 _ (fun _ _ => State.corrected_bar0 _ _ _ _ _) _ _
@[simp] theorem State.decodeLine_ports (s : State) (l : Nat) : (s.decodeLine l).ports = s.ports := by
  unfold State.decodeLine; split
  · rfl
  · exact foldl_keeps State.ports _ (fun _ _ => State.corrected_ports _ _ _ _ _) _ _
@[simp] theorem State.decodeLine_slices (s : State) (l : Nat) : (s.decodeLine l).slices = s.slices := by
  unfold State.decodeLine; split
  · rfl
  · exact foldl_keeps State.slices _ (fun _ _ => State.corrected_slices _ _ _ _ _) _ _
@[simp] theorem State.decodeLine_seq (s : State) (l : Nat) : (s.decodeLine l).seq = s.seq := by
  unfold State.decodeLine; split
  · rfl
  · exact foldl_keeps State.seq _ (fun _ _ => State.corrected_seq _ _ _ _ _) _ _
@[simp] theorem State.decodeLine_clusters (s : State) (l : Nat) : (s.decodeLine l).clusters = s.clusters := by
  unfold State.decodeLine; split
  · rfl
  · exact foldl_keeps State.clusters _ (fun _ _ => State.corrected_clusters _ _ _ _ _) _ _
@[simp] theorem State.decodeLine_tables (s : State) (l : Nat) : (s.decodeLine l).tables = s.tables := by
  unfold State.decodeLine; split
  · rfl
  · exact foldl_keeps State.tables _ (fun _ _ => State.corrected_tables _ _ _ _ _) _ _
@[simp] theorem State.decodeLine_tasks (s : State) (l : Nat) : (s.decodeLine l).tasks = s.tasks := by
  unfold State.decodeLine; split
  · rfl
  · exact foldl_keeps State.tasks _ (fun _ _ => State.corrected_tasks _ _ _ _ _) _ _
@[simp] theorem State.decodeLine_pools (s : State) (l : Nat) : (s.decodeLine l).pools = s.pools := by
  unfold State.decodeLine; split
  · rfl
  · exact foldl_keeps State.pools _ (fun _ _ => State.corrected_pools _ _ _ _ _) _ _
@[simp] theorem State.decodeLine_qm (s : State) (l : Nat) : (s.decodeLine l).qm = s.qm := by
  unfold State.decodeLine; split
  · rfl
  · exact foldl_keeps State.qm _ (fun _ _ => State.corrected_qm _ _ _ _ _) _ _
@[simp] theorem State.decodeLine_accord (s : State) (l : Nat) : (s.decodeLine l).accord = s.accord := by
  unfold State.decodeLine; split
  · rfl
  · exact foldl_keeps State.accord _ (fun _ _ => State.corrected_accord _ _ _ _ _) _ _
@[simp] theorem State.decodeLine_scrub (s : State) (l : Nat) : (s.decodeLine l).scrub = s.scrub := by
  unfold State.decodeLine; split
  · rfl
  · exact foldl_keeps State.scrub _ (fun _ _ => State.corrected_scrub _ _ _ _ _) _ _
@[simp] theorem State.decodeLine_sec (s : State) (l : Nat) : (s.decodeLine l).sec = s.sec := by
  unfold State.decodeLine; split
  · rfl
  · exact foldl_keeps State.sec _ (fun _ _ => State.corrected_sec _ _ _ _ _) _ _
@[simp] theorem State.decodeLine_power (s : State) (l : Nat) : (s.decodeLine l).power = s.power := by
  unfold State.decodeLine; split
  · rfl
  · exact foldl_keeps State.power _ (fun _ _ => State.corrected_power _ _ _ _ _) _ _
@[simp] theorem State.decodeLine_pins (s : State) (l : Nat) : (s.decodeLine l).pins = s.pins := by
  unfold State.decodeLine; split
  · rfl
  · exact foldl_keeps State.pins _ (fun _ _ => State.corrected_pins _ _ _ _ _) _ _
@[simp] theorem State.decodeLine_startup (s : State) (l : Nat) : (s.decodeLine l).startup = s.startup := by
  unfold State.decodeLine; split
  · rfl
  · exact foldl_keeps State.startup _ (fun _ _ => State.corrected_startup _ _ _ _ _) _ _
@[simp] theorem State.decodeLine_out (s : State) (l : Nat) : (s.decodeLine l).out = s.out := by
  unfold State.decodeLine; split
  · rfl
  · exact foldl_keeps State.out _ (fun _ _ => State.corrected_out _ _ _ _ _) _ _
/-! `readyLines` -/
@[simp] theorem State.readyLines_pending (s : State) (l : List Nat) (w : Nat → Bool) : (s.readyLines l w).pending = s.pending := (foldl_keeps State.pending _ (fun _ _ => State.decodeLine_pending _ _) _ _).trans (foldl_keeps State.pending _ (fun _ _ => State.sweepFrame_pending _ _ _) _ _)
@[simp] theorem State.readyLines_time (s : State) (l : List Nat) (w : Nat → Bool) : (s.readyLines l w).time = s.time := (foldl_keeps State.time _ (fun _ _ => State.decodeLine_time _ _) _ _).trans (foldl_keeps State.time _ (fun _ _ => State.sweepFrame_time _ _ _) _ _)
@[simp] theorem State.readyLines_net (s : State) (l : List Nat) (w : Nat → Bool) : (s.readyLines l w).net = s.net := (foldl_keeps State.net _ (fun _ _ => State.decodeLine_net _ _) _ _).trans (foldl_keeps State.net _ (fun _ _ => State.sweepFrame_net _ _ _) _ _)
@[simp] theorem State.readyLines_nextId (s : State) (l : List Nat) (w : Nat → Bool) : (s.readyLines l w).nextId = s.nextId := (foldl_keeps State.nextId _ (fun _ _ => State.decodeLine_nextId _ _) _ _).trans (foldl_keeps State.nextId _ (fun _ _ => State.sweepFrame_nextId _ _ _) _ _)
@[simp] theorem State.readyLines_fresh (s : State) (l : List Nat) (w : Nat → Bool) : (s.readyLines l w).fresh = s.fresh := (foldl_keeps State.fresh _ (fun _ _ => State.decodeLine_fresh _ _) _ _).trans (foldl_keeps State.fresh _ (fun _ _ => State.sweepFrame_fresh _ _ _) _ _)
@[simp] theorem State.readyLines_live (s : State) (l : List Nat) (w : Nat → Bool) : (s.readyLines l w).live = s.live := (foldl_keeps State.live _ (fun _ _ => State.decodeLine_live _ _) _ _).trans (foldl_keeps State.live _ (fun _ _ => State.sweepFrame_live _ _ _) _ _)
@[simp] theorem State.readyLines_ycp (s : State) (l : List Nat) (w : Nat → Bool) : (s.readyLines l w).ycp = s.ycp := (foldl_keeps State.ycp _ (fun _ _ => State.decodeLine_ycp _ _) _ _).trans (foldl_keeps State.ycp _ (fun _ _ => State.sweepFrame_ycp _ _ _) _ _)
@[simp] theorem State.readyLines_bar0 (s : State) (l : List Nat) (w : Nat → Bool) : (s.readyLines l w).bar0 = s.bar0 := (foldl_keeps State.bar0 _ (fun _ _ => State.decodeLine_bar0 _ _) _ _).trans (foldl_keeps State.bar0 _ (fun _ _ => State.sweepFrame_bar0 _ _ _) _ _)
@[simp] theorem State.readyLines_ports (s : State) (l : List Nat) (w : Nat → Bool) : (s.readyLines l w).ports = s.ports := (foldl_keeps State.ports _ (fun _ _ => State.decodeLine_ports _ _) _ _).trans (foldl_keeps State.ports _ (fun _ _ => State.sweepFrame_ports _ _ _) _ _)
@[simp] theorem State.readyLines_slices (s : State) (l : List Nat) (w : Nat → Bool) : (s.readyLines l w).slices = s.slices := (foldl_keeps State.slices _ (fun _ _ => State.decodeLine_slices _ _) _ _).trans (foldl_keeps State.slices _ (fun _ _ => State.sweepFrame_slices _ _ _) _ _)
@[simp] theorem State.readyLines_seq (s : State) (l : List Nat) (w : Nat → Bool) : (s.readyLines l w).seq = s.seq := (foldl_keeps State.seq _ (fun _ _ => State.decodeLine_seq _ _) _ _).trans (foldl_keeps State.seq _ (fun _ _ => State.sweepFrame_seq _ _ _) _ _)
@[simp] theorem State.readyLines_clusters (s : State) (l : List Nat) (w : Nat → Bool) : (s.readyLines l w).clusters = s.clusters := (foldl_keeps State.clusters _ (fun _ _ => State.decodeLine_clusters _ _) _ _).trans (foldl_keeps State.clusters _ (fun _ _ => State.sweepFrame_clusters _ _ _) _ _)
@[simp] theorem State.readyLines_tables (s : State) (l : List Nat) (w : Nat → Bool) : (s.readyLines l w).tables = s.tables := (foldl_keeps State.tables _ (fun _ _ => State.decodeLine_tables _ _) _ _).trans (foldl_keeps State.tables _ (fun _ _ => State.sweepFrame_tables _ _ _) _ _)
@[simp] theorem State.readyLines_tasks (s : State) (l : List Nat) (w : Nat → Bool) : (s.readyLines l w).tasks = s.tasks := (foldl_keeps State.tasks _ (fun _ _ => State.decodeLine_tasks _ _) _ _).trans (foldl_keeps State.tasks _ (fun _ _ => State.sweepFrame_tasks _ _ _) _ _)
@[simp] theorem State.readyLines_pools (s : State) (l : List Nat) (w : Nat → Bool) : (s.readyLines l w).pools = s.pools := (foldl_keeps State.pools _ (fun _ _ => State.decodeLine_pools _ _) _ _).trans (foldl_keeps State.pools _ (fun _ _ => State.sweepFrame_pools _ _ _) _ _)
@[simp] theorem State.readyLines_qm (s : State) (l : List Nat) (w : Nat → Bool) : (s.readyLines l w).qm = s.qm := (foldl_keeps State.qm _ (fun _ _ => State.decodeLine_qm _ _) _ _).trans (foldl_keeps State.qm _ (fun _ _ => State.sweepFrame_qm _ _ _) _ _)
@[simp] theorem State.readyLines_accord (s : State) (l : List Nat) (w : Nat → Bool) : (s.readyLines l w).accord = s.accord := (foldl_keeps State.accord _ (fun _ _ => State.decodeLine_accord _ _) _ _).trans (foldl_keeps State.accord _ (fun _ _ => State.sweepFrame_accord _ _ _) _ _)
@[simp] theorem State.readyLines_scrub (s : State) (l : List Nat) (w : Nat → Bool) : (s.readyLines l w).scrub = s.scrub := (foldl_keeps State.scrub _ (fun _ _ => State.decodeLine_scrub _ _) _ _).trans (foldl_keeps State.scrub _ (fun _ _ => State.sweepFrame_scrub _ _ _) _ _)
@[simp] theorem State.readyLines_sec (s : State) (l : List Nat) (w : Nat → Bool) : (s.readyLines l w).sec = s.sec := (foldl_keeps State.sec _ (fun _ _ => State.decodeLine_sec _ _) _ _).trans (foldl_keeps State.sec _ (fun _ _ => State.sweepFrame_sec _ _ _) _ _)
@[simp] theorem State.readyLines_power (s : State) (l : List Nat) (w : Nat → Bool) : (s.readyLines l w).power = s.power := (foldl_keeps State.power _ (fun _ _ => State.decodeLine_power _ _) _ _).trans (foldl_keeps State.power _ (fun _ _ => State.sweepFrame_power _ _ _) _ _)
@[simp] theorem State.readyLines_pins (s : State) (l : List Nat) (w : Nat → Bool) : (s.readyLines l w).pins = s.pins := (foldl_keeps State.pins _ (fun _ _ => State.decodeLine_pins _ _) _ _).trans (foldl_keeps State.pins _ (fun _ _ => State.sweepFrame_pins _ _ _) _ _)
@[simp] theorem State.readyLines_startup (s : State) (l : List Nat) (w : Nat → Bool) : (s.readyLines l w).startup = s.startup := (foldl_keeps State.startup _ (fun _ _ => State.decodeLine_startup _ _) _ _).trans (foldl_keeps State.startup _ (fun _ _ => State.sweepFrame_startup _ _ _) _ _)
@[simp] theorem State.readyLines_out (s : State) (l : List Nat) (w : Nat → Bool) : (s.readyLines l w).out = s.out := (foldl_keeps State.out _ (fun _ _ => State.decodeLine_out _ _) _ _).trans (foldl_keeps State.out _ (fun _ _ => State.sweepFrame_out _ _ _) _ _)
/-! `dramWrite` -/
@[simp] theorem State.dramWrite_pending (s : State) (a : Nat) (l : List Byte) : (s.dramWrite a l).pending = s.pending := State.readyLines_pending _ _ _
@[simp] theorem State.dramWrite_time (s : State) (a : Nat) (l : List Byte) : (s.dramWrite a l).time = s.time := State.readyLines_time _ _ _
@[simp] theorem State.dramWrite_net (s : State) (a : Nat) (l : List Byte) : (s.dramWrite a l).net = s.net := State.readyLines_net _ _ _
@[simp] theorem State.dramWrite_nextId (s : State) (a : Nat) (l : List Byte) : (s.dramWrite a l).nextId = s.nextId := State.readyLines_nextId _ _ _
@[simp] theorem State.dramWrite_fresh (s : State) (a : Nat) (l : List Byte) : (s.dramWrite a l).fresh = s.fresh := State.readyLines_fresh _ _ _
@[simp] theorem State.dramWrite_live (s : State) (a : Nat) (l : List Byte) : (s.dramWrite a l).live = s.live := State.readyLines_live _ _ _
@[simp] theorem State.dramWrite_ycp (s : State) (a : Nat) (l : List Byte) : (s.dramWrite a l).ycp = s.ycp := State.readyLines_ycp _ _ _
@[simp] theorem State.dramWrite_bar0 (s : State) (a : Nat) (l : List Byte) : (s.dramWrite a l).bar0 = s.bar0 := State.readyLines_bar0 _ _ _
@[simp] theorem State.dramWrite_ports (s : State) (a : Nat) (l : List Byte) : (s.dramWrite a l).ports = s.ports := State.readyLines_ports _ _ _
@[simp] theorem State.dramWrite_slices (s : State) (a : Nat) (l : List Byte) : (s.dramWrite a l).slices = s.slices := State.readyLines_slices _ _ _
@[simp] theorem State.dramWrite_seq (s : State) (a : Nat) (l : List Byte) : (s.dramWrite a l).seq = s.seq := State.readyLines_seq _ _ _
@[simp] theorem State.dramWrite_clusters (s : State) (a : Nat) (l : List Byte) : (s.dramWrite a l).clusters = s.clusters := State.readyLines_clusters _ _ _
@[simp] theorem State.dramWrite_tables (s : State) (a : Nat) (l : List Byte) : (s.dramWrite a l).tables = s.tables := State.readyLines_tables _ _ _
@[simp] theorem State.dramWrite_tasks (s : State) (a : Nat) (l : List Byte) : (s.dramWrite a l).tasks = s.tasks := State.readyLines_tasks _ _ _
@[simp] theorem State.dramWrite_pools (s : State) (a : Nat) (l : List Byte) : (s.dramWrite a l).pools = s.pools := State.readyLines_pools _ _ _
@[simp] theorem State.dramWrite_qm (s : State) (a : Nat) (l : List Byte) : (s.dramWrite a l).qm = s.qm := State.readyLines_qm _ _ _
@[simp] theorem State.dramWrite_accord (s : State) (a : Nat) (l : List Byte) : (s.dramWrite a l).accord = s.accord := State.readyLines_accord _ _ _
@[simp] theorem State.dramWrite_scrub (s : State) (a : Nat) (l : List Byte) : (s.dramWrite a l).scrub = s.scrub := State.readyLines_scrub _ _ _
@[simp] theorem State.dramWrite_sec (s : State) (a : Nat) (l : List Byte) : (s.dramWrite a l).sec = s.sec := State.readyLines_sec _ _ _
@[simp] theorem State.dramWrite_power (s : State) (a : Nat) (l : List Byte) : (s.dramWrite a l).power = s.power := State.readyLines_power _ _ _
@[simp] theorem State.dramWrite_pins (s : State) (a : Nat) (l : List Byte) : (s.dramWrite a l).pins = s.pins := State.readyLines_pins _ _ _
@[simp] theorem State.dramWrite_startup (s : State) (a : Nat) (l : List Byte) : (s.dramWrite a l).startup = s.startup := State.readyLines_startup _ _ _
@[simp] theorem State.dramWrite_out (s : State) (a : Nat) (l : List Byte) : (s.dramWrite a l).out = s.out := State.readyLines_out _ _ _
/-! `placeReq` -/
@[simp] theorem State.placeReq_pending (s : State) (c : Nat) (r : DramReq) : (s.placeReq c r).pending = s.pending := rfl
@[simp] theorem State.placeReq_time (s : State) (c : Nat) (r : DramReq) : (s.placeReq c r).time = s.time := rfl
@[simp] theorem State.placeReq_net (s : State) (c : Nat) (r : DramReq) : (s.placeReq c r).net = s.net := rfl
@[simp] theorem State.placeReq_nextId (s : State) (c : Nat) (r : DramReq) : (s.placeReq c r).nextId = s.nextId := rfl
@[simp] theorem State.placeReq_fresh (s : State) (c : Nat) (r : DramReq) : (s.placeReq c r).fresh = s.fresh := rfl
@[simp] theorem State.placeReq_live (s : State) (c : Nat) (r : DramReq) : (s.placeReq c r).live = s.live := rfl
@[simp] theorem State.placeReq_faults (s : State) (c : Nat) (r : DramReq) : (s.placeReq c r).faults = s.faults := rfl
@[simp] theorem State.placeReq_ycp (s : State) (c : Nat) (r : DramReq) : (s.placeReq c r).ycp = s.ycp := rfl
@[simp] theorem State.placeReq_bar0 (s : State) (c : Nat) (r : DramReq) : (s.placeReq c r).bar0 = s.bar0 := rfl
@[simp] theorem State.placeReq_ports (s : State) (c : Nat) (r : DramReq) : (s.placeReq c r).ports = s.ports := rfl
@[simp] theorem State.placeReq_slices (s : State) (c : Nat) (r : DramReq) : (s.placeReq c r).slices = s.slices := rfl
@[simp] theorem State.placeReq_seq (s : State) (c : Nat) (r : DramReq) : (s.placeReq c r).seq = s.seq := rfl
@[simp] theorem State.placeReq_clusters (s : State) (c : Nat) (r : DramReq) : (s.placeReq c r).clusters = s.clusters := rfl
@[simp] theorem State.placeReq_tables (s : State) (c : Nat) (r : DramReq) : (s.placeReq c r).tables = s.tables := rfl
@[simp] theorem State.placeReq_tasks (s : State) (c : Nat) (r : DramReq) : (s.placeReq c r).tasks = s.tasks := rfl
@[simp] theorem State.placeReq_pools (s : State) (c : Nat) (r : DramReq) : (s.placeReq c r).pools = s.pools := rfl
@[simp] theorem State.placeReq_qm (s : State) (c : Nat) (r : DramReq) : (s.placeReq c r).qm = s.qm := rfl
@[simp] theorem State.placeReq_accord (s : State) (c : Nat) (r : DramReq) : (s.placeReq c r).accord = s.accord := rfl
@[simp] theorem State.placeReq_scrub (s : State) (c : Nat) (r : DramReq) : (s.placeReq c r).scrub = s.scrub := rfl
@[simp] theorem State.placeReq_sec (s : State) (c : Nat) (r : DramReq) : (s.placeReq c r).sec = s.sec := rfl
@[simp] theorem State.placeReq_obs (s : State) (c : Nat) (r : DramReq) : (s.placeReq c r).obs = s.obs := rfl
@[simp] theorem State.placeReq_power (s : State) (c : Nat) (r : DramReq) : (s.placeReq c r).power = s.power := rfl
@[simp] theorem State.placeReq_pins (s : State) (c : Nat) (r : DramReq) : (s.placeReq c r).pins = s.pins := rfl
@[simp] theorem State.placeReq_startup (s : State) (c : Nat) (r : DramReq) : (s.placeReq c r).startup = s.startup := rfl
@[simp] theorem State.placeReq_out (s : State) (c : Nat) (r : DramReq) : (s.placeReq c r).out = s.out := rfl
/-! `dramIssue` -/
@[simp] theorem State.dramIssue_pending (s : State) (w : Bool) (l : List Nat) (k m : Nat) : (s.dramIssue w l k m).pending = s.pending := by
  refine foldl_keeps State.pending _ (fun _ _ => ?_) _ _; dsimp only; split <;> simp
@[simp] theorem State.dramIssue_time (s : State) (w : Bool) (l : List Nat) (k m : Nat) : (s.dramIssue w l k m).time = s.time := by
  refine foldl_keeps State.time _ (fun _ _ => ?_) _ _; dsimp only; split <;> simp
@[simp] theorem State.dramIssue_net (s : State) (w : Bool) (l : List Nat) (k m : Nat) : (s.dramIssue w l k m).net = s.net := by
  refine foldl_keeps State.net _ (fun _ _ => ?_) _ _; dsimp only; split <;> simp
@[simp] theorem State.dramIssue_nextId (s : State) (w : Bool) (l : List Nat) (k m : Nat) : (s.dramIssue w l k m).nextId = s.nextId := by
  refine foldl_keeps State.nextId _ (fun _ _ => ?_) _ _; dsimp only; split <;> simp
@[simp] theorem State.dramIssue_fresh (s : State) (w : Bool) (l : List Nat) (k m : Nat) : (s.dramIssue w l k m).fresh = s.fresh := by
  refine foldl_keeps State.fresh _ (fun _ _ => ?_) _ _; dsimp only; split <;> simp
@[simp] theorem State.dramIssue_live (s : State) (w : Bool) (l : List Nat) (k m : Nat) : (s.dramIssue w l k m).live = s.live := by
  refine foldl_keeps State.live _ (fun _ _ => ?_) _ _; dsimp only; split <;> simp
@[simp] theorem State.dramIssue_faults (s : State) (w : Bool) (l : List Nat) (k m : Nat) : (s.dramIssue w l k m).faults = s.faults := by
  refine foldl_keeps State.faults _ (fun _ _ => ?_) _ _; dsimp only; split <;> simp
@[simp] theorem State.dramIssue_ycp (s : State) (w : Bool) (l : List Nat) (k m : Nat) : (s.dramIssue w l k m).ycp = s.ycp := by
  refine foldl_keeps State.ycp _ (fun _ _ => ?_) _ _; dsimp only; split <;> simp
@[simp] theorem State.dramIssue_bar0 (s : State) (w : Bool) (l : List Nat) (k m : Nat) : (s.dramIssue w l k m).bar0 = s.bar0 := by
  refine foldl_keeps State.bar0 _ (fun _ _ => ?_) _ _; dsimp only; split <;> simp
@[simp] theorem State.dramIssue_ports (s : State) (w : Bool) (l : List Nat) (k m : Nat) : (s.dramIssue w l k m).ports = s.ports := by
  refine foldl_keeps State.ports _ (fun _ _ => ?_) _ _; dsimp only; split <;> simp
@[simp] theorem State.dramIssue_slices (s : State) (w : Bool) (l : List Nat) (k m : Nat) : (s.dramIssue w l k m).slices = s.slices := by
  refine foldl_keeps State.slices _ (fun _ _ => ?_) _ _; dsimp only; split <;> simp
@[simp] theorem State.dramIssue_seq (s : State) (w : Bool) (l : List Nat) (k m : Nat) : (s.dramIssue w l k m).seq = s.seq := by
  refine foldl_keeps State.seq _ (fun _ _ => ?_) _ _; dsimp only; split <;> simp
@[simp] theorem State.dramIssue_clusters (s : State) (w : Bool) (l : List Nat) (k m : Nat) : (s.dramIssue w l k m).clusters = s.clusters := by
  refine foldl_keeps State.clusters _ (fun _ _ => ?_) _ _; dsimp only; split <;> simp
@[simp] theorem State.dramIssue_tables (s : State) (w : Bool) (l : List Nat) (k m : Nat) : (s.dramIssue w l k m).tables = s.tables := by
  refine foldl_keeps State.tables _ (fun _ _ => ?_) _ _; dsimp only; split <;> simp
@[simp] theorem State.dramIssue_tasks (s : State) (w : Bool) (l : List Nat) (k m : Nat) : (s.dramIssue w l k m).tasks = s.tasks := by
  refine foldl_keeps State.tasks _ (fun _ _ => ?_) _ _; dsimp only; split <;> simp
@[simp] theorem State.dramIssue_pools (s : State) (w : Bool) (l : List Nat) (k m : Nat) : (s.dramIssue w l k m).pools = s.pools := by
  refine foldl_keeps State.pools _ (fun _ _ => ?_) _ _; dsimp only; split <;> simp
@[simp] theorem State.dramIssue_qm (s : State) (w : Bool) (l : List Nat) (k m : Nat) : (s.dramIssue w l k m).qm = s.qm := by
  refine foldl_keeps State.qm _ (fun _ _ => ?_) _ _; dsimp only; split <;> simp
@[simp] theorem State.dramIssue_accord (s : State) (w : Bool) (l : List Nat) (k m : Nat) : (s.dramIssue w l k m).accord = s.accord := by
  refine foldl_keeps State.accord _ (fun _ _ => ?_) _ _; dsimp only; split <;> simp
@[simp] theorem State.dramIssue_scrub (s : State) (w : Bool) (l : List Nat) (k m : Nat) : (s.dramIssue w l k m).scrub = s.scrub := by
  refine foldl_keeps State.scrub _ (fun _ _ => ?_) _ _; dsimp only; split <;> simp
@[simp] theorem State.dramIssue_sec (s : State) (w : Bool) (l : List Nat) (k m : Nat) : (s.dramIssue w l k m).sec = s.sec := by
  refine foldl_keeps State.sec _ (fun _ _ => ?_) _ _; dsimp only; split <;> simp
@[simp] theorem State.dramIssue_power (s : State) (w : Bool) (l : List Nat) (k m : Nat) : (s.dramIssue w l k m).power = s.power := by
  refine foldl_keeps State.power _ (fun _ _ => ?_) _ _; dsimp only; split <;> simp
@[simp] theorem State.dramIssue_pins (s : State) (w : Bool) (l : List Nat) (k m : Nat) : (s.dramIssue w l k m).pins = s.pins := by
  refine foldl_keeps State.pins _ (fun _ _ => ?_) _ _; dsimp only; split <;> simp
@[simp] theorem State.dramIssue_startup (s : State) (w : Bool) (l : List Nat) (k m : Nat) : (s.dramIssue w l k m).startup = s.startup := by
  refine foldl_keeps State.startup _ (fun _ _ => ?_) _ _; dsimp only; split <;> simp
@[simp] theorem State.dramIssue_out (s : State) (w : Bool) (l : List Nat) (k m : Nat) : (s.dramIssue w l k m).out = s.out := by
  refine foldl_keeps State.out _ (fun _ _ => ?_) _ _; dsimp only; split <;> simp
/-! What is read after `modCl` -/
@[simp] theorem State.isl_after_modCl (s : State) (c : Nat) (f : Cluster → Cluster) (x : Nat) : (s.modCl c f).isl x = s.isl x := rfl
@[simp] theorem State.up_after_modCl (s : State) (c : Nat) (f : Cluster → Cluster) (x : Nat) : (s.modCl c f).up x = s.up x := rfl
@[simp] theorem State.inReset_after_modCl (s : State) (c : Nat) (f : Cluster → Cluster) (x : Nat) : (s.modCl c f).inReset x = s.inReset x := rfl
@[simp] theorem State.slc_after_modCl (s : State) (c : Nat) (f : Cluster → Cluster) (x : Nat) : (s.modCl c f).slc x = s.slc x := rfl
@[simp] theorem State.rcd_after_modCl (s : State) (c : Nat) (f : Cluster → Cluster) (x : Nat) : (s.modCl c f).rcd x = s.rcd x := rfl
@[simp] theorem State.port_after_modCl (s : State) (c : Nat) (f : Cluster → Cluster) (x : Nat) : (s.modCl c f).port x = s.port x := rfl
@[simp] theorem State.lane_after_modCl (s : State) (c : Nat) (f : Cluster → Cluster) (x : Nat) : (s.modCl c f).lane x = s.lane x := rfl
@[simp] theorem State.tsk_after_modCl (s : State) (c : Nat) (f : Cluster → Cluster) (x : Nat) : (s.modCl c f).tsk x = s.tsk x := rfl
@[simp] theorem State.desc_after_modCl (s : State) (c : Nat) (f : Cluster → Cluster) (x : Nat) : (s.modCl c f).desc x = s.desc x := rfl
@[simp] theorem State.pool_after_modCl (s : State) (c : Nat) (f : Cluster → Cluster) (x : Nat) : (s.modCl c f).pool x = s.pool x := rfl
@[simp] theorem State.queue_after_modCl (s : State) (c : Nat) (f : Cluster → Cluster) (x : Nat) : (s.modCl c f).queue x = s.queue x := rfl
@[simp] theorem State.chan_after_modCl (s : State) (c : Nat) (f : Cluster → Cluster) (x : Nat) : (s.modCl c f).chan x = s.chan x := rfl
@[simp] theorem State.lock_after_modCl (s : State) (c : Nat) (f : Cluster → Cluster) (x : Nat) : (s.modCl c f).lock x = s.lock x := rfl
@[simp] theorem State.copy_after_modCl (s : State) (c : Nat) (f : Cluster → Cluster) (x : Nat) : (s.modCl c f).copy x = s.copy x := rfl
@[simp] theorem State.obj_after_modCl (s : State) (c : Nat) (f : Cluster → Cluster) (x y : Nat) : (s.modCl c f).obj x y = s.obj x y := rfl
@[simp] theorem State.param_after_modCl (s : State) (c : Nat) (f : Cluster → Cluster) (x : Nat) : (s.modCl c f).param x = s.param x := rfl
/-! What is read after `modTh` -/
@[simp] theorem State.isl_after_modTh (s : State) (t : Nat) (f : Thread → Thread) (x : Nat) : (s.modTh t f).isl x = s.isl x := rfl
@[simp] theorem State.up_after_modTh (s : State) (t : Nat) (f : Thread → Thread) (x : Nat) : (s.modTh t f).up x = s.up x := rfl
@[simp] theorem State.inReset_after_modTh (s : State) (t : Nat) (f : Thread → Thread) (x : Nat) : (s.modTh t f).inReset x = s.inReset x := rfl
@[simp] theorem State.slc_after_modTh (s : State) (t : Nat) (f : Thread → Thread) (x : Nat) : (s.modTh t f).slc x = s.slc x := rfl
@[simp] theorem State.rcd_after_modTh (s : State) (t : Nat) (f : Thread → Thread) (x : Nat) : (s.modTh t f).rcd x = s.rcd x := rfl
@[simp] theorem State.port_after_modTh (s : State) (t : Nat) (f : Thread → Thread) (x : Nat) : (s.modTh t f).port x = s.port x := rfl
@[simp] theorem State.lane_after_modTh (s : State) (t : Nat) (f : Thread → Thread) (x : Nat) : (s.modTh t f).lane x = s.lane x := rfl
@[simp] theorem State.tsk_after_modTh (s : State) (t : Nat) (f : Thread → Thread) (x : Nat) : (s.modTh t f).tsk x = s.tsk x := rfl
@[simp] theorem State.desc_after_modTh (s : State) (t : Nat) (f : Thread → Thread) (x : Nat) : (s.modTh t f).desc x = s.desc x := rfl
@[simp] theorem State.pool_after_modTh (s : State) (t : Nat) (f : Thread → Thread) (x : Nat) : (s.modTh t f).pool x = s.pool x := rfl
@[simp] theorem State.queue_after_modTh (s : State) (t : Nat) (f : Thread → Thread) (x : Nat) : (s.modTh t f).queue x = s.queue x := rfl
@[simp] theorem State.chan_after_modTh (s : State) (t : Nat) (f : Thread → Thread) (x : Nat) : (s.modTh t f).chan x = s.chan x := rfl
@[simp] theorem State.lock_after_modTh (s : State) (t : Nat) (f : Thread → Thread) (x : Nat) : (s.modTh t f).lock x = s.lock x := rfl
@[simp] theorem State.copy_after_modTh (s : State) (t : Nat) (f : Thread → Thread) (x : Nat) : (s.modTh t f).copy x = s.copy x := rfl
@[simp] theorem State.obj_after_modTh (s : State) (t : Nat) (f : Thread → Thread) (x y : Nat) : (s.modTh t f).obj x y = s.obj x y := rfl
@[simp] theorem State.param_after_modTh (s : State) (t : Nat) (f : Thread → Thread) (x : Nat) : (s.modTh t f).param x = s.param x := rfl
/-! What is read after `modIsl` -/
@[simp] theorem State.cl_after_modIsl (s : State) (i : Nat) (f : Island → Island) (x : Nat) : (s.modIsl i f).cl x = s.cl x := rfl
@[simp] theorem State.th_after_modIsl (s : State) (i : Nat) (f : Island → Island) (x : Nat) : (s.modIsl i f).th x = s.th x := rfl
@[simp] theorem State.slc_after_modIsl (s : State) (i : Nat) (f : Island → Island) (x : Nat) : (s.modIsl i f).slc x = s.slc x := rfl
@[simp] theorem State.rcd_after_modIsl (s : State) (i : Nat) (f : Island → Island) (x : Nat) : (s.modIsl i f).rcd x = s.rcd x := rfl
@[simp] theorem State.port_after_modIsl (s : State) (i : Nat) (f : Island → Island) (x : Nat) : (s.modIsl i f).port x = s.port x := rfl
@[simp] theorem State.lane_after_modIsl (s : State) (i : Nat) (f : Island → Island) (x : Nat) : (s.modIsl i f).lane x = s.lane x := rfl
@[simp] theorem State.tsk_after_modIsl (s : State) (i : Nat) (f : Island → Island) (x : Nat) : (s.modIsl i f).tsk x = s.tsk x := rfl
@[simp] theorem State.desc_after_modIsl (s : State) (i : Nat) (f : Island → Island) (x : Nat) : (s.modIsl i f).desc x = s.desc x := rfl
@[simp] theorem State.pool_after_modIsl (s : State) (i : Nat) (f : Island → Island) (x : Nat) : (s.modIsl i f).pool x = s.pool x := rfl
@[simp] theorem State.queue_after_modIsl (s : State) (i : Nat) (f : Island → Island) (x : Nat) : (s.modIsl i f).queue x = s.queue x := rfl
@[simp] theorem State.chan_after_modIsl (s : State) (i : Nat) (f : Island → Island) (x : Nat) : (s.modIsl i f).chan x = s.chan x := rfl
@[simp] theorem State.lock_after_modIsl (s : State) (i : Nat) (f : Island → Island) (x : Nat) : (s.modIsl i f).lock x = s.lock x := rfl
@[simp] theorem State.copy_after_modIsl (s : State) (i : Nat) (f : Island → Island) (x : Nat) : (s.modIsl i f).copy x = s.copy x := rfl
@[simp] theorem State.obj_after_modIsl (s : State) (i : Nat) (f : Island → Island) (x y : Nat) : (s.modIsl i f).obj x y = s.obj x y := rfl
@[simp] theorem State.param_after_modIsl (s : State) (i : Nat) (f : Island → Island) (x : Nat) : (s.modIsl i f).param x = s.param x := rfl
/-! What is read after `modSlc` -/
@[simp] theorem State.cl_after_modSlc (s : State) (i : Nat) (f : Slice → Slice) (x : Nat) : (s.modSlc i f).cl x = s.cl x := rfl
@[simp] theorem State.th_after_modSlc (s : State) (i : Nat) (f : Slice → Slice) (x : Nat) : (s.modSlc i f).th x = s.th x := rfl
@[simp] theorem State.isl_after_modSlc (s : State) (i : Nat) (f : Slice → Slice) (x : Nat) : (s.modSlc i f).isl x = s.isl x := rfl
@[simp] theorem State.up_after_modSlc (s : State) (i : Nat) (f : Slice → Slice) (x : Nat) : (s.modSlc i f).up x = s.up x := rfl
@[simp] theorem State.inReset_after_modSlc (s : State) (i : Nat) (f : Slice → Slice) (x : Nat) : (s.modSlc i f).inReset x = s.inReset x := rfl
@[simp] theorem State.rcd_after_modSlc (s : State) (i : Nat) (f : Slice → Slice) (x : Nat) : (s.modSlc i f).rcd x = s.rcd x := rfl
@[simp] theorem State.port_after_modSlc (s : State) (i : Nat) (f : Slice → Slice) (x : Nat) : (s.modSlc i f).port x = s.port x := rfl
@[simp] theorem State.lane_after_modSlc (s : State) (i : Nat) (f : Slice → Slice) (x : Nat) : (s.modSlc i f).lane x = s.lane x := rfl
@[simp] theorem State.tsk_after_modSlc (s : State) (i : Nat) (f : Slice → Slice) (x : Nat) : (s.modSlc i f).tsk x = s.tsk x := rfl
@[simp] theorem State.desc_after_modSlc (s : State) (i : Nat) (f : Slice → Slice) (x : Nat) : (s.modSlc i f).desc x = s.desc x := rfl
@[simp] theorem State.pool_after_modSlc (s : State) (i : Nat) (f : Slice → Slice) (x : Nat) : (s.modSlc i f).pool x = s.pool x := rfl
@[simp] theorem State.queue_after_modSlc (s : State) (i : Nat) (f : Slice → Slice) (x : Nat) : (s.modSlc i f).queue x = s.queue x := rfl
@[simp] theorem State.chan_after_modSlc (s : State) (i : Nat) (f : Slice → Slice) (x : Nat) : (s.modSlc i f).chan x = s.chan x := rfl
@[simp] theorem State.lock_after_modSlc (s : State) (i : Nat) (f : Slice → Slice) (x : Nat) : (s.modSlc i f).lock x = s.lock x := rfl
@[simp] theorem State.copy_after_modSlc (s : State) (i : Nat) (f : Slice → Slice) (x : Nat) : (s.modSlc i f).copy x = s.copy x := rfl
@[simp] theorem State.obj_after_modSlc (s : State) (i : Nat) (f : Slice → Slice) (x y : Nat) : (s.modSlc i f).obj x y = s.obj x y := rfl
@[simp] theorem State.param_after_modSlc (s : State) (i : Nat) (f : Slice → Slice) (x : Nat) : (s.modSlc i f).param x = s.param x := rfl
/-! What is read after `modRec` -/
@[simp] theorem State.cl_after_modRec (s : State) (r : Nat) (f : Rec → Rec) (x : Nat) : (s.modRec r f).cl x = s.cl x := rfl
@[simp] theorem State.th_after_modRec (s : State) (r : Nat) (f : Rec → Rec) (x : Nat) : (s.modRec r f).th x = s.th x := rfl
@[simp] theorem State.isl_after_modRec (s : State) (r : Nat) (f : Rec → Rec) (x : Nat) : (s.modRec r f).isl x = s.isl x := rfl
@[simp] theorem State.up_after_modRec (s : State) (r : Nat) (f : Rec → Rec) (x : Nat) : (s.modRec r f).up x = s.up x := rfl
@[simp] theorem State.inReset_after_modRec (s : State) (r : Nat) (f : Rec → Rec) (x : Nat) : (s.modRec r f).inReset x = s.inReset x := rfl
@[simp] theorem State.slc_after_modRec (s : State) (r : Nat) (f : Rec → Rec) (x : Nat) : (s.modRec r f).slc x = s.slc x := rfl
@[simp] theorem State.port_after_modRec (s : State) (r : Nat) (f : Rec → Rec) (x : Nat) : (s.modRec r f).port x = s.port x := rfl
@[simp] theorem State.lane_after_modRec (s : State) (r : Nat) (f : Rec → Rec) (x : Nat) : (s.modRec r f).lane x = s.lane x := rfl
@[simp] theorem State.tsk_after_modRec (s : State) (r : Nat) (f : Rec → Rec) (x : Nat) : (s.modRec r f).tsk x = s.tsk x := rfl
@[simp] theorem State.desc_after_modRec (s : State) (r : Nat) (f : Rec → Rec) (x : Nat) : (s.modRec r f).desc x = s.desc x := rfl
@[simp] theorem State.pool_after_modRec (s : State) (r : Nat) (f : Rec → Rec) (x : Nat) : (s.modRec r f).pool x = s.pool x := rfl
@[simp] theorem State.queue_after_modRec (s : State) (r : Nat) (f : Rec → Rec) (x : Nat) : (s.modRec r f).queue x = s.queue x := rfl
@[simp] theorem State.chan_after_modRec (s : State) (r : Nat) (f : Rec → Rec) (x : Nat) : (s.modRec r f).chan x = s.chan x := rfl
@[simp] theorem State.lock_after_modRec (s : State) (r : Nat) (f : Rec → Rec) (x : Nat) : (s.modRec r f).lock x = s.lock x := rfl
@[simp] theorem State.copy_after_modRec (s : State) (r : Nat) (f : Rec → Rec) (x : Nat) : (s.modRec r f).copy x = s.copy x := rfl
@[simp] theorem State.obj_after_modRec (s : State) (r : Nat) (f : Rec → Rec) (x y : Nat) : (s.modRec r f).obj x y = s.obj x y := rfl
@[simp] theorem State.param_after_modRec (s : State) (r : Nat) (f : Rec → Rec) (x : Nat) : (s.modRec r f).param x = s.param x := rfl
/-! What is read after `modPort` -/
@[simp] theorem State.cl_after_modPort (s : State) (p : Nat) (f : Port → Port) (x : Nat) : (s.modPort p f).cl x = s.cl x := rfl
@[simp] theorem State.th_after_modPort (s : State) (p : Nat) (f : Port → Port) (x : Nat) : (s.modPort p f).th x = s.th x := rfl
@[simp] theorem State.isl_after_modPort (s : State) (p : Nat) (f : Port → Port) (x : Nat) : (s.modPort p f).isl x = s.isl x := rfl
@[simp] theorem State.up_after_modPort (s : State) (p : Nat) (f : Port → Port) (x : Nat) : (s.modPort p f).up x = s.up x := rfl
@[simp] theorem State.inReset_after_modPort (s : State) (p : Nat) (f : Port → Port) (x : Nat) : (s.modPort p f).inReset x = s.inReset x := rfl
@[simp] theorem State.slc_after_modPort (s : State) (p : Nat) (f : Port → Port) (x : Nat) : (s.modPort p f).slc x = s.slc x := rfl
@[simp] theorem State.rcd_after_modPort (s : State) (p : Nat) (f : Port → Port) (x : Nat) : (s.modPort p f).rcd x = s.rcd x := rfl
@[simp] theorem State.tsk_after_modPort (s : State) (p : Nat) (f : Port → Port) (x : Nat) : (s.modPort p f).tsk x = s.tsk x := rfl
@[simp] theorem State.desc_after_modPort (s : State) (p : Nat) (f : Port → Port) (x : Nat) : (s.modPort p f).desc x = s.desc x := rfl
@[simp] theorem State.pool_after_modPort (s : State) (p : Nat) (f : Port → Port) (x : Nat) : (s.modPort p f).pool x = s.pool x := rfl
@[simp] theorem State.queue_after_modPort (s : State) (p : Nat) (f : Port → Port) (x : Nat) : (s.modPort p f).queue x = s.queue x := rfl
@[simp] theorem State.chan_after_modPort (s : State) (p : Nat) (f : Port → Port) (x : Nat) : (s.modPort p f).chan x = s.chan x := rfl
@[simp] theorem State.lock_after_modPort (s : State) (p : Nat) (f : Port → Port) (x : Nat) : (s.modPort p f).lock x = s.lock x := rfl
@[simp] theorem State.copy_after_modPort (s : State) (p : Nat) (f : Port → Port) (x : Nat) : (s.modPort p f).copy x = s.copy x := rfl
@[simp] theorem State.obj_after_modPort (s : State) (p : Nat) (f : Port → Port) (x y : Nat) : (s.modPort p f).obj x y = s.obj x y := rfl
@[simp] theorem State.param_after_modPort (s : State) (p : Nat) (f : Port → Port) (x : Nat) : (s.modPort p f).param x = s.param x := rfl
/-! What is read after `modLane` -/
@[simp] theorem State.cl_after_modLane (s : State) (l : Nat) (f : Lane → Lane) (x : Nat) : (s.modLane l f).cl x = s.cl x := rfl
@[simp] theorem State.th_after_modLane (s : State) (l : Nat) (f : Lane → Lane) (x : Nat) : (s.modLane l f).th x = s.th x := rfl
@[simp] theorem State.isl_after_modLane (s : State) (l : Nat) (f : Lane → Lane) (x : Nat) : (s.modLane l f).isl x = s.isl x := rfl
@[simp] theorem State.up_after_modLane (s : State) (l : Nat) (f : Lane → Lane) (x : Nat) : (s.modLane l f).up x = s.up x := rfl
@[simp] theorem State.inReset_after_modLane (s : State) (l : Nat) (f : Lane → Lane) (x : Nat) : (s.modLane l f).inReset x = s.inReset x := rfl
@[simp] theorem State.slc_after_modLane (s : State) (l : Nat) (f : Lane → Lane) (x : Nat) : (s.modLane l f).slc x = s.slc x := rfl
@[simp] theorem State.rcd_after_modLane (s : State) (l : Nat) (f : Lane → Lane) (x : Nat) : (s.modLane l f).rcd x = s.rcd x := rfl
@[simp] theorem State.tsk_after_modLane (s : State) (l : Nat) (f : Lane → Lane) (x : Nat) : (s.modLane l f).tsk x = s.tsk x := rfl
@[simp] theorem State.desc_after_modLane (s : State) (l : Nat) (f : Lane → Lane) (x : Nat) : (s.modLane l f).desc x = s.desc x := rfl
@[simp] theorem State.pool_after_modLane (s : State) (l : Nat) (f : Lane → Lane) (x : Nat) : (s.modLane l f).pool x = s.pool x := rfl
@[simp] theorem State.queue_after_modLane (s : State) (l : Nat) (f : Lane → Lane) (x : Nat) : (s.modLane l f).queue x = s.queue x := rfl
@[simp] theorem State.chan_after_modLane (s : State) (l : Nat) (f : Lane → Lane) (x : Nat) : (s.modLane l f).chan x = s.chan x := rfl
@[simp] theorem State.lock_after_modLane (s : State) (l : Nat) (f : Lane → Lane) (x : Nat) : (s.modLane l f).lock x = s.lock x := rfl
@[simp] theorem State.copy_after_modLane (s : State) (l : Nat) (f : Lane → Lane) (x : Nat) : (s.modLane l f).copy x = s.copy x := rfl
@[simp] theorem State.obj_after_modLane (s : State) (l : Nat) (f : Lane → Lane) (x y : Nat) : (s.modLane l f).obj x y = s.obj x y := rfl
@[simp] theorem State.param_after_modLane (s : State) (l : Nat) (f : Lane → Lane) (x : Nat) : (s.modLane l f).param x = s.param x := rfl
/-! What is read after `modTask` -/
@[simp] theorem State.cl_after_modTask (s : State) (n : Nat) (f : Task → Task) (x : Nat) : (s.modTask n f).cl x = s.cl x := rfl
@[simp] theorem State.th_after_modTask (s : State) (n : Nat) (f : Task → Task) (x : Nat) : (s.modTask n f).th x = s.th x := rfl
@[simp] theorem State.isl_after_modTask (s : State) (n : Nat) (f : Task → Task) (x : Nat) : (s.modTask n f).isl x = s.isl x := rfl
@[simp] theorem State.up_after_modTask (s : State) (n : Nat) (f : Task → Task) (x : Nat) : (s.modTask n f).up x = s.up x := rfl
@[simp] theorem State.inReset_after_modTask (s : State) (n : Nat) (f : Task → Task) (x : Nat) : (s.modTask n f).inReset x = s.inReset x := rfl
@[simp] theorem State.slc_after_modTask (s : State) (n : Nat) (f : Task → Task) (x : Nat) : (s.modTask n f).slc x = s.slc x := rfl
@[simp] theorem State.rcd_after_modTask (s : State) (n : Nat) (f : Task → Task) (x : Nat) : (s.modTask n f).rcd x = s.rcd x := rfl
@[simp] theorem State.port_after_modTask (s : State) (n : Nat) (f : Task → Task) (x : Nat) : (s.modTask n f).port x = s.port x := rfl
@[simp] theorem State.lane_after_modTask (s : State) (n : Nat) (f : Task → Task) (x : Nat) : (s.modTask n f).lane x = s.lane x := rfl
@[simp] theorem State.desc_after_modTask (s : State) (n : Nat) (f : Task → Task) (x : Nat) : (s.modTask n f).desc x = s.desc x := rfl
@[simp] theorem State.pool_after_modTask (s : State) (n : Nat) (f : Task → Task) (x : Nat) : (s.modTask n f).pool x = s.pool x := rfl
@[simp] theorem State.queue_after_modTask (s : State) (n : Nat) (f : Task → Task) (x : Nat) : (s.modTask n f).queue x = s.queue x := rfl
@[simp] theorem State.chan_after_modTask (s : State) (n : Nat) (f : Task → Task) (x : Nat) : (s.modTask n f).chan x = s.chan x := rfl
@[simp] theorem State.lock_after_modTask (s : State) (n : Nat) (f : Task → Task) (x : Nat) : (s.modTask n f).lock x = s.lock x := rfl
@[simp] theorem State.copy_after_modTask (s : State) (n : Nat) (f : Task → Task) (x : Nat) : (s.modTask n f).copy x = s.copy x := rfl
@[simp] theorem State.obj_after_modTask (s : State) (n : Nat) (f : Task → Task) (x y : Nat) : (s.modTask n f).obj x y = s.obj x y := rfl
@[simp] theorem State.param_after_modTask (s : State) (n : Nat) (f : Task → Task) (x : Nat) : (s.modTask n f).param x = s.param x := rfl
/-! What is read after `modDesc` -/
@[simp] theorem State.cl_after_modDesc (s : State) (d : Nat) (f : Desc → Desc) (x : Nat) : (s.modDesc d f).cl x = s.cl x := rfl
@[simp] theorem State.th_after_modDesc (s : State) (d : Nat) (f : Desc → Desc) (x : Nat) : (s.modDesc d f).th x = s.th x := rfl
@[simp] theorem State.isl_after_modDesc (s : State) (d : Nat) (f : Desc → Desc) (x : Nat) : (s.modDesc d f).isl x = s.isl x := rfl
@[simp] theorem State.up_after_modDesc (s : State) (d : Nat) (f : Desc → Desc) (x : Nat) : (s.modDesc d f).up x = s.up x := rfl
@[simp] theorem State.inReset_after_modDesc (s : State) (d : Nat) (f : Desc → Desc) (x : Nat) : (s.modDesc d f).inReset x = s.inReset x := rfl
@[simp] theorem State.slc_after_modDesc (s : State) (d : Nat) (f : Desc → Desc) (x : Nat) : (s.modDesc d f).slc x = s.slc x := rfl
@[simp] theorem State.rcd_after_modDesc (s : State) (d : Nat) (f : Desc → Desc) (x : Nat) : (s.modDesc d f).rcd x = s.rcd x := rfl
@[simp] theorem State.port_after_modDesc (s : State) (d : Nat) (f : Desc → Desc) (x : Nat) : (s.modDesc d f).port x = s.port x := rfl
@[simp] theorem State.lane_after_modDesc (s : State) (d : Nat) (f : Desc → Desc) (x : Nat) : (s.modDesc d f).lane x = s.lane x := rfl
@[simp] theorem State.tsk_after_modDesc (s : State) (d : Nat) (f : Desc → Desc) (x : Nat) : (s.modDesc d f).tsk x = s.tsk x := rfl
@[simp] theorem State.queue_after_modDesc (s : State) (d : Nat) (f : Desc → Desc) (x : Nat) : (s.modDesc d f).queue x = s.queue x := rfl
@[simp] theorem State.chan_after_modDesc (s : State) (d : Nat) (f : Desc → Desc) (x : Nat) : (s.modDesc d f).chan x = s.chan x := rfl
@[simp] theorem State.lock_after_modDesc (s : State) (d : Nat) (f : Desc → Desc) (x : Nat) : (s.modDesc d f).lock x = s.lock x := rfl
@[simp] theorem State.copy_after_modDesc (s : State) (d : Nat) (f : Desc → Desc) (x : Nat) : (s.modDesc d f).copy x = s.copy x := rfl
@[simp] theorem State.obj_after_modDesc (s : State) (d : Nat) (f : Desc → Desc) (x y : Nat) : (s.modDesc d f).obj x y = s.obj x y := rfl
@[simp] theorem State.param_after_modDesc (s : State) (d : Nat) (f : Desc → Desc) (x : Nat) : (s.modDesc d f).param x = s.param x := rfl
/-! What is read after `modPool` -/
@[simp] theorem State.cl_after_modPool (s : State) (p : Nat) (f : Pool → Pool) (x : Nat) : (s.modPool p f).cl x = s.cl x := rfl
@[simp] theorem State.th_after_modPool (s : State) (p : Nat) (f : Pool → Pool) (x : Nat) : (s.modPool p f).th x = s.th x := rfl
@[simp] theorem State.isl_after_modPool (s : State) (p : Nat) (f : Pool → Pool) (x : Nat) : (s.modPool p f).isl x = s.isl x := rfl
@[simp] theorem State.up_after_modPool (s : State) (p : Nat) (f : Pool → Pool) (x : Nat) : (s.modPool p f).up x = s.up x := rfl
@[simp] theorem State.inReset_after_modPool (s : State) (p : Nat) (f : Pool → Pool) (x : Nat) : (s.modPool p f).inReset x = s.inReset x := rfl
@[simp] theorem State.slc_after_modPool (s : State) (p : Nat) (f : Pool → Pool) (x : Nat) : (s.modPool p f).slc x = s.slc x := rfl
@[simp] theorem State.rcd_after_modPool (s : State) (p : Nat) (f : Pool → Pool) (x : Nat) : (s.modPool p f).rcd x = s.rcd x := rfl
@[simp] theorem State.port_after_modPool (s : State) (p : Nat) (f : Pool → Pool) (x : Nat) : (s.modPool p f).port x = s.port x := rfl
@[simp] theorem State.lane_after_modPool (s : State) (p : Nat) (f : Pool → Pool) (x : Nat) : (s.modPool p f).lane x = s.lane x := rfl
@[simp] theorem State.tsk_after_modPool (s : State) (p : Nat) (f : Pool → Pool) (x : Nat) : (s.modPool p f).tsk x = s.tsk x := rfl
@[simp] theorem State.queue_after_modPool (s : State) (p : Nat) (f : Pool → Pool) (x : Nat) : (s.modPool p f).queue x = s.queue x := rfl
@[simp] theorem State.chan_after_modPool (s : State) (p : Nat) (f : Pool → Pool) (x : Nat) : (s.modPool p f).chan x = s.chan x := rfl
@[simp] theorem State.lock_after_modPool (s : State) (p : Nat) (f : Pool → Pool) (x : Nat) : (s.modPool p f).lock x = s.lock x := rfl
@[simp] theorem State.copy_after_modPool (s : State) (p : Nat) (f : Pool → Pool) (x : Nat) : (s.modPool p f).copy x = s.copy x := rfl
@[simp] theorem State.obj_after_modPool (s : State) (p : Nat) (f : Pool → Pool) (x y : Nat) : (s.modPool p f).obj x y = s.obj x y := rfl
@[simp] theorem State.param_after_modPool (s : State) (p : Nat) (f : Pool → Pool) (x : Nat) : (s.modPool p f).param x = s.param x := rfl
/-! What is read after `modQueue` -/
@[simp] theorem State.cl_after_modQueue (s : State) (q : Nat) (f : Queue → Queue) (x : Nat) : (s.modQueue q f).cl x = s.cl x := rfl
@[simp] theorem State.th_after_modQueue (s : State) (q : Nat) (f : Queue → Queue) (x : Nat) : (s.modQueue q f).th x = s.th x := rfl
@[simp] theorem State.isl_after_modQueue (s : State) (q : Nat) (f : Queue → Queue) (x : Nat) : (s.modQueue q f).isl x = s.isl x := rfl
@[simp] theorem State.up_after_modQueue (s : State) (q : Nat) (f : Queue → Queue) (x : Nat) : (s.modQueue q f).up x = s.up x := rfl
@[simp] theorem State.inReset_after_modQueue (s : State) (q : Nat) (f : Queue → Queue) (x : Nat) : (s.modQueue q f).inReset x = s.inReset x := rfl
@[simp] theorem State.slc_after_modQueue (s : State) (q : Nat) (f : Queue → Queue) (x : Nat) : (s.modQueue q f).slc x = s.slc x := rfl
@[simp] theorem State.rcd_after_modQueue (s : State) (q : Nat) (f : Queue → Queue) (x : Nat) : (s.modQueue q f).rcd x = s.rcd x := rfl
@[simp] theorem State.port_after_modQueue (s : State) (q : Nat) (f : Queue → Queue) (x : Nat) : (s.modQueue q f).port x = s.port x := rfl
@[simp] theorem State.lane_after_modQueue (s : State) (q : Nat) (f : Queue → Queue) (x : Nat) : (s.modQueue q f).lane x = s.lane x := rfl
@[simp] theorem State.tsk_after_modQueue (s : State) (q : Nat) (f : Queue → Queue) (x : Nat) : (s.modQueue q f).tsk x = s.tsk x := rfl
@[simp] theorem State.desc_after_modQueue (s : State) (q : Nat) (f : Queue → Queue) (x : Nat) : (s.modQueue q f).desc x = s.desc x := rfl
@[simp] theorem State.pool_after_modQueue (s : State) (q : Nat) (f : Queue → Queue) (x : Nat) : (s.modQueue q f).pool x = s.pool x := rfl
@[simp] theorem State.chan_after_modQueue (s : State) (q : Nat) (f : Queue → Queue) (x : Nat) : (s.modQueue q f).chan x = s.chan x := rfl
@[simp] theorem State.lock_after_modQueue (s : State) (q : Nat) (f : Queue → Queue) (x : Nat) : (s.modQueue q f).lock x = s.lock x := rfl
@[simp] theorem State.copy_after_modQueue (s : State) (q : Nat) (f : Queue → Queue) (x : Nat) : (s.modQueue q f).copy x = s.copy x := rfl
@[simp] theorem State.obj_after_modQueue (s : State) (q : Nat) (f : Queue → Queue) (x y : Nat) : (s.modQueue q f).obj x y = s.obj x y := rfl
@[simp] theorem State.param_after_modQueue (s : State) (q : Nat) (f : Queue → Queue) (x : Nat) : (s.modQueue q f).param x = s.param x := rfl
/-! What is read after `modChan` -/
@[simp] theorem State.cl_after_modChan (s : State) (c : Nat) (f : DramChan → DramChan) (x : Nat) : (s.modChan c f).cl x = s.cl x := rfl
@[simp] theorem State.th_after_modChan (s : State) (c : Nat) (f : DramChan → DramChan) (x : Nat) : (s.modChan c f).th x = s.th x := rfl
@[simp] theorem State.isl_after_modChan (s : State) (c : Nat) (f : DramChan → DramChan) (x : Nat) : (s.modChan c f).isl x = s.isl x := rfl
@[simp] theorem State.up_after_modChan (s : State) (c : Nat) (f : DramChan → DramChan) (x : Nat) : (s.modChan c f).up x = s.up x := rfl
@[simp] theorem State.inReset_after_modChan (s : State) (c : Nat) (f : DramChan → DramChan) (x : Nat) : (s.modChan c f).inReset x = s.inReset x := rfl
@[simp] theorem State.slc_after_modChan (s : State) (c : Nat) (f : DramChan → DramChan) (x : Nat) : (s.modChan c f).slc x = s.slc x := rfl
@[simp] theorem State.rcd_after_modChan (s : State) (c : Nat) (f : DramChan → DramChan) (x : Nat) : (s.modChan c f).rcd x = s.rcd x := rfl
@[simp] theorem State.port_after_modChan (s : State) (c : Nat) (f : DramChan → DramChan) (x : Nat) : (s.modChan c f).port x = s.port x := rfl
@[simp] theorem State.lane_after_modChan (s : State) (c : Nat) (f : DramChan → DramChan) (x : Nat) : (s.modChan c f).lane x = s.lane x := rfl
@[simp] theorem State.tsk_after_modChan (s : State) (c : Nat) (f : DramChan → DramChan) (x : Nat) : (s.modChan c f).tsk x = s.tsk x := rfl
@[simp] theorem State.desc_after_modChan (s : State) (c : Nat) (f : DramChan → DramChan) (x : Nat) : (s.modChan c f).desc x = s.desc x := rfl
@[simp] theorem State.pool_after_modChan (s : State) (c : Nat) (f : DramChan → DramChan) (x : Nat) : (s.modChan c f).pool x = s.pool x := rfl
@[simp] theorem State.queue_after_modChan (s : State) (c : Nat) (f : DramChan → DramChan) (x : Nat) : (s.modChan c f).queue x = s.queue x := rfl
@[simp] theorem State.lock_after_modChan (s : State) (c : Nat) (f : DramChan → DramChan) (x : Nat) : (s.modChan c f).lock x = s.lock x := rfl
@[simp] theorem State.copy_after_modChan (s : State) (c : Nat) (f : DramChan → DramChan) (x : Nat) : (s.modChan c f).copy x = s.copy x := rfl
@[simp] theorem State.obj_after_modChan (s : State) (c : Nat) (f : DramChan → DramChan) (x y : Nat) : (s.modChan c f).obj x y = s.obj x y := rfl
@[simp] theorem State.param_after_modChan (s : State) (c : Nat) (f : DramChan → DramChan) (x : Nat) : (s.modChan c f).param x = s.param x := rfl
/-! What is read after `modLock` -/
@[simp] theorem State.cl_after_modLock (s : State) (w : Nat) (f : Lock → Lock) (x : Nat) : (s.modLock w f).cl x = s.cl x := rfl
@[simp] theorem State.th_after_modLock (s : State) (w : Nat) (f : Lock → Lock) (x : Nat) : (s.modLock w f).th x = s.th x := rfl
@[simp] theorem State.isl_after_modLock (s : State) (w : Nat) (f : Lock → Lock) (x : Nat) : (s.modLock w f).isl x = s.isl x := rfl
@[simp] theorem State.up_after_modLock (s : State) (w : Nat) (f : Lock → Lock) (x : Nat) : (s.modLock w f).up x = s.up x := rfl
@[simp] theorem State.inReset_after_modLock (s : State) (w : Nat) (f : Lock → Lock) (x : Nat) : (s.modLock w f).inReset x = s.inReset x := rfl
@[simp] theorem State.slc_after_modLock (s : State) (w : Nat) (f : Lock → Lock) (x : Nat) : (s.modLock w f).slc x = s.slc x := rfl
@[simp] theorem State.rcd_after_modLock (s : State) (w : Nat) (f : Lock → Lock) (x : Nat) : (s.modLock w f).rcd x = s.rcd x := rfl
@[simp] theorem State.port_after_modLock (s : State) (w : Nat) (f : Lock → Lock) (x : Nat) : (s.modLock w f).port x = s.port x := rfl
@[simp] theorem State.lane_after_modLock (s : State) (w : Nat) (f : Lock → Lock) (x : Nat) : (s.modLock w f).lane x = s.lane x := rfl
@[simp] theorem State.tsk_after_modLock (s : State) (w : Nat) (f : Lock → Lock) (x : Nat) : (s.modLock w f).tsk x = s.tsk x := rfl
@[simp] theorem State.desc_after_modLock (s : State) (w : Nat) (f : Lock → Lock) (x : Nat) : (s.modLock w f).desc x = s.desc x := rfl
@[simp] theorem State.pool_after_modLock (s : State) (w : Nat) (f : Lock → Lock) (x : Nat) : (s.modLock w f).pool x = s.pool x := rfl
@[simp] theorem State.queue_after_modLock (s : State) (w : Nat) (f : Lock → Lock) (x : Nat) : (s.modLock w f).queue x = s.queue x := rfl
@[simp] theorem State.chan_after_modLock (s : State) (w : Nat) (f : Lock → Lock) (x : Nat) : (s.modLock w f).chan x = s.chan x := rfl
@[simp] theorem State.copy_after_modLock (s : State) (w : Nat) (f : Lock → Lock) (x : Nat) : (s.modLock w f).copy x = s.copy x := rfl
@[simp] theorem State.obj_after_modLock (s : State) (w : Nat) (f : Lock → Lock) (x y : Nat) : (s.modLock w f).obj x y = s.obj x y := rfl
@[simp] theorem State.param_after_modLock (s : State) (w : Nat) (f : Lock → Lock) (x : Nat) : (s.modLock w f).param x = s.param x := rfl
/-! What is read after `modCopy` -/
@[simp] theorem State.cl_after_modCopy (s : State) (t : Nat) (f : Copy → Copy) (x : Nat) : (s.modCopy t f).cl x = s.cl x := rfl
@[simp] theorem State.th_after_modCopy (s : State) (t : Nat) (f : Copy → Copy) (x : Nat) : (s.modCopy t f).th x = s.th x := rfl
@[simp] theorem State.isl_after_modCopy (s : State) (t : Nat) (f : Copy → Copy) (x : Nat) : (s.modCopy t f).isl x = s.isl x := rfl
@[simp] theorem State.up_after_modCopy (s : State) (t : Nat) (f : Copy → Copy) (x : Nat) : (s.modCopy t f).up x = s.up x := rfl
@[simp] theorem State.inReset_after_modCopy (s : State) (t : Nat) (f : Copy → Copy) (x : Nat) : (s.modCopy t f).inReset x = s.inReset x := rfl
@[simp] theorem State.slc_after_modCopy (s : State) (t : Nat) (f : Copy → Copy) (x : Nat) : (s.modCopy t f).slc x = s.slc x := rfl
@[simp] theorem State.rcd_after_modCopy (s : State) (t : Nat) (f : Copy → Copy) (x : Nat) : (s.modCopy t f).rcd x = s.rcd x := rfl
@[simp] theorem State.port_after_modCopy (s : State) (t : Nat) (f : Copy → Copy) (x : Nat) : (s.modCopy t f).port x = s.port x := rfl
@[simp] theorem State.lane_after_modCopy (s : State) (t : Nat) (f : Copy → Copy) (x : Nat) : (s.modCopy t f).lane x = s.lane x := rfl
@[simp] theorem State.tsk_after_modCopy (s : State) (t : Nat) (f : Copy → Copy) (x : Nat) : (s.modCopy t f).tsk x = s.tsk x := rfl
@[simp] theorem State.desc_after_modCopy (s : State) (t : Nat) (f : Copy → Copy) (x : Nat) : (s.modCopy t f).desc x = s.desc x := rfl
@[simp] theorem State.pool_after_modCopy (s : State) (t : Nat) (f : Copy → Copy) (x : Nat) : (s.modCopy t f).pool x = s.pool x := rfl
@[simp] theorem State.queue_after_modCopy (s : State) (t : Nat) (f : Copy → Copy) (x : Nat) : (s.modCopy t f).queue x = s.queue x := rfl
@[simp] theorem State.chan_after_modCopy (s : State) (t : Nat) (f : Copy → Copy) (x : Nat) : (s.modCopy t f).chan x = s.chan x := rfl
@[simp] theorem State.lock_after_modCopy (s : State) (t : Nat) (f : Copy → Copy) (x : Nat) : (s.modCopy t f).lock x = s.lock x := rfl
@[simp] theorem State.obj_after_modCopy (s : State) (t : Nat) (f : Copy → Copy) (x y : Nat) : (s.modCopy t f).obj x y = s.obj x y := rfl
@[simp] theorem State.param_after_modCopy (s : State) (t : Nat) (f : Copy → Copy) (x : Nat) : (s.modCopy t f).param x = s.param x := rfl
/-! What is read after `setObj` -/
@[simp] theorem State.cl_after_setObj (s : State) (c i : Nat) (w : ObjWord) (x : Nat) : (s.setObj c i w).cl x = s.cl x := rfl
@[simp] theorem State.th_after_setObj (s : State) (c i : Nat) (w : ObjWord) (x : Nat) : (s.setObj c i w).th x = s.th x := rfl
@[simp] theorem State.isl_after_setObj (s : State) (c i : Nat) (w : ObjWord) (x : Nat) : (s.setObj c i w).isl x = s.isl x := rfl
@[simp] theorem State.up_after_setObj (s : State) (c i : Nat) (w : ObjWord) (x : Nat) : (s.setObj c i w).up x = s.up x := rfl
@[simp] theorem State.inReset_after_setObj (s : State) (c i : Nat) (w : ObjWord) (x : Nat) : (s.setObj c i w).inReset x = s.inReset x := rfl
@[simp] theorem State.slc_after_setObj (s : State) (c i : Nat) (w : ObjWord) (x : Nat) : (s.setObj c i w).slc x = s.slc x := rfl
@[simp] theorem State.rcd_after_setObj (s : State) (c i : Nat) (w : ObjWord) (x : Nat) : (s.setObj c i w).rcd x = s.rcd x := rfl
@[simp] theorem State.port_after_setObj (s : State) (c i : Nat) (w : ObjWord) (x : Nat) : (s.setObj c i w).port x = s.port x := rfl
@[simp] theorem State.lane_after_setObj (s : State) (c i : Nat) (w : ObjWord) (x : Nat) : (s.setObj c i w).lane x = s.lane x := rfl
@[simp] theorem State.tsk_after_setObj (s : State) (c i : Nat) (w : ObjWord) (x : Nat) : (s.setObj c i w).tsk x = s.tsk x := rfl
@[simp] theorem State.desc_after_setObj (s : State) (c i : Nat) (w : ObjWord) (x : Nat) : (s.setObj c i w).desc x = s.desc x := rfl
@[simp] theorem State.pool_after_setObj (s : State) (c i : Nat) (w : ObjWord) (x : Nat) : (s.setObj c i w).pool x = s.pool x := rfl
@[simp] theorem State.queue_after_setObj (s : State) (c i : Nat) (w : ObjWord) (x : Nat) : (s.setObj c i w).queue x = s.queue x := rfl
@[simp] theorem State.chan_after_setObj (s : State) (c i : Nat) (w : ObjWord) (x : Nat) : (s.setObj c i w).chan x = s.chan x := rfl
@[simp] theorem State.lock_after_setObj (s : State) (c i : Nat) (w : ObjWord) (x : Nat) : (s.setObj c i w).lock x = s.lock x := rfl
@[simp] theorem State.copy_after_setObj (s : State) (c i : Nat) (w : ObjWord) (x : Nat) : (s.setObj c i w).copy x = s.copy x := rfl
/-! What is read after `send` -/
@[simp] theorem State.cl_after_send (s : State) (a b : Nat) (m : Msg) (x : Nat) : (s.send a b m).cl x = s.cl x := rfl
@[simp] theorem State.th_after_send (s : State) (a b : Nat) (m : Msg) (x : Nat) : (s.send a b m).th x = s.th x := rfl
@[simp] theorem State.isl_after_send (s : State) (a b : Nat) (m : Msg) (x : Nat) : (s.send a b m).isl x = s.isl x := rfl
@[simp] theorem State.up_after_send (s : State) (a b : Nat) (m : Msg) (x : Nat) : (s.send a b m).up x = s.up x := rfl
@[simp] theorem State.inReset_after_send (s : State) (a b : Nat) (m : Msg) (x : Nat) : (s.send a b m).inReset x = s.inReset x := rfl
@[simp] theorem State.slc_after_send (s : State) (a b : Nat) (m : Msg) (x : Nat) : (s.send a b m).slc x = s.slc x := rfl
@[simp] theorem State.rcd_after_send (s : State) (a b : Nat) (m : Msg) (x : Nat) : (s.send a b m).rcd x = s.rcd x := rfl
@[simp] theorem State.port_after_send (s : State) (a b : Nat) (m : Msg) (x : Nat) : (s.send a b m).port x = s.port x := rfl
@[simp] theorem State.lane_after_send (s : State) (a b : Nat) (m : Msg) (x : Nat) : (s.send a b m).lane x = s.lane x := rfl
@[simp] theorem State.tsk_after_send (s : State) (a b : Nat) (m : Msg) (x : Nat) : (s.send a b m).tsk x = s.tsk x := rfl
@[simp] theorem State.desc_after_send (s : State) (a b : Nat) (m : Msg) (x : Nat) : (s.send a b m).desc x = s.desc x := rfl
@[simp] theorem State.pool_after_send (s : State) (a b : Nat) (m : Msg) (x : Nat) : (s.send a b m).pool x = s.pool x := rfl
@[simp] theorem State.queue_after_send (s : State) (a b : Nat) (m : Msg) (x : Nat) : (s.send a b m).queue x = s.queue x := rfl
@[simp] theorem State.chan_after_send (s : State) (a b : Nat) (m : Msg) (x : Nat) : (s.send a b m).chan x = s.chan x := rfl
@[simp] theorem State.lock_after_send (s : State) (a b : Nat) (m : Msg) (x : Nat) : (s.send a b m).lock x = s.lock x := rfl
@[simp] theorem State.copy_after_send (s : State) (a b : Nat) (m : Msg) (x : Nat) : (s.send a b m).copy x = s.copy x := rfl
@[simp] theorem State.obj_after_send (s : State) (a b : Nat) (m : Msg) (x y : Nat) : (s.send a b m).obj x y = s.obj x y := rfl
@[simp] theorem State.param_after_send (s : State) (a b : Nat) (m : Msg) (x : Nat) : (s.send a b m).param x = s.param x := rfl
/-! What is read after `taken` -/
@[simp] theorem State.cl_after_taken (s : State) (a b : Nat) (x : Nat) : (s.taken a b).cl x = s.cl x := rfl
@[simp] theorem State.th_after_taken (s : State) (a b : Nat) (x : Nat) : (s.taken a b).th x = s.th x := rfl
@[simp] theorem State.isl_after_taken (s : State) (a b : Nat) (x : Nat) : (s.taken a b).isl x = s.isl x := rfl
@[simp] theorem State.up_after_taken (s : State) (a b : Nat) (x : Nat) : (s.taken a b).up x = s.up x := rfl
@[simp] theorem State.inReset_after_taken (s : State) (a b : Nat) (x : Nat) : (s.taken a b).inReset x = s.inReset x := rfl
@[simp] theorem State.slc_after_taken (s : State) (a b : Nat) (x : Nat) : (s.taken a b).slc x = s.slc x := rfl
@[simp] theorem State.rcd_after_taken (s : State) (a b : Nat) (x : Nat) : (s.taken a b).rcd x = s.rcd x := rfl
@[simp] theorem State.port_after_taken (s : State) (a b : Nat) (x : Nat) : (s.taken a b).port x = s.port x := rfl
@[simp] theorem State.lane_after_taken (s : State) (a b : Nat) (x : Nat) : (s.taken a b).lane x = s.lane x := rfl
@[simp] theorem State.tsk_after_taken (s : State) (a b : Nat) (x : Nat) : (s.taken a b).tsk x = s.tsk x := rfl
@[simp] theorem State.desc_after_taken (s : State) (a b : Nat) (x : Nat) : (s.taken a b).desc x = s.desc x := rfl
@[simp] theorem State.pool_after_taken (s : State) (a b : Nat) (x : Nat) : (s.taken a b).pool x = s.pool x := rfl
@[simp] theorem State.queue_after_taken (s : State) (a b : Nat) (x : Nat) : (s.taken a b).queue x = s.queue x := rfl
@[simp] theorem State.chan_after_taken (s : State) (a b : Nat) (x : Nat) : (s.taken a b).chan x = s.chan x := rfl
@[simp] theorem State.lock_after_taken (s : State) (a b : Nat) (x : Nat) : (s.taken a b).lock x = s.lock x := rfl
@[simp] theorem State.copy_after_taken (s : State) (a b : Nat) (x : Nat) : (s.taken a b).copy x = s.copy x := rfl
@[simp] theorem State.obj_after_taken (s : State) (a b : Nat) (x y : Nat) : (s.taken a b).obj x y = s.obj x y := rfl
@[simp] theorem State.param_after_taken (s : State) (a b : Nat) (x : Nat) : (s.taken a b).param x = s.param x := rfl
/-! What is read after `emit` -/
@[simp] theorem State.cl_after_emit (s : State) (o : Output) (x : Nat) : (s.emit o).cl x = s.cl x := rfl
@[simp] theorem State.th_after_emit (s : State) (o : Output) (x : Nat) : (s.emit o).th x = s.th x := rfl
@[simp] theorem State.isl_after_emit (s : State) (o : Output) (x : Nat) : (s.emit o).isl x = s.isl x := rfl
@[simp] theorem State.up_after_emit (s : State) (o : Output) (x : Nat) : (s.emit o).up x = s.up x := rfl
@[simp] theorem State.inReset_after_emit (s : State) (o : Output) (x : Nat) : (s.emit o).inReset x = s.inReset x := rfl
@[simp] theorem State.slc_after_emit (s : State) (o : Output) (x : Nat) : (s.emit o).slc x = s.slc x := rfl
@[simp] theorem State.rcd_after_emit (s : State) (o : Output) (x : Nat) : (s.emit o).rcd x = s.rcd x := rfl
@[simp] theorem State.port_after_emit (s : State) (o : Output) (x : Nat) : (s.emit o).port x = s.port x := rfl
@[simp] theorem State.lane_after_emit (s : State) (o : Output) (x : Nat) : (s.emit o).lane x = s.lane x := rfl
@[simp] theorem State.tsk_after_emit (s : State) (o : Output) (x : Nat) : (s.emit o).tsk x = s.tsk x := rfl
@[simp] theorem State.desc_after_emit (s : State) (o : Output) (x : Nat) : (s.emit o).desc x = s.desc x := rfl
@[simp] theorem State.pool_after_emit (s : State) (o : Output) (x : Nat) : (s.emit o).pool x = s.pool x := rfl
@[simp] theorem State.queue_after_emit (s : State) (o : Output) (x : Nat) : (s.emit o).queue x = s.queue x := rfl
@[simp] theorem State.chan_after_emit (s : State) (o : Output) (x : Nat) : (s.emit o).chan x = s.chan x := rfl
@[simp] theorem State.lock_after_emit (s : State) (o : Output) (x : Nat) : (s.emit o).lock x = s.lock x := rfl
@[simp] theorem State.copy_after_emit (s : State) (o : Output) (x : Nat) : (s.emit o).copy x = s.copy x := rfl
@[simp] theorem State.obj_after_emit (s : State) (o : Output) (x y : Nat) : (s.emit o).obj x y = s.obj x y := rfl
@[simp] theorem State.param_after_emit (s : State) (o : Output) (x : Nat) : (s.emit o).param x = s.param x := rfl
/-! What is read after `count` -/
@[simp] theorem State.cl_after_count (s : State) (u e n : Nat) (x : Nat) : (s.count u e n).cl x = s.cl x := rfl
@[simp] theorem State.th_after_count (s : State) (u e n : Nat) (x : Nat) : (s.count u e n).th x = s.th x := rfl
@[simp] theorem State.isl_after_count (s : State) (u e n : Nat) (x : Nat) : (s.count u e n).isl x = s.isl x := rfl
@[simp] theorem State.up_after_count (s : State) (u e n : Nat) (x : Nat) : (s.count u e n).up x = s.up x := rfl
@[simp] theorem State.inReset_after_count (s : State) (u e n : Nat) (x : Nat) : (s.count u e n).inReset x = s.inReset x := rfl
@[simp] theorem State.slc_after_count (s : State) (u e n : Nat) (x : Nat) : (s.count u e n).slc x = s.slc x := rfl
@[simp] theorem State.rcd_after_count (s : State) (u e n : Nat) (x : Nat) : (s.count u e n).rcd x = s.rcd x := rfl
@[simp] theorem State.port_after_count (s : State) (u e n : Nat) (x : Nat) : (s.count u e n).port x = s.port x := rfl
@[simp] theorem State.lane_after_count (s : State) (u e n : Nat) (x : Nat) : (s.count u e n).lane x = s.lane x := rfl
@[simp] theorem State.tsk_after_count (s : State) (u e n : Nat) (x : Nat) : (s.count u e n).tsk x = s.tsk x := rfl
@[simp] theorem State.desc_after_count (s : State) (u e n : Nat) (x : Nat) : (s.count u e n).desc x = s.desc x := rfl
@[simp] theorem State.pool_after_count (s : State) (u e n : Nat) (x : Nat) : (s.count u e n).pool x = s.pool x := rfl
@[simp] theorem State.queue_after_count (s : State) (u e n : Nat) (x : Nat) : (s.count u e n).queue x = s.queue x := rfl
@[simp] theorem State.chan_after_count (s : State) (u e n : Nat) (x : Nat) : (s.count u e n).chan x = s.chan x := rfl
@[simp] theorem State.lock_after_count (s : State) (u e n : Nat) (x : Nat) : (s.count u e n).lock x = s.lock x := rfl
@[simp] theorem State.copy_after_count (s : State) (u e n : Nat) (x : Nat) : (s.count u e n).copy x = s.copy x := rfl
@[simp] theorem State.obj_after_count (s : State) (u e n : Nat) (x y : Nat) : (s.count u e n).obj x y = s.obj x y := rfl
@[simp] theorem State.param_after_count (s : State) (u e n : Nat) (x : Nat) : (s.count u e n).param x = s.param x := rfl
/-! What is read after `watch` -/
@[simp] theorem State.cl_after_watch (s : State)  (x : Nat) : (s.watch).cl x = s.cl x := rfl
@[simp] theorem State.th_after_watch (s : State)  (x : Nat) : (s.watch).th x = s.th x := rfl
@[simp] theorem State.isl_after_watch (s : State)  (x : Nat) : (s.watch).isl x = s.isl x := rfl
@[simp] theorem State.up_after_watch (s : State)  (x : Nat) : (s.watch).up x = s.up x := rfl
@[simp] theorem State.inReset_after_watch (s : State)  (x : Nat) : (s.watch).inReset x = s.inReset x := rfl
@[simp] theorem State.slc_after_watch (s : State)  (x : Nat) : (s.watch).slc x = s.slc x := rfl
@[simp] theorem State.rcd_after_watch (s : State)  (x : Nat) : (s.watch).rcd x = s.rcd x := rfl
@[simp] theorem State.port_after_watch (s : State)  (x : Nat) : (s.watch).port x = s.port x := rfl
@[simp] theorem State.lane_after_watch (s : State)  (x : Nat) : (s.watch).lane x = s.lane x := rfl
@[simp] theorem State.tsk_after_watch (s : State)  (x : Nat) : (s.watch).tsk x = s.tsk x := rfl
@[simp] theorem State.desc_after_watch (s : State)  (x : Nat) : (s.watch).desc x = s.desc x := rfl
@[simp] theorem State.pool_after_watch (s : State)  (x : Nat) : (s.watch).pool x = s.pool x := rfl
@[simp] theorem State.queue_after_watch (s : State)  (x : Nat) : (s.watch).queue x = s.queue x := rfl
@[simp] theorem State.chan_after_watch (s : State)  (x : Nat) : (s.watch).chan x = s.chan x := rfl
@[simp] theorem State.lock_after_watch (s : State)  (x : Nat) : (s.watch).lock x = s.lock x := rfl
@[simp] theorem State.copy_after_watch (s : State)  (x : Nat) : (s.watch).copy x = s.copy x := rfl
@[simp] theorem State.obj_after_watch (s : State)  (x y : Nat) : (s.watch).obj x y = s.obj x y := rfl
@[simp] theorem State.param_after_watch (s : State)  (x : Nat) : (s.watch).param x = s.param x := rfl
/-! What is read after `enqueueFault` -/
@[simp] theorem State.cl_after_enqueueFault (s : State) (m : FaultMsg) (x : Nat) : (s.enqueueFault m).cl x = s.cl x := by simp [State.cl]
@[simp] theorem State.th_after_enqueueFault (s : State) (m : FaultMsg) (x : Nat) : (s.enqueueFault m).th x = s.th x := by simp [State.th, State.cl]
@[simp] theorem State.isl_after_enqueueFault (s : State) (m : FaultMsg) (x : Nat) : (s.enqueueFault m).isl x = s.isl x := by simp [State.isl]
@[simp] theorem State.up_after_enqueueFault (s : State) (m : FaultMsg) (x : Nat) : (s.enqueueFault m).up x = s.up x := by simp [State.up, State.isl]
@[simp] theorem State.inReset_after_enqueueFault (s : State) (m : FaultMsg) (x : Nat) : (s.enqueueFault m).inReset x = s.inReset x := by simp [State.inReset, State.isl]
@[simp] theorem State.slc_after_enqueueFault (s : State) (m : FaultMsg) (x : Nat) : (s.enqueueFault m).slc x = s.slc x := by simp [State.slc]
@[simp] theorem State.rcd_after_enqueueFault (s : State) (m : FaultMsg) (x : Nat) : (s.enqueueFault m).rcd x = s.rcd x := by simp [State.rcd]
@[simp] theorem State.port_after_enqueueFault (s : State) (m : FaultMsg) (x : Nat) : (s.enqueueFault m).port x = s.port x := by simp [State.port]
@[simp] theorem State.lane_after_enqueueFault (s : State) (m : FaultMsg) (x : Nat) : (s.enqueueFault m).lane x = s.lane x := by simp [State.lane]
@[simp] theorem State.tsk_after_enqueueFault (s : State) (m : FaultMsg) (x : Nat) : (s.enqueueFault m).tsk x = s.tsk x := by simp [State.tsk]
@[simp] theorem State.desc_after_enqueueFault (s : State) (m : FaultMsg) (x : Nat) : (s.enqueueFault m).desc x = s.desc x := by simp [State.desc]
@[simp] theorem State.pool_after_enqueueFault (s : State) (m : FaultMsg) (x : Nat) : (s.enqueueFault m).pool x = s.pool x := by simp [State.pool]
@[simp] theorem State.queue_after_enqueueFault (s : State) (m : FaultMsg) (x : Nat) : (s.enqueueFault m).queue x = s.queue x := by simp [State.queue]
@[simp] theorem State.chan_after_enqueueFault (s : State) (m : FaultMsg) (x : Nat) : (s.enqueueFault m).chan x = s.chan x := by simp [State.chan]
@[simp] theorem State.lock_after_enqueueFault (s : State) (m : FaultMsg) (x : Nat) : (s.enqueueFault m).lock x = s.lock x := by simp [State.lock]
@[simp] theorem State.copy_after_enqueueFault (s : State) (m : FaultMsg) (x : Nat) : (s.enqueueFault m).copy x = s.copy x := by simp [State.copy]
@[simp] theorem State.obj_after_enqueueFault (s : State) (m : FaultMsg) (x y : Nat) : (s.enqueueFault m).obj x y = s.obj x y := by simp [State.obj]
@[simp] theorem State.param_after_enqueueFault (s : State) (m : FaultMsg) (x : Nat) : (s.enqueueFault m).param x = s.param x := by simp [State.param, State.obj]
/-! What is read after `raise` -/
@[simp] theorem State.cl_after_raise (s : State) (u k : Nat) (i : FaultInfo) (x : Nat) : (s.raise u k i).cl x = s.cl x := by simp [State.cl]
@[simp] theorem State.th_after_raise (s : State) (u k : Nat) (i : FaultInfo) (x : Nat) : (s.raise u k i).th x = s.th x := by simp [State.th, State.cl]
@[simp] theorem State.isl_after_raise (s : State) (u k : Nat) (i : FaultInfo) (x : Nat) : (s.raise u k i).isl x = s.isl x := by simp [State.isl]
@[simp] theorem State.up_after_raise (s : State) (u k : Nat) (i : FaultInfo) (x : Nat) : (s.raise u k i).up x = s.up x := by simp [State.up, State.isl]
@[simp] theorem State.inReset_after_raise (s : State) (u k : Nat) (i : FaultInfo) (x : Nat) : (s.raise u k i).inReset x = s.inReset x := by simp [State.inReset, State.isl]
@[simp] theorem State.slc_after_raise (s : State) (u k : Nat) (i : FaultInfo) (x : Nat) : (s.raise u k i).slc x = s.slc x := by simp [State.slc]
@[simp] theorem State.rcd_after_raise (s : State) (u k : Nat) (i : FaultInfo) (x : Nat) : (s.raise u k i).rcd x = s.rcd x := by simp [State.rcd]
@[simp] theorem State.port_after_raise (s : State) (u k : Nat) (i : FaultInfo) (x : Nat) : (s.raise u k i).port x = s.port x := by simp [State.port]
@[simp] theorem State.lane_after_raise (s : State) (u k : Nat) (i : FaultInfo) (x : Nat) : (s.raise u k i).lane x = s.lane x := by simp [State.lane]
@[simp] theorem State.tsk_after_raise (s : State) (u k : Nat) (i : FaultInfo) (x : Nat) : (s.raise u k i).tsk x = s.tsk x := by simp [State.tsk]
@[simp] theorem State.desc_after_raise (s : State) (u k : Nat) (i : FaultInfo) (x : Nat) : (s.raise u k i).desc x = s.desc x := by simp [State.desc]
@[simp] theorem State.pool_after_raise (s : State) (u k : Nat) (i : FaultInfo) (x : Nat) : (s.raise u k i).pool x = s.pool x := by simp [State.pool]
@[simp] theorem State.queue_after_raise (s : State) (u k : Nat) (i : FaultInfo) (x : Nat) : (s.raise u k i).queue x = s.queue x := by simp [State.queue]
@[simp] theorem State.chan_after_raise (s : State) (u k : Nat) (i : FaultInfo) (x : Nat) : (s.raise u k i).chan x = s.chan x := by simp [State.chan]
@[simp] theorem State.lock_after_raise (s : State) (u k : Nat) (i : FaultInfo) (x : Nat) : (s.raise u k i).lock x = s.lock x := by simp [State.lock]
@[simp] theorem State.copy_after_raise (s : State) (u k : Nat) (i : FaultInfo) (x : Nat) : (s.raise u k i).copy x = s.copy x := by simp [State.copy]
@[simp] theorem State.obj_after_raise (s : State) (u k : Nat) (i : FaultInfo) (x y : Nat) : (s.raise u k i).obj x y = s.obj x y := by simp [State.obj]
@[simp] theorem State.param_after_raise (s : State) (u k : Nat) (i : FaultInfo) (x : Nat) : (s.raise u k i).param x = s.param x := by simp [State.param, State.obj]
/-! What is read after `msix` -/
@[simp] theorem State.cl_after_msix (s : State) (v : Nat) (x : Nat) : (s.msix v).cl x = s.cl x := by simp [State.cl]
@[simp] theorem State.th_after_msix (s : State) (v : Nat) (x : Nat) : (s.msix v).th x = s.th x := by simp [State.th, State.cl]
@[simp] theorem State.isl_after_msix (s : State) (v : Nat) (x : Nat) : (s.msix v).isl x = s.isl x := by simp [State.isl]
@[simp] theorem State.up_after_msix (s : State) (v : Nat) (x : Nat) : (s.msix v).up x = s.up x := by simp [State.up, State.isl]
@[simp] theorem State.inReset_after_msix (s : State) (v : Nat) (x : Nat) : (s.msix v).inReset x = s.inReset x := by simp [State.inReset, State.isl]
@[simp] theorem State.slc_after_msix (s : State) (v : Nat) (x : Nat) : (s.msix v).slc x = s.slc x := by simp [State.slc]
@[simp] theorem State.rcd_after_msix (s : State) (v : Nat) (x : Nat) : (s.msix v).rcd x = s.rcd x := by simp [State.rcd]
@[simp] theorem State.port_after_msix (s : State) (v : Nat) (x : Nat) : (s.msix v).port x = s.port x := by simp [State.port]
@[simp] theorem State.lane_after_msix (s : State) (v : Nat) (x : Nat) : (s.msix v).lane x = s.lane x := by simp [State.lane]
@[simp] theorem State.tsk_after_msix (s : State) (v : Nat) (x : Nat) : (s.msix v).tsk x = s.tsk x := by simp [State.tsk]
@[simp] theorem State.desc_after_msix (s : State) (v : Nat) (x : Nat) : (s.msix v).desc x = s.desc x := by simp [State.desc]
@[simp] theorem State.pool_after_msix (s : State) (v : Nat) (x : Nat) : (s.msix v).pool x = s.pool x := by simp [State.pool]
@[simp] theorem State.queue_after_msix (s : State) (v : Nat) (x : Nat) : (s.msix v).queue x = s.queue x := by simp [State.queue]
@[simp] theorem State.chan_after_msix (s : State) (v : Nat) (x : Nat) : (s.msix v).chan x = s.chan x := by simp [State.chan]
@[simp] theorem State.lock_after_msix (s : State) (v : Nat) (x : Nat) : (s.msix v).lock x = s.lock x := by simp [State.lock]
@[simp] theorem State.copy_after_msix (s : State) (v : Nat) (x : Nat) : (s.msix v).copy x = s.copy x := by simp [State.copy]
@[simp] theorem State.obj_after_msix (s : State) (v : Nat) (x y : Nat) : (s.msix v).obj x y = s.obj x y := by simp [State.obj]
@[simp] theorem State.param_after_msix (s : State) (v : Nat) (x : Nat) : (s.msix v).param x = s.param x := by simp [State.param, State.obj]
/-! What is read after `event` -/
@[simp] theorem State.cl_after_event (s : State) (b : Nat) (x : Nat) : (s.event b).cl x = s.cl x := by simp [State.cl]
@[simp] theorem State.th_after_event (s : State) (b : Nat) (x : Nat) : (s.event b).th x = s.th x := by simp [State.th, State.cl]
@[simp] theorem State.isl_after_event (s : State) (b : Nat) (x : Nat) : (s.event b).isl x = s.isl x := by simp [State.isl]
@[simp] theorem State.up_after_event (s : State) (b : Nat) (x : Nat) : (s.event b).up x = s.up x := by simp [State.up, State.isl]
@[simp] theorem State.inReset_after_event (s : State) (b : Nat) (x : Nat) : (s.event b).inReset x = s.inReset x := by simp [State.inReset, State.isl]
@[simp] theorem State.slc_after_event (s : State) (b : Nat) (x : Nat) : (s.event b).slc x = s.slc x := by simp [State.slc]
@[simp] theorem State.rcd_after_event (s : State) (b : Nat) (x : Nat) : (s.event b).rcd x = s.rcd x := by simp [State.rcd]
@[simp] theorem State.port_after_event (s : State) (b : Nat) (x : Nat) : (s.event b).port x = s.port x := by simp [State.port]
@[simp] theorem State.lane_after_event (s : State) (b : Nat) (x : Nat) : (s.event b).lane x = s.lane x := by simp [State.lane]
@[simp] theorem State.tsk_after_event (s : State) (b : Nat) (x : Nat) : (s.event b).tsk x = s.tsk x := by simp [State.tsk]
@[simp] theorem State.desc_after_event (s : State) (b : Nat) (x : Nat) : (s.event b).desc x = s.desc x := by simp [State.desc]
@[simp] theorem State.pool_after_event (s : State) (b : Nat) (x : Nat) : (s.event b).pool x = s.pool x := by simp [State.pool]
@[simp] theorem State.queue_after_event (s : State) (b : Nat) (x : Nat) : (s.event b).queue x = s.queue x := by simp [State.queue]
@[simp] theorem State.chan_after_event (s : State) (b : Nat) (x : Nat) : (s.event b).chan x = s.chan x := by simp [State.chan]
@[simp] theorem State.lock_after_event (s : State) (b : Nat) (x : Nat) : (s.event b).lock x = s.lock x := by simp [State.lock]
@[simp] theorem State.copy_after_event (s : State) (b : Nat) (x : Nat) : (s.event b).copy x = s.copy x := by simp [State.copy]
@[simp] theorem State.obj_after_event (s : State) (b : Nat) (x y : Nat) : (s.event b).obj x y = s.obj x y := by simp [State.obj]
@[simp] theorem State.param_after_event (s : State) (b : Nat) (x : Nat) : (s.event b).param x = s.param x := by simp [State.param, State.obj]
/-! What is read after `stewardEvent` -/
@[simp] theorem State.cl_after_stewardEvent (s : State) (e : StewardEvent) (x : Nat) : (s.stewardEvent e).cl x = s.cl x := by simp [State.cl]
@[simp] theorem State.th_after_stewardEvent (s : State) (e : StewardEvent) (x : Nat) : (s.stewardEvent e).th x = s.th x := by simp [State.th, State.cl]
@[simp] theorem State.isl_after_stewardEvent (s : State) (e : StewardEvent) (x : Nat) : (s.stewardEvent e).isl x = s.isl x := by simp [State.isl]
@[simp] theorem State.up_after_stewardEvent (s : State) (e : StewardEvent) (x : Nat) : (s.stewardEvent e).up x = s.up x := by simp [State.up, State.isl]
@[simp] theorem State.inReset_after_stewardEvent (s : State) (e : StewardEvent) (x : Nat) : (s.stewardEvent e).inReset x = s.inReset x := by simp [State.inReset, State.isl]
@[simp] theorem State.slc_after_stewardEvent (s : State) (e : StewardEvent) (x : Nat) : (s.stewardEvent e).slc x = s.slc x := by simp [State.slc]
@[simp] theorem State.rcd_after_stewardEvent (s : State) (e : StewardEvent) (x : Nat) : (s.stewardEvent e).rcd x = s.rcd x := by simp [State.rcd]
@[simp] theorem State.port_after_stewardEvent (s : State) (e : StewardEvent) (x : Nat) : (s.stewardEvent e).port x = s.port x := by simp [State.port]
@[simp] theorem State.lane_after_stewardEvent (s : State) (e : StewardEvent) (x : Nat) : (s.stewardEvent e).lane x = s.lane x := by simp [State.lane]
@[simp] theorem State.tsk_after_stewardEvent (s : State) (e : StewardEvent) (x : Nat) : (s.stewardEvent e).tsk x = s.tsk x := by simp [State.tsk]
@[simp] theorem State.desc_after_stewardEvent (s : State) (e : StewardEvent) (x : Nat) : (s.stewardEvent e).desc x = s.desc x := by simp [State.desc]
@[simp] theorem State.pool_after_stewardEvent (s : State) (e : StewardEvent) (x : Nat) : (s.stewardEvent e).pool x = s.pool x := by simp [State.pool]
@[simp] theorem State.queue_after_stewardEvent (s : State) (e : StewardEvent) (x : Nat) : (s.stewardEvent e).queue x = s.queue x := by simp [State.queue]
@[simp] theorem State.chan_after_stewardEvent (s : State) (e : StewardEvent) (x : Nat) : (s.stewardEvent e).chan x = s.chan x := by simp [State.chan]
@[simp] theorem State.lock_after_stewardEvent (s : State) (e : StewardEvent) (x : Nat) : (s.stewardEvent e).lock x = s.lock x := by simp [State.lock]
@[simp] theorem State.copy_after_stewardEvent (s : State) (e : StewardEvent) (x : Nat) : (s.stewardEvent e).copy x = s.copy x := by simp [State.copy]
@[simp] theorem State.obj_after_stewardEvent (s : State) (e : StewardEvent) (x y : Nat) : (s.stewardEvent e).obj x y = s.obj x y := by simp [State.obj]
@[simp] theorem State.param_after_stewardEvent (s : State) (e : StewardEvent) (x : Nat) : (s.stewardEvent e).param x = s.param x := by simp [State.param, State.obj]
/-! What is read after `sweepFrame` -/
@[simp] theorem State.cl_after_sweepFrame (s : State) (c i : Nat) (x : Nat) : (s.sweepFrame c i).cl x = s.cl x := by simp [State.cl]
@[simp] theorem State.th_after_sweepFrame (s : State) (c i : Nat) (x : Nat) : (s.sweepFrame c i).th x = s.th x := by simp [State.th, State.cl]
@[simp] theorem State.isl_after_sweepFrame (s : State) (c i : Nat) (x : Nat) : (s.sweepFrame c i).isl x = s.isl x := by simp [State.isl]
@[simp] theorem State.up_after_sweepFrame (s : State) (c i : Nat) (x : Nat) : (s.sweepFrame c i).up x = s.up x := by simp [State.up, State.isl]
@[simp] theorem State.inReset_after_sweepFrame (s : State) (c i : Nat) (x : Nat) : (s.sweepFrame c i).inReset x = s.inReset x := by simp [State.inReset, State.isl]
@[simp] theorem State.slc_after_sweepFrame (s : State) (c i : Nat) (x : Nat) : (s.sweepFrame c i).slc x = s.slc x := by simp [State.slc]
@[simp] theorem State.rcd_after_sweepFrame (s : State) (c i : Nat) (x : Nat) : (s.sweepFrame c i).rcd x = s.rcd x := by simp [State.rcd]
@[simp] theorem State.port_after_sweepFrame (s : State) (c i : Nat) (x : Nat) : (s.sweepFrame c i).port x = s.port x := by simp [State.port]
@[simp] theorem State.lane_after_sweepFrame (s : State) (c i : Nat) (x : Nat) : (s.sweepFrame c i).lane x = s.lane x := by simp [State.lane]
@[simp] theorem State.tsk_after_sweepFrame (s : State) (c i : Nat) (x : Nat) : (s.sweepFrame c i).tsk x = s.tsk x := by simp [State.tsk]
@[simp] theorem State.desc_after_sweepFrame (s : State) (c i : Nat) (x : Nat) : (s.sweepFrame c i).desc x = s.desc x := by simp [State.desc]
@[simp] theorem State.pool_after_sweepFrame (s : State) (c i : Nat) (x : Nat) : (s.sweepFrame c i).pool x = s.pool x := by simp [State.pool]
@[simp] theorem State.queue_after_sweepFrame (s : State) (c i : Nat) (x : Nat) : (s.sweepFrame c i).queue x = s.queue x := by simp [State.queue]
@[simp] theorem State.lock_after_sweepFrame (s : State) (c i : Nat) (x : Nat) : (s.sweepFrame c i).lock x = s.lock x := by simp [State.lock]
@[simp] theorem State.copy_after_sweepFrame (s : State) (c i : Nat) (x : Nat) : (s.sweepFrame c i).copy x = s.copy x := by simp [State.copy]
@[simp] theorem State.obj_after_sweepFrame (s : State) (c i : Nat) (x y : Nat) : (s.sweepFrame c i).obj x y = s.obj x y := by simp [State.obj]
@[simp] theorem State.param_after_sweepFrame (s : State) (c i : Nat) (x : Nat) : (s.sweepFrame c i).param x = s.param x := by simp [State.param, State.obj]
/-! What is read after `corrected` -/
@[simp] theorem State.cl_after_corrected (s : State) (c r d n : Nat) (x : Nat) : (s.corrected c r d n).cl x = s.cl x := by simp [State.cl]
@[simp] theorem State.th_after_corrected (s : State) (c r d n : Nat) (x : Nat) : (s.corrected c r d n).th x = s.th x := by simp [State.th, State.cl]
@[simp] theorem State.isl_after_corrected (s : State) (c r d n : Nat) (x : Nat) : (s.corrected c r d n).isl x = s.isl x := by simp [State.isl]
@[simp] theorem State.up_after_corrected (s : State) (c r d n : Nat) (x : Nat) : (s.corrected c r d n).up x = s.up x := by simp [State.up, State.isl]
@[simp] theorem State.inReset_after_corrected (s : State) (c r d n : Nat) (x : Nat) : (s.corrected c r d n).inReset x = s.inReset x := by simp [State.inReset, State.isl]
@[simp] theorem State.slc_after_corrected (s : State) (c r d n : Nat) (x : Nat) : (s.corrected c r d n).slc x = s.slc x := by simp [State.slc]
@[simp] theorem State.rcd_after_corrected (s : State) (c r d n : Nat) (x : Nat) : (s.corrected c r d n).rcd x = s.rcd x := by simp [State.rcd]
@[simp] theorem State.port_after_corrected (s : State) (c r d n : Nat) (x : Nat) : (s.corrected c r d n).port x = s.port x := by simp [State.port]
@[simp] theorem State.lane_after_corrected (s : State) (c r d n : Nat) (x : Nat) : (s.corrected c r d n).lane x = s.lane x := by simp [State.lane]
@[simp] theorem State.tsk_after_corrected (s : State) (c r d n : Nat) (x : Nat) : (s.corrected c r d n).tsk x = s.tsk x := by simp [State.tsk]
@[simp] theorem State.desc_after_corrected (s : State) (c r d n : Nat) (x : Nat) : (s.corrected c r d n).desc x = s.desc x := by simp [State.desc]
@[simp] theorem State.pool_after_corrected (s : State) (c r d n : Nat) (x : Nat) : (s.corrected c r d n).pool x = s.pool x := by simp [State.pool]
@[simp] theorem State.queue_after_corrected (s : State) (c r d n : Nat) (x : Nat) : (s.corrected c r d n).queue x = s.queue x := by simp [State.queue]
@[simp] theorem State.lock_after_corrected (s : State) (c r d n : Nat) (x : Nat) : (s.corrected c r d n).lock x = s.lock x := by simp [State.lock]
@[simp] theorem State.copy_after_corrected (s : State) (c r d n : Nat) (x : Nat) : (s.corrected c r d n).copy x = s.copy x := by simp [State.copy]
@[simp] theorem State.obj_after_corrected (s : State) (c r d n : Nat) (x y : Nat) : (s.corrected c r d n).obj x y = s.obj x y := by simp [State.obj]
@[simp] theorem State.param_after_corrected (s : State) (c r d n : Nat) (x : Nat) : (s.corrected c r d n).param x = s.param x := by simp [State.param, State.obj]
/-! What is read after `decodeLine` -/
@[simp] theorem State.cl_after_decodeLine (s : State) (l : Nat) (x : Nat) : (s.decodeLine l).cl x = s.cl x := by simp [State.cl]
@[simp] theorem State.th_after_decodeLine (s : State) (l : Nat) (x : Nat) : (s.decodeLine l).th x = s.th x := by simp [State.th, State.cl]
@[simp] theorem State.isl_after_decodeLine (s : State) (l : Nat) (x : Nat) : (s.decodeLine l).isl x = s.isl x := by simp [State.isl]
@[simp] theorem State.up_after_decodeLine (s : State) (l : Nat) (x : Nat) : (s.decodeLine l).up x = s.up x := by simp [State.up, State.isl]
@[simp] theorem State.inReset_after_decodeLine (s : State) (l : Nat) (x : Nat) : (s.decodeLine l).inReset x = s.inReset x := by simp [State.inReset, State.isl]
@[simp] theorem State.slc_after_decodeLine (s : State) (l : Nat) (x : Nat) : (s.decodeLine l).slc x = s.slc x := by simp [State.slc]
@[simp] theorem State.rcd_after_decodeLine (s : State) (l : Nat) (x : Nat) : (s.decodeLine l).rcd x = s.rcd x := by simp [State.rcd]
@[simp] theorem State.port_after_decodeLine (s : State) (l : Nat) (x : Nat) : (s.decodeLine l).port x = s.port x := by simp [State.port]
@[simp] theorem State.lane_after_decodeLine (s : State) (l : Nat) (x : Nat) : (s.decodeLine l).lane x = s.lane x := by simp [State.lane]
@[simp] theorem State.tsk_after_decodeLine (s : State) (l : Nat) (x : Nat) : (s.decodeLine l).tsk x = s.tsk x := by simp [State.tsk]
@[simp] theorem State.desc_after_decodeLine (s : State) (l : Nat) (x : Nat) : (s.decodeLine l).desc x = s.desc x := by simp [State.desc]
@[simp] theorem State.pool_after_decodeLine (s : State) (l : Nat) (x : Nat) : (s.decodeLine l).pool x = s.pool x := by simp [State.pool]
@[simp] theorem State.queue_after_decodeLine (s : State) (l : Nat) (x : Nat) : (s.decodeLine l).queue x = s.queue x := by simp [State.queue]
@[simp] theorem State.lock_after_decodeLine (s : State) (l : Nat) (x : Nat) : (s.decodeLine l).lock x = s.lock x := by simp [State.lock]
@[simp] theorem State.copy_after_decodeLine (s : State) (l : Nat) (x : Nat) : (s.decodeLine l).copy x = s.copy x := by simp [State.copy]
@[simp] theorem State.obj_after_decodeLine (s : State) (l : Nat) (x y : Nat) : (s.decodeLine l).obj x y = s.obj x y := by simp [State.obj]
@[simp] theorem State.param_after_decodeLine (s : State) (l : Nat) (x : Nat) : (s.decodeLine l).param x = s.param x := by simp [State.param, State.obj]
/-! What is read after `readyLines` -/
@[simp] theorem State.cl_after_readyLines (s : State) (l : List Nat) (w : Nat → Bool) (x : Nat) : (s.readyLines l w).cl x = s.cl x := by simp [State.cl]
@[simp] theorem State.th_after_readyLines (s : State) (l : List Nat) (w : Nat → Bool) (x : Nat) : (s.readyLines l w).th x = s.th x := by simp [State.th, State.cl]
@[simp] theorem State.isl_after_readyLines (s : State) (l : List Nat) (w : Nat → Bool) (x : Nat) : (s.readyLines l w).isl x = s.isl x := by simp [State.isl]
@[simp] theorem State.up_after_readyLines (s : State) (l : List Nat) (w : Nat → Bool) (x : Nat) : (s.readyLines l w).up x = s.up x := by simp [State.up, State.isl]
@[simp] theorem State.inReset_after_readyLines (s : State) (l : List Nat) (w : Nat → Bool) (x : Nat) : (s.readyLines l w).inReset x = s.inReset x := by simp [State.inReset, State.isl]
@[simp] theorem State.slc_after_readyLines (s : State) (l : List Nat) (w : Nat → Bool) (x : Nat) : (s.readyLines l w).slc x = s.slc x := by simp [State.slc]
@[simp] theorem State.rcd_after_readyLines (s : State) (l : List Nat) (w : Nat → Bool) (x : Nat) : (s.readyLines l w).rcd x = s.rcd x := by simp [State.rcd]
@[simp] theorem State.port_after_readyLines (s : State) (l : List Nat) (w : Nat → Bool) (x : Nat) : (s.readyLines l w).port x = s.port x := by simp [State.port]
@[simp] theorem State.lane_after_readyLines (s : State) (l : List Nat) (w : Nat → Bool) (x : Nat) : (s.readyLines l w).lane x = s.lane x := by simp [State.lane]
@[simp] theorem State.tsk_after_readyLines (s : State) (l : List Nat) (w : Nat → Bool) (x : Nat) : (s.readyLines l w).tsk x = s.tsk x := by simp [State.tsk]
@[simp] theorem State.desc_after_readyLines (s : State) (l : List Nat) (w : Nat → Bool) (x : Nat) : (s.readyLines l w).desc x = s.desc x := by simp [State.desc]
@[simp] theorem State.pool_after_readyLines (s : State) (l : List Nat) (w : Nat → Bool) (x : Nat) : (s.readyLines l w).pool x = s.pool x := by simp [State.pool]
@[simp] theorem State.queue_after_readyLines (s : State) (l : List Nat) (w : Nat → Bool) (x : Nat) : (s.readyLines l w).queue x = s.queue x := by simp [State.queue]
@[simp] theorem State.lock_after_readyLines (s : State) (l : List Nat) (w : Nat → Bool) (x : Nat) : (s.readyLines l w).lock x = s.lock x := by simp [State.lock]
@[simp] theorem State.copy_after_readyLines (s : State) (l : List Nat) (w : Nat → Bool) (x : Nat) : (s.readyLines l w).copy x = s.copy x := by simp [State.copy]
@[simp] theorem State.obj_after_readyLines (s : State) (l : List Nat) (w : Nat → Bool) (x y : Nat) : (s.readyLines l w).obj x y = s.obj x y := by simp [State.obj]
@[simp] theorem State.param_after_readyLines (s : State) (l : List Nat) (w : Nat → Bool) (x : Nat) : (s.readyLines l w).param x = s.param x := by simp [State.param, State.obj]
/-! What is read after `dramWrite` -/
@[simp] theorem State.cl_after_dramWrite (s : State) (a : Nat) (l : List Byte) (x : Nat) : (s.dramWrite a l).cl x = s.cl x := by simp [State.cl]
@[simp] theorem State.th_after_dramWrite (s : State) (a : Nat) (l : List Byte) (x : Nat) : (s.dramWrite a l).th x = s.th x := by simp [State.th, State.cl]
@[simp] theorem State.isl_after_dramWrite (s : State) (a : Nat) (l : List Byte) (x : Nat) : (s.dramWrite a l).isl x = s.isl x := by simp [State.isl]
@[simp] theorem State.up_after_dramWrite (s : State) (a : Nat) (l : List Byte) (x : Nat) : (s.dramWrite a l).up x = s.up x := by simp [State.up, State.isl]
@[simp] theorem State.inReset_after_dramWrite (s : State) (a : Nat) (l : List Byte) (x : Nat) : (s.dramWrite a l).inReset x = s.inReset x := by simp [State.inReset, State.isl]
@[simp] theorem State.slc_after_dramWrite (s : State) (a : Nat) (l : List Byte) (x : Nat) : (s.dramWrite a l).slc x = s.slc x := by simp [State.slc]
@[simp] theorem State.rcd_after_dramWrite (s : State) (a : Nat) (l : List Byte) (x : Nat) : (s.dramWrite a l).rcd x = s.rcd x := by simp [State.rcd]
@[simp] theorem State.port_after_dramWrite (s : State) (a : Nat) (l : List Byte) (x : Nat) : (s.dramWrite a l).port x = s.port x := by simp [State.port]
@[simp] theorem State.lane_after_dramWrite (s : State) (a : Nat) (l : List Byte) (x : Nat) : (s.dramWrite a l).lane x = s.lane x := by simp [State.lane]
@[simp] theorem State.tsk_after_dramWrite (s : State) (a : Nat) (l : List Byte) (x : Nat) : (s.dramWrite a l).tsk x = s.tsk x := by simp [State.tsk]
@[simp] theorem State.desc_after_dramWrite (s : State) (a : Nat) (l : List Byte) (x : Nat) : (s.dramWrite a l).desc x = s.desc x := by simp [State.desc]
@[simp] theorem State.pool_after_dramWrite (s : State) (a : Nat) (l : List Byte) (x : Nat) : (s.dramWrite a l).pool x = s.pool x := by simp [State.pool]
@[simp] theorem State.queue_after_dramWrite (s : State) (a : Nat) (l : List Byte) (x : Nat) : (s.dramWrite a l).queue x = s.queue x := by simp [State.queue]
@[simp] theorem State.lock_after_dramWrite (s : State) (a : Nat) (l : List Byte) (x : Nat) : (s.dramWrite a l).lock x = s.lock x := by simp [State.lock]
@[simp] theorem State.copy_after_dramWrite (s : State) (a : Nat) (l : List Byte) (x : Nat) : (s.dramWrite a l).copy x = s.copy x := by simp [State.copy]
@[simp] theorem State.obj_after_dramWrite (s : State) (a : Nat) (l : List Byte) (x y : Nat) : (s.dramWrite a l).obj x y = s.obj x y := by simp [State.obj]
@[simp] theorem State.param_after_dramWrite (s : State) (a : Nat) (l : List Byte) (x : Nat) : (s.dramWrite a l).param x = s.param x := by simp [State.param, State.obj]
/-! What is read after `placeReq` -/
@[simp] theorem State.cl_after_placeReq (s : State) (c : Nat) (r : DramReq) (x : Nat) : (s.placeReq c r).cl x = s.cl x := by simp [State.cl]
@[simp] theorem State.th_after_placeReq (s : State) (c : Nat) (r : DramReq) (x : Nat) : (s.placeReq c r).th x = s.th x := by simp [State.th, State.cl]
@[simp] theorem State.isl_after_placeReq (s : State) (c : Nat) (r : DramReq) (x : Nat) : (s.placeReq c r).isl x = s.isl x := by simp [State.isl]
@[simp] theorem State.up_after_placeReq (s : State) (c : Nat) (r : DramReq) (x : Nat) : (s.placeReq c r).up x = s.up x := by simp [State.up, State.isl]
@[simp] theorem State.inReset_after_placeReq (s : State) (c : Nat) (r : DramReq) (x : Nat) : (s.placeReq c r).inReset x = s.inReset x := by simp [State.inReset, State.isl]
@[simp] theorem State.slc_after_placeReq (s : State) (c : Nat) (r : DramReq) (x : Nat) : (s.placeReq c r).slc x = s.slc x := by simp [State.slc]
@[simp] theorem State.rcd_after_placeReq (s : State) (c : Nat) (r : DramReq) (x : Nat) : (s.placeReq c r).rcd x = s.rcd x := by simp [State.rcd]
@[simp] theorem State.port_after_placeReq (s : State) (c : Nat) (r : DramReq) (x : Nat) : (s.placeReq c r).port x = s.port x := by simp [State.port]
@[simp] theorem State.lane_after_placeReq (s : State) (c : Nat) (r : DramReq) (x : Nat) : (s.placeReq c r).lane x = s.lane x := by simp [State.lane]
@[simp] theorem State.tsk_after_placeReq (s : State) (c : Nat) (r : DramReq) (x : Nat) : (s.placeReq c r).tsk x = s.tsk x := by simp [State.tsk]
@[simp] theorem State.desc_after_placeReq (s : State) (c : Nat) (r : DramReq) (x : Nat) : (s.placeReq c r).desc x = s.desc x := by simp [State.desc]
@[simp] theorem State.pool_after_placeReq (s : State) (c : Nat) (r : DramReq) (x : Nat) : (s.placeReq c r).pool x = s.pool x := by simp [State.pool]
@[simp] theorem State.queue_after_placeReq (s : State) (c : Nat) (r : DramReq) (x : Nat) : (s.placeReq c r).queue x = s.queue x := by simp [State.queue]
@[simp] theorem State.lock_after_placeReq (s : State) (c : Nat) (r : DramReq) (x : Nat) : (s.placeReq c r).lock x = s.lock x := by simp [State.lock]
@[simp] theorem State.copy_after_placeReq (s : State) (c : Nat) (r : DramReq) (x : Nat) : (s.placeReq c r).copy x = s.copy x := by simp [State.copy]
@[simp] theorem State.obj_after_placeReq (s : State) (c : Nat) (r : DramReq) (x y : Nat) : (s.placeReq c r).obj x y = s.obj x y := by simp [State.obj]
@[simp] theorem State.param_after_placeReq (s : State) (c : Nat) (r : DramReq) (x : Nat) : (s.placeReq c r).param x = s.param x := by simp [State.param, State.obj]
/-! What is read after `dramIssue` -/
@[simp] theorem State.cl_after_dramIssue (s : State) (w : Bool) (l : List Nat) (k m : Nat) (x : Nat) : (s.dramIssue w l k m).cl x = s.cl x := by simp [State.cl]
@[simp] theorem State.th_after_dramIssue (s : State) (w : Bool) (l : List Nat) (k m : Nat) (x : Nat) : (s.dramIssue w l k m).th x = s.th x := by simp [State.th, State.cl]
@[simp] theorem State.isl_after_dramIssue (s : State) (w : Bool) (l : List Nat) (k m : Nat) (x : Nat) : (s.dramIssue w l k m).isl x = s.isl x := by simp [State.isl]
@[simp] theorem State.up_after_dramIssue (s : State) (w : Bool) (l : List Nat) (k m : Nat) (x : Nat) : (s.dramIssue w l k m).up x = s.up x := by simp [State.up, State.isl]
@[simp] theorem State.inReset_after_dramIssue (s : State) (w : Bool) (l : List Nat) (k m : Nat) (x : Nat) : (s.dramIssue w l k m).inReset x = s.inReset x := by simp [State.inReset, State.isl]
@[simp] theorem State.slc_after_dramIssue (s : State) (w : Bool) (l : List Nat) (k m : Nat) (x : Nat) : (s.dramIssue w l k m).slc x = s.slc x := by simp [State.slc]
@[simp] theorem State.rcd_after_dramIssue (s : State) (w : Bool) (l : List Nat) (k m : Nat) (x : Nat) : (s.dramIssue w l k m).rcd x = s.rcd x := by simp [State.rcd]
@[simp] theorem State.port_after_dramIssue (s : State) (w : Bool) (l : List Nat) (k m : Nat) (x : Nat) : (s.dramIssue w l k m).port x = s.port x := by simp [State.port]
@[simp] theorem State.lane_after_dramIssue (s : State) (w : Bool) (l : List Nat) (k m : Nat) (x : Nat) : (s.dramIssue w l k m).lane x = s.lane x := by simp [State.lane]
@[simp] theorem State.tsk_after_dramIssue (s : State) (w : Bool) (l : List Nat) (k m : Nat) (x : Nat) : (s.dramIssue w l k m).tsk x = s.tsk x := by simp [State.tsk]
@[simp] theorem State.desc_after_dramIssue (s : State) (w : Bool) (l : List Nat) (k m : Nat) (x : Nat) : (s.dramIssue w l k m).desc x = s.desc x := by simp [State.desc]
@[simp] theorem State.pool_after_dramIssue (s : State) (w : Bool) (l : List Nat) (k m : Nat) (x : Nat) : (s.dramIssue w l k m).pool x = s.pool x := by simp [State.pool]
@[simp] theorem State.queue_after_dramIssue (s : State) (w : Bool) (l : List Nat) (k m : Nat) (x : Nat) : (s.dramIssue w l k m).queue x = s.queue x := by simp [State.queue]
@[simp] theorem State.lock_after_dramIssue (s : State) (w : Bool) (l : List Nat) (k m : Nat) (x : Nat) : (s.dramIssue w l k m).lock x = s.lock x := by simp [State.lock]
@[simp] theorem State.copy_after_dramIssue (s : State) (w : Bool) (l : List Nat) (k m : Nat) (x : Nat) : (s.dramIssue w l k m).copy x = s.copy x := by simp [State.copy]
@[simp] theorem State.obj_after_dramIssue (s : State) (w : Bool) (l : List Nat) (k m : Nat) (x y : Nat) : (s.dramIssue w l k m).obj x y = s.obj x y := by simp [State.obj]
@[simp] theorem State.param_after_dramIssue (s : State) (w : Bool) (l : List Nat) (k m : Nat) (x : Nat) : (s.dramIssue w l k m).param x = s.param x := by simp [State.param, State.obj]

/-! ### Reading what was written -/

theorem State.cl_modCl (s : State) (c k : Nat) (f : Cluster → Cluster) :
    (s.modCl c f).cl k = if k = c then f (s.cl c) else s.cl k := Store.get_modify _ _ _ _ _

@[simp] theorem State.cl_modCl_same (s : State) (c : Nat) (f : Cluster → Cluster) : (s.modCl c f).cl c = f (s.cl c) := by
  simp [State.cl_modCl]

theorem State.th_modTh (s : State) (t k : Nat) (f : Thread → Thread) :
    (s.modTh t f).th k = if k = t then f (s.th t) else s.th k := by
  unfold State.th State.modTh
  rw [State.cl_modCl]
  by_cases h : k = t
  · subst h; simp
  · by_cases hc : k / 128 = t / 128
    · have : k % 128 ≠ t % 128 := by omega
      simp [hc, h, Store.get_modify, this]
    · simp [hc, h]

@[simp] theorem State.th_modTh_same (s : State) (t : Nat) (f : Thread → Thread) : (s.modTh t f).th t = f (s.th t) := by
  simp [State.th_modTh]

theorem State.th_modCl (s : State) (c k : Nat) (f : Cluster → Cluster) (h : (f (s.cl c)).thread = (s.cl c).thread) :
    (s.modCl c f).th k = s.th k := by
  unfold State.th
  rw [State.cl_modCl]
  by_cases hc : k / 128 = c
  · subst hc; simp [h]
  · simp [hc]

theorem State.isl_modIsl (s : State) (i k : Nat) (f : Island → Island) :
    (s.modIsl i f).isl k = if k = i then f (s.isl i) else s.isl k := by
  by_cases h : k = i
  · subst h; simp [State.isl, State.modIsl]
  · simp only [State.isl, State.modIsl, Store.modify, h, if_false]
    exact Store.get_modify_otherDefault _ h

@[simp] theorem State.isl_modIsl_same (s : State) (i : Nat) (f : Island → Island) : (s.modIsl i f).isl i = f (s.isl i) := by
  simp [State.isl_modIsl]

theorem State.slc_modSlc (s : State) (i k : Nat) (f : Slice → Slice) :
    (s.modSlc i f).slc k = if k = i then f (s.slc i) else s.slc k := Store.get_modify _ _ _ _ _

@[simp] theorem State.slc_modSlc_same (s : State) (i : Nat) (f : Slice → Slice) : (s.modSlc i f).slc i = f (s.slc i) := by
  simp [State.slc_modSlc]

theorem State.rcd_modRec (s : State) (i k : Nat) (f : Rec → Rec) :
    (s.modRec i f).rcd k = if k = i then f (s.rcd i) else s.rcd k := Store.get_modify _ _ _ _ _

@[simp] theorem State.rcd_modRec_same (s : State) (i : Nat) (f : Rec → Rec) : (s.modRec i f).rcd i = f (s.rcd i) := by
  simp [State.rcd_modRec]

theorem State.port_modPort (s : State) (i k : Nat) (f : Port → Port) :
    (s.modPort i f).port k = if k = i then f (s.port i) else s.port k := Store.get_modify _ _ _ _ _

@[simp] theorem State.port_modPort_same (s : State) (i : Nat) (f : Port → Port) : (s.modPort i f).port i = f (s.port i) := by
  simp [State.port_modPort]

theorem State.lane_modLane (s : State) (i k : Nat) (f : Lane → Lane) :
    (s.modLane i f).lane k = if k = i then f (s.lane i) else s.lane k := Store.get_modify _ _ _ _ _

@[simp] theorem State.lane_modLane_same (s : State) (i : Nat) (f : Lane → Lane) : (s.modLane i f).lane i = f (s.lane i) := by
  simp [State.lane_modLane]

theorem State.tsk_modTask (s : State) (i k : Nat) (f : Task → Task) :
    (s.modTask i f).tsk k = if k = i then f (s.tsk i) else s.tsk k := Store.get_modify _ _ _ _ _

@[simp] theorem State.tsk_modTask_same (s : State) (i : Nat) (f : Task → Task) : (s.modTask i f).tsk i = f (s.tsk i) := by
  simp [State.tsk_modTask]

theorem State.desc_modDesc (s : State) (i k : Nat) (f : Desc → Desc) :
    (s.modDesc i f).desc k = if k = i then f (s.desc i) else s.desc k := Store.get_modify _ _ _ _ _

@[simp] theorem State.desc_modDesc_same (s : State) (i : Nat) (f : Desc → Desc) : (s.modDesc i f).desc i = f (s.desc i) := by
  simp [State.desc_modDesc]

theorem State.queue_modQueue (s : State) (i k : Nat) (f : Queue → Queue) :
    (s.modQueue i f).queue k = if k = i then f (s.queue i) else s.queue k := Store.get_modify _ _ _ _ _

@[simp] theorem State.queue_modQueue_same (s : State) (i : Nat) (f : Queue → Queue) : (s.modQueue i f).queue i = f (s.queue i) := by
  simp [State.queue_modQueue]

theorem State.chan_modChan (s : State) (i k : Nat) (f : DramChan → DramChan) :
    (s.modChan i f).chan k = if k = i then f (s.chan i) else s.chan k := Store.get_modify _ _ _ _ _

@[simp] theorem State.chan_modChan_same (s : State) (i : Nat) (f : DramChan → DramChan) : (s.modChan i f).chan i = f (s.chan i) := by
  simp [State.chan_modChan]

theorem State.lock_modLock (s : State) (i k : Nat) (f : Lock → Lock) :
    (s.modLock i f).lock k = if k = i then f (s.lock i) else s.lock k := Store.get_modify _ _ _ _ _

@[simp] theorem State.lock_modLock_same (s : State) (i : Nat) (f : Lock → Lock) : (s.modLock i f).lock i = f (s.lock i) := by
  simp [State.lock_modLock]

theorem State.copy_modCopy (s : State) (i k : Nat) (f : Copy → Copy) :
    (s.modCopy i f).copy k = if k = i then f (s.copy i) else s.copy k := Store.get_modify _ _ _ _ _

@[simp] theorem State.copy_modCopy_same (s : State) (i : Nat) (f : Copy → Copy) : (s.modCopy i f).copy i = f (s.copy i) := by
  simp [State.copy_modCopy]

theorem State.pool_modPool (s : State) (i k : Nat) (f : Pool → Pool) :
    (s.modPool i f).pool k = if k = i then f (s.pool i) else s.pool k := by
  by_cases h : k = i
  · subst h; simp [State.pool, State.modPool]
  · simp only [State.pool, State.modPool, Store.modify, h, if_false]
    exact Store.get_modify_otherDefault _ h

@[simp] theorem State.pool_modPool_same (s : State) (i : Nat) (f : Pool → Pool) : (s.modPool i f).pool i = f (s.pool i) := by
  simp [State.pool_modPool]

@[simp] theorem State.obj_setObj_same (s : State) (c i : Nat) (w : ObjWord) : (s.setObj c i w).obj c i = w := by
  simp [State.obj, State.setObj]

/-- A step's answer is the state its meaning gives, with the threshold slots compared. -/
theorem answer_eq (s : State) : answer s = .next s.watch := rfl

end Sys2Proof.Machine
end

