-- ==== Sys2Proof/Laws/Issue.lean ====
section
/-! SUPPORT. What the issue of one syllable does, said once: a syllable alone in its bundle, ready and legal, takes effect. -/

namespace Sys2Proof.Machine

@[simp] theorem illegalAt_single (z : RawSyl) : illegalAt [z] true = none := by
  simp [illegalAt, illegalFrom, Sets.clash]

theorem State.grantCores_single (s : State) (c u core : Nat) : s.grantCores c u [core] = [core] := by
  have h : ∃ n, helperAccepts u = n + 1 := by
    unfold helperAccepts; split <;> exact ⟨_, rfl⟩
  obtain ⟨n, h⟩ := h
  simp [State.grantCores, sortBy, placeBy, h]

/-- The one ready bundle of a cluster is chosen: every port is free, and its helpers grant to its core (R115, R210). -/
@[simp] theorem State.chooseBundles_single (s : State) (c : Nat) (o : Offer) :
    s.chooseBundles c (coreOf o.thread) [o] = [o.thread] := by
  have hg : s.granted' c (coreOf o.thread) [o] o = true := by
    simp only [State.granted', List.all_eq_true]
    intro y hy
    by_cases hc : y.cls = 2
    · have h : (o.syls.any fun z => z.cls == 2 && z.helper == y.helper) = true :=
        List.any_eq_true.2 ⟨y, hy, by simp [hc]⟩
      have hf : [o].filter (fun q => q.syls.any fun z => z.cls == 2 && z.helper == y.helper) = [o] :=
        List.filter_eq_self.2 (by simpa using h)
      have he : [coreOf o.thread].eraseDups = [coreOf o.thread] := rfl
      rw [hf, List.map_cons, List.map_nil, he, State.grantCores_single]
      simp
    · rw [Bool.or_eq_true]; exact Or.inl (by simpa using hc)
  simp [State.chooseBundles, State.issueOrder, sortBy, placeBy, hg]

/-- A syllable that closes an empty bundle of a thread that may issue, is legal, decodes, is ready, meets no fault and begins
no wait, takes effect. -/
theorem State.syllable_runs {s : State} {y : Syl} {cls op : Nat}
    (hok : threadOk ⟨y.cluster, y.core, y.thread⟩ = true) (hstop : y.stop = true)
    (hb : (s.th (threadNo ⟨y.cluster, y.core, y.thread⟩)).bundle = [])
    (hm : s.mayIssue (threadNo ⟨y.cluster, y.core, y.thread⟩) = true)
    (hk : s.breakHit (threadNo ⟨y.cluster, y.core, y.thread⟩) = false)
    (hp : bankBad s (threadNo ⟨y.cluster, y.core, y.thread⟩) ((s.th (threadNo ⟨y.cluster, y.core, y.thread⟩)).pc.toNat % 65536) = false)
    (hd : decodeFrom (s.service (threadNo ⟨y.cluster, y.core, y.thread⟩ / 128))
      (s.copy (s.th (threadNo ⟨y.cluster, y.core, y.thread⟩)).accord).dtab 0
      [{ cls := BitVec.ofNat 2 cls, op := BitVec.ofNat 7 op, fields := y.fields }] = .ok)
    (hr : bundleReady s (threadNo ⟨y.cluster, y.core, y.thread⟩) (s.th (threadNo ⟨y.cluster, y.core, y.thread⟩)).regs
      [{ cls := BitVec.ofNat 2 cls, op := BitVec.ofNat 7 op, fields := y.fields }] = true)
    (hf : execFault s (threadNo ⟨y.cluster, y.core, y.thread⟩) (s.th (threadNo ⟨y.cluster, y.core, y.thread⟩)).regs
      { cls := BitVec.ofNat 2 cls, op := BitVec.ofNat 7 op, fields := y.fields } = none)
    (he : (s.th (threadNo ⟨y.cluster, y.core, y.thread⟩)).effected = true ∨
      isEffect s (threadNo ⟨y.cluster, y.core, y.thread⟩) (s.th (threadNo ⟨y.cluster, y.core, y.thread⟩)).regs
        { cls := BitVec.ofNat 2 cls, op := BitVec.ofNat 7 op, fields := y.fields } = false)
    (hw : s.beginsWait (threadNo ⟨y.cluster, y.core, y.thread⟩)
      [{ cls := BitVec.ofNat 2 cls, op := BitVec.ofNat 7 op, fields := y.fields }] = none) :
    s.syllable y cls op = s.runBundle (threadNo ⟨y.cluster, y.core, y.thread⟩)
      [{ cls := BitVec.ofNat 2 cls, op := BitVec.ofNat 7 op, fields := y.fields }] := by
  unfold State.syllable
  simp only [hb, List.nil_append, hok, hstop]
  have he' : (!(s.th (threadNo ⟨y.cluster, y.core, y.thread⟩)).effected &&
      isEffect s (threadNo ⟨y.cluster, y.core, y.thread⟩) (s.th (threadNo ⟨y.cluster, y.core, y.thread⟩)).regs
        { cls := BitVec.ofNat 2 cls, op := BitVec.ofNat 7 op, fields := y.fields }) = false := by
    rcases he with h | h <;> simp [h]
  have hch := s.chooseBundles_single (threadNo ⟨y.cluster, y.core, y.thread⟩ / 128)
    ⟨threadNo ⟨y.cluster, y.core, y.thread⟩, (s.th (threadNo ⟨y.cluster, y.core, y.thread⟩)).prio.toNat,
      [{ cls := BitVec.ofNat 2 cls, op := BitVec.ofNat 7 op, fields := y.fields }]⟩
  simp only at hch
  simp [State.tryIssue, hm, hk, hp, hd, hr, hf, State.startBundle, he', hw, List.findSome?, hch]

/-- The state in which a bundle's only syllable takes effect: the bundle is counted, the thread's PC stands at it, and the
core's issue pointer has moved on. -/
@[irreducible] def State.runReady (s : State) (t n : Nat) : State :=
  let x := s.th t
  ((((s.countBundle t n).modTh t (fun z => { z with bundle := [], wait := .none, waitSyls := [], bpPass := false, pc := addrAfter x.pc 1 })).modCl
    (t / 128) (fun c => { c with rrIssue := Store.set 0 c.rrIssue (coreOf t * 4 + x.prio.toNat) ((t % 16 + 1) % 16) })).modTh t
    (fun z => if z.busy then { z with pc := x.pc } else z))


/-! ### The thread, the other threads and the rest of the clusters -/

/-- A change of the issue pointers leaves every thread as it was. -/
theorem State.th_modRr (s : State) (c k : Nat) (f : Store Nat → Store Nat) :
    (s.modCl c (fun x => { x with rrIssue := f x.rrIssue })).th k = s.th k := s.th_modCl c k _ rfl

theorem State.th_countBundle_other (s : State) (t n k : Nat) (h : k ≠ t) : (s.countBundle t n).th k = s.th k := by
  unfold State.countBundle
  split
  · simp
  · rw [State.th_modTh]; simp [h]

theorem State.th_countBundle (s : State) (t n : Nat) :
    (s.countBundle t n).th t = { s.th t with branches := ((s.countBundle t n).th t).branches } := by
  unfold State.countBundle
  split
  · simp
  · rw [State.th_modTh_same]

/-- A cluster but for its threads and its issue pointers. -/
def Cluster.still (c : Cluster) : Cluster := { c with thread := [], rrIssue := [] }

@[simp] theorem State.still_modTh (s : State) (t k : Nat) (f : Thread → Thread) : ((s.modTh t f).cl k).still = (s.cl k).still := by
  unfold State.modTh
  rw [State.cl_modCl]
  by_cases h : k = t / 128 <;> simp [h, Cluster.still]

@[simp] theorem State.still_countBundle (s : State) (t n k : Nat) : ((s.countBundle t n).cl k).still = (s.cl k).still := by
  unfold State.countBundle
  split <;> simp

theorem State.still_runReady (s : State) (t n k : Nat) : ((s.runReady t n).cl k).still = (s.cl k).still := by
  unfold State.runReady
  rw [State.still_modTh, State.cl_modCl]
  by_cases h : k = t / 128
  · subst h; simp [Cluster.still]
    have := s.still_countBundle t n (t / 128)
    simp [Cluster.still, State.modTh] at this ⊢
    exact this
  · simp [h]

/-- Everything but the clusters and the observation counters. -/
def State.outer (s : State) : State := { s with clusters := [], obs := {} }

@[simp] theorem State.outer_modCl (s : State) (c : Nat) (f : Cluster → Cluster) : (s.modCl c f).outer = s.outer := rfl
@[simp] theorem State.outer_modTh (s : State) (t : Nat) (f : Thread → Thread) : (s.modTh t f).outer = s.outer := rfl
@[simp] theorem State.outer_count (s : State) (u e n : Nat) : (s.count u e n).outer = s.outer := rfl
@[simp] theorem State.outer_watch (s : State) : s.watch.outer = s.outer := rfl
@[simp] theorem State.outer_countBundle (s : State) (t n : Nat) : (s.countBundle t n).outer = s.outer := by
  unfold State.countBundle; split <;> simp
@[simp] theorem State.outer_runReady (s : State) (t n : Nat) : (s.runReady t n).outer = s.outer := by
  simp [State.runReady]

theorem State.th_runReady_other (s : State) {t k : Nat} (n : Nat) (h : k ≠ t) : (s.runReady t n).th k = s.th k := by
  unfold State.runReady
  rw [State.th_modTh, if_neg h, State.th_modRr _ _ _ (fun r => Store.set 0 r _ _), State.th_modTh, if_neg h, s.th_countBundle_other _ _ _ h]

theorem State.th_runReady (s : State) (t n : Nat) (hb : (s.th t).busy = true) :
    (s.runReady t n).th t = { s.th t with branches := ((s.countBundle t n).th t).branches, bundle := [], wait := .none, waitSyls := [], bpPass := false } := by
  unfold State.runReady
  rw [State.th_modTh_same, State.th_modRr _ _ _ (fun r => Store.set 0 r _ _), State.th_modTh_same, s.th_countBundle]
  simp [hb]

/-- A bundle of one syllable that is no branch and no return from a trap: its effect, and then PC goes past it. -/
theorem State.runBundle_single (s : State) (t : Nat) (z : RawSyl) (hb : (z.cls == 3 && 1 ≤ z.o && z.o ≤ 6) = false) :
    s.runBundle t [z] = (execSyl t (s.th t).regs (addrAfter (s.th t).pc 1) (s.runReady t (slotsOf [z])) z).modTh t
      (fun x => { x with pc := addrAfter (s.th t).pc 1 }) := by
  have h6 : z.isB 0x06 = false := by
    simp only [RawSyl.isB]
    by_cases h : z.cls = 3 <;> simp_all
    omega
  have h15 : (z.cls == 3 && 1 ≤ z.o && z.o ≤ 5) = false := by
    by_cases h : z.cls = 3 <;> simp_all
    omega
  have key : ∀ (u : State) (n : BitVec 16) (b : Bool), b = false →
      (match ((u.modTh t (fun z => { z with pc := n })).th t).branches.reverse, b with
        | e :: rest, true => (u.modTh t (fun z => { z with pc := n })).modTh t
            (fun z => { z with branches := (({ e with regs := z.regs } : Branch) :: rest).reverse })
        | _, _ => u.modTh t (fun z => { z with pc := n })) = u.modTh t (fun z => { z with pc := n }) := by
    intro u n b h
    subst h
    split <;> first | contradiction | rfl
  unfold State.runBundle State.runReady
  simp only [List.length_singleton, List.foldl_cons, List.foldl_nil, List.getLast?_singleton, Option.any_some, h6]
  rw [if_neg Bool.false_ne_true]
  exact key _ _ _ h15

/-! ### What an equality of the rest gives, field by field -/

theorem Cluster.still_coreMem {a b : Cluster} (h : a.still = b.still) : a.coreMem = b.coreMem := by have := congrArg Cluster.coreMem h; exact this
theorem Cluster.still_clMem {a b : Cluster} (h : a.still = b.still) : a.clMem = b.clMem := by have := congrArg Cluster.clMem h; exact this
theorem Cluster.still_chan {a b : Cluster} (h : a.still = b.still) : a.chan = b.chan := by have := congrArg Cluster.chan h; exact this
theorem Cluster.still_credit {a b : Cluster} (h : a.still = b.still) : a.credit = b.credit := by have := congrArg Cluster.credit h; exact this
theorem Cluster.still_rblocked {a b : Cluster} (h : a.still = b.still) : a.rblocked = b.rblocked := by have := congrArg Cluster.rblocked h; exact this
theorem Cluster.still_hops {a b : Cluster} (h : a.still = b.still) : a.hops = b.hops := by have := congrArg Cluster.hops h; exact this
theorem Cluster.still_rrHelp {a b : Cluster} (h : a.still = b.still) : a.rrHelp = b.rrHelp := by have := congrArg Cluster.rrHelp h; exact this
theorem Cluster.still_brk {a b : Cluster} (h : a.still = b.still) : a.brk = b.brk := by have := congrArg Cluster.brk h; exact this
theorem Cluster.still_svc {a b : Cluster} (h : a.still = b.still) : a.svc = b.svc := by have := congrArg Cluster.svc h; exact this
theorem Cluster.still_mcycles {a b : Cluster} (h : a.still = b.still) : a.mcycles = b.mcycles := by have := congrArg Cluster.mcycles h; exact this
theorem Cluster.still_quietRep {a b : Cluster} (h : a.still = b.still) : a.quietRep = b.quietRep := by have := congrArg Cluster.quietRep h; exact this
theorem Cluster.still_lastNow {a b : Cluster} (h : a.still = b.still) : a.lastNow = b.lastNow := by have := congrArg Cluster.lastNow h; exact this
theorem Cluster.still_bad {a b : Cluster} (h : a.still = b.still) : a.bad = b.bad := by have := congrArg Cluster.bad h; exact this
theorem State.outer_pending {a b : State} (h : a.outer = b.outer) : a.pending = b.pending := by have := congrArg State.pending h; exact this
theorem State.outer_time {a b : State} (h : a.outer = b.outer) : a.time = b.time := by have := congrArg State.time h; exact this
theorem State.outer_net {a b : State} (h : a.outer = b.outer) : a.net = b.net := by have := congrArg State.net h; exact this
theorem State.outer_nextId {a b : State} (h : a.outer = b.outer) : a.nextId = b.nextId := by have := congrArg State.nextId h; exact this
theorem State.outer_fresh {a b : State} (h : a.outer = b.outer) : a.fresh = b.fresh := by have := congrArg State.fresh h; exact this
theorem State.outer_live {a b : State} (h : a.outer = b.outer) : a.live = b.live := by have := congrArg State.live h; exact this
theorem State.outer_faults {a b : State} (h : a.outer = b.outer) : a.faults = b.faults := by have := congrArg State.faults h; exact this
theorem State.outer_ycp {a b : State} (h : a.outer = b.outer) : a.ycp = b.ycp := by have := congrArg State.ycp h; exact this
theorem State.outer_bar0 {a b : State} (h : a.outer = b.outer) : a.bar0 = b.bar0 := by have := congrArg State.bar0 h; exact this
theorem State.outer_ports {a b : State} (h : a.outer = b.outer) : a.ports = b.ports := by have := congrArg State.ports h; exact this
theorem State.outer_slices {a b : State} (h : a.outer = b.outer) : a.slices = b.slices := by have := congrArg State.slices h; exact this
theorem State.outer_seq {a b : State} (h : a.outer = b.outer) : a.seq = b.seq := by have := congrArg State.seq h; exact this
theorem State.outer_tables {a b : State} (h : a.outer = b.outer) : a.tables = b.tables := by have := congrArg State.tables h; exact this
theorem State.outer_tasks {a b : State} (h : a.outer = b.outer) : a.tasks = b.tasks := by have := congrArg State.tasks h; exact this
theorem State.outer_pools {a b : State} (h : a.outer = b.outer) : a.pools = b.pools := by have := congrArg State.pools h; exact this
theorem State.outer_qm {a b : State} (h : a.outer = b.outer) : a.qm = b.qm := by have := congrArg State.qm h; exact this
theorem State.outer_dram {a b : State} (h : a.outer = b.outer) : a.dram = b.dram := by have := congrArg State.dram h; exact this
theorem State.outer_accord {a b : State} (h : a.outer = b.outer) : a.accord = b.accord := by have := congrArg State.accord h; exact this
theorem State.outer_scrub {a b : State} (h : a.outer = b.outer) : a.scrub = b.scrub := by have := congrArg State.scrub h; exact this
theorem State.outer_sec {a b : State} (h : a.outer = b.outer) : a.sec = b.sec := by have := congrArg State.sec h; exact this
theorem State.outer_power {a b : State} (h : a.outer = b.outer) : a.power = b.power := by have := congrArg State.power h; exact this
theorem State.outer_pins {a b : State} (h : a.outer = b.outer) : a.pins = b.pins := by have := congrArg State.pins h; exact this
theorem State.outer_startup {a b : State} (h : a.outer = b.outer) : a.startup = b.startup := by have := congrArg State.startup h; exact this
theorem State.outer_out {a b : State} (h : a.outer = b.outer) : a.out = b.out := by have := congrArg State.out h; exact this

/-- Two states with the same rest differ at most in the clusters and the counters. -/
theorem State.eq_of_outer {s u : State} (h : u.outer = s.outer) : u = { s with clusters := u.clusters, obs := u.obs } := by
  cases s; cases u
  simp only [State.outer, State.mk.injEq] at h ⊢
  simp_all

end Sys2Proof.Machine
end

