-- ==== Sys2Proof/WellFormed.lean ====
section
/-! DEFINITION. Operands that name something the device has. What a packet's own fields say is not checked here: the Steward answers
a wrong one (spec/17_command_protocol.md R391). -/

namespace Sys2Proof

/-- Clusters, cores and threads (R106, R107). -/
def ThreadId.ok (t : ThreadId) : Bool := t.cluster < 26 && t.core < 8 && t.thread < 16

def Syl.ok (y : Syl) : Bool := y.cluster < 26 && y.core < 8 && y.thread < 16

/-- A signature is there exactly where SIGNED says so, and no packet is longer than PLEN can say (R389). -/
def Packet.ok (p : Packet) : Bool :=
  p.sig.length == (if p.flags.getLsbD 5 then 64 else 0) && p.params.length < 65536

def rowsOk (l : List Nat) (rows : Nat) : Bool := l.all (fun r => decide (r < rows))

/-- A sensor reading is a signed byte (R472). -/
def tempOk (t : Int) : Bool := -128 ≤ t && t ≤ 127

/-- A training step has a number from 0 to 6 (R323, R337). -/
def stepOk (f : Option Nat) : Bool := match f with | some n => decide (n ≤ 6) | none => true

/-- Ports and nodes of a level of the scheduling tree (R306). -/
def treeWidth (level : Nat) : Nat := match level with | 0 => 44 | 1 => 2048 | 2 => 16384 | _ => 65536

/-- Every operand of the command names something that exists. -/
def Instr.wellFormed (i : Instr) : Bool :=
  match i with
  | .pwrGoodRise => true
  | .pwrGoodFall => true
  | .resetNRise => true
  | .resetNFall => true
  | .pciePerstNAssert => true
  | .pciePerstNDeassert => true
  | .pcieError => true
  | .ppsInEdge => true
  | .thermTrip island => island < 53
  | .dramCaParity channel => channel < 8
  | .frameReceive port _ _ => port < 40
  | .fifoToInputBuffer port => port < 40
  | .pauseQuantaExpire port cls => port < 40 && cls < 9
  | .pauseRepeat port cls => port < 40 && cls < 8
  | .frameTransmit port => port < 40
  | .lockLost lane => lane < 40
  | .linkDown port => port < 40
  | .linkUp port => port < 40
  | .surgeHoldExpire lane => lane < 40
  | .remoteFault port => port < 40
  | .fecDegrade port _ => port < 40
  | .ppsOutEdge => true
  | .todTxMessage => true
  | .laneRecalDone lane _ => lane < 40
  | .sliceParseStart slice => slice < 4
  | .cellRequest slice => slice < 4
  | .cellWaitExpire slice => slice < 4
  | .markerAtSlice slice => slice < 4
  | .sliceCopyRelease slice => slice < 4
  | .descriptorAccept slice => slice < 4
  | .taskAccept => true
  | .atomizerDispatch lane => lane < 4
  | .dispatchAgePromote record => record < 8192
  | .threadDispatch cluster => cluster < 26
  | .headerBytesArrive thread => thread.ok
  | .crossingRefused src dst => src < 53 && dst < 53
  | .ordRequest cluster => cluster < 26
  | .ordGrant cluster => cluster < 26
  | .relToken cluster => cluster < 26
  | .effectToken cluster => cluster < 26
  | .effectAck cluster => cluster < 26
  | .commitAccept cluster => cluster < 26
  | .outcomeHandover record => record < 8192
  | .threadFreeToken cluster => cluster < 26
  | .faultToken cluster => cluster < 26
  | .resetNotice cluster => cluster < 26
  | .poisonToken cluster => cluster < 26
  | .holdExpired record => record < 8192
  | .drainBoundExpire => true
  | .loadLand thread _ => thread.ok
  | .storeCompletion thread => thread.ok
  | .helperResult thread _ => thread.ok
  | .branchResolve thread => thread.ok
  | .wfeWake thread => thread.ok
  | .threadTimerExpire thread => thread.ok
  | .chcUnblock cluster _ position channel => cluster < 26 && position < 24 && channel < 32
  | .remoteMessageArrive src dst => src < 26 && dst < 26
  | .creditReturn src dst => src < 26 && dst < 26
  | .quiescent cluster => cluster < 26
  | .nmiEntry thread => thread.ok
  | .trapEntry thread => thread.ok
  | .lockGrantArrive group cluster => group < 4 && cluster < 26
  | .threadHalt thread => thread.ok
  | .threadAbort thread => thread.ok
  | .mov y => y.ok
  | .add y => y.ok
  | .adc y => y.ok
  | .sub y => y.ok
  | .sbc y => y.ok
  | .rsb y => y.ok
  | .neg y => y.ok
  | .cmp y => y.ok
  | .and y => y.ok
  | .or y => y.ok
  | .xor y => y.ok
  | .andn y => y.ok
  | .tst y => y.ok
  | .shl y => y.ok
  | .shr y => y.ok
  | .sar y => y.ok
  | .rol y => y.ok
  | .ror y => y.ok
  | .mul y => y.ok
  | .mulh y => y.ok
  | .mulhu y => y.ok
  | .min y => y.ok
  | .max y => y.ok
  | .minu y => y.ok
  | .maxu y => y.ok
  | .sext y => y.ok
  | .zext y => y.ok
  | .bswap y => y.ok
  | .popc y => y.ok
  | .clz y => y.ok
  | .ctz y => y.ok
  | .xmova y => y.ok
  | .xmovb y => y.ok
  | .xadda y => y.ok
  | .xaddb y => y.ok
  | .customA y _ => y.ok
  | .customM y _ => y.ok
  | .ld y => y.ok
  | .lds y => y.ok
  | .st y => y.ok
  | .fld y => y.ok
  | .flds y => y.ok
  | .fst y => y.ok
  | .cnt y => y.ok
  | .ldp y => y.ok
  | .lkp y => y.ok
  | .lkpw y => y.ok
  | .ins y => y.ok
  | .del y => y.ok
  | .crc32 y => y.ok
  | .crc32c y => y.ok
  | .tplz y => y.ok
  | .siph y => y.ok
  | .sum y => y.ok
  | .inc16 y => y.ok
  | .inc32 y => y.ok
  | .ext y => y.ok
  | .bfxIns y => y.ok
  | .extw y => y.ok
  | .divs y => y.ok
  | .divu y => y.ok
  | .rems y => y.ok
  | .remu y => y.ok
  | .now y => y.ok
  | .nowf y => y.ok
  | .tadd y => y.ok
  | .tdiff y => y.ok
  | .tpast y => y.ok
  | .tsec y => y.ok
  | .tnsec y => y.ok
  | .rdc y => y.ok
  | .wrc y => y.ok
  | .head y => y.ok
  | .trim y => y.ok
  | .pfree y => y.ok
  | .balloc y => y.ok
  | .bfree y => y.ok
  | .brd y => y.ok
  | .bwr y => y.ok
  | .kexp y => y.ok
  | .gctr y => y.ok
  | .ghm y => y.ok
  | .shb y => y.ok
  | .br y => y.ok
  | .bri y => y.ok
  | .call y => y.ok
  | .ret y => y.ok
  | .bhb y => y.ok
  | .rtt y => y.ok
  | .nop y => y.ok
  | .wfe y => y.ok
  | .sev y => y.ok
  | .chs y => y.ok
  | .chc y => y.ok
  | .chr y => y.ok
  | .ord y => y.ok
  | .rel y => y.ok
  | .commit y => y.ok
  | .lka y => y.ok
  | .lkt y => y.ok
  | .lkr y => y.ok
  | .cas32 y => y.ok
  | .cas64 y => y.ok
  | .fadd y => y.ok
  | .swap y => y.ok
  | .fand y => y.ok
  | .forr y => y.ok
  | .binc y => y.ok
  | .lockRequest cluster bank => cluster < 26 && bank < 32
  | .atomicAtSlice cluster island => cluster < 26 && ((37 ≤ island && island < 41) || (43 ≤ island && island < 51))
  | .apertureAccess cluster bank => cluster < 26 && bank < 32
  | .farAccess cluster channel => cluster < 26 && channel < 8
  | .masterReset src bank => src < 26 && bank < 32
  | .lockLeaseExpire lock => lock < 65536
  | .lookup thread => thread.ok
  | .tableWrite thread => thread.ok
  | .relocation table => table < 256
  | .versionedCopy table => table < 256
  | .bankScrub bank corrected damaged => bank < 36 && rowsOk corrected 24576 && rowsOk damaged 24576
  | .macerationDone table => table < 256
  | .resizeDone table => table < 256
  | .bankReplaceDone bank _ => bank < 32
  | .sweepDone => true
  | .tick => true
  | .taskOffer => true
  | .taskRestamp => true
  | .markerAtTaskScheduler => true
  | .taskRunEnd => true
  | .cacheRefill pool cache => pool < 16 && cache < 5
  | .poolEnableDone pool => pool < 16
  | .leakSweep => true
  | .packetBufferOp thread => thread.ok
  | .qmHandover => true
  | .h2dRingFrame ring _ _ _ => ring < 64
  | .schedChoice port => port < 44
  | .bucketCredit level node => level < 4 && node < treeWidth level
  | .spillRefill queue => queue < 262144
  | .d2hDeliver ring _ _ => ring < 64
  | .recircSend => true
  | .markerAtQm => true
  | .dramCommandSlot channel => channel < 8
  | .refreshDue channel rank => channel < 8 && rank < 2
  | .dramTempRead channel temp => channel < 8 && tempOk temp
  | .dramTempLost channel => channel < 8
  | .patrolScrub channel before after => channel < 8 && (before ++ after).all (fun u => u.dq < 80 && u.beat < 8)
  | .driftTrack channel found => channel < 8 && found.moves.all (fun m => m.rank < 2 && m.device < 20)
  | .zqShort channel _ => channel < 8
  | .initSweepDone channel => channel < 8
  | .decantCopyOutDone => true
  | .decantDone => true
  | .accordPrepareDone _ => true
  | .commitPoint => true
  | .markerReturn island => ((27 ≤ island && island < 31) || island == 42)
  | .accordRetire => true
  | .clusterBankFree cluster => cluster < 26
  | .configDigestDone => true
  | .accordDiscardDone => true
  | .sramScrub _ _ _ => true
  | .clusterDrained cluster => cluster < 26
  | .clusterDrainTimeout cluster => cluster < 26
  | .clusterResetDone cluster => cluster < 26
  | .spareCheckDone cluster _ => cluster < 26
  | .stewardResume => true
  | .faultMessageAccept => true
  | .blockResetRelease island => island < 53
  | .chipReset => true
  | .outboxOverrun island => island < 53
  | .flitResend src dst => src < 53 && dst < 53
  | .errNPulseEnd => true
  | .sillageCopy => true
  | .serialReservationWrite issuer => issuer < 16
  | .cmdTail _ => true
  | .rplTail _ => true
  | .d2hTail ring _ => ring < 64
  | .h2dTail ring _ => ring < 64
  | .cmdRingCtrl _ => true
  | .rplRingCtrl _ => true
  | .faultCause _ => true
  | .eventCause _ => true
  | .ringCauseD2h _ => true
  | .ringCauseH2d _ => true
  | .bar0Write offset size _ => offset < 0x4000 && offset % size == 0 && (size == 4 || size == 8)
  | .bar2Write window offset bytes _ => window < 16 && offset < 2 ^ 22 && !bytes.isEmpty
  | .bar2Read window offset length => window < 16 && offset < 2 ^ 22 && 0 < length
  | .windowIdleExpire window => window < 16
  | .i2cReplyRead => true
  | .sysIdentity pkt => pkt.ok
  | .sysSession pkt => pkt.ok
  | .sysTimeRead pkt => pkt.ok
  | .sysTimeSet pkt => pkt.ok
  | .sysTimeStep pkt => pkt.ok
  | .sysTimeTrim pkt => pkt.ok
  | .sysReset pkt => pkt.ok
  | .sysResetExpire => true
  | .objRead pkt => pkt.ok
  | .objWrite pkt => pkt.ok
  | .objStage pkt => pkt.ok
  | .accordCommit pkt => pkt.ok
  | .accordDiscard pkt => pkt.ok
  | .taskCreate pkt => pkt.ok
  | .taskArm pkt => pkt.ok
  | .taskCancel pkt => pkt.ok
  | .taskAbort pkt => pkt.ok
  | .taskFree pkt => pkt.ok
  | .bufAlloc pkt => pkt.ok
  | .bufFree pkt => pkt.ok
  | .pktFree pkt => pkt.ok
  | .lockTry pkt => pkt.ok
  | .lockRelease pkt => pkt.ok
  | .lockClear pkt => pkt.ok
  | .saStateRead pkt => pkt.ok
  | .saStateSet pkt => pkt.ok
  | .portOpen pkt => pkt.ok
  | .data pkt => pkt.ok
  | .portClose pkt => pkt.ok
  | .portAbort pkt => pkt.ok
  | .tblInsert pkt => pkt.ok
  | .tblDelete pkt => pkt.ok
  | .tblLookup pkt => pkt.ok
  | .tblMacerate pkt => pkt.ok
  | .tblResize pkt => pkt.ok
  | .faultAck pkt => pkt.ok
  | .slotResolveDrop pkt => pkt.ok
  | .slotResolveReplay pkt => pkt.ok
  | .obsRead pkt => pkt.ok
  | .obsSelect pkt => pkt.ok
  | .obsWindowRead pkt => pkt.ok
  | .obsThreshold pkt => pkt.ok
  | .obsTraceStart pkt => pkt.ok
  | .obsTraceStop pkt => pkt.ok
  | .clusterDrain pkt => pkt.ok
  | .clusterResume pkt => pkt.ok
  | .clusterReset pkt => pkt.ok
  | .spareCheck pkt => pkt.ok
  | .clusterAdoptSpare pkt => pkt.ok
  | .decant pkt => pkt.ok
  | .decantReturn pkt => pkt.ok
  | .decantAbort pkt => pkt.ok
  | .laneRecalBackground pkt => pkt.ok
  | .laneRecalFull pkt => pkt.ok
  | .bankReplace pkt => pkt.ok
  | .queueFlush pkt => pkt.ok
  | .extraitEnter pkt => pkt.ok
  | .extraitExit pkt => pkt.ok
  | .extraitWindowExpire => true
  | .extraitExitDone => true
  | .imageStage pkt => pkt.ok
  | .imageStageDone slot => slot < 2
  | .imageActivate pkt => pkt.ok
  | .imageLoadDone _ => true
  | .bootFallback => true
  | .attest pkt => pkt.ok
  | .issuerSet pkt => pkt.ok
  | .ownerKeySet pkt => pkt.ok
  | .secConfig pkt => pkt.ok
  | .dbgHalt pkt => pkt.ok
  | .dbgResume pkt => pkt.ok
  | .dbgStep pkt => pkt.ok
  | .dbgState pkt => pkt.ok
  | .dbgChAbort pkt => pkt.ok
  | .dbgAbort pkt => pkt.ok
  | .dbgBreak pkt => pkt.ok
  | .faultInject pkt => pkt.ok
  | .bwWindowEnd => true
  | .debugOp _ _ => true
  | .extest _ => true
  | .clamp _ => true
  | .highz => true
  | .samplePreload _ => true
  | .bypass => true
  | .islandTempSample island temp => island < 53 && tempOk temp
  | .sensorSelfCheck island _ => island < 53
  | .clockUnlock island => island < 53
  | .clockRelock island => island < 53
  | .islandRelockDone island => island < 53
  | .governorGrant => true
  | .wearAccrue => true
  | .ledgerWrite => true
  | .lockRegained lane => lane < 40
  | .remoteFaultCleared port => port < 40
  | .ppsOutPulseEnd => true
  | .channelRetrainDone channel failedStep => channel < 8 && stepOk failedStep
  | .malformedPacket _ _ => true
  | .extraitEntryDone => true
  | .startupStepDone step _ => 2 ≤ step && step ≤ 10
  | .supplyRise _ => true
  | .supplyFall _ => true

end Sys2Proof
end

