-- ==== Sys2Proof/Safety.lean ====
section
/-! DEFINITION. What counts as a safe run: every waiting command is well-formed, the state's byte memories and stores keep
their canonical forms, and no step stops. -/

namespace Sys2Proof.Safety

open Sys2Proof.Machine

/-- A step that goes on. -/
def goesOn (o : Host.Outcome State Fault Refusal) : Prop := ∃ t, o = .next t

/-- The device's byte memories hold one entry per byte, in rising order, and none that reads as zero. -/
def memoriesOk (s : State) : Prop :=
  Memory.wf s.dram.data = true ∧ Memory.wf s.tables.rows = true ∧ Memory.wf s.pools.cells = true ∧ Memory.wf s.sec.flash = true

/-- Every waiting command names things the device has. -/
def queueOk (s : State) : Prop := ∀ c ∈ s.pending, c.wellFormed = true

/-- A safe state. -/
def Safe (s : State) : Prop := queueOk s ∧ memoriesOk s

end Sys2Proof.Safety
end

