-- ==== Sys2Proof/Tests/Slice0.lean ====
section
/-! SUPPORT. Small checks: ill-formed terms that `wellFormed` refuses, no word spells a command, a state and operands that meet the
hypotheses of each statement, and values worked by hand from the spec. -/

namespace Sys2Proof.Tests

open Sys2Proof.Machine Sys2Proof.Claims

set_option exponentiation.threshold 400
set_option Elab.async false

/-- The device with every island out of reset. -/
def upAll : State :=
  { State.reset with power := { State.reset.power with island := (List.range 53).map (fun i => (i, { islandReset i with st := .run })) } }

/-- One thread of cluster 0. -/
def oneThread (x : Thread) : State := { upAll with clusters := [(0, { thread := [(0, x)] })] }

/-- Thread 0 at work. -/
def busy : Thread := { busy := true }

/-- A syllable of thread 0, alone in its bundle. -/
def syl (f : BitVec 22) : Syl := ⟨0, 0, 0, true, f⟩

/-- Thread 0. -/
def t0 : ThreadId := ⟨0, 0, 0⟩

/-- The descriptor of a DIRECT table of 64 rows in bank 0 that programs may write. -/
def directTable : ObjWord := BitVec.ofNat 384 (2 ^ 124 + 2 ^ 121 + 64 * 2 ^ 75)

/-- Thread 0 with XA at an address; one segment of DRAM; table 1 is DIRECT in Accord 0. -/
def pointing (x : Thread) (a : Nat) : State :=
  { oneThread { x with regs := { x.regs with xa := BitVec.ofNat 32 a }, effected := true } with
    dram := { n := 1, segs := 16, chan := [(0, { st := .service, gib := 1 })] }
    accord := { copy := [(0, { objs := [(objKey 0x50 1, directTable)] })] } }

/-- A branch not resolved yet. -/
def unresolved : Branch := { taken := false, target := 0, regs := {} }

/-- One message on its way. -/
def underWay (s : State) (a b : Nat) (m : Msg) : State := { s with net := [⟨a, b, m⟩] }

/-- Cluster 0 with thread 0 and its channels and credits. -/
def channels (x : Thread) (ch : Store Channel) (cr : Store Nat) : State :=
  { upAll with clusters := [(0, { thread := [(0, x)], chan := ch, credit := cr })] }

/-! ### Ill-formed commands -/

/-- A packet with these parameters and this signature. -/
def packetOf (l sig : List Byte) : Packet :=
  { via := .i2c, flags := 0, tag := 7, issuer := 15, rsvd := 0, serial := 1, params := l, sig := sig }

theorem test_packet_too_long : (packetOf (List.replicate 65536 0) []).ok = false ∧ (packetOf (List.replicate 65535 0) []).ok = true := by
  decide +kernel

theorem test_ill_formed_events_0 :
    ∀ i ∈ ([
      .thermTrip 53, .dramCaParity 8, .frameReceive 40 [] false, .fifoToInputBuffer 40, .pauseQuantaExpire 40 0, .pauseQuantaExpire 0 9,
      .pauseRepeat 40 0, .pauseRepeat 0 8, .frameTransmit 40, .lockLost 40, .linkDown 40, .linkUp 40, .surgeHoldExpire 40, .remoteFault 40,
      .fecDegrade 40 0, .laneRecalDone 40 false, .sliceParseStart 4, .cellRequest 4, .cellWaitExpire 4, .markerAtSlice 4, .sliceCopyRelease 4,
      .descriptorAccept 4, .atomizerDispatch 4, .dispatchAgePromote 8192, .threadDispatch 26, .headerBytesArrive ⟨26, 0, 0⟩,
      .headerBytesArrive ⟨0, 8, 0⟩, .headerBytesArrive ⟨0, 0, 16⟩, .crossingRefused 53 0, .crossingRefused 0 53, .ordRequest 26, .ordGrant 26,
      .relToken 26, .effectToken 26, .effectAck 26, .commitAccept 26, .outcomeHandover 8192, .threadFreeToken 26, .faultToken 26, .resetNotice 26,
      .poisonToken 26, .holdExpired 8192, .loadLand ⟨26, 0, 0⟩ 0, .storeCompletion ⟨26, 0, 0⟩, .helperResult ⟨26, 0, 0⟩ false,
      .branchResolve ⟨26, 0, 0⟩, .wfeWake ⟨26, 0, 0⟩, .threadTimerExpire ⟨26, 0, 0⟩, .chcUnblock 26 false 0 0, .chcUnblock 0 false 24 0,
      .chcUnblock 0 false 0 32, .remoteMessageArrive 26 0, .remoteMessageArrive 0 26, .creditReturn 26 0, .creditReturn 0 26, .quiescent 26,
      .nmiEntry ⟨26, 0, 0⟩, .trapEntry ⟨26, 0, 0⟩, .lockGrantArrive 4 0, .lockGrantArrive 0 26] : List Instr), i.wellFormed = false := by
  decide +kernel

theorem test_ill_formed_events_1 :
    ∀ i ∈ ([
      .threadHalt ⟨26, 0, 0⟩, .threadAbort ⟨26, 0, 0⟩, .lockRequest 26 0, .lockRequest 0 32, .atomicAtSlice 26 37, .atomicAtSlice 0 36,
      .atomicAtSlice 0 41, .atomicAtSlice 0 42, .atomicAtSlice 0 51, .apertureAccess 26 0, .apertureAccess 0 32, .farAccess 26 0, .farAccess 0 8,
      .masterReset 26 0, .masterReset 0 32, .lockLeaseExpire 65536, .lookup ⟨26, 0, 0⟩, .tableWrite ⟨26, 0, 0⟩, .relocation 256, .versionedCopy 256,
      .bankScrub 36 [] [], .bankScrub 0 [24576] [], .bankScrub 0 [] [24576], .macerationDone 256, .resizeDone 256, .bankReplaceDone 32 false,
      .cacheRefill 16 0, .cacheRefill 0 5, .poolEnableDone 16, .packetBufferOp ⟨26, 0, 0⟩, .h2dRingFrame 64 ⟨0, 0, 0, 0⟩ [] false, .schedChoice 44,
      .bucketCredit 4 0, .bucketCredit 0 44, .bucketCredit 1 2048, .bucketCredit 2 16384, .bucketCredit 3 65536, .spillRefill 262144,
      .d2hDeliver 64 [] false, .dramCommandSlot 8, .refreshDue 8 0, .refreshDue 0 2, .dramTempRead 8 0, .dramTempRead 0 (-129), .dramTempRead 0 128,
      .dramTempLost 8, .patrolScrub 8 [] [], .driftTrack 8 {}, .zqShort 8 false, .initSweepDone 8, .markerReturn 26, .markerReturn 31,
      .markerReturn 41, .markerReturn 43, .clusterBankFree 26, .clusterDrained 26, .clusterDrainTimeout 26, .clusterResetDone 26,
      .spareCheckDone 26 false, .blockResetRelease 53] : List Instr), i.wellFormed = false := by
  decide +kernel

theorem test_ill_formed_events_2 :
    ∀ i ∈ ([
      .outboxOverrun 53, .flitResend 53 0, .flitResend 0 53, .serialReservationWrite 16, .d2hTail 64 0, .h2dTail 64 0, .bar0Write 0x4000 4 0,
      .bar0Write 2 4 0, .bar0Write 0 2 0, .bar2Write 16 0 [0] false, .bar2Write 0 4194304 [0] false, .bar2Write 0 0 [] false, .bar2Read 16 0 1,
      .bar2Read 0 4194304 1, .bar2Read 0 0 0, .windowIdleExpire 16, .imageStageDone 2, .islandTempSample 53 0, .islandTempSample 0 (-129),
      .islandTempSample 0 128, .sensorSelfCheck 53 false, .clockUnlock 53, .clockRelock 53, .islandRelockDone 53, .lockRegained 40,
      .remoteFaultCleared 40, .channelRetrainDone 8 none, .channelRetrainDone 0 (some 7), .startupStepDone 1 {}, .startupStepDone 11 {}] : List Instr), i.wellFormed = false := by
  decide +kernel

theorem test_ill_formed_instructions_0 :
    ∀ i ∈ ([
      .mov ⟨26, 0, 0, true, 0⟩, .mov ⟨0, 8, 0, true, 0⟩, .mov ⟨0, 0, 16, true, 0⟩, .add ⟨26, 0, 0, true, 0⟩, .adc ⟨26, 0, 0, true, 0⟩,
      .sub ⟨26, 0, 0, true, 0⟩, .sbc ⟨26, 0, 0, true, 0⟩, .rsb ⟨26, 0, 0, true, 0⟩, .neg ⟨26, 0, 0, true, 0⟩, .cmp ⟨26, 0, 0, true, 0⟩,
      .and ⟨26, 0, 0, true, 0⟩, .or ⟨26, 0, 0, true, 0⟩, .xor ⟨26, 0, 0, true, 0⟩, .andn ⟨26, 0, 0, true, 0⟩, .tst ⟨26, 0, 0, true, 0⟩,
      .shl ⟨26, 0, 0, true, 0⟩, .shr ⟨26, 0, 0, true, 0⟩, .sar ⟨26, 0, 0, true, 0⟩, .rol ⟨26, 0, 0, true, 0⟩, .ror ⟨26, 0, 0, true, 0⟩,
      .mul ⟨26, 0, 0, true, 0⟩, .mulh ⟨26, 0, 0, true, 0⟩, .mulhu ⟨26, 0, 0, true, 0⟩, .min ⟨26, 0, 0, true, 0⟩, .max ⟨26, 0, 0, true, 0⟩,
      .minu ⟨26, 0, 0, true, 0⟩, .maxu ⟨26, 0, 0, true, 0⟩, .sext ⟨26, 0, 0, true, 0⟩, .zext ⟨26, 0, 0, true, 0⟩, .bswap ⟨26, 0, 0, true, 0⟩,
      .popc ⟨26, 0, 0, true, 0⟩, .clz ⟨26, 0, 0, true, 0⟩, .ctz ⟨26, 0, 0, true, 0⟩, .xmova ⟨26, 0, 0, true, 0⟩, .xmovb ⟨26, 0, 0, true, 0⟩,
      .xadda ⟨26, 0, 0, true, 0⟩, .xaddb ⟨26, 0, 0, true, 0⟩, .customA ⟨26, 0, 0, true, 0⟩ 0, .customM ⟨26, 0, 0, true, 0⟩ 0, .ld ⟨26, 0, 0, true, 0⟩,
      .lds ⟨26, 0, 0, true, 0⟩, .st ⟨26, 0, 0, true, 0⟩, .fld ⟨26, 0, 0, true, 0⟩, .flds ⟨26, 0, 0, true, 0⟩, .fst ⟨26, 0, 0, true, 0⟩,
      .cnt ⟨26, 0, 0, true, 0⟩, .ldp ⟨26, 0, 0, true, 0⟩, .lkp ⟨26, 0, 0, true, 0⟩, .lkpw ⟨26, 0, 0, true, 0⟩, .ins ⟨26, 0, 0, true, 0⟩,
      .del ⟨26, 0, 0, true, 0⟩, .crc32 ⟨26, 0, 0, true, 0⟩, .crc32c ⟨26, 0, 0, true, 0⟩, .tplz ⟨26, 0, 0, true, 0⟩, .siph ⟨26, 0, 0, true, 0⟩,
      .sum ⟨26, 0, 0, true, 0⟩, .inc16 ⟨26, 0, 0, true, 0⟩, .inc32 ⟨26, 0, 0, true, 0⟩, .ext ⟨26, 0, 0, true, 0⟩, .bfxIns ⟨26, 0, 0, true, 0⟩] : List Instr), i.wellFormed = false := by
  decide +kernel

theorem test_ill_formed_instructions_1 :
    ∀ i ∈ ([
      .extw ⟨26, 0, 0, true, 0⟩, .divs ⟨26, 0, 0, true, 0⟩, .divu ⟨26, 0, 0, true, 0⟩, .rems ⟨26, 0, 0, true, 0⟩, .remu ⟨26, 0, 0, true, 0⟩,
      .now ⟨26, 0, 0, true, 0⟩, .nowf ⟨26, 0, 0, true, 0⟩, .tadd ⟨26, 0, 0, true, 0⟩, .tdiff ⟨26, 0, 0, true, 0⟩, .tpast ⟨26, 0, 0, true, 0⟩,
      .tsec ⟨26, 0, 0, true, 0⟩, .tnsec ⟨26, 0, 0, true, 0⟩, .rdc ⟨26, 0, 0, true, 0⟩, .wrc ⟨26, 0, 0, true, 0⟩, .head ⟨26, 0, 0, true, 0⟩,
      .trim ⟨26, 0, 0, true, 0⟩, .pfree ⟨26, 0, 0, true, 0⟩, .balloc ⟨26, 0, 0, true, 0⟩, .bfree ⟨26, 0, 0, true, 0⟩, .brd ⟨26, 0, 0, true, 0⟩,
      .bwr ⟨26, 0, 0, true, 0⟩, .kexp ⟨26, 0, 0, true, 0⟩, .gctr ⟨26, 0, 0, true, 0⟩, .ghm ⟨26, 0, 0, true, 0⟩, .shb ⟨26, 0, 0, true, 0⟩,
      .br ⟨26, 0, 0, true, 0⟩, .bri ⟨26, 0, 0, true, 0⟩, .call ⟨26, 0, 0, true, 0⟩, .ret ⟨26, 0, 0, true, 0⟩, .bhb ⟨26, 0, 0, true, 0⟩,
      .rtt ⟨26, 0, 0, true, 0⟩, .nop ⟨26, 0, 0, true, 0⟩, .wfe ⟨26, 0, 0, true, 0⟩, .sev ⟨26, 0, 0, true, 0⟩, .chs ⟨26, 0, 0, true, 0⟩,
      .chc ⟨26, 0, 0, true, 0⟩, .chr ⟨26, 0, 0, true, 0⟩, .ord ⟨26, 0, 0, true, 0⟩, .rel ⟨26, 0, 0, true, 0⟩, .commit ⟨26, 0, 0, true, 0⟩,
      .lka ⟨26, 0, 0, true, 0⟩, .lkt ⟨26, 0, 0, true, 0⟩, .lkr ⟨26, 0, 0, true, 0⟩, .cas32 ⟨26, 0, 0, true, 0⟩, .cas64 ⟨26, 0, 0, true, 0⟩,
      .fadd ⟨26, 0, 0, true, 0⟩, .swap ⟨26, 0, 0, true, 0⟩, .fand ⟨26, 0, 0, true, 0⟩, .forr ⟨26, 0, 0, true, 0⟩, .binc ⟨26, 0, 0, true, 0⟩] : List Instr), i.wellFormed = false := by
  decide +kernel

theorem test_ill_formed_packets_0 :
    ∀ i ∈ ([
      .sysIdentity (packetOf [] [0]), .sysIdentity { packetOf [] [] with flags := 0x20 }, .sysSession (packetOf [] [0]),
      .sysTimeRead (packetOf [] [0]), .sysTimeSet (packetOf [] [0]), .sysTimeStep (packetOf [] [0]), .sysTimeTrim (packetOf [] [0]),
      .sysReset (packetOf [] [0]), .objRead (packetOf [] [0]), .objWrite (packetOf [] [0]), .objStage (packetOf [] [0]),
      .accordCommit (packetOf [] [0]), .accordDiscard (packetOf [] [0]), .taskCreate (packetOf [] [0]), .taskArm (packetOf [] [0]),
      .taskCancel (packetOf [] [0]), .taskAbort (packetOf [] [0]), .taskFree (packetOf [] [0]), .bufAlloc (packetOf [] [0]),
      .bufFree (packetOf [] [0]), .pktFree (packetOf [] [0]), .lockTry (packetOf [] [0]), .lockRelease (packetOf [] [0]),
      .lockClear (packetOf [] [0]), .saStateRead (packetOf [] [0]), .saStateSet (packetOf [] [0]), .portOpen (packetOf [] [0]),
      .data (packetOf [] [0]), .portClose (packetOf [] [0]), .portAbort (packetOf [] [0]), .tblInsert (packetOf [] [0]), .tblDelete (packetOf [] [0]),
      .tblLookup (packetOf [] [0]), .tblMacerate (packetOf [] [0]), .tblResize (packetOf [] [0]), .faultAck (packetOf [] [0]),
      .slotResolveDrop (packetOf [] [0]), .slotResolveReplay (packetOf [] [0]), .obsRead (packetOf [] [0]), .obsSelect (packetOf [] [0]),
      .obsWindowRead (packetOf [] [0]), .obsThreshold (packetOf [] [0]), .obsTraceStart (packetOf [] [0]), .obsTraceStop (packetOf [] [0]),
      .clusterDrain (packetOf [] [0]), .clusterResume (packetOf [] [0]), .clusterReset (packetOf [] [0]), .spareCheck (packetOf [] [0]),
      .clusterAdoptSpare (packetOf [] [0]), .decant (packetOf [] [0]), .decantReturn (packetOf [] [0]), .decantAbort (packetOf [] [0]),
      .laneRecalBackground (packetOf [] [0]), .laneRecalFull (packetOf [] [0]), .bankReplace (packetOf [] [0]), .queueFlush (packetOf [] [0]),
      .extraitEnter (packetOf [] [0]), .extraitExit (packetOf [] [0]), .imageStage (packetOf [] [0]), .imageActivate (packetOf [] [0])] : List Instr), i.wellFormed = false := by
  decide +kernel

theorem test_ill_formed_packets_1 :
    ∀ i ∈ ([
      .attest (packetOf [] [0]), .issuerSet (packetOf [] [0]), .ownerKeySet (packetOf [] [0]), .secConfig (packetOf [] [0]),
      .dbgHalt (packetOf [] [0]), .dbgResume (packetOf [] [0]), .dbgStep (packetOf [] [0]), .dbgState (packetOf [] [0]),
      .dbgChAbort (packetOf [] [0]), .dbgAbort (packetOf [] [0]), .dbgBreak (packetOf [] [0]), .faultInject (packetOf [] [0])] : List Instr), i.wellFormed = false := by
  decide +kernel

theorem test_well_formed :
    ∀ i ∈ ([.add ⟨25, 7, 15, true, 0⟩, .sysReset (packetOf [1, 0, 0, 0] []), .helperResult ⟨25, 7, 15⟩ true, .thermTrip 52, .bucketCredit 3 65535, .bankScrub 35 [24575] [0],
      .bar0Write 0x3FFC 4 0, .islandTempSample 52 (-128), .channelRetrainDone 7 (some 6), .startupStepDone 10 {}] : List Instr), i.wellFormed = true := by
  decide +kernel

/-- The table gives no row bits, so no word spells a command. -/
theorem test_no_word_spells_a_command : decodeTableWord 0 0 = none ∧ decodeTableWord 32 0x594E0100 = none := by
  decide

/-! ### A state and operands for each statement: instructions of a thread -/

theorem witness_power : State.reset.pins.pwrGood = true ∧ State.reset.pins.resetN = false ∧ Rail.core ∈ State.reset.pins.rails
    ∧ ({ State.reset with pins := {} } : State).pins.pwrGood = false ∧ Rail.core ∉ ({ State.reset with pins := {} } : State).pins.rails
    ∧ ({ State.reset with pins := { State.reset.pins with resetN := true } } : State).pins.resetN = true := by decide

theorem witness_alu : ∀ row ∈ aluRows, ∃ y ∈ [syl 0, syl 8], Executes (oneThread busy) y 0 row.2.1 := by
  unfold Executes Ready; decide

theorem witness_compare : ∀ row ∈ compareRows, Executes (oneThread busy) (syl 0) 0 row.2.1 := by
  unfold Executes Ready; decide

theorem witness_index : ∀ row ∈ indexRows, Executes (oneThread busy) (syl 0) 0 row.2.1 := by
  unfold Executes Ready; decide

theorem witness_loads : (∀ row ∈ nearLoads, Executes (pointing busy 0x10000) (syl 0x20000) 1 row.2.1
      ∧ inAperture (nearAddr ((pointing busy 0x10000).th 0).regs (sylRaw (syl 0x20000) 1 row.2.1)) = false
      ∧ Executes (pointing busy 0x10000000) (syl 0xE0000) 1 row.2.1
      ∧ inAperture (nearAddr ((pointing busy 0x10000000).th 0).regs (sylRaw (syl 0xE0000) 1 row.2.1)) = true)
    ∧ (∀ row ∈ farLoads, Executes (pointing busy 0) (syl 0xC0000) 1 row.2.1) ∧ Executes (pointing busy 0) (syl 0) 1 0x30 := by
  and_intros <;> first | decide | (unfold Executes Ready; decide)

theorem witness_stores : Executes (oneThread busy) (syl 0) 1 0x03 ∧ region 0 = .frame 0
    ∧ Executes (pointing busy 0x17FFF) (syl 0x20000) 1 0x03 ∧ region 0x17FFF = .core 0x7FFF
    ∧ Executes (pointing busy 0x17FFF0) (syl 0xE0000) 1 0x03 ∧ region 0x17FFF0 = .cluster 0x7FFF0
    ∧ Executes (pointing { busy with branches := [unresolved] } 0x17FFF) (syl 0x20000) 1 0x03
    ∧ Executes (pointing busy 0x200008) (syl 0xA0000) 1 0x03 ∧ region 0x200008 = .events 8
    ∧ Executes (pointing busy 0x10000FF8) (syl 0xE0000) 1 0x03 ∧ inAperture 0x10000FF8 = true
    ∧ Executes (pointing busy 0) (syl 0xC0000) 1 0x0A ∧ Executes (pointing busy 0x10000FF8) (syl 0) 1 0x18 := by
  and_intros <;> first | decide | (unfold Executes Ready; decide)

theorem witness_helpers : (∀ row ∈ helperRows, ∃ y ∈ [syl 0, syl 1, syl 8], Executes (pointing busy 0) y 2 row.2)
    ∧ (∀ row ∈ resultRows, Executes (pointing busy 0) (syl 0) 2 row.2.1)
    ∧ (∀ op ∈ [0x50, 0x51, 0x53, 0x54], Executes (pointing busy 0) (syl 0) 2 op) := by
  and_intros <;> first | decide | (unfold Executes Ready; decide)

/-- Cluster 0 runs SERVICE, and entries 0 and 16 of the decode table of Accord 0 are these bytes. -/
def customs (dt : Mem) : State :=
  { oneThread busy with live := [(objKey 0x42 0, 1)], accord := { copy := [(0, { dtab := dt })] } }

/-- An entry of no micro-operation, and one that stores a byte of ACC at frame address 0. -/
theorem witness_customs :
    let e : Mem := [(7, 0x80), (2183, 0x80)]
    let f : Mem := [(6, 0x40), (7, 0x80), (14, 0x18), (15, 0x40)]
    (Executes (customs e) (syl 0) 0 0x70 ∧ (customRun (customs e) 0 {} (sylRaw (syl 0) 0 0x70)).poison = false
      ∧ (customRun (customs e) 0 {} (sylRaw (syl 0) 0 0x70)).stores = [])
    ∧ (Executes (customs e) (syl 0) 1 0x70 ∧ (customRun (customs e) 0 {} (sylRaw (syl 0) 1 0x70)).poison = false
      ∧ (customRun (customs e) 0 {} (sylRaw (syl 0) 1 0x70)).stores = [])
    ∧ (Executes (customs f) (syl 0) 0 0x70 ∧ (customRun (customs f) 0 {} (sylRaw (syl 0) 0 0x70)).stores = [(0, [0])]
      ∧ region 0 = .frame 0) := by
  and_intros <;> first | decide | (unfold Executes Ready; decide)

/-- An entry that loads 8 bytes of the aperture at 0x10000FF8, of which row 63 of bank 0 is uncorrectable. -/
theorem witness_custom_poison :
    let g : Mem := [(6, 0x40), (7, 0x80), (8, 0xF8), (9, 0x0F), (11, 0x10), (13, 0xC0), (14, 0x08), (15, 0x40)]
    let s : State := { pointing busy 0 with
      live := [(objKey 0x42 0, 1)], accord := { copy := [(0, { objs := [(objKey 0x50 1, directTable)], dtab := g })] }, tables := { bad := [63] } }
    Executes s (syl 0) 0 0x70 ∧ (customRun s 0 {} (sylRaw (syl 0) 0 0x70)).poison = true
      ∧ (customRun s 0 {} (sylRaw (syl 0) 0 0x70)).stores = [] ∧ (s.th 0).branches = [] := by
  unfold Executes Ready; decide

theorem witness_control : (∀ row ∈ branchRows, Executes (oneThread busy) (syl 0) 3 row.2.1) ∧ Executes (oneThread busy) (syl 0) 3 0x03 ∧ Executes (oneThread busy) (syl 0) 3 0x05
    ∧ Executes (oneThread { busy with inTrap := true }) (syl 0) 3 0x06 ∧ Executes (oneThread busy) (syl 0) 3 0x07 := by
  and_intros <;> first | decide | (unfold Executes Ready; decide)

theorem witness_events : Executes (oneThread { busy with edges := 4 }) (syl 4) 3 0x10
    ∧ (Ready (oneThread busy) (syl 4) 3 0x10 ∧ wfeWord (oneThread busy) 0 4 = 0) ∧ Executes (oneThread busy) (syl 7) 3 0x11 := by
  and_intros <;> first | decide | (unfold Executes Ready; decide) | (unfold Ready; decide)

/-- Channel 31 of cluster 0 is remote-inbound. -/
def remoteInbound : State := { oneThread { busy with staging := [1] } with live := [(objKey 0x40 31, 2 ^ 7)] }

theorem witness_channels : Executes (oneThread busy) (syl 0) 3 0x12 ∧ Executes (oneThread busy) (syl 0) 3 0x13
    ∧ Executes (oneThread { busy with staging := [1] }) (syl 31) 3 0x13 ∧ (oneThread { busy with staging := [1] }).chRemote 0 31 = false
    ∧ Executes remoteInbound (syl 31) 3 0x13 ∧ remoteInbound.chRemote 0 31 = true
    ∧ Executes (channels { busy with staging := [1, 2] } [] [(creditKey 1 0, 2)]) (syl 0x420) 3 0x13
    ∧ Executes (oneThread busy) (syl 0) 3 0x14
    ∧ Executes (channels busy [(0, { msgs := [(0, [7])] })] []) (syl 0) 3 0x14 := by
  and_intros <;> first | decide | (unfold Executes Ready; decide)

theorem witness_ordered : Executes (oneThread { busy with noDomain := true }) (syl 3) 3 0x18
    ∧ Executes (oneThread { busy with passed := 8 }) (syl 3) 3 0x18
    ∧ (Ready (oneThread busy) (syl 3) 3 0x18 ∧ busy.noDomain = false ∧ (busy.passed ||| busy.released).getLsbD 3 = false)
    ∧ Executes (oneThread busy) (syl 2) 3 0x19 ∧ Executes (oneThread { busy with effected := true }) (syl 1) 3 0x1A := by
  and_intros <;> first | decide | (unfold Executes Ready; decide) | (unfold Ready; decide)

theorem witness_locks_atomics : (∀ row ∈ lockRows, Executes (pointing busy 0xFFFF) (syl 0) 3 row.2.1)
    ∧ (∀ row ∈ atomicRows, Executes (pointing busy 0x10000FF8) (syl 0) 3 row.2)
    ∧ (∀ row ∈ atomicRows, Executes (pointing busy 0) (syl 0x200000) 3 row.2) := by
  and_intros <;> first | decide | (unfold Executes Ready; decide)

/-! ### Threads between their bundles -/

/-- Bytes of ACC that thread 0 waits for. -/
def coming : Load := { id := 5, reg := 0, value := some (1, none) }

theorem witness_results : lives (oneThread { busy with loads := [coming] }) t0
    ∧ (oneThread { busy with loads := [coming] }).landing 0 0 = some coming ∧ coming.ecc = none
    ∧ (oneThread { busy with loads := [{ coming with flOnly := true }] }).landing 0 0 = some { coming with flOnly := true }
    ∧ (oneThread { busy with stores := [{ id := 5, done := true }] }).completed 0 = some { id := 5, done := true }
    ∧ (let h : HelperOp := { id := 5, thread := 0, unit := 4, op := 0, res := some {} }
       let s : State := { upAll with clusters := [(0, { thread := [(0, { busy with helper := some 5 })], hops := [h] })] }
       lives s t0 ∧ s.helperDone 0 = some h) := by
  unfold lives; decide

theorem witness_branches : lives (oneThread { busy with branches := [unresolved, { unresolved with taken := true }] }) t0
    ∧ unresolved.taken = false ∧ unresolved.late = none ∧ unresolved.stores = []
    ∧ ({ unresolved with late := some { kind := 0x68, addr := 0, pc := 0 } } : Branch).late ≠ none
    ∧ (let b : Branch := { unresolved with poison := true }
       lives (oneThread { busy with branches := [b] }) t0 ∧ b.poison = true ∧ b.late = none ∧ b.bhb = none)
    ∧ (let b : Branch := { unresolved with liveDue := true }
       lives (oneThread { busy with branches := [b] }) t0 ∧ b.stores = [] ∧ b.poison = false ∧ b.liveDue = true)
    ∧ (let b : Branch := { unresolved with bhb := some 4 }
       let s : State := { upAll with clusters := [(0, { thread := [(0, { busy with branches := [b] })], hops := [{ id := 5, thread := 0, unit := 4, op := 0 }] })] }
       lives s t0 ∧ b.bhb = some 4 ∧ (s.cl 0).hops.any (fun h => h.unit == 4 && h.thread == 0 && !b.begun.contains h.id) = true
         ∧ (oneThread { busy with branches := [b] }).cl 0 = { thread := [(0, { busy with branches := [b] })] }
         ∧ hopCount (oneThread { busy with branches := [b] }) 0 4 < helperLimit 4) := by
  unfold lives; decide

theorem witness_waits :
    (let x : Thread := { busy with wait := .wfe 4, waitSyls := [sylRaw (syl 4) 3 0x10], edges := 4 }
     lives (oneThread x) t0 ∧ (4 : BitVec 16) = (syl 4).fields.setWidth 16 ∧ wfeWord (oneThread x) 0 4 ≠ 0)
    ∧ lives (oneThread { busy with regs := { timer := 1 } }) t0
    ∧ (let x : Thread := { busy with wait := .chc false 0 31, waitSyls := [sylRaw (syl 31) 3 0x13], staging := [1, 2, 3, 4] }
       let s := channels x [(31, { msgs := [(0, [1, 2, 3, 4])], blocked := [0] })] []
       s.up 0 = true ∧ ((s.cl 0).ch 31).blocked = [0] ∧ (syl 31).fields = BitVec.ofNat 22 31
         ∧ ((s.cl 0).ch 31).words + (s.th 0).staging.length ≤ 8 ∧ s.chRemote 0 31 = false)
    ∧ (let x : Thread := { busy with wait := .chc true 1 31, waitSyls := [sylRaw (syl 0x43F) 3 0x13], staging := [1, 2] }
       let s : State := { upAll with clusters := [(0, { thread := [(0, x)], credit := [(creditKey 1 31, 2)], rblocked := [(creditKey 1 31, [0])] })] }
       s.up 0 = true ∧ Store.get [] (s.cl 0).rblocked (creditKey 1 31) = [0] ∧ (sylRaw (syl 0x43F) 3 0x13).f 10 10 = 1
         ∧ (sylRaw (syl 0x43F) 3 0x13).f 9 5 = 1 ∧ (sylRaw (syl 0x43F) 3 0x13).f 4 0 = 31
         ∧ (s.th 0).staging.length ≤ (s.cl 0).creditOf (creditKey 1 31)) := by
  unfold lives; decide

theorem witness_clusters : (underWay upAll 25 0 (.chan 3200 0 31 [1] 5)).arrive 25 0 = some (.chan 3200 0 31 [1] 5) ∧ 3200 / 128 = 25
    ∧ (underWay upAll 25 0 (.credit 3 31 8 true)).arrive 25 0 = some (.credit 3 31 8 true)
    ∧ (let x : Thread := { busy with wait := .wfe 4 }
       let s : State := { upAll with clusters := [(25, { thread := (List.range 128).map (fun i => (i, x)) })] }
       s.up 25 = true ∧ fld (s.obj 0x0041 25) 15 15 = 1 ∧ s.quiet 25 = true ∧ (s.cl 25).quietRep = false) := by
  decide +kernel

theorem witness_traps : lives (oneThread { busy with nmi := true }) t0 ∧ (oneThread { busy with nmi := true }).up 0 = true
    ∧ (let x : Thread := { busy with trap := some { cause := 1, syl := 0, pc := 0, next := 1 } }
       lives (oneThread x) t0 ∧ ((oneThread x).th 0).trap ≠ none ∧ x.loads = [] ∧ x.helper = none ∧ x.halt = .none)
    ∧ (let s := underWay (oneThread { busy with lockWait := some 65535 }) 40 0 (.lockGrant 0 65535 7)
       s.arrive (37 + 3) 0 = some (.lockGrant 0 65535 7) ∧ s.replyAhead 0 (37 + 3) 7 = false ∧ (s.th 0).lockWait = some 65535 ∧ (s.th 0).halt ≠ .debug)
    ∧ (lives (oneThread { busy with haltReq := true }) t0 ∧ ({ busy with haltReq := true } : Thread).haltReq = true)
    ∧ (lives (oneThread { busy with abortReq := true }) t0 ∧ ({ busy with abortReq := true } : Thread).abortReq = true) := by
  unfold lives; decide

/-! ### The Sequencer and the Atomizer -/

/-- A frame of one byte stamped with Accord 1, with its descriptor and its cell. -/
def ready : InFlight :=
  { frame := { data := [0], time := 0, port := 0, verdict := 0, tclass := 0 }
    disp := { metaw := 0x1000000000000001, handle := 0x01000000 }, desc := true, cells := [0] }

/-- Accord 1 is current, and slice 3 holds a complete frame. -/
def accepting (objs : Store ObjWord) : State :=
  { upAll with accord := { live := true, current := 1, staged := 2, copy := [(1, { objs := objs })] }, slices := [(3, { pipe := [ready] })] }

theorem witness_descriptors : ready.complete = true ∧ (accepting []).up 26 = true ∧ (accepting []).up 30 = true
    ∧ ((accepting []).slc 3).pipe = [ready] ∧ (accepting []).tagLive 1 = true
    ∧ (accepting []).domainCount 0 < fld ((accepting []).sobj 1 0x31 0) 41 28 ∧ (accepting []).recFree = some 0
    ∧ (accepting []).packetRecords < 8192 - (accepting []).param 0
    ∧ ({ accepting [] with accord := {} } : State).tagLive 1 = false
    ∧ fld ((accepting [(objKey 0x31 0, 0)]).sobj 1 0x31 0) 41 28 ≤ (accepting [(objKey 0x31 0, 0)]).domainCount 0
    ∧ (let s := { accepting [] with live := [(objKey 0xC0 0, 8192)] }
       s.tagLive 1 = true ∧ s.domainCount 0 < fld (s.sobj 1 0x31 0) 41 28 ∧ 8192 - s.param 0 ≤ s.packetRecords) := by decide

theorem witness_tasks : (underWay (accepting []) 42 26 (.task 65535 1)).arrive 42 26 = some (.task 65535 1)
    ∧ (accepting []).taskFits {} 1 = true ∧ (accepting [(objKey 0x31 0, 0)]).taskFits { domained := true } 1 = false
    ∧ (accepting []).tagLive 1 = true ∧ (accepting []).tagLive 0 = false := by decide

/-- Every record holds a task. -/
theorem witness_no_record :
    (let s : State := { accepting [] with seq := { recs := (List.range 8192).map (fun r => (r, { st := .queued, task := true })) } }
     s.tagLive 1 = true ∧ s.taskFits {} 1 = true ∧ s.recFree = none) := by decide +kernel

/-- Cluster 0 serves, and record 8191 waits. -/
def waiting (x : Rec) : State :=
  { accepting [] with
    seq := { recs := [(8191, { x with st := .queued, accord := 1 })] }
    clusters := [(0, { svc := { st := 1 } })] }

theorem witness_dispatching : (waiting {}).up 26 = true ∧ eachOnce (waiting {}) ∧ (waiting {}).seq.stopped = false
    ∧ (waiting {}).nextRecord = some 8191 ∧ (waiting { replay := some 0 }).nextRecord = some 8191 ∧ (accepting []).nextRecord = none
    ∧ ((waiting {}).rcd 8191).st = .queued ∧ (8191, (waiting {}).rcd 8191) ∈ (waiting {}).seq.recs
    ∧ (waiting {}).choices ((waiting {}).rcd 8191) ≠ [] ∧ ((waiting {}).rcd 8191).placed = false := by
  unfold eachOnce; decide +kernel

/-- A dispatch of record 8191 to thread 3327, the last one. -/
def toLast : DispatchMsg :=
  { thread := 3327, record := 8191, gen := 1, tag := 1, prio := 0, role := 0, task := false, noDomain := false, passed := 0, released := 0, disp := {}, taskId := 0 }

theorem witness_dispatches : (underWay upAll 26 25 (.dispatch toLast)).arrive 26 25 = some (.dispatch toLast)
    ∧ toLast.thread / 128 = 25 ∧ 25 ∉ upAll.seq.noticed
    ∧ (let s := underWay { upAll with seq := { noticed := [25] } } 26 25 (.dispatch toLast)
       s.arrive 26 25 = some (.dispatch toLast) ∧ 25 ∈ s.seq.noticed)
    ∧ lives (oneThread { busy with window := [1] }) t0
    ∧ (let s := underWay { State.reset with seq := { recs := [(8191, { st := .running, gen := 1 })] } } 26 25 (.dispatch toLast)
       s.refuses 25 = true ∧ s.oldest 26 25 = some (.dispatch toLast) ∧ (s.rcd 8191).gen = toLast.gen ∧ (s.rcd 8191).st = .running) := by
  unfold lives; decide

/-- Record 8191 runs on thread 3327, beside an earlier record 0 of its domain. -/
def runningRec (x : Rec) : State :=
  { upAll with seq := { recs := [(0, { st := .queued, placed := true }), (8191, { x with st := .running, gen := 7, thread := 3327, order := 1 })] } }

theorem witness_tokens :
    (let s := underWay (runningRec {}) 25 26 (.ordReq 3327 8191 7 3)
     s.arrive 25 26 = some (.ordReq 3327 8191 7 3) ∧ runsLife s 8191 7 ∧ s.mayPass 8191 3 = true)
    ∧ (let s := underWay (runningRec { placed := true }) 25 26 (.ordReq 3327 8191 7 3)
       s.arrive 25 26 = some (.ordReq 3327 8191 7 3) ∧ runsLife s 8191 7 ∧ s.mayPass 8191 3 = false)
    ∧ (let s := underWay (runningRec {}) 25 26 (.rel 3327 8191 7 2 0)
       s.arrive 25 26 = some (.rel 3327 8191 7 2 0) ∧ runsLife s 8191 7 ∧ (s.rcd 8191).waitPt = none)
    ∧ (let s := underWay (runningRec {}) 25 26 (.effect 3327 8191 7)
       s.arrive 25 26 = some (.effect 3327 8191 7) ∧ runsLife s 8191 7)
    ∧ (let s := underWay (runningRec {}) 25 26 (.poison 3327 8191 7)
       s.arrive 25 26 = some (.poison 3327 8191 7) ∧ runsLife s 8191 7) := by
  unfold runsLife eachOnce; decide

theorem witness_stale :
    let l : List Msg := [.ordReq 3327 8191 6 3, .rel 3327 8191 6 3 0, .effect 3327 8191 6, .poison 3327 8191 6, .commit 3327 8191 6 0 0 0,
      .fault 3327 8191 6 0x68]
    ∀ m ∈ l, (underWay (runningRec {}) 25 26 m).arrive 25 26 = some m ∧ ((underWay (runningRec {}) 25 26 m).rcd 8191).gen ≠ 6
      ∧ 8191 ∉ (underWay (runningRec {}) 25 26 m).seq.badRec := by decide

theorem witness_grants :
    (let x : Thread := { busy with gen := 7, wait := .ord 3, waitSyls := [sylRaw (syl 3) 3 0x18] }
     let s := underWay (oneThread x) 26 0 (.ordGrant 0 0 7 3)
     s.arrive 26 0 = some (.ordGrant 0 0 7 3) ∧ (s.th 0).wait = .ord 3 ∧ (sylRaw (syl 3) 3 0x18).f 1 0 = 3 ∧ x.halt ≠ .debug
       ∧ ({ x with halt := .debug } : Thread).halt = .debug)
    ∧ (let x : Thread := { busy with gen := 7, wait := .effect, waitSyls := [sylRaw (syl 1) 3 0x1A] }
       let s := underWay (oneThread x) 26 0 (.effectAck 0 0 7)
       s.arrive 26 0 = some (.effectAck 0 0 7) ∧ (s.th 0).wait = .effect ∧ (s.th 0).waitSyls = [sylRaw (syl 1) 3 0x1A]) := by decide

theorem witness_commits :
    (∀ op ∈ ([0, 1, 2, 3, 4] : List (BitVec 3)),
      let s := underWay (runningRec { poison := false }) 25 26 (.commit 3327 8191 7 op 0 0)
      s.arrive 25 26 = some (.commit 3327 8191 7 op 0 0) ∧ runsLife s 8191 7 ∧ (s.rcd 8191).waitPt = none ∧ (s.rcd 8191).task = false
        ∧ (s.rcd 8191).poison = false)
    ∧ ((runningRec { poison := true }).rcd 8191).poison = true
    ∧ (let s : State := { upAll with seq := { recs := [(8191, { st := .committed, outcome := some { op := 0, word := 0 } })] } }
       s.up 26 = true ∧ (s.rcd 8191).st = .committed ∧ (s.rcd 8191).outcome = some { op := 0, word := 0 } ∧ s.earlier 8191 = []
         ∧ 8191 ∉ s.seq.badRec)
    ∧ (let s : State := { upAll with seq := { recs := [(0, { st := .queued, placed := true }), (8191, { st := .committed, placed := true, order := 1 })] } }
       (s.rcd 8191).st = .committed ∧ s.earlier 8191 ≠ []) := by
  unfold runsLife eachOnce; decide

/-- The policy of domain class 0 in Accord 0. -/
def policyIs (s : State) (p : Nat) : State :=
  { s with accord := { copy := [(0, { objs := [(objKey 0x31 0, BitVec.ofNat 384 (p * 2 ^ 62 + 2 ^ 42 + 8192 * 2 ^ 28))] })] } }

theorem witness_faults :
    (∀ p ∈ [0, 1, 2, 3],
      let s := policyIs (underWay (runningRec { placed := true, safe := true }) 25 26 (.fault 3327 8191 7 0x68)) p
      s.arrive 25 26 = some (.fault 3327 8191 7 0x68) ∧ runsLife s 8191 7 ∧ (s.rcd 8191).placed = true
        ∧ fld (s.sobj 0 0x31 (fld (s.sobj 0 0x30 0) 7 0)) 63 62 = p ∧ (s.rcd 8191).safe = true ∧ (s.rcd 8191).replayed = false)
    ∧ ((runningRec { placed := false }).rcd 8191).placed = false ∧ ((runningRec { placed := true, replayed := true }).rcd 8191).replayed = true
    ∧ (let s := policyIs { upAll with seq := { recs := [(8191, { st := .held, placed := true })] } } 0
       (s.rcd 8191).st = .held ∧ (s.rcd 8191).placed = true ∧ (s.rcd 8191).struck = false ∧ domHold (s.domClass 0 0) ≠ 0)
    ∧ (let s : State := { upAll with seq := { recs := [(8191, { st := .held, placed := true, struck := true, hold := 7 })] } }
       (s.rcd 8191).st = .held ∧ (s.rcd 8191).eccHeld = false ∧ (s.rcd 8191).struck = true ∧ (s.rcd 8191).hold ≠ 0)
    ∧ (let s := policyIs (underWay (runningRec { placed := true }) 25 26 (.notice 25)) 0
       s.arrive 25 26 = some (.notice 25) ∧ eachOnce s ∧ (s.rcd 8191).thread.toNat / 128 = 25 ∧ s.seq.badRec = []
         ∧ domPolicy (s.domClass 0 0) = 0)
    ∧ (underWay upAll 25 26 (.threadFree 3327)).arrive 25 26 = some (.threadFree 3327)
    ∧ (let s : State := { upAll with accord := { drainValid := true } }
       s.up 26 = true ∧ s.accord.drainValid = true ∧ eachOnce s) := by
  unfold runsLife eachOnce; decide

/-! ### Ports, lanes and the field time pins -/

/-- Port 39 is enabled on its lane with this control word. -/
def portIs (w : Nat) (x : Port) : State :=
  { upAll with live := [(objKey 0x10 39, BitVec.ofNat 384 w)], ports := { port := [(39, x)] } }

/-- A frame of `n` bytes with its FCS, zero but for its type. -/
def frameOf (ty : List Byte) (n : Nat) : List Byte :=
  let body := List.replicate 12 0 ++ ty ++ List.replicate (n - 18) 0
  body ++ fcs body

theorem witness_receive : (portIs 0x5000040 { linkUp := true }).portOn 39 = true ∧ ((portIs 0x5000040 { linkUp := true }).port 39).linkUp = true
    ∧ fld ((portIs 0x5000040 {}).portWord 39) 13 0 = 64 ∧ (portIs 0x5000040 {}).portMacsec 39 = 0 ∧ (portIs 0x5040040 {}).portMacsec 39 ≠ 0
    ∧ (portIs 0x5100040 {}).portFlow 39 = 1 ∧ (portIs 0x5000040 {}).portFlow 39 = 0
    ∧ (frameOf [8, 0] 64).length = 64 ∧ (frameOf [8, 0] 65).length = 65 ∧ etherType (frameOf [8, 0] 64) ≠ 0x8808
    ∧ etherType (frameOf [0x88, 0x8E] 64) = 0x888E
    ∧ (let l := List.replicate 12 0 ++ [0x88, 0x08, 0, 1, 0, 5] ++ List.replicate 42 0
       (l ++ fcs l).length = 64 ∧ etherType (l ++ fcs l) = 0x8808 ∧ beVal (slice l 14 2) = 1 ∧ beVal (slice l 16 2) = 5)
    ∧ (let l : List Byte := List.replicate 12 0 ++ [0x88, 0x08, 1, 1, 0, 0x80] ++ List.replicate 42 1
       (portIs 0x5200040 {}).portFlow 39 = 2 ∧ (l ++ fcs l).length = 64 ∧ etherType (l ++ fcs l) = 0x8808 ∧ beVal (slice l 14 2) = 0x0101
         ∧ (beVal (slice l 16 2)).testBit 7 = true ∧ beVal (slice l 32 2) ≠ 0) := by
  decide +kernel

/-- A frame is good when what follows its body is the body's FCS: so by construction. -/
theorem witness_good : (frameOf [8, 0] 64).drop 60 = fcs ((frameOf [8, 0] 64).take 60) ∧ ¬ ((false = false ∧ 4 ≤ ([] : List Byte).length)) := by
  decide +kernel

/-- A frame of one byte from port 39. -/
def oneByte : RxFrame := { data := [0], time := 0, port := 39, verdict := 0, tclass := 0 }

theorem witness_fifo : (portIs 0x5000040 { rxFifo := [oneByte] }).up (portIsl 39) = true ∧ ((portIs 0x5000040 { rxFifo := [oneByte] }).port 39).rxFifo = [oneByte]
    ∧ State.reset.inReset 27 = true ∧ upAll.inReset 27 = false ∧ upAll.inputUsed 0 + oneByte.data.length ≤ 65536
    ∧ (let s : State := { upAll with slices := [(0, { input := [{ oneByte with data := [] }] })] }
       s.inputUsed 0 = 0)
    ∧ (let s : State := { portIs 0x5100040 { linkUp := true, xoffSent := 0x80 } with pools := { account := [(39 * 8 + 7, 0x40000)] } }
       s.portOn 39 = true ∧ (s.port 39).linkUp = true ∧ (s.port 39).xoffSent.getLsbD 7 = true ∧ s.portFlow 39 = 1
         ∧ fld (s.obj 0x13 (39 * 8 + 7)) 17 0 < s.account 39 7)
    ∧ (portIs 0x5200040 {}).portFlow 39 = 2
    ∧ (let s : State := { upAll with live := [(objKey 0x12 39, BitVec.ofNat 384 (2 ^ 36))] }
       fld (s.obj 0x12 39) 36 29 / 2 ^ 7 % 2 = 1) := by
  decide

/-- An input buffer of 64 KiB is full. -/
theorem witness_full : ({ upAll with slices := [(0, { input := List.replicate 5 { oneByte with data := List.replicate 16383 0 } })] } : State).inputUsed 0 + 1 > 65536 := by
  decide +kernel

theorem witness_transmit :
    (let k : QPkt := { desc := 524287, len := 60 }
     let s : State := { portIs 0x5000040 { linkUp := true, txAhead := [k] } with pools := { desc := [(524287, { st := .held })] } }
     s.portOn 39 = true ∧ (s.port 39).txAhead = [k] ∧ (s.port 39).linkUp = true ∧ s.portMacsec 39 = 0 ∧ bits k.word.toNat 63 62 = 0
       ∧ k.poison = false ∧ s.packetBad 524287 = none)
    ∧ bits (2 ^ 62 : Nat) 63 62 = 1 ∧ 64 ≤ ({ tsFifo := List.replicate 64 (0, 0) } : Port).tsFifo.length ∧ ({ desc := 0, len := 60, poison := true } : QPkt).poison = true
    ∧ (let s := portIs 0x5020040 {}
       (s.port 39).linkUp = false ∧ fld (s.portWord 39) 17 17 = 1)
    ∧ fld ((portIs 0x5000040 {}).portWord 39) 17 17 = 0 := by
  decide

theorem witness_links :
    (let s := portIs 0x5000040 { linkUp := true }
     s.up (portIsl 39) = true ∧ s.portOfLane 39 = some 39 ∧ (s.lane 39).lost = false ∧ (s.port 39).linkUp = true ∧ (s.port 39).remoteFault = false
       ∧ s.portOn 39 = true)
    ∧ (let s : State := { upAll with live := [(objKey 0x10 39, 0x5000040)], ports := { port := [(39, { linkUp := true })], lane := [(39, { lost := true, holding := true })] } }
       (∃ l ∈ s.portLanes 39, (s.lane l).lost = true) ∧ (s.lane 39).holding = true)
    ∧ (let s := portIs 0x5000040 {}
       (s.port 39).linkUp = false ∧ (∀ l ∈ s.portLanes 39, (s.lane l).recal ≠ 2) ∧ (s.lane 39).recal = 0)
    ∧ (({ acquiring := true } : Lane).acquiring = true ∧ ({ acquiring := true } : Lane).recal = 0) := by
  decide

theorem witness_pins : upAll.up 52 = true ∧ upAll.ports.pins.ppsOut = false ∧ upAll.ports.pins.lastEdge ≠ some (upAll.time.ns.toNat / 1000000000)
    ∧ ({ todDue := some 0xFFFFFFFFFFFF } : TimePins).todDue = some 0xFFFFFFFFFFFF := by
  decide

/-! ### The Ingress Front End, locks and the slices of the Atomic and Lock Unit -/

/-- A frame of one byte from port 39. -/
def oneByte' : RxFrame := { data := [0], time := 0, port := 39, verdict := 0, tclass := 0 }

theorem witness_parse :
    (let s : State := { upAll with slices := [(3, { input := [oneByte'] })] }
     s.up 30 = true ∧ (s.slc 3).input = [oneByte'] ∧ (s.slc 3).tag = none)
    ∧ (let s : State := { upAll with slices := [(3, { tag := some 15, input := [oneByte'] })] }
       s.up 30 = true ∧ (s.slc 3).input = [oneByte'] ∧ (s.slc 3).tag = some 15 ∧ oneByte'.port < 40 ∧ oneByte'.data.length < 16384
         ∧ (s.slc 3).pipe.length < 256 ∧ (s.slc 3).badWords = [])
    ∧ (let s : State := { upAll with slices := [(3, { tag := some 15, input := [oneByte'], badWords := (List.range 4096).map (4096 + ·) })] }
       let w := parseWalk s 15 oneByte'.data
       let c := classify s 15 3 (classKey s 15 oneByte' w)
       ((w.touched ++ (List.range c.2).map pgRule ++ [pgProfile c.1]).find? (fun r => (s.slc 3).badWords.contains (15 % 2 * 4096 + r))).isSome = true) := by
  decide +kernel

/-- A frame in a slice's pipe that still needs its descriptor or its cell. -/
def wants (d w : Bool) : InFlight := { frame := oneByte', disp := { metaw := 1, handle := 0x01000007 }, desc := d, waiting := w }

theorem witness_cells :
    (∀ d ∈ [false, true], ∀ w ∈ [false, true],
      let s : State := { upAll with slices := [(3, { pipe := [wants d w] })] }
      s.up 30 = true ∧ s.up 41 = true ∧ (s.slc 3).pipe = [] ++ wants d w :: [] ∧ (wants d w).complete = false)
    ∧ (let s : State := { upAll with slices := [(3, { pipe := [wants true false] })], pools := { pool := [(0, { ring := { limit := 262144 }, cache := [(3, 2)] })] } }
       s.cellGranted 39 0 = true ∧ (s.pool 0).cached 3 ≠ 0 ∧ (s.pool 0).lost = [] ∧ (s.pool 0).stuck = [] ∧ (s.pool 0).ring.next < (s.pool 0).ring.limit)
    ∧ ({ upAll with pools := { pool := [(0, { ring := { limit := 4 } })] } } : State).cellGranted 39 0 = false ∧ State.reset.up 41 = false := by
  decide +kernel

theorem witness_free_descriptor : upAll.freeDesc = some 0 := by decide +kernel

theorem witness_slice_marker : (underWay upAll 26 30 (.marker 15)).arrive 26 (27 + 3) = some (.marker 15)
    ∧ (let s : State := { upAll with slices := [(3, { tag := some 2, oldTag := some 1, pipe := [{ wants true false with disp := { metaw := 0x1000000000000001 } }] })] }
       s.up 30 = true ∧ (s.slc 3).oldTag = some 1 ∧ (∃ x ∈ (s.slc 3).pipe, bits x.disp.metaw.toNat 63 60 = 1))
    ∧ (let s : State := { upAll with slices := [(3, { tag := some 2, oldTag := some 1, pipe := [wants true false] })] }
       (s.slc 3).oldTag = some 1 ∧ ∀ x ∈ (s.slc 3).pipe, bits x.disp.metaw.toNat 63 60 ≠ 1) := by
  decide +kernel

/-- Lock 65535, the last of bank 31, as given, and a request for it under way from cluster 25. -/
def lockIs (l : Lock) (op : LockOp) : State :=
  underWay { upAll with tables := { locks := [(65535, l)] } } 25 40 (.lockReq 5 3327 65535 op)

theorem witness_locks_free : (lockIs {} .acquire).arrive 25 (37 + 31 / 8) = some (.lockReq 5 3327 65535 .acquire) ∧ (lockIs {} .acquire).hopAhead 25 40 5 = false
    ∧ (lockIs {} .tryLock).arrive 25 (37 + 31 / 8) = some (.lockReq 5 3327 65535 .tryLock)
    ∧ (lockIs {} .release).arrive 25 (37 + 31 / 8) = some (.lockReq 5 3327 65535 .release) ∧ ((lockIs {} .acquire).lock 65535).queue = []
    ∧ ((lockIs {} .acquire).lock 65535).held = false ∧ ((lockIs {} .acquire).lock 65535).broken = false := by
  decide +kernel

theorem witness_locks_held (op : LockOp) : (lockIs { held := true, owner := 7 } op).arrive 25 (37 + 31 / 8) = some (.lockReq 5 3327 65535 op)
    ∧ 65535 ∉ (lockIs { held := true, owner := 7 } op).tables.badLocks ∧ (lockIs { held := true, owner := 7 } op).lock 65535 = { held := true, owner := 7 }
    ∧ (7 : BitVec 16).toNat ≠ 3327 ∧ (lockIs { held := true, owner := 7 } op).lockQueued 3327 = false := by
  cases op <;> decide +kernel

theorem witness_locks_owned : (lockIs { held := true, owner := 3327 } .release).lock 65535 = { held := true, owner := 3327 }
    ∧ (lockIs { held := true, owner := 3327, queue := [7] } .release).lock 65535 = { held := true, owner := 3327, queue := [7] }
    ∧ (lockIs { held := true, owner := 7, queue := [3327] } .release).lock 65535 = { held := true, owner := 7, queue := [3327] } := by
  decide +kernel

theorem witness_abandoned :
    (let s := underWay { upAll with tables := { locks := [(65535, { held := true, owner := 3327 })] } } 25 40 (.masterReset 3327 false 31)
     s.arrive 25 (37 + 31 / 8) = some (.masterReset 3327 false 31) ∧ s.tables.badLocks = [] ∧ (s.lock 65535).broken = false
       ∧ (s.lock 65535).held = true ∧ (s.lock 65535).owner.toNat = 3327 ∧ (s.lock 65535).queue = [])
    ∧ ((lockIs { held := true, owner := 7 } .release).lock 65535).owner.toNat ≠ 3327
    ∧ (let s := underWay { upAll with tables := { locks := [(65535, { broken := true, queue := [7, 3327] })] } } 25 40 (.masterReset 3327 false 31)
       s.arrive 25 (37 + 31 / 8) = some (.masterReset 3327 false 31) ∧ s.tables.badLocks = [] ∧ (s.lock 65535).broken = true)
    ∧ (let s : State := { upAll with tables := { locks := [(65535, { held := true, owner := 0x2000 })], leases := [(65535, 0x2000)] } }
       s.up (37 + 65535 / 2048 / 8) = true ∧ 65535 ∉ s.tables.badLocks ∧ (∃ e ∈ s.tables.leases, e.1 = 65535) ∧ (s.lock 65535).held = true ∧ (s.lock 65535).broken = false
         ∧ (s.lock 65535).owner = Store.get 0 s.tables.leases 65535 ∧ (s.lock 65535).queue = []) := by
  decide +kernel

/-- An access of 8 bytes by the last thread: at the last row of bank 31, or at a device address. -/
def access (k : AccKind) (size : BitVec 2) (a : Nat) : MemReq := { id := 5, thread := 3327, tag := 0, kind := k, addr := a, size := size }

/-- One gibibyte of channel 0, in service. -/
def served (c : DramChan) : State := { upAll with dram := { n := 1, chan := [(0, { c with st := .service, gib := 1 })] } }

theorem witness_slices :
    (∀ op ∈ ([0, 1, 2, 3, 4, 5, 6] : List (BitVec 3)),
      let size : BitVec 2 := if op = 0 then 2 else 3
      let r := access (.atomic op) size 0x13F7FFF8
      let f := access (.atomic op) size 0xFF8
      (underWay upAll 25 40 (.mem r)).arrive 25 40 = some (.mem r) ∧ op.toNat < 7 ∧ 2 ^ r.size.toNat = atomicWidth op.toNat
        ∧ (underWay upAll 25 40 (.mem r)).rowBad ((underWay upAll 25 40 (.mem r)).aperturePhys 0 (apertureBank r.addr) (r.addr % 0x200000)) = false
        ∧ (∀ y ∈ upAll.tables.structs, y.mirror = false) ∧ (underWay upAll 25 40 (.mem r)).hopAhead 25 40 r.id = false
        ∧ (underWay (served {}) 25 50 (.mem f)).arrive 25 50 = some (.mem f) ∧ f.addr / 64 ∉ (served {}).dram.bad ∧ (served {}).dram.flips = []
        ∧ (underWay (served {}) 25 50 (.mem f)).dramGone f.addr (2 ^ f.size.toNat) = false
        ∧ (underWay (served {}) 25 50 (.mem f)).dramOpen f.addr (2 ^ f.size.toNat) = true)
    ∧ (∀ k ∈ [AccKind.load, .store, .cnt],
      let r := access k 3 0x13F7FFF8
      (underWay upAll 25 40 (.mem r)).arrive 25 (37 + 31 / 8) = some (.mem r) ∧ apertureBank r.addr = 31) := by
  decide +kernel

theorem witness_far :
    (∀ k ∈ [AccKind.load, .store],
      let r := access k 3 0xFF8
      let s := underWay (served {}) 25 43 (.mem r)
      s.arrive 25 43 = some (.mem r) ∧ s.hopAhead 25 43 r.id = false ∧ s.dram.decant = none ∧ s.homeChannel r.addr = 0
        ∧ s.dramGone r.addr 8 = false ∧ s.dramRuns r.addr 8 = true ∧ (s.chan 0).reads.length < 64 ∧ (s.chan 0).writes = []
        ∧ (s.chan 0).unswept ((s.place' r.addr).2 / 2 ^ 23) = false)
    ∧ (let s := served { sweepDone := false }
       s.dramGone 0xFF8 8 = false ∧ s.dramRuns 0xFF8 8 = true ∧ (s.chan 0).unswept ((s.place' 0xFF8).2 / 2 ^ 23) = true)
    ∧ (let s : State := { State.reset with dram := (served {}).dram }
       s.dramGone 0xFF8 8 = true ∧ s.homeChannel 0xFF8 = 0) := by
  decide +kernel

/-! ### Tables, tasks and pools -/

/-- The last thread. -/
def tLast : ThreadId := ⟨25, 7, 15⟩

/-- Descriptors of an EXACT and an LPM table, and of an EXACT table of two buckets a way. -/
def exactTable : ObjWord := BitVec.ofNat 384 (2 * 2 ^ 124 + 2 ^ 121 + 8 * 2 ^ 115)
def lpmTable : ObjWord := BitVec.ofNat 384 (3 * 2 ^ 124 + 4 * 2 ^ 115 + 5000 * 2 ^ 75)
def twoBuckets : ObjWord := BitVec.ofNat 384 (2 * 2 ^ 124 + 2 ^ 121 + 8 * 2 ^ 115 + 2 ^ 70)

/-- Accord 1 is current and describes table 255 so; the last thread's operation `h` waits at its target. -/
def tableIs (d : ObjWord) (x : TStruct) (h : HelperOp) : State :=
  { upAll with
    accord := { live := true, current := 1, staged := 2, copy := [(1, { objs := [(objKey 0x50 255, d)] })] }
    tables := { structs := [x] }
    clusters := [(25, { hops := [h] })] }

def hop (unit : BitVec 3) (op : BitVec 4) (data : List Byte) : HelperOp :=
  { id := 5, thread := 127, unit := unit, op := op, fields := 255 <<< 14, tag := 1, data := data }

def key8 : List Byte := [1, 2, 3, 4, 5, 6, 7, 8]

def entry8 (born : BitVec 4) : TEntry := { key := key8, result := key8, born := born, dead := born }

theorem witness_lookup_exact :
    let s := tableIs exactTable { num := 255, desc := exactTable, entries := [entry8 1] } (hop 0 1 key8)
    let x := s.struct 255 (s.tdesc 1 255)
    threadOk tLast = true ∧ threadNo tLast = 3327 ∧ s.waitingHop 3327 0 = some (hop 0 1 key8) ∧ (hop 0 1 key8).op.toNat < 2
      ∧ bits (hop 0 1 key8).fields.toNat 21 14 = 255 ∧ dKind (s.tdesc 1 255) = 2 ∧ entry8 1 ∈ s.bucketsOf x key8 ∧ s.visible 1 (entry8 1) = true
      ∧ (∀ e ∈ s.bucketsOf x key8, e.result = (entry8 1).result) ∧ s.tables.bad = [] ∧ s.dram.bad = [] ∧ s.dram.flips = []
      ∧ s.sentAhead 25 (hop 0 1 key8) = false ∧ s.hopRefused 255 1 key8 (s.lookIslands 255 1 key8) = false
      ∧ s.hopRuns 255 1 key8 (s.lookIslands 255 1 key8) = true := by
  decide +kernel

theorem witness_lookup_islands :
    (let s := tableIs exactTable { num := 255, desc := exactTable } (hop 0 1 key8)
     allUp s (s.writeIslands 255 1 key8) ∧ s.bucketsOf (s.struct 255 exactTable) key8 = [])
    ∧ (let s := tableIs lpmTable { num := 255, desc := lpmTable } (hop 0 1 [10, 1, 1, 1])
       s.rootOf (s.struct 255 lpmTable) 1 = [])
    ∧ (let s := { tableIs exactTable { num := 255, desc := exactTable } (hop 0 1 key8) with power := State.reset.power }
       s.hopRefused 255 1 key8 (s.lookIslands 255 1 key8) = true ∧ s.sentAhead 25 (hop 0 1 key8) = false) := by
  unfold allUp; decide +kernel

theorem witness_lookup_lpm :
    let a : LpmEntry := ⟨8, [10], key8⟩
    let b : LpmEntry := ⟨32, [10, 1, 1, 1], key8⟩
    let s := tableIs lpmTable { num := 255, desc := lpmTable, roots := [(1, some [a, b])] } (hop 0 0 [10, 1, 1, 1])
    dKind (s.tdesc 1 255) = 3 ∧ (s.rootOf (s.struct 255 (s.tdesc 1 255)) 1).filter (fun e => bitsAgree e.len e.bytes [10, 1, 1, 1]) = [a, b]
      ∧ a.len < b.len := by
  decide +kernel

/-- The free rows of a table of one bank lie in that bank's group, whichever they are. -/
theorem witness_free_rows (s : State) (d : ObjWord) (n : Nat) (h : dBanks d = 1) :
    (s.someRows d n).map (fun p => 37 + p.1 / 8) = List.replicate n (37 + dFirst d / 8) := by
  simp [State.someRows, h, Nat.mod_one, Function.comp_def, List.map_const']

theorem witness_lookup_runs :
    let s := tableIs lpmTable { num := 255, desc := lpmTable } (hop 0 1 [10, 1, 1, 1])
    s.hopRefused 255 1 [10, 1, 1, 1] (s.lookIslands 255 1 [10, 1, 1, 1]) = false ∧ s.hopRuns 255 1 [10, 1, 1, 1] (s.lookIslands 255 1 [10, 1, 1, 1]) = true := by
  intro s
  have hk : dKind (s.tdesc 1 255) = 3 := by decide +kernel
  have hi : s.lookIslands 255 1 [10, 1, 1, 1] = [37] := by
    have hd : (s.struct 255 (s.tdesc 1 255)).desc = lpmTable := by decide +kernel
    have hl : dKind lpmTable = 3 := by decide +kernel
    simp only [State.lookIslands, State.lookRows, hk, hd, hl, Nat.reduceEqDiff, or_self, reduceIte, witness_free_rows s lpmTable 4 (by decide +kernel)]
    decide +kernel
  rw [hi]
  simp only [State.hopRefused, State.hopRuns, State.hopLines, hk]
  decide +kernel

/-- A ternary table of keys of 8 bytes, and a rule that agrees with `key8` where its mask is set. -/
def ternTable : ObjWord := BitVec.ofNat 384 (5 * 2 ^ 124 + 8 * 2 ^ 115)
def rule8 (m : List Byte) (prio : BitVec 16) : TEntry := { entry8 1 with key := maskBytes m key8, mask := m, prio := prio }

theorem witness_lookup_tern :
    (let a := rule8 [255, 0, 0, 0, 0, 0, 0, 0] 65535
     let b := rule8 (List.replicate 8 255) 0
     let s := tableIs ternTable { num := 255, desc := ternTable, entries := [b, a] } (hop 0 0 key8)
     dKind (s.tdesc 1 255) = 5 ∧ matching s (s.struct 255 (s.tdesc 1 255)) 1 key8 = [b, a] ∧ b.prio < a.prio)
    ∧ (let s := tableIs ternTable { num := 255, desc := ternTable } (hop 0 0 key8)
       matching s (s.struct 255 (s.tdesc 1 255)) 1 key8 = []) := by
  decide +kernel

/-- A delete of `key8` by thread 0, applied in the present cycle before the insert arrives. -/
def deleted8 : TieWrite := { since := 0, seq := 6, num := 255, tag := 1, thread := 0, hop := 4, del := true, key := key8, result := [] }

theorem witness_table_ties :
    (let s := { tableIs exactTable { num := 255, desc := exactTable } (hop 0 2 (key8 ++ key8)) with tables := { structs := [{ num := 255, desc := exactTable }], cycle := [deleted8] } }
     s.tables.bad = [] ∧ s.tables.cycle = [deleted8] ∧ deleted8.since = s.time.elapsed ∧ (hop 0 2 []).id < deleted8.seq ∧ deleted8.thread ≠ 3327
       ∧ deleted8.hop ≠ 5 ∧ (s.roomFor (s.struct 255 exactTable) key8).isSome = true)
    ∧ (let x : TStruct := { num := 255, desc := exactTable }
       let r := bucketRow exactTable 1 (x.place 1 key8).2
       let s := { tableIs exactTable x (hop 0 2 (key8 ++ key8)) with tables := { structs := [x], bad := (List.range 24576).map (upAll.physBank r.1 * 24576 + ·) } }
       s.badRow r.1 r.2 = true) := by
  decide +kernel

theorem witness_table_writes :
    (let s := tableIs exactTable { num := 255, desc := exactTable } (hop 0 2 (key8 ++ key8))
     s.waitingHop 3327 0 = some (hop 0 2 (key8 ++ key8)) ∧ (hop 0 2 (key8 ++ key8)).data.take (dKeyLen exactTable) = key8
       ∧ 1 ≠ s.accord.staged.toNat ∧ (∀ y ∈ s.tables.structs, y.mirror = false) ∧ s.roomFor (s.struct 255 exactTable) key8 = some (0, 0, 0))
    ∧ (let e : Nat → Nat → TEntry := fun w k => { key := [BitVec.ofNat 8 k], result := key8, born := 1, dead := 1, way := w, bucket := 0, slot := k }
       let s := tableIs exactTable { num := 255, desc := exactTable, entries := (List.range 16).map (e 0) ++ (List.range 16).map (e 1) } (hop 0 2 (key8 ++ key8))
       s.roomFor (s.struct 255 exactTable) key8 = none ∧ (s.bucketsOf (s.struct 255 exactTable) key8).filter (fun e => e.key == key8) = [])
    ∧ (let s := tableIs exactTable { num := 255, desc := exactTable, entries := [entry8 1] } (hop 0 3 key8)
       (s.bucketsOf (s.struct 255 exactTable) key8).filter (fun e => e.key == key8 && s.visible 1 e) = [entry8 1] ∧ (entry8 1).born.toNat = 1) := by
  decide +kernel

/-- A bucket of each way full, and its keys with room elsewhere. -/
def crowded : State :=
  let e : Nat → Nat → TEntry := fun w k => { key := [BitVec.ofNat 8 (w * 16 + k), 0, 0, 0, 0, 0, 0, 0], result := key8, born := 1, dead := 1, way := w, bucket := 0, slot := k }
  let x : TStruct := { num := 255, desc := twoBuckets, entries := (List.range 16).map (e 0) ++ (List.range 16).map (e 1) ++ (List.range 16).map (fun k => { e 0 k with bucket := 1 }) }
  { tableIs twoBuckets x (hop 0 2 key8) with tables := { structs := [x], reloc := [] } }

def keyFull : List Byte := [0, 1, 1, 1, 1, 1, 1, 1]

theorem witness_relocation :
    (let s := { tableIs exactTable { num := 255, desc := exactTable } (hop 0 2 key8) with tables := { reloc := [(255, exactTable, key8)] } }
     ∀ e ∈ s.tables.reloc, e.1 = 255 → (s.roomFor (s.struct 255 e.2.1) e.2.2).isSome = true)
    ∧ crowded.up (37 + dFirst twoBuckets / 8) = true ∧ (crowded.allEntries (crowded.struct 255 twoBuckets)).length * 100 < 95 * dSlots twoBuckets
    ∧ crowded.roomFor (crowded.struct 255 twoBuckets) keyFull = none ∧ (crowded.makeRoom (crowded.struct 255 twoBuckets) keyFull).isSome = true := by
  decide +kernel

/-- A versioned DIRECT table of Accord 2, the staged one. -/
def versionedTable : ObjWord := BitVec.ofNat 384 (2 ^ 124 + 2 ^ 123 + 2 ^ 121 + 64 * 2 ^ 75)

def stagedIs (d old : ObjWord) (t : Tables) : State :=
  { upAll with
    accord := { live := true, current := 1, staged := 2, copy := [(1, { objs := [(objKey 0x50 255, old)] }), (2, { objs := [(objKey 0x50 255, d)] })] }
    tables := t }

theorem witness_engines :
    (let x : TStruct := { num := 255, desc := versionedTable, waiting := [(0, 4088, key8)] }
     let s := stagedIs versionedTable versionedTable { structs := [x] }
     s.up (37 + dFirst (s.tdesc 2 255) / 8) = true ∧ (s.struct 255 (s.tdesc 2 255)).waiting = [(0, 4088, key8)] ∧ s.freeCopy x = some 2
       ∧ s.ycp.deferred = none ∧ ∀ y ∈ s.tables.structs, y.mirror = false)
    ∧ (let s := stagedIs directTable 0 { macerating := [255] }
       255 ∈ s.tables.macerating ∧ dKind (s.tdesc s.accord.current.toNat 255) = 0)
    ∧ (let s := stagedIs lpmTable lpmTable { macerating := [255], structs := [{ num := 255, desc := lpmTable, roots := [(1, some [⟨8, [10], key8⟩])] }] }
       255 ∈ s.tables.macerating ∧ dKind (s.tdesc 2 255) = 3 ∧ sameShape (s.tdesc 1 255) (s.tdesc 2 255) = true ∧ lpmFits (s.tdesc 2 255) 1 = true
         ∧ s.rootOf (s.struct 255 (s.tdesc 1 255)) 2 ≠ [])
    ∧ (let d := directTable - BitVec.ofNat 384 (32 * 2 ^ 75)
       let s := stagedIs d directTable { macerating := [255] }
       dKind (s.tdesc 1 255) = 1 ∧ dKind (s.tdesc 2 255) = 1 ∧ dRows d < dRows directTable)
    ∧ (let s := stagedIs lpmTable exactTable { macerating := [255] }
       255 ∈ s.tables.macerating ∧ 1 ≤ dKind (s.tdesc 1 255) ∧ sameShape (s.tdesc 1 255) (s.tdesc 2 255) = false)
    ∧ (let s := stagedIs twoBuckets twoBuckets { resizing := [255], structs := [{ num := 255, desc := twoBuckets, migr := some ⟨0, 0⟩ }] }
       s.up (37 + dFirst (s.tdesc 2 255) / 8) = true ∧ 255 ∈ s.tables.resizing ∧ ∀ x ∈ s.tables.structs, (x.migr.map (·.oldLog)).getD 0 < 32)
    ∧ (let s := stagedIs exactTable exactTable { sweeping := [15], structs := [{ num := 255, desc := exactTable, entries := [entry8 1] }] }
       (∀ i ∈ [37, 38, 39, 40], s.up i = true) ∧ s.tables.sweeping = [15] ∧ (s.tables.structs.map (fun x => (x.num, x.desc))).Nodup
         ∧ dKind exactTable ≠ 6 ∧ (entry8 1).born.toNat ≠ 15 ∧ s.visible 2 (entry8 1) = true) := by
  decide +kernel

theorem witness_banks :
    (let s : State := { upAll with tables := { replacing := [31] } }
     s.up (37 + 31 / 8) = true ∧ 31 ∈ s.tables.replacing ∧ Memory.wf s.tables.rows = true ∧ s.physBank 31 < 36
       ∧ ((List.range 9).map (fun k => 9 * (31 / 8) + k)).find? (fun p => (s.logicalOf p).isNone) = some 35)
    ∧ upAll.up (37 + 35 / 9) = true
    ∧ (let s : State := { upAll with tables := { corrected := [(35, [24575])], spareRows := [(35, 31)] } }
       Store.get [] s.tables.corrected 35 = [24575] ∧ Store.get 0 s.tables.spareRows 35 < 32 ∧ ∀ b ∈ s.tables.bad, b / 24576 ≠ 35)
    ∧ ({ upAll with tables := { bad := [35 * 24576 + 24575] } } : State).tables.bad = [35 * 24576 + 24575]
    ∧ 32 ≤ Store.get 0 ({ upAll with tables := { spareRows := [(35, 32)] } } : State).tables.spareRows 35 := by
  decide +kernel

theorem witness_ready :
    (let s : State := { upAll with tasks := { task := [(65535, { st := .delayed })], delay := [(2, 65535)] }, time := { ns := 2999 } }
     s.up 42 = true ∧ s.tasks.tickAt + s.tasks.period ≤ s.time.ns.toNat ∧ s.ticksDue = 2 ∧ s.tasks.bad = [] ∧ (s.tasks.delay.map (·.2)).Nodup
       ∧ (∀ n ∈ s.tasks.delay.map (·.2), (s.tsk n).st = .delayed ∧ n ∉ s.tasks.ready)
       ∧ (s.tasks.delay.filter (fun e => decide (e.1 ≤ s.tasks.tick + 2))).map (·.2) = [65535])
    ∧ upAll.time.ns.toNat < upAll.tasks.tickAt + upAll.tasks.period
    ∧ (let s : State := { upAll with tasks := { task := [(65535, { st := .ready })], ready := [65535], tag := some 1 } }
       s.tasks.tag = some 1 ∧ s.recFree.isSome = true ∧ s.readyOrder.find? (fun n => s.taskFits (s.tsk n) 1) = some 65535)
    ∧ (let s := underWay { upAll with tasks := { task := [(65535, { st := .dispatched })] } } 26 42 (.taskBack 65535 true)
       s.arrive 26 42 = some (.taskBack 65535 true) ∧ 65535 ∉ s.tasks.bad ∧ (s.tsk 65535).st = .dispatched)
    ∧ (underWay upAll 26 42 (.marker 15)).arrive 26 42 = some (.marker 15) := by
  decide +kernel

theorem witness_run_ends :
    ∀ how ∈ [RunEnd.consume, .drop, .faulted], ∀ x ∈ ([{ st := .dispatched, armPending := some 4294967295 }, { st := .dispatched },
        { st := .dispatched, period := 4294967295 }, { st := .dispatched, period := 7, rearmFault := true }, { st := .dispatched, cancelled := true }, { st := .dispatched, rearmFault := true, armPending := some 0 }] : List Task),
      let s := underWay { upAll with tasks := { task := [(65535, x)] } } 26 42 (.taskEnd 65535 how 8191 7)
      s.arrive 26 42 = some (.taskEnd 65535 how 8191 7) ∧ 65535 ∉ s.tasks.bad ∧ s.tsk 65535 = x ∧ x.st = .dispatched := by
  decide +kernel

/-- Pool 15 with one buffer in use, as given. -/
def poolIs (b : Buf) (w : Nat) : State :=
  State.modBuf { upAll with live := [(objKey 0x70 15, BitVec.ofNat 384 w), (objKey 0xC0 8, 1)], time := { ns := 2000000000 } } 15 0 (fun _ => b)

/-- Pool 15 enabled, with four buffers of 64 bytes in cell memory. -/
def fourBufs : Nat := 2 ^ 63 + 6 * 2 ^ 57 + 4 * 2 ^ 36

theorem witness_pools :
    (∀ p ∈ [0, 15], (upAll.pool p).badRing = []) ∧ (upAll.pool 15).cached 0 ≤ 32
    ∧ (let s : State := { upAll with pools := { pool := [(0, { ring := { limit := 64 }, cache := [(4, 32)], badRing := [33] })] } }
       (s.pool 0).cached 4 ≤ 32 ∧ ((s.pool 0).refillPlaces ((s.pool 0).cached 4)).filter (fun i => (s.pool 0).badRing.contains ((s.pool 0).ring.slot i)) = [33]
         ∧ (s.pool 0).ring.entry 33 ∉ (s.pool 0).lost)
    ∧ (let s : State := { poolIs { gen := 1 } fourBufs with pools := { pool := [(15, { ring := { limit := 4 }, cache := [(0, 0)] })] } }
       let q := s.pool 15
       q.cached 0 ≤ 32 ∧ (q.refillPlaces (q.cached 0)).map q.ring.slot = [0, 1, 2, 3] ∧ (∀ n ∈ [0, 1, 2, 3], s.poolBad 15 (s.slotAddr 15 n) 8 = false)
         ∧ s.poolDram 15 = false)
    ∧ (({ upAll with pools := { pool := [(0, { ring := { limit := 64 }, cache := [(4, 32)] })] } } : State).pool 0).cached 4 ≤ 32
    ∧ 32 < (({ upAll with pools := { pool := [(15, { ring := { limit := 64 }, cache := [(0, 33)] })] } } : State).pool 15).cached 0
    ∧ (let d : Deferred := { answerTo := { origin := .pcie, opcode := 0x101, tag := 0, issuer := 0, serial := 1 }, wait := .pool 15, cls := 0x70 }
       let s : State := { upAll with ycp := { deferred := some d } }
       s.ycp.deferred = some d ∧ d.wait = .pool 15 ∧ d.rest = [] ∧ d.cls = 0x70 ∧ (s.pool 15).inUse = 0)
    ∧ (let s := poolIs { alloc := true } fourBufs
       s.poolOn 15 = true ∧ s.pools.desc = [] ∧ s.param 8 ≠ 0 ∧ s.usedBufs 15 = [0] ∧ (∀ q ∈ List.range 15, 1 ≤ q → s.usedBufs q = []) ∧ 0 < s.poolCount 15 ∧ (s.buf 15 0).alloc = true
         ∧ (s.buf 15 0).bad = false ∧ (s.buf 15 0).leak = false
         ∧ s.param 8 * 100 < (s.time.ns.toNat / 10000000 + 2 ^ 32 - (s.buf 15 0).time.toNat) % 2 ^ 32)
    ∧ (let s := poolIs { alloc := true, time := 150 } fourBufs
       (s.time.ns.toNat / 10000000 + 2 ^ 32 - (s.buf 15 0).time.toNat) % 2 ^ 32 ≤ s.param 8 * 100) := by
  decide +kernel

/-- The last thread's operation of H6 with handle `h` waits, its record holds packet 7, and these are the pools. -/
def h6 (op : BitVec 4) (acc : W64) (h : W32) (p : Pools) : State :=
  { upAll with
    clusters := [(25, { hops := [{ hop 6 op [] with acc := acc, xb := h, fields := 60, record := 8191 }] })]
    seq := { recs := [(8191, { st := .running, disp := { handle := 0x01000007 } })] }
    pools := p
    live := [(objKey 0x70 15, BitVec.ofNat 384 fourBufs)] }

theorem witness_h6 :
    (let s := h6 0 0 0x01000007 { desc := [(7, { st := .held, gen := 1, metaw := 60 })] }
     let k := s.desc (handleDesc 0x01000007)
     ((s.waitingHop 3327 6).map (·.xb)) = some 0x01000007 ∧ s.up 41 = true ∧ k.bad = false ∧ k.gen.toNat = bits 0x01000007 31 24
       ∧ (s.rcd 8191).disp.handle = 0x01000007 ∧ (s.rcd 8191).gen = 0 ∧ (s.rcd 8191).st = .running ∧ (s.rcd 8191).task = false
       ∧ bits 0x01000007 23 19 = 0 ∧ 0 < metaLen k.metaw ∧ metaLen k.metaw ≤ 60 ∧ s.pools.badCell = [] ∧ k.head = none
       ∧ 14 ≤ 60)
    ∧ ((h6 4 0 0x02000007 {}).desc 7).gen.toNat ≠ bits 0x02000007 31 24
    ∧ (let s := h6 4 0 0x02000008 { desc := [(8, { st := .consumed, gen := 2 })] }
       (s.desc 8).st = .consumed ∧ (s.desc 8).gen.toNat = bits 0x02000008 31 24 ∧ (s.rcd 8191).disp.handle ≠ 0x02000008)
    ∧ (∀ op ∈ [0, 4], (h6 op 0 0x01000007 {}).sentAhead 25 { hop 6 op [] with xb := 0x01000007, fields := 60, record := 8191 } = false
        ∧ (h6 op 0 0x01000007 {}).freeTie 3327 { hop 6 op [] with xb := 0x01000007, fields := 60, record := 8191 } = none)
    ∧ (let f : FreedNow := { since := 0, handle := 0x01000007, master := 3328, hop := 7, seq := 6 }
       (h6 4 0 0x01000007 { freedNow := [f] }).cl 26 = {} ∧
       ({ h6 4 0 0x01000007 { freedNow := [{ f with master := 127 }] } with clusters := [(0, { hops := [{ hop 6 4 [] with id := 7 }] })] } : State).freeTie 5 { hop 6 4 [] with xb := 0x01000007 }
         = some { f with master := 127 }) := by
  decide +kernel

/-- H6 with pool 15 and its buffer 0 as given. -/
def h6Pool (op : BitVec 4) (acc : W64) (h : W32) (b : Buf) : State :=
  State.modBuf (h6 op acc h { pool := [(15, { ring := { limit := 4 } })] }) 15 0 (fun _ => b)

theorem witness_h6_buffers :
    (let s := h6Pool 6 0 0x01F00000 { gen := 1, alloc := true }
     bits 0x01F00000 23 20 = 15 ∧ 0 < s.poolCount 15 ∧ s.poolGone 15 0 = false ∧ s.poolOpen 15 0 = true ∧ (s.buf 15 0).gen.toNat = bits 0x01F00000 31 24
       ∧ (s.buf 15 0).alloc = true ∧ (s.buf 15 0).bad = false)
    ∧ ((h6Pool 6 0 0x01F00000 { gen := 1 }).buf 15 0).alloc = false ∧ ((h6Pool 6 0 0x01F00000 { gen := 1 }).buf 15 0).gen = 1
    ∧ (let s := { h6 6 0 0x01F00000 {} with power := State.reset.power, live := [(objKey 0x70 15, BitVec.ofNat 384 (fourBufs + 2 ^ 62))], dram := (served {}).dram }
       0 < s.poolCount 15 ∧ s.poolGone 15 0 = true)
    ∧ (let s := h6Pool 5 64 0 { gen := 255 }
       s.candidates 64 = [15] ∧ s.poolHas 15 ≠ 0 ∧ (s.pool 15).lost = [] ∧ (s.pool 15).stuck = [] ∧ (s.pool 15).ring.next < (s.pool 15).ring.limit
         ∧ (s.pool 15).cached 0 ≠ 0 ∧ s.poolGone 15 0 = false ∧ s.poolOpen 15 0 = true
         ∧ leVal (s.poolBytes 15 (s.slotAddr 15 0) 8) % 2 ^ 20 = 0 ∧ 0 < s.poolCount 15 ∧ (s.buf 15 0).bad = false) := by
  decide +kernel

/-! ### The Queue Manager and DRAM -/

/-- Queue 262143, the last, lies under port `l0`; it admits 1 KiB and holds `q`; descriptor 7 is a packet of 60 bytes. -/
def queueIs (l0 : Nat) (q : Queue) : State :=
  { upAll with
    qm := { queue := [(262143, q)], objs := [(objKey 0x83 2047, BitVec.ofNat 384 (l0 * 2 ^ 114)), (objKey 0x85 0, BitVec.ofNat 384 (2 ^ 108))]
            child := [(childKey 1 2047, { dcE := 1 }), (childKey 2 16383, { dcE := 1 }), (childKey 3 65535, { dcE := 1 }), (childKey 4 262143, { dcE := 1 })] }
    pools := { desc := [(7, { st := .held, gen := 1, metaw := 60, cells := [0] })], pool := [(0, { ring := { limit := 262144 } })] }
    ports := { port := [(39, { linkUp := true })] }
    live := [(objKey 0x10 39, BitVec.ofNat 384 (2 ^ 24))] }

/-- A packet of 60 bytes handed over to the last queue. -/
def handed (l0 : Nat) (op : BitVec 3) (q : Queue) : State := underWay (queueIs l0 q) 26 36 (.handover 8191 7 op 262143 1 3327 255)

theorem witness_handover :
    (∀ op ∈ ([0, 2, 3] : List (BitVec 3)), ∀ l0 ∈ [39, 40, 41, 42, 43],
      (handed l0 op {}).arrive 26 36 = some (.handover 8191 7 op 262143 1 3327 255) ∧ (handed l0 op {}).l0Of ((262143 : W64).toNat % 2 ^ 18) = l0)
    ∧ (l0Kind 39 = 0 ∧ l0Kind 40 = 1 ∧ l0Kind 41 = 2 ∧ l0Kind 43 = 3)
    ∧ takesWhole (handed 39 0 {}) 262143 60
    ∧ (let s := handed 39 0 { pkts := [{ desc := 8, len := 964, queue := 262143 }] }
       takesWhole s 262143 60 ∧ ((s.desc 7).editedLen.toNat = 60))
    ∧ (let s := handed 39 0 { pkts := [{ desc := 8, len := 965, queue := 262143 }] }
       (s.queue 262143).bad = false ∧ (s.queue 262143).stopped = false ∧ fld (profile s 262143) 127 108 * 1024 < queueDepth (s.queue 262143) + 60)
    ∧ ((handed 39 0 { stopped := true }).queue 262143).stopped = true := by
  unfold takesWhole; decide +kernel

theorem witness_choice :
    let k : QPkt := { desc := 7, len := 60, queue := 262143 }
    let s := queueIs 39 { pkts := [k] }
    s.up 36 = true ∧ s.heldQueues = [262143] ∧ s.l0Of 262143 = 39 ∧ (s.queue 262143).bad = false ∧ (s.queue 262143).pkts = [k]
      ∧ s.leafFree 39 262143 = true ∧ s.l0Free 39 = true ∧ s.peakRate 0 39 = 0
      ∧ (∀ e ∈ (s.pathOf 262143).zipIdx, s.peakRate (e.2 + 1) e.1 = 0 ∧ s.commRate (e.2 + 1) e.1 = 0)
      ∧ (∀ e ∈ (s.pathOf 262143).zipIdx, 0 < (s.child (e.2 + 1) e.1).dcE) ∧ (∃ t, exec (.schedChoice 39) s = .next t) := by
  and_intros <;> first | exact ⟨_, rfl⟩ | decide +kernel

theorem witness_refill :
    let r : Spilled := ⟨0, 0, 60⟩
    let s := { queueIs 39 { spilled := [r] } with dram := (served {}).dram }
    s.up 36 = true ∧ (s.queue 262143).spilled = [r] ∧ (s.queue 262143).pkts = [] ∧ s.dram.bad = [] ∧ s.dram.flips = [] ∧ s.qm.writing = []
      ∧ s.dramGone r.addr ((16 + r.len + 63) / 64 * 64) = false ∧ s.dramOpen r.addr ((16 + r.len + 63) / 64 * 64) = true
      ∧ (s.buildPacket (BitVec.ofNat 64 (leVal (slice (s.dramBytes r.addr 16) 0 8))) (BitVec.ofNat 32 (leVal (slice (s.dramBytes r.addr 16) 8 4)))
          (s.dramBytes (r.addr + 16) r.len)).isSome = true := by
  decide +kernel

/-- Both rings 63 run with one entry posted. -/
def ringsRun (s : State) : State :=
  { s with
    pins := { s.pins with perstN := true, pcieUp := true }
    live := (objKey 0x86 63, BitVec.ofNat 384 (2 ^ 63 + 6 * 2 ^ 58)) :: (objKey 0x87 63, BitVec.ofNat 384 (2 ^ 63 + 6 * 2 ^ 58)) :: s.live
    bar0 := { s.bar0 with tails := [(63, 1), (127, 1)] } }

theorem witness_host_rings :
    (let s := ringsRun (queueIs 39 {})
     s.up 36 = true ∧ s.pcieOn = true ∧ s.ringRuns 0x87 63 = true ∧ s.posted (64 + 63) ≠ 0
       ∧ s.badEntry { addr := 0, len := 13, mid := 0, last := 262143 } = true ∧ s.badEntry { addr := 0, len := 60, mid := 0, last := 262143 } = false
       ∧ (s.buildPacket (BitVec.ofNat 64 (s.accord.current.toNat * 2 ^ 60 + 60)) 0 (slice (List.replicate 60 0) 0 60)).isSome = true)
    ∧ takesWhole (ringsRun (queueIs 39 {})) ((262143 : W32).toNat % 2 ^ 18) 60
    ∧ (let k : QPkt := { desc := 7, len := 60, queue := 262143 }
       let q := queueIs 39 {}
       let s := ringsRun { q with qm := { q.qm with host := [(63, [k])] } }
       let d := s.desc 7
       s.pcieOn = true ∧ Store.get [] s.qm.host 63 = [k] ∧ s.ringRuns 0x86 63 = true ∧ s.posted 63 ≠ 0
         ∧ (leBytes 8 d.metaw.toNat ++ leBytes 4 d.ts.toNat ++ leBytes 4 k.queue ++ List.replicate 16 0 ++ s.packetBytes 7).length ≤ 92 ∧ s.packetBad 7 = none) := by
  unfold takesWhole; decide +kernel

theorem witness_recirculation :
    (let k : QPkt := { desc := 7, len := 60, queue := 262143 }
     let q := queueIs 41 {}
     let s := { q with qm := { q.qm with recirc := [k] } }
     s.up 36 = true ∧ s.qm.recirc = [k] ∧ s.param 0x0B < 40 ∧ s.up (27 + (if s.param 0x0B < 32 then s.param 0x0B / 8 else 0)) = true
       ∧ s.packetBad 7 = none ∧ s.inputUsed 0 + (s.packetBytes 7).length ≤ 65536)
    ∧ (underWay (queueIs 39 {}) 26 36 (.marker 15)).arrive 26 36 = some (.marker 15)
    ∧ (∀ e ∈ (underWay (queueIs 39 {}) 26 36 (.marker 15)).qm.queue, e.2.pkts = [] ∧ e.2.spilled = []) := by
  decide +kernel

/-- Channel 7 of eight of a GiB, so. -/
def chanIs (k : DramChan) : State :=
  { upAll with dram := { n := 8, segs := 16, chan := (List.range 7).map (fun c => (c, { st := .service, gib := 1 })) ++ [(7, k)] } }

/-- A far request of the last thread, or one that only takes its place. -/
def far (k : DramKind) (b : Bool) (quiet : Bool := false) : DramReq :=
  { id := 5, thread := 3327, kind := k, addr := 0x7C0, size := 3, cls := 3, bad := b, since := 0, quiet := quiet }

theorem witness_slots :
    (∀ l ∈ ([[], [(3, 1)]] : List (Store Nat)), ∀ r ∈ [far .load false, far .load true, far .load false true, far .store false],
      let k : DramChan := { st := .service, reads := if r.kind = .load then [r] else [], writes := if r.kind = .load then [] else [r], openRow := l }
      (chanIs k).up (43 + 7) = true ∧ (chanIs k).chan 7 = k ∧ k.preempt = false ∧ k.inbound = [] ∧ k.hold = none ∧ (chanIs k).dram.flips = []
        ∧ (chanIs k).rowHit 7 r = (l != []) ∧ ((chanIs k).place' r.addr).1 = 7)
    ∧ (∀ k ∈ ([{ st := .service, debt0 := 8, mode := 1 }, { st := .service, debt0 := 33, preempt := true, mode := 3 }, { st := .service, debt1 := 4 }] : List DramChan),
        (chanIs k).up (43 + 7) = true ∧ (chanIs k).chan 7 = k ∧ (k.preempt = true ∨ k.reads = [] ∧ k.writes = [] ∧ 0 < max k.debt0 k.debt1))
    ∧ (let k : DramChan := { st := .service, gib := 1, debt0 := 4 }
       k.walk + 1 < k.walkRows ∧ { k with walk := k.walkRows - 1 }.walkRows ≤ { k with walk := k.walkRows - 1 }.walk + 1)
    ∧ (let k : DramChan := { st := .service, gib := 1, sweepDone := false }
       (chanIs k).chan 7 = k ∧ k.debt0 = 0 ∧ k.debt1 = 0 ∧ k.swept < k.gib * 2 ^ 24)
    ∧ (let s := chanIs { st := .service, ranks := 1, debt0 := 28 }
       let m := BitVec.ofNat 2 (Machine.fld (s.obj 0x90 7) 53 52)
       0 < (s.chan 7).ranks.toNat ∧ ((s.chan 7).debt0 + modeQuarters m) * 1 ≤ 32)
    ∧ (let s := chanIs { st := .service, ranks := 1, debt0 := 16, hot := true }
       let m := BitVec.ofNat 2 (Machine.fld (s.obj 0x90 7) 53 52)
       (s.chan 7).debt0 * 2 ≤ 32 ∧ 32 < ((s.chan 7).debt0 + modeQuarters m) * 2) := by
  decide +kernel

theorem witness_dram_channels :
    (let s := chanIs { st := .service }
     (s.chan 7).st ≠ .absent ∧ (s.chan 7).noSensor = false ∧ (s.chan 7).debt0 = 0 ∧ (s.chan 7).debt1 = 0 ∧ (s.chan 7).preempt = false ∧ (s.chan 7).lost = false)
    ∧ ((chanIs { st := .service, sweepDone := false }).chan 7).sweepDone = false ∧ ((chanIs { st := .training }).chan 7).st = .training ∧ (chanIs { st := .training }).dram.decant = none
    ∧ (∀ b ∈ [false, true],
      let q := chanIs { st := .training }
      let s : State := { q with power := { q.power with island := Store.set {} q.power.island 50 { st := .run, blockReset := b } } }
      s.up (43 + 7) = true ∧ (s.isl 50).blockReset = b)
    ∧ (let m : DelayMove := { rank := 1, device := 19, write := true, up := false }
       let k : DramChan := { st := .service, ranks := 2 }
       m.rank < k.ranks.toNat ∧ m.device < (if k.width = 0 then 20 else 10) ∧ sameDelay m { m with up := true } = true) := by
  decide +kernel

theorem witness_scrub :
    (∀ n ∈ [0, 63], let s := chanIs { st := .service, gib := 1, ce := [(0, n)] }
     let x : Upset := { line := 0x7C0 / 64, dq := 3, beat := 7 }
     s.up (43 + 7) = true ∧ (s.chan 7).st = .service ∧ s.dram.bad = [] ∧ s.dram.flips = [] ∧ x.dq < 80 ∧ x.beat < 8 ∧ 64 * x.line < s.dramSize
       ∧ (s.place' (64 * x.line)).1 = 7 ∧ (s.chan 7).unswept ((s.place' (64 * x.line)).2 / 2 ^ 23) = false
       ∧ (s.chan 7).ceHour = s.time.ns.toNat / 3600000000000
       ∧ (let key := (s.chan 7).rankOf (s.place' (64 * x.line)).2 * 32 + symbolDevice (s.chan 7).width (dqBit (s.chan 7).width x.dq x.beat / 16)
          key = 0 ∧ key ∉ (s.chan 7).ceRep ∧ (s.param 0x13 ≤ Store.get 0 (s.chan 7).ce key + 1 ↔ n = 63)))
    ∧ (∀ ph ∈ [DecantPhase.copyOut, .retrain, .copyBack, .aborting], ∀ h ∈ [false, true],
       let q := chanIs { st := .decanted, gib := 1 }
       let d : Decant := { channel := 7, hold := h, phase := ph, chunks := [(0, 6, 127)] }
       let s : State := { q with dram := { q.dram with decant := some d } }
       s.dram.decant = some d ∧ s.moverRuns d = true ∧ s.dram.bad = [] ∧ (s.chan 7).st = .decanted) := by
  decide +kernel

/-! ### Accords, live service and the Fault Collector -/

/-- The reply that a command awaits. -/
def waits (w : Wait) : Deferred := { answerTo := { origin := .pcie, opcode := 0x108, tag := 7, issuer := 15, serial := 1 }, wait := w }

/-- An Accord so; a commit awaits its reply. -/
def accordIs (a : Accord) : State := { upAll with accord := a, ycp := { deferred := some (waits .commit) } }

theorem witness_preparation :
    (let s := accordIs { preparing := true }
     s.accord.preparing = true ∧ s.accord.armed = false ∧ s.up 51 = true ∧ holdsCopies 26 = false ∧ holdsCopies 40 = true ∧ s.inReset 40 = false
       ∧ s.ycp.deferred = some (waits .commit))
    ∧ holdsCopies 25 = true ∧ State.reset.inReset 25 = true
    ∧ (let s := underWay (accordIs { preparing := true, armed := true, staged := 15, current := 14, live := true }) 51 26 (.arm 15)
       s.arrive 51 26 = some (.arm 15) ∧ s.ycp.deferred = some (waits .commit)) := by
  decide +kernel

theorem witness_retirement :
    (let s : State := { accordIs { live := true, current := 2, markers := 8 } with slices := [(3, { tag := some 2 })] }
     s.up 30 = true ∧ s.up 26 = true ∧ s.accord.markers.getLsbD (30 - 27) = true ∧ (s.slc 3).tag = some s.accord.current.toNat ∧ (s.slc 3).oldTag = none)
    ∧ (let s : State := { accordIs { live := true, current := 2, markers := 8 } with slices := [(3, { tag := some 2, oldTag := some 1 })] }
       s.accord.markers.getLsbD (30 - 27) = true ∧ (s.slc 3).oldTag ≠ none)
    ∧ (let s : State := { accordIs { live := true, current := 2, markers := 24 } with power := { upAll.power with island := (26, islandReset 26) :: upAll.power.island }, slices := [(3, { tag := some 2 })], tasks := { tag := some 2 } }
       s.up 30 = true ∧ s.up 42 = true ∧ s.inReset 26 = true ∧ s.accord.markers.getLsbD 4 = true ∧ s.tasks.tag = some s.accord.current.toNat ∧ s.net = [])
    ∧ (let s := underWay (accordIs { live := true, current := 2, markers := 16 }) 42 26 (.task 65535 1)
       s.accord.markers.getLsbD 4 = true ∧ ⟨42, 26, .task 65535 1⟩ ∈ s.net ∧ 1 ≠ s.accord.current.toNat)
    ∧ (let s := accordIs { live := true, current := 0, draining := 15, drainValid := true }
       s.up 26 = true ∧ s.accord.drainValid = true ∧ s.accord.markers = 0 ∧ (∀ e ∈ s.seq.recs, e.2.counts = true → e.2.accord ≠ s.accord.draining))
    ∧ (let s : State := { accordIs { live := true, drainValid := true } with seq := { recs := [(8191, { st := .queued })] } }
       ∃ e ∈ s.seq.recs, e.2.counts = true ∧ e.2.accord = s.accord.draining)
    ∧ upAll.up 25 = true
    ∧ (let s := accordIs { discarding := true }
       s.up 51 = true ∧ s.accord.discarding = true ∧ s.tables.structs = [] ∧ s.tables.macerating = []) := by
  decide +kernel

/-- Cluster 25 so, with an operation that an ACCEPTED command began. -/
def serviceIs (st : BitVec 3) (op : AsyncOp) (i : Island) : State :=
  { upAll with
    clusters := [(25, { svc := { st := st } })]
    power := { upAll.power with island := (25, i) :: upAll.power.island }
    ycp := { up := true, asyncs := [⟨{ origin := .pcie, opcode := 0x600, tag := 7, issuer := 15, serial := 1 }, op⟩] } }

theorem witness_cluster_service :
    (let s := serviceIs 2 (.drain 25) { islandReset 25 with st := .run }
     (s.cl 25).svc.st = 2 ∧ s.runningThreads 25 = 0 ∧ s.net = [])
    ∧ (let s := serviceIs 4 (.clusterReset 25) (islandReset 25)
       s.running (.clusterReset 25) = true ∧ s.inReset 25 = true ∧ (s.isl 25).unlocked = false ∧ (s.isl 25).blockReset = false ∧ s.net = []
         ∧ 24 ≤ s.positionOf 25 ∧ ∀ e ∈ (s.cl 25).chan, e.2.bad = false)
    ∧ (let s := serviceIs 0 (.spareCheck 25) { islandReset 25 with st := .run }
       s.up 25 = true ∧ s.running (.spareCheck 25) = true) := by
  decide +kernel

theorem witness_scrubs :
    (let s : State := { upAll with scrub := { corrected := [(0x680, [8191])] } }
     holdsArray 0x680 = true ∧ s.up (0x680 / 64) = true ∧ Store.get [] s.scrub.corrected 0x680 = [8191] ∧ Store.get 0 s.scrub.spare 0x680 = 0)
    ∧ (let s : State := { upAll with seq := { recs := [(8191, { st := .running })] } }
       s.up 26 = true ∧ 8191 ∉ s.seq.badRec ∧ (s.rcd 8191).st = .running)
    ∧ (let s : State := { upAll with sec := { restart := .reset } }
       s.ycp.up = false ∧ s.up 51 = true ∧ s.sec.restart = .reset ∧ s.sec.recovery = false ∧ s.sec.running = none ∧ s.ycp.late = [] ∧ s.ycp.asyncs = [])
    ∧ (let s : State := { upAll with sec := { restart := .starting 1 (some 0) } }
       s.ycp.up = false ∧ s.up 51 = true ∧ s.sec.restart = .starting 1 (some 0))
    ∧ (∀ l ∈ [[], [1]], let s : State := { upAll with ycp := { up := true }, sec := { restart := .loading 1, written := l } }
       s.ycp.up = true ∧ s.up 51 = true ∧ s.sec.restart = .loading 1 ∧ s.sec.written.contains 1 = !l.isEmpty)
    ∧ (let s : State := { upAll with ycp := { up := true } }
       s.serves = true ∧ (s.issuer 15).reservation < (s.issuer 15).high + 2 ^ 19) := by
  decide +kernel

/-- Island `i` holds one message; its reaction entry is `w`. -/
def outboxIs (i : Nat) (m : FaultMsg) (w : Nat) : State :=
  { upAll with
    faults := { outbox := [(i, { msgs := [m] })] }
    live := [(objKey 0xB0 m.entry, BitVec.ofNat 384 w)]
    pins := { upAll.pins with perstN := true } }

theorem witness_accepted :
    (∀ c ∈ [(0x2000, 1), (0x8000, 4), (0x6000, 3)],
      let m : FaultMsg := { source := 52 * 64, cls := 2, kind := 0xC4 }
      let s := outboxIs 52 m c.1
      s.up 52 = true ∧ s.nextOutbox = some 52 ∧ (outboxOf s 52).msgs = m :: [] ∧ m.entry ∉ s.faults.badEntry ∧ m.kind ≠ 0xC3 ∧ m.cls ≠ 1 ∧ m.conseq = false
        ∧ s.extLag < 4096 ∧ s.ycp.up = false ∧ s.pins.perstN = true ∧ (s.escState (m.source.toNat * 16 + m.cls.toNat)).unacked = 0
        ∧ fld (s.obj 0xB0 (m.source.toNat * 16 + m.cls.toNat)) 15 13 = c.2 ∧ s.faults.chipReset = none ∧ m.source.toNat / 64 = 52
        ∧ s.ycp.deferred = none ∧ s.obs.trace = none ∧ s.underReset 52 = false)
    ∧ (let m : FaultMsg := { source := 25 * 64, cls := 2, kind := 1 }
       let s := { outboxIs 52 m 0x6000 with power := { upAll.power with island := (25, islandReset 25) :: upAll.power.island } }
       s.up 52 = true ∧ fld (s.obj 0xB0 (m.source.toNat * 16 + m.cls.toNat)) 15 13 = 3 ∧ s.underReset (m.source.toNat / 64) = true) := by
  decide +kernel

theorem witness_collector :
    (let s : State := { upAll with faults := { outbox := [(63, { lost := [(2, 7)], lastClass := 2 })] } }
     (outboxOf s 63).msgs.length < 16 ∧ (outboxOf s 63).lost ≠ [])
    ∧ (let s := underWay upAll 25 26 (.ordReq 3327 8191 1 3)
       s.up 26 = true ∧ s.oldest 25 26 = some (.ordReq 3327 8191 1 3) ∧ Store.get 0 s.faults.flitTries (25 * 64 + 26) < 3)
    ∧ (let s := { underWay upAll 25 26 (.ordReq 3327 8191 1 3) with faults := { flitTries := [(25 * 64 + 26, 3)] } }
       s.up 26 = true ∧ s.oldest 25 26 = some (.ordReq 3327 8191 1 3) ∧ 3 ≤ Store.get 0 s.faults.flitTries (25 * 64 + 26))
    ∧ (∀ i ∈ [41, 51],
       let s : State := { upAll with power := { upAll.power with island := (i, { islandReset i with blockReset := true }) :: upAll.power.island } }
       s.inReset i = true ∧ (s.isl i).blockReset = true ∧ (s.isl i).unlocked = false ∧ s.running (.clusterReset i) = false ∧ s.net = [])
    ∧ upAll.serves = false ∧ ({ upAll with ycp := { up := true } } : State).serves = true
    ∧ (let s : State := { served {} with power := { upAll.power with island := (43, { islandReset 43 with blockReset := true }) :: upAll.power.island } }
       s.inReset 43 = true ∧ (s.isl 43).blockReset = true ∧ (s.isl 43).unlocked = false ∧ (s.chan (43 - 43)).st = .service)
    ∧ (let s : State := { upAll with faults := { nextSeq := 1 }, live := [(objKey 0xC0 0x17, 1)], dram := { n := 1, segs := 16, chan := [(0, { st := .service, gib := 1 })] } }
       s.up 52 = true ∧ s.extLag ≠ 0 ∧ s.dramServes (s.param 0x16 * 2 ^ 20 + 32 * (s.faults.extNext.toNat % (32768 * s.param 0x17))) = true)
    ∧ ({ faults := { errPulsing := true, chipReset := some 1 }, ycp := { resetDue := true } } : State).faults.errPulsing = true := by
  decide +kernel

/-! ### Commands of the Yunanath Command Protocol -/

/-- The state in which a packet's command executes, with the transport it came by, where it meets no condition that refuses it. -/
def ran (s : State) (x : Packet) (op : Nat) (sel : Option (Nat × Byte)) (form : List Byte → Bool) : Option (Origin × State) :=
  let k := pktOf x op sel
  match s.takePacket x.via k.bytes with
  | some (some o, t) =>
    if t.verdict o k = .proceed ∧ (t.consume k).permitted o k = true ∧ x.flags &&& 0x5F = 0 ∧ x.rsvd = 0 ∧ form k.params = true
    then some (o, (t.consume k).count (src 51 0) 0x11) else none
  | _ => none

/-- The packet's command executes, in a state of which `p` holds. -/
def met (s : State) (x : Packet) (op : Nat) (sel : Option (Nat × Byte)) (form : List Byte → Bool) (p : Origin → State → Bool) : Bool :=
  (ran s x op sel form).any (fun r => p r.1 r.2)

/-- What `met` answers is a witness for the hypotheses of the statements about commands. -/
theorem met_runs {s : State} {x : Packet} {op : Nat} {sel : Option (Nat × Byte)} {form : List Byte → Bool} {p : Origin → State → Bool}
    (h : met s x op sel form p = true) : ∃ o v, runs s x op sel form o v ∧ p o v = true := by
  unfold met ran at h
  cases e : s.takePacket x.via (pktOf x op sel).bytes with
  | none => simp [e] at h
  | some r =>
    obtain ⟨o, t⟩ := r
    cases o with
    | none => simp [e] at h
    | some o =>
      simp only [e] at h
      split at h
      · next c => exact ⟨o, _, ⟨t, e, c.1, c.2.1, c.2.2.1, c.2.2.2.1, c.2.2.2.2, rfl⟩, by simpa using h⟩
      · simp at h

/-- The device in service over PCIe: the Steward is up, start-up is over, slot 15 may send every command, and a command and a reply entry wait. -/
def serving : State :=
  { upAll with
    pins := { upAll.pins with perstN := true, pcieUp := true, resetN := true }
    startup := { done := [2, 3, 4, 5, 6, 7, 8, 9, 10], bringup := true }
    ycp := { up := true, issuers := [(15, { issuerReset with ctl := 0xA800FFFF })] }
    bar0 := { cmd := { enable := true, tail := 1 }, rpl := { enable := true, tail := 1 } } }

/-- A packet of slot 15 over PCIe with these parameters; `n` is 1 where the command's name stands for a byte of them. -/
def ask (l : List Byte) (n : Nat := 0) : Packet :=
  { via := .pcie ⟨0, BitVec.ofNat 16 (24 + n + l.length), 0⟩ ⟨0, 4160, 0⟩
    flags := 0, tag := 7, issuer := 15, rsvd := 0, serial := 1, params := l, sig := [] }

theorem witness_session :
    met serving (ask []) 0x0001 none (plen 0) (fun _ _ => true) = true
    ∧ met serving (ask []) 0x0002 none (plen 0) (fun _ _ => true) = true
    ∧ (∀ k ∈ ([0, 1, 2, 3] : List Byte), met serving (ask (List.replicate 11 0) 1) 0x0003 (some (0, k)) (plen 12 [(1, 3)])
        (fun _ _ => decide (arg (ask (List.replicate 11 0) 1) (some (0, k)) 4 8 = 0)) = true)
    ∧ (∀ e ∈ ([(1, 0, 2 ^ 24), (1, 1, 2 ^ 24 + 1)] : List (Byte × Byte × Nat)),
        let x := ask ([0, 0, 0, 0, 0, 0, 0, e.1, 0, 0, e.2.1]) 1
        met serving x 0x0003 (some (0, 3)) (plen 12 [(1, 3)]) (fun _ _ => decide ((signed 64 (arg x (some (0, 3)) 4 8)).natAbs = e.2.2)) = true)
    ∧ (∀ b ∈ ([0, 1] : List Byte), met serving (ask [b, 0, 0, 0]) 0x0004 none (plen 4 [(1, 3)]) (fun _ _ => arg (ask [b, 0, 0, 0]) none 0 1 == b.toNat) = true) := by
  decide +kernel

/-- An object command's parameters: class, index, COUNT 1 and the value. -/
def objAt (cls i : Nat) (l : List Byte) : Packet := ask (beBytes 2 cls ++ [0, 0] ++ beBytes 4 i ++ [0, 1, 0, 0] ++ l)

theorem witness_objects :
    (∀ e ∈ [(0xC0, 0x19), (0x60, 65535), (0xC0, 27)],
      let x := objAt e.1 e.2 []
      met serving x 0x0100 none objHead (fun _ v => decide (arg x none 0 2 = e.1 ∧ arg x none 4 4 = e.2 ∧ arg x none 8 2 = 1 ∧ x.params.length = 12
        ∧ after v [6] ∧ v.up 42 = true ∧ 65535 ∉ v.tasks.bad)) = true)
    ∧ met { serving with power := { island := [(51, { islandReset 51 with st := .run })] } } (objAt 0x60 65535 []) 0x0100 none objHead
        (fun _ v => v.inReset 42) = true
    ∧ (∀ n ∈ [49, 50, 10000000, 10000001],
      let x := objAt 0xC0 5 (beBytes 8 n)
      met serving x 0x0101 none objHead (fun _ v => decide (arg x none 12 8 = n ∧ x.params.length = 20 ∧ after v [7])) = true)
    ∧ (∀ e ∈ [(0x2400, true), (0x0000, false), (0x2401, false), (0x8800, false)],
      let x := objAt 0xB0 65535 (beBytes 2 e.1)
      let b := arg x none 12 2
      met serving x 0x0101 none objHead (fun _ v => decide (x.params.length = 14 ∧ v.up 52 = true ∧ (e.2 = true ↔ bits b 5 0 = 0 ∧ 1 ≤ bits b 15 13 ∧ bits b 15 13 ≤ bits b 12 10
        ∧ bits b 12 10 ≤ 4 ∧ (65535 / 1024 = 63 → bits b 15 13 ≠ 3 ∧ bits b 12 10 ≠ 3)))) = true)
    ∧ met serving (objAt 0xA0 0 [0, 0, 0, 0, 0, 0, 0, 0]) 0x0101 none objHead (fun _ _ => true) = true
    ∧ (∀ n ∈ [0, 1, 2 ^ 24 - 1, 2 ^ 24],
      let x := objAt 0x33 63 (beBytes 4 n)
      met serving x 0x0102 none objHead (fun _ v => decide (arg x none 12 4 = n ∧ x.params.length = 16 ∧ after v [6] ∧ v.accord.discarding = false)) = true)
    ∧ met serving (objAt 0xC0 26 (beBytes 8 0)) 0x0102 none objHead (fun _ _ => true) = true := by
  decide +kernel

theorem witness_islands :
    let i (st : IslandState) : Island := { islandReset 52 with st := st, target := some (1000, 750) }
    let d : Deferred := { waits (.island 52) with cls := 0x10 }
    (let s : State := { upAll with power := { island := [(52, i .relocking)] }, ycp := { deferred := some d } }
     (s.isl 52).st = .relocking ∧ (s.isl 52).target = some (1000, 750) ∧ s.ycp.deferred = some d ∧ d.wait = .island 52 ∧ d.rest = [])
    ∧ (let s : State := { upAll with power := { island := [(52, i .run)], waiting := [.island 52] } }
       s.power.waiting = .island 52 :: [] ∧ (s.isl 52).st = .run ∧ (s.isl 52).target.isSome = true) := by
  decide +kernel

theorem witness_accord_commands :
    (∀ b ∈ [false, true], ∀ e ∈ ([{ drainValid := true }, { preparing := true }, { live := true }] : List Accord),
      met { serving with accord := e, startup := { serving.startup with bringup := b } } (ask []) 0x0108 none (plen 0)
        (fun _ v => decide (v.accord = e ∧ v.accord.discarding = false ∧ v.startup.bringup = b)) = true)
    ∧ (∀ w ∈ ([{ st := 1, target := 2 }, { st := 1, target := 1, selector := 0 }, { st := 1, target := 3 }, { st := 1, target := 0, selector := 1 }] : List Window),
      met { serving with accord := { live := true }, ycp := { serving.ycp with windows := [(15, w)] } } (ask []) 0x0108 none (plen 0)
        (fun _ v => decide (v.accord.drainValid = false ∧ v.accord.preparing = false ∧ v.tables.sweeping = [] ∧ v.tables.macerating = []
          ∧ v.ycp.windows = [(15, w)] ∧ v.inReset 26 = false ∧ v.inReset 42 = false ∧ v.accord.live = true)) = true)
    ∧ (∀ b ∈ [false, true], met { serving with accord := { discarding := b } } (ask []) 0x0109 none (plen 0)
        (fun _ v => decide (v.accord.discarding = b ∧ fewer v (ask []))) = true)
    ∧ met { serving with ycp := { serving.ycp with asyncs := List.replicate 8 ⟨{ origin := .pcie, opcode := 0x600, tag := 7, issuer := 15, serial := 1 }, .extrait⟩ } }
        (ask []) 0x0109 none (plen 0) (fun _ v => decide (¬ fewer v (ask []))) = true := by
  decide +kernel

/-- Task 65535 so. -/
def taskIs (y : Task) : State := { serving with tasks := { task := [(65535, y)] } }

theorem witness_task_create :
    ∀ b ∈ ([0, 0x80] : List Byte),
      let x := ask (b :: List.replicate 15 0)
      met serving x 0x0110 none (plen 16) (fun _ v => decide (v.up 42 = true ∧ after v [6] ∧ v.tasks.bad = [] ∧ Store.wf ({} : Task) v.tasks.task = true
        ∧ (v.tsk 0).st = .free ∧ bits (arg x none 0 16) 87 64 = 0 ∧ (bits (arg x none 0 16) 127 115 = 0 ↔ b = 0))) = true := by
  decide +kernel

theorem witness_task_handles :
    ∀ y ∈ ([{ st := .free }, { st := .idle }, { st := .idle, cancelAt := some 0 }, { st := .delayed }, { st := .ready }, { st := .dispatched }, { gen := 1 }] : List Task),
      (∀ d ∈ ([0, 0xFF] : List Byte),
        let x := ask [0, 0, 0xFF, 0xFF, d, d, d, d]
        met (taskIs y) x 0x0111 none (plen 8) (fun _ v => decide (arg x none 0 4 = 65535 ∧ v.tsk 65535 = y ∧ v.time.elapsed = 0 ∧ v.up 42 = true ∧ after v [6] ∧ v.tasks.bad = [])) = true)
      ∧ (∀ op ∈ [0x0112, 0x0113, 0x0114], met (taskIs y) (ask [0, 0, 0xFF, 0xFF]) op none (plen 4) (fun _ v => decide (v.tsk 65535 = y ∧ v.inReset 26 = false)) = true) := by
  decide +kernel

theorem witness_task_abort :
    (∀ st ∈ [RecState.committed, .running],
      let y : Rec := { st := st, task := true, taskId := 65535, thread := 3327 }
      met { taskIs { st := .dispatched } with seq := { recs := [(8191, y)] } } (ask [0, 0, 0xFF, 0xFF]) 0x0113 none (plen 4)
        (fun _ v => decide (v.inReset 26 = false ∧ (v.tsk 65535).st = .dispatched ∧ v.seq.recs = [(8191, y)] ∧ y.task = true ∧ y.taskNo = 65535 ∧ y.placed = false)) = true)
    ∧ (∀ m ∈ ([[], [⟨26, 42, .taskEnd 65535 .consume 8191 7⟩], [⟨42, 26, .task 65535 1⟩], [⟨26, 42, .taskBack 65535 true⟩]] : List (List Crossing)),
      met { taskIs { st := .dispatched } with net := m } (ask [0, 0, 0xFF, 0xFF]) 0x0113 none (plen 4)
        (fun _ v => decide (v.inReset 26 = false ∧ (v.tsk 65535).st = .dispatched ∧ v.seq.recs = [] ∧ v.net = m)) = true) := by
  decide +kernel

/-- Pool 15 enabled with four 64-byte buffers in cell memory, or with `d` in DRAM, of which the last is so. -/
def poolOf (q : Pool) (b : Buf := {}) (d : Nat := 0) (c : DramChan := {}) : State :=
  State.modBuf { serving with live := [(objKey 0x70 15, BitVec.ofNat 384 (fourBufs + d * 2 ^ 62))], pools := { pool := [(15, q)] }, dram := (served c).dram } 15 3 (fun _ => b)

theorem witness_buffers :
    met (poolOf { ring := { limit := 4 } }) (ask [0, 0, 0, 64]) 0x0118 none (plen 4) (fun _ v => decide (after v [7] ∧ v.up 41 = true ∧ arg (ask [0, 0, 0, 64]) none 0 4 = 64
        ∧ v.candidates 64 = [15] ∧ v.poolHas 15 ≠ 0 ∧ (v.pool 15).lost = [] ∧ (v.pool 15).stuck = [] ∧ (v.pool 15).ring.next < (v.pool 15).ring.limit
        ∧ (v.pool 15).cached 0 ≠ 0 ∧ v.poolGone 15 0 = false ∧ v.poolOpen 15 0 = true ∧ leVal (v.poolBytes 15 (v.slotAddr 15 0) 8) % 2 ^ 20 = 0
        ∧ 0 < v.poolCount 15 ∧ (v.buf 15 0).bad = false)) = true
    ∧ met (poolOf {}) (ask [0, 0, 0, 65]) 0x0118 none (plen 4) (fun _ v => decide (v.candidates (arg (ask [0, 0, 0, 65]) none 0 4) = [])) = true
    ∧ (∀ b ∈ ([{ gen := 1, alloc := true }, { gen := 1 }, { gen := 2, alloc := true }] : List Buf),
      met (poolOf { ring := { limit := 4 } } b) (ask [1, 0xF0, 0, 3]) 0x0119 none (plen 4)
        (fun _ v => decide (v.buf 15 3 = b ∧ b.bad = false ∧ v.poolGone 15 3 = false ∧ v.poolOpen 15 3 = true
          ∧ arg (ask [1, 0xF0, 0, 3]) none 0 4 = 0x01F00003 ∧ bits 0x01F00003 23 20 = 15 ∧ bits 0x01F00003 19 0 = 3)) = true)
    ∧ met (poolOf { ring := { limit := 4 } } {} 1 { preempt := true }) (ask [1, 0xF0, 0, 3]) 0x0119 none (plen 4)
        (fun _ v => decide (v.poolGone 15 3 = false ∧ v.poolOpen 15 3 = false)) = true
    ∧ met { poolOf { ring := { limit := 4 } } {} 1 with power := { island := [(51, { islandReset 51 with st := .run }), (41, { islandReset 41 with st := .run })] } }
        (ask [1, 0xF0, 0, 3]) 0x0119 none (plen 4) (fun _ v => decide (v.poolGone 15 3 = true ∧ v.up 41 = true)) = true
    ∧ met (poolOf {}) (ask [1, 0x0F, 0, 15]) 0x0119 none (plen 4) (fun _ _ => bits (arg (ask [1, 0x0F, 0, 15]) none 0 4) 23 20 == 0) = true
    ∧ (∀ k ∈ ([{ st := .consumed, gen := 1 }, { st := .held, gen := 1 }, { gen := 1 }, { st := .consumed, gen := 2 }] : List Desc),
      met { serving with pools := { desc := [(524287, k)] } } (ask [1, 7, 0xFF, 0xFF]) 0x011A none (plen 4)
        (fun _ v => decide (v.desc (arg (ask [1, 7, 0xFF, 0xFF]) none 0 4 % 2 ^ 19) = k ∧ k.bad = false ∧ bits (arg (ask [1, 7, 0xFF, 0xFF]) none 0 4) 23 19 = 0)) = true)
    ∧ met serving (ask [1, 8, 0, 0]) 0x011A none (plen 4) (fun _ v => decide (bits (arg (ask [1, 8, 0, 0]) none 0 4) 23 19 ≠ 0 ∧ (v.desc 0).bad = false)) = true := by
  decide +kernel

/-- Lock 65535 so, for the host. -/
def hostLock (l : Lock) : State := { serving with tables := { locks := [(65535, l)] } }

theorem witness_host_locks :
    (∀ l ∈ ([{}, { abandoned := true }, { held := true, owner := 7 }, { held := true, owner := 0x200F }, { broken := true }] : List Lock),
      (∀ n ∈ [1, 60000],
        let x := ask ([0xFF, 0xFF, 0, 0] ++ beBytes 4 n)
        met (hostLock l) x 0x0120 none (plen 8 [(2, 2)]) (fun o v => decide (after v [6] ∧ arg x none 0 2 = 65535 ∧ 1 ≤ arg x none 4 4 ∧ arg x none 4 4 ≤ 60000
          ∧ v.up 40 = true ∧ v.tables.badLocks = [] ∧ v.lock 65535 = l ∧ o.master 15 = 0x200F)) = true)
      ∧ (∀ op ∈ [0x0121, 0x0122], met (hostLock l) (ask [0xFF, 0xFF, 0, 0]) op none (plen 4 [(2, 2)])
          (fun _ v => decide (v.lock 65535 = l ∧ l.queue = [] ∧ v.tables.expired = [])) = true))
    ∧ (∀ n ∈ [0, 60001],
      let x := ask ([0xFF, 0xFF, 0, 0] ++ beBytes 4 n)
      met serving x 0x0120 none (plen 8 [(2, 2)]) (fun _ _ => decide (arg x none 4 4 = 0 ∨ 60000 < arg x none 4 4)) = true)
    ∧ met { serving with power := { island := [(51, { islandReset 51 with st := .run })] } } (ask [0xFF, 0xFF, 0, 0]) 0x0122 none (plen 4 [(2, 2)])
        (fun _ v => v.inReset 40) = true := by
  decide +kernel

theorem witness_packet_numbers :
    let l (k : Nat) : List Byte := [0, 0, 0x27, 0x80, 0, 0, 0] ++ beBytes 8 k ++ [0, 0, 0, 1]
    let sel (k : Nat) : Option (Nat × Byte) := some (4, BitVec.ofNat 8 k)
    met serving (ask (l 0) 1) 0x0128 (sel 0) (plen 20 [(5, 3)]) (fun _ v => decide (after v [8] ∧ arg (ask (l 0) 1) (sel 0) 0 4 = 10112 ∧ 10112 / 4 % 64 ≤ 32 ∧ v.up (31 + 10112 / 256 / 8) = true)) = true
    ∧ (∀ e ∈ [(2 ^ 32 - 1, 0, 0), (2 ^ 32 - 1, 2 ^ 31, 1), (2 ^ 32, 0, 0), (2 ^ 64 - 1, 2 ^ 30, 0)],
      met { serving with live := [(objKey 0x15 10112, BitVec.ofNat 384 e.2.1)] } (ask (l e.1) 1) 0x0128 (sel 1) (plen 20 [(5, 3)])
        (fun _ v => decide (arg (ask (l e.1) 1) (sel 1) 8 8 = e.1 ∧ Machine.fld (v.obj 0x15 10112) 31 31 = e.2.2)) = true) := by
  decide +kernel

/-! ### Windows and tables from the host -/

/-- Window 15 so. -/
def windowIs (w : Window) : State :=
  { serving with ycp := { serving.ycp with windows := [(15, w)] }, dram := { n := 1, segs := 16, chan := [(0, { st := .service, gib := 1 })] } }

/-- PORT_OPEN of window 15: target, direction, start, length. -/
def opening (target dir : Byte) (start len : Nat) : Packet :=
  ask ([15, target, dir, 0, 0, 0, 0, 0] ++ beBytes 8 start ++ beBytes 8 len ++ [0, 0, 0, 0, 0, 8, 14, 16])

theorem witness_port_open :
    (∀ d ∈ ([0, 1] : List Byte), ∀ a ∈ ([{}, { drainValid := true }] : List Accord),
      let x := opening 0 d 0 262144
      met { windowIs {} with accord := a } x 0x0200 none (plen 32 [(3, 1)]) (fun _ v => decide (arg x none 0 1 = 15 ∧ after v [7, 9] ∧ arg x none 2 1 = d.toNat ∧ arg x none 16 8 = 262144
        ∧ arg x none 24 4 = 0 ∧ arg x none 28 2 = 8 ∧ arg x none 30 2 = 3600 ∧ (v.win 15).st = 0 ∧ v.accord = a)) = true)
    ∧ (∀ st ∈ ([0, 1, 2] : List (BitVec 2)),
      let x := opening 4 1 (2 ^ 30 - 1) 1
      met (windowIs { st := st }) x 0x0200 none (plen 32 [(3, 1)]) (fun _ v => decide (arg x none 1 1 = 4 ∧ arg x none 4 4 = 0 ∧ arg x none 8 8 + arg x none 16 8 ≤ v.dramSize
        ∧ (v.win 15).st = st)) = true) := by
  decide +kernel

/-- DATA of window 15: one byte at an offset. -/
def dataAt (off : Nat) (l : List Byte) : Packet := ask ([15, 0, 0, 1] ++ beBytes 8 off ++ l)

theorem witness_data :
    let f (p : List Byte) : Bool := decide (12 ≤ p.length) && zeroBytes (slice p 1 1)
    (∀ e ∈ ([({}, 0), ({ st := 1, owner := 3 }, 0), ({ st := 1, owner := 15, length := 64 }, 64), ({ st := 1, owner := 15, length := 65 }, 64)] : List (Window × Nat)),
      let x := dataAt e.2 [0xFF]
      met (windowIs e.1) x 0x0201 none f (fun _ v => decide (v.win 15 = e.1 ∧ arg x none 2 2 = 1 ∧ arg x none 4 8 = e.2 ∧ x.params.length = 12 + 1 ∧ v.accord.discarding = false)) = true)
    ∧ (let w : Window := { st := 2, owner := 15, target := 4, length := 1 }
       met (windowIs w) (dataAt 0 []) 0x0201 none f (fun _ v => decide (v.win 15 = w ∧ (dataAt 0 []).params.length = 12 ∧ v.dram.bad = [] ∧ v.dram.flips = []
         ∧ v.dramRefuses (w.addrs 0 1) = none ∧ v.dramWaits (w.addrs 0 1) = false)) = true
       ∧ met { windowIs w with dram := (served { preempt := true }).dram } (dataAt 0 []) 0x0201 none f (fun _ v => decide (v.dramRefuses (w.addrs 0 1) = none ∧ v.dramWaits (w.addrs 0 1) = true)) = true
       ∧ met { windowIs w with power := { island := [(51, { islandReset 51 with st := .run })] } } (dataAt 0 []) 0x0201 none f (fun _ v => (v.dramRefuses (w.addrs 0 1)).isSome) = true) := by
  decide +kernel

/-- PORT_CLOSE of window 15 with a digest. -/
def closing (d : List Byte) : Packet := ask ([15, 0, 0, 0] ++ d)

theorem witness_port_close :
    let zero : List Byte := List.replicate 64 0
    (∀ w ∈ ([{}, { st := 1, owner := 3 }, { st := 2, owner := 15 }, { st := 1, owner := 15, target := 4, cursor := 1 }, { st := 1, owner := 15, target := 4, error := true },
        { st := 1, owner := 15, target := 4 }] : List Window),
      met (windowIs w) (closing zero) 0x0202 none (plen 68 [(1, 3)]) (fun _ v => decide (v.win 15 = w ∧ w.expired ≠ some v.time.elapsed ∧ zeroBytes (argBytes (closing zero) none 4 64) = true
        ∧ (w.cursor = 1 → w.solid < w.cursor) ∧ (w.cursor = 0 → w.solid = w.cursor))) = true)
    ∧ (∀ w ∈ ([{}, { st := 2, owner := 3 }, { st := 2, owner := 15 }] : List Window), met (windowIs w) (ask [15, 0, 0, 0]) 0x0203 none (plen 4 [(1, 3)]) (fun _ v => decide (v.win 15 = w)) = true) := by
  decide +kernel

/-- The SHA-512 digest of no bytes, as the standard's test vectors give it. -/
def digestOfNothing : List Byte :=
  [0xCF, 0x83, 0xE1, 0x35, 0x7E, 0xEF, 0xB8, 0xBD, 0xF1, 0x54, 0x28, 0x50, 0xD6, 0x6D, 0x80, 0x07, 0xD6, 0x20, 0xE4, 0x05, 0x0B, 0x57, 0x15, 0xDC, 0x83, 0xF4, 0xA9, 0x21, 0xD3, 0x6C, 0xE9, 0xCE,
   0x47, 0xD0, 0xD1, 0x3C, 0x5D, 0x85, 0xF2, 0xB0, 0xFF, 0x83, 0x18, 0xD2, 0x87, 0x7E, 0xEC, 0x2F, 0x63, 0xB9, 0x31, 0xBD, 0x47, 0x41, 0x7A, 0x81, 0xA5, 0x38, 0x32, 0x7A, 0xF9, 0x27, 0xDA, 0x3E]

theorem test_sha512_of_nothing : sha512 [] = digestOfNothing := by decide +kernel

/-- A window over a program bank whose vectors lie in the bank. -/
def bankWindow : Window :=
  { st := 1, owner := 15, bytes := (List.range 0x43).flatMap (fun w => [(4 * w, (0x50 : Byte))]) }

theorem witness_close_digest :
    (∀ w ∈ ([{ st := 1, owner := 15, target := 4 }, bankWindow] : List Window),
      met (windowIs w) (closing digestOfNothing) 0x0202 none (plen 68 [(1, 3)]) (fun _ v => decide (v.win 15 = w ∧ w.solid = w.cursor
        ∧ mread (v.win 15).bytes 0 (v.win 15).cursor = [] ∧ argBytes (closing digestOfNothing) none 4 64 = digestOfNothing ∧ v.accord.discarding = false)) = true)
    ∧ bankOk bankWindow.bytes = true ∧ digestOfNothing ≠ argBytes (closing (List.replicate 64 0)) none 4 64 := by
  decide +kernel

theorem witness_bar2 :
    (∀ c ∈ [false, true],
      let w : Window := { st := 1, viaPcie := true, length := 2, cursor := 1 }
      (windowIs w).pcieOn = true ∧ (windowIs w).win 15 = w ∧ (windowIs w).accord.discarding = false ∧ 1 = w.cursor % 2 ^ 22 ∧ w.cursor + [c].length ≤ w.length)
    ∧ (let w : Window := { st := 1, viaPcie := true, length := 1, cursor := 1 }
       (windowIs w).win 15 = w ∧ w.length < w.cursor + 1)
    ∧ (let w : Window := { st := 2, viaPcie := true, length := 2 ^ 22 + 1, cursor := 2 ^ 22 }
       (windowIs w).win 15 = w ∧ 0 = w.cursor % 2 ^ 22 ∧ w.cursor + 1 ≤ w.length ∧ (windowIs w).serves = true)
    ∧ ((windowIs {}).win 15).st = 0
    ∧ (({ serving with ycp := { serving.ycp with i2c := { st := 2 } } } : State).ycp.i2c.st = 2 ∧ serving.ycp.i2c.st ≠ 2 ∧ serving.ycp.up = true) := by
  decide +kernel

/-- The Steward serves; Accord 1 is current and describes table 255 so. -/
def tableFor (d : ObjWord) (x : TStruct) : State :=
  { serving with
    accord := { live := true, current := 1, staged := 2, copy := [(1, { objs := [(objKey 0x50 255, d)] }), (2, { objs := [(objKey 0x50 255, d)] })] }
    tables := { structs := [x] } }

/-- A table command of the live Accord with this record. -/
def record (l : List Byte) : Packet := ask ([255, 1] ++ beBytes 2 l.length ++ l)

theorem witness_host_tables :
    let f (p : List Byte) : Bool := decide (4 ≤ p.length)
    let here (v : State) (d : ObjWord) (x : Packet) : Prop := arg x none 0 1 = 255 ∧ arg x none 1 1 = 1 ∧ x.params.length = 4 + arg x none 2 2 ∧ after v [6] ∧ v.accord.live = true
      ∧ v.accord.current ≠ v.accord.staged ∧ v.tdesc 1 255 = d ∧ v.up (37 + dFirst d / 8) = true ∧ dBanks d = 1 ∧ (∀ y ∈ v.tables.structs, y.mirror = false)
    (let x := record ([0, 0, 0, 0, 0, 0, 0x0F, 0xF8] ++ key8)
     met (tableFor directTable { num := 255, desc := directTable }) x 0x0300 none f (fun _ v => decide (here v directTable x ∧ dKind directTable = 1 ∧ dVersioned directTable = false
       ∧ beVal (slice (x.params.drop 4) 4 4) + 8 = 64 * dRows directTable)) = true)
    ∧ (let x := record (key8 ++ key8)
       met (tableFor exactTable { num := 255, desc := exactTable }) x 0x0300 none f (fun _ v => decide (here v exactTable x ∧ dKind exactTable = 2 ∧ dWriters exactTable ≠ 0
         ∧ (x.params.drop 4).length = dKeyLen exactTable + dResLen exactTable ∧ v.roomFor (v.struct 255 exactTable) key8 = some (0, 0, 0))) = true)
    ∧ (∀ e ∈ [[], [entry8 1]],
       met (tableFor exactTable { num := 255, desc := exactTable, entries := e }) (record key8) 0x0301 none f (fun _ v => decide (here v exactTable (record key8)
         ∧ (v.bucketsOf (v.struct 255 exactTable) key8).filter (fun e => e.key == key8 && v.visible 1 e) = e ∧ (entry8 1).born.toNat = 1)) = true)
    ∧ (let d := exactTable - 2 ^ 121
       met (tableFor d { num := 255, desc := d }) (record (key8 ++ key8)) 0x0300 none f (fun _ v => decide (here v d (record (key8 ++ key8)) ∧ dKind d = 2 ∧ dWriters d = 0)) = true)
    ∧ met (tableFor directTable { num := 255, desc := directTable }) (record key8) 0x0301 none f (fun _ _ => true) = true
    ∧ (∀ e ∈ [[], [entry8 1]],
       met (tableFor exactTable { num := 255, desc := exactTable, entries := e }) (record key8) 0x0302 none f (fun _ v => decide (v.tdesc 1 255 = exactTable ∧ v.tables.bad = []
         ∧ v.tagRank 1 ≠ 0 ∧ (∀ z ∈ v.bucketsOf (v.struct 255 exactTable) key8, v.visible 1 z = true → z = entry8 1 ∧ e ≠ []) ∧ (entry8 1).result.length ≤ 512
         ∧ (v.defaultResult 1 255).length ≤ 512)) = true)
    ∧ met { tableFor exactTable {  num := 255, desc := exactTable } with accord := { staged := 2 } } (record key8) 0x0302 none f (fun _ v => decide (v.tagRank 1 = 0 ∧ 37 ≤ 40)) = true := by
  decide +kernel

/-- Accord 1 is current and Accord 2 staged, with these descriptors of table 255. -/
def stagedFor (d n : ObjWord) (t : Tables) : State :=
  { serving with
    accord := { live := true, current := 1, staged := 2, copy := [(1, { objs := [(objKey 0x50 255, d)] }), (2, { objs := [(objKey 0x50 255, n)] })] }
    tables := t }

theorem witness_maceration_and_resize :
    let x := ask [255, 0, 0, 0]
    (∀ e ∈ ([(exactTable, {}), (twoBuckets, {}), (twoBuckets, { macerating := [255] })] : List (ObjWord × Tables)),
      met (stagedFor exactTable e.1 e.2) x 0x0308 none (plen 4 [(1, 3)]) (fun _ v => decide (arg x none 0 1 = 255 ∧ after v [6] ∧ v.accord.discarding = false
        ∧ v.tdesc 2 255 = e.1 ∧ v.tdesc 1 255 = exactTable ∧ v.tables = e.2 ∧ dBanks e.1 = 1 ∧ v.up (37 + dFirst e.1 / 8) = true ∧ fewer v x)) = true)
    ∧ (let d : ObjWord := exactTable + BitVec.ofNat 384 (1024 * 2 ^ 75)
       ∀ t ∈ ([{}, { resizing := [255] }] : List Tables),
         met (stagedFor d d t) x 0x0309 none (plen 4 [(1, 3)]) (fun _ v => decide (v.tables = t ∧ dKind (v.tdesc 1 255) = 2 ∧ fewer v x ∧ v.keptTags = [1, 2]
           ∧ v.mayDouble 255 (v.tdesc 1 255) = true ∧ v.tdesc 1 255 = v.tdesc 2 255 ∧ dBanks d = 1 ∧ v.up (37 + dFirst d / 8) = true)) = true)
    ∧ met (stagedFor directTable directTable {}) x 0x0309 none (plen 4 [(1, 3)]) (fun _ v => decide (dKind (v.tdesc 1 255) = 1)) = true := by
  decide +kernel

/-! ### Faults, observation, live service, security and the debugger from the host -/

theorem witness_fault_ack :
    let x := ask [0x0D, 0, 2, 0, 0x80, 0, 0, 0]
    let c (n : Nat) : Capture := { valid := true, msg := { source := 0xD00, cls := 2, seq := BitVec.ofNat 32 n } }
    ∀ a ∈ [(0, true), (0x80000000, true), (1, true), (0, false)], ∀ b ∈ [(0x80000000, true), (0, false)],
      met { serving with faults := { esc := [(0xD002, { level := 3, unacked := if a.2 then 1 else 0, lastSeq := BitVec.ofNat 32 a.1 })], capture := [(0xD00, c b.1)] } } x 0x0400 none (plen 8 [(3, 1)])
        (fun _ v => decide (arg x none 0 2 = 0xD00 ∧ arg x none 2 1 = 2 ∧ v.inReset 52 = false
          ∧ ((v.escState 0xD002).unacked ≠ 0 ∧ ((0x80000000 : W32) - (v.escState 0xD002).lastSeq).toNat < 2 ^ 31 ↔ a = (0x80000000, true) ∨ a = (1, true))
          ∧ (((0x80000000 : W32) - (v.capture 0xD00).msg.seq).toNat < 2 ^ 31 ↔ b.2 = true))) = true := by
  decide +kernel

theorem witness_slot_resolve :
    ∀ k ∈ ([0, 1] : List Byte), ∀ y ∈ ([{ gen := 1 }, { st := .running }, { st := .held, safe := true }, { st := .held, safe := true, struck := true },
        { st := .held, safe := true, accord := 2 }] : List Rec),
      let x := ask [0x1F, 0xFF, 0] 1
      met { serving with accord := { live := true }, seq := { recs := [(8191, y)] } } x 0x0401 (some (3, k)) (plen 4)
        (fun _ v => decide (arg x (some (3, k)) 0 2 = 8191 ∧ arg x (some (3, k)) 2 1 = 0 ∧ v.rcd 8191 = y ∧ v.inReset 26 = false)) = true := by
  decide +kernel

/-- Record 8191 was HELD until its HOLD_LIMIT dropped it in the present instant, and before it. -/
theorem witness_slot_expired :
    ∀ k ∈ ([0, 1] : List Byte), ∀ l ∈ ([[(8191, 0, 0)], [(8191, 0, 1)]] : List (List (Nat × BitVec 8 × Nat))),
      met { serving with seq := { expired := l } } (ask [0x1F, 0xFF, 0] 1) 0x0401 (some (3, k)) (plen 4) (fun _ v => decide (v.seq.expired = l
        ∧ (v.rcd 8191).gen = 0 ∧ (v.rcd 8191).st ≠ .held ∧ v.time.elapsed = 0)) = true := by
  decide +kernel

theorem witness_observation :
    (∀ e ∈ ([0x10, 0x1A] : List Byte), let x := ask [6, 0x80, 0, e, 0, 1, 0, 0]
      met serving x 0x0500 none (plen 8 [(6, 2)]) (fun _ v => decide (v.up 52 = true ∧ arg x none 0 2 = 26 * 64 ∧ arg x none 4 2 = 1 ∧ arg x none 2 2 = e.toNat)) = true)
    ∧ (∀ n ∈ ([7, 8] : List Byte), let x := ask [6, 0x80, n, 0, 0, 0x1A, 0, 0]
      met serving x 0x0501 none (plen 8 [(3, 1), (6, 2)]) (fun _ _ => decide (arg x none 2 1 = n.toNat ∧ arg x none 4 2 = 0x1A)) = true)
    ∧ met { serving with obs := { window := (List.range 8).map (fun n => (26 * 64 * 8 + n, { event := 0x10 })) } } (ask [6, 0x80, 0, 0]) 0x0502 none (plen 4 [(2, 2)])
        (fun _ v => decide (∀ n ∈ List.range 8, (Store.get ({} : WinCounter) v.obs.window (26 * 64 * 8 + n)).event ≠ 0)) = true
    ∧ (∀ n ∈ [0, 1, 8192, 8193], let x := ask (beBytes 4 (6 * 2 ^ 24) ++ beBytes 4 (63 * 2 ^ 26 + n))
      met serving x 0x0503 none (plen 8) (fun _ _ => decide (arg x none 0 4 = 6 * 2 ^ 24 ∧ arg x none 4 4 / 2 ^ 26 = 63 ∧ arg x none 4 4 % 2 ^ 26 = n)) = true)
    ∧ (let x := ask ([0, 0, 0, 0, 0, 0, 0] ++ beBytes 4 1023 ++ beBytes 4 1) 1
       met (windowIs {}) x 0x0504 (some (0, 1)) (plen 16 [(1, 3)]) (fun _ v => decide (after v [7] ∧ bitAt (arg x (some (0, 1)) 4 4) 16 = false ∧ 1 ≤ arg x (some (0, 1)) 12 4
         ∧ (arg x (some (0, 1)) 8 4 + arg x (some (0, 1)) 12 4) * 2 ^ 20 ≤ v.dramSize)) = true
       ∧ met serving x 0x0504 (some (0, 0)) (plen 16 [(1, 3)]) (fun _ _ => decide (bitAt (arg x (some (0, 0)) 4 4) 16 = false)) = true)
    ∧ (∀ k ∈ ([0, 1] : List Byte), let x := ask ([0, 0, 0, 0, 1, 0, 0] ++ beBytes 4 1023 ++ beBytes 4 1) 1
       met (windowIs {}) x 0x0504 (some (0, k)) (plen 16 [(1, 3)]) (fun _ _ => decide (bitAt (arg x (some (0, k)) 4 4) 16 = true)) = true)
    ∧ Store.wf ({} : Bandwidth) serving.obs.bw = true := by
  decide +kernel

/-- Cluster 25 has this service state and serves no position; cluster 23 is drained. -/
def clusterIs (st : BitVec 3) : State :=
  { serving with clusters := [(23, { svc := { st := 3 } }), (25, { svc := { st := st, check := true } })] }

theorem witness_cluster_commands :
    (∀ st ∈ ([0, 1, 2, 3, 4, 5] : List (BitVec 3)),
      (∀ n ∈ [0, 1, 1000000, 1000001], let x := ask ([25, 0, 0, 0] ++ beBytes 4 n)
        met (clusterIs st) x 0x0600 none (plen 8 [(1, 3)]) (fun _ v => decide (arg x none 4 4 = n ∧ serviceable v 25 ∧ (v.cl 25).svc.st = st ∧ v.inReset 26 = false ∧ fewer v x)) = true)
      ∧ (∀ op ∈ [0x0601, 0x0602, 0x0603], met (clusterIs st) (ask [25, 0, 0, 0]) op none (plen 4 [(1, 3)]) (fun _ v => decide (serviceable v 25 ∧ (v.cl 25).svc.st = st ∧ v.up 25 = true)) = true)
      ∧ (let x := ask [23, 25, 0, 0]
         met (clusterIs st) x 0x0604 none (plen 4 [(2, 2)]) (fun _ v => decide (arg x none 0 1 = 23 ∧ arg x none 1 1 = 25 ∧ v.clusterAt 23 = 23 ∧ after v [9] ∧ v.running (.spareCheck 25) = false
           ∧ v.running (.clusterReset 25) = false ∧ (v.isl 25).blockReset = false ∧ (v.cl 25).svc.st = st ∧ (v.cl 25).svc.check = true ∧ (v.cl 23).svc.st = 3 ∧ v.inReset 26 = false)) = true))
    ∧ (∀ e ∈ ([(.drain 25, 0x0600), (.clusterReset 25, 0x0604), (.spareCheck 25, 0x0604)] : List (AsyncOp × Nat)),
        let q := serving.ycp
        let s : State := { clusterIs 1 with ycp := { q with asyncs := [⟨{ origin := .pcie, opcode := 0x600, tag := 7, issuer := 15, serial := 1 }, e.1⟩] } }
        let x := if e.2 = 0x0600 then ask ([25, 0, 0, 0] ++ beBytes 4 1) else ask [23, 25, 0, 0]
        met s x e.2 none (if e.2 = 0x0600 then plen 8 [(1, 3)] else plen 4 [(2, 2)]) (fun _ v => decide (v.running e.1 = true ∧ after v [9])) = true)
    ∧ met { clusterIs 4 with power := { upAll.power with island := (25, islandReset 25) :: upAll.power.island } } (ask [25, 0, 0, 0]) 0x0602 none (plen 4 [(1, 3)])
        (fun _ v => decide (serviceable v 25 ∧ v.underReset 25 = true ∧ fewer v (ask []))) = true
    ∧ (let s : State := { serving with clusters := [(23, { svc := { st := 2 } })] }
       met s (ask [23, 0, 0, 0]) 0x0601 none (plen 4 [(1, 3)]) (fun _ v => decide (serviceable v 23 ∧ (v.cl 23).svc.st = 2 ∧ v.positionOf 23 < 24)) = true) := by
  decide +kernel

/-- Eight channels of a GiB, with this Decant and this reserve. -/
def decantIs (d : Option Decant) (reserve : Nat) (k : ChanState) : State :=
  { serving with
    live := [(objKey 0xC0 0x0C, BitVec.ofNat 384 reserve)]
    dram := { n := 8, segs := 64, decant := d, chan := (List.range 7).map (fun c => (c, { st := .service, gib := 1 })) ++ [(7, { st := k, gib := 1 })] } }

theorem witness_decant_commands :
    (∀ k ∈ [ChanState.service, .absent], ∀ r ∈ [7, 8], ∀ h ∈ ([0, 1] : List Byte), let x := ask [7, h, 0, 0]
      met (decantIs none r k) x 0x0608 none (plen 4 [(2, 2)]) (fun _ v => decide (arg x none 0 1 = 7 ∧ arg x none 1 1 = h.toNat ∧ after v [7] ∧ 1 < v.dram.n ∧ (v.chan 7).st = k
        ∧ v.dram.segs / v.dram.n = 8 ∧ v.param 0x0C = r ∧ v.usedAbove v.reserveBase = false ∧ fewer v x)) = true)
    ∧ (∀ ph ∈ [DecantPhase.copyOut, .held, .copyBack, .aborting], let d : Decant := { channel := 7, hold := false, phase := ph, chunks := [] }
       met (decantIs (some d) 8 .service) (ask [7, 0, 0, 0]) 0x0608 none (plen 4 [(2, 2)]) (fun _ v => decide (v.dram.decant = some d)) = true
       ∧ met (decantIs (some d) 8 .decanted) (ask [7, 0, 0, 0]) 0x0609 none (plen 4 [(1, 3)]) (fun _ v => decide (v.dram.decant = some d)) = true
       ∧ met (decantIs (some d) 8 .decanted) (ask [7, 0, 0, 0]) 0x060A none (plen 4 [(1, 3)]) (fun _ v => decide (v.dram.decant = some d)) = true)
    ∧ (∀ f ∈ [false, true], let d : Decant := { channel := 7, hold := true, phase := .held, chunks := [], failed := f }
       met (decantIs (some d) 8 .decanted) (ask [7, 0, 0, 0]) 0x0609 none (plen 4 [(1, 3)]) (fun _ v => decide (v.dram.decant = some d)) = true)
    ∧ (∀ e ∈ [none, some (7, 0), some (7, 1), some (6, 0)], let s := decantIs none 8 .service
       met { s with dram := { s.dram with ended := e } } (ask [7, 0, 0, 0]) 0x060A none (plen 4 [(1, 3)]) (fun _ v => decide (v.dram.decant = none ∧ v.dram.ended = e
         ∧ v.time.elapsed = 0)) = true)
    ∧ (let s := decantIs none 8 .service
       let s : State := { s with live := (objKey 0x70 15, BitVec.ofNat 384 (2 ^ 63 + 2 ^ 62 + 22 * 2 ^ 57 + 2 ^ 36 * 2 ^ 11)) :: s.live }
       met s (ask [7, 0, 0, 0]) 0x0608 none (plen 4 [(2, 2)]) (fun _ v => decide (v.dram.decant = none ∧ v.usedAbove v.reserveBase = true)) = true) := by
  decide +kernel

/-- Extrait in this phase; every island at 60 °C with its sensor good. -/
def extraitIs (p : ExtraitPhase) (ok : Bool) : State :=
  { serving with power := { island := (List.range 53).map (fun i => (i, { islandReset i with st := .run, temp := 60, sensorOk := ok })), extrait := { phase := p } } }

theorem witness_lanes_banks_queues :
    (∀ k ∈ ([0, 1] : List Byte), let x := ask [39, 0, 0] 1
      (∀ r ∈ ([0, 1] : List (BitVec 2)),
        met { serving with live := [(objKey 0x10 39, BitVec.ofNat 384 (2 ^ 24))], ports := { lane := [(39, { recal := r })] } } x 0x0610 (some (1, k)) (plen 4 [(2, 2)])
          (fun _ v => decide (arg x (some (1, k)) 0 1 = 39 ∧ after v [8] ∧ v.portOfLane 39 = some 39 ∧ (v.lane 39).recal = r ∧ v.inReset 35 = false ∧ fewer v x)) = true)
      ∧ met serving x 0x0610 (some (1, k)) (plen 4 [(2, 2)]) (fun _ v => decide (v.portOfLane 39 = none)) = true)
    ∧ (∀ l ∈ [[], [3]], met { serving with tables := { spareUsed := l } } (ask [31, 0, 0, 0]) 0x0611 none (plen 4 [(1, 3)])
        (fun _ v => decide (after v [6] ∧ v.tables.spareUsed = l ∧ v.tables.replacing = [] ∧ v.inReset 40 = false)) = true)
    ∧ (let x := ask (beBytes 4 262143)
       met serving x 0x0612 none (plen 4) (fun _ v => decide (arg x none 0 4 = 262143 ∧ after v [6] ∧ v.inReset 36 = false)) = true) := by
  decide +kernel

theorem witness_extrait :
    (∀ p ∈ [ExtraitPhase.off, .on], ∀ e ∈ [(1, 64), (300000, 110), (1, 60)], ∀ ok ∈ [false, true],
      let x := ask (beBytes 4 e.1 ++ [BitVec.ofNat 8 e.2, 0, 0, 0] ++ beBytes 4 0)
      met (extraitIs p ok) x 0x0618 none (plen 12 [(5, 3)]) (fun _ v => decide (arg x none 0 4 = e.1 ∧ arg x none 4 1 = e.2 ∧ after v [9] ∧ v.power.extrait.phase = p ∧ fewer v x
        ∧ v.deviceLife + arg x none 8 4 < 350640
        ∧ ((∀ i ∈ List.range 53, (v.isl i).temp.toInt < (e.2 : Int) - 3 ∧ (v.isl i).sensorOk = true) ↔ e.2 ≠ 60 ∧ ok = true))) = true)
    ∧ (∀ p ∈ [ExtraitPhase.off, .on], met (extraitIs p true) (ask []) 0x0619 none (plen 0) (fun _ v => decide (v.power.extrait.phase = p)) = true)
    ∧ (∀ p ∈ [ExtraitPhase.entering, .on, .exiting 4], (extraitIs p true).power.extrait.phase = p ∧ (extraitIs p true).power.waiting = []) := by
  decide +kernel

theorem witness_images :
    (∀ st ∈ [SlotState.written, .empty, .staged],
      met { serving with sec := { slotB := st } } (ask [1, 0, 0, 0]) 0x0700 none (plen 4 [(1, 3)]) (fun _ v => decide (v.slotSt 1 = st ∧ v.running (.imageStage 1) = false
        ∧ v.stagingOpen 1 = false ∧ fewer v (ask []))) = true
      ∧ (∀ r ∈ [none, some 1], met { serving with sec := { slotB := st, running := r } } (ask [1, 0, 0, 0]) 0x0701 none (plen 4 [(1, 3)])
          (fun _ v => decide (v.slotSt 1 = st ∧ v.sec.running = r ∧ v.activating = false ∧ v.accord.preparing = false)) = true))
    ∧ (let s : State := { serving with sec := { written := [1] }, ycp := { serving.ycp with asyncs := [⟨{ origin := .pcie, opcode := 0x700, tag := 7, issuer := 15, serial := 1 }, .imageStage 1⟩] } }
       s.serves = true ∧ s.running (.imageStage 1) = true ∧ s.slotCheck 1 ≠ 0) := by
  decide +kernel

/-- A slot that holds its image as made verifies where Config says so, with a rollback index at or above COUNT 0. -/
theorem witness_image_as_made (h : Config.slotCheck 1 = 0) (k : Nat) :
    let s : State := { serving with sec := { count := k }, ycp := { serving.ycp with asyncs := [⟨{ origin := .pcie, opcode := 0x700, tag := 7, issuer := 15, serial := 1 }, .imageStage 1⟩] } }
    s.serves = true ∧ s.running (.imageStage 1) = true ∧ s.slotCheck 1 = 0 ∧ (k = 0 → s.sec.count ≤ s.slotRollback 1) := by
  refine ⟨by rfl, by rfl, h, ?_⟩
  intro e
  subst e
  exact Nat.zero_le _

theorem witness_attest :
    let n : List Byte := List.replicate 32 7
    (∀ k ∈ ([0, 1, 2] : List Byte), let x := ask (n ++ [k, 0, 0, 0])
      met serving x 0x0702 none (plen 36 [(33, 3)]) (fun _ v => decide (arg x none 32 1 = k.toNat ∧ argBytes x none 0 32 = n ∧ v.accord.digestDue = false ∧ (v.issuer 15).statement = none)) = true)
    ∧ (let i : Issuer := { issuerReset with ctl := 0xA800FFFF, statement := some ([1, 2, 3], n) }
       met { serving with ycp := { serving.ycp with issuers := [(15, i)] } } (ask (n ++ [1, 0, 0, 0])) 0x0702 none (plen 36 [(33, 3)])
         (fun _ v => decide ((v.issuer 15).statement = some ([1, 2, 3], n))) = true) := by
  decide +kernel

/-- An OWNED device whose owner slot 3 holds a key of sevens in generation `g`. -/
def owned (g : Nat) : State :=
  { serving with sec := { lifecycle := .owned, ownerKey := (List.range g).map (fun k => (12 + k, some (List.replicate 32 7))) } }

/-- The hypotheses of the owner's commands but the signature, whose check has a clause for each outcome: it covers the device serial, a free constant. -/
theorem witness_issuer_set :
    ∀ e ∈ ([(0xE0, List.replicate 32 7), (0xE0, List.replicate 32 0), (0xA0, List.replicate 32 0)] : List (Byte × List Byte)),
      let x := ask ([15, 3, 0, 0, e.1, 0, 0xFF, 0xFF] ++ e.2 ++ List.replicate 64 0)
      met (owned 1) x 0x0708 none (plen 104 [(2, 2)]) (fun _ v => decide (arg x none 0 1 = 15 ∧ arg x none 1 1 = 3 ∧ bits (arg x none 4 4) 26 16 = 0
        ∧ v.ownerKeyOf 3 = some (List.replicate 32 7) ∧ v.sec.pcieSigned = false)) = true := by
  decide +kernel

/-- The same device with this control word in slot 15. -/
def ownedWith (ctl : BitVec 32) : State := { owned 1 with ycp := { up := true, issuers := [(15, { issuerReset with ctl := ctl })] } }

theorem witness_sec_config :
    ∀ k ∈ ([0, 1] : List Byte),
      (met (ownedWith 0xA800FFFF) (ask ([k, 3, 0, 0] ++ List.replicate 64 0)) 0x070A none (plen 68 [(2, 2)])
        (fun _ v => decide (v.ownerKeyOf 3 = some (List.replicate 32 7)) && !v.keyedSlot) = true)
      ∧ met (ownedWith 0xE800FFFF) (ask ([k, 3, 0, 0] ++ List.replicate 64 0)) 0x070A none (plen 68 [(2, 2)])
        (fun _ v => decide (v.ownerKeyOf 3 = some (List.replicate 32 7)) && v.keyedSlot) = true := by
  decide +kernel

theorem witness_owner_key :
    (∀ l ∈ [Lifecycle.factory, .unowned], let x := ask ([0, 0, 0, 0] ++ List.replicate 32 7 ++ List.replicate 64 0)
      met { serving with sec := { lifecycle := l } } x 0x0709 none (plen 100 [(2, 2)])
        (fun o v => decide (v.sec.lifecycle = l ∧ o = .pcie ∧ arg x none 0 1 = 0 ∧ arg x none 1 1 = 0 ∧ zeroBytes (argBytes x none 4 32) = false ∧ v.sec.ownerKey = [])) = true)
    ∧ (∀ g ∈ [1, 3], let x := ask ([3, 3, 0, 0] ++ List.replicate 32 7 ++ List.replicate 64 0)
      met (owned g) x 0x0709 none (plen 100 [(2, 2)]) (fun _ v => decide (v.sec.lifecycle = .owned ∧ v.ownerKeyOf (arg x none 1 1) = some (List.replicate 32 7)
        ∧ v.ownerCurrent (arg x none 0 1) = g ∧ zeroBytes (argBytes x none 4 32) = false)) = true) := by
  decide +kernel

/-- The last thread so. -/
def threadIs (y : Thread) : State := { serving with clusters := [(25, { thread := [(127, y)] })] }

theorem witness_debug :
    (∀ y ∈ ([{}, { busy := true }, { busy := true, wait := .wfe 1 }, { busy := true, halt := .debug }, { busy := true, halt := .fault, staging := [1] }, { busy := true, haltReq := true },
        { busy := true, halt := .debug, wait := .ord 3 },
        { busy := true, halt := .debug, haltAt := some (0, 0x2000) }] : List Thread),
      ∀ op ∈ [0x0800, 0x0801, 0x0802, 0x0803, 0x0804, 0x0805], let x := ask [0x0C, 0xFF, 0, 0]
        met (threadIs y) x op none (plen 4 [(2, 2)]) (fun _ v => decide (arg x none 0 2 = 3327 ∧ v.th 3327 = y ∧ after v [9] ∧ v.up 25 = true ∧ y.granted = false ∧ y.lockGranted = false)) = true)
    ∧ (∀ k ∈ ([0, 1] : List Byte), let x := ask [25, 3, 0xFF, 0xFF, 15, k, 0, 0]
      met serving x 0x0808 none (plen 8 [(6, 2)]) (fun _ v => decide (after v [9] ∧ arg x none 0 1 = 25 ∧ v.up 25 = true ∧ arg x none 1 1 = 3 ∧ arg x none 4 1 = 15 ∧ arg x none 5 1 = k.toNat)) = true) := by
  decide +kernel

/-- The bundle at PC 0x50 of a thread that the debugger holds is one NOP. -/
def held : State :=
  let y : Thread := { busy := true, halt := .debug, pc := 0x50 }
  { threadIs y with accord := { live := true, copy := [(0, { bank := [(0x143, 0x80)] })] } }

/-- A halt by the JTAG port in the instant in which slot 15 resumes. -/
theorem witness_halt_and_resume : let x := ask [0x0C, 0xFF, 0, 0]
    met (threadIs { busy := true, halt := .debug, haltAt := some (0, 0x6000) }) x 0x0801 none (plen 4 [(2, 2)]) (fun o v => decide (after v [9] ∧ v.up 25 = true
      ∧ (v.th 3327).halt = .debug ∧ (v.th 3327).haltAt = some (v.time.elapsed, 0x6000) ∧ 0x6000 ≠ o.master x.issuer.toNat)) = true := by
  decide +kernel

theorem witness_step :
    met held (ask [0x0C, 0xFF, 0, 0]) 0x0802 none (plen 4 [(2, 2)]) (fun _ v =>
      let y := v.th 3327
      y.halt == .debug && (y.wait == .none) && ((State.tryIssue (v.modTh 3327 (fun x => { x with stepping := true, bpPass := true })) 3327 (v.bundleAt 3327).1 (v.bundleAt 3327).2).map
        (fun u => u.branchResolve 3327)).isSome) = true := by
  decide +kernel

theorem witness_injection :
    let s : State := { serving with sec := { factoryMode := true } }
    (∀ e ∈ [(0x1000, 0x50), (0x680, 0x60)], let x := ask (beBytes 2 e.1 ++ beBytes 1 e.2 ++ List.replicate 9 0)
      met s x 0x0F00 none (plen 12 [(3, 1), (4, 2)]) (fun _ _ => decide (4096 ≤ arg x none 0 2 ∨ kindFits (arg x none 2 1) (arg x none 0 2) = false)) = true)
    ∧ (∀ e ∈ [(0x680, 0x50), (0xCC1, 0xBA)], let x := ask (beBytes 2 e.1 ++ beBytes 1 e.2 ++ List.replicate 9 0)
      met s x 0x0F00 none (plen 12 [(3, 1), (4, 2)]) (fun _ _ => decide (arg x none 0 2 < 4096 ∧ kindFits (arg x none 2 1) (arg x none 0 2) = true)) = true) := by
  decide +kernel

theorem witness_jtag :
    (owned 1).sec.lifecycle = .owned ∧ serving.sec.lifecycle ≠ .owned ∧ serving.up 52 = true ∧ beVal [0x0C, 0xFF] = 3327 ∧ serving.up (3327 / 128) = true
    ∧ (List.replicate 31 (0 : Byte)).length ≤ 31 ∧ serving.pins.resetN = true ∧ upAll.pins.resetN = false
    ∧ (let s := threadIs { busy := true, halt := .debug, abortReq := true }; (s.th 3327).halt = .debug ∧ (State.stepBundle (s.jtag .debugReg) 3327).isNone = true) := by
  decide +kernel

/-! ### BAR0, power, start-up, refused packets and reset -/

theorem witness_bar0 :
    serving.pcieOn = true ∧ serving.ycp.unsent = [] ∧ State.reset.pcieOn = false ∧ serving.bar0.cmd.enable = true ∧ upAll.bar0.cmd.enable = false
    ∧ ¬ (2 = 4 ∧ 3 % 4 = 0 ∨ 2 = 8 ∧ 3 % 8 = 0) ∧ tailAfter 1 0 6 63 = 63 ∧ tailAfter 1 0 6 64 = 1 := by
  decide +kernel

/-- Island 52 so. -/
def islandIs (x : Island) : State := { upAll with power := { upAll.power with island := (52, x) :: upAll.power.island } }

theorem witness_sensors :
    (∀ e ∈ [(105, false), (106, false), (106, true)],
      let x : Island := { islandReset 52 with st := .run, sensorOk := true, hotRep := e.2 }
      (islandIs x).inReset 52 = false ∧ (islandIs x).isl 52 = x ∧ x.limit.toInt = 105 ∧ (islandIs x).power.extrait.phase = .off ∧ -128 ≤ (e.1 : Int) ∧ (e.1 : Int) ≤ 127)
    ∧ (∀ b ∈ [false, true], let x : Island := { islandReset 52 with st := .stopped, unlocked := true, blockReset := b }
       ((islandIs x).isl 52).unlocked = true ∧ ((islandIs x).isl 52).st = .stopped ∧ ((islandIs x).isl 52).blockReset = b)
    ∧ (upAll.isl 52).unlocked = false ∧ (upAll.isl 52).st = .run
    ∧ serving.pins.pwrGood = true ∧ serving.pins.resetN = true ∧ serving.power.extrait.phase = .off ∧ serving.ycp.up = true ∧ serving.up 51 = true := by
  decide +kernel

/-- Start-up after these steps. -/
def startingUp (l : List Nat) (c : Security) : State := { serving with startup := { running := true, done := l }, sec := c }

theorem witness_start_up :
    (∀ l ∈ [[], [2], [2, 3], [2, 3, 4], [2, 3, 4, 5], [2, 3, 4, 5, 6], [2, 3, 4, 5, 6, 7, 8, 9]],
      (startingUp l {}).startup.running = true ∧ (startingUp l {}).startup.stopped = false ∧ (startingUp l {}).sec.recovery = false
        ∧ (startingUp l {}).sec.lifecycle ≠ .owned ∧ (startingUp l {}).sec.active = 0 ∧ (startingUp l {}).ycp.up = true ∧ (startingUp l {}).pins.perstN = true)
    ∧ (let s := startingUp [2, 3] { written := [0, 1] }
       s.slotCheck 0 ≠ 0 ∧ s.slotCheck 1 ≠ 0)
    ∧ (startingUp [2, 3, 4, 5, 6] { written := [2] }).testImage.1 = true ∧ (startingUp [2, 3, 4, 5, 6] {}).testImage.1 = false
    ∧ (let s := startingUp [2, 3] { lifecycle := .owned, recordSeq := 2, recordOld := some { seq := 1, signed := true, slots := List.replicate 16 (0xA80001FF, []) } }
       s.sec.lifecycle = .owned ∧ s.sec.securityLost = false ∧ s.sec.recordOld.isSome = true ∧ s.startup.done = [2, 3])
    ∧ serving.pins.perstN = true ∧ State.reset.pins.perstN = false ∧ upAll.pins.therm = false
    ∧ ({ upAll with pins := { upAll.pins with rails := [.core, .io18] } } : State).tripPowered = true := by
  decide +kernel

/-- Eight equal channels, and no geometry record in flash. -/
theorem witness_dram_found :
    let f : Nat → ChanFound := fun c => { channel := c, ranks := 2, width := 0, density := 1, rate := 6, noSensor := decide (c = 7), failed := none }
    geometryValid ((startingUp [2, 3, 4, 5, 6] {}).flashRead 0x30000 4096) = false ∧ (∀ c < 8, (startingUp [2, 3, 4, 5, 6] {}).inReset (43 + c) = false)
    ∧ chanGib (f 0) ≠ 0 := by
  decide +kernel

/-- A slot that holds its image as made verifies where Config says so; COUNT 0 is met by every rollback index. -/
theorem witness_start_as_made (a b : Nat) (h : Config.slotCheck a = 0) (hb : Config.slotCheck b ≠ 0) :
    (startingUp [2, 3] {}).slotCheck a = 0 ∧ (startingUp [2, 3] {}).sec.count ≤ (startingUp [2, 3] {}).slotRollback a ∧ (startingUp [2, 3] {}).slotCheck b ≠ 0 :=
  ⟨h, Nat.zero_le _, hb⟩

/-- What the Steward finds of a SYS_RESET packet once it has taken it: its origin and the state after. -/
def taking (s : State) (x : Packet) (p : Origin → State → Bool) : Bool :=
  match s.takePacket x.via (pktOf x 0x0004 none).bytes with
  | some (some o, t) => p o t && decide (x.params.length ≤ o.plenLimit)
  | _ => false

/-- The serving device with slot 15 so. -/
def slotIs (i : Issuer) : State := { serving with ycp := { up := true, issuers := [(15, i)] } }

/-- SYS_RESET of slot 15 with this serial, over I2C where `i` holds. -/
def resetAsk (i : Bool) (n : BitVec 64) : Packet :=
  { ask [1, 0, 0, 0] with serial := n, via := if i then .i2c else (ask [1, 0, 0, 0]).via }

/-- The same device in the turn of I2C. -/
def i2cTurn : State := { serving with ycp := { serving.ycp with turn := 2 } }

theorem witness_refusals :
    taking serving { ask [1, 0, 0, 0] with flags := 0x80 } (fun _ _ => true) = true
    ∧ taking (slotIs { issuerReset with ctl := 0 }) (resetAsk false 1) (fun o t => decide (o = .pcie) && !(t.issuer 15).ctl.getLsbD 31 && !t.mustSign o) = true
    ∧ taking { serving with sec := { pcieSigned := true } } (resetAsk false 1) (fun o t => t.mustSign o && (t.issuer 15).ctl.getLsbD 31 && (t.issuer 15).ctl.getLsbD o.transport) = true
    ∧ taking serving (resetAsk false 0) (fun o t => !t.mustSign o && (t.issuer 15).ctl.getLsbD 31 && (t.issuer 15).ctl.getLsbD o.transport) = true
    ∧ taking (slotIs { issuerReset with high := 65 }) (resetAsk false 1) (fun _ t => decide (1 + 64 ≤ (t.issuer 15).high)) = true
    ∧ taking (slotIs { issuerReset with high := 64, stored := [⟨1, 0, [], false⟩] }) (resetAsk false 1)
        (fun _ t => decide ((t.issuer 15).high < 1 + 64) && (t.issuer 15).stored.any (fun r => r.serial == 1)) = true
    ∧ taking (slotIs { issuerReset with high := 64, executed := [1] }) (resetAsk false 1)
        (fun _ t => decide ((t.issuer 15).high < 1 + 64) && (t.issuer 15).stored.isEmpty && (t.issuer 15).executed.contains 1) = true
    ∧ taking (slotIs { issuerReset with ctl := 0xA8000000, high := 64 }) (resetAsk false 1) (fun o t => decide (o ≠ .i2c) && !t.sec.recovery && !(t.issuer 15).ctl.getLsbD 0 && (t.issuer 15).stored.isEmpty && (t.issuer 15).executed.isEmpty) = true
    ∧ taking serving { resetAsk false 1 with rsvd := 1 } (fun o t => decide (o ≠ .i2c) && (t.issuer 15).ctl.getLsbD 0) = true
    ∧ taking i2cTurn (resetAsk true 1) (fun o t => decide (o = .i2c) && (t.issuer 15).ctl.getLsbD 27 && !t.mustSign o) = true := by
  decide +kernel

theorem witness_repeated_ack :
    let x := ask [0x0D, 0, 2, 0, 0, 0, 0, 0]
    (match (slotIs { issuerReset with high := 1, stored := [⟨1, 0, [], false⟩] }).takePacket x.via (pktOf x 0x0400 none).bytes with
      | some (some o, t) => t.verdict o (pktOf x 0x0400 none) == .replay ⟨1, 0, [], false⟩
      | _ => false) = true := by
  decide +kernel

/-- A packet of an opcode that no command has. -/
def unknown : Pkt := { flags := 0, op := 0x0005, tag := 7, issuer := 15, rsvd := 0, serial := 1, params := [], sig := [] }

theorem witness_malformed :
    (∃ r, i2cTurn.takePacket .i2c [1, 2, 3] = some (some .i2c, r)) ∧ State.reset.takePacket .i2c [1, 2, 3] = none
    ∧ parsePkt unknown.bytes = some unknown ∧ unknown.version = 1 ∧ (∀ e ∈ opcodes, e.1 ≠ unknown.op)
    ∧ (∃ r, serving.takePacket (ask []).via unknown.bytes = some (some .pcie, r) ∧ r.verdict .pcie unknown = .proceed) := by
  refine ⟨⟨_, rfl⟩, by decide +kernel, by decide +kernel, by decide, by decide, ⟨_, rfl, by decide +kernel⟩⟩

/-- Reset meets both invariants of a step. -/
theorem witness_invariants : watched State.reset ∧ memoriesCanonical State.reset := by
  unfold watched memoriesCanonical; decide +kernel

theorem witness_idle : State.reset.pending = [] ∧ State.reset.deviceState ≠ .running ∧ serving.pending = [] ∧ serving.deviceState = .running ∧ -(2 ^ 32 : Int) < serving.time.trim := by
  decide +kernel

/-! ### Values worked by hand in the spec, and published check values -/

/-- spec/06, worked example: the bundle at word 0x0410. -/
theorem test_bundle_words :
    sylOf 0x00800040 = (⟨0, 2, 0x00040⟩, false) ∧ sylOf 0x20680594 = (⟨1, 1, 0x280594⟩, false) ∧ sylOf 0xE04C0123 = (⟨3, 1, 0x0C0123⟩, true) := by
  decide

/-- spec/01: thread 9 of core 5 in C17. -/
theorem test_thread_identity : threadNo ⟨17, 5, 9⟩ = 0x08D9 := by decide

/-- spec/07 R183: the edges of arithmetic, with FL as Z, N, C, V. -/
theorem test_edges :
    aluNeg 0x8000000000000000 0 0 = (0x8000000000000000, 0b0101) ∧ aluSub 0x8000000000000000 1 0 = (0x7FFFFFFFFFFFFFFF, 0b0011)
    ∧ aluMul 0x8000000000000000 0xFFFFFFFFFFFFFFFF 0 = (0x8000000000000000, 0b0111) ∧ aluMulh 0x8000000000000000 0xFFFFFFFFFFFFFFFF 0 = (0, 0b1000)
    ∧ aluClz 0 0 0 = (64, 0) ∧ aluShl 1 130 0 = (4, 0) ∧ aluSar 0x8000000000000000 100 0 = (0xFFFFFFFFFFFFFFFF, 0b0110) := by
  decide +kernel

/-- spec/08, worked example: a TTL decrement. -/
theorem test_inc16 : incSum 0xB861 [0x4011] [0x3F11] = 0xB961 := by decide

/-- spec/13, worked example: rates. -/
theorem test_rates : rateBps 0x6CC5 = 10002432000 ∧ rateBps 0x4FA1 = 999936000 ∧ rateBps 0x5FA1 = 3999744000 ∧ rateBps 0x67A1 = 7999488000 := by decide

/-- spec/14 R325: device address 0x8421_0A40 on eight channels of two ranks. -/
theorem test_dram_place :
    let s : State := { upAll with dram := { n := 8 } }
    s.homeChannel 0x84210A40 = 3 ∧ s.homeFrame 0x84210A40 = 33 ∧ s.place' 0x84210A40 = (3, 0x10842140)
      ∧ ({ ranks := 2 } : DramChan).bankRow 0x10842140 = (1, 1057) := by
  decide +kernel

/-- "123456789", whose check values the catalogues of CRCs give. -/
theorem test_crcs :
    ~~~crcRun polyCrc32 0xFFFFFFFF [0x31, 0x32, 0x33, 0x34, 0x35, 0x36, 0x37, 0x38, 0x39] = 0xCBF43926
    ∧ ~~~crcRun polyCrc32c 0xFFFFFFFF [0x31, 0x32, 0x33, 0x34, 0x35, 0x36, 0x37, 0x38, 0x39] = 0xE3069283 := by
  decide +kernel

/-- The vector of the SipHash paper. -/
theorem test_siphash : sipHash ((List.range 16).map (BitVec.ofNat 8)) ((List.range 15).map (BitVec.ofNat 8)) = 0xA129CA6149BE45E5 := by decide +kernel

/-- R115, R119: an ADD of thread 3327 of a small state, one step: 64 is added and the PC moves past the bundle. -/
theorem test_add_step :
    let s := { threadIs { busy := true, pc := 0x410 } with pending := [.add ⟨25, 7, 15, true, 0x40⟩] }
    (match step s with | .next t => (t.th 3327).regs.acc == 64 && (t.th 3327).pc == 0x411 && t.pending.isEmpty | _ => false) = true := by
  decide +kernel

/-- A step on a SYS_TIME packet of slot 15: its reply is stored as DONE under serial 1 (R395, R422). -/
theorem test_command_step :
    let s := { serving with pending := [.sysTimeRead (ask (List.replicate 11 0) 1)] }
    (match step s with | .next t => (t.issuer 15).stored.map (fun r => (r.serial, r.status)) == [(1, 0)] | _ => false) = true := by
  decide +kernel

end Sys2Proof.Tests
end

section
/-! The tail of the reply ring, and the in-band reply frames that a write of it sends. -/

namespace Sys2Proof.Machine

open Sys2Proof.Claims

/-- R415: a tail is taken where it leaves at most 2^`log` − 1 entries posted. -/
theorem newTail_eq_tailAfter (tail head : BitVec 16) (log : Nat) (v : BitVec 32) :
    newTail tail head log v = tailAfter tail head log v := by
  have hpos : 0 < 2 ^ log := Nat.two_pow_pos log
  simp only [newTail, tailAfter, BitVec.truncate_eq_setWidth, Nat.le_sub_one_iff_lt hpos]

/-- With no PCIe reply waiting, a flush sends only the in-band reply frames. -/
theorem State.flushAll_of_unsent_nil {s : State} (h : s.ycp.unsent = []) : s.flushAll = s.flushInband := by
  rw [State.flushAll, h, List.length_nil, State.flushReplies]

/-- RPL_TAIL with no PCIe reply waiting: the tail moves, and then the in-band reply frames that wait are tried again. -/
theorem exec_rplTail_of_unsent_nil {s : State} (a : BitVec 32) (hon : s.pcieOn = true) (h : s.ycp.unsent = []) :
    exec (.rplTail a) s = .next (State.watch (State.flushInband { s with bar0 := { s.bar0 with
      rpl := { s.bar0.rpl with tail := tailAfter s.bar0.rpl.tail s.bar0.rpl.head s.bar0.rpl.size.toNat a } } })) := by
  have hw : exec (.rplTail a) s = answer (s.modBar0 (fun b => { b with rpl := b.rpl.setTail a })).flushAll := by
    simp [exec, execRplTail, State.bar0Reg, State.bar0Word, hon]
  have hu : (s.modBar0 (fun b => { b with rpl := b.rpl.setTail a })).ycp.unsent = [] := h
  rw [hw, State.flushAll_of_unsent_nil hu, answer_eq, State.modBar0, Ring.setTail, newTail_eq_tailAfter]

/-- R401: a reply frame that waits alone leaves for its queue once I36 runs and a descriptor and cells are free for it. -/
theorem State.inband_flushInband_of_built {s : State} {p : Nat} {f : List Byte} (hw : s.ycp.inband = [(p, f)])
    (hl : s.l0Of ((s.param 0x19 + p) % 2 ^ 18) = p) (hup : s.up 36 = true)
    (hb : (s.buildPacket (BitVec.ofNat 64 (s.accord.current.toNat * 2 ^ 60 + f.length)) 0 f).isSome = true) :
    s.flushInband.ycp.inband = [] := by
  have hr : s.inReset 36 = false := by
    have hrun : (s.isl 36).st = .run := by simpa [State.up] using hup
    simp [State.inReset, hrun]
  obtain ⟨⟨d, u⟩, hb⟩ := Option.isSome_iff_exists.1 hb
  rw [State.flushInband, hw, State.inbandOut]
  simp only [hl, hr, hup, hb, ne_eq, not_true_eq_false, Bool.false_eq_true, or_self, if_false]
  rfl

/-- The command service runs, the PCIe link is up and no reply to PCIe waits; the queue of port 0 lies under its L0 port, and a reply
frame of EtherType 0x88B5 for it, which found no cells when it was made, still waits although cells are free now (R401, R317). -/
def frameWaiting : State :=
  { State.reset with
    pins := { State.reset.pins with resetN := true, perstN := true, pcieUp := true }
    power := { State.reset.power with island := [(36, { islandReset 36 with st := .run })] }
    qm := { State.reset.qm with objs := [(objKey 0x83 0, 1 <<< 103)] }
    ycp := { State.reset.ycp with up := true, inband := [(0, List.replicate 12 0 ++ [0x88, 0xB5] ++ List.replicate 46 0)] } }

/-- The frame of `frameWaiting` leaves at the next flush. -/
theorem inband_flushInband_frameWaiting : frameWaiting.flushInband.ycp.inband = [] :=
  State.inband_flushInband_of_built rfl (by decide +kernel) (by decide +kernel) (by decide +kernel)

/-- Refutes O53: the clause of RPL_TAIL gives a next state that differs in the tail alone, and asks only that no reply to PCIe waits. In
`frameWaiting` an in-band reply frame waits, and the write sends it: the tail is 0 as written, and the frame is gone from those that wait.
What the write does give is `exec_rplTail_of_unsent_nil`. -/
theorem not_bar0RegistersFollowTheirRules : ¬ Obligations.Bar0RegistersFollowTheirRules := by
  unfold Obligations.Bar0RegistersFollowTheirRules
  rintro ⟨h, -, -⟩
  obtain ⟨-, -, hrpl, -⟩ := h frameWaiting 0 rfl
  have hgives : exec (.rplTail 0) frameWaiting = .next frameWaiting.watch := (hrpl rfl).1
  have hexec : exec (.rplTail 0) frameWaiting = .next frameWaiting.flushInband.watch :=
    exec_rplTail_of_unsent_nil 0 rfl rfl
  have heq : frameWaiting.flushInband.watch = frameWaiting.watch := Host.Outcome.next.inj (hexec.symm.trans hgives)
  have hkept : frameWaiting.flushInband.watch.ycp.inband = frameWaiting.watch.ycp.inband := by rw [heq]
  rw [State.watch_ycp, State.watch_ycp, inband_flushInband_frameWaiting] at hkept
  exact absurd hkept (by decide)

end Sys2Proof.Machine
end

section
/-! What a raised message does to its island's outbox, and what a report depends on (R370). -/

namespace Sys2Proof.Machine

open Sys2Proof.Claims

theorem src_eq (island unit : Nat) : src island unit = 64 * island + unit := congrArg (· + unit) (Nat.mul_comm island 64)

/-- Every kind has one of the sixteen classes (R367, R368). -/
theorem kindClass_lt (k : Nat) : kindClass k < 16 := by
  unfold kindClass
  repeat refine iteInduction (motive := (· < 16)) (fun _ => by decide) (fun _ => ?_)
  decide

theorem mkFault_cls_toNat (s : State) (source kind : Nat) (i : FaultInfo) :
    (mkFault s source kind i).cls.toNat = kindClass kind :=
  Nat.mod_eq_of_lt (kindClass_lt kind)

/-- R370: a raised message is the newest of its island's outbox, or is discarded and counted where that holds sixteen. -/
theorem reported_raise (s : State) {source : Nat} (kind : Nat) (i : FaultInfo) (h : source < 4096) :
    reported s (s.raise source kind i) source kind i := by
  have hsrc : (mkFault s source kind i).source.toNat = source := Nat.mod_eq_of_lt h
  unfold reported outboxOf State.raise State.enqueueFault
  simp only [hsrc, mkFault_cls_toNat]
  split
  · exact Store.get_set_same _ _ _ _
  · exact Store.get_set_same _ _ _ _

/-- A message raised where its outbox has room stands in it as the newest. -/
theorem outboxOf_raise_of_room {s : State} {source : Nat} (kind : Nat) (i : FaultInfo) (h : source < 4096)
    (hroom : (outboxOf s (source / 64)).msgs.length < 16) :
    outboxOf (s.raise source kind i) (source / 64) =
      { outboxOf s (source / 64) with msgs := (outboxOf s (source / 64)).msgs ++ [mkFault s source kind i] } :=
  (reported_raise s kind i h).trans (if_pos hroom)

/-- A report speaks of the time and the outboxes before and of the outboxes after. -/
theorem reported_congr {s s' u u' : State} {source kind : Nat} {i : FaultInfo} (h : reported s u source kind i)
    (hs : s.faults.outbox = s'.faults.outbox) (ht : s.time = s'.time) (hu : u.faults.outbox = u'.faults.outbox) :
    reported s' u' source kind i := by
  unfold reported outboxOf mkFault at h ⊢
  rwa [← hs, ← ht, ← hu]

@[simp] theorem State.modFaults_faults (s : State) (f : Faults → Faults) : (s.modFaults f).faults = f s.faults := rfl

@[simp] theorem State.modFaults_net (s : State) (f : Faults → Faults) : (s.modFaults f).net = s.net := rfl

@[simp] theorem State.modFaults_dram (s : State) (f : Faults → Faults) : (s.modFaults f).dram = s.dram := rfl

/-! ### Losses (R370) -/

/-- What OUTBOX_OVERRUN says of an outbox: the class of its last loss and the number of its losses. -/
def lossInfo (o : Outbox) : FaultInfo := { addr := o.lastClass.toNat, detail := (o.lost.map (fun e => e.2.toNat)).sum }

/-- The losses of an island's outbox are counted no more. -/
def State.clearLost (s : State) (i : Nat) : State :=
  s.modFaults (fun f => { f with outbox := Store.set {} f.outbox i { outboxOf s i with lost := [] } })

theorem outboxOf_clearLost (s : State) (i : Nat) : outboxOf (s.clearLost i) i = { outboxOf s i with lost := [] } :=
  Store.get_set_same _ _ _ _

/-- With losses and room for a message, the losses are reported and cleared. -/
theorem outboxOverrun_of_room {s : State} {i : Nat} (hroom : (outboxOf s i).msgs.length < 16) (hlost : (outboxOf s i).lost ≠ []) :
    s.outboxOverrun i = (s.clearLost i).raise (src i 0x3F) 0xC3 (lossInfo (outboxOf s i)) :=
  if_pos ⟨hroom, mt List.isEmpty_iff.1 hlost⟩

theorem outboxOf_outboxOverrun {s : State} {i : Nat} (hi : i < 64) (hroom : (outboxOf s i).msgs.length < 16)
    (hlost : (outboxOf s i).lost ≠ []) :
    outboxOf (s.outboxOverrun i) i = { outboxOf s i with
      lost := [], msgs := (outboxOf s i).msgs ++ [mkFault s (64 * i + 0x3F) 0xC3 (lossInfo (outboxOf s i))] } := by
  have hisl : (64 * i + 0x3F) / 64 = i := by omega
  have hroom' : (outboxOf (s.clearLost i) ((64 * i + 0x3F) / 64)).msgs.length < 16 := by
    rw [hisl, outboxOf_clearLost]; exact hroom
  have h := outboxOf_raise_of_room 0xC3 (lossInfo (outboxOf s i)) (by omega) hroom'
  rw [hisl, outboxOf_clearLost] at h
  rw [outboxOverrun_of_room hroom hlost, src_eq, h]
  rfl

/-! ### Crossings with damaged flits (R371) -/

/-- The re-sends of the flits from `a` to `b` are counted no more. -/
def State.dropTries (s : State) (a b : Nat) : State :=
  s.modFaults (fun f => { f with flitTries := Store.erase f.flitTries (a * 64 + b) })

/-- What a rejected flit of a crossing does at a running island: it is re-sent, or, rejected after the third re-send, reported and
the crossing refused. -/
theorem flitResend_of_oldest {s : State} {a b : Nat} {m : Msg} (hup : s.up b = true) (hm : s.oldest a b = some m) :
    s.flitResend a b =
      if Store.get 0 s.faults.flitTries (a * 64 + b) < 3 then
        s.modFaults (fun f => { f with flitTries := Store.modify 0 f.flitTries (a * 64 + b) (· + 1) })
      else ((s.dropTries a b).raise (src b 0x3F) 0xC2 { addr := a }).refuseOldest a b := by
  have hc : (s.crosses a b && s.up b) = true := by simp [State.crosses, hm, hup]
  exact if_pos hc

/-- A refused order request is dropped. -/
theorem refuseOldest_of_ordReq {s : State} {a b t r p : Nat} {g : BitVec 8} (hm : s.oldest a b = some (.ordReq t r g p)) :
    s.refuseOldest a b = s.taken a b := by
  rw [State.refuseOldest, hm]
  rfl

end Sys2Proof.Machine
end

section
/-! Numbers in byte memories: what a little-endian read returns after a write of bytes. -/

namespace Sys2Proof.Machine

@[simp] theorem length_leBytes (n v : Nat) : (leBytes n v).length = n := by
  induction n generalizing v with
  | zero => rfl
  | succ n ih => simp [leBytes, ih]

/-- A number's low bytes hold it modulo their range. -/
theorem leVal_leBytes (n v : Nat) : leVal (leBytes n v) = v % 256 ^ n := by
  induction n generalizing v with
  | zero => simp [leBytes, leVal, Nat.mod_one]
  | succ n ih =>
    have hbyte : (BitVec.ofNat 8 v).toNat = v % 256 := rfl
    rw [leBytes, leVal, ih, hbyte, pow_succ', Nat.mod_mul]

/-- A read of the bytes just written returns them. -/
theorem mread_mwrite_same (m : Mem) (a : Nat) (l : List Byte) : mread (mwrite m a l) a l.length = l := by
  refine List.ext_getElem (by simp [mread]) fun i _ hi => ?_
  simp [mread, mget_mwrite_inside l m a i hi, hi]

theorem mreadLE_mwrite_leBytes (m : Mem) (a n v : Nat) : mreadLE (mwrite m a (leBytes n v)) a n = v % 256 ^ n := by
  have h := mread_mwrite_same m a (leBytes n v)
  rw [length_leBytes] at h
  rw [mreadLE, h, leVal_leBytes]

end Sys2Proof.Machine
end

section
/-! The bytes of device DRAM: accounting for an access leaves them, and a write changes the bytes written (R329, R384). -/

namespace Sys2Proof.Machine

@[simp] theorem State.count_dramData (s : State) (u e n : Nat) : (s.count u e n).dram.data = s.dram.data := rfl

@[simp] theorem State.modChan_dramData (s : State) (c : Nat) (f : DramChan → DramChan) : (s.modChan c f).dram.data = s.dram.data := rfl

@[simp] theorem State.dramIssue_dramData (s : State) (w : Bool) (l : List Nat) (k m : Nat) :
    (s.dramIssue w l k m).dram.data = s.dram.data := by
  unfold State.dramIssue
  refine foldl_keeps (fun t : State => t.dram.data) _ (fun t j => ?_) l s
  dsimp only
  split <;> rfl

theorem State.sweepFrame_dramData (s : State) (c f : Nat) : (s.sweepFrame c f).dram.data = s.dram.data := by
  unfold State.sweepFrame
  split <;> rfl

theorem State.corrected_dramData (s : State) (c r d n : Nat) : (s.corrected c r d n).dram.data = s.dram.data := by
  unfold State.corrected
  dsimp only
  split <;> simp

theorem State.decodeLine_dramData (s : State) (l : Nat) : (s.decodeLine l).dram.data = s.dram.data := by
  unfold State.decodeLine
  split
  · rfl
  · exact foldl_keeps (fun t : State => t.dram.data) _ (fun _ _ => State.corrected_dramData _ _ _ _ _) _ _

theorem State.readyLines_dramData (s : State) (l : List Nat) (w : Nat → Bool) : (s.readyLines l w).dram.data = s.dram.data :=
  (foldl_keeps (fun t : State => t.dram.data) _ (fun _ _ => State.decodeLine_dramData _ _) _ _).trans
    (foldl_keeps (fun t : State => t.dram.data) _ (fun _ _ => State.sweepFrame_dramData _ _ _) _ _)

@[simp] theorem State.dramWrite_dramData (s : State) (a : Nat) (l : List Byte) :
    (s.dramWrite a l).dram.data = mwrite s.dram.data a l :=
  congrArg (mwrite · a l) (State.readyLines_dramData s _ _)

/-- Where the extension keeps the entry of this SEQ (R384). -/
def State.extAddr (s : State) (q : BitVec 32) : Nat := s.param 0x16 * 2 ^ 20 + 32 * (q.toNat % (32768 * s.param 0x17))

/-- The copy with its place in the extension named. -/
theorem sillageCopy_eq (s : State) :
    s.sillageCopy =
      if s.extLag = 0 ∨ ¬ s.dramServes (s.extAddr s.faults.extNext) then s
      else
        (((s.dramIssue true [s.extAddr s.faults.extNext / 64] 3 0x4106).dramWrite (s.extAddr s.faults.extNext)
          (leBytes 32 (Store.get ({} : FaultMsg) s.faults.sillage (s.faults.extNext.toNat % 4096)).word)).modFaults
            (fun f => { f with extNext := s.faults.extNext + 1, lossRun := false })) := rfl

/-- R384, R385: the oldest entry that is not copied goes to its place in the extension, where its channel serves. -/
theorem sillageCopy_of_serves {s : State} (hlag : s.extLag ≠ 0) (hserves : s.dramServes (s.extAddr s.faults.extNext) = true) :
    s.sillageCopy.faults.extNext = s.faults.extNext + 1 ∧
      s.sillageCopy.dram.data = mwrite s.dram.data (s.extAddr s.faults.extNext)
        (leBytes 32 (Store.get ({} : FaultMsg) s.faults.sillage (s.faults.extNext.toNat % 4096)).word) := by
  rw [sillageCopy_eq, if_neg (by simp [hlag, hserves])]
  simp only [State.modFaults_faults, State.modFaults_dram, State.dramWrite_dramData, State.dramIssue_dramData, and_self]

end Sys2Proof.Machine
end

section
/-! The release of an island from a reaction's block reset (R376, R377). -/

namespace Sys2Proof.Machine

open Sys2Proof.Claims

/-- The state but for its clusters, the crossings and the identities taken. -/
def State.butClusters (s : State) : State := { s with clusters := [], net := [], nextId := 0 }

theorem State.hopDone_butClusters (s : State) (t id : Nat) (r : HelperRes) : (s.hopDone t id r).butClusters = s.butClusters := rfl

theorem State.hopDone_net (s : State) (t id : Nat) (r : HelperRes) : (s.hopDone t id r).net = s.net := rfl

/-- Refused helper operations change their clusters alone. -/
theorem State.refuseHops_butClusters (s : State) (b : Nat) : (s.refuseHops b).butClusters = s.butClusters :=
  foldl_keeps State.butClusters _ (fun t (e : Nat × Nat) => t.hopDone_butClusters e.1 e.2 (refusal 8)) _ s

theorem State.refuseHops_net (s : State) (b : Nat) : (s.refuseHops b).net = s.net :=
  foldl_keeps State.net _ (fun t (e : Nat × Nat) => t.hopDone_net e.1 e.2 (refusal 8)) _ s

/-- Where no message crosses to the island, only helper operations are refused. -/
theorem State.refuseAll_butClusters {s : State} {b : Nat} (h : ∀ m ∈ s.net, m.dst ≠ b) : (s.refuseAll b).butClusters = s.butClusters := by
  have hnone : (s.refuseHops b).net.filter (fun c => c.dst == b) = [] := by
    rw [State.refuseHops_net]
    exact List.filter_eq_nil_iff.2 fun m hm => by simpa using h m hm
  have hall : s.refuseAll b = { s.refuseHops b with net := (s.refuseHops b).net.filter (fun c => c.dst != b) } := by
    unfold State.refuseAll
    simp only [hnone, List.foldl_nil]
  rw [hall]
  exact s.refuseHops_butClusters b

/-- The island's clock runs again, and whatever crossed to it has been refused. -/
def State.restarted (s : State) (i : Nat) : State :=
  (s.refuseAll i).modIsl i (fun x => { x with st := if x.unlocked then .stopped else .run })

/-- Island `i` is in the block reset of a reaction, its clock locked, and no message crosses to it. -/
structure AwaitsRelease (s : State) (i : Nat) : Prop where
  inReset : s.inReset i = true
  blockReset : (s.isl i).blockReset = true
  unlocked : (s.isl i).unlocked = false
  notCommanded : s.running (.clusterReset i) = false
  quiet : ∀ m ∈ s.net, m.dst ≠ i

section
variable {s : State} {i : Nat} (h : AwaitsRelease s i)
include h

theorem AwaitsRelease.blockRelease_eq : s.blockRelease i = ((s.restarted i).releaseWork i).backInService i :=
  if_pos (by simp [h.inReset, h.blockReset, h.notCommanded])

theorem AwaitsRelease.refuseAll_isl (j : Nat) : (s.refuseAll i).isl j = s.isl j :=
  (congrArg (State.isl · j) (State.refuseAll_butClusters h.quiet) :)

theorem AwaitsRelease.isl_restarted_same : (s.restarted i).isl i = { s.isl i with st := .run } := by
  simp [State.restarted, h.refuseAll_isl, h.unlocked]

theorem AwaitsRelease.isl_restarted_other {j : Nat} (hj : j ≠ i) : (s.restarted i).isl j = s.isl j := by
  rw [State.restarted, State.isl_modIsl, if_neg hj, h.refuseAll_isl]

theorem AwaitsRelease.up_restarted : (s.restarted i).up i = true := by
  rw [State.up, h.isl_restarted_same]
  rfl

theorem AwaitsRelease.blockReset_restarted : ((s.restarted i).isl i).blockReset = true := by
  rw [h.isl_restarted_same]
  exact h.blockReset

theorem AwaitsRelease.faults_restarted : (s.restarted i).faults = s.faults :=
  (congrArg State.faults (State.refuseAll_butClusters h.quiet) :)

theorem AwaitsRelease.time_restarted : (s.restarted i).time = s.time :=
  (congrArg State.time (State.refuseAll_butClusters h.quiet) :)

theorem AwaitsRelease.serves_restarted : (s.restarted i).serves = s.serves :=
  (congrArg State.serves (State.refuseAll_butClusters h.quiet) :)

theorem AwaitsRelease.chan_restarted (c : Nat) : (s.restarted i).chan c = s.chan c :=
  (congrArg (State.chan · c) (State.refuseAll_butClusters h.quiet) :)

end

/-- The Buffer Pool Manager and the Steward have no work to take up at their release. -/
theorem releaseWork_eq_self {i : Nat} (hi : i = 41 ∨ i = 51) (s : State) : s.releaseWork i = s := by
  rcases hi with rfl | rfl <;> rfl

/-- A released channel trains again before it serves (R342). -/
theorem releaseWork_of_service {s : State} {i : Nat} (hlo : 43 ≤ i) (hhi : i < 51) (hst : (s.chan (i - 43)).st = .service) :
    s.releaseWork i = s.modChan (i - 43) (fun k => { k with st := .training, retrain := true }) := by
  have h26 : ¬ i < 26 := by omega
  have h26' : i ≠ 26 := by omega
  have h31 : ¬ i < 31 := by omega
  have h36 : i ≠ 36 := by omega
  have h42 : i ≠ 42 := by omega
  rw [State.releaseWork, if_neg h26, if_neg h26', if_neg h31, if_neg h36, if_neg h42, if_pos ⟨hlo, hhi⟩, if_pos hst]

/-- A channel that trains, and the Steward before its firmware or ROM serves, are not back in service yet (R364, R376). -/
theorem backInService_of_waits {s : State} {i : Nat}
    (h : 43 ≤ i ∧ i < 51 ∧ (s.chan (i - 43)).st = .training ∨ i = 51 ∧ s.serves = false) : s.backInService i = s := by
  refine if_pos ?_
  rcases h with ⟨hlo, hhi, hst⟩ | ⟨rfl, hs⟩
  · simp [hlo, hhi, hst]
  · simp [hs]

/-- The Buffer Pool Manager, and the Steward once it serves, are back in service as they are released. -/
theorem backInService_of_serves {s : State} {i : Nat} (hi : i = 41 ∨ i = 51 ∧ s.serves = true) : s.backInService i = s.returned i := by
  refine if_neg ?_
  rcases hi with rfl | ⟨rfl, hs⟩
  · simp
  · simp [hs]

/-- An island that runs and owes a BLOCK_RESET_DONE is reported by the collector and owes none any more. -/
theorem returned_of_up {s : State} {i : Nat} (hb : (s.isl i).blockReset = true) (hup : s.up i = true) :
    s.returned i = (s.modIsl i (fun x => { x with blockReset := false })).raise (64 * 52) 0xC4 { addr := i, conseq := true } :=
  if_pos (by simp [hb, hup])

theorem reported_returned {s : State} {i : Nat} (hb : (s.isl i).blockReset = true) (hup : s.up i = true) :
    reported s (s.returned i) (64 * 52) 0xC4 { addr := i, conseq := true } := by
  rw [returned_of_up hb hup]
  exact reported_congr (reported_raise (s.modIsl i _) 0xC4 _ (by omega)) rfl rfl rfl

theorem isl_returned {s : State} {i : Nat} (hb : (s.isl i).blockReset = true) (hup : s.up i = true) (j : Nat) :
    (s.returned i).isl j = if j = i then { s.isl i with blockReset := false } else s.isl j := by
  rw [returned_of_up hb hup, State.isl_after_raise, State.isl_modIsl]

end Sys2Proof.Machine
end

section
/-! A chip reset (R377, R422). -/

namespace Sys2Proof.Machine

@[simp] theorem resetChip_startup (s : State) (cause : BitVec 32) (err : Bool) :
    (s.resetChip cause err).startup = { running := true } := rfl

/-- The collector keeps its records, the ERR_N control word, and HOLD at 1 where the reaction's message asks for it. -/
@[simp] theorem resetChip_faults (s : State) (cause : BitVec 32) (err : Bool) :
    (s.resetChip cause err).faults = { s.faults.kept cause with
      errPulsing := s.faults.errPulsing, errRelease := s.faults.errRelease && !err, errHold := s.faults.errHold || err } := rfl

@[simp] theorem resetChip_live (s : State) (cause : BitVec 32) (err : Bool) : (s.resetChip cause err).live = [] := rfl

@[simp] theorem resetChip_pins (s : State) (cause : BitVec 32) (err : Bool) :
    (s.resetChip cause err).pins = { s.pins with pcieUp := false } := rfl

@[simp] theorem resetChip_flash (s : State) (cause : BitVec 32) (err : Bool) : (s.resetChip cause err).sec.flash = s.sec.flash := rfl

@[simp] theorem resetChip_resetDue (s : State) (cause : BitVec 32) (err : Bool) : (s.resetChip cause err).ycp.resetDue = false := rfl

/-- Start-up begins with I51 and I52 alone out of reset. -/
theorem up_resetChip (s : State) (cause : BitVec 32) (err : Bool) {i : Nat} (hi : i = 51 ∨ i = 52) :
    (s.resetChip cause err).up i = true := by
  rcases hi with rfl | rfl <;> rfl

theorem inReset_resetChip (s : State) (cause : BitVec 32) (err : Bool) {i : Nat} (hi : i < 51) :
    (s.resetChip cause err).inReset i = true := by
  have h51 : i ≠ 51 := by omega
  have h52 : i ≠ 52 := by omega
  simp only [State.inReset, State.resetChip, State.begin, List.foldl_cons, List.foldl_nil, State.isl_modIsl, if_neg h51, if_neg h52]
  rfl

end Sys2Proof.Machine
end

section
/-! The events of the Fault Collector (R19, R365, R370, R371, R376, R377, R383, R385). -/

namespace Sys2Proof.Machine

open Sys2Proof.Claims

theorem givesSome_outboxOverrun {s : State} {i : Nat} (hi : i < 64) (hroom : (outboxOf s i).msgs.length < 16)
    (hlost : (outboxOf s i).lost ≠ []) :
    givesSome (.outboxOverrun i) s (fun u => outboxOf u i = { outboxOf s i with
      lost := [], msgs := (outboxOf s i).msgs ++ [mkFault s (64 * i + 0x3F) 0xC3 (lossInfo (outboxOf s i))] }) :=
  ⟨_, congrArg answer (if_pos hi), outboxOf_outboxOverrun hi hroom hlost⟩

/-- Between two islands of the device the row is the rejection of a flit. -/
theorem exec_flitResend {s : State} {a b : Nat} (ha : a < 53) (hb : b < 53) :
    exec (.flitResend a b) s = .next (s.flitResend a b).watch :=
  congrArg answer (if_pos (by simp [ha, hb]))

theorem givesSome_flitResend_again {s : State} {a b : Nat} {m : Msg} (ha : a < 53) (hb : b < 53) (hup : s.up b = true)
    (hm : s.oldest a b = some m) (htries : Store.get 0 s.faults.flitTries (a * 64 + b) < 3) :
    givesSome (.flitResend a b) s (fun u =>
      Store.get 0 u.faults.flitTries (a * 64 + b) = Store.get 0 s.faults.flitTries (a * 64 + b) + 1 ∧ u.net = s.net) := by
  refine ⟨_, exec_flitResend ha hb, ?_⟩
  rw [flitResend_of_oldest hup hm, if_pos htries]
  exact ⟨by simp, rfl⟩

theorem givesSome_flitResend_refused {s : State} {a b t r p : Nat} {g : BitVec 8} (ha : a < 53) (hb : b < 53) (hup : s.up b = true)
    (hm : s.oldest a b = some (.ordReq t r g p)) (htries : 3 ≤ Store.get 0 s.faults.flitTries (a * 64 + b)) :
    givesSome (.flitResend a b) s (fun u =>
      u.net = dropCrossing a b s.net ∧ reported s u (64 * b + 0x3F) 0xC2 { addr := a }) := by
  refine ⟨_, exec_flitResend ha hb, ?_⟩
  have hm' : ((s.dropTries a b).raise (64 * b + 0x3F) 0xC2 { addr := a }).oldest a b = some (.ordReq t r g p) := by
    rwa [State.oldest, State.raise_net]
  rw [flitResend_of_oldest hup hm, if_neg (by omega), src_eq, refuseOldest_of_ordReq hm']
  refine ⟨congrArg (dropCrossing a b) (State.raise_net (s.dropTries a b) _ _ _), ?_⟩
  exact reported_congr (reported_raise (s.dropTries a b) 0xC2 { addr := a } (by omega)) rfl rfl rfl

/-- A released Buffer Pool Manager, or Steward that serves, is reported as it runs again. -/
theorem givesSome_blockResetRelease_served {s : State} {i : Nat} (h : AwaitsRelease s i) (hi : i = 41 ∨ i = 51 ∧ s.serves = true) :
    givesSome (.blockResetRelease i) s (fun u => u.up i = true ∧ (u.isl i).blockReset = false
      ∧ (∀ j, j ≠ i → u.isl j = s.isl j) ∧ reported s u (64 * 52) 0xC4 { addr := i, conseq := true }) := by
  have h53 : i < 53 := by omega
  refine ⟨_, congrArg answer (if_pos h53), ?_⟩
  have hserves : i = 41 ∨ i = 51 ∧ (s.restarted i).serves = true := by rwa [h.serves_restarted]
  rw [h.blockRelease_eq, releaseWork_eq_self (hi.imp_right And.left), backInService_of_serves hserves]
  have hisl := isl_returned h.blockReset_restarted h.up_restarted
  refine ⟨?_, ?_, fun j hj => ?_, ?_⟩
  · simp [State.up, hisl, h.isl_restarted_same]
  · simp [hisl]
  · simp [hisl, hj, h.isl_restarted_other hj]
  · exact reported_congr (reported_returned h.blockReset_restarted h.up_restarted)
      (congrArg Faults.outbox h.faults_restarted) h.time_restarted rfl

/-- A Steward that neither firmware nor ROM serves runs again and is not reported yet. -/
theorem givesSome_blockResetRelease_steward {s : State} (h : AwaitsRelease s 51) (hserves : s.serves = false) :
    givesSome (.blockResetRelease 51) s (fun u => u.up 51 = true ∧ (u.isl 51).blockReset = true ∧ u.faults = s.faults) := by
  refine ⟨_, rfl, ?_⟩
  rw [h.blockRelease_eq, releaseWork_eq_self (.inr rfl), backInService_of_waits (.inr ⟨rfl, h.serves_restarted.trans hserves⟩)]
  exact ⟨h.up_restarted, h.blockReset_restarted, h.faults_restarted⟩

/-- A channel that was in service runs again, trains, and is not reported yet. -/
theorem givesSome_blockResetRelease_channel {s : State} {i : Nat} (h : AwaitsRelease s i) (hlo : 43 ≤ i) (hhi : i < 51)
    (hst : (s.chan (i - 43)).st = .service) :
    givesSome (.blockResetRelease i) s (fun u =>
      u.up i = true ∧ (u.isl i).blockReset = true ∧ (u.chan (i - 43)).st = .training ∧ u.faults = s.faults) := by
  have h53 : i < 53 := by omega
  refine ⟨_, congrArg answer (if_pos h53), ?_⟩
  have hst' : ((s.restarted i).chan (i - 43)).st = .service := by rw [h.chan_restarted, hst]
  have htrains : (((s.restarted i).modChan (i - 43) (fun k => { k with st := .training, retrain := true })).chan (i - 43)).st = .training := by
    rw [State.chan_modChan_same]
  rw [h.blockRelease_eq, releaseWork_of_service hlo hhi hst', backInService_of_waits (.inl ⟨hlo, hhi, htrains⟩)]
  simp [h.up_restarted, h.blockReset_restarted, h.faults_restarted]

theorem gives_errNPulseEnd {s : State} (h : s.faults.errPulsing = true) :
    gives .errNPulseEnd s { s with faults := { s.faults with
      errPulsing := false, errHold := s.faults.errHold && !s.faults.errRelease, errRelease := false } } :=
  congrArg answer (if_pos h)

theorem givesSome_sillageCopy {s : State} (hup : s.up 52 = true) (hlag : s.extLag ≠ 0)
    (hserves : s.dramServes (s.extAddr s.faults.extNext) = true) :
    givesSome .sillageCopy s (fun u => u.faults.extNext = s.faults.extNext + 1 ∧
      mreadLE u.dram.data (s.extAddr s.faults.extNext) 32 =
        (Store.get ({} : FaultMsg) s.faults.sillage (s.faults.extNext.toNat % 4096)).word % 2 ^ 256 ∧
      ∀ b, b < s.extAddr s.faults.extNext ∨ s.extAddr s.faults.extNext + 32 ≤ b → mget u.dram.data b = mget s.dram.data b) := by
  refine ⟨_, congrArg answer (if_pos hup), ?_⟩
  obtain ⟨hnext, hdata⟩ := sillageCopy_of_serves hlag hserves
  rw [State.watch_faults, State.watch_dram, hnext, hdata, mreadLE_mwrite_leBytes]
  exact ⟨rfl, rfl, fun b hb => mget_mwrite_outside _ _ _ b (by rwa [length_leBytes])⟩

theorem givesSome_chipReset {s : State} {cause : BitVec 32} (h : s.faults.chipReset = some cause) :
    givesSome .chipReset s (fun u =>
      u.startup = { running := true } ∧ u.faults.resetCause = cause ∧ u.faults.chipReset = none ∧ u.faults.sillage = s.faults.sillage
        ∧ u.faults.nextSeq = s.faults.nextSeq ∧ u.faults.capture = s.faults.capture ∧ (s.faults.chipErr = true → u.faults.errHold = true)
        ∧ u.up 51 = true ∧ u.up 52 = true ∧ (∀ i, i < 51 → u.inReset i = true) ∧ u.live = [] ∧ u.sec.flash = s.sec.flash
        ∧ u.pins = { s.pins with pcieUp := false }) := by
  have hnow : s.chipResetNow = s.resetChip cause s.faults.chipErr := by rw [State.chipResetNow, h]
  have h51 := up_resetChip s cause s.faults.chipErr (.inl rfl)
  have h52 := up_resetChip s cause s.faults.chipErr (.inr rfl)
  have hothers : ∀ i, i < 51 → (s.resetChip cause s.faults.chipErr).inReset i = true := fun i hi => inReset_resetChip s _ _ hi
  refine ⟨_, congrArg answer hnow, ?_⟩
  simpa [Faults.kept, h51, h52, imp_or] using hothers

theorem givesSome_sysResetExpire {s : State} (h : s.ycp.resetDue = true) :
    givesSome .sysResetExpire s (fun u =>
      u.startup = { running := true } ∧ u.faults.resetCause = 0x30000000 ∧ u.faults.sillage = s.faults.sillage ∧ u.up 51 = true
        ∧ u.sec.flash = s.sec.flash ∧ u.ycp.resetDue = false) := by
  have h51 := up_resetChip s 0x30000000#32 false (.inl rfl)
  refine ⟨_, congrArg answer (if_pos h), ?_⟩
  simp [Faults.kept, h51]

/-- Settles O38: each event by its own rule above. The three forms of a release share that nothing but helper operations is refused on
the way, which leaves all but the clusters as it was. -/
theorem collectorEventsReportAndRelease : Obligations.CollectorEventsReportAndRelease := by
  unfold Obligations.CollectorEventsReportAndRelease
  refine ⟨fun s i hi hroom hlost => givesSome_outboxOverrun hi hroom hlost,
    fun s a b m ha hb hup hm htries => givesSome_flitResend_again ha hb hup hm htries,
    fun s a b t r k g ha hb hup hm htries => givesSome_flitResend_refused ha hb hup hm htries,
    fun s i _ hreset hblock hlocked hcmd hquiet => ?_,
    fun s h => gives_errNPulseEnd h,
    fun s hup hlag => givesSome_sillageCopy hup hlag,
    fun s cause h => givesSome_chipReset h,
    fun s h => givesSome_sysResetExpire h⟩
  have h : AwaitsRelease s i := ⟨hreset, hblock, hlocked, hcmd, hquiet⟩
  refine ⟨givesSome_blockResetRelease_served h, ?_, givesSome_blockResetRelease_channel h⟩
  rintro rfl hserves
  exact givesSome_blockResetRelease_steward h hserves

end Sys2Proof.Machine
end

section
/-! The passing of time on an empty queue (R43, R422, R467): what the engines of one nanosecond leave as it was. -/

namespace Sys2Proof.Machine

open Sys2Proof.Claims

/-- What a nanosecond's work leaves alone, device time itself aside: the queue, the records, the ports, the Accords, the security record
and the DEBUG operation that waits. -/
def State.standing (s : State) : List Instr × DevTime × Seqr × Ports × Accord × Security × Option (Nat × List Byte) :=
  (s.pending, s.time, s.seq, s.ports, s.accord, s.sec, s.obs.dbgWait)

@[simp] theorem State.standing_count (s : State) (u e n : Nat) : (s.count u e n).standing = s.standing := rfl

@[simp] theorem State.standing_modTh (s : State) (t : Nat) (f : Thread → Thread) : (s.modTh t f).standing = s.standing := rfl

@[simp] theorem State.standing_modCl (s : State) (c : Nat) (f : Cluster → Cluster) : (s.modCl c f).standing = s.standing := rfl

@[simp] theorem State.standing_modChan (s : State) (c : Nat) (f : DramChan → DramChan) : (s.modChan c f).standing = s.standing := rfl

@[simp] theorem State.standing_modDecant (s : State) (f : Decant → Decant) : (s.modDecant f).standing = s.standing := rfl

@[simp] theorem State.standing_raise (s : State) (u k : Nat) (i : FaultInfo) : (s.raise u k i).standing = s.standing := by
  unfold State.raise State.enqueueFault
  dsimp only
  split <;> rfl

@[simp] theorem State.standing_dramClear (s : State) (a n : Nat) : (s.dramClear a n).standing = s.standing := rfl

/-! ### DRAM lines -/

@[simp] theorem State.standing_sweepFrame (s : State) (c f : Nat) : (s.sweepFrame c f).standing = s.standing := by
  unfold State.sweepFrame
  split <;> rfl

@[simp] theorem State.standing_corrected (s : State) (c r d n : Nat) : (s.corrected c r d n).standing = s.standing := by
  unfold State.corrected
  dsimp only
  split <;> simp

@[simp] theorem State.standing_decodeLine (s : State) (l : Nat) : (s.decodeLine l).standing = s.standing := by
  unfold State.decodeLine
  split
  · rfl
  · exact foldl_keeps State.standing _ (fun _ _ => State.standing_corrected _ _ _ _ _) _ _

theorem State.standing_readyLines (s : State) (l : List Nat) (w : Nat → Bool) : (s.readyLines l w).standing = s.standing :=
  (foldl_keeps State.standing _ (fun _ _ => State.standing_decodeLine _ _) _ _).trans
    (foldl_keeps State.standing _ (fun _ _ => State.standing_sweepFrame _ _ _) _ _)

@[simp] theorem State.standing_dramWrite (s : State) (a : Nat) (l : List Byte) : (s.dramWrite a l).standing = s.standing :=
  State.standing_readyLines s _ _

@[simp] theorem State.standing_dramIssue (s : State) (w : Bool) (l : List Nat) (k m : Nat) :
    (s.dramIssue w l k m).standing = s.standing := by
  unfold State.dramIssue
  refine foldl_keeps State.standing _ (fun t j => ?_) l s
  dsimp only
  split <;> rfl

@[simp] theorem State.standing_dramUe (s : State) (a m k : Nat) (c : Bool) : (s.dramUe a m k c).standing = s.standing :=
  State.standing_raise _ _ _ _

@[simp] theorem State.standing_writeBack (s : State) (l : Nat) : (s.writeBack l).standing = s.standing := rfl

/-! ### The Decant mover (R339) -/

theorem State.standing_copyLines (s : State) (d : Decant) (n : Nat) : (s.copyLines d n).standing = s.standing := by
  unfold State.copyLines
  refine (foldl_keeps State.standing _ (fun t e => ?_) _ _).trans (foldl_keeps State.standing _ (fun t l => ?_) _ s)
  · dsimp only
    split <;> rfl
  · rw [State.standing_writeBack]
    split <;> simp

@[simp] theorem State.standing_moveLines (s : State) (n : Nat) : (s.moveLines n).standing = s.standing := by
  unfold State.moveLines
  split
  · rfl
  · simp [State.standing_copyLines]

theorem State.standing_moverWorks (s : State) (n : Nat) : (s.moverWorks n).standing = s.standing := by
  unfold State.moverWorks
  split
  · split
    · simp
    · rfl
  · rfl

/-! ### Migrations of tables (R248) -/

@[simp] theorem State.standing_layEntry (s : State) (x : TStruct) (on : Bool) (e : TEntry) : (s.layEntry x on e).standing = s.standing := by
  unfold State.layEntry
  dsimp only
  split
  · simp
  · rfl
  · rfl

@[simp] theorem State.standing_setEntries (s : State) (x y : TStruct) : (s.setEntries x y).standing = s.standing :=
  (foldl_keeps State.standing _ (fun _ _ => State.standing_layEntry _ _ _ _) _ _).trans
    (foldl_keeps State.standing _ (fun _ _ => State.standing_layEntry _ _ _ _) _ _)

theorem State.standing_splitTo (s : State) (x : TStruct) (c : Nat) : (s.splitTo x c).standing = s.standing := by
  unfold State.splitTo
  split
  · rfl
  · dsimp only
    rw [State.standing_setEntries]
    split
    · exact foldl_keeps State.standing _ (fun _ _ => State.standing_dramClear _ _ _) _ _
    · rfl

theorem State.standing_migrate (s : State) : s.migrate.standing = s.standing := by
  unfold State.migrate
  refine foldl_keeps State.standing _ (fun t x => ?_) _ s
  split
  · split
    · exact State.standing_splitTo _ _ _
    · rfl
  · rfl

/-! ### Timers, counters and cycles (R122, R148, R456, R461, R462) -/

theorem State.standing_edge (s : State) (t b : Nat) : (s.edge t b).standing = s.standing := by
  unfold State.edge
  split <;> rfl

theorem State.standing_timerFalls (s : State) (n t : Nat) : (s.timerFalls n t).standing = s.standing := by
  unfold State.timerFalls
  dsimp only
  split
  · rfl
  · split
    · exact State.standing_edge _ _ _
    · rfl

theorem State.standing_timersFall (s : State) (n : Nat) : (s.timersFall n).standing = s.standing :=
  foldl_keeps State.standing _ (fun _ _ => foldl_keeps State.standing _ (fun _ _ => State.standing_timerFalls _ _ _) _ _) _ s

theorem State.standing_timeAbove (s : State) (n : Nat) : (s.timeAbove n).standing = s.standing := rfl

theorem State.standing_preemptNs (s : State) (n : Nat) : (s.preemptNs n).standing = s.standing :=
  foldl_keeps State.standing _ (fun _ _ => State.standing_count _ _ _ _) _ s

theorem State.standing_afterNs (s : State) (n : Nat) : (s.afterNs n).standing = s.standing := by
  unfold State.afterNs
  split
  · rfl
  · rw [State.standing_migrate, State.standing_moverWorks, State.standing_preemptNs, State.standing_timeAbove, State.standing_timersFall]

theorem State.standing_islandCycles (s : State) (i : Nat) : (s.islandCycles i).standing = s.standing := by
  unfold State.islandCycles
  split
  · dsimp only
    split <;> rfl
  · rfl

theorem State.standing_countSlots (s : State) (c k : Nat) : (s.countSlots c k).standing = s.standing := by
  unfold State.countSlots
  dsimp only
  split <;> rfl

theorem State.standing_slotsPass (s : State) : s.slotsPass.standing = s.standing :=
  foldl_keeps State.standing _ (fun _ _ => foldl_keeps State.standing _ (fun _ _ => State.standing_countSlots _ _ _) _ _) _ s

/-! ### One nanosecond -/

/-- The state after one nanosecond's work, before a DEBUG operation that waits is tried again. -/
def State.nsWorked (s : State) : State :=
  let t := { s with time := s.time.tick }
  ((List.range 53).foldl State.islandCycles (t.afterNs (t.time.elapsed - s.time.elapsed))).slotsPass

theorem State.standing_nsWorked (s : State) : s.nsWorked.standing = { s with time := s.time.tick }.standing := by
  unfold State.nsWorked
  dsimp only
  rw [State.standing_slotsPass, foldl_keeps State.standing _ State.standing_islandCycles, State.standing_afterNs]

theorem step_of_idle {s : State} (h : s.pending = []) : step s = .next s.passNs := by
  unfold step
  rw [h]

theorem passNs_of_not_running {s : State} (h : s.deviceState ≠ .running) : s.passNs = s := if_neg h

theorem passNs_of_running {s : State} (h : s.deviceState = .running) : s.passNs = s.nsWorked.debugWaits.watch := if_pos h

/-- R43: device time, in units of 2⁻³² ns, moves by the trimmed rate modulo 2⁹⁶. -/
theorem DevTime.tick_value (t : DevTime) :
    t.tick.ns.toNat * 2 ^ 32 + t.tick.frac.toNat = (t.ns.toNat * 2 ^ 32 + t.frac.toNat + (2 ^ 32 + t.trim).toNat) % 2 ^ 96 := by
  have hns : t.tick.ns.toNat = (t.ns.toNat + (t.frac.toNat + (2 ^ 32 + t.trim).toNat) / 2 ^ 32 % 2 ^ 64) % 2 ^ 64 :=
    BitVec.toNat_add _ _
  have hfrac : t.tick.frac.toNat = (t.frac.toNat + (2 ^ 32 + t.trim).toNat) % 2 ^ 32 := rfl
  rw [hns, hfrac]
  generalize (2 ^ 32 + t.trim).toNat = n
  omega

/-- Settles O60: what a nanosecond's work leaves is `State.standing_nsWorked`, and device time follows `DevTime.tick_value`. -/
theorem idleStepsLetTimePass : Obligations.IdleStepsLetTimePass := by
  unfold Obligations.IdleStepsLetTimePass
  intro s hidle
  have hkept := s.standing_nsWorked
  simp only [State.standing, Prod.mk.injEq] at hkept
  obtain ⟨hpending, htime, hseq, hports, haccord, hsec, hwait⟩ := hkept
  refine ⟨fun h => ?_, fun h => ?_, fun h hnone => ?_⟩
  · rw [step_of_idle hidle, passNs_of_not_running h]
  · exact ⟨s.nsWorked, by rw [step_of_idle hidle, passNs_of_running h], hwait, hpending.trans hidle, hseq, hports, htime⟩
  · have hstep : step s = .next s.nsWorked.watch := by
      rw [step_of_idle hidle, passNs_of_running h, State.debugWaits_of_none _ (hwait.trans hnone)]
    refine ⟨_, hstep, ?_⟩
    simp only [State.watch_pending, State.watch_seq, State.watch_ports, State.watch_accord, State.watch_sec, State.watch_time, htime]
    exact ⟨hpending.trans hidle, hseq, hports, haccord, hsec, rfl, fun _ => s.time.tick_value⟩

end Sys2Proof.Machine
end

section
/-! Free rings and packets: what goes back to a pool, and what that leaves as it was (R281, R286, R291). -/

namespace Sys2Proof.Machine

open Sys2Proof.Claims

/-! ### The memory of a pool -/

@[simp] theorem State.desc_after_modPool (s : State) (p : Nat) (f : Pool → Pool) (d : Nat) : (s.modPool p f).desc d = s.desc d := rfl

@[simp] theorem State.pool_after_cellWrite (s : State) (a : Nat) (l : List Byte) (q : Nat) : (s.cellWrite a l).pool q = s.pool q := rfl

@[simp] theorem State.desc_after_cellWrite (s : State) (a : Nat) (l : List Byte) (d : Nat) : (s.cellWrite a l).desc d = s.desc d := rfl

@[simp] theorem State.pool_after_poolPut (s : State) (p a : Nat) (l : List Byte) (q : Nat) : (s.poolPut p a l).pool q = s.pool q := by
  unfold State.poolPut
  split <;> simp

@[simp] theorem State.desc_after_poolPut (s : State) (p a : Nat) (l : List Byte) (d : Nat) : (s.poolPut p a l).desc d = s.desc d := by
  unfold State.poolPut
  split <;> simp

/-! ### Entries that go back to their ring -/

/-- One entry is written to its slot, and those behind it to the slots after. -/
theorem State.putSlots_cons (s : State) (p k e : Nat) (t : List Nat) :
    s.putSlots p k (e :: t) =
      (State.modPool (if p = 0 then s else s.poolPut p (s.slotAddr p ((s.pool p).ring.slot k)) (leBytes 8 e)) p
        (fun q => { q with badRing := q.badRing.filter (· != (s.pool p).ring.slot k) })).putSlots p (k + 1) t := rfl

theorem State.ring_putSlots (l : List Nat) : ∀ (s : State) (p k q : Nat), ((s.putSlots p k l).pool q).ring = (s.pool q).ring := by
  induction l with
  | nil => intros; rfl
  | cons e t ih =>
    intro s p k q
    rw [State.putSlots_cons, ih, State.pool_modPool]
    split
    · subst q
      split <;> simp
    · split <;> simp

theorem State.desc_putSlots (l : List Nat) : ∀ (s : State) (p k d : Nat), (s.putSlots p k l).desc d = s.desc d := by
  induction l with
  | nil => intros; rfl
  | cons e t ih =>
    intro s p k d
    rw [State.putSlots_cons, ih, State.desc_after_modPool]
    split <;> simp

theorem State.freeEntries_nil (s : State) (p : Nat) : s.freeEntries p [] = s := rfl

/-- Entries go to their slots, and then the ring and the pool's count of use take them in. -/
theorem State.freeEntries_cons (s : State) (p e : Nat) (t : List Nat) :
    s.freeEntries p (e :: t) =
      ((s.putSlots p (s.pool p).ring.count (e :: t)).modPool p (fun q => { q with
        ring := { q.ring with freed := q.ring.freed ++ e :: t }, inUse := q.inUse - (t.length + 1) })).count (src 41 0) 0x11 (t.length + 1) := rfl

/-- R286: freed entries stand at the tail of their ring. -/
theorem State.freed_freeEntries (s : State) (p : Nat) (l : List Nat) :
    ((s.freeEntries p l).pool p).ring.freed = (s.pool p).ring.freed ++ l := by
  cases l with
  | nil => simp [State.freeEntries_nil]
  | cons e t => simp [State.freeEntries_cons, State.ring_putSlots]

theorem State.desc_freeEntries (s : State) (p : Nat) (l : List Nat) (d : Nat) : (s.freeEntries p l).desc d = s.desc d := by
  cases l with
  | nil => rfl
  | cons e t => simp [State.freeEntries_cons, State.desc_putSlots]

/-- The state but for its pools and what is counted. -/
def State.butPools (s : State) : State := { s with pools := {}, obs := {} }

/-- Cells, whose slots hold no bytes of a memory, go back with the pools alone changed. -/
theorem State.butPools_putSlots_zero (l : List Nat) : ∀ (s : State) (k : Nat), (s.putSlots 0 k l).butPools = s.butPools := by
  induction l with
  | nil => intros; rfl
  | cons e t ih =>
    intro s k
    rw [State.putSlots_cons, ih]
    rfl

theorem State.butPools_freeEntries_zero (s : State) (l : List Nat) : (s.freeEntries 0 l).butPools = s.butPools := by
  cases l with
  | nil => rfl
  | cons e t =>
    rw [State.freeEntries_cons]
    exact State.butPools_putSlots_zero _ _ _

/-! ### A packet freed (R291) -/

theorem State.butPools_freePacket (s : State) (d : Nat) : (s.freePacket d).butPools = s.butPools :=
  State.butPools_freeEntries_zero s _

@[simp] theorem State.freePacket_ports (s : State) (d : Nat) : (s.freePacket d).ports = s.ports :=
  (congrArg State.ports (s.butPools_freePacket d) :)

@[simp] theorem State.freePacket_out (s : State) (d : Nat) : (s.freePacket d).out = s.out :=
  (congrArg State.out (s.butPools_freePacket d) :)

@[simp] theorem State.freePacket_faults (s : State) (d : Nat) : (s.freePacket d).faults = s.faults :=
  (congrArg State.faults (s.butPools_freePacket d) :)

@[simp] theorem State.freePacket_qm (s : State) (d : Nat) : (s.freePacket d).qm = s.qm :=
  (congrArg State.qm (s.butPools_freePacket d) :)

@[simp] theorem State.freePacket_ycp (s : State) (d : Nat) : (s.freePacket d).ycp = s.ycp :=
  (congrArg State.ycp (s.butPools_freePacket d) :)

@[simp] theorem State.freePacket_power (s : State) (d : Nat) : (s.freePacket d).power = s.power :=
  (congrArg State.power (s.butPools_freePacket d) :)

@[simp] theorem State.port_after_freePacket (s : State) (d p : Nat) : (s.freePacket d).port p = s.port p := by simp [State.port]

/-- R291: the packet's descriptor is free in its life, and its cells stand at the tail of pool 0's ring. -/
theorem packetFreed_freePacket (s : State) (d : Nat) : packetFreed s (s.freePacket d) d := by
  have hdesc : (s.freePacket d).desc d = { gen := (s.desc d).gen, bad := (s.desc d).bad } := by
    simp [State.freePacket, State.desc_freeEntries]
  refine ⟨by rw [hdesc], by rw [hdesc], ?_⟩
  rw [List.append_assoc]
  exact s.freed_freeEntries 0 _

/-- A packet freed is seen in the pools alone. -/
theorem packetFreed_congr {s s' u u' : State} {d : Nat} (h : packetFreed s u d) (hs : s.pools = s'.pools) (hu : u.pools = u'.pools) :
    packetFreed s' u' d := by
  unfold packetFreed State.desc State.pool at h ⊢
  rwa [← hs, ← hu]

theorem packetFreed_watch_freePacket {s t : State} (d : Nat) (h : t.pools = s.pools) : packetFreed s (t.freePacket d).watch d :=
  packetFreed_congr (packetFreed_freePacket t d) h rfl

end Sys2Proof.Machine
end

section
/-! What a port event, a two-step record and a count of wire bytes leave as it was (R45, R46, R52, R459). -/

namespace Sys2Proof.Machine

open Sys2Proof.Claims

/-! ### Counts of wire bytes -/

@[simp] theorem State.emit_out (s : State) (o : Output) : (s.emit o).out = o :: s.out := rfl

@[simp] theorem State.bandwidth_ports (s : State) (p r t : Nat) : (s.bandwidth p r t).ports = s.ports := rfl
@[simp] theorem State.bandwidth_faults (s : State) (p r t : Nat) : (s.bandwidth p r t).faults = s.faults := rfl
@[simp] theorem State.bandwidth_time (s : State) (p r t : Nat) : (s.bandwidth p r t).time = s.time := rfl
@[simp] theorem State.bandwidth_out (s : State) (p r t : Nat) : (s.bandwidth p r t).out = s.out := rfl
@[simp] theorem State.bandwidth_pools (s : State) (p r t : Nat) : (s.bandwidth p r t).pools = s.pools := rfl
@[simp] theorem State.port_after_bandwidth (s : State) (p r t q : Nat) : (s.bandwidth p r t).port q = s.port q := rfl

/-! ### Event bits (R52) -/

@[simp] theorem State.lane_after_modPort (s : State) (p : Nat) (f : Port → Port) (l : Nat) : (s.modPort p f).lane l = s.lane l := rfl

/-- Bit `b` of a word whose bit `k` alone is set. -/
theorem getLsbD_bitWord {w : Nat} (k b : Nat) (hb : b < w) : (((1 <<< k : Nat) : BitVec w)).getLsbD b = decide (b = k) := by
  have h : ((1 <<< k : Nat) : BitVec w).getLsbD b = (decide (b < w) && (1 <<< k).testBit b) := BitVec.getLsbD_ofNat _ _ _
  rw [h, Nat.one_shiftLeft, Nat.testBit_two_pow]
  simp [hb, eq_comm]

/-- Setting a bit that is set changes nothing. -/
theorem or_bitWord_of_getLsbD {w k : Nat} {x : BitVec w} (h : x.getLsbD k = true) : x ||| ((1 <<< k : Nat) : BitVec w) = x := by
  refine BitVec.eq_of_getLsbD_eq fun b hb => ?_
  rw [BitVec.getLsbD_or, getLsbD_bitWord k b hb]
  by_cases hbk : b = k
  · simp [hbk, h]
  · simp [hbk]

/-- The port with one event bit set. -/
def Port.withEvent (q : Port) (bit : Nat) : Port := { q with events := q.events ||| (1 <<< (bit - 17)) }

theorem State.portEvent_eq (s : State) (p bit : Nat) :
    s.portEvent p bit = if (s.port p).events.getLsbD (bit - 17) then s
      else State.stewardEvent (State.event (s.modPort p (·.withEvent bit)) 3) (.port p bit) := rfl

/-- The bit of a port's status word is set by its event, or is set already. -/
theorem State.port_portEvent (s : State) (p bit k : Nat) :
    (s.portEvent p bit).port k = if k = p then (s.port p).withEvent bit else s.port k := by
  rw [State.portEvent_eq]
  split
  next h =>
    split
    · subst k
      rw [Port.withEvent, or_bitWord_of_getLsbD h]
    · rfl
  next => simp [State.port_modPort]

@[simp] theorem State.portEvent_lane (s : State) (p bit k : Nat) : (s.portEvent p bit).lane k = s.lane k := by
  rw [State.portEvent_eq]
  split <;> simp

@[simp] theorem State.portEvent_faults (s : State) (p bit : Nat) : (s.portEvent p bit).faults = s.faults := by
  rw [State.portEvent_eq]
  split <;> simp

@[simp] theorem State.portEvent_time (s : State) (p bit : Nat) : (s.portEvent p bit).time = s.time := by
  rw [State.portEvent_eq]
  split <;> simp

@[simp] theorem State.portEvent_pools (s : State) (p bit : Nat) : (s.portEvent p bit).pools = s.pools := by
  rw [State.portEvent_eq]
  split <;> simp

/-! ### Two-step records (R45, R46) -/

/-- The port with one more two-step record. -/
def Port.withRecord (q : Port) (tag : BitVec 16) (t : BitVec 64) : Port := { q with tsFifo := q.tsFifo ++ [(tag, t)] }

/-- A record for which the FIFO has room joins it; the first of an empty FIFO is an event. -/
theorem State.twoStep_of_room {s : State} {p : Nat} (tag : BitVec 16) (t : BitVec 64) (h : (s.port p).tsFifo.length < 64) :
    s.twoStep p tag t =
      let u := (s.modPort p (·.withRecord tag t)).count (src (portIsl p) 0x11) 0x10
      if (s.port p).tsFifo.isEmpty then u.portEvent p 17 else u :=
  if_pos h

theorem State.port_twoStep_of_room {s : State} {p : Nat} (tag : BitVec 16) (t : BitVec 64) (h : (s.port p).tsFifo.length < 64) :
    ((s.twoStep p tag t).port p).tsFifo = (s.port p).tsFifo ++ [(tag, t)] ∧ ((s.twoStep p tag t).port p).txAhead = (s.port p).txAhead := by
  rw [State.twoStep_of_room tag t h]
  dsimp only
  split <;> simp [State.port_portEvent, Port.withEvent, Port.withRecord]

theorem State.twoStep_of_full {s : State} {p : Nat} (tag : BitVec 16) (t : BitVec 64) (h : 64 ≤ (s.port p).tsFifo.length) :
    s.twoStep p tag t = (s.count (src (portIsl p) 0x11) 0x11).raise (src (portIsl p) 0x11) 0x42 :=
  if_neg (by omega)

@[simp] theorem State.twoStep_pools (s : State) (p : Nat) (tag : BitVec 16) (t : BitVec 64) : (s.twoStep p tag t).pools = s.pools := by
  unfold State.twoStep
  dsimp only
  split
  · split <;> simp
  · simp

theorem State.txAhead_twoStep (s : State) (p : Nat) (tag : BitVec 16) (t : BitVec 64) :
    ((s.twoStep p tag t).port p).txAhead = (s.port p).txAhead := by
  by_cases h : (s.port p).tsFifo.length < 64
  · exact (State.port_twoStep_of_room tag t h).2
  · rw [State.twoStep_of_full tag t (by omega), State.port_after_raise, State.port_after_count]

end Sys2Proof.Machine
end

section
/-! Frames that a port transmits (R34, R35, R43 to R46, R386). -/

namespace Sys2Proof.Machine

open Sys2Proof.Claims

/-- Every unit of a port's island has a source number. -/
theorem src_portIsl_lt {p u : Nat} (hp : p < 40) (hu : u < 64) : src (portIsl p) u < 4096 := by
  unfold src portIsl
  omega

theorem laneSrc_lt {p : Nat} (hp : p < 40) : laneSrc p < 4096 := by
  unfold laneSrc src
  omega

theorem portOn_lt {s : State} {p : Nat} (h : s.portOn p = true) : p < 40 := by
  simp only [State.portOn, Bool.and_eq_true, decide_eq_true_eq] at h
  exact h.1.1

theorem exec_frameTransmit {s : State} {p : Nat} (h : s.portOn p = true) :
    exec (.frameTransmit p) s = .next (s.frameTransmit p).watch :=
  congrArg answer (if_pos h)

/-- A port without MACsec sends a frame as it is. -/
theorem secSend_of_open {s : State} {p : Nat} (l : List Byte) (h : s.portMacsec p = 0) : s.secSend p l = .send l s := if_pos (.inl h)

/-- The first frame taken ahead has gone, and `n` bytes of wire are counted. -/
def State.frameGone (s : State) (p n : Nat) (rest : List QPkt) : State :=
  (((s.modPort p (fun q => { q with txAhead := rest })).count (laneSrc p) 0x17).count (laneSrc p) 0x18 (n + 20)).bandwidth p 0 (n + 20)

@[simp] theorem State.frameGone_faults (s : State) (p n : Nat) (rest : List QPkt) : (s.frameGone p n rest).faults = s.faults := rfl
@[simp] theorem State.frameGone_time (s : State) (p n : Nat) (rest : List QPkt) : (s.frameGone p n rest).time = s.time := rfl
@[simp] theorem State.frameGone_out (s : State) (p n : Nat) (rest : List QPkt) : (s.frameGone p n rest).out = s.out := rfl
@[simp] theorem State.frameGone_pools (s : State) (p n : Nat) (rest : List QPkt) : (s.frameGone p n rest).pools = s.pools := rfl
@[simp] theorem State.port_frameGone (s : State) (p n : Nat) (rest : List QPkt) :
    (s.frameGone p n rest).port p = { s.port p with txAhead := rest } := State.port_modPort_same _ _ _

/-- A message raised in a step whose other changes leave the outboxes and the time is reported by the step. -/
theorem reported_of_raised {s t u : State} {source kind : Nat} {i : FaultInfo} (h : source < 4096) (hf : t.faults = s.faults)
    (ht : t.time = s.time) (hu : u.faults = (t.raise source kind i).faults) : reported s u source kind i :=
  reported_congr (reported_raise t kind i h) (congrArg Faults.outbox hf) ht (congrArg Faults.outbox hu.symm)

section
variable {s : State} {p : Nat} {k : QPkt} {rest : List QPkt}

/-- While the link is up the first frame is sent. -/
theorem frameTransmit_of_up (hq : (s.port p).txAhead = k :: rest) (hup : (s.port p).linkUp = true) :
    s.frameTransmit p = s.sendFrame p k rest := by
  rw [State.frameTransmit, hq]
  exact if_pos hup

/-- While the link is down the first frame is kept, or goes where the port's word says so (R34). -/
theorem frameTransmit_of_down (hq : (s.port p).txAhead = k :: rest) (hdown : (s.port p).linkUp = false) :
    s.frameTransmit p = if fld (s.portWord p) 17 17 = 1 then
      ((s.modPort p (fun q => { q with txAhead := rest })).count (laneSrc p) 0x19).freePacket k.desc else s := by
  rw [State.frameTransmit, hq]
  exact if_neg (by simp [hdown])

/-- A sound frame of a port without MACsec leaves with its FCS; a two-step action leaves its record before it (R45). -/
theorem sendFrame_of_sound {l : List Byte} (hl : padTo 60 (s.packetBytes k.desc) = l) (hsec : s.portMacsec p = 0)
    (hact : bits k.word.toNat 63 62 ≠ 2) (hp : k.poison = false) (hbad : s.packetBad k.desc = none) :
    s.sendFrame p k rest =
      let t := s.frameGone p (l ++ fcs l).length rest
      let u := if bits k.word.toNat 63 62 = 1 then
        t.twoStep p (BitVec.ofNat 16 (bits k.word.toNat 61 46)) (s.stamp (fld (s.obj 0x0016 p) 15 0)) else t
      (u.emit (.frame p (l ++ fcs l) true)).freePacket k.desc := by
  simp only [State.sendFrame, hp, hbad, Option.isSome_none, Bool.or_self, if_neg hact, secSend_of_open _ hsec, Bool.false_eq_true, if_false,
    Bool.not_false, hl]
  rfl

/-- The frame of an uncorrectable packet leaves with its FCS inverted and is reported (R386). -/
theorem sendFrame_of_poison {l : List Byte} (hl : padTo 60 (s.packetBytes k.desc) = l) (hsec : s.portMacsec p = 0)
    (hact : bits k.word.toNat 63 62 = 0) (hp : k.poison = true) :
    s.sendFrame p k rest =
      let w := l ++ (fcs l).map (~~~ ·)
      ((((s.frameGone p w.length rest).count (laneSrc p) 0x1A).raise (laneSrc p) 0x40).emit (.frame p w false)).freePacket k.desc := by
  have h1 : ¬ (0 : Nat) = 1 := by decide
  have h2 : ¬ (0 : Nat) = 2 := by decide
  simp only [State.sendFrame, hp, Bool.true_or, hact, if_neg h1, if_neg h2, secSend_of_open _ hsec, if_true, Bool.not_true, hl]
  rfl

theorem givesSome_frameTransmit_sound {l : List Byte} (hl : padTo 60 (s.packetBytes k.desc) = l) (hon : s.portOn p = true)
    (hq : (s.port p).txAhead = k :: rest) (hup : (s.port p).linkUp = true) (hsec : s.portMacsec p = 0)
    (hact : bits k.word.toNat 63 62 ≠ 2) (hp : k.poison = false) (hbad : s.packetBad k.desc = none) :
    givesSome (.frameTransmit p) s (fun u =>
      (∃ o, u.out = .frame p (l ++ fcs l) true :: o) ∧ (u.port p).txAhead = rest ∧ packetFreed s u k.desc ∧
        (bits k.word.toNat 63 62 ≠ 1 → u.port p = { s.port p with txAhead := rest } ∧ u.out = .frame p (l ++ fcs l) true :: s.out) ∧
        (bits k.word.toNat 63 62 = 1 → (s.port p).tsFifo.length < 64 → (u.port p).tsFifo = (s.port p).tsFifo ++
          [(BitVec.ofNat 16 (bits k.word.toNat 61 46), s.stamp (fld (s.obj 0x0016 p) 15 0))]) ∧
        (bits k.word.toNat 63 62 = 1 → 64 ≤ (s.port p).tsFifo.length → (u.port p).tsFifo = (s.port p).tsFifo
          ∧ reported s u (64 * portIsl p + 0x11) 0x42 {})) := by
  refine ⟨_, exec_frameTransmit hon, ?_⟩
  rw [frameTransmit_of_up hq hup, sendFrame_of_sound hl hsec hact hp hbad]
  dsimp only
  have hport := s.port_frameGone p (l ++ fcs l).length rest
  have hpools := s.frameGone_pools p (l ++ fcs l).length rest
  have hfaults := s.frameGone_faults p (l ++ fcs l).length rest
  have htime := s.frameGone_time p (l ++ fcs l).length rest
  have hout := s.frameGone_out p (l ++ fcs l).length rest
  generalize s.frameGone p (l ++ fcs l).length rest = t at hport hpools hfaults htime hout ⊢
  by_cases htwo : bits k.word.toNat 63 62 = 1
  · rw [if_pos htwo]
    refine ⟨?_, ?_, packetFreed_watch_freePacket _ ?_, fun h => absurd htwo h, fun _ hroom => ?_, fun _ hfull => ?_⟩
    · rw [State.watch_out, State.freePacket_out, State.emit_out]
      exact ⟨_, rfl⟩
    · simp [State.txAhead_twoStep, hport]
    · simp [hpools]
    · have hroom' : (t.port p).tsFifo.length < 64 := by rw [hport]; exact hroom
      simp [State.port_twoStep_of_room _ _ hroom', hport]
    · rw [State.twoStep_of_full _ _ (by rw [hport]; exact hfull), src_eq]
      refine ⟨by simp [hport], reported_of_raised (t := t.count (64 * portIsl p + 0x11) 0x11) ?_ ?_ ?_ ?_⟩
      · rw [← src_eq]
        exact src_portIsl_lt (portOn_lt hon) (by decide)
      · simp [hfaults]
      · simp [htime]
      · simp
  · rw [if_neg htwo]
    refine ⟨⟨s.out, ?_⟩, by simp [hport], packetFreed_watch_freePacket _ (by simp [hpools]), fun _ => ⟨by simp [hport], ?_⟩,
      fun h => absurd h htwo, fun h => absurd h htwo⟩ <;> simp [hout]

theorem givesSome_frameTransmit_poison {l : List Byte} (hl : padTo 60 (s.packetBytes k.desc) = l) (hon : s.portOn p = true)
    (hq : (s.port p).txAhead = k :: rest) (hup : (s.port p).linkUp = true) (hsec : s.portMacsec p = 0)
    (hact : bits k.word.toNat 63 62 = 0) (hp : k.poison = true) :
    givesSome (.frameTransmit p) s (fun u =>
      u.out = .frame p (l ++ (fcs l).map (~~~ ·)) false :: s.out ∧ packetFreed s u k.desc ∧ reported s u (laneSrc p) 0x40 {}) := by
  refine ⟨_, exec_frameTransmit hon, ?_⟩
  rw [frameTransmit_of_up hq hup, sendFrame_of_poison hl hsec hact hp]
  dsimp only
  refine ⟨?_, packetFreed_watch_freePacket _ (by simp), reported_of_raised
    (t := (s.frameGone p (l ++ (fcs l).map (~~~ ·)).length rest).count (laneSrc p) 0x1A) (laneSrc_lt (portOn_lt hon)) ?_ ?_ ?_⟩
  · simp
  · simp
  · simp
  · simp

theorem givesSome_frameTransmit_discard (hon : s.portOn p = true) (hq : (s.port p).txAhead = k :: rest) (hdown : (s.port p).linkUp = false)
    (hword : fld (s.portWord p) 17 17 = 1) :
    givesSome (.frameTransmit p) s (fun u => u.port p = { s.port p with txAhead := rest } ∧ packetFreed s u k.desc ∧ u.out = s.out) := by
  refine ⟨_, exec_frameTransmit hon, ?_⟩
  rw [frameTransmit_of_down hq hdown, if_pos hword]
  exact ⟨by simp, packetFreed_watch_freePacket _ (by simp), by simp⟩

theorem gives_frameTransmit_keep (hon : s.portOn p = true) (hq : (s.port p).txAhead = k :: rest) (hdown : (s.port p).linkUp = false)
    (hword : fld (s.portWord p) 17 17 = 0) : gives (.frameTransmit p) s s := by
  have hkeep : s.frameTransmit p = s := by
    rw [frameTransmit_of_down hq hdown, if_neg (by omega)]
  rw [gives, exec_frameTransmit hon, hkeep]

end

/-- Settles O21: what is sent by `sendFrame_of_sound` and `sendFrame_of_poison`, what is not by `frameTransmit_of_down`. -/
theorem transmittedFramesLeaveWhole : Obligations.TransmittedFramesLeaveWhole := by
  unfold Obligations.TransmittedFramesLeaveWhole
  intro s p k rest hon hq
  exact ⟨fun hup hsec hact hp hbad => givesSome_frameTransmit_sound rfl hon hq hup hsec hact hp hbad,
    fun hup hsec hact hp => givesSome_frameTransmit_poison rfl hon hq hup hsec hact hp,
    fun hdown hword => givesSome_frameTransmit_discard hon hq hdown hword,
    fun hdown hword => gives_frameTransmit_keep hon hq hdown hword⟩

end Sys2Proof.Machine
end

section
/-! Frames that a port receives, and the pause they ask for (R33, R36, R37, R43, R74). -/

namespace Sys2Proof.Machine

open Sys2Proof.Claims

/-! ### Paused traffic (R36, R37) -/

/-- The port with traffic of class `c` paused or free; class 8 stands for a pause frame. -/
def Port.setPaused (q : Port) (c : Nat) (on : Bool) : Port :=
  { q with paused := if on then q.paused ||| (1 <<< c) else q.paused &&& ~~~((1 : BitVec 9) <<< c) }

/-- One class is paused or freed, and every other one stays. -/
theorem Port.paused_setPaused (q : Port) {c k : Nat} (on : Bool) (hk : k < 9) :
    (q.setPaused c on).paused.getLsbD k = if k = c then on else q.paused.getLsbD k := by
  unfold Port.setPaused
  cases on with
  | true =>
    simp only [if_true]
    rw [BitVec.getLsbD_or, getLsbD_bitWord c k hk]
    by_cases h : k = c <;> simp [h]
  | false =>
    have hbit : ((1 : BitVec 9) <<< c).getLsbD k = decide (k = c) := by
      have hword : (1 : BitVec 9) <<< c = ((1 <<< c : Nat) : BitVec 9) := BitVec.eq_of_toNat_eq rfl
      rw [hword, getLsbD_bitWord c k hk]
    simp only [Bool.false_eq_true, if_false]
    rw [BitVec.getLsbD_and, BitVec.getLsbD_not, hbit]
    by_cases h : k = c <;> simp [h, hk]

/-- The port with each class below `n` that the vector names paused or freed. -/
def Port.setClasses (q : Port) (v : Nat) (on : Nat → Bool) (n : Nat) : Port :=
  (List.range n).foldl (fun q c => if bitAt v c then q.setPaused c (on c) else q) q

theorem Port.rxFifo_setClasses (q : Port) (v : Nat) (on : Nat → Bool) (n : Nat) : (q.setClasses v on n).rxFifo = q.rxFifo :=
  foldl_keeps Port.rxFifo _ (fun _ _ => by split <;> rfl) _ q

theorem Port.paused_setClasses (q : Port) (v : Nat) (on : Nat → Bool) {k : Nat} (hk : k < 9) (n : Nat) :
    (q.setClasses v on n).paused.getLsbD k = if k < n ∧ bitAt v k = true then on k else q.paused.getLsbD k := by
  induction n with
  | zero => simp [Port.setClasses]
  | succ n ih =>
    have hstep : q.setClasses v on (n + 1) =
        if bitAt v n then (q.setClasses v on n).setPaused n (on n) else q.setClasses v on n := by
      simp [Port.setClasses, List.range_succ]
    rw [hstep]
    by_cases hkn : k = n
    · rw [hkn] at hk ih ⊢
      split
      next h => simp [Port.paused_setPaused _ _ hk, h]
      next h => simpa [h] using ih
    · have hlt : k < n + 1 ↔ k < n := by omega
      split <;> simp [Port.paused_setPaused _ _ hk, hkn, ih, hlt]

/-- The classes that a PFC frame names and the port's map has. -/
def State.pfcClasses (s : State) (p : Nat) (l : List Byte) : Nat := beVal (slice l 16 2) &&& fld (s.obj 0x0012 p) 36 29

/-- What a MAC Control frame does: a pause frame or a PFC frame acts on its port where FLOW enables it. -/
theorem pauseReceived_eq (s : State) (p : Nat) (l : List Byte) :
    s.pauseReceived p l =
      if s.portFlow p = 1 ∧ beVal (slice l 14 2) = 1 then s.modPort p (·.setPaused 8 (beVal (slice l 16 2) != 0))
      else if s.portFlow p = 2 ∧ beVal (slice l 14 2) = 0x0101 then
        s.modPort p (·.setClasses (s.pfcClasses p l) (fun c => beVal (slice l (18 + 2 * c) 2) != 0) 8)
      else s := rfl

theorem pauseReceived_of_pause {s : State} {p : Nat} {l : List Byte} (hflow : s.portFlow p = 1) (hop : beVal (slice l 14 2) = 1) :
    s.pauseReceived p l = s.modPort p (·.setPaused 8 (beVal (slice l 16 2) != 0)) := by
  rw [pauseReceived_eq, if_pos ⟨hflow, hop⟩]

theorem pauseReceived_of_pfc {s : State} {p : Nat} {l : List Byte} (hflow : s.portFlow p = 2) (hop : beVal (slice l 14 2) = 0x0101) :
    s.pauseReceived p l = s.modPort p (·.setClasses (s.pfcClasses p l) (fun c => beVal (slice l (18 + 2 * c) 2) != 0) 8) := by
  rw [pauseReceived_eq, if_neg (by omega), if_pos ⟨hflow, hop⟩]

theorem pauseReceived_of_off {s : State} {p : Nat} {l : List Byte} (hflow : s.portFlow p = 0) : s.pauseReceived p l = s := by
  rw [pauseReceived_eq, if_neg (by omega), if_neg (by omega)]

theorem pauseReceived_slices (s : State) (p : Nat) (l : List Byte) : (s.pauseReceived p l).slices = s.slices := by
  rw [pauseReceived_eq]
  split
  · rfl
  · split <;> rfl

theorem rxFifo_pauseReceived (s : State) (p : Nat) (l : List Byte) : ((s.pauseReceived p l).port p).rxFifo = (s.port p).rxFifo := by
  rw [pauseReceived_eq]
  split
  · rw [State.port_modPort_same]
    rfl
  · split
    · rw [State.port_modPort_same, Port.rxFifo_setClasses]
    · rfl

/-! ### The receive FIFO (R74) -/

/-- A frame joins the FIFO, or is discarded and reported. -/
theorem toFifo_toFifo (s : State) {p : Nat} (f : RxFrame) (hp : p < 40) : Claims.toFifo s (s.toFifo p f).watch p f := by
  unfold Claims.toFifo State.toFifo
  dsimp only
  split
  · exact ⟨State.port_modPort_same _ _ _, rfl⟩
  · refine ⟨State.port_after_raise _ _ _ _ _, reported_of_raised (t := s) (laneSrc_lt hp) rfl rfl ?_⟩
    rw [State.watch_faults]

/-- What joins the FIFO depends on the counters nowhere. -/
theorem toFifo_of_counted {s u : State} {p : Nat} {f : RxFrame} (o : Obs) (h : Claims.toFifo { s with obs := o } u p f) :
    Claims.toFifo s u p f := h

/-- The state but for what is counted. -/
def State.butObs (s : State) : State := { s with obs := {} }

@[simp] theorem State.butObs_count (s : State) (u e n : Nat) : (s.count u e n).butObs = s.butObs := rfl
@[simp] theorem State.butObs_watch (s : State) : s.watch.butObs = s.butObs := rfl
@[simp] theorem State.butObs_bandwidth (s : State) (p r t : Nat) : (s.bandwidth p r t).butObs = s.butObs := rfl

theorem onlyCounted_of_butObs {s u : State} (h : u.butObs = s.butObs) : onlyCounted s u := by
  cases s
  cases u
  simp only [State.butObs, State.mk.injEq] at h
  simp only [onlyCounted, State.mk.injEq]
  simp_all

/-! ### The checks (R33) -/

theorem exec_frameReceive {s : State} {p : Nat} (wire : List Byte) (fecBad : Bool) (hon : s.portOn p = true)
    (hup : (s.port p).linkUp = true) : exec (.frameReceive p wire fecBad) s = .next (s.frameReceive p wire fecBad).watch :=
  congrArg answer (if_pos (by simp [hon, hup]))

/-- Bytes from destination address to FCS without a FEC error, the last four the FCS of the others. -/
def goodFrame (wire : List Byte) (fecBad : Bool) : Prop :=
  fecBad = false ∧ 4 ≤ wire.length ∧ wire.drop (wire.length - 4) = fcs (wire.take (wire.length - 4))

/-- A bad frame is counted and discarded. -/
theorem frameReceive_of_bad {s : State} {p : Nat} {wire : List Byte} {fecBad : Bool} (h : ¬ goodFrame wire fecBad) :
    s.frameReceive p wire fecBad =
      (if fecBad then (s.bandwidth p (wire.length + 20) 0).count (laneSrc p) 0x1C else s.bandwidth p (wire.length + 20) 0).count
        (laneSrc p) 0x12 := by
  refine if_pos ?_
  by_contra hc
  push Not at hc
  exact h ⟨by simpa using hc.1, hc.2.1, hc.2.2⟩

/-- A good frame is counted, and then its length and its EtherType decide. -/
theorem frameReceive_of_good {s : State} {p : Nat} {wire : List Byte} {fecBad : Bool} (h : goodFrame wire fecBad) :
    s.frameReceive p wire fecBad =
      let t := s.bandwidth p (wire.length + 20) 0
      let maxf := fld (s.portWord p) 13 0
      if wire.length < 64 then t.count (laneSrc p) 0x13
      else if maxf < wire.length then (t.count (laneSrc p) 0x14).toFifo p
        { data := wire.take (maxf + 1), time := s.stamp (fld (s.obj 0x0016 p) 31 16), port := p, verdict := 1
          tclass := BitVec.ofNat 3 (s.trafficClass p (wire.take (maxf + 1))), wire := wire.length }
      else if etherType wire = 0x8808 then (t.pauseReceived p (wire.take (wire.length - 4))).count (laneSrc p) 0x15
      else t.passFrame p wire.length (wire.take (wire.length - 4)) := by
  obtain ⟨rfl, h4, hfcs⟩ := h
  exact if_neg (by simp [hfcs, h4])

/-- The EtherType stands before the FCS. -/
theorem etherType_take {l : List Byte} {n : Nat} (h : 14 ≤ n) : etherType (l.take n) = etherType l := by
  unfold etherType slice
  congr 1
  refine List.map_congr_left fun i hi => ?_
  have hlt : 12 + i < n := by
    have := List.mem_range.1 hi
    omega
  simp [List.getD_eq_getElem?_getD, hlt]

/-- The frame that a port passes on with a verdict (R33). -/
def State.rxFrame (s : State) (p wire : Nat) (v : BitVec 2) (l : List Byte) : RxFrame :=
  { data := l, time := s.stamp (fld (s.obj 0x0016 p) 31 16), port := p, verdict := v, tclass := BitVec.ofNat 3 (s.trafficClass p l), wire := wire }

theorem passFrame_of_open {s : State} {p : Nat} (n : Nat) (l : List Byte) (h : s.portMacsec p = 0) :
    s.passFrame p n l = s.toFifo p (s.rxFrame p n 0 l) := if_pos h

theorem passFrame_of_eapol {s : State} {p n : Nat} {l : List Byte} (h : s.portMacsec p ≠ 0) (he : etherType l = 0x888E) :
    s.passFrame p n l = s.toFifo p (s.rxFrame p n 3 l) := (if_neg h).trans (if_pos he)

section
variable {s : State} {p : Nat} {wire : List Byte} {fecBad : Bool} (hon : s.portOn p = true) (hup : (s.port p).linkUp = true)
include hon hup

theorem givesSome_frameReceive_discard (h : ¬ goodFrame wire fecBad ∨ wire.length < 64) :
    givesSome (.frameReceive p wire fecBad) s (onlyCounted s) := by
  refine ⟨_, exec_frameReceive wire fecBad hon hup, ?_⟩
  by_cases hgood : goodFrame wire fecBad
  · rw [frameReceive_of_good hgood]
    dsimp only
    rw [if_pos (h.resolve_left (not_not_intro hgood))]
    exact onlyCounted_of_butObs (by simp)
  · rw [frameReceive_of_bad hgood]
    refine onlyCounted_of_butObs ?_
    split <;> simp

theorem givesSome_frameReceive_long (hgood : goodFrame wire fecBad) (h64 : 64 ≤ wire.length) (hmax : fld (s.portWord p) 13 0 < wire.length) :
    givesSome (.frameReceive p wire fecBad) s (fun u =>
      Claims.toFifo s u p (s.rxFrame p wire.length 1 (wire.take (fld (s.portWord p) 13 0 + 1)))) := by
  refine ⟨_, exec_frameReceive wire fecBad hon hup, ?_⟩
  rw [frameReceive_of_good hgood]
  dsimp only
  rw [if_neg (by omega), if_pos hmax]
  exact toFifo_of_counted _ (toFifo_toFifo _ _ (portOn_lt hon))

variable (hgood : goodFrame wire fecBad) (h64 : 64 ≤ wire.length) (hmax : wire.length ≤ fld (s.portWord p) 13 0)
include hgood h64 hmax

theorem givesSome_frameReceive_control (htype : etherType wire = 0x8808) :
    let body := wire.take (wire.length - 4)
    givesSome (.frameReceive p wire fecBad) s (fun u =>
      (u.port p).rxFifo = (s.port p).rxFifo ∧ u.slices = s.slices ∧
        (s.portFlow p = 1 → beVal (slice body 14 2) = 1 →
          (u.port p).paused.getLsbD 8 = (beVal (slice body 16 2) != 0) ∧ ∀ c < 8, (u.port p).paused.getLsbD c = (s.port p).paused.getLsbD c) ∧
        (s.portFlow p = 2 → beVal (slice body 14 2) = 0x0101 → (u.port p).paused.getLsbD 8 = (s.port p).paused.getLsbD 8 ∧
          ∀ c < 8, (u.port p).paused.getLsbD c = if (beVal (slice body 16 2)).testBit c ∧ (fld (s.obj 0x0012 p) 36 29).testBit c
            then beVal (slice body (18 + 2 * c) 2) != 0 else (s.port p).paused.getLsbD c) ∧
        (s.portFlow p = 0 → (u.port p).paused = (s.port p).paused)) := by
  intro body
  refine ⟨_, exec_frameReceive wire fecBad hon hup, ?_⟩
  rw [frameReceive_of_good hgood]
  dsimp only
  rw [if_neg (by omega), if_neg (by omega), if_pos htype]
  have hport : ∀ t : State, ((t.count (laneSrc p) 0x15).watch).port p = t.port p := fun _ => rfl
  rw [hport, State.watch_slices, State.count_slices]
  refine ⟨rxFifo_pauseReceived _ _ _, pauseReceived_slices _ _ _, fun hflow hop => ?_, fun hflow hop => ?_, fun hflow => ?_⟩
  · rw [pauseReceived_of_pause (s := s.bandwidth p (wire.length + 20) 0) hflow hop, State.port_modPort_same]
    refine ⟨?_, fun c hc => ?_⟩
    · rw [Port.paused_setPaused _ _ (by decide), if_pos rfl]
    · rw [Port.paused_setPaused _ _ (by omega), if_neg (by omega)]
      rfl
  · rw [pauseReceived_of_pfc (s := s.bandwidth p (wire.length + 20) 0) hflow hop, State.port_modPort_same]
    refine ⟨?_, fun c hc => ?_⟩
    · rw [Port.paused_setClasses _ _ _ (by decide), if_neg (by omega)]
      rfl
    · have hbit : (c < 8 ∧ bitAt (s.pfcClasses p body) c = true) ↔
          (beVal (slice body 16 2)).testBit c = true ∧ (fld (s.obj 0x0012 p) 36 29).testBit c = true := by
        simp [hc, bitAt, State.pfcClasses, Nat.testBit_and]
      rw [Port.paused_setClasses _ _ _ (by omega)]
      exact if_congr hbit rfl rfl
  · rw [pauseReceived_of_off (s := s.bandwidth p (wire.length + 20) 0) hflow]
    rfl

theorem givesSome_frameReceive_open (htype : etherType wire ≠ 0x8808) (hsec : s.portMacsec p = 0) :
    givesSome (.frameReceive p wire fecBad) s (fun u =>
      Claims.toFifo s u p (s.rxFrame p wire.length 0 (wire.take (wire.length - 4)))) := by
  refine ⟨_, exec_frameReceive wire fecBad hon hup, ?_⟩
  rw [frameReceive_of_good hgood]
  dsimp only
  rw [if_neg (by omega), if_neg (by omega), if_neg htype, passFrame_of_open (s := s.bandwidth p (wire.length + 20) 0) _ _ hsec]
  exact toFifo_of_counted _ (toFifo_toFifo _ _ (portOn_lt hon))

theorem givesSome_frameReceive_eapol (htype : etherType wire = 0x888E) (hsec : s.portMacsec p ≠ 0) :
    givesSome (.frameReceive p wire fecBad) s (fun u =>
      Claims.toFifo s u p (s.rxFrame p wire.length 3 (wire.take (wire.length - 4)))) := by
  refine ⟨_, exec_frameReceive wire fecBad hon hup, ?_⟩
  have hbody : etherType (wire.take (wire.length - 4)) = 0x888E := by rw [etherType_take (by omega), htype]
  rw [frameReceive_of_good hgood]
  dsimp only
  rw [if_neg (by omega), if_neg (by omega), if_neg (by rw [htype]; decide), passFrame_of_eapol (s := s.bandwidth p (wire.length + 20) 0) hsec hbody]
  exact toFifo_of_counted _ (toFifo_toFifo _ _ (portOn_lt hon))

end

theorem receivedFramesPassTheChecksInOrder : Claims.ReceivedFramesPassTheChecksInOrder := by
  unfold Claims.ReceivedFramesPassTheChecksInOrder
  intro s p wire fecBad hon hup
  exact ⟨givesSome_frameReceive_discard hon hup,
    fun hgood h64 hmax => givesSome_frameReceive_long hon hup hgood h64 hmax,
    fun hgood h64 hmax htype => givesSome_frameReceive_control hon hup hgood h64 hmax htype,
    fun hgood h64 hmax htype hsec => givesSome_frameReceive_open hon hup hgood h64 hmax htype hsec,
    fun hgood h64 hmax htype hsec => givesSome_frameReceive_eapol hon hup hgood h64 hmax htype hsec⟩

end Sys2Proof.Machine
end

section
/-! Frames that pass to the slices, and pause that follows the accounts (R37, R38, R74, R376). -/

namespace Sys2Proof.Machine

open Sys2Proof.Claims

/-! ### The input buffer (R74, R376) -/

theorem exec_fifoToInputBuffer {s : State} {p : Nat} (hp : p < 40) (hup : s.up (portIsl p) = true) :
    exec (.fifoToInputBuffer p) s = .next (s.fifoPass p).watch :=
  congrArg answer (if_pos (by simp [hp, hup]))

/-- The oldest frame of the FIFO: what its slice's island and input buffer make of it. -/
theorem fifoPass_of_cons {s : State} {p : Nat} {f : RxFrame} {rest : List RxFrame} (h : (s.port p).rxFifo = f :: rest) :
    s.fifoPass p =
      let t := s.modPort p (fun q => { q with rxFifo := rest })
      if s.inReset (27 + portSlice p) then t.count (laneSrc p) 0x1E
      else if s.inputFits (portSlice p) f.data.length then
        ((t.count (laneSrc p) 0x10).count (laneSrc p) 0x11 (f.wire + 20)).modSlc (portSlice p) (fun q => { q with input := q.input ++ [f] })
      else s := by
  rw [State.fifoPass, h]

section
variable {s : State} {p : Nat} {f : RxFrame} {rest : List RxFrame} (hp : p < 40) (hup : s.up (portIsl p) = true)
  (hq : (s.port p).rxFifo = f :: rest)
include hp hup hq

theorem givesSome_fifoToInputBuffer_reset (hreset : s.inReset (27 + portSlice p) = true) :
    givesSome (.fifoToInputBuffer p) s (fun u => u.port p = { s.port p with rxFifo := rest } ∧ u.slices = s.slices) := by
  refine ⟨_, exec_fifoToInputBuffer hp hup, ?_⟩
  rw [fifoPass_of_cons hq]
  simp [hreset]

theorem givesSome_fifoToInputBuffer_pass (hrun : s.inReset (27 + portSlice p) = false)
    (hfits : s.inputUsed (portSlice p) + f.data.length ≤ 65536) :
    givesSome (.fifoToInputBuffer p) s (fun u =>
      u.port p = { s.port p with rxFifo := rest } ∧ u.slc (portSlice p) = { s.slc (portSlice p) with input := (s.slc (portSlice p)).input ++ [f] }
        ∧ ∀ k, k ≠ portSlice p → u.slc k = s.slc k) := by
  refine ⟨_, exec_fifoToInputBuffer hp hup, ?_⟩
  rw [fifoPass_of_cons hq]
  simp only [hrun, Bool.false_eq_true, if_false, State.inputFits, hfits, decide_true, if_true]
  exact ⟨by simp, by simp, fun k hk => by simp [State.slc_modSlc, hk]⟩

theorem gives_fifoToInputBuffer_wait (hrun : s.inReset (27 + portSlice p) = false)
    (hfull : 65536 < s.inputUsed (portSlice p) + f.data.length) : gives (.fifoToInputBuffer p) s s := by
  have hkeep : s.fifoPass p = s := by
    rw [fifoPass_of_cons hq]
    simp [hrun, State.inputFits, hfull]
  rw [gives, exec_fifoToInputBuffer hp hup, hkeep]

end

/-! ### Pause (R37, R38) -/

theorem givesSome_pauseQuantaExpire {s : State} {p c : Nat} (hp : p < 40) (hc : c < 9) (hup : s.up (portIsl p) = true) :
    givesSome (.pauseQuantaExpire p c) s (fun u =>
      (u.port p).paused.getLsbD c = false ∧ (∀ k, k < 9 → k ≠ c → (u.port p).paused.getLsbD k = (s.port p).paused.getLsbD k)
        ∧ (∀ q, q ≠ p → u.port q = s.port q) ∧ u.out = s.out) := by
  have hexec : exec (.pauseQuantaExpire p c) s = .next (s.modPort p (·.setPaused c false)).watch := congrArg answer (if_pos ⟨hp, hc, hup⟩)
  refine ⟨_, hexec, ?_⟩
  dsimp only
  rw [State.port_after_watch, State.port_modPort_same]
  refine ⟨?_, fun k hk hkc => ?_, fun q hq => ?_, rfl⟩
  · rw [Port.paused_setPaused _ _ hc, if_pos rfl]
  · rw [Port.paused_setPaused _ _ hk, if_neg hkc]
  · rw [State.port_after_watch, State.port_modPort, if_neg hq]

/-- R38: a port whose account stays above XON sends what its FLOW gives once more. -/
theorem exec_pauseRepeat {s : State} {p c : Nat} (hc : c < 8) (hon : s.portOn p = true) (hxoff : (s.port p).xoffSent.getLsbD c = true)
    (habove : fld (s.obj 0x0013 (p * 8 + c)) 17 0 < s.account p c) :
    exec (.pauseRepeat p c) s = .next (s.sendPause p c 0xFFFF).watch := by
  have hrow : exec (.pauseRepeat p c) s = answer (s.pauseRepeat p c) := congrArg answer (if_pos (by simp [hc, hon]))
  rw [hrow, State.pauseRepeat, if_pos ⟨hxoff, habove⟩]
  rfl

section
variable {s : State} {p : Nat} (c q : Nat) (hup : (s.port p).linkUp = true)
include hup

theorem sendPause_of_pause (hflow : s.portFlow p = 1) :
    s.sendPause p c q = (s.emit (.pause p 8 (BitVec.ofNat 16 q))).count (laneSrc p) 0x16 := by
  rw [State.sendPause, if_neg (by simp [hup]), if_pos hflow]

theorem sendPause_of_pfc (hflow : s.portFlow p = 2) (hmap : bitAt (fld (s.obj 0x0012 p) 36 29) c = true) :
    s.sendPause p c q = (s.emit (.pause p c (BitVec.ofNat 16 q))).count (laneSrc p) 0x16 := by
  rw [State.sendPause, if_neg (by simp [hup]), if_neg (by omega), if_pos ⟨hflow, hmap⟩]

theorem sendPause_of_off (hflow : s.portFlow p = 0) : s.sendPause p c q = s := by
  rw [State.sendPause, if_neg (by simp [hup]), if_neg (by omega), if_neg (by omega)]

end

theorem fifoAndPauseFollowTheSlices : Claims.FifoAndPauseFollowTheSlices := by
  unfold Claims.FifoAndPauseFollowTheSlices
  refine ⟨fun s p f rest hp hup hq => ?_, fun s p c hp hc hup => givesSome_pauseQuantaExpire hp hc hup,
    fun s p c hc hon hup hxoff habove => ?_⟩
  · exact ⟨givesSome_fifoToInputBuffer_reset hp hup hq, givesSome_fifoToInputBuffer_pass hp hup hq,
      gives_fifoToInputBuffer_wait hp hup hq⟩
  · have hexec := exec_pauseRepeat hc hon hxoff habove
    refine ⟨fun hflow => ⟨_, hexec, ?_⟩, fun hflow hmap => ⟨_, hexec, ?_⟩, fun hflow => ⟨_, hexec, ?_⟩⟩
    · rw [sendPause_of_pause c _ hup hflow]
      exact ⟨rfl, rfl⟩
    · have hbit : bitAt (fld (s.obj 0x0012 p) 36 29) c = true := by
        rw [bitAt, Nat.testBit_eq_decide_div_mod_eq]
        simpa using hmap
      rw [sendPause_of_pfc c _ hup hflow hbit]
      exact ⟨rfl, rfl⟩
    · rw [sendPause_of_off c _ hup hflow]
      exact ⟨rfl, rfl⟩

/-- Settles O22: the checks by `frameReceive_of_bad` and `frameReceive_of_good`, the way to the slices and pause by the rules above. -/
theorem receivedFramesAndPauseFollowTheSlices : Obligations.ReceivedFramesAndPauseFollowTheSlices :=
  ⟨receivedFramesPassTheChecksInOrder, fifoAndPauseFollowTheSlices⟩

end Sys2Proof.Machine
end

section
/-! What befalls lanes and links (R48 to R52). -/

namespace Sys2Proof.Machine

open Sys2Proof.Claims

/-! ### Rows of a lane and of a port -/

/-- The guard of a lane's rows. -/
theorem laneGuard_of_up {l : Nat} {s : State} (hl : l < 40) (hup : s.up (portIsl l) = true) : (decide (l < 40) && s.up (portIsl l)) = true := by
  simp [hl, hup]

/-- A port with an event bit and nothing else changed. -/
theorem portEventSet_portEvent (s : State) (p bit : Nat) : portEventSet s (s.portEvent p bit).watch p bit (s.port p) := by
  unfold portEventSet
  rw [State.port_after_watch, State.port_portEvent, if_pos rfl]
  rfl

/-- An event that comes with a change of its port which leaves the event bits. -/
theorem portEventSet_modPort {s u : State} {p : Nat} (bit : Nat) (f : Port → Port) (hf : (f (s.port p)).events = (s.port p).events)
    (hu : u.port p = ((s.modPort p f).portEvent p bit).port p) : portEventSet s u p bit (f (s.port p)) := by
  unfold portEventSet
  rw [hu, State.port_portEvent, if_pos rfl, State.port_modPort_same, Port.withEvent, hf]

/-! ### Lock of a lane (R50, R51) -/

theorem givesSome_lockLost {s : State} {l p : Nat} (hl : l < 40) (hup : s.up (portIsl l) = true) (hport : s.portOfLane l = some p)
    (hlost : (s.lane l).lost = false) :
    givesSome (.lockLost l) s (fun u => u.lane l = { s.lane l with lost := true, holding := true } ∧ portEventSet s u p 21 (s.port p)) := by
  have hevent : s.lockLost l =
      ((s.modLane l (fun x => { x with lost := true, holding := true })).count (laneSrc l) 0x1D).portEvent p 21 := by
    rw [State.lockLost, hport]
    exact if_neg (by simp [hlost])
  refine ⟨_, congrArg answer (if_pos (laneGuard_of_up hl hup)), ?_⟩
  rw [hevent]
  exact ⟨by simp, portEventSet_portEvent _ p 21⟩

theorem gives_lockRegained {s : State} {l p : Nat} (hl : l < 40) (hup : s.up (portIsl l) = true) (hport : s.portOfLane l = some p)
    (hlink : (s.port p).linkUp = true) :
    gives (.lockRegained l) s (s.modLane l (fun x => { x with lost := false, holding := false })) := by
  have hback : s.lockBack l = s.modLane l (fun x => { x with lost := false, holding := false }) := by
    rw [State.lockBack, hport]
    exact if_pos hlink
  rw [gives, ← hback]
  exact congrArg answer (if_pos (laneGuard_of_up hl hup))

theorem gives_surgeHoldExpire {s : State} {l : Nat} (hl : l < 40) (hup : s.up (portIsl l) = true) (hlost : (s.lane l).lost = true)
    (hhold : (s.lane l).holding = true) :
    gives (.surgeHoldExpire l) s (s.modLane l (fun x => { x with holding := false, acquiring := true })) :=
  congrArg answer (if_pos ⟨hl, hup, hlost, hhold⟩)

/-! ### Links (R50 to R52) -/

/-- A link that is up goes down: the event, and remote fault is sent. -/
theorem portDown_of_up {s : State} {p : Nat} (h : (s.port p).linkUp = true) :
    s.portDown p =
      ((s.modPort p (fun q => { q with linkUp := false, downSince := s.time.elapsed })).portEvent p 23).emit (.remoteFault p) := by
  rw [State.portDown, if_pos h]
  rfl

theorem givesSome_linkDown {s : State} {p : Nat} (hon : s.portOn p = true) (hlost : ∃ l ∈ s.portLanes p, (s.lane l).lost = true)
    (hlink : (s.port p).linkUp = true) :
    givesSome (.linkDown p) s (fun u => portEventSet s u p 23 { s.port p with linkUp := false, downSince := s.time.elapsed }
      ∧ ∃ o, u.out = .remoteFault p :: o) := by
  refine ⟨_, congrArg answer (if_pos (by simpa [hon] using hlost)), ?_⟩
  rw [portDown_of_up hlink]
  exact ⟨portEventSet_modPort 23 (fun q => { q with linkUp := false, downSince := s.time.elapsed }) rfl rfl, _, rfl⟩

/-- The lane has lock and is ready. -/
def Lane.locked (x : Lane) : Lane := { x with lost := false, holding := false, acquiring := false, ready := true }

/-- Every lane listed has lock. -/
def State.lockLanes (s : State) (l : List Nat) : State := l.foldl (fun s l => s.modLane l Lane.locked) s

theorem State.port_after_modLane (s : State) (l : Nat) (f : Lane → Lane) (p : Nat) : (s.modLane l f).port p = s.port p := rfl

theorem State.port_lockLanes (s : State) (l : List Nat) (p : Nat) : (s.lockLanes l).port p = s.port p :=
  foldl_keeps (State.port · p) _ (fun t k => State.port_after_modLane t k Lane.locked p) l s

theorem State.lane_lockLanes (l : List Nat) : ∀ (s : State) (k : Nat),
    (s.lockLanes l).lane k = if k ∈ l then (s.lane k).locked else s.lane k := by
  induction l with
  | nil => intros; simp [State.lockLanes]
  | cons e t ih =>
    intro s k
    have hstep : s.lockLanes (e :: t) = (s.modLane e Lane.locked).lockLanes t := rfl
    have htwice : ∀ x : Lane, x.locked.locked = x.locked := fun _ => rfl
    rw [hstep, ih, State.lane_modLane]
    by_cases hke : k = e <;> by_cases hkt : k ∈ t <;> simp [hke, hkt, htwice]

/-- The length of an outage in µs, as LINK_UP records it (R52). -/
def State.outageOf (s : State) (p : Nat) : BitVec 16 := BitVec.ofNat 16 (min ((s.time.elapsed - (s.port p).downSince) / 1000) 65535)

/-- A link that is down and none of whose lanes recalibrates comes up. -/
theorem portUp_of_down {s : State} {p : Nat} (hlink : (s.port p).linkUp = false) (hrecal : ∀ l ∈ s.portLanes p, (s.lane l).recal ≠ 2) :
    s.portUp p = ((s.lockLanes (s.portLanes p)).modPort p (fun q => { q with linkUp := true, lastOutage := s.outageOf p })).portEvent p 22 :=
  if_neg (by simpa [hlink] using hrecal)

theorem givesSome_linkUp {s : State} {p : Nat} (hon : s.portOn p = true) (hlink : (s.port p).linkUp = false)
    (hrecal : ∀ l ∈ s.portLanes p, (s.lane l).recal ≠ 2) :
    givesSome (.linkUp p) s (fun u =>
      portEventSet s u p 22 { s.port p with linkUp := true, lastOutage := s.outageOf p }
        ∧ ∀ l ∈ s.portLanes p, (u.lane l).lost = false ∧ (u.lane l).acquiring = false ∧ (u.lane l).ready = true) := by
  refine ⟨_, congrArg answer (if_pos hon), ?_⟩
  rw [portUp_of_down hlink hrecal]
  have hport := s.port_lockLanes (s.portLanes p) p
  refine ⟨?_, fun l hl => ?_⟩
  · unfold portEventSet
    rw [State.port_after_watch, State.port_portEvent, if_pos rfl, State.port_modPort_same, hport]
    rfl
  · simp [State.lane_lockLanes, hl, Lane.locked]

theorem givesSome_remoteFault {s : State} {p : Nat} (hon : s.portOn p = true) (hclear : (s.port p).remoteFault = false) :
    givesSome (.remoteFault p) s (fun u => portEventSet s u p 18 { s.port p with remoteFault := true }) := by
  have hset : s.remoteFault p = (s.modPort p (fun q => { q with remoteFault := true })).portEvent p 18 := if_neg (by simp [hclear])
  refine ⟨_, congrArg answer (if_pos hon), ?_⟩
  rw [hset]
  exact portEventSet_modPort 18 (fun q => { q with remoteFault := true }) rfl rfl

theorem givesSome_remoteFaultCleared {s : State} {p : Nat} (hon : s.portOn p = true) :
    givesSome (.remoteFaultCleared p) s (fun u =>
      u.port p = { s.port p with remoteFault := false } ∧ ∀ q, q ≠ p → u.port q = s.port q) := by
  refine ⟨_, congrArg answer (if_pos hon), by simp, fun q hq => ?_⟩
  rw [State.port_after_watch, State.port_modPort, if_neg hq]

/-- R52: a window with more corrected symbols than the port's threshold is an event. -/
theorem givesSome_fecDegrade {s : State} {p : Nat} (n : Nat) (hon : s.portOn p = true) :
    givesSome (.fecDegrade p n) s (fun u =>
      if fld (s.obj 0x0012 p) 28 5 ≠ 0 ∧ fld (s.obj 0x0012 p) 28 5 < n then portEventSet s u p 20 (s.port p) else u.port p = s.port p) := by
  have hwindow : s.fecWindow p n = if fld (s.obj 0x0012 p) 28 5 ≠ 0 ∧ fld (s.obj 0x0012 p) 28 5 < n
      then (s.count (laneSrc p) 0x1B n).portEvent p 20 else s.count (laneSrc p) 0x1B n := rfl
  refine ⟨_, congrArg answer (if_pos hon), ?_⟩
  rw [hwindow]
  split
  · exact portEventSet_portEvent _ p 20
  · rfl

/-- The end of a full acquisition without a command (R50, R51). -/
theorem laneRecalDone_of_acquiring {s : State} {l : Nat} (ok : Bool) (hrecal : (s.lane l).recal = 0) (hacq : (s.lane l).acquiring = true) :
    s.laneRecalDone l ok =
      if ok then s.modLane l (fun x => { x with acquiring := false, lost := false, ready := true })
      else (s.modLane l (fun x => { x with acquiring := false })).raise (laneSrc l) 0x43 :=
  (if_neg (by simp [hrecal])).trans (if_pos hacq)

theorem givesSome_laneRecalDone {s : State} {l : Nat} (ok : Bool) (hl : l < 40) (hup : s.up (portIsl l) = true)
    (hrecal : (s.lane l).recal = 0) (hacq : (s.lane l).acquiring = true) :
    givesSome (.laneRecalDone l ok) s (fun u =>
      (ok = true → u.lane l = { s.lane l with acquiring := false, lost := false, ready := true }) ∧
      (ok = false → u.lane l = { s.lane l with acquiring := false } ∧ reported s u (laneSrc l) 0x43 {})) := by
  refine ⟨_, congrArg answer (if_pos (laneGuard_of_up hl hup)), ?_⟩
  rw [laneRecalDone_of_acquiring ok hrecal hacq]
  refine ⟨fun hok => by simp [hok], fun hok => ⟨by simp [hok], ?_⟩⟩
  rw [if_neg (by simp [hok])]
  exact reported_of_raised (t := s.modLane l _) (laneSrc_lt hl) rfl rfl rfl

theorem linksAndLanesRaiseTheirEvents : Claims.LinksAndLanesRaiseTheirEvents := by
  unfold Claims.LinksAndLanesRaiseTheirEvents
  exact ⟨fun s l p hl hup hport hlost => givesSome_lockLost hl hup hport hlost,
    fun s l p hl hup hport hlink => gives_lockRegained hl hup hport hlink,
    fun s p hon hlost hlink => givesSome_linkDown hon hlost hlink,
    fun s p hon hlink hrecal => givesSome_linkUp hon hlink hrecal,
    fun s l hl hup hlost hhold => gives_surgeHoldExpire hl hup hlost hhold,
    fun s p hon hclear => givesSome_remoteFault hon hclear,
    fun s p hon => givesSome_remoteFaultCleared hon,
    fun s p n hon => givesSome_fecDegrade n hon,
    fun s l ok hl hup hrecal hacq => givesSome_laneRecalDone ok hl hup hrecal hacq⟩

end Sys2Proof.Machine
end

section
/-! The field time pins (R47). -/

namespace Sys2Proof.Machine

open Sys2Proof.Claims

/-- PPS_OUT rises at a whole second not yet marked, with the width now set, and its time-of-day message falls due. -/
theorem ppsEdge_of_unmarked {s : State} (hlow : s.ports.pins.ppsOut = false)
    (hmark : s.ports.pins.lastEdge ≠ some (s.time.ns.toNat / 1000000000)) :
    s.ppsEdge = { s with ports := { s.ports with pins := { s.ports.pins with
      ppsOut := true, lastEdge := some (s.time.ns.toNat / 1000000000), todDue := some (BitVec.ofNat 48 (s.time.ns.toNat / 1000000000)),
      width := fld (s.obj 0x0018 0) 63 45 } } } :=
  if_neg (by simp [hlow, State.now, hmark])

/-- The seconds of a time-of-day message: twelve hexadecimal digits, the most significant first. -/
def todDigits (n : Nat) : List Byte := (List.range 12).map (fun i => hexDigit (n / 16 ^ (11 - i) % 16))

/-- A hexadecimal digit is 0 to 9 or A to F. -/
theorem hexDigit_eq (n : Nat) : hexDigit n = BitVec.ofNat 8 (if n < 10 then 0x30 + n else 0x41 + (n - 10)) := by
  unfold hexDigit
  split
  · rfl
  · congr 1
    omega

theorem getD_todDigits (n : Nat) {i : Nat} (hi : i < 12) : (todDigits n).getD i 0 = hexDigit (n / 16 ^ (11 - i) % 16) := by
  simp [todDigits, List.getD_eq_getElem?_getD, hi]

theorem givesSome_todTxMessage {s : State} {sec : BitVec 48} (hup : s.up 52 = true) (hdue : s.ports.pins.todDue = some sec) :
    givesSome .todTxMessage s (fun u =>
      u.ports.pins = { s.ports.pins with todDue := none } ∧ u.out = .tod ([0x54] ++ todDigits sec.toNat ++ [0x0D]) :: s.out) := by
  refine ⟨_, congrArg answer (if_pos hup), ?_⟩
  rw [State.todMessage, hdue]
  exact ⟨rfl, rfl⟩

theorem timePinsMarkTheSecond : Claims.TimePinsMarkTheSecond := by
  unfold Claims.TimePinsMarkTheSecond
  refine ⟨fun s hup => congrArg answer (if_pos hup), fun s hup hlow hmark => ?_, fun s => ⟨_, rfl, rfl⟩, fun s sec hup hdue => ?_⟩
  · rw [gives, ← ppsEdge_of_unmarked hlow hmark]
    exact congrArg answer (if_pos hup)
  · obtain ⟨u, hexec, hpins, hout⟩ := givesSome_todTxMessage hup hdue
    refine ⟨u, hexec, hpins, todDigits sec.toNat, hout, by simp [todDigits], fun i hi => ?_⟩
    rw [getD_todDigits _ hi, hexDigit_eq]

/-- Settles O23: each event of a lane, a link or a time pin by its own rule above. -/
theorem linksLanesAndTimePinsRaiseTheirEvents : Obligations.LinksLanesAndTimePinsRaiseTheirEvents :=
  ⟨linksAndLanesRaiseTheirEvents, timePinsMarkTheSecond⟩

end Sys2Proof.Machine
end

section
/-! How a command that meets the checks of R391 ends: with its reply, with an operation under way, or kept (R392, R397). -/

namespace Sys2Proof.Machine

open Sys2Proof.Claims

/-- The command that a packet carries, as it is run: where its reply goes, its master identity and its parameters. -/
def cmdOf (x : Packet) (op : Nat) (sel : Option (Nat × Byte)) (o : Origin) : Cmd :=
  { answerTo := toOf x op o, master := o.master x.issuer.toNat, p := (pktOf x op sel).params }

section
variable {s v : State} {x : Packet} {op : Nat} {sel : Option (Nat × Byte)} {form : List Byte → Bool} {o : Origin}
  {c : Instr} {run : Cmd → State → Ran} (h : runs s x op sel form o v) (hc : exec c s = answer (s.packet x op sel form run))
include h

/-- A packet that meets none of the conditions of R391 runs in `v`; one whose command waits is kept. -/
theorem packet_of_runs (run : Cmd → State → Ran) :
    s.packet x op sel form run =
      (v.settle (toOf x op o) (run (cmdOf x op sel o) v)).getD (s.keepPacket x.via (pktOf x op sel).bytes) := by
  obtain ⟨t, htake, hverdict, hpermitted, hflags, hrsvd, hform, rfl⟩ := h
  have hrun : t.examine o (pktOf x op sel) true form run = t.runPacket o (pktOf x op sel) (toOf x op o) true form run := by
    rw [State.examine, hverdict]
    rfl
  have hrsvd' : (pktOf x op sel).rsvd = 0 := by simp [pktOf, hrsvd]
  have hpass : t.runPacket o (pktOf x op sel) (toOf x op o) true form run =
      ((t.consume (pktOf x op sel)).count (src 51 0) 0x11).settle (toOf x op o)
        (run (cmdOf x op sel o) ((t.consume (pktOf x op sel)).count (src 51 0) 0x11)) := by
    unfold State.runPacket
    have hwell : ¬ ((pktOf x op sel).flags &&& 0x5F ≠ 0 ∨ (pktOf x op sel).rsvd ≠ 0 ∨ ¬ form (pktOf x op sel).params = true) := by
      simp only [not_or, not_not]
      exact ⟨hflags, hrsvd', hform⟩
    rw [if_neg (by simp), if_neg (by simp [hpermitted]), if_neg hwell]
    rfl
  unfold State.packet
  dsimp only
  rw [htake]
  dsimp only
  rw [hrun, hpass]

include hc

theorem replies_of_done {st : Nat} {res : List Byte} {t : State} {q : State → Prop} (hrun : run (cmdOf x op sel o) v = .done st res t)
    (hq : q t) : replies c s (toOf x op o) st res q := by
  refine ⟨t, ?_, hq⟩
  rw [hc, packet_of_runs h, hrun]
  rfl

theorem starts_of_start {aop : AsyncOp} {t : State} {q : State → Prop} (hfew : fewer v x)
    (hrun : run (cmdOf x op sel o) v = .start aop t) (hq : q t) : starts c s (toOf x op o) aop q := by
  refine ⟨t, ?_, hq⟩
  have hroom : ¬ 8 ≤ v.ycp.asyncs.countP (fun a => a.answerTo.issuer == (toOf x op o).issuer) := Nat.not_le.2 hfew
  rw [hc, packet_of_runs h, hrun, State.settle, if_neg hroom]
  rfl

theorem gives_kept_of_wait (hrun : run (cmdOf x op sel o) v = .wait) : gives c s (s.keepPacket x.via (pktOf x op sel).bytes) := by
  rw [gives, hc, packet_of_runs h, hrun]
  rfl

end

/-! ### Start-up steps and islands (R19, R520) -/

theorem after_of_done {v : State} {n : Nat} {l : List Nat} (hdone : after v l) (hn : n ∈ l) (r : Ran) : v.after n r = r :=
  if_pos (by simpa using hdone n hn)

theorem inReset_of_up {v : State} {i : Nat} (h : v.up i = true) : v.inReset i = false := by
  have hrun : (v.isl i).st = .run := by simpa [State.up] using h
  simp [State.inReset, hrun]

theorem onIsland_of_up {v : State} {i : Nat} (h : v.up i = true) (r : Ran) : v.onIsland i r = r := by
  rw [State.onIsland, if_neg (by simp [inReset_of_up h]), if_neg (by simp [h])]

/-! ### Parameters -/

theorem beVal_lt (l : List Byte) : beVal l < 256 ^ l.length := by
  induction l using List.reverseRecOn with
  | nil => simp [beVal]
  | append_singleton l b ih =>
    have hstep : beVal (l ++ [b]) = beVal l * 256 + b.toNat := by simp [beVal]
    have hb : b.toNat < 256 := b.isLt
    rw [hstep, List.length_append, List.length_singleton, pow_succ]
    omega

/-- A parameter of `n` bytes is a number of `n` bytes. -/
theorem arg_lt (x : Packet) (sel : Option (Nat × Byte)) (i n : Nat) : arg x sel i n < 256 ^ n := by
  have h := beVal_lt (slice (pktOf x 0 sel).params i n)
  rwa [slice, List.length_map, List.length_range] at h

end Sys2Proof.Machine
end

section
/-! Buffers of a pool and the memory that holds their state words (R282, R285, R286, R288, R291). -/

namespace Sys2Proof.Machine

open Sys2Proof.Claims

/-! ### The memory of a pool (R282) -/

@[simp] theorem State.poolPut_live (s : State) (p a : Nat) (l : List Byte) : (s.poolPut p a l).live = s.live := by
  unfold State.poolPut
  split
  · simp
  · rfl

/-- Where a pool lies, and how many buffers it has, follows from its object. -/
theorem poolObjects_congr {s u : State} (h : u.live = s.live) (p : Nat) :
    u.poolDram p = s.poolDram p ∧ u.poolCount p = s.poolCount p ∧ (∀ i, u.wordAddr p i = s.wordAddr p i) := by
  have hobj : ∀ cls i, u.obj cls i = s.obj cls i := fun cls i => by simp [State.obj, h]
  simp [State.wordAddr, State.bufAddr, State.poolDram, State.poolCount, State.poolBase, State.poolSize, hobj]

theorem State.poolBytes_poolPut_same (s : State) (p a : Nat) (l : List Byte) : (s.poolPut p a l).poolBytes p a l.length = l := by
  rw [State.poolBytes, (poolObjects_congr (s.poolPut_live p a l) p).1]
  split
  next h =>
    rw [State.poolPut, if_pos h, State.dramBytes, State.dramWrite_dramData]
    exact mread_mwrite_same _ _ _
  next h =>
    rw [State.poolPut, if_neg h]
    exact mread_mwrite_same _ _ _

theorem mread_mwrite_outside (m : Mem) (a : Nat) (l : List Byte) {b n : Nat} (h : b + n ≤ a ∨ a + l.length ≤ b) :
    mread (mwrite m a l) b n = mread m b n := by
  refine List.map_congr_left fun i hi => mget_mwrite_outside l m a (b + i) ?_
  have := List.mem_range.1 hi
  omega

theorem State.poolBytes_poolPut_outside (s : State) (p a : Nat) (l : List Byte) {b n : Nat} (h : b + n ≤ a ∨ a + l.length ≤ b) :
    (s.poolPut p a l).poolBytes p b n = s.poolBytes p b n := by
  rw [State.poolBytes, State.poolBytes, (poolObjects_congr (s.poolPut_live p a l) p).1]
  split
  next hd =>
    rw [State.poolPut, if_pos hd, State.dramBytes, State.dramWrite_dramData]
    exact mread_mwrite_outside _ _ _ h
  next hd =>
    rw [State.poolPut, if_neg hd]
    exact mread_mwrite_outside _ _ _ h

/-! ### State words (R285) -/

/-- A state word's 64 bits hold its fields. -/
theorem Buf.ofCode_code (b : Buf) (bad : Bool) : Buf.ofCode b.code bad = { b with bad := bad } := by
  obtain ⟨gen, alloc, leak, owner, time, _⟩ := b
  have hgen := gen.isLt
  have howner := owner.isLt
  have htime := time.isLt
  simp only [Buf.ofCode, Buf.code, bits, bitAt, Nat.testBit_eq_decide_div_mod_eq, Nat.shiftRight_eq_div_pow, Buf.mk.injEq, and_true]
  refine ⟨BitVec.eq_of_toNat_eq ?_, ?_, ?_, BitVec.eq_of_toNat_eq ?_, BitVec.eq_of_toNat_eq ?_⟩
  · rw [BitVec.toNat_ofNat]
    split <;> split <;> omega
  · cases alloc <;> simp <;> split <;> omega
  · cases leak <;> simp <;> split <;> omega
  · rw [BitVec.toNat_ofNat]
    split <;> split <;> omega
  · rw [BitVec.toNat_ofNat]
    split <;> split <;> omega

theorem Buf.code_lt (b : Buf) : b.code < 256 ^ 8 := by
  have hgen := b.gen.isLt
  have howner := b.owner.isLt
  have htime := b.time.isLt
  unfold Buf.code
  split <;> split <;> omega

/-- Two states hold the same state word for a buffer, its damage aside. -/
def sameWord (s u : State) (p i : Nat) : Prop := ∃ bad, u.buf p i = { s.buf p i with bad := bad }

theorem sameWord.trans {s t u : State} {p i : Nat} (h : sameWord s t p i) (k : sameWord t u p i) : sameWord s u p i := by
  obtain ⟨_, h⟩ := h
  obtain ⟨b, k⟩ := k
  exact ⟨b, by rw [k, h]⟩

theorem buf_of_lt {s : State} {p i : Nat} (hp : p ≠ 0) (hi : i < s.poolCount p) :
    ∃ bad, s.buf p i = Buf.ofCode (leVal (s.poolBytes p (s.wordAddr p i) 8)) bad :=
  ⟨_, if_neg (by omega)⟩

/-- A step that leaves the pool's object and the word's bytes leaves the state word. -/
theorem sameWord_of_bytes {s u : State} {p i : Nat} (hp : p ≠ 0) (hi : i < s.poolCount p) (hlive : u.live = s.live)
    (hbytes : u.poolBytes p (s.wordAddr p i) 8 = s.poolBytes p (s.wordAddr p i) 8) : sameWord s u p i := by
  obtain ⟨_, hcount, haddr⟩ := poolObjects_congr hlive p
  obtain ⟨b, hu⟩ := buf_of_lt (s := u) hp (hcount ▸ hi)
  obtain ⟨_, hs⟩ := buf_of_lt hp hi
  exact ⟨b, by rw [hu, hs, haddr, hbytes]; rfl⟩

/-- R285: a state word that is written reads as written. -/
theorem buf_modBuf {s : State} {p i : Nat} (f : Buf → Buf) (hp : p ≠ 0) (hi : i < s.poolCount p) :
    ∃ bad, (s.modBuf p i f).buf p i = { f (s.buf p i) with bad := bad } := by
  have hmod : s.modBuf p i f = s.poolPut p (s.wordAddr p i) (leBytes 8 (f (s.buf p i)).code) := if_neg (by omega)
  rw [hmod]
  obtain ⟨_, hcount, haddr⟩ := poolObjects_congr (s.poolPut_live p (s.wordAddr p i) (leBytes 8 (f (s.buf p i)).code)) p
  obtain ⟨b, hb⟩ := buf_of_lt (i := i) hp (hcount.symm ▸ hi)
  have hread := s.poolBytes_poolPut_same p (s.wordAddr p i) (leBytes 8 (f (s.buf p i)).code)
  rw [length_leBytes] at hread
  refine ⟨b, ?_⟩
  rw [hb, haddr, hread, leVal_leBytes, Nat.mod_eq_of_lt (Buf.code_lt _), Buf.ofCode_code]

@[simp] theorem State.pool_after_modBuf (s : State) (p i : Nat) (f : Buf → Buf) (q : Nat) : (s.modBuf p i f).pool q = s.pool q := by
  unfold State.modBuf
  split
  · rfl
  · simp

@[simp] theorem State.modBuf_live (s : State) (p i : Nat) (f : Buf → Buf) : (s.modBuf p i f).live = s.live := by
  unfold State.modBuf
  split
  · rfl
  · simp

/-! ### A buffer handed out (R286, R288) -/

/-- The ring past an entry that has never been handed out. -/
def FreeRing.past (r : FreeRing) : FreeRing := { r with next := r.next + 1 }

/-- No entry of a ring is passed where none is lost or stuck. -/
theorem skip_of_gone_nil {q : Pool} (h : q.gone = []) : q.ring.skip q.gone q.gone.length = q.ring := by
  rw [h]
  rfl

/-- The pool with the ring `r` left by the entry that cache `k` has handed out. -/
def Pool.handOut (q : Pool) (k : Nat) (r : FreeRing) : Pool :=
  let t := Pool.clip { q with ring := r, cache := Store.set 128 q.cache k (q.cached k - 1), inUse := q.inUse + 1 }
  { t with lowWater := min q.lowWater t.free }

/-- Clipping the caches leaves the ring and the marks of damaged words. -/
theorem Pool.clip_keeps (q : Pool) : q.clip.ring = q.ring ∧ q.clip.badBuf = q.badBuf ∧ q.clip.stuck = q.stuck := by
  unfold Pool.clip
  split <;> exact ⟨rfl, rfl, rfl⟩

theorem Pool.handOut_keeps (q : Pool) (k : Nat) (r : FreeRing) :
    (q.handOut k r).ring = r ∧ (q.handOut k r).badBuf = q.badBuf ∧ (q.handOut k r).stuck = q.stuck :=
  Pool.clip_keeps _

/-- A change of a pool that leaves its marks of damaged words leaves its buffers. -/
theorem State.buf_modPool (s : State) (p i : Nat) (f : Pool → Pool) (hbad : (f (s.pool p)).badBuf = (s.pool p).badBuf)
    (hstuck : (f (s.pool p)).stuck = (s.pool p).stuck) : (s.modPool p f).buf p i = s.buf p i := by
  have hmarks : (((s.modPool p f).pool p).badBuf.contains i || ((s.modPool p f).pool p).stuck.contains i) =
      ((s.pool p).badBuf.contains i || (s.pool p).stuck.contains i) := by rw [State.pool_modPool_same, hbad, hstuck]
  unfold State.buf
  rw [hmarks]
  rfl

theorem State.buf_count (s : State) (u e n p i : Nat) : (s.count u e n).buf p i = s.buf p i := rfl

/-- The oldest entry of a ring that none has left or damaged is handed out as its slot names it. -/
theorem takeEntry_of_fresh {s : State} {p k : Nat} (hp : p ≠ 0) (hgone : (s.pool p).gone = [])
    (hnext : (s.pool p).ring.next < (s.pool p).ring.limit) (hcache : (s.pool p).cached k ≠ 0) :
    s.takeEntry p k = some (leVal (s.poolBytes p (s.slotAddr p (s.pool p).ring.next) 8) % 2 ^ 20,
      (s.modPool p (·.handOut k (s.pool p).ring.past)).count (src 41 0) 0x10) := by
  have hslot : (s.pool p).ring.slot 0 = (s.pool p).ring.next := if_pos (by omega)
  have htake : (s.pool p).ring.take = some ((s.pool p).ring.next, (s.pool p).ring.past) := if_pos hnext
  unfold State.takeEntry
  simp only [skip_of_gone_nil hgone, if_neg hcache, htake, if_neg hp, hslot]
  rfl

/-- The state word of a buffer allocated now by `owner`. -/
def State.allocated (s : State) (owner : Nat) (b : Buf) : Buf :=
  { b with gen := b.gen + 1, alloc := true, leak := false, owner := BitVec.ofNat 16 owner, time := BitVec.ofNat 32 s.tenMs }

/-- A pool whose oldest entry names a sound buffer allocates that buffer, in its next life. -/
theorem allocFrom_of_fresh {s : State} {p b : Nat} (owner : Nat) (hp : p ≠ 0) (hgone : (s.pool p).gone = [])
    (hnext : (s.pool p).ring.next < (s.pool p).ring.limit) (hcache : (s.pool p).cached 0 ≠ 0)
    (hserved : s.poolGone p (s.pool p).ring.next = false) (hopen : s.poolOpen p (s.pool p).ring.next = true)
    (hb : leVal (s.poolBytes p (s.slotAddr p (s.pool p).ring.next) 8) % 2 ^ 20 = b) (hcount : b < s.poolCount p)
    (hsound : (s.buf p b).bad = false) :
    ∃ u, s.allocFrom p owner = .got (((s.buf p b).gen + 1).toNat * 2 ^ 24 + p * 2 ^ 20 + b) u ∧ (u.buf p b).alloc = true
      ∧ (u.buf p b).gen = (s.buf p b).gen + 1 ∧ (u.buf p b).owner = BitVec.ofNat 16 owner
      ∧ (u.pool p).ring.next = (s.pool p).ring.next + 1 := by
  have htake := takeEntry_of_fresh hp hgone hnext hcache
  rw [hb] at htake
  obtain ⟨hring, hbad, hstuck⟩ := (s.pool p).handOut_keeps 0 (s.pool p).ring.past
  have hbuf : ((s.modPool p (·.handOut 0 (s.pool p).ring.past)).count (src 41 0) 0x10).buf p b =
      s.buf p b := by
    rw [State.buf_count]
    exact s.buf_modPool p b _ hbad hstuck
  have hpool : (((s.modPool p (·.handOut 0 (s.pool p).ring.past)).count (src 41 0) 0x10).pool p).ring.next =
      (s.pool p).ring.next + 1 := by
    rw [State.pool_after_count, State.pool_modPool_same, hring]
    rfl
  have hlt : b < ((s.modPool p (·.handOut 0 (s.pool p).ring.past)).count (src 41 0) 0x10).poolCount p :=
    hcount
  generalize (s.modPool p (·.handOut 0 (s.pool p).ring.past)).count (src 41 0) 0x10 = t
    at htake hbuf hpool hlt
  obtain ⟨d, hd⟩ := buf_modBuf (t.allocated owner) hp hlt
  have hentry : ((s.pool p).ring.skip (s.pool p).gone (s.pool p).gone.length).entry 0 = (s.pool p).ring.next := by
    rw [skip_of_gone_nil hgone]
    exact if_pos (by omega)
  have hgot : s.allocFrom p owner =
      .got (bufHandle ((t.modBuf p b (t.allocated owner)).buf p b).gen.toNat p b) (t.modBuf p b (t.allocated owner)) := by
    unfold State.allocFrom
    simp only [hentry, hserved, hopen, htake, hbuf, hsound, Bool.false_eq_true, if_false, Bool.not_true]
    rfl
  refine ⟨t.modBuf p b (t.allocated owner), hgot.trans ?_, ?_, ?_, ?_, ?_⟩
  · rw [hd, hbuf]
    rfl
  · rw [hd]
    rfl
  · rw [hd, hbuf]
    rfl
  · rw [hd]
    rfl
  · rw [State.pool_after_modBuf, hpool]

/-- Pools from 1 to 15 alone hold buffers. -/
theorem ne_zero_of_mem_candidates {s : State} {n p : Nat} (h : p ∈ s.candidates n) : p ≠ 0 := by
  simp only [State.candidates, List.mem_flatMap, List.mem_filter, span, List.mem_map] at h
  obtain ⟨_, _, ⟨k, _, rfl⟩, _⟩ := h
  omega

/-- R288: the smallest pool that fits and has entries allocates. -/
theorem allocBuffer_of_first {s : State} {n p : Nat} {rest : List Nat} (owner : Nat) (hn : 1 ≤ n) (hc : s.candidates n = p :: rest)
    (hhas : s.poolHas p ≠ 0) : s.allocBuffer n owner = s.allocFrom p owner := by
  unfold State.allocBuffer
  rw [hc]
  dsimp only
  rw [if_neg (by omega), if_pos (by omega)]

theorem allocBuffer_of_none {s : State} {n : Nat} (owner : Nat) (hc : s.candidates n = []) : s.allocBuffer n owner = .none s := by
  unfold State.allocBuffer
  rw [hc]

/-! ### A buffer freed (R291) -/

/-- Freeing an allocated buffer clears its state word's mark, keeps its life, and puts its entry at the tail of the ring. -/
theorem freeBuffer_frees {s : State} {p i : Nat} (hp : p ≠ 0) (hi : i < s.poolCount p) :
    ((s.freeBuffer p i).buf p i).alloc = false ∧ ((s.freeBuffer p i).buf p i).gen = (s.buf p i).gen
      ∧ ((s.freeBuffer p i).pool p).ring.freed = (s.pool p).ring.freed ++ [i] := by
  obtain ⟨d, hd⟩ := buf_modBuf (fun b => { b with alloc := false, leak := false }) hp hi
  have hlive : (s.modBuf p i (fun b => { b with alloc := false, leak := false })).live = s.live := s.modBuf_live _ _ _
  have hring : ((s.modBuf p i (fun b => { b with alloc := false, leak := false })).pool p).ring = (s.pool p).ring := by
    rw [State.pool_after_modBuf]
  have hfree : s.freeBuffer p i = ((s.modBuf p i (fun b => { b with alloc := false, leak := false })).modPool p
    (fun q => { q with leaked := q.leaked - b2n (s.buf p i).leak })).freeEntries p [i] := rfl
  rw [hfree]
  generalize s.modBuf p i (fun b => { b with alloc := false, leak := false }) = t at hd hlive hring
  have hword : sameWord t ((t.modPool p (fun q => { q with leaked := q.leaked - b2n (s.buf p i).leak })).freeEntries p [i]) p i := by
    have hcount : t.poolCount p = s.poolCount p := (poolObjects_congr hlive p).2.1
    generalize hq : t.modPool p (fun q => { q with leaked := q.leaked - b2n (s.buf p i).leak }) = q
    have hsame : sameWord t q p i := by
      subst hq
      exact sameWord_of_bytes hp (hcount.symm ▸ hi) rfl rfl
    have hqcount : q.poolCount p = s.poolCount p := by
      subst hq
      exact hcount
    refine hsame.trans ?_
    have hlow : q.wordAddr p i + 8 ≤ q.slotAddr p ((q.pool p).ring.slot (q.pool p).ring.count) := by
      unfold State.slotAddr State.wordAddr
      omega
    have hbytes := q.poolBytes_poolPut_outside p _ (leBytes 8 i) (.inl hlow)
    have hlive := q.poolPut_live p (q.slotAddr p ((q.pool p).ring.slot (q.pool p).ring.count)) (leBytes 8 i)
    rw [State.freeEntries_cons, State.putSlots_cons, if_neg hp, State.putSlots]
    generalize q.poolPut p (q.slotAddr p ((q.pool p).ring.slot (q.pool p).ring.count)) (leBytes 8 i) = w at hbytes hlive ⊢
    exact sameWord_of_bytes hp (hqcount.symm ▸ hi) hlive hbytes
  obtain ⟨b, hb⟩ := hword
  refine ⟨?_, ?_, ?_⟩
  · rw [hb, hd]
  · rw [hb, hd]
  · rw [State.freed_freeEntries, State.pool_modPool_same, hring]

end Sys2Proof.Machine
end

section
/-! Host commands on buffers, packets, locks and packet numbers (R42, R264 to R266, R288, R291, R295, R423). -/

namespace Sys2Proof.Machine

open Sys2Proof.Claims

/-! ### Buffers and packets (R288, R291, R295) -/

/-- A command that the Memory Controller serves, once its start-up step is done and its island runs. -/
theorem poolCommand_runs {v : State} (hdone : after v [7]) (hup : v.up 41 = true) (r : Ran) : v.after 7 (v.onIsland 41 r) = r := by
  rw [after_of_done hdone (by simp), onIsland_of_up hup]

theorem bufAllocate_of_got {v u : State} {n master h : Nat} (hgot : v.allocBuffer n master = .got h u) :
    v.bufAllocate n master = .done stDone (beBytes 4 h) u := by
  unfold State.bufAllocate
  rw [hgot]

theorem bufAllocate_of_none {v : State} {n : Nat} (master : Nat) (hc : v.candidates n = []) : v.bufAllocate n master = .done stNoSpace [] v := by
  unfold State.bufAllocate
  rw [allocBuffer_of_none master hc]

/-- Only a buffer that its pool holds can be marked allocated. -/
theorem buf_of_alloc {s : State} {p i : Nat} (h : (s.buf p i).alloc = true) : p ≠ 0 ∧ i < s.poolCount p := by
  by_cases hout : p = 0 ∨ s.poolCount p ≤ i
  · have hempty : s.buf p i = {} := if_pos hout
    rw [hempty] at h
    exact absurd h (by decide)
  · omega

section
variable {v : State} {h : Nat} (master : Nat)

theorem bufFree_of_badPool (hp : bits h 23 20 = 0) : v.bufFree h master = .done stBadParam [] v := if_pos hp

variable (hp : bits h 23 20 ≠ 0)
include hp

theorem bufFree_of_gone (hgone : v.poolGone (bits h 23 20) (bits h 19 0) = true) : v.bufFree h master = .done stHwFault [] v :=
  (if_neg hp).trans (if_pos hgone)

variable (hserved : v.poolGone (bits h 23 20) (bits h 19 0) = false)
include hserved

theorem bufFree_of_closed (hclosed : v.poolOpen (bits h 23 20) (bits h 19 0) = false) : v.bufFree h master = .wait :=
  (if_neg hp).trans ((if_neg (ne_true_of_eq_false hserved)).trans (if_pos (congrArg Bool.not hclosed)))

variable (hopen : v.poolOpen (bits h 23 20) (bits h 19 0) = true) (hsound : (v.buf (bits h 23 20) (bits h 19 0)).bad = false)
include hopen hsound

theorem bufFree_of_stale
    (hstale : (v.buf (bits h 23 20) (bits h 19 0)).gen.toNat ≠ bits h 31 24 ∨ (v.buf (bits h 23 20) (bits h 19 0)).alloc = false) :
    v.bufFree h master = .done stAlready [] v := by
  simp [State.bufFree, bufPool, bufIndex, bufGen, hp, hserved, hopen, hsound]
  intro hgen halloc
  rcases hstale with hne | hfree
  · exact absurd hgen hne
  · exact absurd halloc (by simp [hfree])

theorem bufFree_of_current (hgen : (v.buf (bits h 23 20) (bits h 19 0)).gen.toNat = bits h 31 24)
    (halloc : (v.buf (bits h 23 20) (bits h 19 0)).alloc = true) :
    v.bufFree h master = .ok (v.freeBuffer (bits h 23 20) (bits h 19 0)) := by
  simp [State.bufFree, bufPool, bufIndex, bufGen, hp, hserved, hopen, hsound, hgen, halloc]

end

section
variable {v : State} {h : Nat} (hh : h < 2 ^ 32) (master : Nat)
include hh

theorem pktFree_of_badHandle (hbits : bits h 23 19 ≠ 0) : v.pktFree (BitVec.ofNat 32 h) master = .done stBadParam [] v := by
  have hnat : (BitVec.ofNat 32 h).toNat = h := Nat.mod_eq_of_lt hh
  unfold State.pktFree
  rw [hnat]
  exact if_pos hbits

variable (hdone : after v [7]) (hup : v.up 41 = true) (hbits : bits h 23 19 = 0) (hsound : (v.desc (h % 2 ^ 19)).bad = false)
include hdone hup hbits hsound

theorem pktFree_of_sound : v.pktFree (BitVec.ofNat 32 h) master =
    (if (v.desc (h % 2 ^ 19)).gen.toNat ≠ bits h 31 24 ∨ (v.desc (h % 2 ^ 19)).st = .free then .done stAlready [] v
     else if (v.desc (h % 2 ^ 19)).st ≠ .consumed then .done stBadState [] v
     else .ok (v.freePacket (h % 2 ^ 19))) := by
  have hnat : (BitVec.ofNat 32 h).toNat = h := Nat.mod_eq_of_lt hh
  unfold State.pktFree handleDesc
  rw [hnat]
  dsimp only
  rw [if_neg (by simp [hbits]), poolCommand_runs hdone hup, if_neg (ne_true_of_eq_false hsound)]

end

/-! ### Locks (R257, R259, R264 to R266) -/

theorem count_withObs_tables (s : State) (o : Obs) (u e n : Nat) : (State.count { s with obs := o } u e n).tables = s.tables := rfl

@[simp] theorem State.trace_tables (s : State) (kind info master gen record domain pc data : Nat) :
    (s.trace kind info master gen record domain pc data).tables = s.tables := by
  unfold State.trace
  split
  next => rfl
  next t _ =>
    extract_lets f a u
    split
    next =>
      split
      next => exact State.count_tables _ _ _ _
      next =>
        have hu : u.tables = s.tables := (State.dramWrite_tables _ _ _).trans (State.dramIssue_tables _ _ _ _ _)
        refine Eq.trans ?_ hu
        generalize u = w
        exact count_withObs_tables _ _ _ _ _
    next => rfl

@[simp] theorem State.lockGranted_tables (s : State) (w m : Nat) : (s.lockGranted w m).tables = s.tables :=
  State.trace_tables _ _ _ _ _ _ _ _ _

/-- A lock word is read from the tables. -/
theorem lock_congr {s u : State} (h : u.tables.locks = s.tables.locks) (w : Nat) : u.lock w = s.lock w := by
  rw [State.lock, State.lock, h]

theorem lock_modLock (s : State) (w k : Nat) (f : Lock → Lock) : (s.modLock w f).lock k = if k = w then f (s.lock w) else s.lock k :=
  Store.get_modify ({} : Lock) s.tables.locks w k f

/-- The slice of a lock word, with no damaged lock word, serves a command on it in the state as it is. -/
theorem onLock_of_up {v : State} {w : Nat} (master : Nat) (f : State → Ran) (hdone : after v [6])
    (hup : v.up (37 + w / 2048 / 8) = true) (hbad : v.tables.badLocks = []) : v.onLock w master f = f v := by
  have hsound : v.lockEcc w master = v := if_neg (by simp [hbad])
  unfold State.onLock lockBank
  dsimp only
  rw [after_of_done hdone (by simp), if_neg (by simp [inReset_of_up hup]), if_neg (by simp [hup]), hsound]

theorem onLock_of_reset {v : State} {w : Nat} (master : Nat) (f : State → Ran) (hdone : after v [6])
    (hreset : v.inReset (37 + w / 2048 / 8) = true) : v.onLock w master f = .done stBadState [] v := by
  unfold State.onLock lockBank
  dsimp only
  rw [after_of_done hdone (by simp), if_pos hreset]

theorem lockTryHost_of_badTime {v : State} {w ms : Nat} (master : Nat) (h : ms = 0 ∨ 60000 < ms) :
    v.lockTryHost w ms master = .done stBadParam [] v := if_pos h

/-- The lock word after it is granted to a master. -/
def Lock.grantedTo (l : Lock) (master : Nat) : Lock := { l with held := true, owner := BitVec.ofNat 16 master, abandoned := false }

theorem grantNow_tables (v : State) (w master : Nat) :
    (v.grantNow w master).2.tables = (v.modLock w (·.grantedTo master)).tables := by
  unfold State.grantNow
  simp
  rfl

/-- The status of a grant is 1 where the lock is ABANDONED, and 0 otherwise. -/
theorem lockResult_grantNow (v : State) (w master : Nat) :
    lockResult (v.grantNow w master).1 = [BitVec.ofNat 8 (b2n (v.lock w).abandoned), 0, 0, 0] := by
  unfold State.grantNow
  dsimp only
  cases (v.lock w).abandoned <;> rfl

theorem grantNow_ok (v : State) (w master : Nat) : (v.grantNow w master).1 = .ok ∨ (v.grantNow w master).1 = .okAbandoned := by
  unfold State.grantNow
  cases (v.lock w).abandoned <;> simp

section
variable {v : State} {w ms : Nat} (master : Nat) (hdone : after v [6]) (hup : v.up (37 + w / 2048 / 8) = true) (hbad : v.tables.badLocks = [])
include hdone hup hbad

section
variable (hms : ¬ (ms = 0 ∨ 60000 < ms)) (hsound : (v.lock w).broken = false)
include hms hsound

theorem lockTryHost_of_free (hfree : (v.lock w).held = false) : v.lockTryHost w ms master =
    .done stDone [BitVec.ofNat 8 (b2n (v.lock w).abandoned), 0, 0, 0] ((v.grantNow w master).2.lease w master) := by
  have htry : v.lockTry w master = v.grantNow w master := by
    unfold State.lockTry
    dsimp only
    rw [if_neg (by simp [hsound]), if_pos (by simp [hfree])]
  unfold State.lockTryHost
  rw [if_neg hms, onLock_of_up master _ hdone hup hbad]
  dsimp only
  rw [htry, if_pos (grantNow_ok v w master), lockResult_grantNow]

theorem lockTryHost_of_held (hheld : (v.lock w).held = true) (howner : (v.lock w).owner.toNat ≠ master) : v.lockTryHost w ms master =
    .done stDone [3, 0, 0, 0] (v.count (sliceSrc (lockBank w)) 0x12) := by
  have htry : v.lockTry w master = (.busy, v.count (sliceSrc (lockBank w)) 0x12) := by
    unfold State.lockTry
    dsimp only
    rw [if_neg (by simp [hsound]), if_neg (by simp [hheld]), if_neg howner]
  unfold State.lockTryHost
  rw [if_neg hms, onLock_of_up master _ hdone hup hbad]
  dsimp only
  rw [htry]
  rfl

end

theorem lockReleaseHost_of_owner (hsound : (v.lock w).broken = false) (hheld : (v.lock w).held = true)
    (howner : (v.lock w).owner.toNat = master) :
    ∃ u, v.lockReleaseHost w master = .done stDone [0, 0, 0, 0] u ∧ u.tables.leases = Store.erase (v.lockRelease w master).2.tables.leases w
      ∧ u.tables.locks = (v.lockRelease w master).2.tables.locks := by
  unfold State.lockReleaseHost
  rw [onLock_of_up master _ hdone hup hbad]
  dsimp only
  rw [if_pos ⟨hsound, hheld, by simp [howner]⟩]
  exact ⟨_, rfl, rfl, rfl⟩

theorem lockReleaseHost_of_free (hsound : (v.lock w).broken = false) (hfree : (v.lock w).held = false) :
    ∃ u, v.lockReleaseHost w master = .done stAlready [5, 0, 0, 0] u ∧ u.tables.locks = v.tables.locks := by
  unfold State.lockReleaseHost
  rw [onLock_of_up master _ hdone hup hbad]
  dsimp only
  rw [if_neg (by simp [hfree]), if_pos (.inl ⟨hsound, hfree⟩)]
  exact ⟨_, rfl, rfl⟩

theorem lockReleaseHost_of_other (hheld : (v.lock w).held = true) (howner : (v.lock w).owner.toNat ≠ master)
    (hlease : (w, BitVec.ofNat 16 master) ∉ v.tables.expired) :
    v.lockReleaseHost w master = .done stNotPermitted [4, 0, 0, 0] (v.foreignRelease w master).2 := by
  unfold State.lockReleaseHost
  rw [onLock_of_up master _ hdone hup hbad]
  dsimp only
  rw [if_neg (by simp [howner]), if_neg (by simp [hheld, hlease])]
  rfl

theorem lockClear_of_broken (hbroken : (v.lock w).broken = true) :
    v.lockClear w master = .ok ((v.modLock w (fun l => { l with broken := false, abandoned := true })).passLock w) := by
  unfold State.lockClear
  rw [onLock_of_up master _ hdone hup hbad]
  exact if_pos hbroken

theorem lockClear_of_sound (hsound : (v.lock w).broken = false) : v.lockClear w master = .done stBadState [] v := by
  unfold State.lockClear
  rw [onLock_of_up master _ hdone hup hbad]
  exact if_neg (ne_true_of_eq_false hsound)

end

/-- A lock with no waiter that is passed on becomes free. -/
theorem passLock_of_alone {v : State} {w : Nat} (hq : (v.lock w).queue = []) :
    v.passLock w = v.modLock w (fun l => { l with held := false, owner := 0 }) := by
  unfold State.passLock
  dsimp only
  rw [hq]

/-- Its owner's release of a lock with no waiter frees it. -/
theorem lock_lockRelease {v : State} {w master : Nat} (hsound : (v.lock w).broken = false) (hheld : (v.lock w).held = true)
    (howner : (v.lock w).owner.toNat = master) (hq : (v.lock w).queue = []) :
    (v.lockRelease w master).2.lock w = { v.lock w with held := false, owner := 0 } := by
  have htrace : ∀ k, (v.trace 6 1 master 0 0 0xFFFF 0 w).lock k = v.lock k := lock_congr (by simp)
  have hrel : (v.lockRelease w master).2 = (v.trace 6 1 master 0 0 0xFFFF 0 w).passLock w := by
    unfold State.lockRelease
    dsimp only
    rw [if_neg (by simp [hsound]), if_neg (by simp [hq]), if_neg (by simp [hheld]), if_pos howner]
  rw [hrel, passLock_of_alone (by rw [htrace, hq]), lock_modLock, if_pos rfl, htrace]

/-! ### Packet numbers (R42, R423) -/

theorem sa_modSa (s : State) (i k : Nat) (f : SaState → SaState) : (s.modSa i f).sa k = if k = i then f (s.sa i) else s.sa k :=
  Store.get_modify ({} : SaState) s.ports.sa i k f

/-- Packet numbers have 64 bits where bit 30 of the association's object says so, and 32 bits otherwise. -/
theorem pnMax_eq (a : ObjWord) : pnMax a = if fld a 30 30 = 1 then 2 ^ 64 - 1 else 2 ^ 32 - 1 := by simp [pnMax, saXpn]

/-- A secure association of a port whose island runs is served. -/
theorem onSa_of_up {v : State} {i : Nat} (r : Ran) (hdone : after v [8]) (hi : i < 10240) (hsc : i / 4 % 64 ≤ 32)
    (hup : v.up (31 + i / 256 / 8) = true) : v.onSa i r = r := by
  have hindex : objIndexOk 0x15 i = true := by simp [objIndexOk, hi, hsc]
  unfold State.onSa
  rw [hindex, if_neg (by decide), after_of_done hdone (by simp)]
  exact onIsland_of_up hup r

/-- The numbers that SA_STATE sets: of a transmit association the next one, of a receive association the lowest one too. -/
def saNumbers (i pn : Nat) (ssci : W32) : SaState :=
  if i / 4 % 64 = 0 then { nextPn := pn, ssci := ssci } else { nextPn := pn, lowPn := pn, ssci := ssci }

theorem saNumbers_eq (i pn : Nat) (ssci : W32) : (saNumbers i pn ssci).nextPn = pn ∧ (saNumbers i pn ssci).ssci = ssci
    ∧ (if i / 4 % 64 = 0 then (saNumbers i pn ssci).nextPn else (saNumbers i pn ssci).lowPn) = pn := by
  unfold saNumbers
  split <;> exact ⟨rfl, rfl, rfl⟩

section
variable {v : State} {i pn : Nat} {ssci : W32} (hdone : after v [8]) (hi : i < 10240) (hsc : i / 4 % 64 ≤ 32)
  (hup : v.up (31 + i / 256 / 8) = true)
include hdone hi hsc hup

theorem saSet_of_over (hpn : pnMax (v.saObj i) < pn) : v.saSet i pn ssci = .done stBadParam [] v := by
  unfold State.saSet
  rw [onSa_of_up _ hdone hi hsc hup, if_pos hpn]

theorem saSet_of_enabled (hpn : pn ≤ pnMax (v.saObj i)) (hon : fld (v.saObj i) 31 31 = 1) : v.saSet i pn ssci = .done stBusy [] v := by
  unfold State.saSet
  rw [onSa_of_up _ hdone hi hsc hup, if_neg (by omega), if_pos hon]

/-- The numbers of a disabled association are set, and returned. -/
theorem saSet_of_disabled (hpn : pn ≤ pnMax (v.saObj i)) (hoff : fld (v.saObj i) 31 31 = 0) :
    ∃ u, v.saSet i pn ssci = .done stDone (beBytes 8 pn ++ beBytes 4 ssci.toNat) u ∧ (u.sa i).nextPn = pn ∧ (u.sa i).ssci = ssci
      ∧ ∀ k, k ≠ i → u.sa k = v.sa k := by
  unfold State.saSet
  rw [onSa_of_up _ hdone hi hsc hup, if_neg (by omega), if_neg (by omega)]
  obtain ⟨hnext, hssci, hread⟩ := saNumbers_eq i pn ssci
  have hsame : (v.modSa i (fun _ => saNumbers i pn ssci)).sa i = saNumbers i pn ssci := (sa_modSa _ _ _ _).trans (if_pos rfl)
  have hres : (v.modSa i (fun _ => saNumbers i pn ssci)).saResults i = beBytes 8 pn ++ beBytes 4 ssci.toNat := by
    unfold State.saResults
    dsimp only
    rw [hsame, hread, hssci]
  refine ⟨v.modSa i (fun _ => saNumbers i pn ssci), congrArg (Ran.done stDone · _) hres, ?_, ?_,
    fun k hk => (sa_modSa _ _ _ _).trans (if_neg hk)⟩
  · rw [hsame, hnext]
  · rw [hsame, hssci]

end

end Sys2Proof.Machine
end

section
/-! O45: host commands on buffers, packets, locks and packet numbers. -/

namespace Sys2Proof.Machine

open Sys2Proof.Claims

section
variable {s v : State} {x : Packet} {o : Origin}

theorem replies_bufAlloc_new {q : Nat} {rest : List Nat} (hdone : after v [7]) (hup : v.up 41 = true) (h : runs s x 0x0118 none (plen 4) o v)
    (hn : 1 ≤ arg x none 0 4) (hc : v.candidates (arg x none 0 4) = q :: rest) (hhas : v.poolHas q ≠ 0) (hlost : (v.pool q).lost = [])
    (hstuck : (v.pool q).stuck = []) (hnext : (v.pool q).ring.next < (v.pool q).ring.limit) (hcache : (v.pool q).cached 0 ≠ 0)
    (hserved : v.poolGone q (v.pool q).ring.next = false) (hopen : v.poolOpen q (v.pool q).ring.next = true) {b : Nat}
    (hb : leVal (v.poolBytes q (v.slotAddr q (v.pool q).ring.next) 8) % 2 ^ 20 = b) (hcount : b < v.poolCount q)
    (hsound : (v.buf q b).bad = false) :
    replies (.bufAlloc x) s (toOf x 0x0118 o) 0 (beBytes 4 (((v.buf q b).gen + 1).toNat * 2 ^ 24 + q * 2 ^ 20 + b)) (fun u =>
      (u.buf q b).alloc = true ∧ (u.buf q b).gen = (v.buf q b).gen + 1 ∧ (u.buf q b).owner = BitVec.ofNat 16 (o.master x.issuer.toNat)
        ∧ (u.pool q).ring.next = (v.pool q).ring.next + 1) := by
  have hq : q ≠ 0 := ne_zero_of_mem_candidates (hc ▸ List.mem_cons_self)
  have hgone : (v.pool q).gone = [] := by rw [Pool.gone, hlost, hstuck]; rfl
  obtain ⟨u, hgot, hword⟩ := allocFrom_of_fresh (o.master x.issuer.toNat) hq hgone hnext hcache hserved hopen hb hcount hsound
  rw [← allocBuffer_of_first _ hn hc hhas] at hgot
  exact replies_of_done h rfl ((poolCommand_runs hdone hup _).trans (bufAllocate_of_got hgot)) hword

theorem bufFree_replies (hdone : after v [7]) (hup : v.up 41 = true) (h : runs s x 0x0119 none (plen 4) o v) {st : Nat} {u : State}
    (hrun : v.bufFree (arg x none 0 4) (o.master x.issuer.toNat) = .done st [] u) {q : State → Prop} (hq : q u) :
    replies (.bufFree x) s (toOf x 0x0119 o) st [] q :=
  replies_of_done h rfl ((poolCommand_runs hdone hup _).trans hrun) hq

theorem pktFree_replies (h : runs s x 0x011A none (plen 4) o v) {st : Nat} {u : State}
    (hrun : v.pktFree (BitVec.ofNat 32 (arg x none 0 4)) (o.master x.issuer.toNat) = .done st [] u) {q : State → Prop} (hq : q u) :
    replies (.pktFree x) s (toOf x 0x011A o) st [] q :=
  replies_of_done h rfl hrun hq

theorem lockTry_replies (h : runs s x 0x0120 none (plen 8 [(2, 2)]) o v) {st : Nat} {res : List Byte} {u : State}
    (hrun : v.lockTryHost (arg x none 0 2) (arg x none 4 4) (o.master x.issuer.toNat) = .done st res u) {q : State → Prop} (hq : q u) :
    replies (.lockTry x) s (toOf x 0x0120 o) st res q :=
  replies_of_done h rfl hrun hq

theorem lockRelease_replies (h : runs s x 0x0121 none (plen 4 [(2, 2)]) o v) {st : Nat} {res : List Byte} {u : State}
    (hrun : v.lockReleaseHost (arg x none 0 2) (o.master x.issuer.toNat) = .done st res u) {q : State → Prop} (hq : q u) :
    replies (.lockRelease x) s (toOf x 0x0121 o) st res q :=
  replies_of_done h rfl hrun hq

theorem lockClear_replies (h : runs s x 0x0122 none (plen 4 [(2, 2)]) o v) {st : Nat} {res : List Byte} {u : State}
    (hrun : v.lockClear (arg x none 0 2) (o.master x.issuer.toNat) = .done st res u) {q : State → Prop} (hq : q u) :
    replies (.lockClear x) s (toOf x 0x0122 o) st res q :=
  replies_of_done h rfl hrun hq

theorem saStateSet_replies (h : runs s x 0x0128 (some (4, 1)) (plen 20 [(5, 3)]) o v) {st : Nat} {res : List Byte} {u : State}
    (hrun : v.saSet (arg x (some (4, 1)) 0 4) (arg x (some (4, 1)) 8 8) (BitVec.ofNat 32 (arg x (some (4, 1)) 16 4)) = .done st res u)
    {q : State → Prop} (hq : q u) : replies (.saStateSet x) s (toOf x 0x0128 o) st res q :=
  replies_of_done h rfl hrun hq

theorem saStateRead_replies (h : runs s x 0x0128 (some (4, 0)) (plen 20 [(5, 3)]) o v) {st : Nat} {res : List Byte} {u : State}
    (hrun : v.onSa (arg x (some (4, 0)) 0 4) (.done stDone (v.saResults (arg x (some (4, 0)) 0 4)) v) = .done st res u)
    {q : State → Prop} (hq : q u) : replies (.saStateRead x) s (toOf x 0x0128 o) st res q :=
  replies_of_done h rfl hrun hq

/-- A lock granted to a host master: its word, its lease, and the words of the other locks. -/
theorem lock_grantNow_lease (v : State) (w m : Nat) :
    ((v.grantNow w m).2.lease w m).lock w = (v.lock w).grantedTo m
      ∧ Store.get 0 ((v.grantNow w m).2.lease w m).tables.leases w = BitVec.ofNat 16 m
      ∧ ∀ k, k ≠ w → ((v.grantNow w m).2.lease w m).lock k = v.lock k := by
  have htables := congrArg Tables.locks (grantNow_tables v w m)
  have hlock : ∀ k, ((v.grantNow w m).2.lease w m).lock k = (v.modLock w (·.grantedTo m)).lock k :=
    fun k => (lock_congr rfl k).trans (lock_congr htables k)
  refine ⟨?_, Store.get_set_same _ _ _ _, fun k hk => ?_⟩
  · rw [hlock, lock_modLock, if_pos rfl]
  · rw [hlock, lock_modLock, if_neg hk]

/-- A foreign release changes no lock word, and its slice reports it. -/
theorem lock_foreignRelease {w : Nat} (v : State) (m : Nat) (hw : w < 2 ^ 16) :
    (v.foreignRelease w m).2.lock w = v.lock w
      ∧ reported v (v.foreignRelease w m).2 (64 * (37 + w / 2048 / 8) + 0x10 + w / 2048 % 8) 0x80 { addr := w, master := m, access := 4 } := by
  have hsrc : sliceSrc (lockBank w) = 64 * (37 + w / 2048 / 8) + 0x10 + w / 2048 % 8 := by
    unfold sliceSrc lockBank src
    omega
  refine ⟨lock_congr (by simp [State.foreignRelease]) w, reported_of_raised (t := v.count (sliceSrc (lockBank w)) 0x13) (by omega) ?_ ?_ ?_⟩
  · simp
  · simp
  · rw [← hsrc]
    rfl

end

/-- Settles O45: each clause is the command's case, replied from the state that the packet's checks leave. -/
theorem bufferLockAndPacketNumberCommands : Obligations.BufferLockAndPacketNumberCommands := by
  unfold Obligations.BufferLockAndPacketNumberCommands
  intro s v x o master
  refine ⟨fun hdone hup => ⟨?_, ?_, ?_, ?_⟩, ?_, ?_⟩
  · intro q rest h hn hc hhas hlost hstuck hnext hcache hserved hopen b g hcount hsound
    exact replies_bufAlloc_new hdone hup h hn hc hhas hlost hstuck hnext hcache hserved hopen rfl hcount hsound
  · intro h hc
    exact replies_of_done h rfl ((poolCommand_runs hdone hup _).trans (bufAllocate_of_none _ hc)) rfl
  · intro h
    refine ⟨fun hp => ?_, fun hp hgone => ?_, fun hp hserved hclosed => ?_, fun hp hserved hopen hsound hstale => ?_,
      fun hp hserved hopen hsound hgen halloc => ?_⟩
    · exact bufFree_replies hdone hup h (bufFree_of_badPool _ hp) rfl
    · exact bufFree_replies hdone hup h (bufFree_of_gone _ hp hgone) rfl
    · exact gives_kept_of_wait h rfl ((poolCommand_runs hdone hup _).trans (bufFree_of_closed _ hp hserved hclosed))
    · exact bufFree_replies hdone hup h (bufFree_of_stale _ hp hserved hopen hsound hstale) rfl
    · obtain ⟨hpool, hcount⟩ := buf_of_alloc halloc
      exact bufFree_replies hdone hup h (bufFree_of_current _ hp hserved hopen hsound hgen halloc) (freeBuffer_frees hpool hcount)
  · intro h
    have hlt : arg x none 0 4 < 2 ^ 32 := arg_lt x none 0 4
    refine fun hsound => ⟨fun hbits => ?_, fun hbits hstale => ?_, fun hbits hgen hst => ?_, fun hbits hgen hst hfree => ?_⟩
    · exact pktFree_replies h (pktFree_of_badHandle hlt _ hbits) rfl
    · exact pktFree_replies h ((pktFree_of_sound hlt _ hdone hup hbits hsound).trans (if_pos hstale)) rfl
    · have hfree : (v.desc (arg x none 0 4 % 2 ^ 19)).st ≠ .free := fun hfree => absurd (hst.symm.trans hfree) (by decide)
      exact pktFree_replies h ((pktFree_of_sound hlt _ hdone hup hbits hsound).trans
        ((if_neg (not_or.2 ⟨not_not.2 hgen, hfree⟩)).trans (if_neg (not_not.2 hst)))) (packetFreed_freePacket _ _)
    · exact pktFree_replies h ((pktFree_of_sound hlt _ hdone hup hbits hsound).trans
        ((if_neg (not_or.2 ⟨not_not.2 hgen, hfree⟩)).trans (if_pos hst))) rfl
  · intro w i l hdone
    have hw : w < 2 ^ 16 := arg_lt x none 0 2
    refine ⟨fun hreset => ⟨fun h hlow hhigh => ?_, fun h => ?_, fun h => ?_⟩, fun hup hbad => ⟨fun h hlow hhigh => ⟨?_, ?_⟩, fun h hms => ?_,
      fun h hsound => ⟨?_, ?_, ?_⟩, fun h => ⟨?_, ?_⟩⟩⟩
    · exact lockTry_replies h ((if_neg (by omega)).trans (onLock_of_reset _ _ hdone hreset)) rfl
    · exact lockRelease_replies h (onLock_of_reset _ _ hdone hreset) rfl
    · exact lockClear_replies h (onLock_of_reset _ _ hdone hreset) rfl
    · intro hsound hfree
      exact lockTry_replies h (lockTryHost_of_free _ hdone hup hbad (by omega) hsound hfree) (lock_grantNow_lease v w _)
    · intro hsound hheld howner
      exact lockTry_replies h (lockTryHost_of_held _ hdone hup hbad (by omega) hsound hheld howner) (State.count_tables _ _ _ _)
    · exact lockTry_replies h (lockTryHost_of_badTime _ hms) rfl
    · intro hheld howner hq
      obtain ⟨u, hrun, hleases, hlocks⟩ := lockReleaseHost_of_owner _ hdone hup hbad hsound hheld howner
      refine lockRelease_replies h hrun ⟨?_, ?_⟩
      · exact (lock_congr hlocks w).trans (lock_lockRelease hsound hheld howner hq)
      · rw [hleases]
        exact Store.get_erase_same _ _ _
    · intro hfree
      obtain ⟨u, hrun, hlocks⟩ := lockReleaseHost_of_free _ hdone hup hbad hsound hfree
      exact lockRelease_replies h hrun (lock_congr hlocks w)
    · intro hheld howner hlease
      exact lockRelease_replies h (lockReleaseHost_of_other _ hdone hup hbad hheld howner hlease) (lock_foreignRelease v _ hw)
    · intro hbroken hq
      refine lockClear_replies h (lockClear_of_broken _ hdone hup hbad hbroken) ?_
      rw [passLock_of_alone ?_, lock_modLock, if_pos rfl, lock_modLock, if_pos rfl]
      rw [lock_modLock, if_pos rfl]
      exact hq
    · intro hsound
      exact lockClear_replies h (lockClear_of_sound _ hdone hup hbad hsound) rfl
  · intro n here hdone
    refine ⟨fun h ⟨hi, hsc, hup⟩ => ?_, fun h ⟨hi, hsc, hup⟩ => ?_⟩
    · exact saStateRead_replies h (onSa_of_up _ hdone hi hsc hup) rfl
    · intro pn ssci a top
      have htop : pnMax (v.saObj (n 1)) = top := pnMax_eq _
      rw [← htop]
      refine ⟨fun hpn hoff => ?_, fun hpn hon => ?_, fun hpn => ?_⟩
      · have hssci : (BitVec.ofNat 32 ssci).toNat = ssci := Nat.mod_eq_of_lt (arg_lt x (some (4, 1)) 16 4)
        obtain ⟨u, hrun, hkept⟩ := saSet_of_disabled (ssci := BitVec.ofNat 32 ssci) hdone hi hsc hup hpn hoff
        rw [hssci] at hrun
        exact saStateSet_replies h hrun hkept
      · exact saStateSet_replies h (saSet_of_enabled hdone hi hsc hup hpn hon) rfl
      · exact saStateSet_replies h (saSet_of_over hdone hi hsc hup hpn) rfl

end Sys2Proof.Machine
end

section
/-! What the sending of a reply or a completion leaves alone: the power state, the issuer slots and the operations under way (R397 to R401). -/

namespace Sys2Proof.Machine

open Sys2Proof.Claims

/-- What a reply on its way leaves alone: the power state, the issuer slots and the asynchronous operations. -/
def State.standingOrders (s : State) : Power × Store Issuer × List Async := (s.power, s.ycp.issuers, s.ycp.asyncs)

theorem standingOrders_congr {s u : State} (hp : u.power = s.power) (hy : u.ycp = s.ycp) : u.standingOrders = s.standingOrders := by
  rw [State.standingOrders, State.standingOrders, hp, hy]

/-! ### Single state operations -/

@[simp] theorem State.standingOrders_count (s : State) (u e n : Nat) : (s.count u e n).standingOrders = s.standingOrders := rfl

@[simp] theorem State.standingOrders_countQueue (s : State) (u q n : Nat) : (s.countQueue u q n).standingOrders = s.standingOrders := rfl

@[simp] theorem State.standingOrders_emit (s : State) (o : Output) : (s.emit o).standingOrders = s.standingOrders := rfl

@[simp] theorem State.standingOrders_event (s : State) (b : Nat) : (s.event b).standingOrders = s.standingOrders :=
  standingOrders_congr (by simp) (by simp)

@[simp] theorem State.standingOrders_raise (s : State) (u k : Nat) (i : FaultInfo) : (s.raise u k i).standingOrders = s.standingOrders :=
  standingOrders_congr (by simp) (by simp)

@[simp] theorem State.standingOrders_modQueue (s : State) (q : Nat) (f : Queue → Queue) : (s.modQueue q f).standingOrders = s.standingOrders := rfl

@[simp] theorem State.standingOrders_modDesc (s : State) (d : Nat) (f : Desc → Desc) : (s.modDesc d f).standingOrders = s.standingOrders := rfl

@[simp] theorem State.standingOrders_modPool (s : State) (p : Nat) (f : Pool → Pool) : (s.modPool p f).standingOrders = s.standingOrders := rfl

@[simp] theorem State.standingOrders_cellWrite (s : State) (a : Nat) (l : List Byte) : (s.cellWrite a l).standingOrders = s.standingOrders := rfl

@[simp] theorem State.standingOrders_dramIssue (s : State) (w : Bool) (l : List Nat) (k m : Nat) :
    (s.dramIssue w l k m).standingOrders = s.standingOrders := standingOrders_congr (by simp) (by simp)

@[simp] theorem State.standingOrders_dramWrite (s : State) (a : Nat) (l : List Byte) : (s.dramWrite a l).standingOrders = s.standingOrders :=
  standingOrders_congr (by simp) (by simp)

@[simp] theorem State.standingOrders_freePacket (s : State) (d : Nat) : (s.freePacket d).standingOrders = s.standingOrders :=
  standingOrders_congr (by simp) (by simp)

@[simp] theorem State.standingOrders_draw (s : State) (n : Nat) : (s.draw n).2.standingOrders = s.standingOrders := rfl

@[simp] theorem State.standingOrders_noteLinked (s : State) (t : LinkTie) : (s.noteLinked t).standingOrders = s.standingOrders := rfl

@[simp] theorem State.standingOrders_loseReply (s : State) : s.loseReply.standingOrders = s.standingOrders := rfl

/-! ### Packets built and admitted (R290, R301 to R306) -/

theorem State.standingOrders_takeEntry {s u : State} {p k e : Nat} (h : s.takeEntry p k = some (e, u)) :
    u.standingOrders = s.standingOrders := by
  unfold State.takeEntry at h
  dsimp only at h
  split at h
  next => exact absurd h (by simp)
  next =>
    split at h
    next => exact absurd h (by simp)
    next =>
      obtain ⟨-, rfl⟩ := Prod.mk.inj (Option.some.inj h)
      simp

theorem State.standingOrders_takeShared (n : Nat) : ∀ {s u : State} {l : List Nat}, s.takeShared n = some (l, u) →
    u.standingOrders = s.standingOrders := by
  induction n with
  | zero =>
    intro s u l h
    obtain ⟨-, rfl⟩ := Prod.mk.inj (Option.some.inj h)
    rfl
  | succ n ih =>
    intro s u l h
    unfold State.takeShared at h
    split at h
    next => exact absurd h (by simp)
    next =>
      split at h
      next => exact absurd h (by simp)
      next c t htake =>
        obtain ⟨⟨cells, w⟩, hrest, heq⟩ := Option.map_eq_some_iff.1 h
        obtain ⟨-, rfl⟩ := Prod.mk.inj heq
        rw [ih hrest, State.standingOrders_takeEntry htake]

@[simp] theorem State.standingOrders_chainWrite (s : State) (cells : List Nat) (o : Nat) (l : List Byte) :
    (s.chainWrite cells o l).standingOrders = s.standingOrders := by
  refine foldl_keeps State.standingOrders _ (fun t j => ?_) _ s
  dsimp only
  split
  · simp
  · rfl

theorem State.standingOrders_buildPacket {s u : State} {m : W64} {ts : W32} {l : List Byte} {d : Nat}
    (h : s.buildPacket m ts l = some (d, u)) : u.standingOrders = s.standingOrders := by
  unfold State.buildPacket at h
  split at h
  next => exact absurd h (by simp)
  next =>
    split at h
    next => exact absurd h (by simp)
    next cells t htake =>
      obtain ⟨-, rfl⟩ := Prod.mk.inj (Option.some.inj h)
      simp [State.standingOrders_takeShared _ htake]

@[simp] theorem State.standingOrders_queueEcc (s : State) (q m a : Nat) : (s.queueEcc q m a).standingOrders = s.standingOrders := by
  unfold State.queueEcc
  split
  · simp
  · rfl

@[simp] theorem State.standingOrders_dropQueued (s : State) (q d c : Nat) : (s.dropQueued q d c).standingOrders = s.standingOrders := by
  simp [State.dropQueued, State.countDrop]

@[simp] theorem State.standingOrders_setCe (s : State) (d o sh : Nat) : (s.setCe d o sh).standingOrders = s.standingOrders := by
  unfold State.setCe State.editWrite
  dsimp only
  split <;> simp

@[simp] theorem State.standingOrders_admission (s : State) (q d n : Nat) : (s.admission q d n).2.standingOrders = s.standingOrders := by
  unfold State.admission
  dsimp only
  split
  · simp
  · split
    · split
      · simp
      · split
        · split <;> simp
        · simp
    · simp

/-! ### Spill (R312 to R314) -/

theorem State.standingOrders_spillPlace {s u : State} {q n pg a : Nat} (h : s.spillPlace q n = some (pg, a, u)) :
    u.standingOrders = s.standingOrders := by
  have hfresh : ∀ {o : Option (Nat × Nat × State)}, o = (match s.qm.pages.take with
      | some (pg, r) => some (pg, 0, ({ s with qm := { s.qm with pages := r } } : State))
      | none => none) → o = some (pg, a, u) → u.standingOrders = s.standingOrders := by
    intro o ho heq
    rw [heq] at ho
    split at ho
    next =>
      obtain ⟨-, htail⟩ := Prod.mk.inj (Option.some.inj ho)
      obtain ⟨-, rfl⟩ := Prod.mk.inj htail
      rfl
    next => exact absurd ho (by simp)
  unfold State.spillPlace at h
  dsimp only at h
  split at h
  next =>
    split at h
    next =>
      obtain ⟨-, htail⟩ := Prod.mk.inj (Option.some.inj h)
      obtain ⟨-, rfl⟩ := Prod.mk.inj htail
      rfl
    next => exact hfresh rfl h
  next => exact hfresh rfl h

@[simp] theorem State.standingOrders_pageLeft (s : State) (q pg : Nat) : (s.pageLeft q pg).standingOrders = s.standingOrders := by
  unfold State.pageLeft
  dsimp only
  split <;> rfl

@[simp] theorem State.standingOrders_spillWrite (s : State) (w : SpillWrite) : (s.spillWrite w).standingOrders = s.standingOrders := by
  simp [State.spillWrite]

@[simp] theorem State.standingOrders_spillRefused (s : State) (w : SpillWrite) : (s.spillRefused w).standingOrders = s.standingOrders := by
  simp [State.spillRefused]

theorem State.standingOrders_spillOut (l : List SpillWrite) : ∀ s : State, (State.spillOut l s).standingOrders = s.standingOrders := by
  induction l with
  | nil => intro s; rfl
  | cons w t ih =>
    intro s
    unfold State.spillOut
    dsimp only
    split
    · rw [ih, State.standingOrders_spillRefused]
    · split
      · rw [ih, State.standingOrders_spillWrite]
      · rfl

@[simp] theorem State.standingOrders_drainSpill (s : State) : s.drainSpill.standingOrders = s.standingOrders := State.standingOrders_spillOut _ _

@[simp] theorem State.standingOrders_spill (s : State) (k : QPkt) (order : Nat) (domain : Option Nat) :
    (s.spill k order domain).standingOrders = s.standingOrders := by
  unfold State.spill
  dsimp only
  split
  · simp
  · split
    next =>
      split
      · simp
      · rw [State.standingOrders_raise]
        exact State.standingOrders_dropQueued _ _ _ _
    next t hplace =>
      have hplaced := State.standingOrders_spillPlace hplace
      rw [State.standingOrders_drainSpill, State.standingOrders_noteLinked, ← hplaced]
      rfl

@[simp] theorem State.standingOrders_link (s : State) (k : QPkt) (order : Nat) (domain : Option Nat) :
    (s.link k order domain).standingOrders = s.standingOrders := by
  unfold State.link
  split <;> simp

@[simp] theorem State.standingOrders_enqueue (s : State) (k : QPkt) (order : Nat) (domain : Option Nat) :
    (s.enqueue k order domain).standingOrders = s.standingOrders := by
  have hadmit := (s.queueEcc k.queue).standingOrders_admission k.queue k.desc k.len
  unfold State.enqueue
  dsimp only
  split
  next => simp
  next =>
    split
    next t heq =>
      rw [heq] at hadmit
      simpa using hadmit
    next t heq =>
      rw [heq] at hadmit
      split <;> simpa using hadmit

/-! ### Replies sent (R397, R400, R401) -/

theorem State.standingOrders_inbandOut (l : List (Nat × List Byte)) : ∀ s : State, (State.inbandOut l s).standingOrders = s.standingOrders := by
  induction l with
  | nil => intro s; rfl
  | cons e t ih =>
    obtain ⟨p, f⟩ := e
    intro s
    unfold State.inbandOut
    dsimp only
    split
    · rw [ih, State.standingOrders_loseReply]
    · split
      · rfl
      · split
        next => rfl
        next d u hbuild => rw [ih, State.standingOrders_enqueue, State.standingOrders_buildPacket hbuild]

@[simp] theorem State.standingOrders_flushInband (s : State) : s.flushInband.standingOrders = s.standingOrders := State.standingOrders_inbandOut _ _

theorem State.standingOrders_flushReplies (n : Nat) : ∀ s : State, (State.flushReplies n s).standingOrders = s.standingOrders := by
  induction n with
  | zero => intro s; rfl
  | succ n ih =>
    intro s
    unfold State.flushReplies
    split
    · rfl
    · split
      · rw [ih, State.standingOrders_event, State.standingOrders_emit, State.standingOrders_emit]
        rfl
      · rfl

theorem State.standingOrders_sendReply (s : State) (o : Origin) (l : List Byte) : (s.sendReply o l).standingOrders = s.standingOrders := by
  unfold State.sendReply
  split
  · rfl
  · split
    · rw [State.flushAll, State.standingOrders_flushReplies, State.standingOrders_flushInband]
      rfl
    · rw [State.standingOrders_emit, State.sendInband, State.standingOrders_flushInband]
      rfl
    · rfl

/-! ### Completions (R397) -/

/-- A completion ends the operation and takes its reply's place in its issuer's slot, and leaves the power state. -/
theorem completed_complete (s : State) (op : AsyncOp) (st : Nat) (res : List Byte) :
    completed s (s.complete op st res) op st res ∧ (s.complete op st res).power = s.power := by
  unfold State.complete
  split
  next hnone =>
    refine ⟨⟨fun a ha heq => ?_, fun a hfind => absurd (hnone.symm.trans hfind) (by simp)⟩, rfl⟩
    exact absurd (beq_iff_eq.2 heq) (List.find?_eq_none.1 hnone a ha)
  next a hfind =>
    unfold State.completion
    have hsent := State.standingOrders_sendReply
      (State.modIssuer { s with ycp := { s.ycp with asyncs := s.ycp.asyncs.filter (fun a => a.op != op) } } a.answerTo.issuer (fun i =>
        if i.stored.any (fun x => x.serial == a.answerTo.serial) then
          i.put { serial := a.answerTo.serial, status := BitVec.ofNat 16 st, results := res, completion := true } else i))
      a.answerTo.origin (replyBytes a.answerTo true st 0 res)
    generalize State.sendReply _ _ _ = u at hsent ⊢
    obtain ⟨hpower, htail⟩ := Prod.mk.inj hsent
    obtain ⟨hissuers, hasyncs⟩ := Prod.mk.inj htail
    refine ⟨⟨fun b hb => ?_, fun b hb => ?_⟩, hpower⟩
    · rw [hasyncs] at hb
      exact bne_iff_ne.1 (List.mem_filter.1 hb).2
    · obtain rfl := Option.some.inj (hb.symm.trans hfind)
      rw [State.issuer, hissuers]
      exact Store.get_modify_same _ _ _ _

end Sys2Proof.Machine
end

section
/-! Lane, bank and queue service commands, and Extrait (R48, R250, R320, R430, R482 to R484). -/

namespace Sys2Proof.Machine

open Sys2Proof.Claims

/-! ### Lanes and banks (R48, R250) -/

/-- A port that is taken down is down. -/
theorem linkUp_portDown (s : State) (p : Nat) : ((s.portDown p).port p).linkUp = false := by
  by_cases h : (s.port p).linkUp = true
  · rw [portDown_of_up h, State.port_after_emit, State.port_portEvent, if_pos rfl, State.port_modPort, if_pos rfl]
    rfl
  · rw [State.portDown, if_neg h]
    simpa using h

section
variable {v : State} {l : Nat} (kind : BitVec 2) (hl : l < 40) (hdone : after v [8])
include hl hdone

theorem laneRecal_of_free (hport : v.portOfLane l = none) : v.laneRecal l kind = .done stBadState [] v := by
  rw [State.laneRecal, if_neg (by omega), after_of_done hdone (by simp), hport]

variable {p : Nat} (hport : v.portOfLane l = some p)
include hport

theorem laneRecal_of_busy (hbusy : (v.lane l).recal ≠ 0) : v.laneRecal l kind = .done stBusy [] v := by
  rw [State.laneRecal, if_neg (by omega), after_of_done hdone (by simp), hport]
  exact if_pos hbusy

theorem laneRecal_of_idle (hidle : (v.lane l).recal = 0) (hrun : v.inReset (31 + l / 8) = false) :
    v.laneRecal l kind = .start (.laneRecal l) ((if kind = 2 then v.portDown p else v).modLane l (fun x => { x with recal := kind })) := by
  rw [State.laneRecal, if_neg (by omega), after_of_done hdone (by simp), hport]
  exact (if_neg (not_not.2 hidle)).trans (if_neg (ne_true_of_eq_false hrun))

end

section
variable {v : State} {b : Nat} (hb : b < 32) (hdone : after v [6])
include hb hdone

theorem bankReplace_of_spareUsed (hused : b / 8 ∈ v.tables.spareUsed) : v.bankReplace b = .done stNoSpace [] v := by
  rw [State.bankReplace, if_neg (by omega), after_of_done hdone (by simp), if_pos (.inl (by simpa using hused))]

theorem bankReplace_of_spare (hspare : b / 8 ∉ v.tables.spareUsed) (hreplacing : v.tables.replacing = [])
    (hrun : v.inReset (37 + b / 8) = false) :
    v.bankReplace b = .start (.bankReplace b) { v with tables := { v.tables with replacing := [b] } } := by
  rw [State.bankReplace, if_neg (by omega), after_of_done hdone (by simp), if_neg (by simp [hspare, hreplacing]),
    if_neg (ne_true_of_eq_false hrun), hreplacing]
  rfl

end

/-! ### Queues flushed (R320) -/

/-- A queue is read from the Queue Manager's state. -/
theorem queue_congr {s u : State} (h : u.qm.queue = s.qm.queue) (q : Nat) : u.queue q = s.queue q := by
  rw [State.queue, State.queue, h]

theorem queue_freePacket (s : State) (d k : Nat) : (s.freePacket d).queue k = s.queue k := queue_congr (by simp) k

theorem queue_dropQueued (s : State) (q d c k : Nat) : (s.dropQueued q d c).queue k = s.queue k := queue_freePacket _ _ _

theorem queue_pageLeft_other (s : State) {q k : Nat} (pg : Nat) (h : k ≠ q) : (s.pageLeft q pg).queue k = s.queue k := by
  unfold State.pageLeft
  dsimp only
  split
  · rw [State.queue_modQueue, if_neg h]
    rfl
  · rfl

theorem queue_clearEmpty (s : State) (path : List Nat) (k : Nat) : (s.clearEmpty path).queue k = s.queue k := by
  refine foldl_keeps (fun t : State => t.queue k) _ (fun t e => ?_) _ s
  split <;> rfl

theorem queue_dropAll (s : State) (q c k : Nat) (l : List QPkt) : (l.foldl (fun s p => s.dropQueued q p.desc c) s).queue k = s.queue k := by
  induction l generalizing s with
  | nil => rfl
  | cons p t ih => rw [List.foldl_cons, ih, queue_dropQueued]

theorem queue_leaveAll_other (s : State) {q k : Nat} (c : Nat) (h : k ≠ q) (l : List Spilled) :
    (l.foldl (fun s r => (s.countDrop q c).pageLeft q r.page) s).queue k = s.queue k := by
  induction l generalizing s with
  | nil => rfl
  | cons r t ih =>
    rw [List.foldl_cons, ih, queue_pageLeft_other _ _ h]
    rfl

theorem queue_freeAll (s : State) (k : Nat) (l : List SpillWrite) : (l.foldl (fun s w => s.freePacket w.pkt.desc) s).queue k = s.queue k := by
  induction l generalizing s with
  | nil => rfl
  | cons w t ih => rw [List.foldl_cons, ih, queue_freePacket]

/-- A queue with nothing in it, that runs. -/
def Queue.flushed (x : Queue) : Queue := { x with pkts := [], spilled := [], page := none, stopped := false, bad := false }

/-- Flushing a queue counts what it held, leaves it empty and running, and leaves every other queue. -/
theorem flushQueue_eq (v : State) (q c : Nat) : (v.flushQueue q c).1 = (v.queue q).pkts.length + (v.queue q).spilled.length
    ∧ (∃ x : Queue, (v.flushQueue q c).2.queue q = x.flushed) ∧ ∀ k, k ≠ q → (v.flushQueue q c).2.queue k = v.queue k := by
  unfold State.flushQueue
  extract_lets held n mine s₁ s₂ qm s₃
  have h₁ : ∀ k, s₁.queue k = v.queue k := fun k => queue_dropAll v q c k _
  have h₂ : ∀ k, k ≠ q → s₂.queue k = s₁.queue k := fun k hk => queue_leaveAll_other s₁ c hk _
  have h₃ : ∀ k, s₃.queue k = s₂.queue k := fun k => (queue_freeAll _ k mine).trans (queue_congr rfl k)
  clear_value s₁ s₂ s₃
  refine ⟨rfl, ⟨s₃.queue q, ?_⟩, fun k hk => ?_⟩
  · rw [queue_clearEmpty, State.queue_modQueue, if_pos rfl]
    rfl
  · rw [queue_clearEmpty, State.queue_modQueue, if_neg hk, h₃, h₂ k hk, h₁]

theorem queueFlush_of_up {v : State} {q : Nat} (hq : q < 262144) (hdone : after v [6]) (hrun : v.inReset 36 = false) :
    v.queueFlush q = .done stDone (beBytes 4 ((v.queue q).pkts.length + (v.queue q).spilled.length)) (v.flushQueue q 0x16).2 := by
  rw [State.queueFlush, if_neg (by omega), after_of_done hdone (by simp), if_neg (ne_true_of_eq_false hrun), ← (flushQueue_eq v q 0x16).1]

/-! ### Extrait's commands (R482 to R484) -/

/-- What the governor spaces changes neither the Extrait state nor, for Extrait's own ramps, an island. -/
theorem governed_keeps (s : State) {c : PowerChange} (hc : c = .extraitEntry ∨ c = .extraitExit) :
    (s.governed c).power.extrait = s.power.extrait ∧ (s.governed c).power.island = s.power.island := by
  unfold State.governed
  split
  · exact ⟨rfl, rfl⟩
  · obtain rfl | rfl := hc <;> exact ⟨rfl, rfl⟩

section
variable {v : State} {window ceiling reserve : Nat} (hw : 1 ≤ window) (hw' : window ≤ 300000) (hc : 60 ≤ ceiling) (hc' : ceiling ≤ 110)
  (hdone : after v [9])
include hw hw' hc hc' hdone

theorem extraitEnter_of_busy (hphase : v.power.extrait.phase ≠ .off) : v.extraitEnter window ceiling reserve = .done stBusy [] v := by
  rw [State.extraitEnter, if_neg (by omega), after_of_done hdone (by simp), if_pos (by simpa [State.inExtrait] using hphase)]

variable (hphase : v.power.extrait.phase = .off)
include hphase

theorem extraitEnter_of_hot (hhot : ∃ i, i < 53 ∧ ((ceiling : Int) - 3 ≤ (v.isl i).temp.toInt ∨ (v.isl i).sensorOk = false)) :
    v.extraitEnter window ceiling reserve = .done stBadState [] v := by
  obtain ⟨i, hi, hhot⟩ := hhot
  have hany : (List.range 53).any (fun i => decide ((ceiling : Int) - 3 ≤ (v.isl i).reading) || !(v.isl i).sensorOk) = true := by
    refine List.any_eq_true.2 ⟨i, List.mem_range.2 hi, ?_⟩
    simpa [Island.reading] using hhot
  rw [State.extraitEnter, if_neg (by omega), after_of_done hdone (by simp), if_neg (by simp [State.inExtrait, hphase]), if_pos (.inl hany)]

theorem extraitEnter_of_cool (hcool : ∀ i, i < 53 → (v.isl i).temp.toInt < (ceiling : Int) - 3 ∧ (v.isl i).sensorOk = true)
    (hlife : v.deviceLife + reserve < 350640) :
    v.extraitEnter window ceiling reserve = .start .extrait
      ((v.modExtrait (fun _ => { phase := .entering, window := window, ceiling := ceiling, reserve := reserve })).governed .extraitEntry) := by
  have hany : (List.range 53).any (fun i => decide ((ceiling : Int) - 3 ≤ (v.isl i).reading) || !(v.isl i).sensorOk) = false := by
    refine List.any_eq_false.2 fun i hi => ?_
    obtain ⟨htemp, hok⟩ := hcool i (List.mem_range.1 hi)
    have hlow : ¬ (ceiling : Int) - 3 ≤ (v.isl i).reading := Int.not_le.2 htemp
    simp only [hlow, hok, decide_false, Bool.not_true, Bool.or_self, Bool.false_eq_true, not_false_eq_true]
  have hworn : v.wornTo reserve = false := decide_eq_false (by omega)
  rw [State.extraitEnter, if_neg (by omega), after_of_done hdone (by simp), if_neg (by simp [State.inExtrait, hphase]),
    if_neg (by rw [hany, hworn]; decide)]

end

/-- An exit that begins while Extrait is on records its cause and its time. -/
theorem extrait_beginExit_of_on {v : State} (cause : Nat) (hphase : v.power.extrait.phase = .on) :
    (v.beginExit cause).power.extrait = { v.power.extrait with phase := .exiting cause, stop := v.time.elapsed } := by
  unfold State.beginExit
  rw [hphase]
  exact (governed_keeps _ (.inr rfl)).1

/-! ### The ramps' ends (R482, R484) -/

/-- An island is read from the power state. -/
theorem isl_congr {s u : State} (h : u.power.island = s.power.island) (i : Nat) : u.isl i = s.isl i := by
  rw [State.isl, State.isl, h]

/-- A pass over distinct islands that changes each by itself, as a part of the state that it leaves says. -/
theorem isl_foldl {γ : Type} (kept : State → γ) (g : γ → Nat → Island → Island) {f : State → Nat → State}
    (hkept : ∀ s c, kept (f s c) = kept s)
    (hsame : ∀ s c, (f s c).isl c = g (kept s) c (s.isl c)) (hother : ∀ s c k, k ≠ c → (f s c).isl k = s.isl k)
    {l : List Nat} (hl : l.Nodup) :
    ∀ (s : State) (k : Nat), (l.foldl f s).isl k = if k ∈ l then g (kept s) k (s.isl k) else s.isl k := by
  induction l with
  | nil => intro s k; rfl
  | cons c t ih =>
    intro s k
    obtain ⟨hc, ht⟩ := List.nodup_cons.1 hl
    rw [List.foldl_cons, ih ht, hkept]
    by_cases hk : k = c
    · subst hk
      rw [if_neg hc, if_pos List.mem_cons_self, hsame]
    · rw [hother s c k hk]
      simp [hk]

/-- A cluster in service at its Extrait supply. -/
def Island.raised (x : Island) : Island := { x with extrait := true, vmeas := 850 }

/-- A cluster at its own supply. -/
def Island.own (x : Island) : Island := if x.extrait then { x with extrait := false, vmeas := x.volt } else x

/-- A cluster that is in service and runs takes its Extrait settings. -/
def State.raiseServing (s : State) (c : Nat) : State := if (s.cl c).svc.st = 1 ∧ s.up c then s.extraitSettings c else s

/-- What a cluster's step up leaves alone: the clusters, the Extrait state and the rail. -/
def State.rampFrame (s : State) : Store Cluster × Extrait × Nat := (s.clusters, s.power.extrait, s.power.railMv)

theorem rampFrame_raiseServing (s : State) (c : Nat) : (s.raiseServing c).rampFrame = s.rampFrame := by
  unfold State.raiseServing State.extraitSettings
  split
  · split <;> rfl
  · rfl

/-- What a cluster's island becomes at the entry, as the ramp's frame says. -/
def Island.afterEntry (k : Store Cluster × Extrait × Nat) (c : Nat) (x : Island) : Island :=
  if (Store.get {} k.1 c).svc.st = 1 ∧ x.st == .run then (if k.2.1.phase = .on then x.raised else x) else x

theorem isl_raiseServing_same (s : State) (c : Nat) : (s.raiseServing c).isl c = (s.isl c).afterEntry s.rampFrame c := by
  have hright : (s.isl c).afterEntry s.rampFrame c = if (s.cl c).svc.st = 1 ∧ s.up c = true then
      (if s.power.extrait.phase = .on then (s.isl c).raised else s.isl c) else s.isl c := rfl
  rw [hright]
  unfold State.raiseServing State.extraitSettings
  split
  · split
    · exact State.isl_modIsl_same _ _ _
    · rfl
  · rfl

theorem isl_raiseServing_other (s : State) (c : Nat) {k : Nat} (h : k ≠ c) : (s.raiseServing c).isl k = s.isl k := by
  unfold State.raiseServing State.extraitSettings
  split
  · split
    · exact (State.isl_modIsl _ _ _ _).trans (if_neg h)
    · rfl
  · rfl

/-- The pass of the entry over the clusters. -/
theorem isl_raiseAll (s : State) (hon : s.power.extrait.phase = .on) {c : Nat} (hc : c < 26) :
    ((List.range 26).foldl State.raiseServing s).isl c = if (s.cl c).svc.st = 1 ∧ s.up c = true then (s.isl c).raised else s.isl c := by
  have hvisit := isl_foldl State.rampFrame (fun k c x => x.afterEntry k c) rampFrame_raiseServing isl_raiseServing_same
    (fun s c _ h => isl_raiseServing_other s c h) List.nodup_range s c (l := List.range 26)
  rw [hvisit, if_pos (List.mem_range.2 hc)]
  have hright : (s.isl c).afterEntry s.rampFrame c = if (s.cl c).svc.st = 1 ∧ s.up c = true then
      (if s.power.extrait.phase = .on then (s.isl c).raised else s.isl c) else s.isl c := rfl
  rw [hright, if_pos hon]

/-- The pass of the exit over the clusters. -/
theorem isl_ownAll (s : State) {c : Nat} (hc : c < 26) : ((List.range 26).foldl State.ownSettings s).isl c = (s.isl c).own := by
  have hvisit := isl_foldl (fun _ => ()) (fun _ _ x => x.own) (fun _ _ => rfl) (fun s c => State.isl_modIsl_same s c Island.own)
    (fun s c k h => (State.isl_modIsl s c k Island.own).trans (if_neg h)) List.nodup_range s c (l := List.range 26)
  exact hvisit.trans (if_pos (List.mem_range.2 hc))

theorem extrait_own (x : Island) : x.own.extrait = false := by
  unfold Island.own
  split
  · rfl
  next h => simpa using h

theorem ycp_ownAll (s : State) (l : List Nat) : (l.foldl State.ownSettings s).ycp = s.ycp :=
  foldl_keeps State.ycp State.ownSettings (fun _ _ => rfl) l s

end Sys2Proof.Machine
end

section
/-! O49: lane, bank and queue service commands, and Extrait from entry to exit. -/

namespace Sys2Proof.Machine

open Sys2Proof.Claims

/-! ### The entry's end (R482) -/

/-- Extrait is on from now, with the rail at its Extrait supply. -/
def State.extraitOn (s : State) : State :=
  { s with power := { s.power with extrait := { s.power.extrait with phase := .on, start := s.time.elapsed }, railMv := 850 } }

theorem extraitEntered_of_entering {s : State} (hphase : s.power.extrait.phase = .entering)
    (hramps : PowerChange.extraitEntry ∉ s.power.waiting) :
    s.extraitEntered = (List.range 26).foldl State.raiseServing s.extraitOn :=
  if_pos ⟨hphase, by simpa using hramps⟩

theorem givesSome_extraitEntryDone {s : State} (hphase : s.power.extrait.phase = .entering)
    (hramps : PowerChange.extraitEntry ∉ s.power.waiting) :
    givesSome .extraitEntryDone s (fun u => u.power.extrait = { s.power.extrait with phase := .on, start := s.time.elapsed }
      ∧ u.power.railMv = 850
      ∧ ∀ c, c < 26 → u.isl c = if (s.cl c).svc.st = 1 ∧ s.up c = true then { s.isl c with extrait := true, vmeas := 850 } else s.isl c) := by
  have hisl : ∀ c, c < 26 → ((List.range 26).foldl State.raiseServing s.extraitOn).isl c =
      if (s.extraitOn.cl c).svc.st = 1 ∧ s.extraitOn.up c = true then (s.extraitOn.isl c).raised else s.extraitOn.isl c :=
    fun c hc => isl_raiseAll s.extraitOn rfl hc
  have hframe : ((List.range 26).foldl State.raiseServing s.extraitOn).rampFrame = s.extraitOn.rampFrame :=
    foldl_keeps State.rampFrame State.raiseServing rampFrame_raiseServing _ _
  refine ⟨_, congrArg answer (extraitEntered_of_entering hphase hramps), ?_⟩
  generalize (List.range 26).foldl State.raiseServing s.extraitOn = t at hisl hframe ⊢
  obtain ⟨-, hpower⟩ := Prod.mk.inj hframe
  obtain ⟨hextrait, hrail⟩ := Prod.mk.inj hpower
  exact ⟨hextrait, hrail, hisl⟩

/-! ### The exit and its end (R484) -/

theorem givesSome_extraitWindowExpire {s : State} (hphase : s.power.extrait.phase = .on) :
    givesSome .extraitWindowExpire s (fun u => u.power.extrait = { s.power.extrait with phase := .exiting 1, stop := s.time.elapsed }) := by
  refine ⟨_, congrArg answer (if_pos hphase), ?_⟩
  exact (congrArg Power.extrait (State.watch_power _)).trans (extrait_beginExit_of_on 1 hphase)

theorem stewardEvent_keeps (s : State) (e : StewardEvent) :
    (s.stewardEvent e).ycp.issuers = s.ycp.issuers ∧ (s.stewardEvent e).ycp.asyncs = s.ycp.asyncs := by
  unfold State.stewardEvent
  split
  · rw [State.event_ycp]
    exact ⟨rfl, rfl⟩
  · exact ⟨rfl, rfl⟩

/-- An operation's completion depends on the issuer slots and the operations under way alone. -/
theorem completed_congr {s t u w : State} {op : AsyncOp} {st : Nat} {res : List Byte} (h : completed t u op st res)
    (hissuers : t.ycp.issuers = s.ycp.issuers) (hasyncs : t.ycp.asyncs = s.ycp.asyncs) (hu : w.ycp = u.ycp) : completed s w op st res := by
  unfold completed State.issuer at h ⊢
  rwa [hu, ← hissuers, ← hasyncs]

/-- Extrait is off, with the rail at its own supply. -/
def State.railDown (s : State) : State := { s with power := { s.power with railMv := 750, extrait := {} } }

theorem isl_railDown (s : State) (c : Nat) : s.railDown.isl c = s.isl c := rfl

theorem ycp_railDown (s : State) : s.railDown.ycp = s.ycp := rfl

/-- The clusters and the rail are at their own supplies again, and Extrait is off. -/
def State.extraitOff (s : State) : State := ((List.range 26).foldl State.ownSettings s).railDown

theorem extraitLeft_of_exiting {s : State} {cause : Nat} (hphase : s.power.extrait.phase = .exiting cause)
    (hramps : PowerChange.extraitExit ∉ s.power.waiting) :
    s.extraitLeft = (s.extraitOff.stewardEvent (.extrait cause ((s.power.extrait.stop - s.power.extrait.start) / 1000000))).complete .extrait stDone
      ([BitVec.ofNat 8 cause, 0, 0, 0] ++ beBytes 4 ((s.power.extrait.stop - s.power.extrait.start) / 1000000)) := by
  unfold State.extraitLeft
  rw [hphase]
  exact if_neg (by simpa using hramps)

theorem isl_extraitOff (s : State) {c : Nat} (hc : c < 26) : s.extraitOff.isl c = (s.isl c).own := by
  rw [State.extraitOff, isl_railDown, isl_ownAll s hc]

theorem ycp_extraitOff (s : State) : s.extraitOff.ycp = s.ycp := by
  rw [State.extraitOff, ycp_railDown, ycp_ownAll]

theorem givesSome_extraitExitDone {s : State} {cause : Nat} (hphase : s.power.extrait.phase = .exiting cause)
    (hramps : PowerChange.extraitExit ∉ s.power.waiting) :
    givesSome .extraitExitDone s (fun u => u.power.extrait = {} ∧ u.power.railMv = 750 ∧ (∀ c, c < 26 → (u.isl c).extrait = false)
      ∧ completed s u .extrait 0 ([BitVec.ofNat 8 cause, 0, 0, 0] ++ beBytes 4 ((s.power.extrait.stop - s.power.extrait.start) / 1000000))) := by
  generalize hms : (s.power.extrait.stop - s.power.extrait.start) / 1000000 = ms
  have hleft := extraitLeft_of_exiting hphase hramps
  rw [hms] at hleft
  refine ⟨_, congrArg answer hleft, ?_⟩
  have hoff : s.extraitOff.power.extrait = {} ∧ s.extraitOff.power.railMv = 750 := ⟨rfl, rfl⟩
  have hisl : ∀ c, c < 26 → (s.extraitOff.isl c).extrait = false := fun c hc => by rw [isl_extraitOff s hc, extrait_own]
  have hycp := ycp_extraitOff s
  generalize s.extraitOff = t at hoff hisl hycp ⊢
  obtain ⟨hissuers, hasyncs⟩ := stewardEvent_keeps t (.extrait cause ms)
  have hpower := t.stewardEvent_power (.extrait cause ms)
  generalize t.stewardEvent (.extrait cause ms) = e at hissuers hasyncs hpower ⊢
  obtain ⟨hdone, hkept⟩ := completed_complete e .extrait 0 ([BitVec.ofNat 8 cause, 0, 0, 0] ++ beBytes 4 ms)
  have hsame := hkept.trans hpower
  refine ⟨?_, ?_, fun c hc => ?_,
    completed_congr hdone (hissuers.trans (congrArg _ hycp)) (hasyncs.trans (congrArg _ hycp)) (State.watch_ycp _)⟩
  · rw [State.watch_power, stDone, hsame, hoff.1]
  · rw [State.watch_power, stDone, hsame, hoff.2]
  · rw [State.isl_after_watch, stDone, isl_congr (congrArg Power.island hsame), hisl c hc]

/-! ### The commands -/

section
variable {s v : State} {x : Packet} {o : Origin}

theorem laneRecalFull_replies {st : Nat} {u : State} {q : State → Prop} (h : runs s x 0x0610 (some (1, 1)) (plen 4 [(2, 2)]) o v)
    (hrun : v.laneRecal (arg x (some (1, 1)) 0 1) 2 = .done st [] u) (hq : q u) :
    replies (.laneRecalFull x) s (toOf x 0x0610 o) st [] q := replies_of_done h rfl hrun hq

theorem laneRecalBackground_replies {st : Nat} {u : State} {q : State → Prop} (h : runs s x 0x0610 (some (1, 0)) (plen 4 [(2, 2)]) o v)
    (hrun : v.laneRecal (arg x (some (1, 0)) 0 1) 1 = .done st [] u) (hq : q u) :
    replies (.laneRecalBackground x) s (toOf x 0x0610 o) st [] q := replies_of_done h rfl hrun hq

end

/-- Settles O49: the commands end as their cases say; the entry and the exit of Extrait step each cluster by itself, and the exit's
completion ends the operation. -/
theorem laneBankQueueAndExtraitService : Obligations.LaneBankQueueAndExtraitService := by
  unfold Obligations.LaneBankQueueAndExtraitService
  refine ⟨fun s v x o => ⟨?_, ?_, ?_, ?_, ?_⟩, fun s => givesSome_extraitEntryDone, fun s => givesSome_extraitWindowExpire,
    fun s cause => givesSome_extraitExitDone⟩
  · intro full sel c l h hl hdone
    cases full
    case false =>
      refine ⟨fun hport => ?_, fun p hport => ⟨fun hbusy => ?_, fun hidle hrun hfew => ?_⟩⟩
      · exact laneRecalBackground_replies h (laneRecal_of_free 1 hl hdone hport) rfl
      · exact laneRecalBackground_replies h (laneRecal_of_busy 1 hl hdone hport hbusy) rfl
      · refine starts_of_start (c := .laneRecalBackground x) h rfl hfew (laneRecal_of_idle 1 hl hdone hport hidle hrun)
          ⟨fun _ => ⟨rfl, ?_⟩, fun hfull => ?_⟩
        · simp
        · exact absurd hfull (by decide)
    case true =>
      refine ⟨fun hport => ?_, fun p hport => ⟨fun hbusy => ?_, fun hidle hrun hfew => ?_⟩⟩
      · exact laneRecalFull_replies h (laneRecal_of_free 2 hl hdone hport) rfl
      · exact laneRecalFull_replies h (laneRecal_of_busy 2 hl hdone hport hbusy) rfl
      · refine starts_of_start (c := .laneRecalFull x) h rfl hfew (laneRecal_of_idle 2 hl hdone hport hidle hrun)
          ⟨fun hfull => ?_, fun _ => ⟨?_, ?_⟩⟩
        · exact absurd hfull (by decide)
        · rw [if_pos rfl, State.port_after_modLane, linkUp_portDown]
        · simp
  · intro h b hb hdone
    refine ⟨fun hused => ?_, fun hspare hreplacing hrun hfew => ?_⟩
    · exact replies_of_done h rfl (bankReplace_of_spareUsed hb hdone hused) rfl
    · exact starts_of_start h rfl hfew (bankReplace_of_spare hb hdone hspare hreplacing hrun) rfl
  · intro h q hq hdone hrun
    obtain ⟨-, ⟨e, he⟩, hother⟩ := flushQueue_eq v q 0x16
    exact replies_of_done h rfl (queueFlush_of_up hq hdone hrun) ⟨by rw [he]; rfl, by rw [he]; rfl, by rw [he]; rfl, hother⟩
  · intro h window ceiling hw hw' hc hc' hdone
    refine ⟨fun hphase => ?_, fun hphase hhot => ?_, fun hphase hcool hlife hfew => ?_⟩
    · exact replies_of_done h rfl (extraitEnter_of_busy hw hw' hc hc' hdone hphase) rfl
    · exact replies_of_done h rfl (extraitEnter_of_hot hw hw' hc hc' hdone hphase hhot) rfl
    · exact starts_of_start h rfl hfew (extraitEnter_of_cool hw hw' hc hc' hdone hphase hcool hlife) (governed_keeps _ (.inl rfl))
  · intro h
    refine ⟨fun hphase => ?_, fun hphase => ?_⟩
    · exact replies_of_done h rfl (if_pos (.inr hphase)) (extrait_beginExit_of_on 4 hphase)
    · exact replies_of_done h rfl (if_neg (by simp [hphase])) rfl

end Sys2Proof.Machine
end

section
/-! The ingress accounts (R37, R38): what their changes, and the pause they may send, leave as it was. -/

namespace Sys2Proof.Machine

open Sys2Proof.Claims

/-- The state but for its ports, what it has put out and what is counted: all that a pause sent may change. -/
def State.butFlow (s : State) : State := { s with ports := {}, out := [], obs := {} }

theorem State.butFlow_sendPause (s : State) (p c q : Nat) : (s.sendPause p c q).butFlow = s.butFlow := by
  unfold State.sendPause
  split_ifs <;> rfl

theorem State.butFlow_flowCheck (s : State) (p c : Nat) : (s.flowCheck p c).butFlow = s.butFlow := by
  unfold State.flowCheck
  dsimp only
  split_ifs
  · exact State.butFlow_sendPause _ _ _ _
  · exact State.butFlow_sendPause _ _ _ _
  · rfl

@[simp] theorem State.flowCheck_pools (s : State) (p c : Nat) : (s.flowCheck p c).pools = s.pools :=
  (congrArg State.pools (s.butFlow_flowCheck p c) :)

@[simp] theorem State.flowCheck_slices (s : State) (p c : Nat) : (s.flowCheck p c).slices = s.slices :=
  (congrArg State.slices (s.butFlow_flowCheck p c) :)

@[simp] theorem State.flowCheck_faults (s : State) (p c : Nat) : (s.flowCheck p c).faults = s.faults :=
  (congrArg State.faults (s.butFlow_flowCheck p c) :)

/-! ### Cells that enter an account -/

@[simp] theorem State.slc_after_addAccount (s : State) (p c n i : Nat) : (s.addAccount p c n).slc i = s.slc i := by
  simp [State.slc, State.addAccount]

@[simp] theorem State.desc_after_addAccount (s : State) (p c n d : Nat) : (s.addAccount p c n).desc d = s.desc d := by
  simp [State.desc, State.addAccount]

@[simp] theorem State.pool_after_addAccount (s : State) (p c n q : Nat) : (s.addAccount p c n).pool q = s.pool q := by
  simp [State.pool, State.addAccount]

@[simp] theorem State.cells_addAccount (s : State) (p c n : Nat) : (s.addAccount p c n).pools.cells = s.pools.cells := by
  simp [State.addAccount]

@[simp] theorem State.account_after_count (s : State) (u e n p c : Nat) : (s.count u e n).account p c = s.account p c := rfl
@[simp] theorem State.account_after_watch (s : State) (p c : Nat) : s.watch.account p c = s.account p c := rfl
@[simp] theorem State.account_after_modPool (s : State) (q : Nat) (f : Pool → Pool) (p c : Nat) : (s.modPool q f).account p c = s.account p c := rfl
@[simp] theorem State.account_after_modSlc (s : State) (i : Nat) (f : Slice → Slice) (p c : Nat) : (s.modSlc i f).account p c = s.account p c := rfl
@[simp] theorem State.account_after_modDesc (s : State) (d : Nat) (f : Desc → Desc) (p c : Nat) : (s.modDesc d f).account p c = s.account p c := rfl
@[simp] theorem State.account_after_cellWrite (s : State) (a : Nat) (l : List Byte) (p c : Nat) : (s.cellWrite a l).account p c = s.account p c := rfl

theorem State.account_addAccount_same (s : State) (p c n : Nat) : (s.addAccount p c n).account p c = s.account p c + n := by
  simp [State.account, State.addAccount]

/-! ### Packets that leave their account (R37, R197) -/

@[simp] theorem State.slc_after_unaccount (s : State) (d i : Nat) : (s.unaccount d).slc i = s.slc i := by
  simp [State.slc, State.unaccount, State.subAccount]

@[simp] theorem State.desc_after_unaccount (s : State) (d k : Nat) : (s.unaccount d).desc k = s.desc k := by
  simp [State.desc, State.unaccount, State.subAccount]

@[simp] theorem State.pool_after_unaccount (s : State) (d p : Nat) : (s.unaccount d).pool p = s.pool p := by
  simp [State.pool, State.unaccount, State.subAccount]

@[simp] theorem State.unaccount_faults (s : State) (d : Nat) : (s.unaccount d).faults = s.faults := by
  simp [State.unaccount, State.subAccount]

@[simp] theorem State.slc_after_freePacket (s : State) (d i : Nat) : (s.freePacket d).slc i = s.slc i :=
  (congrArg (State.slc · i) (s.butPools_freePacket d) :)

@[simp] theorem State.slc_after_dropPacket (s : State) (d i : Nat) : (s.dropPacket d).slc i = s.slc i := by
  simp [State.dropPacket]

@[simp] theorem State.dropPacket_faults (s : State) (d : Nat) : (s.dropPacket d).faults = s.faults := by
  simp [State.dropPacket]

/-- A packet dropped is freed. -/
theorem packetFreed_watch_dropPacket {s t : State} (d : Nat) (h : t.pools = s.pools) : packetFreed s (t.dropPacket d).watch d := by
  have hfreed : packetFreed (t.unaccount d) (t.dropPacket d).watch d := packetFreed_watch_freePacket d rfl
  have hdesc : t.desc d = s.desc d := by simp [State.desc, h]
  have hpool : t.pool 0 = s.pool 0 := by simp [State.pool, h]
  unfold packetFreed at hfreed ⊢
  rwa [State.desc_after_unaccount, State.pool_after_unaccount, hdesc, hpool] at hfreed

end Sys2Proof.Machine
end

section
/-! A marker at a slice, and the copy it keeps of the Accord before (R66, R67, R352). -/

namespace Sys2Proof.Machine

open Sys2Proof.Claims

theorem givesSome_markerAtSlice {s : State} {i tag : Nat} (hi : i < 4) (hm : s.arrive 26 (27 + i) = some (.marker tag)) :
    givesSome (.markerAtSlice i) s (fun u =>
      u.slc i = { s.slc i with oldTag := (s.slc i).tag, tag := some tag } ∧ (∀ k, k ≠ i → u.slc k = s.slc k)
        ∧ u.net = dropCrossing 26 (27 + i) s.net) := by
  have hexec : exec (.markerAtSlice i) s = .next (s.sliceMarker i).watch := congrArg answer (if_pos hi)
  refine ⟨_, hexec, ?_⟩
  rw [State.sliceMarker, hm]
  exact ⟨by simp, fun k hk => by simp [State.slc_modSlc, hk], rfl⟩

section
variable {s : State} {i tag : Nat} (hi : i < 4) (hup : s.up (27 + i) = true) (hold : (s.slc i).oldTag = some tag)
include hi hup hold

theorem exec_sliceCopyRelease_of_old :
    exec (.sliceCopyRelease i) s =
      .next (if (s.slc i).pipe.any (·.stamped tag) then s else s.modSlc i (fun q => { q with oldTag := none })).watch := by
  have hexec : exec (.sliceCopyRelease i) s = .next (s.sliceRelease i).watch := congrArg answer (if_pos (by simp [hi, hup]))
  rw [hexec, State.sliceRelease, hold]

/-- R67: the old copy stays while a frame carries its stamp. -/
theorem gives_sliceCopyRelease_keep (h : ∃ x ∈ (s.slc i).pipe, bits x.disp.metaw.toNat 63 60 = tag) :
    gives (.sliceCopyRelease i) s s := by
  have hany : (s.slc i).pipe.any (·.stamped tag) = true := by simpa [InFlight.stamped] using h
  rw [gives, exec_sliceCopyRelease_of_old hi hup hold, if_pos hany]

theorem givesSome_sliceCopyRelease_drop (h : ∀ x ∈ (s.slc i).pipe, bits x.disp.metaw.toNat 63 60 ≠ tag) :
    givesSome (.sliceCopyRelease i) s (fun u =>
      (u.slc i).oldTag = none ∧ (u.slc i).tag = (s.slc i).tag ∧ (u.slc i).pipe = (s.slc i).pipe) := by
  have hany : ¬ (s.slc i).pipe.any (·.stamped tag) = true := by simpa [InFlight.stamped] using h
  refine ⟨_, exec_sliceCopyRelease_of_old hi hup hold, ?_⟩
  rw [if_neg hany]
  simp

end

/-- Settles O24: a marker by its arrival, the old copy by the stamps of the frames in the pipe. -/
theorem markersChangeTheSlicesAccord : Obligations.MarkersChangeTheSlicesAccord := by
  unfold Obligations.MarkersChangeTheSlicesAccord
  exact ⟨fun s i tag hi hm => givesSome_markerAtSlice hi hm, fun s i tag hi hup hold =>
    ⟨gives_sliceCopyRelease_keep hi hup hold, givesSome_sliceCopyRelease_drop hi hup hold⟩⟩

end Sys2Proof.Machine
end

section
/-! The parse of a slice's oldest frame: its walk, its stamp and its hand-off place (R59 to R72, R74). -/

namespace Sys2Proof.Machine

open Sys2Proof.Claims

/-! ### The walk and the class depend on the Accords alone -/

@[simp] theorem State.sobj_after_modSlc (s : State) (i : Nat) (f : Slice → Slice) (tag c n : Nat) :
    (s.modSlc i f).sobj tag c n = s.sobj tag c n := rfl

theorem walkFrom_modSlc (s : State) (i : Nat) (f : Slice → Slice) (tag : Nat) (frame : List Byte) (n : Nat) :
    ∀ w : Walk, walkFrom (s.modSlc i f) tag frame n w = walkFrom s tag frame n w := by
  induction n with
  | zero => intro w; rfl
  | succ n ih =>
    intro w
    have hrest : walkFrom (s.modSlc i f) tag frame n = walkFrom s tag frame n := funext ih
    unfold walkFrom
    rw [hrest]
    rfl

@[simp] theorem parseWalk_modSlc (s : State) (i : Nat) (f : Slice → Slice) (tag : Nat) (frame : List Byte) :
    parseWalk (s.modSlc i f) tag frame = parseWalk s tag frame := walkFrom_modSlc s i f tag frame 32 {}

@[simp] theorem classify_modSlc (s : State) (i : Nat) (f : Slice → Slice) (tag k key : Nat) :
    classify (s.modSlc i f) tag k key = classify s tag k key := rfl

@[simp] theorem classKey_modSlc (s : State) (i : Nat) (f : Slice → Slice) (tag : Nat) (x : RxFrame) (w : Walk) :
    classKey (s.modSlc i f) tag x w = classKey s tag x w := rfl

/-! ### The state a walk ends in has eight bits (R59) -/

theorem bits_lt (v hi lo : Nat) : bits v hi lo < 2 ^ (hi + 1 - lo) := Nat.mod_lt _ (Nat.two_pow_pos _)

theorem fld_lt (w : ObjWord) (hi lo : Nat) : fld w hi lo < 2 ^ (hi + 1 - lo) := bits_lt _ _ _

theorem transition_lt (s : State) (tag : Nat) (e : ObjWord) (key : Nat) : (transition s tag e key).1 < 256 := by
  unfold transition
  dsimp only
  split
  · exact fld_lt _ 7 0
  · exact fld_lt _ 101 94

theorem Walk.state_extract (w : Walk) (frame : List Byte) (x : ObjWord) : (w.extract frame x).state = w.state := by
  unfold Walk.extract
  dsimp only
  split_ifs <;> rfl

theorem state_walkFrom_lt (s : State) (tag : Nat) (frame : List Byte) (n : Nat) :
    ∀ w : Walk, w.state < 256 → (walkFrom s tag frame n w).state < 256 := by
  induction n with
  | zero => intro w hw; exact hw
  | succ n ih =>
    intro w hw
    have hxs (l : List Nat) (v : Walk) : (l.foldl (fun v k => v.extract frame (s.sobj tag 0x0022 k)) v).state = v.state :=
      foldl_keeps Walk.state _ (fun v _ => v.state_extract _ _) l v
    unfold walkFrom
    extract_lets e seen marked xs drawn k ko
    have hdrawn : drawn.state < 256 := (hxs xs _).trans_lt hw
    clear_value drawn
    split
    · exact hw
    · split
      · exact hdrawn
      · split
        · have hnext := transition_lt s tag e (beVal (slice frame ko k))
          generalize transition s tag e (beVal (slice frame ko k)) = next at hnext ⊢
          obtain ⟨next, tried⟩ := next
          dsimp only
          split
          · exact ih _ hnext
          · exact hdrawn
        · exact hdrawn

theorem state_parseWalk_lt (s : State) (tag : Nat) (frame : List Byte) : (parseWalk s tag frame).state < 256 :=
  state_walkFrom_lt s tag frame 32 {} (by decide)

/-! ### The metadata word (R70) -/

/-- Each field of a metadata word reads as what was put in it. -/
theorem metadata_fields {tag dom prio role : Nat} {f : RxFrame} {w : Walk} (htag : tag < 16) (hdom : dom < 65536) (hprio : prio < 8)
    (hrole : role < 64) (hport : f.port < 64) (hstate : w.state < 256) (hlen : f.data.length < 16384) :
    let m := (metadata tag dom prio role f w).toNat
    bits m 63 60 = tag ∧ bits m 59 44 = dom ∧ bits m 43 41 = prio ∧ bits m 40 35 = role ∧ bits m 34 29 = f.port
      ∧ bits m 28 27 = f.verdict.toNat ∧ bits m 26 24 = f.tclass.toNat ∧ bits m 23 16 = w.state
      ∧ bits m 15 15 = b2n (w.err != .none) ∧ bits m 14 14 = b2n w.ptp ∧ bits m 13 0 = f.data.length := by
  have hverdict : f.verdict.toNat < 4 := f.verdict.isLt
  have hclass : f.tclass.toNat < 8 := f.tclass.isLt
  have hbit (b : Bool) : b2n b < 2 := by cases b <;> decide
  have herr := hbit (w.err != .none)
  have hptp := hbit w.ptp
  simp only [metadata, BitVec.toNat_ofNat, bits, Nat.shiftRight_eq_div_pow]
  generalize f.verdict.toNat = verdict, f.tclass.toNat = tclass, w.state = state, b2n (w.err != .none) = err, b2n w.ptp = ptp,
    f.data.length = len, f.port = port at *
  refine ⟨?_, ?_, ?_, ?_, ?_, ?_, ?_, ?_, ?_, ?_, ?_⟩ <;> omega

/-! ### One frame (R59 to R72) -/

/-- The state after a walk is counted, with its visits and its parse error. -/
def State.parseCounted (s : State) (i : Nat) (w : Walk) : State :=
  let t := s.count (src (27 + i) 0) 0x10
  let t := if 16 < w.visits then t.count (src (27 + i) 0) 0x11 else t
  match parseCounter w.err with
  | some e => t.count (src (27 + i) 0) e
  | none => t

/-- The state but for what is counted. -/
def State.butCounts (s : State) : State := { s with obs := {} }

@[simp] theorem State.butCounts_count (s : State) (u e n : Nat) : (s.count u e n).butCounts = s.butCounts := rfl

theorem State.butCounts_parseCounted (s : State) (i : Nat) (w : Walk) : (s.parseCounted i w).butCounts = s.butCounts := by
  unfold State.parseCounted
  dsimp only
  split <;> split <;> simp only [State.butCounts_count]

@[simp] theorem State.slc_after_parseCounted (s : State) (i : Nat) (w : Walk) (k : Nat) : (s.parseCounted i w).slc k = s.slc k :=
  (congrArg (State.slc · k) (s.butCounts_parseCounted i w) :)

@[simp] theorem State.sobj_after_parseCounted (s : State) (i : Nat) (w : Walk) (tag c n : Nat) :
    (s.parseCounted i w).sobj tag c n = s.sobj tag c n :=
  (congrArg (State.sobj · tag c n) (s.butCounts_parseCounted i w) :)

@[simp] theorem State.parseCounted_faults (s : State) (i : Nat) (w : Walk) : (s.parseCounted i w).faults = s.faults :=
  (congrArg State.faults (s.butCounts_parseCounted i w) :)

@[simp] theorem State.parseCounted_time (s : State) (i : Nat) (w : Walk) : (s.parseCounted i w).time = s.time :=
  (congrArg State.time (s.butCounts_parseCounted i w) :)

/-- The first uncorrectable word among those that the parse of a frame reads: those of its walk, the rules tried and the profile (R72). -/
def Slice.firstBad (q : Slice) (tag : Nat) (w : Walk) (c : Nat × Nat) : Option Nat :=
  (w.touched ++ (List.range c.2).map pgRule ++ [pgProfile c.1]).find? (fun r => q.badWords.contains (tag % 2 * 4096 + r))

theorem Slice.firstBad_of_sound {q : Slice} (h : q.badWords = []) (tag : Nat) (w : Walk) (c : Nat × Nat) : q.firstBad tag w c = none := by
  rw [Slice.firstBad, h]
  simp

/-- The flow hash of a frame under a profile's object (R64). -/
def State.frameHash (s : State) (tag : Nat) (e : ObjWord) (w : Walk) : W32 :=
  flowHash (fld (s.sobj tag 0x0025 0) 31 0) w.slots w.valid (fld e 31 0)

/-- The dispatch record of a frame that the profile's object `e` stamps (R63 to R66, R70). -/
def State.dispOf (s : State) (tag : Nat) (e : ObjWord) (f : RxFrame) (w : Walk) : Disp :=
  { ts := f.time, hash := s.frameHash tag e w, valid := BitVec.ofNat 32 w.valid, slots := w.slots
    metaw := metadata tag ((fld e 63 48 + (s.frameHash tag e w).toNat % 2 ^ fld e 47 43) % 65536)
      (if fld e 42 42 = 1 then f.tclass.toNat else fld e 41 39) (fld e 38 33) f w }

@[simp] theorem State.sobj_after_count (s : State) (u e n tag c k : Nat) : (s.count u e n).sobj tag c k = s.sobj tag c k := rfl

/-- Either a word that the parse reads is uncorrectable, or the profile discards the frame, or it takes its hand-off place. The
classification is abstracted as a function, since comparing pattern matches on `classify` itself runs its 256 rules. -/
theorem parseFrame_eq {s : State} {i tag : Nat} {f : RxFrame} {w : Walk} {c : Nat × Nat} (hw : parseWalk s tag f.data = w)
    (hc : classify s tag i (classKey s tag f w) = c) :
    s.parseFrame i tag f =
      ((s.slc i).firstBad tag w c).elim
        (if fld (s.sobj tag 0x0024 c.1) 32 32 = 1 then (s.parseCounted i w).count (src (27 + i) 0) (0x100 + c.1)
          else (s.parseCounted i w).modSlc i (fun q => { q with
            pipe := q.pipe ++ [{ frame := f, disp := s.dispOf tag (s.sobj tag 0x0024 c.1) f w }] }))
        (fun row => ((s.parseCounted i w).count (src (27 + i) 0) 0x1A).raise (src (27 + i) 0) 0x48
          { addr := row, master := 0x40C0 + i, access := 1 }) := by
  have hparse : @State.parseFrame = @State.parseFrame := rfl
  conv at hparse => rhs; delta State.parseFrame
  obtain ⟨classifyBy, hclassify⟩ : ∃ g, @classify = g := ⟨_, rfl⟩
  rw [hclassify] at hc hparse
  rw [hparse]
  unfold State.parseCounted State.dispOf State.frameHash Slice.firstBad
  simp only [hw, hc]
  cases parseCounter w.err <;> by_cases hv : 16 < w.visits <;>
    simp only [hv, if_true, if_false, State.slc_after_count, State.sobj_after_count] <;> split <;> simp only [*, Option.elim]

/-! ### The oldest frame of the input buffer (R59, R66, R68, R74) -/

section
variable {s : State} {i : Nat} {f : RxFrame} {rest : List RxFrame} (hi : i < 4) (hup : s.up (27 + i) = true)
  (hin : (s.slc i).input = f :: rest)
include hi hup

theorem exec_sliceParseStart : exec (.sliceParseStart i) s = .next (s.parseStart i).watch :=
  congrArg answer (if_pos (by simp [hi, hup]))

include hin

theorem givesSome_sliceParseStart_untagged (htag : (s.slc i).tag = none) :
    givesSome (.sliceParseStart i) s (fun u => u.slc i = { s.slc i with input := rest } ∧ ∀ k, k ≠ i → u.slc k = s.slc k) := by
  refine ⟨_, exec_sliceParseStart hi hup, ?_⟩
  rw [State.parseStart, hin, htag]
  exact ⟨by simp, fun k hk => by simp [State.slc_modSlc, hk]⟩

section
variable {tag : Nat} {w : Walk} {c : Nat × Nat} (htag : (s.slc i).tag = some tag) (hroom : (s.slc i).pipe.length < 256)
  (hw : parseWalk s tag f.data = w) (hc : classify s tag i (classKey s tag f w) = c)
include htag hroom hw hc

omit hi hup in
/-- A frame that leaves the input buffer for its parse: `parseFrame_eq` in terms of the state before. -/
theorem parseStart_of_tag :
    s.parseStart i =
      let t := (s.modSlc i (fun q => { q with input := rest })).parseCounted i w
      ((s.slc i).firstBad tag w c).elim
        (if fld (s.sobj tag 0x0024 c.1) 32 32 = 1 then t.count (src (27 + i) 0) (0x100 + c.1)
          else t.modSlc i (fun q => { q with
            pipe := q.pipe ++ [{ frame := f, disp := s.dispOf tag (s.sobj tag 0x0024 c.1) f w }] }))
        (fun row => (t.count (src (27 + i) 0) 0x1A).raise (src (27 + i) 0) 0x48 { addr := row, master := 0x40C0 + i, access := 1 }) := by
  have hw' := (parseWalk_modSlc s i (fun q => { q with input := rest }) tag f.data).trans hw
  have hc' : classify (s.modSlc i (fun q => { q with input := rest })) tag i
      (classKey (s.modSlc i (fun q => { q with input := rest })) tag f w) = c := by
    rw [classify_modSlc, classKey_modSlc, hc]
  have hparse := parseFrame_eq hw' hc'
  rw [State.slc_modSlc_same, State.sobj_after_modSlc] at hparse
  rw [State.parseStart, hin, htag]
  exact (if_pos hroom).trans hparse

/-- R72: a frame whose parse reads an uncorrectable word is discarded and reported. -/
theorem givesSome_sliceParseStart_bad {row : Nat} (hbad : (s.slc i).firstBad tag w c = some row) :
    givesSome (.sliceParseStart i) s (fun u => u.slc i = { s.slc i with input := rest } ∧ (∀ k, k ≠ i → u.slc k = s.slc k)
      ∧ reported s u (64 * (27 + i)) 0x48 { addr := row, master := 0x40C0 + i, access := 1 }) := by
  refine ⟨_, exec_sliceParseStart hi hup, ?_⟩
  rw [parseStart_of_tag hin htag hroom hw hc, hbad, src_eq]
  dsimp only [Option.elim]
  refine ⟨by simp, fun k hk => by simp [State.slc_modSlc, hk], reported_of_raised
    (t := ((s.modSlc i (fun q => { q with input := rest })).parseCounted i w).count (64 * (27 + i)) 0x1A) (by omega) ?_ ?_ ?_⟩ <;> simp

/-- A frame whose words are sound is discarded where its profile says so, or takes a hand-off place with its stamp and flow hash. -/
theorem givesSome_sliceParseStart_sound (htag' : tag < 16) (hport : f.port < 40) (hlen : f.data.length < 16384)
    (hsound : (s.slc i).badWords = []) :
    givesSome (.sliceParseStart i) s (fun u =>
      let e := s.sobj tag 0x0024 c.1
      let h := s.frameHash tag e w
      (∀ k, k ≠ i → u.slc k = s.slc k) ∧
      if fld e 32 32 = 1 then u.slc i = { s.slc i with input := rest }
      else ∃ x : InFlight, u.slc i = { s.slc i with input := rest, pipe := (s.slc i).pipe ++ [x] } ∧ x.frame = f ∧ x.cells = []
        ∧ x.desc = false ∧ x.waiting = false ∧ x.disp.ts = f.time ∧ x.disp.hash = h ∧ x.disp.slots = w.slots
        ∧ let m := x.disp.metaw.toNat
          bits m 63 60 = tag ∧ bits m 59 44 = (fld e 63 48 + h.toNat % 2 ^ fld e 47 43) % 65536
            ∧ bits m 43 41 = (if fld e 42 42 = 1 then f.tclass.toNat else fld e 41 39) ∧ bits m 40 35 = fld e 38 33
            ∧ bits m 34 29 = f.port ∧ bits m 28 27 = f.verdict.toNat ∧ bits m 26 24 = f.tclass.toNat ∧ bits m 23 16 = w.state
            ∧ bits m 15 15 = b2n (w.err != .none) ∧ bits m 14 14 = b2n w.ptp ∧ bits m 13 0 = f.data.length) := by
  refine ⟨_, exec_sliceParseStart hi hup, ?_⟩
  rw [parseStart_of_tag hin htag hroom hw hc, Slice.firstBad_of_sound hsound]
  dsimp only [Option.elim]
  generalize s.sobj tag 0x0024 c.1 = e
  split
  · exact ⟨fun k hk => by simp [State.slc_modSlc, hk], by simp⟩
  · have hprio : (if fld e 42 42 = 1 then f.tclass.toNat else fld e 41 39) < 8 := by
      split
      · exact f.tclass.isLt
      · exact fld_lt e 41 39
    refine ⟨fun k hk => by simp [State.slc_modSlc, hk], { frame := f, disp := s.dispOf tag e f w }, by simp, rfl, rfl, rfl, rfl, rfl, rfl,
      rfl, ?_⟩
    exact metadata_fields htag' (Nat.mod_lt _ (by decide)) hprio (fld_lt e 38 33) (by omega)
      (hw ▸ state_parseWalk_lt s tag f.data) hlen

end

end

theorem slicesStampTheFramesTheyParse : Claims.SlicesStampTheFramesTheyParse := by
  unfold Claims.SlicesStampTheFramesTheyParse
  intro s i f rest hi hup hin
  exact ⟨givesSome_sliceParseStart_untagged hi hup hin,
    fun tag row htag hroom hbad => givesSome_sliceParseStart_bad hi hup hin htag hroom rfl rfl hbad,
    fun tag htag htag' hport hlen hroom hsound =>
      givesSome_sliceParseStart_sound hi hup hin htag hroom rfl rfl htag' hport hlen hsound⟩

end Sys2Proof.Machine
end

section
/-! The descriptor and the cells of a slice's first frame that is not complete (R69, R71, R73, R290, R294). -/

namespace Sys2Proof.Machine

open Sys2Proof.Claims

/-! ### The first frame of a pipe that is not complete -/

section
variable {pre post : List InFlight} {x : InFlight} (hpre : ∀ y ∈ pre, y.complete = true) (hx : x.complete = false)
include hpre hx

theorem find_first_incomplete : (pre ++ x :: post).find? (fun y => !y.complete) = some x := by
  rw [List.find?_append, List.find?_eq_none.2 (by simpa using hpre), Option.none_or, List.find?_cons, hx]
  rfl

theorem updateFirst_append (g : InFlight → InFlight) : updateFirst g (pre ++ x :: post) = pre ++ g x :: post := by
  induction pre with
  | nil => simp [updateFirst, hx]
  | cons y t ih =>
    obtain ⟨hy, ht⟩ := List.forall_mem_cons.1 hpre
    simp [updateFirst, hy, ih ht]

theorem dropFirst_append : dropFirst (pre ++ x :: post) = pre ++ post := by
  induction pre with
  | nil => simp [dropFirst, hx]
  | cons y t ih =>
    obtain ⟨hy, ht⟩ := List.forall_mem_cons.1 hpre
    simp [dropFirst, hy, ih ht]

end

/-! ### A cell handed out, and its bytes (R71, R286, R290) -/

/-- The oldest cell of a pool 0 that none has left or damaged is handed out. -/
theorem takeEntry_zero_of_fresh {s : State} {k : Nat} (hgone : (s.pool 0).gone = []) (hnext : (s.pool 0).ring.next < (s.pool 0).ring.limit)
    (hcache : (s.pool 0).cached k ≠ 0) :
    s.takeEntry 0 k = some ((s.pool 0).ring.next, (s.modPool 0 (·.handOut k (s.pool 0).ring.past)).count (src 41 0) 0x10) := by
  have htake : (s.pool 0).ring.take = some ((s.pool 0).ring.next, (s.pool 0).ring.past) := if_pos hnext
  unfold State.takeEntry
  simp only [skip_of_gone_nil hgone, if_neg hcache, htake, if_true]
  rfl

/-- A frame's bytes for its cell `n` are written from the cell's first byte on. -/
theorem mget_cell_inside (m : Mem) (a : Nat) (l : List Byte) {n k : Nat} (hk : k < 256) (hl : n * 256 + k < l.length) :
    mget (mwrite m a ((l.drop (n * 256)).take 256)) (a + k) = l.getD (n * 256 + k) 0 := by
  have hlen : k < ((l.drop (n * 256)).take 256).length := by
    rw [List.length_take, List.length_drop]
    omega
  rw [mget_mwrite_inside _ _ _ _ hlen]
  simp [List.getElem?_drop, hk]

theorem mget_cell_outside (m : Mem) (l : List Byte) {a b : Nat} (n : Nat) (h : b < a ∨ a + 256 ≤ b) :
    mget (mwrite m a ((l.drop n).take 256)) b = mget m b := by
  refine mget_mwrite_outside _ _ _ _ ?_
  have hlen : ((l.drop n).take 256).length ≤ 256 := List.length_take_le _ _
  omega

@[simp] theorem State.slc_after_cellWrite (s : State) (a : Nat) (l : List Byte) (k : Nat) : (s.cellWrite a l).slc k = s.slc k := rfl

@[simp] theorem State.pool_after_modDesc (s : State) (d : Nat) (f : Desc → Desc) (p : Nat) : (s.modDesc d f).pool p = s.pool p := rfl

/-- What a cell taken changes: the frame's pipe, its descriptor, its account and the cell's bytes. -/
theorem takeCell_effects (s : State) (i c : Nat) (x : InFlight) :
    (s.takeCell i c x).slc i = { s.slc i with pipe := updateFirst (fun x => { x with cells := x.cells ++ [c], denied := false }) (s.slc i).pipe }
      ∧ (s.takeCell i c x).pool 0 = s.pool 0
      ∧ (s.takeCell i c x).desc (handleDesc x.disp.handle) =
          { s.desc (handleDesc x.disp.handle) with cells := (s.desc (handleDesc x.disp.handle)).cells ++ [c] }
      ∧ (s.takeCell i c x).account x.frame.port x.frame.tclass.toNat = s.account x.frame.port x.frame.tclass.toNat + 1
      ∧ (s.takeCell i c x).pools.cells = mwrite s.pools.cells (c * 256) ((x.frame.data.drop (x.cells.length * 256)).take 256) := by
  unfold State.takeCell
  dsimp only
  refine ⟨?_, ?_, ?_, ?_, ?_⟩
  · simp
  · simp
  · simp
  · simp [State.account_addAccount_same]
  · rw [State.cells_addAccount]
    rfl

/-! ### Requests of the first frame that is not complete (R73, R290) -/

section
variable {s : State} {i : Nat} {pre post : List InFlight} {x : InFlight} (hi : i < 4) (hup : s.up (27 + i) = true)
  (hpipe : (s.slc i).pipe = pre ++ x :: post) (hpre : ∀ y ∈ pre, y.complete = true) (hx : x.complete = false)
include hi hup

theorem exec_cellRequest : exec (.cellRequest i) s = .next (s.cellRequest i).watch :=
  congrArg answer (if_pos (by simp [hi, hup]))

theorem exec_cellWaitExpire : exec (.cellWaitExpire i) s = .next (s.cellExpire i).watch :=
  congrArg answer (if_pos (by simp [hi, hup]))

omit hi hup
include hpipe hpre hx

theorem find_pipe : (s.slc i).pipe.find? (fun y => !y.complete) = some x := by
  rw [hpipe, find_first_incomplete hpre hx]

/-- A request that the frame makes of a running I41. -/
theorem cellRequest_of_up (h41 : s.up 41 = true) :
    s.cellRequest i =
      if x.desc = false then s.freeDesc.elim (s.cellWaits i x false) (fun d => s.takeDesc i d x)
      else if s.cellGranted x.frame.port x.frame.tclass.toNat = true then
        (s.takeEntry 0 i).elim (s.cellWaits i x false) (fun e => e.2.takeCell i e.1 x)
      else s.cellWaits i x true := by
  rw [State.cellRequest, find_pipe hpipe hpre hx]
  cases hd : x.desc
  · simp only [h41, hd, Bool.not_true, Bool.not_false, Bool.false_eq_true, if_true, if_false]
    cases s.freeDesc <;> rfl
  · simp only [h41, hd, Bool.not_true, Bool.false_eq_true, Bool.true_eq_false, if_false]
    cases s.takeEntry 0 i <;> rfl

theorem cellRequest_of_down (h41 : s.up 41 = false) : s.cellRequest i = s.cellWaits i x false := by
  rw [State.cellRequest, find_pipe hpipe hpre hx]
  exact if_pos (by simp [h41])

/-- A refused request leaves the pools, and its frame waits. -/
theorem cellWaits_effects (denied : Bool) :
    ((s.cellWaits i x denied).slc i).pipe = pre ++ { x with waiting := true, denied := x.denied || denied } :: post
      ∧ (s.cellWaits i x denied).pools = s.pools := by
  unfold State.cellWaits State.allocFail
  dsimp only
  split <;> exact ⟨by simp [hpipe, updateFirst_append hpre hx], rfl⟩

include hi hup

theorem givesSome_cellRequest_descriptor {n : Nat} (h41 : s.up 41 = true) (hdesc : x.desc = false) (hfree : s.freeDesc = some n) :
    givesSome (.cellRequest i) s (fun u =>
      let h := BitVec.ofNat 32 (((s.desc n).gen + 1).toNat * 2 ^ 24 + n)
      u.desc n = { st := .held, gen := (s.desc n).gen + 1, metaw := x.disp.metaw, ts := x.disp.ts.truncate 32 }
        ∧ (∀ k, k ≠ n → u.desc k = s.desc k)
        ∧ (u.slc i).pipe = pre ++ { x with desc := true, disp := { x.disp with handle := h } } :: post) := by
  refine ⟨_, exec_cellRequest hi hup, ?_⟩
  rw [cellRequest_of_up hpipe hpre hx h41, if_pos hdesc, hfree]
  dsimp only [Option.elim, State.takeDesc]
  refine ⟨by simp, fun k hk => by simp [State.desc_modDesc, hk], ?_⟩
  simp [hpipe, updateFirst_append hpre hx, State.handleOf]

theorem givesSome_cellRequest_cell (h41 : s.up 41 = true) (hdesc : x.desc = true)
    (hgrant : s.cellGranted x.frame.port x.frame.tclass.toNat = true) (hcache : (s.pool 0).cached i ≠ 0) (hlost : (s.pool 0).lost = [])
    (hstuck : (s.pool 0).stuck = []) (hnext : (s.pool 0).ring.next < (s.pool 0).ring.limit) :
    givesSome (.cellRequest i) s (fun u =>
      let d := handleDesc x.disp.handle
      let c := (s.pool 0).ring.next
      let n := x.cells.length
      (u.slc i).pipe = pre ++ { x with cells := x.cells ++ [c], denied := false } :: post ∧ (u.pool 0).ring.next = c + 1
        ∧ (u.desc d).cells = (s.desc d).cells ++ [c]
        ∧ u.account x.frame.port x.frame.tclass.toNat = s.account x.frame.port x.frame.tclass.toNat + 1
        ∧ (∀ k, k < 256 → n * 256 + k < x.frame.data.length → mget u.pools.cells (c * 256 + k) = x.frame.data.getD (n * 256 + k) 0)
        ∧ ∀ a, a < c * 256 ∨ c * 256 + 256 ≤ a → mget u.pools.cells a = mget s.pools.cells a) := by
  have htake := takeEntry_zero_of_fresh (k := i) (by simp [Pool.gone, hlost, hstuck]) hnext hcache
  refine ⟨_, exec_cellRequest hi hup, ?_⟩
  rw [cellRequest_of_up hpipe hpre hx h41, if_neg (by simp [hdesc]), if_pos hgrant, htake]
  dsimp only [Option.elim]
  obtain ⟨hslc, hpool, hcells, haccount, hbytes⟩ := takeCell_effects
    ((s.modPool 0 (·.handOut i (s.pool 0).ring.past)).count (src 41 0) 0x10) i (s.pool 0).ring.next x
  obtain ⟨hring, -⟩ := (s.pool 0).handOut_keeps i (s.pool 0).ring.past
  refine ⟨?_, ?_, ?_, ?_, fun k hk hlen => ?_, fun a ha => ?_⟩
  · rw [State.slc_after_watch, hslc]
    simp [hpipe, updateFirst_append hpre hx]
  · rw [State.pool_after_watch, hpool, State.pool_after_count, State.pool_modPool_same, hring]
    rfl
  · simp [hcells]
  · simp [haccount]
  · rw [State.watch_pools, hbytes, mget_cell_inside _ _ _ hk hlen]
  · rw [State.watch_pools, hbytes]
    exact mget_cell_outside _ _ _ ha

theorem givesSome_cellRequest_wait
    (h : s.up 41 = false ∨ x.desc = false ∧ s.freeDesc = none ∨ x.desc = true ∧ s.cellGranted x.frame.port x.frame.tclass.toNat = false) :
    givesSome (.cellRequest i) s (fun u =>
      (u.slc i).pipe = pre ++ { x with waiting := true, denied := x.denied || (s.up 41 && x.desc) } :: post ∧ u.pools = s.pools) := by
  have hwait : s.cellRequest i = s.cellWaits i x (s.up 41 && x.desc) := by
    cases h41 : s.up 41
    · exact cellRequest_of_down hpipe hpre hx h41
    · rw [cellRequest_of_up hpipe hpre hx h41]
      obtain h | ⟨hdesc, hfree⟩ | ⟨hdesc, hdenied⟩ := h
      · exact absurd (h.symm.trans h41) (by decide)
      · rw [if_pos hdesc, hfree, hdesc]
        rfl
      · rw [if_neg (by simp [hdesc]), if_neg (by simp [hdenied]), hdesc]
        rfl
  refine ⟨_, exec_cellRequest hi hup, ?_⟩
  rw [hwait]
  exact cellWaits_effects hpipe hpre hx _

/-! ### The end of a wait (R73) -/

theorem givesSome_cellWaitExpire_stored (hwait : x.waiting = true) (hdesc : x.desc = true) :
    givesSome (.cellWaitExpire i) s (fun u => (u.slc i).pipe = pre ++ post ∧ packetFreed s u (handleDesc x.disp.handle)
      ∧ reported s u (64 * (27 + i)) 0x49 { master := 0x40C0 + i }) := by
  have hexpire : s.cellExpire i = State.dropPacket (((s.modSlc i (fun q => { q with pipe := dropFirst q.pipe })).count (64 * (27 + i)) 0x17).raise
      (64 * (27 + i)) 0x49 { master := 0x40C0 + i }) (handleDesc x.disp.handle) := by
    rw [State.cellExpire, find_pipe hpipe hpre hx]
    simp [hwait, hdesc, src_eq]
  refine ⟨_, exec_cellWaitExpire hi hup, ?_⟩
  rw [hexpire]
  refine ⟨by simp [hpipe, dropFirst_append hpre hx], packetFreed_watch_dropPacket _ (by simp), reported_of_raised
    (t := (s.modSlc i (fun q => { q with pipe := dropFirst q.pipe })).count (64 * (27 + i)) 0x17) (by omega) (by simp) (by simp) (by simp)⟩

theorem givesSome_cellWaitExpire_bare (hwait : x.waiting = true) (hdesc : x.desc = false) :
    givesSome (.cellWaitExpire i) s (fun u => (u.slc i).pipe = pre ++ post ∧ u.pools = s.pools
      ∧ reported s u (64 * (27 + i)) 0x4A { master := 0x40C0 + i }) := by
  have hexpire : s.cellExpire i = ((s.modSlc i (fun q => { q with pipe := dropFirst q.pipe })).count (64 * (27 + i)) 0x18).raise
      (64 * (27 + i)) 0x4A { master := 0x40C0 + i } := by
    rw [State.cellExpire, find_pipe hpipe hpre hx]
    simp [hwait, hdesc, src_eq]
  refine ⟨_, exec_cellWaitExpire hi hup, ?_⟩
  rw [hexpire]
  exact ⟨by simp [hpipe, dropFirst_append hpre hx], by simp, reported_of_raised
    (t := (s.modSlc i (fun q => { q with pipe := dropFirst q.pipe })).count (64 * (27 + i)) 0x18) (by omega) (by simp) (by simp) (by simp)⟩

end

theorem framesTakeDescriptorsAndCells : Claims.FramesTakeDescriptorsAndCells := by
  unfold Claims.FramesTakeDescriptorsAndCells
  intro s i pre post x hi hup hpipe hpre hx
  exact ⟨fun n => givesSome_cellRequest_descriptor hi hup hpipe hpre hx, givesSome_cellRequest_cell hi hup hpipe hpre hx,
    givesSome_cellRequest_wait hi hup hpipe hpre hx, givesSome_cellWaitExpire_stored hi hup hpipe hpre hx,
    givesSome_cellWaitExpire_bare hi hup hpipe hpre hx⟩

/-- Settles O27: the parse and its stamp by `parseStart_of_tag`, the descriptor and the cells by the first frame that is not complete. -/
theorem slicesStampAndPlaceFrames : Obligations.SlicesStampAndPlaceFrames :=
  ⟨slicesStampTheFramesTheyParse, framesTakeDescriptorsAndCells⟩

end Sys2Proof.Machine
end

section
/-! The records of the Sequencer: what is listed of them, and what a trace record and the grants to waiting threads leave of them (R79, R83,
R84, R463). -/

namespace Sys2Proof.Machine

open Sys2Proof.Claims

/-! ### What is listed -/

/-- An entry under another key than the one written is listed after the write as before. -/
theorem Store.mem_set_of_ne {α : Type} [DecidableEq α] (d : α) (m : Store α) (n : Nat) (v : α) {e : Nat × α} (h : e.1 ≠ n) :
    e ∈ Store.set d m n v ↔ e ∈ m := by
  have herase : e ∈ Store.erase m n ↔ e ∈ m := by simp [Store.erase, h]
  have hinsert : ∀ l : Store α, e ∈ Store.insert n v l ↔ e ∈ l := by
    intro l
    induction l with
    | nil => simp only [Store.insert, List.mem_singleton, List.not_mem_nil, iff_false]; rintro rfl; exact h rfl
    | cons x t ih =>
      have hx : e ≠ (n, v) := by rintro rfl; exact h rfl
      unfold Store.insert
      split <;> simp [hx, ih]
  unfold Store.set
  split
  · exact herase
  · exact (hinsert _).trans herase

/-- The entry under the key written holds what was written. -/
theorem Store.eq_of_mem_set_same {α : Type} [DecidableEq α] {d : α} {m : Store α} {n : Nat} {v w : α} (h : (n, w) ∈ Store.set d m n v) :
    w = v := by
  have herase : (n, w) ∉ Store.erase m n := fun he => Store.erase_key_ne m n _ he rfl
  unfold Store.set at h
  split at h
  · exact absurd h herase
  · rcases Store.mem_insert h with h | h
    · exact congrArg Prod.snd h
    · exact absurd h herase

/-- A store that lists no key twice reads as it is listed. -/
theorem Store.get_of_mem {α : Type} {d : α} {m : Store α} {k : Nat} {v : α} (honce : (m.map (·.1)).Nodup) (h : (k, v) ∈ m) :
    Store.get d m k = v := by
  induction m with
  | nil => simp at h
  | cons e t ih =>
    obtain ⟨j, w⟩ := e
    obtain ⟨hj, ht⟩ := List.nodup_cons.1 honce
    rcases List.mem_cons.1 h with h | h
    · cases h; simp [Store.get_cons]
    · have hne : j ≠ k := fun he => hj (he ▸ List.mem_map_of_mem (f := (·.1)) h)
      rw [Store.get_cons, if_neg hne, ih ht h]

theorem rcd_of_mem {s : State} {k : Nat} {x : Rec} (honce : eachOnce s) (h : (k, x) ∈ s.seq.recs) : s.rcd k = x :=
  Store.get_of_mem honce h

/-- The earlier records of a record's domain are the same ones after a change of the record that leaves it its place. -/
theorem mem_earlier_modRec {s : State} {r : Nat} {f : Rec → Rec} (honce : eachOnce s) (hplaced : (f (s.rcd r)).placed = (s.rcd r).placed)
    (hdom : (f (s.rcd r)).domain = (s.rcd r).domain) (horder : (f (s.rcd r)).order = (s.rcd r).order) (e : Nat × Rec) :
    e ∈ (s.modRec r f).earlier r ↔ e ∈ s.earlier r := by
  unfold State.earlier
  simp only [State.rcd_modRec_same, hplaced, hdom, horder]
  cases (s.rcd r).placed
  · simp
  · simp only [Bool.not_true, Bool.false_eq_true, if_false, List.mem_filter]
    by_cases he : e.1 = r
    · obtain ⟨k, x⟩ := e
      obtain rfl : k = r := he
      have hold : (k, x) ∈ s.seq.recs → ¬ x.order < (s.rcd k).order := by
        intro h; rw [rcd_of_mem honce h]; exact lt_irrefl _
      have hnew : (k, x) ∈ (s.modRec k f).seq.recs → ¬ x.order < (s.rcd k).order := by
        intro h; rw [Store.eq_of_mem_set_same h]; exact horder.not_lt
      constructor
      · rintro ⟨hm, hp⟩; simp [hnew hm] at hp
      · rintro ⟨hm, hp⟩; simp [hold hm] at hp
    · exact and_congr_left fun _ => Store.mem_set_of_ne _ _ _ _ he

/-- Whether a record may pass a point does not rest on what it waits at. -/
theorem mayPass_modRec_waitPt {s : State} {r : Nat} (honce : eachOnce s) (k : Nat) (w : Option Nat) :
    (s.modRec r (fun x => { x with waitPt := w })).mayPass r k = s.mayPass r k := by
  have hall : ((s.modRec r (fun x => { x with waitPt := w })).earlier r).all (fun e => e.2.released.getLsbD k)
      = (s.earlier r).all (fun e => e.2.released.getLsbD k) := by
    rw [Bool.eq_iff_iff, List.all_eq_true, List.all_eq_true]
    exact forall_congr' fun e => imp_congr_left (mem_earlier_modRec honce rfl rfl rfl e)
  unfold State.mayPass
  rw [hall, State.rcd_modRec_same]

/-! ### Trace records (R463) -/

/-- The state with a trace record written to DRAM and counted. -/
def State.traceWritten (s : State) (t : Trace) (a : Nat) (l : List Byte) : State :=
  let u := (s.dramIssue true [a / 64] 2 0x4107).dramWrite a l
  State.count { u with obs := { u.obs with trace := some { t with written := t.written + 1 } } } (src 52 1) 0x10

/-- A trace record is not asked for, is lost and counted, or is written. -/
theorem State.trace_cases (s : State) (k i m g r d p w : Nat) :
    s.trace k i m g r d p w = s ∨ s.trace k i m g r d p w = s.count (src 52 1) 0x11
      ∨ ∃ t a l, s.trace k i m g r d p w = s.traceWritten t a l := by
  unfold State.trace
  split
  · exact .inl rfl
  next t _ =>
    refine iteInduction (motive := fun u => u = s ∨ u = s.count (src 52 1) 0x11 ∨ ∃ t a l, u = s.traceWritten t a l)
      (fun _ => ?_) (fun _ => .inl rfl)
    exact iteInduction (motive := fun u => u = s ∨ u = s.count (src 52 1) 0x11 ∨ ∃ t a l, u = s.traceWritten t a l)
      (fun _ => .inr (.inl rfl)) (fun _ => .inr (.inr ⟨t, _, _, rfl⟩))

@[simp] theorem State.trace_seq (s : State) (k i m g r d p w : Nat) : (s.trace k i m g r d p w).seq = s.seq := by
  obtain h | h | ⟨t, a, l, h⟩ := s.trace_cases k i m g r d p w <;> simp [h, State.traceWritten]

@[simp] theorem State.trace_net (s : State) (k i m g r d p w : Nat) : (s.trace k i m g r d p w).net = s.net := by
  obtain h | h | ⟨t, a, l, h⟩ := s.trace_cases k i m g r d p w <;> simp [h, State.traceWritten]

@[simp] theorem State.traceRec_seq (s : State) (k i r p w : Nat) : (s.traceRec k i r p w).seq = s.seq := State.trace_seq ..

@[simp] theorem State.traceRec_net (s : State) (k i r p w : Nat) : (s.traceRec k i r p w).net = s.net := State.trace_net ..

@[simp] theorem State.rcd_after_traceRec (s : State) (k i r p w q : Nat) : (s.traceRec k i r p w).rcd q = s.rcd q := by simp [State.rcd]

/-! ### Grants (R83) -/

theorem State.tryGrant_of_no_wait {s : State} {r : Nat} (h : (s.rcd r).waitPt = none) : s.tryGrant r = s := by
  rw [State.tryGrant, h]

/-- The records after the look at one that waits: it alone has changed, and passes the point if it runs and may. -/
theorem rcd_tryGrant (s : State) (r q : Nat) {k : Nat} (hw : (s.rcd r).waitPt = some k) :
    (s.tryGrant r).rcd q =
      if q = r ∧ (s.rcd r).st = .running ∧ s.mayPass r k = true then { s.rcd r with waitPt := none, passed := (s.rcd r).passed ||| (1 <<< k) }
      else s.rcd q := by
  rw [State.tryGrant, hw]
  dsimp only
  split_ifs with hpass hq hq
  · simp [hq.1]
  · have hne : q ≠ r := fun h => hq ⟨h, hpass⟩
    simp [State.rcd_modRec, hne]
  · exact absurd hq.2 hpass
  · rfl

/-- A look at a waiting record leaves the state and the released points of every record. -/
theorem standing_tryGrant (s : State) (r q : Nat) :
    ((s.tryGrant r).rcd q).released = (s.rcd q).released ∧ ((s.tryGrant r).rcd q).st = (s.rcd q).st := by
  cases hw : (s.rcd r).waitPt with
  | none => simp [State.tryGrant_of_no_wait hw]
  | some k =>
    rw [rcd_tryGrant s r q hw]
    split_ifs with hq
    · simp [hq.1]
    · simp

theorem standing_grantWaiters (s : State) (d : BitVec 16) (q : Nat) :
    ((s.grantWaiters d).rcd q).released = (s.rcd q).released ∧ ((s.grantWaiters d).rcd q).st = (s.rcd q).st :=
  ⟨foldl_keeps (fun s : State => (s.rcd q).released) (fun s (e : Nat × Rec) => s.tryGrant e.1) (fun s e => (standing_tryGrant s e.1 q).1) _ s,
    foldl_keeps (fun s : State => (s.rcd q).st) (fun s (e : Nat × Rec) => s.tryGrant e.1) (fun s e => (standing_tryGrant s e.1 q).2) _ s⟩

/-- A record that waits at no point stays as it is while the waiting ones are looked at. -/
theorem rcd_grantWaiters_of_no_wait {s : State} (d : BitVec 16) {r : Nat} (h : (s.rcd r).waitPt = none) :
    (s.grantWaiters d).rcd r = s.rcd r := by
  refine List.foldlRecOn (motive := fun u : State => u.rcd r = s.rcd r) _ _ rfl fun u hu e _ => ?_
  cases hw : (u.rcd e.1).waitPt with
  | none => rw [State.tryGrant_of_no_wait hw, hu]
  | some k =>
    have hne : r ≠ e.1 := by
      intro he
      rw [← he, hu, h] at hw
      cases hw
    rw [rcd_tryGrant u e.1 r hw, if_neg (fun hc => hne hc.1), hu]

end Sys2Proof.Machine
end

section
/-! Tokens from threads (R82 to R84, R90, R97). -/

namespace Sys2Proof.Machine

open Sys2Proof.Claims

/-! ### A token and its record (R82) -/

/-- A record whose word is not damaged is not held under R530. -/
theorem State.eccRecord_of_sound {s : State} {r : Nat} (h : r ∉ s.seq.badRec) : s.eccRecord r = s :=
  if_pos (by simp [h])

/-- A token of the record's present life applies once its crossing is taken. -/
theorem token_of_runsLife {s : State} {r : Nat} {g : BitVec 8} (a : Nat) (f held : State → State) (h : runsLife s r g) :
    s.token a r g f held = f (s.taken a 26) := by
  obtain ⟨hgen, hrun, hsound, -⟩ := h
  have hecc : (s.taken a 26).eccRecord r = s.taken a 26 := State.eccRecord_of_sound hsound
  unfold State.token
  rw [hecc]
  exact if_pos (by simp [State.current, hgen, hrun])

/-- A token of another life than the record's is counted, and does nothing else. -/
theorem token_of_stale {s : State} {r : Nat} {g : BitVec 8} (a : Nat) (f held : State → State) (hgen : (s.rcd r).gen ≠ g)
    (hsound : r ∉ s.seq.badRec) : s.token a r g f held = (s.taken a 26).count (src 26 0) 0x16 := by
  have hecc : (s.taken a 26).eccRecord r = s.taken a 26 := State.eccRecord_of_sound hsound
  unfold State.token
  rw [hecc]
  exact (if_neg (by simp [State.current, hgen])).trans (if_neg (by simp [hgen]))

theorem otherRecords_modRec (s : State) (r : Nat) (f : Rec → Rec) : otherRecords s (s.modRec r f) r := fun k hk => by
  rw [State.rcd_modRec, if_neg hk]

theorem count_of_count_same (s : State) (u e : Nat) :
    (Store.get {} (s.count u e).obs.counter (counterKey u e)).count = (Store.get {} s.obs.counter (counterKey u e)).count + 1 := by
  simp [State.count, Counter.add]

/-! ### Tokens of the record's life (R83, R84, R90, R97) -/

section
variable {s : State} {c t r : Nat} {g : BitVec 8} (hc : c < 26) (hlife : runsLife s r g)
include hc hlife

/-- R83: the point is passed and granted where the record may pass it, and waited at where it may not. -/
theorem givesSome_ordRequest {k : Nat} (hm : s.arrive c 26 = some (.ordReq t r g k)) :
    givesSome (.ordRequest c) s (fun u => otherRecords s u r ∧
      if s.mayPass r k = true then
        u.rcd r = { s.rcd r with waitPt := none, passed := (s.rcd r).passed ||| (1 <<< k) }
          ∧ u.net = dropCrossing c 26 s.net ++ [⟨26, (s.rcd r).thread.toNat / 128, .ordGrant (s.rcd r).thread.toNat r g k⟩]
      else u.rcd r = { s.rcd r with waitPt := some k } ∧ u.net = dropCrossing c 26 s.net) := by
  have hexec : exec (.ordRequest c) s = .next (s.ordRequestToken c).watch := congrArg answer (if_pos hc)
  refine ⟨_, hexec, ?_⟩
  rw [State.ordRequestToken, hm]
  dsimp only
  rw [token_of_runsLife c _ _ hlife]
  obtain ⟨hgen, hrun, -, honce⟩ := hlife
  have hmay : ((s.taken c 26).modRec r (fun x => { x with waitPt := some k })).mayPass r k = s.mayPass r k :=
    mayPass_modRec_waitPt (s := s.taken c 26) honce k (some k)
  unfold State.ordAsk State.tryGrant
  simp only [State.rcd_modRec_same, hmay, State.rcd_after_taken, hrun, true_and]
  split
  · refine ⟨fun q hq => by simp [State.rcd_modRec, hq], by simp [hrun], ?_⟩
    simp [State.send, State.taken, hgen]
  · exact ⟨fun q hq => by simp [State.rcd_modRec, hq], by simp [hrun], rfl⟩

/-- R84: the point and every lower one are released; nobody else's are. -/
theorem givesSome_relToken {k : Nat} {pc : BitVec 16} (hm : s.arrive c 26 = some (.rel t r g k pc)) (hw : (s.rcd r).waitPt = none) :
    givesSome (.relToken c) s (fun u =>
      u.rcd r = { s.rcd r with released := (s.rcd r).released ||| upTo k }
        ∧ ∀ q, q ≠ r → (u.rcd q).released = (s.rcd q).released ∧ (u.rcd q).st = (s.rcd q).st) := by
  have hexec : exec (.relToken c) s = .next (s.relTokenArrive c).watch := congrArg answer (if_pos hc)
  refine ⟨_, hexec, ?_⟩
  rw [State.relTokenArrive, hm]
  dsimp only
  rw [token_of_runsLife c _ _ hlife, State.releaseTo, State.rcd_after_watch]
  refine ⟨?_, fun q hq => ?_⟩
  · rw [rcd_grantWaiters_of_no_wait _ (by simp [hw])]
    simp [upTo]
  · rw [State.rcd_after_watch]
    obtain ⟨hrel, hst⟩ := standing_grantWaiters
      (((s.taken c 26).traceRec 3 k r pc.toNat 0).modRec r (fun x => { x with released := x.released ||| BitVec.ofNat 4 (2 ^ (k + 1) - 1) }))
      (((((s.taken c 26).traceRec 3 k r pc.toNat 0).modRec r
        (fun x => { x with released := x.released ||| BitVec.ofNat 4 (2 ^ (k + 1) - 1) })).rcd r).domain) q
    rw [hrel, hst, State.rcd_modRec, if_neg hq]
    simp

/-- R90: SAFE clears, and the acknowledgement goes back. -/
theorem givesSome_effectToken (hm : s.arrive c 26 = some (.effect t r g)) :
    givesSome (.effectToken c) s (fun u => u.rcd r = { s.rcd r with safe := false } ∧ otherRecords s u r
      ∧ u.net = dropCrossing c 26 s.net ++ [⟨26, c, .effectAck t r g⟩]) := by
  have hexec : exec (.effectToken c) s = .next (s.effectTokenArrive c).watch := congrArg answer (if_pos hc)
  refine ⟨_, hexec, ?_⟩
  rw [State.effectTokenArrive, hm]
  dsimp only
  rw [token_of_runsLife c _ _ hlife]
  exact ⟨by simp, otherRecords_modRec s r _, rfl⟩

/-- R97: the record is marked. -/
theorem givesSome_poisonToken (hm : s.arrive c 26 = some (.poison t r g)) :
    givesSome (.poisonToken c) s (fun u => u.rcd r = { s.rcd r with poison := true } ∧ otherRecords s u r
      ∧ u.net = dropCrossing c 26 s.net) := by
  have hexec : exec (.poisonToken c) s = .next (s.poisonTokenArrive c).watch := congrArg answer (if_pos hc)
  refine ⟨_, hexec, ?_⟩
  rw [State.poisonTokenArrive, hm]
  dsimp only
  rw [token_of_runsLife c _ _ hlife]
  exact ⟨by simp, otherRecords_modRec s r _, rfl⟩

end

/-! ### Tokens of another life (R82) -/

/-- What is asked of a stale token, of the state in which its crossing is taken and the token counted. -/
theorem stale_counted {s : State} {i : Instr} {c : Nat} (h : exec i s = .next ((s.taken c 26).count (src 26 0) 0x16).watch) :
    givesSome i s (fun u => u.seq = s.seq ∧ u.net = dropCrossing c 26 s.net ∧ u.pools = s.pools
      ∧ (Store.get {} u.obs.counter (counterKey (26 * 64) 0x16)).count = (Store.get {} s.obs.counter (counterKey (26 * 64) 0x16)).count + 1) :=
  ⟨_, h, rfl, rfl, rfl, count_of_count_same (s.taken c 26) (26 * 64) 0x16⟩

theorem staleTokensChangeNoRecord : Claims.StaleTokensChangeNoRecord := by
  unfold Claims.StaleTokensChangeNoRecord
  intro s c t r k g pc op w f hc hgen hsound m hmem harrive
  have hstale := fun f held => token_of_stale (s := s) c f held hgen hsound
  refine stale_counted ?_
  simp only [List.mem_cons, List.not_mem_nil, or_false] at hmem
  obtain rfl | rfl | rfl | rfl | rfl | rfl := hmem <;> refine (congrArg answer (if_pos hc)).trans ?_
  · rw [State.ordRequestToken, harrive]; exact congrArg answer (hstale _ _)
  · rw [State.relTokenArrive, harrive]; exact congrArg answer (hstale _ _)
  · rw [State.effectTokenArrive, harrive]; exact congrArg answer (hstale _ _)
  · rw [State.poisonTokenArrive, harrive]; exact congrArg answer (hstale _ _)
  · rw [State.commitArrive, harrive]; exact congrArg answer (hstale _ _)
  · rw [State.faultTokenArrive, harrive]; exact congrArg answer (hstale _ _)

/-- Settles O19: a token of the record's life by its own rule above, one of another life by `token_of_stale`. -/
theorem tokensChangeOnlyTheirRecord : Obligations.TokensChangeOnlyTheirRecord :=
  ⟨⟨fun _ _ _ _ _ _ hc _ hm hlife => givesSome_ordRequest hc hlife hm, fun _ _ _ _ _ _ _ hc _ hm hlife hw => givesSome_relToken hc hlife hm hw,
    fun _ _ _ _ _ hc hm hlife => givesSome_effectToken hc hlife hm, fun _ _ _ _ _ hc hm hlife => givesSome_poisonToken hc hlife hm⟩,
    staleTokensChangeNoRecord⟩

end Sys2Proof.Machine
end

section
/-! A trace whose line Decant has moved to a channel that the device has not: what is reported then in the outbox of I26 (R330, R340, R366,
R463). -/

namespace Sys2Proof.Machine

open Sys2Proof.Claims

/-- A trace of commits and of resolutions stands at device address 0, and a bit of that line has turned. A Decant of channel 0 holds the line on
channel 47, which no device has: its corrected symbols are reported as of island 43 + 47, and SOURCE, of twelve bits, then
names island 26. -/
def tracedAway : State :=
  { State.reset with
    power := { State.reset.power with island := [26, 43, 90].map (fun i => (i, { islandReset i with st := .run })) }
    dram := { n := 1, segs := 1, chan := [(0, { st := .service }), (47, { st := .service, ce := [(0, 64)] })], flips := [(0, 1)]
              decant := some { channel := 0, hold := true, phase := .held, chunks := [(0, 47, 0)] } }
    obs := { trace := some { filter := 3 <<< 27, base := 0, size := 1 } } }

/-- A report from I26, of a state whose outbox is empty, stands there alone. -/
theorem length_of_reported {s u : State} {kind : Nat} {i : FaultInfo} (h : reported s u (64 * 26) kind i)
    (hempty : (outboxOf s 26).msgs = []) : (outboxOf u 26).msgs.length = 1 := by
  have hroom : (outboxOf s (64 * 26 / 64)).msgs.length < 16 := by
    rw [show (64 * 26) / 64 = 26 from rfl, hempty]
    decide
  have hbox : outboxOf u (64 * 26 / 64) = _ := h.trans (if_pos hroom)
  rw [show (64 * 26) / 64 = 26 from rfl] at hbox
  rw [hbox, hempty]
  rfl

/-- Record 0 of `tracedAway` is HELD past its limit. -/
def heldAway : State := { tracedAway with seq := { recs := [(0, { st := .held, placed := true, struck := true, hold := 1 })] } }

/-- The corrected symbols of the trace record are reported behind the record. -/
theorem length_outbox_heldAway : (outboxOf (heldAway.holdExpire 0).watch 26).msgs.length = 2 := by decide +kernel

/-- Refutes O16: the clause of HOLD_EXPIRED asks, of every state, that the report of the record is the newest of I26's outbox. In `heldAway` the
trace record of the resolution reads a line of which a symbol is corrected, and that channel's own report lands in the same outbox behind it:
no hypothesis of the clause keeps Decant within the device's eight channels. -/
theorem not_faultedRecordsFollowTheirPolicy : ¬ Obligations.FaultedRecordsFollowTheirPolicy := by
  unfold Obligations.FaultedRecordsFollowTheirPolicy
  rintro ⟨-, h, -⟩
  obtain ⟨u, hgives, -, -, hreported⟩ := h heldAway 0 (by decide) (by decide) rfl rfl rfl rfl (by decide)
  have hexec : exec (.holdExpired 0) heldAway = .next (heldAway.holdExpire 0).watch := congrArg answer (if_pos (by decide))
  obtain rfl : (heldAway.holdExpire 0).watch = u := Host.Outcome.next.inj (hexec.symm.trans hgives)
  exact absurd (length_of_reported hreported rfl) (by rw [length_outbox_heldAway]; decide)

/-- A commit of record 0 of `tracedAway`, which runs and is poisoned, has arrived. -/
def committedAway : State :=
  { tracedAway with seq := { recs := [(0, { st := .running, poison := true })] }, net := [⟨0, 26, .commit 0 0 0 0 0 0⟩] }

/-- The corrected symbols of the trace record are reported before the record. -/
theorem length_outbox_committedAway : (outboxOf (committedAway.commitArrive 0).watch 26).msgs.length = 2 := by decide +kernel

/-- Refutes O20: the clause of a poisoned record's commit asks, of every state, that the report of the record is all that I26's outbox gains.
In `committedAway` the trace record of the commit reads a line of which a symbol is corrected, and that channel's own report lands in the same
outbox: no hypothesis of the clause keeps Decant within the device's eight channels. -/
theorem not_grantsAndCommitsEndTheirWaits : ¬ Obligations.GrantsAndCommitsEndTheirWaits := by
  unfold Obligations.GrantsAndCommitsEndTheirWaits Claims.CommitsHoldAndHandOverOutcomes
  rintro ⟨-, h, -⟩
  have hlife : runsLife committedAway 0 0 := by unfold runsLife eachOnce; decide
  obtain ⟨-, -, -, hpoisoned⟩ := h committedAway 0 0 0 0 0 0 0 (by decide) (by decide) hlife rfl
  obtain ⟨u, hgives, -, -, hreported⟩ := hpoisoned rfl rfl
  have hexec : exec (.commitAccept 0) committedAway = .next (committedAway.commitArrive 0).watch := congrArg answer (if_pos (by decide))
  obtain rfl : (committedAway.commitArrive 0).watch = u := Host.Outcome.next.inj (hexec.symm.trans hgives)
  exact absurd (length_of_reported hreported rfl) (by rw [length_outbox_committedAway]; decide)

end Sys2Proof.Machine
end

section
/-! Descriptors and tasks that the Sequencer accepts into a record, and those it sends back (R79 to R81, R94, R276 to R278, R356). -/

namespace Sys2Proof.Machine

open Sys2Proof.Claims

@[simp] theorem State.flowCheck_seq (s : State) (p c : Nat) : (s.flowCheck p c).seq = s.seq :=
  (congrArg State.seq (s.butFlow_flowCheck p c) :)

@[simp] theorem State.unaccount_seq (s : State) (d : Nat) : (s.unaccount d).seq = s.seq := by simp [State.unaccount, State.subAccount]

@[simp] theorem State.freePacket_seq (s : State) (d : Nat) : (s.freePacket d).seq = s.seq :=
  (congrArg State.seq (s.butPools_freePacket d) :)

@[simp] theorem State.dropPacket_seq (s : State) (d : Nat) : (s.dropPacket d).seq = s.seq := by simp [State.dropPacket]

/-- A new record is QUEUED and SAFE in its next life, at the next place of the order of acceptance; the others stay. -/
theorem rcd_newRec (s : State) (r k : Nat) (x : Rec) :
    (s.newRec r x).rcd k =
      if k = r then { x with st := .queued, gen := (s.rcd r).gen + 1, safe := true, order := s.seq.nextOrder } else s.rcd k :=
  State.rcd_modRec s r k (fun o => { x with st := .queued, gen := o.gen + 1, safe := true, order := s.seq.nextOrder })

@[simp] theorem State.newRec_slc (s : State) (r k : Nat) (x : Rec) : (s.newRec r x).slc k = s.slc k := rfl

@[simp] theorem State.newRec_nextOrder (s : State) (r : Nat) (x : Rec) : (s.newRec r x).seq.nextOrder = s.seq.nextOrder + 1 := rfl

/-! ### Descriptors (R79, R80, R94, R356) -/

/-- The slice's oldest frame has left its pipe, and what is left is `rest`. -/
def State.offered (s : State) (i : Nat) (rest : List InFlight) : State :=
  (s.modSlc i (fun q => { q with pipe := rest })).count (src (27 + i) 0) 0x1B

@[simp] theorem State.offered_pools (s : State) (i : Nat) (rest : List InFlight) : (s.offered i rest).pools = s.pools := rfl
@[simp] theorem State.offered_seq (s : State) (i : Nat) (rest : List InFlight) : (s.offered i rest).seq = s.seq := rfl
@[simp] theorem State.offered_faults (s : State) (i : Nat) (rest : List InFlight) : (s.offered i rest).faults = s.faults := rfl
@[simp] theorem State.offered_time (s : State) (i : Nat) (rest : List InFlight) : (s.offered i rest).time = s.time := rfl
@[simp] theorem State.offered_rcd (s : State) (i : Nat) (rest : List InFlight) (r : Nat) : (s.offered i rest).rcd r = s.rcd r := rfl

theorem State.slc_offered (s : State) (i k : Nat) (rest : List InFlight) :
    (s.offered i rest).slc k = if k = i then { s.slc i with pipe := rest } else s.slc k :=
  State.slc_modSlc s i k (fun q => { q with pipe := rest })

section
variable {s : State} {i : Nat} {f : InFlight} {rest : List InFlight} (hi : i < 4) (h26 : s.up 26 = true) (hup : s.up (27 + i) = true)
  (hpipe : (s.slc i).pipe = f :: rest) (hcomplete : f.complete = true)
include hi h26 hup

theorem exec_descriptorAccept : exec (.descriptorAccept i) s = .next (s.acceptDescriptor i).watch :=
  congrArg answer (if_pos (by simp [hi, h26, hup]))

/-- What is asked of a descriptor refused with the fault `kind` of `source`. -/
theorem givesSome_descriptorAccept_refused {source kind ev : Nat} (hsource : source < 4096)
    (heq : s.acceptDescriptor i = State.dropPacket (((s.offered i rest).count (src 26 0) ev).raise source kind { master := 0x40C0 + i })
      (handleDesc f.disp.handle)) :
    givesSome (.descriptorAccept i) s (fun u =>
      packetFreed s u (handleDesc f.disp.handle) ∧ u.seq = s.seq ∧ (u.slc i).pipe = rest
        ∧ reported s u source kind { master := 0x40C0 + i }) := by
  refine ⟨_, exec_descriptorAccept hi h26 hup, ?_⟩
  rw [heq]
  exact ⟨packetFreed_watch_dropPacket _ (by simp), by simp, by simp [State.slc_offered],
    reported_of_raised (t := (s.offered i rest).count (src 26 0) ev) hsource (by simp) (by simp) (by simp)⟩

include hpipe hcomplete

omit hi h26 hup in
/-- The ways a complete descriptor can go. -/
theorem acceptDescriptor_eq :
    s.acceptDescriptor i =
      let tag := bits f.disp.metaw.toNat 63 60
      let dom := bits f.disp.metaw.toNat 59 44
      if s.tagLive tag = false then
        State.dropPacket (((s.offered i rest).count (src 26 0) 0x17).raise (src (27 + i) 0) 0x4C { master := 0x40C0 + i })
          (handleDesc f.disp.handle)
      else if domLimit (s.domClass tag dom) ≤ s.domainCount dom then
        State.dropPacket (((s.offered i rest).count (src 26 0) 0x15).raise (src 26 0) 0x55 { master := 0x40C0 + i })
          (handleDesc f.disp.handle)
      else s.recFree.elim s (fun r =>
        if s.packetRecords < 8192 - s.param 0 then ((s.offered i rest).newRec r (packetRec f.disp)).count (src 26 0) 0x10 else s) := by
  rw [State.acceptDescriptor, hpipe]
  refine (if_neg (by simp [hcomplete])).trans ?_
  dsimp only
  cases s.tagLive (bits f.disp.metaw.toNat 63 60)
  · rfl
  · cases s.recFree <;> rfl

theorem givesSome_descriptorAccept_record {r : Nat} (htag : s.tagLive (bits f.disp.metaw.toNat 63 60) = true)
    (hroom : s.domainCount (bits f.disp.metaw.toNat 59 44)
      < domLimit (s.domClass (bits f.disp.metaw.toNat 63 60) (bits f.disp.metaw.toNat 59 44)))
    (hfree : s.recFree = some r) (hrecs : s.packetRecords < 8192 - s.param 0) :
    givesSome (.descriptorAccept i) s (fun u =>
      u.rcd r = { packetRec f.disp with st := .queued, gen := (s.rcd r).gen + 1, safe := true, order := s.seq.nextOrder }
        ∧ otherRecords s u r ∧ u.seq.nextOrder = s.seq.nextOrder + 1 ∧ (u.slc i).pipe = rest ∧ (∀ j, j ≠ i → u.slc j = s.slc j)) := by
  refine ⟨_, exec_descriptorAccept hi h26 hup, ?_⟩
  rw [acceptDescriptor_eq hpipe hcomplete]
  simp only [htag, Bool.true_eq_false, if_false, if_neg (Nat.not_le.2 hroom), hfree, Option.elim, if_pos hrecs]
  exact ⟨by simp [rcd_newRec], fun k hk => by simp [rcd_newRec, hk], by simp, by simp [State.slc_offered],
    fun j hj => by simp [State.slc_offered, hj]⟩

/-- R79: where no record is free for it, the descriptor stays where it is. -/
theorem gives_descriptorAccept_stays (htag : s.tagLive (bits f.disp.metaw.toNat 63 60) = true)
    (hroom : s.domainCount (bits f.disp.metaw.toNat 59 44)
      < domLimit (s.domClass (bits f.disp.metaw.toNat 63 60) (bits f.disp.metaw.toNat 59 44)))
    (hfull : s.recFree = none ∨ 8192 - s.param 0 ≤ s.packetRecords) : gives (.descriptorAccept i) s s := by
  have hstays : s.acceptDescriptor i = s := by
    rw [acceptDescriptor_eq hpipe hcomplete]
    simp only [htag, Bool.true_eq_false, if_false, if_neg (Nat.not_le.2 hroom)]
    obtain hnone | hrecs := hfull
    · rw [hnone]; rfl
    · cases s.recFree with
      | none => rfl
      | some r => exact if_neg (Nat.not_lt.2 hrecs)
  exact (exec_descriptorAccept hi h26 hup).trans (by rw [hstays])

theorem givesSome_descriptorAccept_stale (htag : s.tagLive (bits f.disp.metaw.toNat 63 60) = false) :
    givesSome (.descriptorAccept i) s (fun u =>
      packetFreed s u (handleDesc f.disp.handle) ∧ u.seq = s.seq ∧ (u.slc i).pipe = rest
        ∧ reported s u (64 * (27 + i)) 0x4C { master := 0x40C0 + i }) := by
  refine givesSome_descriptorAccept_refused hi h26 hup (ev := 0x17) (by omega) ?_
  rw [acceptDescriptor_eq hpipe hcomplete, show src (27 + i) 0 = 64 * (27 + i) from src_eq (27 + i) 0]
  exact if_pos htag

theorem givesSome_descriptorAccept_full (htag : s.tagLive (bits f.disp.metaw.toNat 63 60) = true)
    (hfull : domLimit (s.domClass (bits f.disp.metaw.toNat 63 60) (bits f.disp.metaw.toNat 59 44))
      ≤ s.domainCount (bits f.disp.metaw.toNat 59 44)) :
    givesSome (.descriptorAccept i) s (fun u =>
      packetFreed s u (handleDesc f.disp.handle) ∧ u.seq = s.seq ∧ (u.slc i).pipe = rest
        ∧ reported s u (64 * 26) 0x55 { master := 0x40C0 + i }) := by
  refine givesSome_descriptorAccept_refused hi h26 hup (ev := 0x15) (by decide) ?_
  rw [acceptDescriptor_eq hpipe hcomplete]
  exact (if_neg (by simp [htag])).trans (if_pos hfull)

end

theorem descriptorsBecomeRecordsOrAreRefused : Claims.DescriptorsBecomeRecordsOrAreRefused := by
  unfold Claims.DescriptorsBecomeRecordsOrAreRefused
  intro s i f rest hi h26 hup hpipe hcomplete
  exact ⟨fun _ => givesSome_descriptorAccept_record hi h26 hup hpipe hcomplete, gives_descriptorAccept_stays hi h26 hup hpipe hcomplete,
    givesSome_descriptorAccept_stale hi h26 hup hpipe hcomplete, givesSome_descriptorAccept_full hi h26 hup hpipe hcomplete⟩

/-! ### Tasks (R79, R276 to R278) -/

/-- The record of a task, of the Accord `tag` that stamps it. -/
def taskRec (x : Task) (n tag : Nat) : Rec :=
  { domain := x.domain, accord := BitVec.ofNat 4 tag, placed := x.domained, prio := x.prio, role := x.role.toNat
    task := true, disp := { metaw := taskWord x n tag }, taskId := BitVec.ofNat 32 (x.gen.toNat * 2 ^ 24 + n) }

/-- The ways an offered task can go. -/
theorem acceptTask_eq {s : State} {n tag : Nat} (hm : s.arrive 42 26 = some (.task n tag)) :
    s.acceptTask =
      if s.tagLive tag = false then (s.taken 42 26).send 26 42 (.taskBack n false)
      else if s.taskFits (s.tsk n) tag = false then (s.taken 42 26).send 26 42 (.taskBack n true)
      else s.recFree.elim s (fun r => ((s.taken 42 26).newRec r (taskRec (s.tsk n) n tag)).count (src 26 0) 0x11) := by
  rw [State.acceptTask, hm]
  dsimp only
  cases s.tagLive tag
  · rfl
  · cases s.taskFits (s.tsk n) tag
    · rfl
    · cases s.recFree <;> rfl

theorem tasksBecomeRecordsOrGoBack : Claims.TasksBecomeRecordsOrGoBack := by
  unfold Claims.TasksBecomeRecordsOrGoBack
  intro s n tag hm
  have hexec : exec .taskAccept s = .next s.acceptTask.watch := rfl
  have heq := acceptTask_eq hm
  refine ⟨fun r htag hfits hfree => ⟨_, hexec, ?_⟩, fun htag hfits hfree => ?_, fun htag => ⟨_, hexec, ?_⟩, fun htag hfits => ⟨_, hexec, ?_⟩⟩
  · rw [heq, if_neg (by simp [htag]), if_neg (by simp [hfits]), hfree, Option.elim]
    have hrec : (((s.taken 42 26).newRec r (taskRec (s.tsk n) n tag)).count (src 26 0) 0x11).watch.rcd r = _ := rcd_newRec _ r r _
    dsimp only
    rw [hrec, if_pos rfl]
    exact ⟨rfl, rfl, rfl, rfl, rfl, rfl, rfl, rfl, rfl, rfl, rfl, rfl, fun k hk => by simp [rcd_newRec, hk], rfl⟩
  · rw [gives, hexec, heq, if_neg (by simp [htag]), if_neg (by simp [hfits]), hfree, Option.elim]
  · rw [heq, if_pos htag]
    exact ⟨rfl, rfl⟩
  · rw [heq, if_neg (by simp [htag]), if_pos hfits]
    exact ⟨rfl, rfl⟩

/-- Settles O17: a complete descriptor goes one of the ways of `acceptDescriptor_eq`, an offered task one of those of `acceptTask_eq`. -/
theorem descriptorsAndTasksBecomeRecords : Obligations.DescriptorsAndTasksBecomeRecords :=
  ⟨descriptorsBecomeRecordsOrAreRefused, tasksBecomeRecordsOrGoBack⟩

end Sys2Proof.Machine
end

section
/-! The issue of one syllable that is ready: what it leaves of the thread, the other threads and the clusters (R114, R115, R144). -/

namespace Sys2Proof.Machine

open Sys2Proof.Claims

/-! ### A ready syllable -/

section
variable {s : State} {y : Syl} {cls op : Nat}

/-- A ready syllable is issued: it begins its wait, or takes effect. -/
theorem syllable_of_ready (h : Ready s y cls op) : s.syllable y cls op = s.startBundle (tidOf y) [sylRaw y cls op] := by
  obtain ⟨hok, hstop, hbundle, hissue, hbreak, hbank, hdecode, hready, hfault, -⟩ := h
  have hchosen := s.chooseBundles_single (tidOf y / 128) ⟨tidOf y, (s.th (tidOf y)).prio.toNat, [sylRaw y cls op]⟩
  unfold State.syllable
  unfold tidOf sylRaw at *
  simp only [hbundle, List.nil_append, hok, hstop]
  simp only at hchosen
  simp [State.tryIssue, hissue, hbreak, hbank, hdecode, hready, hfault, List.findSome?, hchosen]

/-- A syllable that executes takes effect as its bundle's only one. -/
theorem syllable_of_executes (h : Executes s y cls op) : s.syllable y cls op = s.runBundle (tidOf y) [sylRaw y cls op] := by
  obtain ⟨⟨hok, hstop, hbundle, hissue, hbreak, hbank, hdecode, hready, hfault, heffect⟩, hwait⟩ := h
  exact State.syllable_runs hok hstop hbundle hissue hbreak hbank hdecode hready hfault heffect hwait

/-- The thread of a ready syllable is at work, waits for nothing and holds no syllable. -/
theorem thread_of_ready (h : Ready s y cls op) :
    (s.th (tidOf y)).busy = true ∧ (s.th (tidOf y)).wait = .none ∧ (s.th (tidOf y)).bundle = [] := by
  obtain ⟨-, -, hbundle, hissue, -⟩ := h
  simp only [State.mayIssue, Bool.and_eq_true, beq_iff_eq] at hissue
  obtain ⟨⟨⟨⟨⟨⟨⟨-, hbusy⟩, hwait⟩, -⟩, -⟩, -⟩, -⟩, -⟩ := hissue
  exact ⟨hbusy, hwait, hbundle⟩

end

/-! ### The effect of one syllable -/

theorem clustersSame_of_still {s u : State} (h : ∀ c, (u.cl c).still = (s.cl c).still) : clustersSame s u := h

/-- A change of the issue pointers leaves the rest of every cluster. -/
theorem State.still_modRr (s : State) (c k : Nat) (f : Store Nat → Store Nat) :
    ((s.modCl c (fun x => { x with rrIssue := f x.rrIssue })).cl k).still = (s.cl k).still := by
  rw [State.cl_modCl]
  split
  · subst k; rfl
  · rfl

@[simp] theorem State.still_watch (s : State) (k : Nat) : (s.watch.cl k).still = (s.cl k).still := rfl

section
variable {s w : State} {t : Nat}

/-- The thread as its only syllable takes effect holds no syllable; its branches count the bundle. -/
theorem th_runReady_of_ready (n : Nat) (hbusy : (s.th t).busy = true) (hwait : (s.th t).wait = .none) (hbundle : (s.th t).bundle = []) :
    ∃ b, (s.runReady t n).th t = { s.th t with branches := b, waitSyls := [], bpPass := false } :=
  ⟨((s.countBundle t n).th t).branches, by rw [State.th_runReady s t n hbusy]; simp only [hwait, hbundle]⟩

/-- Past a syllable whose effect has left the thread `x` and every other thread as it was. -/
theorem past_of_effect {x : Thread} {b : List Branch} (hth : w.th t = { x with branches := b, waitSyls := [], bpPass := false })
    (hothers : othersSame s w t) : past s (w.modTh t (fun z => { z with pc := addrAfter (s.th t).pc 1 })).watch t x := by
  refine ⟨?_, fun k hk => ?_⟩
  · rw [State.th_after_watch, State.th_modTh_same, hth]
    rfl
  · rw [State.th_after_watch, State.th_modTh, if_neg hk, hothers k hk]

theorem clustersSame_of_effect (hstill : ∀ c, (w.cl c).still = (s.cl c).still) (f : Thread → Thread) :
    clustersSame s (w.modTh t f).watch :=
  clustersSame_of_still fun c => by rw [State.still_watch, State.still_modTh, hstill]

/-- Where the effect gives the rest of the device as `v` has it, so does the bundle. -/
theorem eq_of_effect {v : State} (h : w.outer = v.outer) (f : Thread → Thread) :
    (w.modTh t f).watch = { v with clusters := (w.modTh t f).watch.clusters, obs := (w.modTh t f).watch.obs } :=
  State.eq_of_outer (by rw [State.outer_watch, State.outer_modTh, h])

end

/-- The rest of the device after a message sent. -/
theorem State.outer_send (s : State) (a b : Nat) (m : Msg) : (s.send a b m).outer = s.outer.send a b m := rfl

/-- An operation that begins under a branch is noted with the branch. -/
theorem Thread.begin'_eq (x : Thread) (id : Nat) : Thread.begin' x id = { x with branches := (Thread.begin' x id).branches } := by
  unfold Thread.begin'
  split <;> rfl

end Sys2Proof.Machine
end

section
/-! Ordered points and COMMIT, and lock and atomic instructions, as a thread executes them (R83, R89, R91, R185, R191 to R193, R198, R201). -/

namespace Sys2Proof.Machine

open Sys2Proof.Claims

/-! ### The end of a thread's work (R113, R131, R193, R200) -/

@[simp] theorem State.th_unblock (s : State) (c u k : Nat) : (s.modCl c (·.unblock u)).th k = s.th k := s.th_modCl c k _ rfl

@[simp] theorem State.th_cancelHelpers (s : State) (c u k : Nat) : (s.modCl c (·.cancelHelpers u)).th k = s.th k := s.th_modCl c k _ rfl

@[simp] theorem State.leaveWait_net (s : State) (t : Nat) : (s.leaveWait t).net = s.net := by
  unfold State.leaveWait
  split <;> rfl

@[simp] theorem State.th_leaveWait (s : State) (t k : Nat) : (s.leaveWait t).th k = s.th k := by
  unfold State.leaveWait
  split
  · exact s.th_modCl _ k _ rfl
  · rfl

theorem State.mem_net_send {s : State} {m : Crossing} (a b : Nat) (q : Msg) (h : m ∈ s.net) : m ∈ (s.send a b q).net :=
  List.mem_append_left _ h

@[simp] theorem State.masterReset_clusters (s : State) (t : Nat) (whole : Bool) : (s.masterReset t whole).clusters = s.clusters :=
  foldl_keeps State.clusters (fun (s : State) b => s.send (t / 128) (37 + b / 8) (.masterReset t whole b)) (fun _ _ => rfl) _ s

@[simp] theorem State.th_freeLocks (s : State) (t k : Nat) : (s.freeLocks t).th k = s.th k := by
  unfold State.freeLocks
  split <;> simp [State.th, State.cl]

/-- Messages on their way stay so while the locks of a thread are freed. -/
theorem State.mem_net_freeLocks {s : State} {m : Crossing} (t : Nat) (h : m ∈ s.net) : m ∈ (s.freeLocks t).net := by
  unfold State.freeLocks
  split
  · exact List.foldlRecOn (motive := fun u : State => m ∈ u.net) _ _ h fun u hu b _ => State.mem_net_send _ _ _ hu
  · exact h

@[simp] theorem State.dropStaged_net (s : State) (t : Nat) (q : Bool) : (s.dropStaged t q).net = s.net := by
  unfold State.dropStaged
  dsimp only
  split <;> simp

theorem State.th_dropStaged_other (s : State) {t k : Nat} (q : Bool) (hk : k ≠ t) : (s.dropStaged t q).th k = s.th k := by
  unfold State.dropStaged
  dsimp only
  split <;> simp [State.th_modTh, hk]

section
variable {s : State} {t : Nat} (q : Bool) (hbusy : (s.th t).busy = true)
include hbusy

theorem State.busy_endWork : ((s.endWork t q).th t).busy = false := by
  simp [State.endWork, hbusy]

theorem State.mem_net_endWork {m : Crossing} (h : m ∈ s.net) : m ∈ (s.endWork t q).net := by
  simp only [State.endWork, hbusy, if_true, State.count_net, State.modTh_net, State.modCl_net, State.dropStaged_net]
  exact State.mem_net_freeLocks t (by simpa using h)

theorem State.th_endWork_other {k : Nat} (hk : k ≠ t) : (s.endWork t q).th k = s.th k := by
  simp [State.endWork, hbusy, State.th_modTh, hk, State.th_dropStaged_other]

end

/-! ### Ordered points (R83, R89, R191, R192) -/

theorem runBundle_ord (s : State) (t : Nat) (y : Syl) :
    s.runBundle t [sylRaw y 3 0x18] =
      State.modTh (((s.runReady t (slotsOf [sylRaw y 3 0x18])).modTh t
          (fun x => { x with passed := x.passed ||| (1 <<< (sylRaw y 3 0x18).f 1 0) })).notePassed t ((sylRaw y 3 0x18).f 1 0)) t
        (fun x => { x with pc := addrAfter (s.th t).pc 1 }) :=
  s.runBundle_single t _ rfl

theorem runBundle_rel (s : State) (t : Nat) (y : Syl) :
    s.runBundle t [sylRaw y 3 0x19] =
      State.modTh (State.send ((s.runReady t (slotsOf [sylRaw y 3 0x19])).modTh t
          (fun x => { x with released := x.released ||| BitVec.ofNat 4 (2 ^ ((sylRaw y 3 0x19).f 1 0 + 1) - 1) })) (t / 128) 26
          (.rel t ((s.runReady t (slotsOf [sylRaw y 3 0x19])).th t).record ((s.runReady t (slotsOf [sylRaw y 3 0x19])).th t).gen
            ((sylRaw y 3 0x19).f 1 0) ((s.runReady t (slotsOf [sylRaw y 3 0x19])).th t).pc)) t
        (fun x => { x with pc := addrAfter (s.th t).pc 1 }) :=
  s.runBundle_single t _ rfl

theorem runBundle_commit (s : State) (t : Nat) (y : Syl) :
    s.runBundle t [sylRaw y 3 0x1A] =
      State.modTh (((State.send (s.runReady t (slotsOf [sylRaw y 3 0x1A])) (t / 128) 26
          (.commit t ((s.runReady t (slotsOf [sylRaw y 3 0x1A])).th t).record ((s.runReady t (slotsOf [sylRaw y 3 0x1A])).th t).gen
            (BitVec.ofNat 3 ((sylRaw y 3 0x1A).f 2 0)) (s.th t).regs.acc ((s.runReady t (slotsOf [sylRaw y 3 0x1A])).th t).pc)).endWork t
              false).tellFree t) t
        (fun x => { x with pc := addrAfter (s.th t).pc 1 }) :=
  s.runBundle_single t _ rfl

/-- What noting a passed point leaves: everything but the records, and of those all but the thread's own. -/
theorem State.notePassed_eq (s : State) (t k : Nat) : s.notePassed t k = { s with seq := { s.seq with recs := (s.notePassed t k).seq.recs } } := by
  unfold State.notePassed
  dsimp only
  split <;> rfl

theorem State.rcd_notePassed (s : State) (t k q : Nat) :
    (s.notePassed t k).rcd q =
      if q = (s.th t).record ∧ (s.rcd (s.th t).record).gen = (s.th t).gen ∧ (s.rcd (s.th t).record).st = .running
      then { s.rcd q with passed := (s.rcd q).passed ||| (1 <<< k) } else s.rcd q := by
  unfold State.notePassed
  dsimp only
  split_ifs with hruns hq hq
  · rw [hq.1, State.rcd_modRec_same]
  · rw [State.rcd_modRec, if_neg (fun h => hq ⟨h, hruns⟩)]
  · exact absurd hq.2 hruns
  · rfl

@[simp] theorem State.th_notePassed (s : State) (t k q : Nat) : (s.notePassed t k).th q = s.th q := by
  rw [State.notePassed_eq]
  rfl

@[simp] theorem State.still_notePassed (s : State) (t k c : Nat) : ((s.notePassed t k).cl c).still = (s.cl c).still := by
  rw [State.notePassed_eq]
  rfl

/-- Two states with the same rest have it the same with the same records. -/
theorem State.outer_withRecs {a b : State} (h : a.outer = b.outer) (l : Store Rec) :
    ({ a with seq := { a.seq with recs := l } } : State).outer = ({ b with seq := { b.seq with recs := l } } : State).outer :=
  (congrArg (fun u : State => { u with seq := { u.seq with recs := l } }) h :)

/-- An ORD waits but where its point is passed or released, or its task has no domain. -/
theorem beginsWait_ord (s : State) (t : Nat) (y : Syl) :
    s.beginsWait t [sylRaw y 3 0x18] =
      if (s.th t).noDomain = true ∨ ((s.th t).passed ||| (s.th t).released).getLsbD ((sylRaw y 3 0x18).f 1 0) = true then none
      else some (.ord ((sylRaw y 3 0x18).f 1 0), true) := rfl

section
variable {s : State} {y : Syl}

/-- A bundle that begins to wait for a point is held, its thread's turn passes, and I26 is asked. -/
theorem enterWait_ord (s : State) (t k : Nat) (ys : List RawSyl) :
    s.enterWait t ys (.ord k) =
      State.send ((s.modTh t (fun x => { x with wait := .ord k, waitSyls := ys, bundle := [], bpPass := false })).passTurn t) (t / 128) 26
        (.ordReq t (s.th t).record (s.th t).gen k) := rfl

@[simp] theorem State.th_passTurn (s : State) (t k : Nat) : (s.passTurn t).th k = s.th k := s.th_modCl _ k _ rfl

@[simp] theorem State.outer_passTurn (s : State) (t : Nat) : (s.passTurn t).outer = s.outer := rfl

@[simp] theorem State.still_passTurn (s : State) (t c : Nat) : ((s.passTurn t).cl c).still = (s.cl c).still :=
  s.still_modRr (t / 128) c (fun r => Store.set 0 r (coreOf t * 4 + (s.th t).prio.toNat) ((t % 16 + 1) % 16))

/-- R191: with the point passed or released, or no domain, ORD passes it at once, and the record shows it (log 59). -/
theorem givesSome_ord_passed (h : Executes s y 3 0x18) :
    let t := tidOf y
    let k := (sylRaw y 3 0x18).f 1 0
    let x := s.th t
    (x.noDomain = true ∨ (x.passed ||| x.released).getLsbD k = true) ∧ givesSome (.ord y) s (fun u =>
      past s u t { x with passed := x.passed ||| (1 <<< k) } ∧ clustersSame s u
        ∧ u = { s with clusters := u.clusters, obs := u.obs, seq := { s.seq with recs := u.seq.recs } }
        ∧ (∀ q, q ≠ x.record → u.rcd q = s.rcd q)
        ∧ u.rcd x.record = (if (s.rcd x.record).gen = x.gen ∧ (s.rcd x.record).st = .running
            then { s.rcd x.record with passed := (s.rcd x.record).passed ||| (1 <<< k) } else s.rcd x.record)) := by
  obtain ⟨hbusy, hwait, hbundle⟩ := thread_of_ready h.1
  have hnowait := h.2
  rw [beginsWait_ord] at hnowait
  refine ⟨by_contra fun hnot => Option.some_ne_none _ ((if_neg hnot).symm.trans hnowait), _, congrArg answer ((syllable_of_executes h).trans (runBundle_ord s _ y)), ?_⟩
  generalize tidOf y = t at *
  generalize (sylRaw y 3 0x18).f 1 0 = k
  generalize slotsOf [sylRaw y 3 0x18] = n
  obtain ⟨b, hready⟩ := th_runReady_of_ready n hbusy hwait hbundle
  have hrest := (State.outer_modTh (s.runReady t n) t (fun x => { x with passed := x.passed ||| (1 <<< k) })).trans (s.outer_runReady t n)
  have hrcd := State.rcd_notePassed ((s.runReady t n).modTh t (fun x => { x with passed := x.passed ||| (1 <<< k) })) t k
  simp only [State.th_modTh_same, hready, State.rcd, State.outer_seq hrest] at hrcd
  refine ⟨past_of_effect (b := b) (by rw [State.th_notePassed, State.th_modTh_same, hready]) (fun q hq => ?_),
    clustersSame_of_effect (fun c => by rw [State.still_notePassed, State.still_modTh, State.still_runReady]) _, ?_, fun q hq => ?_, ?_⟩
  · rw [State.th_notePassed, State.th_modTh, if_neg hq, State.th_runReady_other s n hq]
  · exact eq_of_effect ((congrArg State.outer (State.notePassed_eq _ t k)).trans (State.outer_withRecs hrest _)) _
  · exact (hrcd q).trans (if_neg fun hc => hq hc.1)
  · refine (hrcd _).trans ?_
    simp only [true_and]
    rfl

/-- R83, R191: the ORD of any other point asks I26 and waits. -/
theorem givesSome_ord_waits (h : Ready s y 3 0x18) :
    let t := tidOf y
    let z := sylRaw y 3 0x18
    let k := z.f 1 0
    let x := s.th t
    x.noDomain = false → (x.passed ||| x.released).getLsbD k = false → givesSome (.ord y) s (fun u =>
      u.th t = { x with wait := .ord k, waitSyls := [z], bpPass := false } ∧ othersSame s u t ∧ clustersSame s u
        ∧ u = { s with clusters := u.clusters, obs := u.obs, net := s.net ++ [⟨t / 128, 26, .ordReq t x.record x.gen k⟩] }) := by
  dsimp only
  intro hdomain hpassed
  obtain ⟨-, -, hbundle⟩ := thread_of_ready h
  have hwait : s.beginsWait (tidOf y) [sylRaw y 3 0x18] = some (.ord ((sylRaw y 3 0x18).f 1 0), true) :=
    (beginsWait_ord s (tidOf y) y).trans (if_neg (by simp only [hdomain, hpassed]; decide))
  have hstart : s.startBundle (tidOf y) [sylRaw y 3 0x18] = s.enterWait (tidOf y) [sylRaw y 3 0x18] (.ord ((sylRaw y 3 0x18).f 1 0)) := by
    have heffect : isEffect s (tidOf y) (s.th (tidOf y)).regs (sylRaw y 3 0x18) = false := rfl
    simp [State.startBundle, heffect, hwait]
  refine ⟨_, congrArg answer ((syllable_of_ready h).trans (hstart.trans (enterWait_ord s _ _ _))), ?_⟩
  generalize tidOf y = t at *
  refine ⟨?_, fun q hq => ?_, clustersSame_of_still fun c => ?_, ?_⟩
  · rw [State.th_after_watch, State.th_after_send, State.th_passTurn, State.th_modTh_same]
    simp only [hbundle]
  · rw [State.th_after_watch, State.th_after_send, State.th_passTurn, State.th_modTh, if_neg hq]
  · rw [State.still_watch, State.cl_after_send, State.still_passTurn, State.still_modTh]
  · refine State.eq_of_outer (s := s.send (t / 128) 26 (.ordReq t (s.th t).record (s.th t).gen ((sylRaw y 3 0x18).f 1 0))) ?_
    rw [State.outer_watch, State.outer_send, State.outer_send, State.outer_passTurn, State.outer_modTh]

/-- R84, R192: REL releases its point and the earlier ones, and tells I26. -/
theorem givesSome_rel (h : Executes s y 3 0x19) :
    let t := tidOf y
    let k := (sylRaw y 3 0x19).f 1 0
    let x := s.th t
    givesSome (.rel y) s (fun u =>
      past s u t { x with released := x.released ||| BitVec.ofNat 4 (2 ^ (k + 1) - 1) } ∧ clustersSame s u
        ∧ u = { s with clusters := u.clusters, obs := u.obs, net := s.net ++ [⟨t / 128, 26, .rel t x.record x.gen k x.pc⟩] }) := by
  obtain ⟨hbusy, hwait, hbundle⟩ := thread_of_ready h.1
  refine ⟨_, congrArg answer ((syllable_of_executes h).trans (runBundle_rel s _ y)), ?_⟩
  dsimp only
  generalize tidOf y = t at *
  generalize (sylRaw y 3 0x19).f 1 0 = k
  generalize slotsOf [sylRaw y 3 0x19] = n
  obtain ⟨b, hready⟩ := th_runReady_of_ready n hbusy hwait hbundle
  refine ⟨past_of_effect (b := b) (by rw [State.th_after_send, State.th_modTh_same, hready]) (fun q hq => ?_),
    clustersSame_of_effect (fun c => ((s.runReady t n).still_modTh t c _).trans (s.still_runReady t n c)) _, ?_⟩
  · rw [State.th_after_send, State.th_modTh, if_neg hq, State.th_runReady_other s n hq]
  · rw [hready]
    exact eq_of_effect (v := s.send (t / 128) 26 (.rel t (s.th t).record (s.th t).gen k (s.th t).pc))
      (by rw [State.outer_send, State.outer_modTh, State.outer_runReady, ← State.outer_send]) _

/-- R91, R193: COMMIT sends its outcome and ACC to I26, and the thread is free, which I26 learns too. -/
theorem givesSome_commit (h : Executes s y 3 0x1A) :
    let t := tidOf y
    let x := s.th t
    givesSome (.commit y) s (fun u =>
      (u.th t).busy = false ∧ othersSame s u t
        ∧ ⟨t / 128, 26, .commit t x.record x.gen (BitVec.ofNat 3 ((sylRaw y 3 0x1A).f 2 0)) x.regs.acc x.pc⟩ ∈ u.net
        ∧ ⟨t / 128, 26, .threadFree t⟩ ∈ u.net ∧ ∀ m ∈ s.net, m ∈ u.net) := by
  obtain ⟨hbusy, hwait, hbundle⟩ := thread_of_ready h.1
  refine ⟨_, congrArg answer ((syllable_of_executes h).trans (runBundle_commit s _ y)), ?_⟩
  dsimp only
  generalize tidOf y = t at *
  generalize BitVec.ofNat 3 ((sylRaw y 3 0x1A).f 2 0) = op
  generalize slotsOf [sylRaw y 3 0x1A] = n
  obtain ⟨b, hready⟩ := th_runReady_of_ready n hbusy hwait hbundle
  rw [hready]
  dsimp only
  have hsent : ((s.runReady t n).send (t / 128) 26 (.commit t (s.th t).record (s.th t).gen op (s.th t).regs.acc (s.th t).pc)).net
      = s.net ++ [⟨t / 128, 26, .commit t (s.th t).record (s.th t).gen op (s.th t).regs.acc (s.th t).pc⟩] :=
    congrArg (· ++ _) (State.outer_net (s.outer_runReady t n))
  have hbusy' : (((s.runReady t n).send (t / 128) 26
      (.commit t (s.th t).record (s.th t).gen op (s.th t).regs.acc (s.th t).pc)).th t).busy = true := by
    rw [State.th_after_send, hready]; exact hbusy
  refine ⟨?_, fun k hk => ?_, ?_, ?_, fun m hm => ?_⟩
  · rw [State.th_after_watch, State.th_modTh_same]
    exact State.busy_endWork false hbusy'
  · rw [State.th_after_watch, State.th_modTh, if_neg hk]
    exact (State.th_endWork_other false hbusy' hk).trans (s.th_runReady_other n hk)
  · exact State.mem_net_send _ _ _ (State.mem_net_endWork false hbusy' (by rw [hsent]; simp))
  · exact List.mem_append_right _ (List.mem_singleton_self _)
  · exact State.mem_net_send _ _ _ (State.mem_net_endWork false hbusy' (by rw [hsent]; simp [hm]))

end

theorem orderedPointsAndCommitReachTheSequencer : Claims.OrderedPointsAndCommitReachTheSequencer := by
  unfold Claims.OrderedPointsAndCommitReachTheSequencer
  exact ⟨fun _ _ => ⟨givesSome_ord_passed, givesSome_ord_waits⟩, fun _ _ => givesSome_rel, fun _ _ => givesSome_commit⟩

/-! ### Locks and atomics (R185, R198, R201) -/

/-- A thread's request, with the load that its answer will write. -/
def State.asked (s : State) (t isl : Nat) (m : Msg) : State :=
  State.send (State.addLoad { s with nextId := s.nextId + 1 } t { id := s.nextId, reg := 0, fl := true, isl := isl }) (t / 128) isl m

/-- The load that the answer to a lock or atomic instruction of identity `id` writes. -/
def answerOf (id isl : Nat) : Load := { id := id, reg := 0, fl := true, isl := isl }

theorem State.th_asked (s : State) (t isl : Nat) (m : Msg) :
    ∃ b, (s.asked t isl m).th t = { withLoad (s.th t) (answerOf s.nextId isl) with branches := b } := by
  have hth : (s.asked t isl m).th t = Thread.begin' (withLoad (s.th t) (answerOf s.nextId isl)) s.nextId := State.th_modTh_same _ _ _
  exact ⟨_, hth.trans (Thread.begin'_eq _ _)⟩

theorem State.th_asked_other (s : State) {t k : Nat} (isl : Nat) (m : Msg) (hk : k ≠ t) : (s.asked t isl m).th k = s.th k :=
  (State.th_modTh _ t k _).trans (if_neg hk)

theorem State.still_asked (s : State) (t isl : Nat) (m : Msg) (c : Nat) : ((s.asked t isl m).cl c).still = (s.cl c).still :=
  State.still_modTh _ t c _

theorem State.outer_asked (s : State) (t isl : Nat) (m : Msg) :
    (s.asked t isl m).outer = { s.outer with nextId := s.nextId + 1, net := s.net ++ [⟨t / 128, isl, m⟩] } := rfl

/-- What is asked of a lock or atomic instruction whose bundle's effect is one request. -/
theorem givesSome_asked {s : State} {y : Syl} {op : Nat} {i : Instr} {isl : Nat} {m : Msg} (h : Executes s y 3 op)
    (hexec : exec i s = answer (s.syllable y 3 op))
    (heffect : s.runBundle (tidOf y) [sylRaw y 3 op] =
      ((s.runReady (tidOf y) (slotsOf [sylRaw y 3 op])).asked (tidOf y) isl m).modTh (tidOf y)
        (fun x => { x with pc := addrAfter (s.th (tidOf y)).pc 1 })) :
    givesSome i s (fun u =>
      past s u (tidOf y) (withLoad (s.th (tidOf y)) (answerOf s.nextId isl)) ∧ clustersSame s u ∧ sent s u (tidOf y / 128) isl m) := by
  obtain ⟨hbusy, hwait, hbundle⟩ := thread_of_ready h.1
  refine ⟨_, hexec.trans (congrArg answer ((syllable_of_executes h).trans heffect)), ?_⟩
  generalize tidOf y = t at *
  generalize slotsOf [sylRaw y 3 op] = n
  obtain ⟨b, hready⟩ := th_runReady_of_ready n hbusy hwait hbundle
  obtain ⟨b', hasked⟩ := (s.runReady t n).th_asked t isl m
  have hrest := s.outer_runReady t n
  rw [hready, State.outer_nextId hrest] at hasked
  refine ⟨past_of_effect (b := b') hasked (fun q hq => ?_), clustersSame_of_effect (fun c => ?_) _, ?_⟩
  · exact (State.th_asked_other _ isl m hq).trans (s.th_runReady_other n hq)
  · exact (State.still_asked _ t isl m c).trans (s.still_runReady t n c)
  · refine eq_of_effect (v := { s with net := s.net ++ [⟨t / 128, isl, m⟩], nextId := s.nextId + 1 }) ?_ _
    rw [State.outer_asked, hrest, State.outer_nextId hrest, State.outer_net hrest]
    rfl

/-- A lock instruction's effect is its request to the slice of the lock's bank. -/
theorem runBundle_lock (s : State) (t : Nat) (y : Syl) {row : (Syl → Instr) × Nat × LockOp} (hrow : row ∈ lockRows) :
    s.runBundle t [sylRaw y 3 row.2.1] =
      ((s.runReady t (slotsOf [sylRaw y 3 row.2.1])).asked t (37 + (s.th t).regs.xa.toNat % 65536 / 2048 / 8)
        (.lockReq (s.runReady t (slotsOf [sylRaw y 3 row.2.1])).nextId t ((s.th t).regs.xa.toNat % 65536) row.2.2)).modTh t
        (fun x => { x with pc := addrAfter (s.th t).pc 1 }) := by
  simp only [lockRows, List.mem_cons, List.not_mem_nil, or_false] at hrow
  obtain rfl | rfl | rfl := hrow <;> exact s.runBundle_single t _ rfl

theorem givesSome_lock {s : State} {y : Syl} {row : (Syl → Instr) × Nat × LockOp} (hrow : row ∈ lockRows) (h : Executes s y 3 row.2.1) :
    let t := tidOf y
    let w := (s.th t).regs.xa.toNat % 65536
    givesSome (row.1 y) s (fun u =>
      past s u t (withLoad (s.th t) { id := s.nextId, reg := 0, fl := true, isl := 37 + w / 2048 / 8 }) ∧ clustersSame s u
        ∧ sent s u (t / 128) (37 + w / 2048 / 8) (.lockReq s.nextId t w row.2.2)) := by
  have hexec : exec (row.1 y) s = answer (s.syllable y 3 row.2.1) := by
    simp only [lockRows, List.mem_cons, List.not_mem_nil, or_false] at hrow
    obtain rfl | rfl | rfl := hrow <;> rfl
  have heffect := runBundle_lock s (tidOf y) y hrow
  rw [State.outer_nextId (s.outer_runReady _ _)] at heffect
  exact givesSome_asked h hexec heffect

/-- The address of an atomic instruction's operand. -/
def atomicAddr (r : Regs) (z : RawSyl) : Nat := if z.f 21 21 = 1 then farAddr r else r.xa.toNat

/-- The request of an atomic instruction of opcode `op` by a thread with registers `r`. -/
def atomicReq (s : State) (t op : Nat) (r : Regs) (z : RawSyl) : MemReq :=
  { id := s.nextId, thread := t, tag := (s.th t).accord, kind := .atomic (BitVec.ofNat 3 (op - 0x28)), addr := atomicAddr r z
    size := if op = 0x28 then 2 else 3, data := r.acc, data2 := BitVec.ofNat 64 (mreadLE r.frame 0x568 8)
    record := (s.th t).record, gen := (s.th t).gen, sc := if (s.th t).task then 2 else 1 }

/-- A request tells the record, the life and the kind of work that the thread has as it is sent. -/
theorem State.request_addLoad (s : State) (t : Nat) (l : Load) (q : MemReq) (far : Bool) :
    (s.addLoad t l).request t q far =
      (s.addLoad t l).send (t / 128) (s.accessIsland q.addr far)
        (.mem { q with record := (s.th t).record, gen := (s.th t).gen, sc := if (s.th t).task then 2 else 1 }) := by
  have hth : (s.addLoad t l).th t = Thread.begin' { s.th t with loads := (s.th t).loads ++ [l] } l.id := State.th_modTh_same _ _ _
  unfold State.request
  rw [hth, Thread.begin'_eq]
  rfl

/-- An atomic instruction's effect is its request to the home of its operand. -/
theorem runBundle_atomic (s : State) (t : Nat) (y : Syl) {op : Nat} (hlo : 0x28 ≤ op) (hhi : op ≤ 0x2E) :
    let v := s.runReady t (slotsOf [sylRaw y 3 op])
    let z := sylRaw y 3 op
    s.runBundle t [z] =
      (v.asked t (v.accessIsland (atomicAddr (s.th t).regs z) (z.f 21 21 = 1)) (.mem (atomicReq v t op (s.th t).regs z))).modTh t
        (fun x => { x with pc := addrAfter (s.th t).pc 1 }) := by
  have hsyl : ∀ v : State, execSyl t (s.th t).regs (addrAfter (s.th t).pc 1) v (sylRaw y 3 op) =
      State.request (State.addLoad { v with nextId := v.nextId + 1 } t
          (answerOf v.nextId (v.accessIsland (atomicAddr (s.th t).regs (sylRaw y 3 op)) ((sylRaw y 3 op).f 21 21 = 1)))) t
        { id := v.nextId, thread := t, tag := (v.th t).accord, kind := .atomic (BitVec.ofNat 3 (op - 0x28))
          addr := atomicAddr (s.th t).regs (sylRaw y 3 op), size := if op = 0x28 then 2 else 3, data := (s.th t).regs.acc
          data2 := BitVec.ofNat 64 (mreadLE (s.th t).regs.frame 0x568 8) } ((sylRaw y 3 op).f 21 21 = 1) := by
    intro v
    interval_cases op <;> rfl
  refine (s.runBundle_single t _ (by interval_cases op <;> rfl)).trans ?_
  rw [hsyl, State.request_addLoad]
  rfl

theorem givesSome_atomic {s : State} {y : Syl} {row : (Syl → Instr) × Nat} (hrow : row ∈ atomicRows) (h : Executes s y 3 row.2) :
    let t := tidOf y
    let r := (s.th t).regs
    let far := (sylRaw y 3 row.2).f 21 21 = 1
    let a := if far then farAddr r else r.xa.toNat
    givesSome (row.1 y) s (fun u =>
      past s u t (withLoad (s.th t) { id := s.nextId, reg := 0, fl := true, isl := if far then 43 + s.homeChannel a else apertureIsland a }) ∧ clustersSame s u
        ∧ sent s u (t / 128) (if far then 43 + s.homeChannel a else apertureIsland a)
            (request s t (.atomic (BitVec.ofNat 3 (row.2 - 0x28))) a (if row.2 = 0x28 then 2 else 3) r.acc
              (BitVec.ofNat 64 (mreadLE r.frame 0x568 8)))) := by
  have hop : (0x28 ≤ row.2 ∧ row.2 ≤ 0x2E) ∧ exec (row.1 y) s = answer (s.syllable y 3 row.2) := by
    simp only [atomicRows, List.mem_cons, List.not_mem_nil, or_false] at hrow
    obtain rfl | rfl | rfl | rfl | rfl | rfl | rfl := hrow <;> exact ⟨by decide, rfl⟩
  obtain ⟨⟨hlo, hhi⟩, hexec⟩ := hop
  obtain ⟨hbusy, hwait, hbundle⟩ := thread_of_ready h.1
  have heffect := runBundle_atomic s (tidOf y) y hlo hhi
  have hrest := s.outer_runReady (tidOf y) (slotsOf [sylRaw y 3 row.2])
  obtain ⟨b, hready⟩ := th_runReady_of_ready (slotsOf [sylRaw y 3 row.2]) hbusy hwait hbundle
  have hisl : ∀ a far, (s.runReady (tidOf y) (slotsOf [sylRaw y 3 row.2])).accessIsland a far = s.accessIsland a far := by
    intro a far
    unfold State.accessIsland State.homeChannel
    rw [State.outer_dram hrest]
  simp only [hisl, atomicReq, hready, State.outer_nextId hrest] at heffect
  have hgives := givesSome_asked h hexec heffect
  simp only [State.accessIsland, decide_eq_true_eq] at hgives
  exact hgives

theorem locksAndAtomicsSendTheirRequest : Claims.LocksAndAtomicsSendTheirRequest := by
  unfold Claims.LocksAndAtomicsSendTheirRequest
  exact ⟨fun _ hrow _ _ => givesSome_lock hrow, fun _ hrow _ _ => givesSome_atomic hrow⟩

/-- Settles O12: each instruction's bundle has one effect, which its rule above gives; what the issue leaves is said once for all of them. -/
theorem orderedLockAndAtomicInstructionsSendTheirRequest : Obligations.OrderedLockAndAtomicInstructionsSendTheirRequest :=
  ⟨orderedPointsAndCommitReachTheSequencer, locksAndAtomicsSendTheirRequest⟩

end Sys2Proof.Machine
end

section
/-! The Atomizer: the record of greatest right, and the thread it is sent to (R102, R103). -/

namespace Sys2Proof.Machine

open Sys2Proof.Claims

/-! ### The first of the greatest, and the first in order -/

theorem argMax_isSome {f : Nat → Nat} {l : List Nat} (h : l ≠ []) : ∃ b, argMax f l = some b := by
  cases l with
  | nil => exact absurd rfl h
  | cons a t =>
    unfold argMax
    split
    · exact ⟨_, rfl⟩
    · split <;> exact ⟨_, rfl⟩

/-- The element chosen as the first of the greatest stands behind smaller ones only and before none that is greater. -/
theorem argMax_eq_some {f : Nat → Nat} {l : List Nat} {b : Nat} (h : argMax f l = some b) :
    ∃ pre post, l = pre ++ b :: post ∧ (∀ a ∈ pre, f a < f b) ∧ ∀ a ∈ post, f a ≤ f b := by
  induction l generalizing b with
  | nil => simp [argMax] at h
  | cons a t ih =>
    unfold argMax at h
    cases hm : argMax f t with
    | none =>
      have ht : t = [] := by
        by_contra hne
        obtain ⟨c, hc⟩ := argMax_isSome (f := f) hne
        exact absurd (hm.symm.trans hc) (Option.some_ne_none c).symm
      rw [hm] at h
      cases h
      exact ⟨[], [], by simp [ht], by simp, by simp⟩
    | some c =>
      obtain ⟨pre, post, ht, hpre, hpost⟩ := ih hm
      simp only [hm] at h
      split at h <;> cases h
      next hlt => exact ⟨a :: pre, post, by simp [ht], by simpa [hlt] using hpre, hpost⟩
      next hge =>
        refine ⟨[], t, rfl, by simp, fun q hq => ?_⟩
        rw [ht, List.mem_append, List.mem_cons] at hq
        obtain hq | rfl | hq := hq
        · have := hpre q hq; omega
        · omega
        · have := hpost q hq; omega

/-- In a list in the order `R` the choice is the greatest, and of those the first. -/
theorem argMax_of_pairwise {f : Nat → Nat} {l : List Nat} {b : Nat} {R : Nat → Nat → Prop} (h : argMax f l = some b) (hrefl : R b b)
    (hl : l.Pairwise R) : b ∈ l ∧ ∀ q ∈ l, f q < f b ∨ f q = f b ∧ R b q := by
  obtain ⟨pre, post, rfl, hpre, hpost⟩ := argMax_eq_some h
  have hR : ∀ q ∈ post, R b q := (List.pairwise_cons.1 (List.pairwise_append.1 hl).2.1).1
  refine ⟨by simp, fun q hq => ?_⟩
  rw [List.mem_append, List.mem_cons] at hq
  obtain hq | rfl | hq := hq
  · exact .inl (hpre q hq)
  · exact .inr ⟨rfl, hrefl⟩
  · exact (Nat.lt_or_eq_of_le (hpost q hq)).imp_right fun he => ⟨he, hR q hq⟩

/-- The first of a list in order comes before every element. -/
theorem head_sortBy {β : Type} {le : β → β → Bool} (htotal : ∀ a b, le a b = true ∨ le b a = true)
    (htrans : ∀ a b c, le a b = true → le b c = true → le a c = true) {l : List β} {b : β} (h : (sortBy le l).head? = some b) :
    b ∈ l ∧ ∀ e ∈ l, le b e = true := by
  induction l generalizing b with
  | nil => simp at h
  | cons x t ih =>
    have hrefl : ∀ a, le a a = true := fun a => (htotal a a).elim id id
    rw [show sortBy le (x :: t) = placeBy le x (sortBy le t) from rfl] at h
    cases hs : sortBy le t with
    | nil =>
      rw [hs] at h
      obtain rfl : x = b := by simpa [placeBy] using h
      have ht : ∀ e ∈ t, False := fun e he => by
        rw [← mem_sortBy le, hs] at he
        exact absurd he List.not_mem_nil
      exact ⟨List.mem_cons_self, fun e he => (List.mem_cons.1 he).elim (fun h => h ▸ hrefl _) fun h => (ht e h).elim⟩
    | cons y rest =>
      obtain ⟨hy, hfirst⟩ := ih (b := y) (by rw [hs]; rfl)
      rw [hs] at h
      unfold placeBy at h
      split at h <;> simp only [List.head?_cons, Option.some.injEq] at h <;> subst h
      next hxy =>
        exact ⟨List.mem_cons_self, fun e he => (List.mem_cons.1 he).elim (fun h => h ▸ hrefl _) fun h => htrans _ _ _ hxy (hfirst e h)⟩
      next hxy =>
        have hyx : le y x = true := (htotal y x).resolve_right hxy
        exact ⟨List.mem_cons_of_mem _ hy, fun e he => (List.mem_cons.1 he).elim (fun h => h ▸ hyx) (hfirst e)⟩

/-! ### The record to dispatch next (R103) -/

/-- A record may be dispatched now: it waits, its domain holds no HELD record, and a cluster can take it. -/
def State.dispatchable (s : State) (x : Rec) : Bool := x.st == .queued && !(x.placed && s.domHeld x.domain.toNat) && !(s.choices x).isEmpty

/-- The right of a record to be dispatched before another: the earliest replay, then the highest priority, then the oldest. -/
def Rec.before (x y : Rec) : Bool :=
  match x.replay, y.replay with
  | some m, some n => decide (m ≤ n)
  | some _, none => true
  | none, some _ => false
  | none, none => decide (y.eff < x.eff) || (x.eff == y.eff && decide (x.order ≤ y.order))

theorem nextRecord_eq (s : State) :
    s.nextRecord = ((sortBy (fun a b => a.2.before b.2) (s.seq.recs.filter (fun e => s.dispatchable e.2))).head?).map (·.1) := rfl

theorem Rec.before_total (x y : Rec) : x.before y = true ∨ y.before x = true := by
  unfold Rec.before
  cases x.replay <;> cases y.replay <;> simp <;> omega

theorem Rec.before_trans (x y z : Rec) (hxy : x.before y = true) (hyz : y.before z = true) : x.before z = true := by
  revert hxy hyz
  unfold Rec.before
  cases x.replay <;> cases y.replay <;> cases z.replay <;> simp <;> omega

/-- The record dispatched next may be dispatched, and comes before every other that may. -/
theorem nextRecord_eq_some {s : State} {r : Nat} (honce : eachOnce s) (h : s.nextRecord = some r) :
    s.dispatchable (s.rcd r) = true ∧ ∀ e ∈ s.seq.recs, s.dispatchable e.2 = true → (s.rcd r).before e.2 = true := by
  rw [nextRecord_eq] at h
  obtain ⟨⟨k, x⟩, hhead, rfl⟩ := Option.map_eq_some_iff.1 h
  obtain ⟨hmem, hfirst⟩ := head_sortBy (fun a b => a.2.before_total b.2) (fun a b c => a.2.before_trans b.2 c.2) hhead
  obtain ⟨hlisted, hmay⟩ := List.mem_filter.1 hmem
  have hx : s.rcd k = x := rcd_of_mem honce hlisted
  dsimp only
  rw [hx]
  exact ⟨hmay, fun e he hd => hfirst e (List.mem_filter.2 ⟨he, hd⟩)⟩

theorem nextRecord_first {s : State} {r q : Nat} (h : s.nextRecord = some r) (hq : (q, s.rcd q) ∈ s.seq.recs)
    (hqueued : (s.rcd q).st = .queued) (hheld : (s.rcd q).placed = true → s.domHeld (s.rcd q).domain.toNat = false)
    (hchoice : s.choices (s.rcd q) ≠ []) (honce : eachOnce s) :
    let x := s.rcd r
    let y := s.rcd q
    x.st = .queued ∧ s.choices x ≠ [] ∧ (x.placed = true → s.domHeld x.domain.toNat = false) ∧
    match x.replay, y.replay with
    | some m, some n => m ≤ n
    | some _, none => True
    | none, some _ => False
    | none, none => y.eff < x.eff ∨ (y.eff = x.eff ∧ x.order ≤ y.order) := by
  obtain ⟨hmay, hfirst⟩ := nextRecord_eq_some honce h
  have hbefore := hfirst _ hq (by
    cases hp : (s.rcd q).placed <;> simp [State.dispatchable, hqueued, hchoice, hp, hheld])
  simp only [State.dispatchable, Bool.and_eq_true, beq_iff_eq, Bool.not_eq_true', Bool.and_eq_false_imp, List.isEmpty_eq_false_iff] at hmay
  obtain ⟨⟨hst, hdom⟩, hne⟩ := hmay
  refine ⟨hst, hne, hdom, ?_⟩
  unfold Rec.before at hbefore
  revert hbefore
  generalize (s.rcd r).replay = m
  generalize (s.rcd q).replay = n
  cases m <;> cases n <;> simp [eq_comm (a := (s.rcd r).eff)]

/-! ### The thread it is sent to (R103) -/

/-- The free threads of a core are its own, in rising order, and not counted as busy. -/
theorem freeThreads_spec (s : State) (c : Nat) {k : Nat} (hk : k < 8) :
    (s.freeThreads c k).Pairwise (· < ·) ∧ ∀ t ∈ s.freeThreads c k, t / 128 = c ∧ coreOf t = k ∧ t ∉ s.seq.busy := by
  unfold State.freeThreads
  refine ⟨List.Pairwise.filter _ (List.pairwise_map.2 (List.pairwise_lt_range.imp fun h => by omega)), fun t ht => ?_⟩
  simp only [List.mem_filter, List.mem_map, List.mem_range, Bool.not_eq_true', List.contains_eq_mem, decide_eq_false_iff_not] at ht
  obtain ⟨⟨i, hi, rfl⟩, hfree⟩ := ht
  exact ⟨by omega, by unfold coreOf; omega, hfree⟩

/-- The positions that a record may go to rise, and are positions of the device. -/
theorem choices_spec (s : State) (x : Rec) : (s.choices x).Pairwise (· < ·) ∧ ∀ p ∈ s.choices x, p < 24 := by
  unfold State.choices State.rolePositions
  refine ⟨(List.pairwise_lt_range.filter _).filter _, fun p hp => ?_⟩
  exact List.mem_range.1 (List.mem_filter.1 (List.mem_filter.1 hp).1).1

/-- The place of a position in the round that starts at `start`. -/
def roundOf (start p : Nat) : Nat := if p < start then p + 24 else p

/-- The positions that a record may go to, in the order of the round that its role group's pointer starts. -/
def State.round (s : State) (x : Rec) : List Nat :=
  (s.choices x).filter (fun p => decide (Store.get 0 s.seq.rr x.role ≤ p))
    ++ (s.choices x).filter (fun p => decide (p < Store.get 0 s.seq.rr x.role))

/-- In the round of a record, one position comes no later than another. -/
def State.inRound (s : State) (x : Rec) (p q : Nat) : Prop := roundOf (Store.get 0 s.seq.rr x.role) p ≤ roundOf (Store.get 0 s.seq.rr x.role) q

theorem pairwise_round (s : State) (x : Rec) : (s.round x).Pairwise (s.inRound x) := by
  obtain ⟨hrise, h24⟩ := choices_spec s x
  refine List.pairwise_append.2 ⟨(hrise.filter _).imp_of_mem fun {p q} hp hq hlt => ?_, (hrise.filter _).imp_of_mem fun {p q} hp hq hlt => ?_,
    fun p hp q hq => ?_⟩ <;> simp only [List.mem_filter, decide_eq_true_eq] at hp hq <;> simp only [State.inRound, roundOf]
  · split_ifs <;> omega
  · split_ifs <;> omega
  · have := h24 p hp.1
    split_ifs <;> omega

theorem mem_round (s : State) (x : Rec) (q : Nat) : q ∈ s.round x ↔ q ∈ s.choices x := by
  simp only [State.round, List.mem_append, List.mem_filter, decide_eq_true_eq]
  have := Nat.lt_or_ge q (Store.get 0 s.seq.rr x.role)
  tauto

theorem round_ne_nil {s : State} {x : Rec} (h : s.choices x ≠ []) : s.round x ≠ [] := by
  obtain ⟨q, hq⟩ := List.exists_mem_of_ne_nil _ h
  exact List.ne_nil_of_mem ((mem_round s x q).2 hq)

/-- The free threads of a cluster. -/
def State.idle (s : State) (c : Nat) : Nat := ((List.range 8).map (fun k => (s.freeThreads c k).length)).sum

/-- Where a record goes: position, cluster and core of most free threads, the first of equals in the round and in number, and that
core's first free thread. -/
structure Goes (s : State) (x : Rec) (p t : Nat) : Prop where
  choice : p ∈ s.choices x
  cluster : s.clusterAt p = t / 128
  most : ∀ q ∈ s.choices x, s.idle (s.clusterAt q) < s.idle (t / 128) ∨
    (s.idle (s.clusterAt q) = s.idle (t / 128) ∧ s.inRound x p q)
  core : s.coreOk x (t / 128) (coreOf t) = true
  mostOfCore : ∀ k < 8, s.coreOk x (t / 128) k = true →
    (s.freeThreads (t / 128) k).length < (s.freeThreads (t / 128) (coreOf t)).length
      ∨ ((s.freeThreads (t / 128) k).length = (s.freeThreads (t / 128) (coreOf t)).length ∧ coreOf t ≤ k)
  free : t ∈ s.freeThreads (t / 128) (coreOf t)
  first : ∀ v ∈ s.freeThreads (t / 128) (coreOf t), t ≤ v
  idle : t ∉ s.seq.busy

/-- A lane of a cycle in progress sends the record of greatest right, which is not damaged, where it goes. -/
theorem dispatchLane_of_next {s : State} {r : Nat} (honce : eachOnce s) (hgoing : s.seq.stopped = false) (hnext : s.nextRecord = some r)
    (hsound : r ∉ s.seq.badRec) : ∃ p t, Goes s (s.rcd r) p t ∧ s.dispatchLane 1 = s.dispatchTo r p t := by
  obtain ⟨hmay, -⟩ := nextRecord_eq_some honce hnext
  simp only [State.dispatchable, Bool.and_eq_true, Bool.not_eq_true', List.isEmpty_eq_false_iff] at hmay
  obtain ⟨-, hne⟩ := hmay
  obtain ⟨p, hp⟩ := argMax_isSome (f := fun p => s.idle (s.clusterAt p)) (round_ne_nil hne)
  obtain ⟨hmem, hmost⟩ := argMax_of_pairwise (R := s.inRound (s.rcd r)) hp (Nat.le_refl _) (pairwise_round s (s.rcd r))
  have hchoice := (mem_round s _ p).1 hmem
  have hcores : (List.range 8).filter (s.coreOk (s.rcd r) (s.clusterAt p)) ≠ [] := by
    have := (List.mem_filter.1 hchoice).2
    simpa [List.filter_eq_nil_iff] using this
  obtain ⟨k, hk⟩ := argMax_isSome (f := fun k => (s.freeThreads (s.clusterAt p) k).length) hcores
  obtain ⟨hkmem, hkmost⟩ := argMax_of_pairwise hk (le_refl k) ((List.pairwise_lt_range.imp le_of_lt).filter _)
  obtain ⟨hk8, hok⟩ := List.mem_filter.1 hkmem
  obtain ⟨hthreads, hown⟩ := freeThreads_spec s (s.clusterAt p) (List.mem_range.1 hk8)
  obtain ⟨t, rest, hfree⟩ : ∃ t rest, s.freeThreads (s.clusterAt p) k = t :: rest := by
    refine List.exists_cons_of_ne_nil fun h => ?_
    simp [State.coreOk, h] at hok
  obtain ⟨hcluster, hcore, hidle⟩ := hown t (by rw [hfree]; exact List.mem_cons_self)
  refine ⟨p, t, ⟨hchoice, hcluster.symm, ?_, ?_, ?_, ?_, ?_, hidle⟩, ?_⟩
  · rw [hcluster]
    exact fun q hq => hmost q ((mem_round s _ q).2 hq)
  · rw [hcluster, hcore]; exact hok
  · rw [hcluster, hcore]
    exact fun j hj hjok => hkmost j (List.mem_filter.2 ⟨List.mem_range.2 hj, hjok⟩)
  · rw [hcluster, hcore, hfree]; exact List.mem_cons_self
  · rw [hcluster, hcore, hfree]
    rw [hfree] at hthreads
    intro v hv
    obtain rfl | hv := List.mem_cons.1 hv
    · exact le_refl _
    · exact le_of_lt ((List.pairwise_cons.1 hthreads).1 v hv)
  · unfold State.dispatchLane
    simp only [Nat.one_ne_zero, if_false, hgoing, hnext, List.contains_eq_mem, hsound, decide_false, Bool.false_eq_true]
    simp only [State.idle, State.round] at hp
    simp only [hp, hk, hfree]

/-! ### The dispatch (R103, R104) -/

/-- A record that is sent to thread `t`. -/
def Rec.dispatched (x : Rec) (t : Nat) : Rec :=
  { x with st := .running, gen := x.gen + 1, thread := BitVec.ofNat 12 t, replay := none, aged := false
           refused := x.replay.map (fun n => (n, x.thread)) }

/-- What the dispatch of record `r` tells thread `t`. -/
def dispatchOf (x : Rec) (r t : Nat) : DispatchMsg :=
  { thread := t, record := r, gen := x.gen + 1, tag := x.accord.toNat, prio := BitVec.ofNat 2 (x.prio.toNat / 2), role := x.role, task := x.task
    noDomain := !x.placed, passed := x.passed, released := x.released, disp := x.disp, taskId := x.taskId }

theorem dispatchTo_effects (s : State) (r p t : Nat) :
    (s.dispatchTo r p t).rcd r = (s.rcd r).dispatched t ∧ otherRecords s (s.dispatchTo r p t) r
      ∧ (s.dispatchTo r p t).seq.busy = s.seq.busy ++ [t] ∧ (s.dispatchTo r p t).seq.chosen = s.seq.chosen ++ [t / 128]
      ∧ Store.get 0 (s.dispatchTo r p t).seq.rr (s.rcd r).role = (p + 1) % 24
      ∧ (s.dispatchTo r p t).net = s.net ++ [⟨26, t / 128, .dispatch (dispatchOf (s.rcd r) r t)⟩] := by
  have hseq : (s.dispatchTo r p t).seq = { (s.modRec r (·.dispatched t)).seq with
      busy := s.seq.busy ++ [t], chosen := s.seq.chosen ++ [t / 128], rr := Store.set 0 s.seq.rr (s.rcd r).role ((p + 1) % 24) } := by
    unfold State.dispatchTo
    dsimp only
    split <;> (rw [State.send_seq, State.traceRec_seq]; rfl)
  have hnet : (s.dispatchTo r p t).net = s.net ++ [⟨26, t / 128, .dispatch (dispatchOf (s.rcd r) r t)⟩] := by
    unfold State.dispatchTo
    dsimp only
    split <;> exact congrArg (· ++ _) (by rw [State.traceRec_net]; rfl)
  have hrcd : ∀ k, (s.dispatchTo r p t).rcd k = (s.modRec r (·.dispatched t)).rcd k := fun k => by unfold State.rcd; rw [hseq]
  refine ⟨by rw [hrcd, State.rcd_modRec_same], fun k hk => by rw [hrcd, State.rcd_modRec, if_neg hk], ?_, ?_, ?_, hnet⟩ <;> rw [hseq]
  exact Store.get_set_same _ _ _ _

section
variable {s : State} {lane : Nat} (hlane : lane < 4) (hup : s.up 26 = true)
include hlane hup

theorem exec_atomizerDispatch : exec (.atomizerDispatch lane) s = .next (s.dispatchLane lane).watch :=
  congrArg answer (if_pos (by simp [hlane, hup]))

/-- A lane works as any other does once lane 0 has begun the cycle (log 14). -/
theorem exec_atomizerDispatch_begun :
    exec (.atomizerDispatch lane) s =
      .next ((if lane = 0 then { s with seq := { s.seq with chosen := [], stopped := false } } else s).dispatchLane 1).watch := by
  rw [exec_atomizerDispatch hlane hup]
  split
  · subst lane; rfl
  next h => simp only [State.dispatchLane, if_neg h, Nat.one_ne_zero, if_false]

end

theorem atomizerDispatchesTheNextRecord : Claims.AtomizerDispatchesTheNextRecord := by
  unfold Claims.AtomizerDispatchesTheNextRecord
  refine ⟨fun s lane r hlane hup honce => ?_, fun s r q h hq hqueued hheld hchoice honce => nextRecord_first h hq hqueued hheld hchoice honce,
    fun s lane hlane hup => ?_, fun s r hr hup hqueued => congrArg answer (if_pos ⟨hr, hup, hqueued⟩)⟩
  · have hexec := exec_atomizerDispatch_begun hlane hup
    obtain ⟨c, b, hs'⟩ : ∃ c b, (if lane = 0 then { s with seq := { s.seq with chosen := [], stopped := false } } else s)
        = { s with seq := { s.seq with chosen := c, stopped := b } } := by
      split
      · exact ⟨_, _, rfl⟩
      · exact ⟨s.seq.chosen, s.seq.stopped, rfl⟩
    rw [hs'] at hexec ⊢
    dsimp only
    intro hgoing hnext hsound
    obtain ⟨p, t, hgoes, hlane1⟩ := dispatchLane_of_next (s := { s with seq := { s.seq with chosen := c, stopped := b } }) honce hgoing hnext hsound
    rw [hlane1] at hexec
    obtain ⟨hrcd, hothers, hbusy, hchosen, hrr, hnet⟩ := dispatchTo_effects { s with seq := { s.seq with chosen := c, stopped := b } } r p t
    exact ⟨_, hexec, p, t, hgoes.choice, hgoes.cluster, hgoes.most, hgoes.core, hgoes.mostOfCore, hgoes.free, hgoes.first, hgoes.idle, hrr,
      hrcd, hothers, hbusy, hchosen, _, hnet, rfl, rfl, rfl, rfl, rfl, rfl, rfl, rfl, rfl, rfl, rfl, rfl⟩
  · dsimp only
    intro hgoing hnone
    rw [gives, exec_atomizerDispatch_begun hlane hup]
    generalize (if lane = 0 then { s with seq := { s.seq with chosen := [], stopped := false } } else s) = s' at *
    simp only [State.dispatchLane, Nat.one_ne_zero, if_false, hgoing, hnone, Bool.false_eq_true]

end Sys2Proof.Machine
end

section
/-! Dispatches at their threads, and at the boundary of a cluster that refuses them (R19, R23, R61, R105, R111). -/

namespace Sys2Proof.Machine

open Sys2Proof.Claims

/-! ### The frame of a dispatch (R61) -/

theorem length_dispatchRecord (d : Disp) : (dispatchRecord d).length = 0x70 := by simp [dispatchRecord, slice]

/-- A byte of a packet's header as a dispatch carries it: zero beyond the packet's length and in an uncorrectable word. -/
def headerByte (s : State) (d : Disp) (i : Nat) : Byte :=
  if d.metaw.toNat % 16384 ≤ i ∨ cellAddr (s.desc (handleDesc d.handle)).cells i / 64 ∈ s.pools.badCell then 0
  else mget s.pools.cells (cellAddr (s.desc (handleDesc d.handle)).cells i)

theorem headerWindow_task (s : State) (d : Disp) : (s.headerWindow d true).1 = List.replicate 512 0 := rfl

theorem headerWindow_packet (s : State) (d : Disp) : (s.headerWindow d false).1 = (List.range 512).map (headerByte s d) := by
  unfold State.headerWindow
  rw [if_neg Bool.false_ne_true]
  dsimp only
  rw [List.map_inj_left]
  intro i hi
  have hi := List.mem_range.1 hi
  unfold headerByte
  rw [← ite_not]
  refine if_congr ?_ rfl rfl
  simp only [handleDesc, List.contains_eq_mem, decide_eq_true_eq, not_and_or, not_not]
  exact or_congr_left (by omega)

theorem length_headerWindow (s : State) (d : Disp) (task : Bool) : (s.headerWindow d task).1.length = 512 := by
  cases task
  · rw [headerWindow_packet, List.length_map, List.length_range]
  · rw [headerWindow_task, List.length_replicate]

/-- The header window's first bytes are the packet's; a task has none. -/
theorem getD_headerWindow (s : State) (d : Disp) (task : Bool) {i : Nat} (hi : i < 64) :
    ((s.headerWindow d task).1.take 64).getD i 0 =
      if task = true ∨ d.metaw.toNat % 16384 ≤ i ∨ cellAddr (s.desc (handleDesc d.handle)).cells i / 64 ∈ s.pools.badCell then 0
      else mget s.pools.cells (cellAddr (s.desc (handleDesc d.handle)).cells i) := by
  have hwin : i < 512 := by omega
  rw [List.getD_eq_getElem?_getD, List.getElem?_take_of_lt hi]
  cases task
  · rw [headerWindow_packet, List.getElem?_map, List.getElem?_range hwin]
    simp [headerByte]
  · rw [headerWindow_task, List.getElem?_replicate, if_pos hwin]
    simp

/-- The frame that a dispatch leaves: the dispatch record and the first 64 bytes of the header window, over what stood there. -/
def dispatchFrame (f : Mem) (d : Disp) (win : List Byte) : Mem := mwrite (mwrite f 0x580 (dispatchRecord d)) 0x600 (win.take 64)

section
variable (f : Mem) (d : Disp) {win : List Byte}

theorem mget_dispatchFrame_below {a : Nat} (ha : a < 0x580) : mget (dispatchFrame f d win) a = mget f a := by
  unfold dispatchFrame
  rw [mget_mwrite_outside _ _ _ _ (by omega), mget_mwrite_outside _ _ _ _ (by omega)]

theorem mget_dispatchFrame_record {o : Nat} (ho : o < 0x70) : mget (dispatchFrame f d win) (0x580 + o) = (dispatchRecord d).getD o 0 := by
  unfold dispatchFrame
  rw [mget_mwrite_outside _ _ _ _ (by omega), mget_mwrite_inside _ _ _ _ (by rw [length_dispatchRecord]; exact ho)]

theorem mget_dispatchFrame_window (hwin : win.length = 512) {i : Nat} (hi : i < 64) : mget (dispatchFrame f d win) (0x600 + i) = (win.take 64).getD i 0 := by
  unfold dispatchFrame
  exact mget_mwrite_inside _ _ _ _ (by rw [List.length_take, hwin]; omega)

end

/-! ### The thread that takes it up (R111) -/

/-- The thread that a dispatch starts, from what it held before. -/
def startedThread (s : State) (m : DispatchMsg) (x : Thread) : Thread :=
  { regs := { acc := m.disp.metaw, xa := if m.task then 0 else m.disp.handle, xb := BitVec.ofNat 32 m.record, fl := 0
              frame := dispatchFrame x.regs.frame m.disp (s.headerWindow m.disp m.task).1 }
    pc := BitVec.ofNat 16 (bankWord s m.tag (if m.task then 0x40 else m.role % 64)), busy := true, prio := m.prio, record := m.record
    gen := m.gen, accord := m.tag, passed := m.passed, released := m.released, noDomain := m.noDomain, task := m.task, stores := x.stores
    delivered := 64, window := (s.headerWindow m.disp m.task).1.drop 64 }

/-- The reports of damaged cells and the POISON token change no thread. -/
theorem th_startThread (s : State) (c : Nat) (m : DispatchMsg) (k : Nat) :
    (s.startThread c m).th k = if k = m.thread then startedThread s m (s.th m.thread) else s.th k := by
  unfold State.startThread
  dsimp only
  split
  · exact State.th_modTh s m.thread k _
  · refine (foldl_keeps (fun u : State => u.th k) _ (fun u e => by simp) _ _).trans ?_
    exact State.th_modTh s m.thread k _

theorem exec_threadDispatch {s : State} {c : Nat} {m : DispatchMsg} (hc : c < 26) (hm : s.arrive 26 c = some (.dispatch m)) :
    exec (.threadDispatch c) s = .next (if c ∈ s.seq.noticed then s else (s.taken 26 c).startThread c m).watch := by
  have hexec : exec (.threadDispatch c) s = .next (s.threadDispatch c).watch := congrArg answer (if_pos hc)
  rw [hexec, State.threadDispatch, hm]
  simp only [List.contains_eq_mem, decide_eq_true_eq]

/-! ### A dispatch refused (R19, R105) -/

theorem givesSome_crossingRefused_dispatch {s : State} {c : Nat} {d : DispatchMsg} (hc : c < 26) (hrefuses : s.refuses c = true)
    (hm : s.oldest 26 c = some (.dispatch d)) (hgen : (s.rcd d.record).gen = d.gen) (hrun : (s.rcd d.record).st = .running) :
    givesSome (.crossingRefused 26 c) s (fun u =>
      u.rcd d.record = { s.rcd d.record with st := .queued, replay := (s.rcd d.record).refused.map (·.1),
                                             thread := ((s.rcd d.record).refused.map (·.2)).getD (s.rcd d.record).thread, refused := none }
        ∧ otherRecords s u d.record ∧ d.thread ∉ u.seq.busy
        ∧ u.net = dropCrossing 26 c s.net ∧ u.clusters = s.clusters) := by
  have hexec : exec (.crossingRefused 26 c) s = .next (s.refuseOldest 26 c).watch :=
    congrArg answer (if_pos (by simp [hrefuses]; omega))
  refine ⟨_, hexec, ?_⟩
  rw [State.refuseOldest, hm]
  dsimp only [State.refuse, State.undispatch]
  rw [if_pos (by simpa [State.current, State.rcd] using ⟨hgen, hrun⟩)]
  exact ⟨State.rcd_modRec_same _ _ _, otherRecords_modRec s d.record _, fun h => by simpa using (List.mem_filter.1 h).2, rfl, rfl⟩

theorem dispatchesReachTheirThreads : Claims.DispatchesReachTheirThreads := by
  unfold Claims.DispatchesReachTheirThreads
  refine ⟨fun s c m hc _ hm hserves => ⟨_, exec_threadDispatch hc hm, ?_⟩, fun s c m hc hm hnoticed => ?_, fun s id hlives => ?_,
    fun s c d hc hrefuses hm hgen hrun => givesSome_crossingRefused_dispatch hc hrefuses hm hgen hrun⟩
  · rw [if_neg hserves]
    have hth := th_startThread (s.taken 26 c) c m
    have hwin := length_headerWindow s m.disp m.task
    simp only [State.th_after_watch, hth, if_true]
    refine ⟨rfl, rfl, rfl, rfl, rfl, rfl, rfl, rfl, rfl, rfl, rfl, rfl, rfl, rfl, rfl, rfl, fun a ha => ?_, fun o ho => ?_, fun i hi => ?_,
      fun k hk => if_neg hk⟩
    · exact mget_dispatchFrame_below _ _ ha
    · exact mget_dispatchFrame_record _ _ ho
    · exact (mget_dispatchFrame_window _ _ hwin hi).trans (getD_headerWindow s m.disp m.task hi)
  · rw [gives, exec_threadDispatch hc hm, if_pos hnoticed]
  · dsimp only
    intro hbusy hwindow
    have hexec : exec (.headerBytesArrive id) s = .next (s.headerBytes (threadNo id)).watch :=
      congrArg answer (if_pos (by simpa [lives] using hlives))
    refine ⟨_, hexec, ?_⟩
    rw [State.headerBytes]
    dsimp only
    rw [if_pos (by simp [hbusy, hwindow])]
    refine ⟨State.th_modTh_same _ _ _, fun k hk => (State.th_modTh _ _ _ _).trans (if_neg hk), clustersSame_of_still fun c => ?_, ?_⟩
    · exact s.still_modTh _ _ _
    · exact State.eq_of_outer (State.outer_watch _)

/-- Settles O18: the record and the thread by `dispatchLane_of_next`, the start by `th_startThread`, a refusal by its own rule. -/
theorem recordsAreDispatchedToThreads : Obligations.RecordsAreDispatchedToThreads :=
  ⟨atomizerDispatchesTheNextRecord, dispatchesReachTheirThreads⟩

end Sys2Proof.Machine
end

section
/-! Branches, returns from a trap and NOP, as a thread executes them (R117, R156, R176, R188, R189). -/

namespace Sys2Proof.Machine

open Sys2Proof.Claims

/-! ### What decode and readiness say of a ready syllable -/

theorem givesSome_mono {i : Instr} {s : State} {p q : State → Prop} (h : givesSome i s p) (hpq : ∀ u, p u → q u) : givesSome i s q := by
  obtain ⟨u, hexec, hp⟩ := h
  exact ⟨u, hexec, hpq u hp⟩

section
variable {s : State} {y : Syl} {cls op : Nat}

/-- A ready syllable that is no custom one obeys its row's layout (R171). -/
theorem fieldsOk_of_ready (h : Ready s y cls op) (hcustom : (sylRaw y cls op).custom = false) : (sylRaw y cls op).fieldsOk = true := by
  obtain ⟨-, -, -, -, -, -, hdecode, -⟩ := h
  by_contra hfields
  rw [Bool.not_eq_true] at hfields
  simp only [decodeFrom, hcustom, hfields] at hdecode
  split at hdecode
  · split at hdecode <;> cases hdecode
  · simp only [Bool.false_eq_true, if_false, Bool.not_false, if_true] at hdecode
    split at hdecode <;> cases hdecode

/-- The near bytes that a ready syllable touches are not awaited from a helper (R212). -/
theorem helperPends_of_ready (h : Ready s y cls op) {a n : Nat} (hmem : (a, n) ∈ touches s (tidOf y) (s.th (tidOf y)).regs (sylRaw y cls op)) :
    helperPends s (tidOf y) a n = false := by
  obtain ⟨-, -, -, -, -, -, -, hready, -⟩ := h
  simp only [bundleReady, Bool.and_eq_true, List.all_cons, List.all_nil, Bool.and_true] at hready
  obtain ⟨⟨⟨⟨-, hbytes⟩, -⟩, -⟩, -⟩ := hready
  have hpair := List.all_eq_true.1 hbytes _ hmem
  simp only [Bool.and_eq_true, Bool.not_eq_true'] at hpair
  exact hpair.2

/-- A syllable kept to the non-speculative point is ready under no unresolved branch (R118). -/
theorem branches_of_ready (h : Ready s y cls op) (hspec : nonSpec (s.th (tidOf y)).regs (sylRaw y cls op) = true) :
    (s.th (tidOf y)).branches = [] := by
  obtain ⟨-, -, -, -, -, -, -, hready, -⟩ := h
  simp only [bundleReady, Bool.and_eq_true] at hready
  obtain ⟨⟨⟨⟨⟨-, hplain⟩, -⟩, -⟩, -⟩, -⟩ := hready
  simpa [hspec, Thread.plain] using hplain

end

/-! ### Branch conditions (R156) -/

/-- For every code but the reserved one, the model's condition is that of the spec's pairs. -/
theorem condHolds_eq_condition : ∀ (code : Fin 16) (f : Fl), code ≠ 1 → condHolds code f = condition code f := by decide

theorem RawSyl.f_lt (z : RawSyl) (hi lo : Nat) : z.f hi lo < 2 ^ (hi + 1 - lo) := Nat.mod_lt _ (Nat.two_pow_pos _)

/-- A BR or BRI that decodes has an assigned condition (R156, R171). -/
theorem condHolds_of_ready {s : State} {y : Syl} {op : Nat} (h : Ready s y 3 op) (hop : op = 0x01 ∨ op = 0x02) (f : Fl) :
    condHolds ((sylRaw y 3 op).f 21 18) f = condition ((sylRaw y 3 op).f 21 18) f := by
  have hok : bFieldsOk (sylRaw y 3 op) = true := by
    obtain rfl | rfl := hop <;> exact fieldsOk_of_ready h rfl
  have hassigned : (sylRaw y 3 op).f 21 18 ≠ 1 := by
    obtain rfl | rfl := hop <;> exact of_decide_eq_true (Bool.and_eq_true_iff.1 hok).1
  exact condHolds_eq_condition ⟨_, (sylRaw y 3 op).f_lt 21 18⟩ f (fun he => hassigned (congrArg Fin.val he))

/-- A branch target is the low 16 bits of FIELDS. -/
theorem target_eq (z : RawSyl) : BitVec.ofNat 16 (z.f 15 0) = z.fields.setWidth 16 := by
  apply BitVec.eq_of_toNat_eq
  simp [RawSyl.f, bits]

/-! ### The bundle of a branch (R117) -/

theorem length_branches_countBundle (s : State) (t n : Nat) : ((s.countBundle t n).th t).branches.length = (s.th t).branches.length := by
  unfold State.countBundle
  split
  · simp
  next b rest hrev =>
    have hlen := congrArg List.length hrev
    rw [State.th_modTh_same]
    simpa using hlen.symm

/-- The thread as its only syllable takes effect: it holds no syllable, and has as many branches as before. -/
theorem th_runReady_branches {s : State} {t : Nat} (n : Nat) (hbusy : (s.th t).busy = true) (hwait : (s.th t).wait = .none)
    (hbundle : (s.th t).bundle = []) :
    ∃ bs : List Branch, bs.length = (s.th t).branches.length ∧
      (s.runReady t n).th t = { s.th t with branches := bs, waitSyls := [], bpPass := false } :=
  ⟨_, length_branches_countBundle s t n, by rw [State.th_runReady s t n hbusy]; simp only [hwait, hbundle]⟩

/-- The thread goes past a bundle that ends with the branch `b`, whose snapshot is of the registers after the bundle. -/
def State.pastBranch (s : State) (t : Nat) (next : BitVec 16) (bs : List Branch) (b : Branch) : State :=
  (s.modTh t (fun x => { x with pc := next })).modTh t (fun x => { x with branches := bs ++ [{ b with regs := x.regs }] })

theorem th_pastBranch {w : State} {t : Nat} {x : Thread} {bs : List Branch} {b : Branch} (next : BitVec 16)
    (hth : w.th t = { x with branches := bs ++ [b], waitSyls := [], bpPass := false }) :
    (w.pastBranch t next bs b).th t =
      { x with pc := next, branches := bs ++ [{ b with regs := x.regs }], waitSyls := [], bpPass := false } := by
  rw [State.pastBranch, State.th_modTh_same, State.th_modTh_same, hth]

theorem th_pastBranch_other (s : State) {t k : Nat} (next : BitVec 16) (bs : List Branch) (b : Branch) (hk : k ≠ t) :
    (s.pastBranch t next bs b).th k = s.th k := by
  rw [State.pastBranch, State.th_modTh, if_neg hk, State.th_modTh, if_neg hk]

theorem still_pastBranch (s : State) (t c : Nat) (next : BitVec 16) (bs : List Branch) (b : Branch) :
    ((s.pastBranch t next bs b).cl c).still = (s.cl c).still := by
  rw [State.pastBranch, State.still_modTh, State.still_modTh]

theorem outer_pastBranch (s : State) (t : Nat) (next : BitVec 16) (bs : List Branch) (b : Branch) :
    (s.pastBranch t next bs b).outer = s.outer := by
  rw [State.pastBranch, State.outer_modTh, State.outer_modTh]

theorem runBundle_branch {s w : State} {t : Nat} {z : RawSyl} {bs : List Branch} {b : Branch} (hcls : z.cls = 3) (hlo : 1 ≤ z.o)
    (hhi : z.o ≤ 5) (heffect : execSyl t (s.th t).regs (addrAfter (s.th t).pc 1) (s.runReady t (slotsOf [z])) z = w)
    (hbranch : (w.th t).branches = bs ++ [b]) : s.runBundle t [z] = w.pastBranch t (addrAfter (s.th t).pc 1) bs b := by
  have hrtt : z.isB 0x06 = false := by
    have hne : z.o ≠ 6 := by omega
    simp [RawSyl.isB, hne]
  have hends : (z.cls == 3 && 1 ≤ z.o && z.o ≤ 5) = true := by simp [hcls, hlo, hhi]
  have hrev : ((w.modTh t (fun x => { x with pc := addrAfter (s.th t).pc 1 })).th t).branches.reverse = b :: bs.reverse := by
    rw [State.th_modTh_same]
    simp [hbranch]
  unfold State.runReady at heffect
  unfold State.runBundle
  simp only [List.length_singleton, List.foldl_cons, List.foldl_nil, List.getLast?_singleton, Option.any_some, hrtt, hends]
  simp only [heffect, Bool.false_eq_true, if_false, hrev]
  simp [State.pastBranch]

theorem opIn {y : Syl} {op : Nat} (h : 1 ≤ op ∧ op ≤ 5) : 1 ≤ (sylRaw y 3 op).o ∧ (sylRaw y 3 op).o ≤ 5 := by
  have hop : (sylRaw y 3 op).o = op := Nat.mod_eq_of_lt (by omega)
  rwa [hop]

/-- A branch whose bundle leaves the thread with registers `q`: the thread is past it, it is the newest, and the rest is as its effect
leaves it. -/
theorem givesSome_branch {s w : State} {y : Syl} {op : Nat} {i : Instr} {bs : List Branch} {b : Branch} {q : Regs}
    (h : Executes s y 3 op) (hop : 1 ≤ (sylRaw y 3 op).o ∧ (sylRaw y 3 op).o ≤ 5) (hexec : exec i s = answer (s.syllable y 3 op))
    (heffect : execSyl (tidOf y) (s.th (tidOf y)).regs (addrAfter (s.th (tidOf y)).pc 1)
      (s.runReady (tidOf y) (slotsOf [sylRaw y 3 op])) (sylRaw y 3 op) = w)
    (hth : w.th (tidOf y) = { s.th (tidOf y) with regs := q, branches := bs ++ [b], waitSyls := [], bpPass := false })
    (hlen : bs.length = (s.th (tidOf y)).branches.length) (hothers : othersSame s w (tidOf y)) :
    givesSome i s (fun u => past s u (tidOf y) { s.th (tidOf y) with regs := q } ∧ branchedAs s u (tidOf y) { b with regs := q }
      ∧ (∀ c, (u.cl c).still = (w.cl c).still) ∧ u.outer = w.outer) := by
  have hrun := runBundle_branch (s := s) (t := tidOf y) (z := sylRaw y 3 op) rfl hop.1 hop.2 heffect (congrArg Thread.branches hth)
  refine ⟨_, hexec.trans (congrArg answer ((syllable_of_executes h).trans hrun)), ?_⟩
  generalize tidOf y = t at *
  have hafter := th_pastBranch (x := { s.th t with regs := q }) (addrAfter (s.th t).pc 1) hth
  refine ⟨⟨?_, fun k hk => ?_⟩, ⟨?_, ?_⟩, fun c => ?_, ?_⟩
  · rw [State.th_after_watch, hafter]
    rfl
  · rw [State.th_after_watch, th_pastBranch_other w _ bs b hk, hothers k hk]
  · rw [State.th_after_watch, hafter]
    simp [hlen]
  · rw [State.th_after_watch, hafter]
    simp
  · rw [State.still_watch, still_pastBranch]
  · rw [State.outer_watch, outer_pastBranch]

/-! ### Branches without a link (R156, R188, R189) -/

/-- A branch held: the newest, with the registers as they stand. -/
def State.holdBranch (s : State) (t : Nat) (b : Branch) : State :=
  s.modTh t (fun x => { x with branches := x.branches ++ [{ b with regs := x.regs }] })

section
variable {s : State} {y : Syl} {op : Nat} {i : Instr}

theorem givesSome_holdBranch {b : Branch} (h : Executes s y 3 op) (hop : 1 ≤ (sylRaw y 3 op).o ∧ (sylRaw y 3 op).o ≤ 5)
    (hexec : exec i s = answer (s.syllable y 3 op))
    (heffect : ∀ v : State, execSyl (tidOf y) (s.th (tidOf y)).regs (addrAfter (s.th (tidOf y)).pc 1) v (sylRaw y 3 op) = v.holdBranch (tidOf y) b) :
    givesSome i s (fun u => past s u (tidOf y) (s.th (tidOf y)) ∧ branchedAs s u (tidOf y) { b with regs := (s.th (tidOf y)).regs }
      ∧ clustersSame s u ∧ outsideSame s u) := by
  obtain ⟨hbusy, hwait, hbundle⟩ := thread_of_ready h.1
  obtain ⟨bs, hlen, hready⟩ := th_runReady_branches (slotsOf [sylRaw y 3 op]) hbusy hwait hbundle
  refine givesSome_mono (givesSome_branch (b := { b with regs := (s.th (tidOf y)).regs }) (q := (s.th (tidOf y)).regs) h hop hexec
      (heffect _) ?_ hlen fun k hk => ?_)
    fun u ⟨hpast, hbranch, hstill, houter⟩ => ⟨hpast, hbranch, clustersSame_of_still fun c => (hstill c).trans ?_,
      State.eq_of_outer (houter.trans (s.outer_runReady _ _))⟩
  · rw [State.holdBranch, State.th_modTh_same, hready]
  · rw [State.holdBranch, State.th_modTh, if_neg hk, s.th_runReady_other _ hk]
  · rw [State.holdBranch, State.still_modTh, State.still_runReady]

end

theorem givesSome_branchRow {s : State} {y : Syl} {row : (Syl → Instr) × Nat × (State → Nat → RawSyl → Bool) × (Regs → RawSyl → BitVec 16)}
    (hrow : row ∈ branchRows) (h : Executes s y 3 row.2.1) :
    let t := tidOf y
    let z := sylRaw y 3 row.2.1
    givesSome (row.1 y) s (fun u =>
      past s u t (s.th t) ∧ branched s u t (row.2.2.1 s t z) (row.2.2.2 (s.th t).regs z) (s.th t).regs ∧ clustersSame s u ∧ outsideSame s u) := by
  dsimp only [branched]
  simp only [branchRows, List.mem_cons, List.not_mem_nil, or_false] at hrow
  obtain rfl | rfl | rfl := hrow
  · refine givesSome_holdBranch (b := { taken := _, target := _, regs := {} }) h (opIn (by decide)) rfl fun v => ?_
    dsimp only
    rw [← condHolds_of_ready h.1 (.inl rfl), ← target_eq]
    rfl
  · refine givesSome_holdBranch (b := { taken := _, target := _, regs := {} }) h (opIn (by decide)) rfl fun v => ?_
    dsimp only
    rw [← condHolds_of_ready h.1 (.inr rfl)]
    rfl
  · exact givesSome_holdBranch (b := { taken := _, target := _, regs := {} }) h (opIn (by decide)) rfl fun v => rfl

theorem givesSome_bhb {s : State} {y : Syl} (h : Executes s y 3 0x05) :
    let t := tidOf y
    let z := sylRaw y 3 0x05
    givesSome (.bhb y) s (fun u =>
      past s u t (s.th t) ∧ branchedAs s u t { taken := false, target := z.fields.setWidth 16, regs := (s.th t).regs, bhb := some (BitVec.ofNat 3 (z.f 21 19)) }
        ∧ clustersSame s u ∧ outsideSame s u) := by
  refine givesSome_holdBranch (b := { taken := false, target := (sylRaw y 3 0x05).fields.setWidth 16, regs := {}, bhb := _ }) h
    (opIn (by decide)) rfl fun v => ?_
  rw [← target_eq]
  rfl

/-! ### Near bytes written (R144, R158) -/

@[simp] theorem State.outer_nearWrite (s : State) (t a : Nat) (l : List Byte) : (s.nearWrite t a l).outer = s.outer := by
  unfold State.nearWrite
  dsimp only
  split <;> rfl

theorem region_of_frame {a : Nat} (h : a < 0x800) : region a = .frame a := if_pos h

/-- Bytes written in the frame are the thread's own. -/
theorem State.th_nearWrite_frame (s : State) (t k : Nat) {a : Nat} (l : List Byte) (h : a < 0x800) :
    (s.nearWrite t a l).th k = if k = t then { s.th t with regs := { (s.th t).regs with frame := mwrite (s.th t).regs.frame a l } } else s.th k := by
  unfold State.nearWrite
  rw [region_of_frame h]
  exact (State.th_modCl _ _ k _ rfl).trans (s.th_modTh t k _)

/-- A cluster but for its threads, its issue pointers and its marks. -/
def Cluster.unmarked (c : Cluster) : Cluster := { c with thread := [], rrIssue := [], bad := [] }

theorem Cluster.unmarked_of_still {a b : Cluster} (h : a.still = b.still) : a.unmarked = b.unmarked :=
  (congrArg (fun c : Cluster => { c with bad := [] }) h :)

theorem clustersSameButMarks_of_unmarked {s u : State} (h : ∀ c, (u.cl c).unmarked = (s.cl c).unmarked) : clustersSameButMarks s u := h

theorem State.unmarked_nearWrite_frame (s : State) (t c : Nat) {a : Nat} (l : List Byte) (h : a < 0x800) :
    ((s.nearWrite t a l).cl c).unmarked = (s.cl c).unmarked := by
  unfold State.nearWrite
  rw [region_of_frame h]
  dsimp only
  rw [State.cl_modCl]
  split
  next hc =>
    subst hc
    have hstill := s.still_modTh t (t / 128) (fun x => { x with regs := { x.regs with frame := mwrite x.regs.frame a l } })
    have hsame := Cluster.unmarked_of_still hstill
    exact hsame
  next => exact Cluster.unmarked_of_still (s.still_modTh t c _)

/-- Bytes that no helper operation will write need no cover. -/
theorem State.coverHops_of_free {s : State} {t a room : Nat} (n : Nat) (h : helperPends s t a room = false) : s.coverHops t a room n = s :=
  if_neg (by simp [h])

theorem helperPends_runReady (s : State) (t n a k : Nat) : helperPends (s.runReady t n) t a k = helperPends s t a k := by
  unfold helperPends
  rw [Cluster.still_hops (s.still_runReady t n (t / 128))]

theorem getD_leBytes {n i : Nat} (v : Nat) (h : i < n) : (leBytes n v).getD i 0 = BitVec.ofNat 8 (v / 256 ^ i) := by
  induction n generalizing v i with
  | zero => exact absurd h (Nat.not_lt_zero i)
  | succ n ih =>
    cases i with
    | zero => simp [leBytes]
    | succ i =>
      have hstep := ih (v / 256) (Nat.lt_of_succ_lt_succ h)
      rw [Nat.div_div_eq_div_mul, ← pow_succ'] at hstep
      simpa [leBytes] using hstep

theorem storedAt_mwrite_leBytes (m : Mem) (a n v : Nat) : storedAt m (mwrite m a (leBytes n v)) a n v := by
  intro k
  split
  next hin =>
    obtain ⟨i, rfl⟩ := Nat.exists_eq_add_of_le hin.1
    have hi : i < (leBytes n v).length := by rw [length_leBytes]; omega
    rw [mget_mwrite_inside _ _ _ _ hi, Nat.add_sub_cancel_left, getD_leBytes v (by omega)]
  next hout => exact mget_mwrite_outside _ _ _ _ (by rw [length_leBytes]; omega)

/-! ### CALL (R176, R188) -/

/-- The link slot of a CALL or RET. -/
def linkSlot (z : RawSyl) : Nat := 0x570 + 2 * z.f 18 16

theorem linkSlot_lt (z : RawSyl) : linkSlot z < 0x800 := by
  have := z.f_lt 18 16
  unfold linkSlot
  omega

theorem execSyl_call (y : Syl) (v : State) (t : Nat) (r : Regs) (next : BitVec 16) :
    execSyl t r next v (sylRaw y 3 0x03) =
      State.holdBranch ((v.coverHops t (linkSlot (sylRaw y 3 0x03)) 2 2).nearWrite t (linkSlot (sylRaw y 3 0x03)) (leBytes 2 next.toNat)) t
        { taken := true, target := (sylRaw y 3 0x03).fields.setWidth 16, regs := {} } := by
  rw [← target_eq]
  rfl

theorem givesSome_call {s : State} {y : Syl} (h : Executes s y 3 0x03) :
    let t := tidOf y
    let z := sylRaw y 3 0x03
    let r := (s.th t).regs
    givesSome (.call y) s (fun u =>
      past s u t { s.th t with regs := { r with frame := (u.th t).regs.frame } }
        ∧ storedAt r.frame (u.th t).regs.frame (0x570 + 2 * z.f 18 16) 2 ((s.th t).pc + 1).toNat
        ∧ branched s u t true (z.fields.setWidth 16) (u.th t).regs ∧ clustersSameButMarks s u ∧ outsideSame s u) := by
  obtain ⟨hbusy, hwait, hbundle⟩ := thread_of_ready h.1
  obtain ⟨bs, hlen, hready⟩ := th_runReady_branches (slotsOf [sylRaw y 3 0x03]) hbusy hwait hbundle
  have hfree := helperPends_of_ready (a := linkSlot (sylRaw y 3 0x03)) (n := 2) h.1 (List.mem_singleton_self _)
  have heffect := execSyl_call y (s.runReady (tidOf y) (slotsOf [sylRaw y 3 0x03])) (tidOf y) (s.th (tidOf y)).regs
    (addrAfter (s.th (tidOf y)).pc 1)
  rw [State.coverHops_of_free _ ((helperPends_runReady _ _ _ _ _).trans hfree)] at heffect
  have hslot := linkSlot_lt (sylRaw y 3 0x03)
  generalize hframe : mwrite (s.th (tidOf y)).regs.frame (linkSlot (sylRaw y 3 0x03)) (leBytes 2 ((s.th (tidOf y)).pc + 1).toNat) = frame
  refine givesSome_mono (givesSome_branch (q := { (s.th (tidOf y)).regs with frame := frame })
      (b := { taken := true, target := (sylRaw y 3 0x03).fields.setWidth 16, regs := { (s.th (tidOf y)).regs with frame := frame } }) h (opIn (by decide)) rfl heffect ?_ hlen fun k hk => ?_)
    fun u ⟨hpast, hbranch, hstill, houter⟩ => ?_
  · rw [State.holdBranch, State.th_modTh_same, State.th_nearWrite_frame _ _ _ _ hslot, if_pos rfl, hready, ← hframe]
    rfl
  · rw [State.holdBranch, State.th_modTh, if_neg hk, State.th_nearWrite_frame _ _ _ _ hslot, if_neg hk, s.th_runReady_other _ hk]
  · have hregs : (u.th (tidOf y)).regs = { (s.th (tidOf y)).regs with frame := frame } := congrArg Thread.regs hpast.1
    dsimp only [branched]
    rw [hregs]
    refine ⟨hpast, ?_, hbranch, clustersSameButMarks_of_unmarked fun c => ?_, State.eq_of_outer (houter.trans ?_)⟩
    · rw [← hframe]
      exact storedAt_mwrite_leBytes _ _ _ _
    · rw [Cluster.unmarked_of_still (hstill c), State.holdBranch, Cluster.unmarked_of_still (State.still_modTh _ _ _ _),
        State.unmarked_nearWrite_frame _ _ _ _ hslot, Cluster.unmarked_of_still (State.still_runReady _ _ _ _)]
    · rw [State.holdBranch, State.outer_modTh, State.outer_nearWrite, State.outer_runReady]

/-! ### RTT and NOP (R176) -/

/-- The thread returns from its trap handler: PC and FL as its save area has them. -/
def Thread.fromTrap (x : Thread) (r : Regs) : Thread :=
  { x with inTrap := false, pc := frame16 r 0x5F4, regs := { x.regs with fl := BitVec.ofNat 4 (mget r.frame 0x5F7).toNat } }

theorem runBundle_rtt (s : State) (t : Nat) (y : Syl) :
    s.runBundle t [sylRaw y 3 0x06] = (s.runReady t (slotsOf [sylRaw y 3 0x06])).modTh t (·.fromTrap (s.th t).regs) := by
  unfold State.runBundle State.runReady
  rfl

theorem givesSome_rtt {s : State} {y : Syl} (h : Executes s y 3 0x06) :
    let t := tidOf y
    let r := (s.th t).regs
    givesSome (.rtt y) s (fun u =>
      u.th t = { s.th t with inTrap := false, regs := { r with fl := (mget r.frame 0x5F7).setWidth 4 }, pc := BitVec.ofNat 16 (mreadLE r.frame 0x5F4 2), waitSyls := [], bpPass := false }
        ∧ othersSame s u t ∧ clustersSame s u ∧ outsideSame s u) := by
  obtain ⟨hbusy, hwait, hbundle⟩ := thread_of_ready h.1
  have hbranches := branches_of_ready h.1 rfl
  refine ⟨_, congrArg answer ((syllable_of_executes h).trans (runBundle_rtt s _ y)), ?_⟩
  dsimp only
  generalize tidOf y = t at *
  generalize slotsOf [sylRaw y 3 0x06] = n
  obtain ⟨bs, hlen, hready⟩ := th_runReady_branches n hbusy hwait hbundle
  rw [hbranches, List.length_nil, List.length_eq_zero_iff] at hlen
  refine ⟨?_, fun k hk => ?_, clustersSame_of_still fun c => ?_, State.eq_of_outer ?_⟩
  · rw [State.th_after_watch, State.th_modTh_same, hready, hlen, ← hbranches]
    rfl
  · rw [State.th_after_watch, State.th_modTh, if_neg hk, s.th_runReady_other n hk]
  · rw [State.still_watch, State.still_modTh, State.still_runReady]
  · rw [State.outer_watch, State.outer_modTh, State.outer_runReady]

theorem runBundle_nop (s : State) (t : Nat) (y : Syl) :
    s.runBundle t [sylRaw y 3 0x07] =
      (s.runReady t (slotsOf [sylRaw y 3 0x07])).modTh t (fun x => { x with pc := addrAfter (s.th t).pc 1 }) := s.runBundle_single t _ rfl

theorem givesSome_nop {s : State} {y : Syl} (h : Executes s y 3 0x07) :
    givesSome (.nop y) s (fun u => ran s u (tidOf y) (s.th (tidOf y)).regs) := by
  obtain ⟨hbusy, hwait, hbundle⟩ := thread_of_ready h.1
  refine ⟨_, congrArg answer ((syllable_of_executes h).trans (runBundle_nop s _ y)), ?_⟩
  generalize tidOf y = t at *
  generalize slotsOf [sylRaw y 3 0x07] = n
  obtain ⟨b, hready⟩ := th_runReady_of_ready n hbusy hwait hbundle
  exact ⟨past_of_effect hready fun k hk => s.th_runReady_other n hk, clustersSame_of_effect (s.still_runReady t n) _,
    eq_of_effect (s.outer_runReady t n) _⟩

/-- Settles O10: a branch is the newest of its thread's, held with the registers after its bundle; CALL, RTT and NOP by their rules. -/
theorem controlInstructionsHoldTheirOutcome : Obligations.ControlInstructionsHoldTheirOutcome := by
  unfold Obligations.ControlInstructionsHoldTheirOutcome
  exact ⟨fun _ hrow _ _ => givesSome_branchRow hrow, fun _ _ => givesSome_bhb, fun _ _ => givesSome_call, fun _ _ => givesSome_rtt,
    fun _ _ => givesSome_nop⟩

end Sys2Proof.Machine
end

section
/-! WFE and SEV, and the channel instructions, as a thread executes them (R120, R123, R125 to R130). -/

namespace Sys2Proof.Machine

open Sys2Proof.Claims

/-! ### Edges latched (R121, R123) -/

/-- A thread with work latches an edge; a free one takes none. -/
def Thread.latched (x : Thread) (bit : Nat) : Thread := if x.busy then { x with edges := x.edges ||| 1 <<< bit } else x

theorem Thread.latched_of_busy {x : Thread} (h : x.busy = true) (bit : Nat) : x.latched bit = { x with edges := x.edges ||| 1 <<< bit } :=
  if_pos h

theorem Thread.latched_of_free {x : Thread} (h : x.busy = false) (bit : Nat) : x.latched bit = x := if_neg (by simp [h])

/-- An edge latched twice is latched. -/
theorem Thread.latched_latched (x : Thread) (bit : Nat) : (x.latched bit).latched bit = x.latched bit := by
  unfold Thread.latched
  by_cases h : x.busy = true
  · simp [h, BitVec.or_assoc]
  · simp [h]

theorem State.th_edge (s : State) (t bit k : Nat) : (s.edge t bit).th k = if k = t then (s.th t).latched bit else s.th k := by
  unfold State.edge Thread.latched
  split
  · exact s.th_modTh t k _
  · split
    next hk => rw [hk]
    next => rfl

@[simp] theorem State.still_edge (s : State) (t bit c : Nat) : ((s.edge t bit).cl c).still = (s.cl c).still := by
  unfold State.edge
  split <;> simp

@[simp] theorem State.outer_edge (s : State) (t bit : Nat) : (s.edge t bit).outer = s.outer := by
  unfold State.edge
  split <;> rfl

/-- The threads of a list latch the edge, each once however often it is named. -/
theorem State.th_edges (base bit k : Nat) (l : List Nat) : ∀ s : State,
    (l.foldl (fun s u => s.edge (base + u) bit) s).th k = if ∃ u ∈ l, k = base + u then (s.th k).latched bit else s.th k := by
  induction l with
  | nil => intro s; simp
  | cons a l ih =>
    intro s
    rw [List.foldl_cons, ih, State.th_edge]
    by_cases ha : k = base + a
    · subst ha
      simp [Thread.latched_latched]
    · simp [ha]

/-- The threads that SEV names in its cluster. -/
def sevTargets (t : Nat) (xa : W32) : List Nat := if xa.getLsbD 7 then (List.range 128).filter (· != t % 128) else [xa.toNat % 128]

theorem mem_sevTargets (t k : Nat) (xa : W32) : (∃ u ∈ sevTargets t xa, k = t / 128 * 128 + u) ↔ sevNames t xa k := by
  unfold sevTargets sevNames
  by_cases hall : xa.getLsbD 7 = true
  · simp only [hall, if_true, List.mem_filter, List.mem_range, bne_iff_ne, ne_eq]
    constructor
    · rintro ⟨u, ⟨hu, hne⟩, rfl⟩
      constructor <;> omega
    · rintro ⟨hc, hne⟩
      exact ⟨k % 128, ⟨by omega, by omega⟩, by omega⟩
  · simp only [hall, List.mem_singleton, exists_eq_left, Bool.false_eq_true, if_false]
    constructor <;> intro h <;> omega

/-- SEV names its own thread where XA [7:0] is the thread's number. -/
theorem sevNames_self (t : Nat) (xa : W32) : sevNames t xa t ↔ xa.toNat % 256 = t % 128 := by
  have hbit : xa.getLsbD 7 = decide (xa.toNat / 128 % 2 = 1) := Nat.testBit_eq_decide_div_mod_eq
  unfold sevNames
  rw [hbit]
  by_cases hall : xa.toNat / 128 % 2 = 1
  · simp only [hall, decide_true, if_true, ne_eq, not_true_eq_false, and_false, false_iff]
    omega
  · simp only [hall, decide_false, Bool.false_eq_true, if_false, true_and]
    omega

theorem State.th_sendEvent (s : State) (t e k : Nat) (xa : W32) [Decidable (sevNames t xa k)] :
    (sendEvent s t xa e).th k = if sevNames t xa k then (s.th k).latched (8 + e) else s.th k :=
  (State.th_edges (t / 128 * 128) (8 + e) k (sevTargets t xa) s).trans (if_congr (mem_sevTargets t k xa) rfl rfl)

theorem State.still_sendEvent (s : State) (t e c : Nat) (xa : W32) : ((sendEvent s t xa e).cl c).still = (s.cl c).still :=
  foldl_keeps (fun s : State => (s.cl c).still) (fun s u => s.edge (t / 128 * 128 + u) (8 + e)) (fun s _ => s.still_edge _ _ c) (sevTargets t xa) s

theorem State.outer_sendEvent (s : State) (t e : Nat) (xa : W32) : (sendEvent s t xa e).outer = s.outer :=
  foldl_keeps State.outer (fun s u => s.edge (t / 128 * 128 + u) (8 + e)) (fun s _ => s.outer_edge _ _) (sevTargets t xa) s

/-! ### WFE (R120) -/

/-- The pending word of a WFE depends on the thread's registers, edges and counted writes and on the channels of its cluster. -/
theorem wfeWord_congr {s u : State} {t : Nat} (m : BitVec 16) (hregs : (u.th t).regs = (s.th t).regs) (hedges : (u.th t).edges = (s.th t).edges)
    (hstores : (u.th t).stores = (s.th t).stores) (hchan : (u.cl (t / 128)).chan = (s.cl (t / 128)).chan) : wfeWord u t m = wfeWord s t m := by
  unfold wfeWord pendingWord Cluster.ch
  simp only [hregs, hedges, hstores, hchan]

/-- A WFE waits where no event of its mask is pending. -/
theorem beginsWait_wfe (s : State) (t : Nat) (y : Syl) :
    s.beginsWait t [sylRaw y 3 0x10] =
      if wfeWord s t (BitVec.ofNat 16 ((sylRaw y 3 0x10).f 15 0)) = 0 then some (.wfe (BitVec.ofNat 16 ((sylRaw y 3 0x10).f 15 0)), false)
      else none := rfl

/-- The thread with the events of the word `w`: in ACC, and their edges cleared. -/
def Thread.tookEvents (x : Thread) (w : BitVec 16) : Thread :=
  { x with edges := x.edges &&& ~~~(w &&& 0xFFFC), regs := { x.regs with acc := w.setWidth 64 } }

theorem runBundle_wfe (s : State) (t : Nat) (y : Syl) :
    s.runBundle t [sylRaw y 3 0x10] =
      State.modTh ((s.runReady t (slotsOf [sylRaw y 3 0x10])).modTh t
          (·.tookEvents (wfeWord (s.runReady t (slotsOf [sylRaw y 3 0x10])) t (BitVec.ofNat 16 ((sylRaw y 3 0x10).f 15 0))))) t
        (fun x => { x with pc := addrAfter (s.th t).pc 1 }) := s.runBundle_single t _ rfl

theorem enterWait_wfe (s : State) (t : Nat) (m : BitVec 16) (ys : List RawSyl) :
    s.enterWait t ys (.wfe m) = (s.modTh t (fun x => { x with wait := .wfe m, waitSyls := ys, bundle := [], bpPass := false })).passTurn t := rfl

section
variable {s : State} {y : Syl}

theorem givesSome_wfe_taken (h : Executes s y 3 0x10) :
    let t := tidOf y
    let w := wfeWord s t (BitVec.ofNat 16 ((sylRaw y 3 0x10).f 15 0))
    w ≠ 0 ∧ givesSome (.wfe y) s (fun u =>
      past s u t { s.th t with regs := { (s.th t).regs with acc := w.setWidth 64 }, edges := (s.th t).edges &&& ~~~(w &&& 0xFFFC) }
        ∧ clustersSame s u ∧ outsideSame s u) := by
  obtain ⟨hbusy, hwait, hbundle⟩ := thread_of_ready h.1
  have hnowait := h.2
  rw [beginsWait_wfe] at hnowait
  refine ⟨fun hzero => absurd ((if_pos hzero).symm.trans hnowait) (Option.some_ne_none _), _,
    congrArg answer ((syllable_of_executes h).trans (runBundle_wfe s _ y)), ?_⟩
  generalize tidOf y = t at *
  generalize BitVec.ofNat 16 ((sylRaw y 3 0x10).f 15 0) = m
  generalize slotsOf [sylRaw y 3 0x10] = n
  obtain ⟨b, hready⟩ := th_runReady_of_ready n hbusy hwait hbundle
  have hword : wfeWord (s.runReady t n) t m = wfeWord s t m :=
    wfeWord_congr m (by rw [hready]) (by rw [hready]) (by rw [hready]) (Cluster.still_chan (s.still_runReady t n _))
  rw [hword]
  refine ⟨past_of_effect (b := b) ?_ fun k hk => ?_, clustersSame_of_effect (fun c => ?_) _, eq_of_effect (v := s) ?_ _⟩
  · rw [State.th_modTh_same, hready]
    rfl
  · rw [State.th_modTh, if_neg hk, s.th_runReady_other n hk]
  · rw [State.still_modTh, State.still_runReady]
  · rw [State.outer_modTh, State.outer_runReady]

theorem givesSome_wfe_waits (h : Ready s y 3 0x10) :
    let t := tidOf y
    let z := sylRaw y 3 0x10
    let m := BitVec.ofNat 16 (z.f 15 0)
    wfeWord s t m = 0 → givesSome (.wfe y) s (fun u =>
      u.th t = { s.th t with wait := .wfe m, waitSyls := [z], bpPass := false } ∧ othersSame s u t ∧ clustersSame s u ∧ outsideSame s u) := by
  dsimp only
  intro hzero
  obtain ⟨-, -, hbundle⟩ := thread_of_ready h
  have hstart : s.startBundle (tidOf y) [sylRaw y 3 0x10] =
      s.enterWait (tidOf y) [sylRaw y 3 0x10] (.wfe (BitVec.ofNat 16 ((sylRaw y 3 0x10).f 15 0))) := by
    have heffect : isEffect s (tidOf y) (s.th (tidOf y)).regs (sylRaw y 3 0x10) = false := rfl
    simp [State.startBundle, heffect, beginsWait_wfe, hzero]
  refine ⟨_, congrArg answer ((syllable_of_ready h).trans (hstart.trans (enterWait_wfe s _ _ _))), ?_⟩
  generalize tidOf y = t at *
  refine ⟨?_, fun k hk => ?_, clustersSame_of_still fun c => ?_, State.eq_of_outer ?_⟩
  · rw [State.th_after_watch, State.th_passTurn, State.th_modTh_same]
    simp only [hbundle]
  · rw [State.th_after_watch, State.th_passTurn, State.th_modTh, if_neg hk]
  · rw [State.still_watch, State.still_passTurn, State.still_modTh]
  · rw [State.outer_watch, State.outer_passTurn, State.outer_modTh]

/-! ### SEV (R123) -/

theorem runBundle_sev (s : State) (t : Nat) (y : Syl) :
    s.runBundle t [sylRaw y 3 0x11] =
      State.modTh (sendEvent (s.runReady t (slotsOf [sylRaw y 3 0x11])) t (s.th t).regs.xa ((sylRaw y 3 0x11).f 2 0)) t
        (fun x => { x with pc := addrAfter (s.th t).pc 1 }) := s.runBundle_single t _ rfl

open Classical in
theorem givesSome_sev (h : Executes s y 3 0x11) :
    let t := tidOf y
    let e := (sylRaw y 3 0x11).f 2 0
    givesSome (.sev y) s (fun u =>
      (∀ k, k ≠ t → (sevNames t (s.th t).regs.xa k ∧ (s.th k).busy = true → u.th k = { s.th k with edges := (s.th k).edges ||| 1 <<< (8 + e) })
        ∧ (¬ (sevNames t (s.th t).regs.xa k ∧ (s.th k).busy = true) → u.th k = s.th k))
        ∧ (u.th t).pc = (s.th t).pc + 1 ∧ (u.th t).regs = (s.th t).regs
        ∧ (u.th t).edges = (if (s.th t).regs.xa.toNat % 256 = t % 128 then (s.th t).edges ||| 1 <<< (8 + e) else (s.th t).edges)
        ∧ clustersSame s u ∧ outsideSame s u) := by
  obtain ⟨hbusy, hwait, hbundle⟩ := thread_of_ready h.1
  refine ⟨_, congrArg answer ((syllable_of_executes h).trans (runBundle_sev s _ y)), ?_⟩
  dsimp only
  generalize tidOf y = t at *
  generalize (sylRaw y 3 0x11).f 2 0 = e
  generalize slotsOf [sylRaw y 3 0x11] = n
  generalize hxa : (s.th t).regs.xa = xa
  obtain ⟨b, hready⟩ := th_runReady_of_ready n hbusy hwait hbundle
  have hown : (sendEvent (s.runReady t n) t xa e).th t =
      if xa.toNat % 256 = t % 128 then { s.th t with branches := b, waitSyls := [], bpPass := false, edges := (s.th t).edges ||| 1 <<< (8 + e) }
      else { s.th t with branches := b, waitSyls := [], bpPass := false } := by
    have hlatched := Thread.latched_of_busy (x := (s.runReady t n).th t) (by rw [hready]; exact hbusy) (8 + e)
    rw [State.th_sendEvent, hlatched, hready]
    exact if_congr (sevNames_self t xa) rfl rfl
  refine ⟨fun k hk => ?_, ?_, ?_, ?_, clustersSame_of_effect (fun c => ?_) _, eq_of_effect (v := s) ?_ _⟩
  · have hth : (State.watch (State.modTh (sendEvent (s.runReady t n) t xa e) t (fun x => { x with pc := addrAfter (s.th t).pc 1 }))).th k =
        if sevNames t xa k then (s.th k).latched (8 + e) else s.th k := by
      rw [State.th_after_watch, State.th_modTh, if_neg hk, State.th_sendEvent, s.th_runReady_other n hk]
    rw [hth]
    refine ⟨fun ⟨hnames, hwork⟩ => ?_, fun hnot => ?_⟩
    · rw [if_pos hnames, Thread.latched_of_busy hwork]
    · split
      next hnames => exact Thread.latched_of_free (by simpa [hnames] using hnot) _
      next => rfl
  · rw [State.th_after_watch, State.th_modTh_same]
    rfl
  · rw [State.th_after_watch, State.th_modTh_same, hown]
    split <;> rfl
  · rw [State.th_after_watch, State.th_modTh_same, hown]
    split <;> rfl
  · rw [State.still_sendEvent, State.still_runReady]
  · rw [State.outer_sendEvent, State.outer_runReady]

end

theorem eventInstructionsWaitAndSignal : Claims.EventInstructionsWaitAndSignal := by
  unfold Claims.EventInstructionsWaitAndSignal
  exact ⟨fun _ _ => ⟨givesSome_wfe_taken, givesSome_wfe_waits⟩, fun _ _ => givesSome_sev⟩

/-! ### Channels of a cluster (R125, R126) -/

theorem Cluster.ch_of_chan {a b : Cluster} (h : a.chan = b.chan) (n : Nat) : a.ch n = b.ch n := by
  unfold Cluster.ch
  rw [h]

theorem Cluster.ch_modCh (c : Cluster) (n k : Nat) (f : Channel → Channel) : (c.modCh n f).ch k = if k = n then f (c.ch n) else c.ch k :=
  Store.get_modify _ _ _ _ _

/-- The clusters of the other threads are wholly as they were. -/
theorem State.cl_modTh_other (s : State) {t c : Nat} (f : Thread → Thread) (h : c ≠ t / 128) : (s.modTh t f).cl c = s.cl c :=
  (s.cl_modCl _ _ _).trans (if_neg h)

theorem State.cl_countBundle_other (s : State) {t c : Nat} (n : Nat) (h : c ≠ t / 128) : (s.countBundle t n).cl c = s.cl c := by
  unfold State.countBundle
  split
  · rfl
  · exact s.cl_modTh_other _ h

theorem State.cl_runReady_other (s : State) {t c : Nat} (n : Nat) (h : c ≠ t / 128) : (s.runReady t n).cl c = s.cl c := by
  unfold State.runReady
  dsimp only
  rw [State.cl_modTh_other _ _ h, State.cl_modCl, if_neg h, State.cl_modTh_other _ _ h, s.cl_countBundle_other n h]

@[simp] theorem State.still_setRegs (s : State) (t c : Nat) (f : Regs → Regs) : ((setRegs s t f).cl c).still = (s.cl c).still :=
  s.still_modTh t c _

@[simp] theorem State.outer_setRegs (s : State) (t : Nat) (f : Regs → Regs) : (setRegs s t f).outer = s.outer := rfl

theorem State.th_setRegs (s : State) (t k : Nat) (f : Regs → Regs) :
    (setRegs s t f).th k = if k = t then { s.th t with regs := f (s.th t).regs } else s.th k := s.th_modTh t k _

theorem chRemote_congr {s u : State} (h : u.outer = s.outer) (c n : Nat) : u.chRemote c n = s.chRemote c n := by
  unfold State.chRemote State.obj
  rw [State.outer_live h]

theorem clusterAt_congr {s u : State} (h : u.outer = s.outer) (p : Nat) : u.clusterAt p = s.clusterAt p := by
  unfold State.clusterAt
  rw [State.outer_seq h]

theorem inReset_congr {s u : State} (h : u.outer = s.outer) (i : Nat) : u.inReset i = s.inReset i := by
  unfold State.inReset State.isl
  rw [State.outer_power h]

theorem positionOf_congr {s u : State} (h : u.outer = s.outer) (c : Nat) : u.positionOf c = s.positionOf c := by
  unfold State.positionOf
  rw [State.outer_seq h]

/-! ### CHS (R126) -/

theorem runBundle_chs (s : State) (t : Nat) (y : Syl) :
    s.runBundle t [sylRaw y 3 0x12] =
      State.modTh ((s.runReady t (slotsOf [sylRaw y 3 0x12])).modTh t (fun x => { x with staging := x.staging ++ [(s.th t).regs.acc] })) t
        (fun x => { x with pc := addrAfter (s.th t).pc 1 }) := s.runBundle_single t _ rfl

section
variable {s : State} {y : Syl}

theorem givesSome_chs (h : Executes s y 3 0x12) :
    let t := tidOf y
    givesSome (.chs y) s (fun u =>
      past s u t { s.th t with staging := (s.th t).staging ++ [(s.th t).regs.acc] } ∧ clustersSame s u ∧ outsideSame s u) := by
  obtain ⟨hbusy, hwait, hbundle⟩ := thread_of_ready h.1
  refine ⟨_, congrArg answer ((syllable_of_executes h).trans (runBundle_chs s _ y)), ?_⟩
  dsimp only
  generalize tidOf y = t at *
  generalize slotsOf [sylRaw y 3 0x12] = n
  obtain ⟨b, hready⟩ := th_runReady_of_ready n hbusy hwait hbundle
  refine ⟨past_of_effect (b := b) ?_ fun k hk => ?_, clustersSame_of_effect (fun c => ?_) _, eq_of_effect (v := s) ?_ _⟩
  · rw [State.th_modTh_same, hready]
  · rw [State.th_modTh, if_neg hk, s.th_runReady_other n hk]
  · rw [State.still_modTh, State.still_runReady]
  · rw [State.outer_modTh, State.outer_runReady]

end

/-! ### CHC (R126, R127, R129, R130) -/

/-- The thread's staged words are gone, and FL is `fl`. -/
def Thread.sentOff (x : Thread) (fl : Fl) : Thread := { x with staging := [], regs := { x.regs with fl := fl } }

/-- The effect of a CHC by what it finds: nothing staged, a channel that only another cluster may send to, a channel of its own cluster,
or one of another. -/
theorem execSyl_chc_of_empty {v : State} {t : Nat} {r : Regs} {next : BitVec 16} (y : Syl) (h : (v.th t).staging = []) :
    execSyl t r next v (sylRaw y 3 0x13) = setRegs v t (fun q => { q with fl := 1 }) := by
  change ite ((v.th t).staging.isEmpty = true) _ _ = _
  rw [if_pos (by simp [h])]
  rfl

theorem execSyl_chc_of_inbound {v : State} {t : Nat} {r : Regs} {next : BitVec 16} {y : Syl} (h : (v.th t).staging ≠ [])
    (hlocal : (sylRaw y 3 0x13).f 10 10 = 0) (hremote : v.chRemote (t / 128) ((sylRaw y 3 0x13).f 4 0) = true) :
    execSyl t r next v (sylRaw y 3 0x13) =
      (setRegs (v.modTh t (fun x => { x with staging := [] })) t (fun q => { q with fl := 1 })).count (src (t / 128) 0x11) 0x11 := by
  change ite ((v.th t).staging.isEmpty = true) _ _ = _
  rw [if_neg (by simpa using h), if_pos ⟨hlocal, hremote⟩]
  rfl

theorem execSyl_chc_of_own {v : State} {t : Nat} {r : Regs} {next : BitVec 16} {y : Syl} (h : (v.th t).staging ≠ [])
    (hlocal : (sylRaw y 3 0x13).f 10 10 = 0) (hremote : v.chRemote (t / 128) ((sylRaw y 3 0x13).f 4 0) = false) :
    execSyl t r next v (sylRaw y 3 0x13) =
      setRegs ((v.modTh t (fun x => { x with staging := [] })).chAccept (t / 128) ((sylRaw y 3 0x13).f 4 0) (t / 128) (v.th t).staging) t
        (fun q => { q with fl := 0 }) := by
  change ite ((v.th t).staging.isEmpty = true) _ _ = _
  rw [if_neg (by simpa using h), if_neg (by simp [hremote])]
  simp only [hlocal]
  rfl

/-- The words of a thread on their way to a channel of another cluster, against the credit for it. -/
def State.sendAway (s : State) (t pos n id : Nat) (fl : Fl) : State :=
  setRegs (State.send (State.modCl (s.modTh t (fun x => { x with staging := [] })) (t / 128) (fun x =>
      { x with credit := Store.set 8 x.credit (creditKey pos n) (x.creditOf (creditKey pos n) - (s.th t).staging.length) })) (t / 128)
    (s.clusterAt pos) (.chan t pos n (s.th t).staging id)) t (fun q => { q with fl := fl })

theorem execSyl_chc_of_other {v : State} {t : Nat} {r : Regs} {next : BitVec 16} {y : Syl} (h : (v.th t).staging ≠ [])
    (hother : (sylRaw y 3 0x13).f 10 10 = 1) :
    let pos := (sylRaw y 3 0x13).f 9 5
    let u := State.sendAway { v with nextId := v.nextId + 1 } t pos ((sylRaw y 3 0x13).f 4 0) v.nextId (if v.inReset (v.clusterAt pos) = true then 1 else 0)
    execSyl t r next v (sylRaw y 3 0x13) =
      if v.inReset (v.clusterAt pos) = true then u
      else u.addLoad t { id := v.nextId, reg := 3, fl := true, flOnly := true, isl := v.clusterAt pos } := by
  dsimp only
  change ite ((v.th t).staging.isEmpty = true) _ _ = _
  rw [if_neg (by simpa using h), if_neg (by simp [hother])]
  simp only [hother]
  by_cases hreset : v.inReset (v.clusterAt ((sylRaw y 3 0x13).f 9 5)) = true
  · simp only [hreset]
    rfl
  · rw [Bool.not_eq_true] at hreset
    simp only [hreset]
    rfl

section
variable {s : State} {y : Syl}

theorem givesSome_chc_empty (h : Executes s y 3 0x13) (hempty : (s.th (tidOf y)).staging = []) :
    givesSome (.chc y) s (fun u => ran s u (tidOf y) { (s.th (tidOf y)).regs with fl := 1 }) := by
  obtain ⟨hbusy, hwait, hbundle⟩ := thread_of_ready h.1
  refine ⟨_, congrArg answer ((syllable_of_executes h).trans (s.runBundle_single _ _ rfl)), ?_⟩
  generalize tidOf y = t at *
  generalize slotsOf [sylRaw y 3 0x13] = n
  obtain ⟨b, hready⟩ := th_runReady_of_ready n hbusy hwait hbundle
  rw [execSyl_chc_of_empty y (by rw [hready]; exact hempty)]
  refine ⟨past_of_effect (b := b) ?_ fun k hk => ?_, clustersSame_of_effect (fun c => ?_) _, eq_of_effect (v := s) ?_ _⟩
  · rw [State.th_setRegs, if_pos rfl, hready]
  · rw [State.th_setRegs, if_neg hk, s.th_runReady_other n hk]
  · rw [State.still_setRegs, State.still_runReady]
  · rw [State.outer_setRegs, State.outer_runReady]

theorem givesSome_chc_inbound (h : Executes s y 3 0x13) (hstaged : (s.th (tidOf y)).staging ≠ []) (hlocal : (sylRaw y 3 0x13).f 10 10 = 0)
    (hremote : s.chRemote (tidOf y / 128) ((sylRaw y 3 0x13).f 4 0) = true) :
    givesSome (.chc y) s (fun u => past s u (tidOf y) ((s.th (tidOf y)).sentOff 1) ∧ clustersSame s u ∧ outsideSame s u) := by
  obtain ⟨hbusy, hwait, hbundle⟩ := thread_of_ready h.1
  refine ⟨_, congrArg answer ((syllable_of_executes h).trans (s.runBundle_single _ _ rfl)), ?_⟩
  generalize tidOf y = t at *
  generalize slotsOf [sylRaw y 3 0x13] = n
  obtain ⟨b, hready⟩ := th_runReady_of_ready n hbusy hwait hbundle
  rw [execSyl_chc_of_inbound (by rw [hready]; exact hstaged) hlocal ((chRemote_congr (s.outer_runReady t n) _ _).trans hremote)]
  refine ⟨past_of_effect (b := b) ?_ fun k hk => ?_, clustersSame_of_effect (fun c => ?_) _, eq_of_effect (v := s) ?_ _⟩
  · rw [State.th_after_count, State.th_setRegs, if_pos rfl, State.th_modTh_same, hready]
    rfl
  · rw [State.th_after_count, State.th_setRegs, if_neg hk, State.th_modTh, if_neg hk, s.th_runReady_other n hk]
  · rw [State.cl_after_count, State.still_setRegs, State.still_modTh, State.still_runReady]
  · rw [State.outer_count, State.outer_setRegs, State.outer_modTh, State.outer_runReady]

theorem State.th_chAccept (s : State) (c n f k : Nat) (w : List W64) : (s.chAccept c n f w).th k = s.th k :=
  (State.th_after_count _ _ _ _ _).trans (s.th_modCl c k _ rfl)

theorem State.cl_chAccept (s : State) (c n f k : Nat) (w : List W64) :
    (s.chAccept c n f w).cl k = if k = c then (s.cl c).modCh n (fun x => { x with msgs := x.msgs ++ [(f, w)] }) else s.cl k :=
  (State.cl_after_count _ _ _ _ _).trans (s.cl_modCl c k (·.modCh n (fun x => { x with msgs := x.msgs ++ [(f, w)] })))

theorem State.outer_chAccept (s : State) (c n f : Nat) (w : List W64) : (s.chAccept c n f w).outer = s.outer := rfl

/-- The channels of a cluster are as the rest of it. -/
theorem ch_of_still {a b : Cluster} (h : a.still = b.still) (n : Nat) : a.ch n = b.ch n := Cluster.ch_of_chan (Cluster.still_chan h) n

theorem givesSome_chc_own (h : Executes s y 3 0x13) (hstaged : (s.th (tidOf y)).staging ≠ []) (hlocal : (sylRaw y 3 0x13).f 10 10 = 0)
    (hremote : s.chRemote (tidOf y / 128) ((sylRaw y 3 0x13).f 4 0) = false) :
    let t := tidOf y
    let c := t / 128
    let n := (sylRaw y 3 0x13).f 4 0
    givesSome (.chc y) s (fun u =>
      past s u t ((s.th t).sentOff 0) ∧ ((u.cl c).ch n).msgs = ((s.cl c).ch n).msgs ++ [(c, (s.th t).staging)]
        ∧ (∀ k, k ≠ n → (u.cl c).ch k = (s.cl c).ch k) ∧ (∀ k, k ≠ c → u.cl k = s.cl k) ∧ outsideSame s u) := by
  obtain ⟨hbusy, hwait, hbundle⟩ := thread_of_ready h.1
  refine ⟨_, congrArg answer ((syllable_of_executes h).trans (s.runBundle_single _ _ rfl)), ?_⟩
  dsimp only
  generalize tidOf y = t at *
  generalize slotsOf [sylRaw y 3 0x13] = n
  obtain ⟨b, hready⟩ := th_runReady_of_ready n hbusy hwait hbundle
  have hstaging : ((s.runReady t n).th t).staging = (s.th t).staging := by rw [hready]
  rw [execSyl_chc_of_own (by rw [hstaging]; exact hstaged) hlocal ((chRemote_congr (s.outer_runReady t n) _ _).trans hremote), hstaging]
  generalize (sylRaw y 3 0x13).f 4 0 = m
  have hch : ∀ k, (((s.runReady t n).modTh t (fun x => { x with staging := [] })).cl (t / 128)).ch k = (s.cl (t / 128)).ch k := fun k =>
    ch_of_still ((State.still_modTh _ _ _ _).trans (s.still_runReady t n _)) k
  have hafter : ∀ k, (((State.modTh (setRegs (((s.runReady t n).modTh t (fun x => { x with staging := [] })).chAccept (t / 128) m (t / 128)
      (s.th t).staging) t (fun q => { q with fl := 0 })) t (fun x => { x with pc := addrAfter (s.th t).pc 1 })).watch).cl (t / 128)).ch k =
      if k = m then { (s.cl (t / 128)).ch m with msgs := ((s.cl (t / 128)).ch m).msgs ++ [(t / 128, (s.th t).staging)] }
      else (s.cl (t / 128)).ch k := by
    intro k
    rw [ch_of_still (State.still_watch _ _), ch_of_still (State.still_modTh _ _ _ _), ch_of_still (State.still_setRegs _ _ _ _),
      State.cl_chAccept, if_pos rfl, Cluster.ch_modCh, hch, hch]
  refine ⟨past_of_effect (b := b) ?_ fun k hk => ?_, ?_, fun k hk => ?_, fun k hk => ?_, eq_of_effect (v := s) ?_ _⟩
  · rw [State.th_setRegs, if_pos rfl, State.th_chAccept, State.th_modTh_same, hready]
    rfl
  · rw [State.th_setRegs, if_neg hk, State.th_chAccept, State.th_modTh, if_neg hk, s.th_runReady_other n hk]
  · rw [hafter, if_pos rfl]
  · rw [hafter, if_neg hk]
  · rw [State.cl_after_watch, State.cl_modTh_other _ _ hk, setRegs, State.cl_modTh_other _ _ hk, State.cl_chAccept, if_neg hk,
      State.cl_modTh_other _ _ hk, s.cl_runReady_other n hk]
  · rw [State.outer_setRegs, State.outer_chAccept, State.outer_modTh, State.outer_runReady]

theorem State.th_sendAway (s : State) (t pos n id k : Nat) (fl : Fl) :
    (s.sendAway t pos n id fl).th k = if k = t then (s.th t).sentOff fl else s.th k := by
  have hth : ∀ j, (State.send (State.modCl (s.modTh t (fun x => { x with staging := [] })) (t / 128) (fun x =>
      { x with credit := Store.set 8 x.credit (creditKey pos n) (x.creditOf (creditKey pos n) - (s.th t).staging.length) })) (t / 128)
    (s.clusterAt pos) (.chan t pos n (s.th t).staging id)).th j = (s.modTh t (fun x => { x with staging := [] })).th j :=
    fun j => (State.th_after_send _ _ _ _ _).trans (State.th_modCl _ _ _ _ rfl)
  unfold State.sendAway
  rw [State.th_setRegs, hth, hth, State.th_modTh_same]
  split
  · rfl
  next hk => rw [State.th_modTh, if_neg hk]

theorem Cluster.creditOf_of_still {a b : Cluster} (h : a.still = b.still) (k : Nat) : a.creditOf k = b.creditOf k := by
  unfold Cluster.creditOf
  rw [Cluster.still_credit h]

theorem State.creditOf_sendAway (s : State) (t pos n id : Nat) (fl : Fl) :
    ((s.sendAway t pos n id fl).cl (t / 128)).creditOf (creditKey pos n) =
      (s.cl (t / 128)).creditOf (creditKey pos n) - (s.th t).staging.length := by
  unfold State.sendAway
  rw [Cluster.creditOf_of_still (State.still_setRegs _ _ _ _), State.cl_after_send, State.cl_modCl_same]
  refine (Store.get_set_same _ _ _ _).trans ?_
  rw [Cluster.creditOf_of_still (State.still_modTh _ _ _ _)]

theorem State.outer_sendAway (s : State) (t pos n id : Nat) (fl : Fl) :
    (s.sendAway t pos n id fl).outer = s.outer.send (t / 128) (s.clusterAt pos) (.chan t pos n (s.th t).staging id) := by
  rw [State.sendAway, State.outer_setRegs, State.outer_send, State.outer_modCl, State.outer_modTh]

@[simp] theorem State.outer_addLoad (s : State) (t : Nat) (l : Load) : (s.addLoad t l).outer = s.outer := State.outer_modTh _ _ _

theorem State.th_addLoad (s : State) (t k : Nat) (l : Load) :
    (s.addLoad t l).th k = if k = t then { withLoad (s.th t) l with branches := ((s.addLoad t l).th t).branches } else s.th k := by
  have hth := s.th_modTh t k (fun x => Thread.begin' { x with loads := x.loads ++ [l] } l.id)
  split at hth
  next hk =>
    rw [if_pos hk]
    subst hk
    refine Eq.trans hth ?_
    rw [Thread.begin'_eq]
    unfold State.addLoad
    rw [State.th_modTh_same]
    rfl
  next hk => rw [if_neg hk]; exact hth

theorem givesSome_chc_other (h : Executes s y 3 0x13) (hstaged : (s.th (tidOf y)).staging ≠ []) (hother : (sylRaw y 3 0x13).f 10 10 = 1) :
    let t := tidOf y
    let c := t / 128
    let n := (sylRaw y 3 0x13).f 4 0
    let pos := (sylRaw y 3 0x13).f 9 5
    let x := (s.th t).sentOff (if s.inReset (s.clusterAt pos) = true then 1 else 0)
    givesSome (.chc y) s (fun u =>
      past s u t (if s.inReset (s.clusterAt pos) = true then x
        else withLoad x { id := s.nextId, reg := 3, fl := true, flOnly := true, isl := s.clusterAt pos })
        ∧ (u.cl c).creditOf (creditKey pos n) = (s.cl c).creditOf (creditKey pos n) - (s.th t).staging.length
        ∧ u = { s with clusters := u.clusters, obs := u.obs, nextId := s.nextId + 1, net := s.net ++ [⟨c, s.clusterAt pos, .chan t pos n (s.th t).staging s.nextId⟩] }) := by
  obtain ⟨hbusy, hwait, hbundle⟩ := thread_of_ready h.1
  refine ⟨_, congrArg answer ((syllable_of_executes h).trans (s.runBundle_single _ _ rfl)), ?_⟩
  dsimp only
  generalize tidOf y = t at *
  generalize slotsOf [sylRaw y 3 0x13] = j
  obtain ⟨b, hready⟩ := th_runReady_of_ready j hbusy hwait hbundle
  have hstaging : ((s.runReady t j).th t).staging = (s.th t).staging := by rw [hready]
  have hrest := s.outer_runReady t j
  rw [execSyl_chc_of_other (by rw [hstaging]; exact hstaged) hother, clusterAt_congr hrest, inReset_congr hrest, State.outer_nextId hrest]
  generalize (sylRaw y 3 0x13).f 4 0 = n
  generalize (sylRaw y 3 0x13).f 9 5 = pos
  generalize hfl : (if s.inReset (s.clusterAt pos) = true then (1 : Fl) else 0) = fl
  generalize hv : ({ s.runReady t j with nextId := s.nextId + 1 } : State) = v
  have hth : ∀ k, v.th k = (s.runReady t j).th k := fun k => by rw [← hv]; rfl
  have hcl : ∀ c, v.cl c = (s.runReady t j).cl c := fun c => by rw [← hv]; rfl
  have hv' : v.outer = { s.outer with nextId := s.nextId + 1 } := by
    rw [← hv]
    exact congrArg (fun u : State => { u with nextId := s.nextId + 1 }) hrest
  have hstaged' : (v.th t).staging = (s.th t).staging := by rw [hth, hstaging]
  have haway : (v.sendAway t pos n s.nextId fl).th t = { (s.th t).sentOff fl with branches := b, waitSyls := [], bpPass := false } := by
    rw [State.th_sendAway, if_pos rfl, hth, hready]
    rfl
  have hothers : othersSame s (v.sendAway t pos n s.nextId fl) t := fun k hk => by
    rw [State.th_sendAway, if_neg hk, hth, s.th_runReady_other j hk]
  have hcredit : ((v.sendAway t pos n s.nextId fl).cl (t / 128)).creditOf (creditKey pos n) =
      (s.cl (t / 128)).creditOf (creditKey pos n) - (s.th t).staging.length := by
    rw [State.creditOf_sendAway, hstaged', hcl, Cluster.creditOf_of_still (s.still_runReady t j _)]
  have houter : (v.sendAway t pos n s.nextId fl).outer = State.outer
      { s with nextId := s.nextId + 1, net := s.net ++ [⟨t / 128, s.clusterAt pos, .chan t pos n (s.th t).staging s.nextId⟩] } := by
    have hpos : v.clusterAt pos = s.clusterAt pos := by rw [← clusterAt_congr hrest, ← hv]; rfl
    rw [State.outer_sendAway, hv', hpos, hstaged']
    rfl
  generalize v.sendAway t pos n s.nextId fl = w at *
  by_cases hreset : s.inReset (s.clusterAt pos) = true
  · rw [if_pos hreset, if_pos hreset]
    refine ⟨past_of_effect haway hothers, ?_, eq_of_effect houter _⟩
    rw [State.cl_after_watch, Cluster.creditOf_of_still (State.still_modTh _ _ _ _), hcredit]
  · rw [if_neg hreset, if_neg hreset]
    generalize ({ id := s.nextId, reg := 3, fl := true, flOnly := true, isl := s.clusterAt pos } : Load) = l
    refine ⟨past_of_effect (b := ((w.addLoad t l).th t).branches) ?_ fun k hk => ?_, ?_, eq_of_effect ((w.outer_addLoad t l).trans houter) _⟩
    · rw [State.th_addLoad, if_pos rfl, haway]
      rfl
    · rw [State.th_addLoad, if_neg hk, hothers k hk]
    · rw [State.cl_after_watch, Cluster.creditOf_of_still (State.still_modTh _ _ _ _), State.addLoad,
        Cluster.creditOf_of_still (State.still_modTh _ _ _ _), hcredit]

end

/-! ### CHR (R128, R130) -/

theorem chrEffect_of_nil {s : State} {t n : Nat} (fa : Nat) (h : ((s.cl (t / 128)).ch n).msgs = []) :
    chrEffect s t n fa = setRegs s t (fun q => { q with acc := 0, fl := 8 }) := by
  unfold chrEffect
  dsimp only
  rw [h]
  rfl

/-- The credit for the words read, where the channel is another cluster's to send to. -/
def State.creditBack (s : State) (c from' n k : Nat) : State :=
  if s.chRemote c n then s.send c from' (.credit (s.positionOf c) n k false) else s

theorem chrEffect_of_cons {s : State} {t n fa from' : Nat} {w : List W64} {rest : List (Nat × List W64)}
    (h : ((s.cl (t / 128)).ch n).msgs = (from', w) :: rest) (hfree : helperPends s t fa 32 = false) :
    chrEffect s t n fa = setRegs (State.creditBack (State.nearWrite (s.modCl (t / 128) (·.modCh n (fun k => { k with msgs := rest }))) t fa
      (w.flatMap (fun v => leBytes 8 v.toNat))) (t / 128) from' n w.length) t (fun q => { q with acc := BitVec.ofNat 64 w.length, fl := 0 }) := by
  unfold chrEffect
  dsimp only
  rw [h]
  dsimp only
  rw [State.coverHops_of_free _ hfree]
  rfl

theorem State.clusters_creditBack (s : State) (c f n k : Nat) : (s.creditBack c f n k).clusters = s.clusters := by
  unfold State.creditBack
  split <;> rfl

/-- Two states with the same rest have it the same with the same crossings. -/
theorem State.outer_withNet {a b : State} (h : a.outer = b.outer) (l : List Crossing) :
    ({ a with net := l } : State).outer = ({ b with net := l } : State).outer :=
  (congrArg (fun u : State => { u with net := l }) h :)

theorem State.outer_creditBack (s : State) (c f n k : Nat) :
    (s.creditBack c f n k).outer = State.outer
      { s with net := s.net ++ if s.chRemote c n then [⟨c, f, .credit (s.positionOf c) n k false⟩] else [] } := by
  unfold State.creditBack
  split
  · rfl
  · rw [List.append_nil]

theorem Cluster.ch_of_unmarked {a b : Cluster} (h : a.unmarked = b.unmarked) (n : Nat) : a.ch n = b.ch n :=
  Cluster.ch_of_chan (congrArg Cluster.chan h) n

section
variable {s : State} {y : Syl}

theorem givesSome_chr_empty (h : Executes s y 3 0x14)
    (hempty : ((s.cl (tidOf y / 128)).ch ((sylRaw y 3 0x14).f 4 0)).msgs = []) :
    givesSome (.chr y) s (fun u => ran s u (tidOf y) { (s.th (tidOf y)).regs with acc := 0, fl := 8 }) := by
  obtain ⟨hbusy, hwait, hbundle⟩ := thread_of_ready h.1
  refine ⟨_, congrArg answer ((syllable_of_executes h).trans (s.runBundle_single _ _ rfl)), ?_⟩
  generalize tidOf y = t at *
  generalize slotsOf [sylRaw y 3 0x14] = j
  obtain ⟨b, hready⟩ := th_runReady_of_ready j hbusy hwait hbundle
  have heffect : execSyl t (s.th t).regs (addrAfter (s.th t).pc 1) (s.runReady t j) (sylRaw y 3 0x14) = _ :=
    chrEffect_of_nil (s := s.runReady t j) (n := (sylRaw y 3 0x14).f 4 0) ((sylRaw y 3 0x14).f 10 5 * 32)
      (by rw [ch_of_still (s.still_runReady t j _), hempty])
  rw [heffect]
  refine ⟨past_of_effect (b := b) ?_ fun k hk => ?_, clustersSame_of_effect (fun c => ?_) _, eq_of_effect (v := s) ?_ _⟩
  · rw [State.th_setRegs, if_pos rfl, hready]
  · rw [State.th_setRegs, if_neg hk, s.th_runReady_other j hk]
  · rw [State.still_setRegs, State.still_runReady]
  · rw [State.outer_setRegs, State.outer_runReady]

theorem givesSome_chr_taken (h : Executes s y 3 0x14) {from' : Nat} {w : List W64} {rest : List (Nat × List W64)}
    (hmsgs : ((s.cl (tidOf y / 128)).ch ((sylRaw y 3 0x14).f 4 0)).msgs = (from', w) :: rest) :
    let t := tidOf y
    let z := sylRaw y 3 0x14
    let n := z.f 4 0
    let c := t / 128
    givesSome (.chr y) s (fun u =>
      past s u t { s.th t with regs := { (s.th t).regs with acc := BitVec.ofNat 64 w.length, fl := 0, frame := mwrite (s.th t).regs.frame (32 * z.f 10 5) (w.flatMap (fun v => leBytes 8 v.toNat)) } }
        ∧ ((u.cl c).ch n).msgs = rest ∧ (∀ k, k ≠ n → (u.cl c).ch k = (s.cl c).ch k)
        ∧ u = { s with clusters := u.clusters, obs := u.obs, net := s.net ++ if s.chRemote c n then [⟨c, from', .credit (s.positionOf c) n w.length false⟩] else [] }) := by
  obtain ⟨hbusy, hwait, hbundle⟩ := thread_of_ready h.1
  have hfree := helperPends_of_ready (a := (sylRaw y 3 0x14).f 10 5 * 32) (n := 32) h.1 (List.mem_singleton_self _)
  have hframe : 32 * (sylRaw y 3 0x14).f 10 5 < 0x800 := by
    have := (sylRaw y 3 0x14).f_lt 10 5
    omega
  refine ⟨_, congrArg answer ((syllable_of_executes h).trans (s.runBundle_single _ _ rfl)), ?_⟩
  dsimp only
  generalize tidOf y = t at *
  generalize slotsOf [sylRaw y 3 0x14] = j
  obtain ⟨b, hready⟩ := th_runReady_of_ready j hbusy hwait hbundle
  have hrest := s.outer_runReady t j
  have heffect : execSyl t (s.th t).regs (addrAfter (s.th t).pc 1) (s.runReady t j) (sylRaw y 3 0x14) = _ :=
    chrEffect_of_cons (s := s.runReady t j) (n := (sylRaw y 3 0x14).f 4 0) (fa := (sylRaw y 3 0x14).f 10 5 * 32)
      (by rw [ch_of_still (s.still_runReady t j _), hmsgs]) ((helperPends_runReady _ _ _ _ _).trans hfree)
  rw [heffect]
  rw [Nat.mul_comm ((sylRaw y 3 0x14).f 10 5)]
  generalize 32 * (sylRaw y 3 0x14).f 10 5 = fa at *
  generalize (sylRaw y 3 0x14).f 4 0 = n
  generalize w.flatMap (fun v => leBytes 8 v.toNat) = bytes
  generalize hread : (s.runReady t j).modCl (t / 128) (·.modCh n (fun k => { k with msgs := rest })) = v
  have hth : ∀ k, v.th k = (s.runReady t j).th k := fun k => by rw [← hread]; exact State.th_modCl _ _ _ _ rfl
  have hch : ∀ k, (v.cl (t / 128)).ch k = if k = n then { (s.cl (t / 128)).ch n with msgs := rest } else (s.cl (t / 128)).ch k := fun k => by
    rw [← hread, State.cl_modCl_same, Cluster.ch_modCh, ch_of_still (s.still_runReady t j _), ch_of_still (s.still_runReady t j _)]
  have houter : v.outer = s.outer := by rw [← hread]; exact hrest
  have hwritten : (v.nearWrite t fa bytes).outer = s.outer := (State.outer_nearWrite _ _ _ _).trans houter
  have hback : ∀ k, (State.creditBack (v.nearWrite t fa bytes) (t / 128) from' n w.length).th k = (v.nearWrite t fa bytes).th k := fun k => by
    unfold State.th State.cl
    rw [State.clusters_creditBack]
  have hafter : ∀ k, (((State.modTh (setRegs (State.creditBack (v.nearWrite t fa bytes) (t / 128) from' n w.length) t
      (fun q => { q with acc := BitVec.ofNat 64 w.length, fl := 0 })) t (fun x => { x with pc := addrAfter (s.th t).pc 1 })).watch).cl (t / 128)).ch k =
      if k = n then { (s.cl (t / 128)).ch n with msgs := rest } else (s.cl (t / 128)).ch k := fun k => by
    rw [ch_of_still (State.still_watch _ _), ch_of_still (State.still_modTh _ _ _ _), ch_of_still (State.still_setRegs _ _ _ _)]
    unfold State.cl
    rw [State.clusters_creditBack]
    exact (Cluster.ch_of_unmarked (State.unmarked_nearWrite_frame v t _ bytes hframe) k).trans (hch k)
  have hafterwards : (setRegs (State.creditBack (v.nearWrite t fa bytes) (t / 128) from' n w.length) t
      (fun q => { q with acc := BitVec.ofNat 64 w.length, fl := 0 })).outer = State.outer
      { s with net := s.net ++ if s.chRemote (t / 128) n then [⟨t / 128, from', .credit (s.positionOf (t / 128)) n w.length false⟩] else [] } := by
    rw [State.outer_setRegs, State.outer_creditBack, chRemote_congr hwritten, positionOf_congr hwritten, State.outer_net hwritten]
    exact State.outer_withNet hwritten _
  refine ⟨past_of_effect (b := b) ?_ fun k hk => ?_, ?_, fun k hk => ?_, eq_of_effect hafterwards _⟩
  · rw [State.th_setRegs, if_pos rfl, hback, State.th_nearWrite_frame _ _ _ _ hframe, if_pos rfl, hth, hready]
  · rw [State.th_setRegs, if_neg hk, hback, State.th_nearWrite_frame _ _ _ _ hframe, if_neg hk, hth, s.th_runReady_other j hk]
  · rw [hafter, if_pos rfl]
  · rw [hafter, if_neg hk]

end

theorem channelInstructionsMoveWholeMessages : Claims.ChannelInstructionsMoveWholeMessages := by
  unfold Claims.ChannelInstructionsMoveWholeMessages
  refine ⟨fun _ _ => givesSome_chs, fun y s h => ?_, fun y s h => ?_⟩
  · refine ⟨givesSome_chc_empty h, givesSome_chc_inbound h, fun hstaged hlocal hremote => ?_, fun hstaged hother => ?_⟩
    · have hgives := givesSome_chc_own h hstaged hlocal hremote
      simpa [hlocal, Thread.sentOff] using hgives
    · have hgives := givesSome_chc_other h hstaged hother
      simpa only [hother, true_and, Thread.sentOff] using hgives
  · exact ⟨givesSome_chr_empty h, fun _ _ _ hmsgs => givesSome_chr_taken h hmsgs⟩

/-- Settles O11: WFE and SEV by what they latch and clear, CHC by what it finds staged and where it sends, CHR by the oldest message. -/
theorem eventAndChannelInstructionsWaitAndSend : Obligations.EventAndChannelInstructionsWaitAndSend :=
  ⟨eventInstructionsWaitAndSignal, channelInstructionsMoveWholeMessages⟩

end Sys2Proof.Machine
end

section
/-! Messages and credit between clusters, and the quiescence watch (R125, R129, R130, R132). -/

namespace Sys2Proof.Machine

open Sys2Proof.Claims

/-! ### The answer to a message (R130) -/

/-- The flags that answer a message land with its load alone. -/
theorem State.th_answerLoad_flags (s : State) (t id k : Nat) (fl : Fl) :
    (s.answerLoad t id 0 (some fl) false).th k = if k = t then { s.th t with loads := (s.th t).loads.map (fun l =>
      if l.id = id then { l with value := some (0, some fl), poison := false, seq := s.nextId } else l) } else s.th k :=
  State.th_modTh _ t k _

theorem State.cl_answerLoad_other (s : State) {t c : Nat} (id : Nat) (v : W64) (fl : Option Fl) (poison : Bool) (h : c ≠ t / 128) :
    (s.answerLoad t id v fl poison).cl c = s.cl c := State.cl_modTh_other _ _ h

theorem State.still_answerLoad (s : State) (t id c : Nat) (v : W64) (fl : Option Fl) (poison : Bool) :
    ((s.answerLoad t id v fl poison).cl c).still = (s.cl c).still := State.still_modTh _ _ _ _

section
variable {s : State} {a b t pos n k : Nat} {w : List W64} (hm : s.arrive a b = some (.chan t pos n w k))
include hm

theorem remoteMessage_of_accepted (haccepts : s.chRemote b n = true ∧ s.clusterAt (s.chSource b n) = a) :
    s.remoteMessage a b = ((s.taken a b).answerLoad t k 0 (some 0) false).chAccept b n a w := by
  have hyes : (s.chRemote b n && s.clusterAt (s.chSource b n) == a) = true := by simp [haccepts]
  unfold State.remoteMessage
  rw [hm]
  dsimp only
  rw [hyes]
  exact if_pos hyes

theorem remoteMessage_of_refused (hrefuses : ¬ (s.chRemote b n = true ∧ s.clusterAt (s.chSource b n) = a)) :
    s.remoteMessage a b = ((s.taken a b).answerLoad t k 0 (some 1) false).count (src a 0x11) 0x11 := by
  have hno : (s.chRemote b n && s.clusterAt (s.chSource b n) == a) = false := by simpa using hrefuses
  unfold State.remoteMessage
  rw [hm]
  dsimp only
  rw [hno]
  exact if_neg (fun hyes => Bool.noConfusion (hno.symm.trans hyes))

theorem givesSome_remoteMessageArrive (ha : a < 26) (hb : b < 26) (hsender : t / 128 = a) :
    let answered (u : State) (v : Fl) : Prop := ∃ q, (u.th t).loads = (s.th t).loads.map (fun l =>
      if l.id = k then { l with value := some (0, some v), poison := false, seq := q } else l)
    givesSome (.remoteMessageArrive a b) s (fun u => u.net = dropCrossing a b s.net ∧
      (if s.chRemote b n = true ∧ s.clusterAt (s.chSource b n) = a then
        ((u.cl b).ch n).msgs = ((s.cl b).ch n).msgs ++ [(a, w)] ∧ answered u 0 ∧ ∀ c, c ≠ a → c ≠ b → u.cl c = s.cl c
      else answered u 1 ∧ ∀ c, c ≠ a → u.cl c = s.cl c)) := by
  have hexec : exec (.remoteMessageArrive a b) s = .next (s.remoteMessage a b).watch := congrArg answer (if_pos (by simp [ha, hb]))
  refine ⟨_, hexec, ?_⟩
  by_cases haccepts : s.chRemote b n = true ∧ s.clusterAt (s.chSource b n) = a
  · rw [remoteMessage_of_accepted hm haccepts]
    dsimp only
    rw [if_pos haccepts]
    refine ⟨rfl, ?_, ⟨s.nextId, ?_⟩, fun c hca hcb => ?_⟩
    · rw [State.cl_after_watch, State.cl_chAccept, if_pos rfl, Cluster.ch_modCh, if_pos rfl, ch_of_still (State.still_answerLoad _ _ _ _ _ _ _)]
      rfl
    · rw [State.th_after_watch, State.th_chAccept, State.th_answerLoad_flags, if_pos rfl]
      rfl
    · rw [State.cl_after_watch, State.cl_chAccept, if_neg hcb, State.cl_answerLoad_other _ _ _ _ _ (hsender ▸ hca)]
      rfl
  · rw [remoteMessage_of_refused hm haccepts]
    dsimp only
    rw [if_neg haccepts]
    refine ⟨rfl, ⟨s.nextId, ?_⟩, fun c hca => ?_⟩
    · rw [State.th_after_watch, State.th_after_count, State.th_answerLoad_flags, if_pos rfl]
      rfl
    · rw [State.cl_after_watch, State.cl_after_count, State.cl_answerLoad_other _ _ _ _ _ (hsender ▸ hca)]
      rfl

end

/-! ### Credit (R129, R130) -/

theorem givesSome_creditReturn {s : State} {a b pos n w : Nat} {all : Bool} (ha : a < 26) (hb : b < 26)
    (hm : s.arrive a b = some (.credit pos n w all)) :
    givesSome (.creditReturn a b) s (fun u => u.net = dropCrossing a b s.net
      ∧ (u.cl b).creditOf (creditKey pos n) = (if all then 8 else min 8 ((s.cl b).creditOf (creditKey pos n) + w))
      ∧ ∀ c, c ≠ b → u.cl c = s.cl c) := by
  have hreturn : s.creditReturn a b = (s.taken a b).modCl b (fun c =>
      { c with credit := Store.set 8 c.credit (creditKey pos n) (if all then 8 else min 8 (c.creditOf (creditKey pos n) + w)) }) := by
    unfold State.creditReturn
    rw [hm]
  have hexec : exec (.creditReturn a b) s = .next (s.creditReturn a b).watch := congrArg answer (if_pos (by simp [ha, hb]))
  rw [hreturn] at hexec
  refine ⟨_, hexec, rfl, ?_, fun c hc => ?_⟩
  · rw [State.cl_after_watch, State.cl_modCl_same]
    exact Store.get_set_same _ _ _ _
  · rw [State.cl_after_watch, State.cl_modCl, if_neg hc]
    rfl

/-! ### The quiescence watch (R132) -/

theorem givesSome_quiescent {s : State} {c : Nat} (hc : c < 26) (hup : s.up c = true) (hwatch : fld (s.obj 0x0041 c) 15 15 = 1)
    (hquiet : s.quiet c = true) (hfirst : (s.cl c).quietRep = false) :
    givesSome (.quiescent c) s (fun u => (u.cl c).quietRep = true ∧ (∀ t, u.th t = s.th t) ∧ reported s u (64 * c + 0x13) 0x60 {}) := by
  have hquiesce : s.quiesce c = (s.modCl c (fun k => { k with quietRep := true })).raise (src c 0x13) 0x60 :=
    if_pos ⟨hwatch, hquiet, by simp [hfirst]⟩
  have hexec : exec (.quiescent c) s = .next (s.quiesce c).watch := congrArg answer (if_pos (by simp [hc, hup]))
  rw [hquiesce, src_eq] at hexec
  refine ⟨_, hexec, ?_, fun t => ?_, ?_⟩
  · rw [State.cl_after_watch, State.cl_after_raise, State.cl_modCl_same]
  · rw [State.th_after_watch, State.th_after_raise]
    exact s.th_modCl c t _ rfl
  · exact reported_congr (reported_raise (s.modCl c (fun k => { k with quietRep := true })) 0x60 {} (by omega)) rfl rfl rfl

/-- Settles O13: a message by whether its channel names its sender, credit up to the whole, the report once. -/
theorem clustersExchangeMessagesAndCredit : Obligations.ClustersExchangeMessagesAndCredit := by
  unfold Obligations.ClustersExchangeMessagesAndCredit
  exact ⟨fun _ _ _ _ _ _ _ _ ha hb hm hsender => givesSome_remoteMessageArrive hm ha hb hsender,
    fun _ _ _ _ _ _ _ ha hb hm => givesSome_creditReturn ha hb hm, fun _ _ => givesSome_quiescent⟩

end Sys2Proof.Machine
end

section
/-! Branches that resolve (R117, R119, R189). -/

namespace Sys2Proof.Machine

open Sys2Proof.Claims

/-! ### The outcome (R117, R189) -/

/-- A row of a thread that runs does what the thread's rule says. -/
theorem answer_of_lives {s : State} {id : ThreadId} (h : lives s id) (u : State) :
    answer (if threadOk id && s.up id.cluster then u else s) = .next u.watch := congrArg answer (if_pos (by simpa [lives] using h))

section
variable {s : State} {t : Nat} {b : Branch} {rest : List Branch}

theorem takes_of_plain (s : State) (t : Nat) (rest : List Branch) (h : b.bhb = none) : s.takes t b rest = b.taken := by
  rw [State.takes, h]

/-- R189: a BHB is taken where its helper is full or holds an operation that its thread began before it. -/
theorem takes_of_bhb {k : BitVec 3} (s : State) (t : Nat) (rest : List Branch) (h : b.bhb = some k) :
    s.takes t b rest = (decide (helperLimit k.toNat ≤ hopCount s (t / 128) k.toNat) || (s.cl (t / 128)).hops.any (fun h =>
      h.unit == k && h.thread == t % 128 && !(b.begun ++ rest.flatMap (·.begun)).contains h.id)) := by
  have hunit : ∀ h : HelperOp, (h.unit.toNat == k.toNat) = (h.unit == k) := fun h => by
    rw [Bool.eq_iff_iff, beq_iff_eq, beq_iff_eq, BitVec.toNat_inj]
  simp only [State.takes, h, State.helperBusy, hunit]
  exact Bool.or_comm _ _

/-! ### A branch that stands (R117, R119) -/

/-- The near stores that were held under a branch are made. -/
def State.makeStores (s : State) (t : Nat) (l : List (Nat × List Byte)) : State := l.foldl (fun v e => v.nearWrite t e.1 e.2) s

theorem region_ne_frame {a : Nat} (h : ¬ a < 0x800) (o : Nat) : region a ≠ .frame o := by
  unfold region
  rw [if_neg h]
  repeat refine iteInduction (motive := (· ≠ Region.frame o)) (fun _ => Region.noConfusion) (fun _ => ?_)
  exact Region.noConfusion

/-- A near store changes no more of a thread than the frame among its registers, and no other thread. -/
theorem State.th_nearWrite (s : State) (t a k : Nat) (l : List Byte) :
    (s.nearWrite t a l).th k = if k = t then { s.th t with regs := ((s.nearWrite t a l).th t).regs } else s.th k := by
  by_cases hframe : a < 0x800
  · rw [State.th_nearWrite_frame s t k l hframe, State.th_nearWrite_frame s t t l hframe, if_pos rfl]
  · have hother : ∀ j, (s.nearWrite t a l).th j = s.th j := fun j => by
      unfold State.nearWrite
      dsimp only
      split
      next o hregion => exact absurd hregion (region_ne_frame hframe o)
      next => exact s.th_modCl _ j _ rfl
      next => exact s.th_modCl _ j _ rfl
      next => rfl
    rw [hother, hother]
    split
    next hk => rw [hk]
    next => rfl

theorem State.th_makeStores (t k : Nat) (l : List (Nat × List Byte)) : ∀ s : State,
    (s.makeStores t l).th k = if k = t then { s.th t with regs := ((s.makeStores t l).th t).regs } else s.th k := by
  induction l with
  | nil =>
    intro s
    split
    next hk => rw [hk]; rfl
    next => rfl
  | cons e l ih =>
    intro s
    have hstep := ih (s.nearWrite t e.1 e.2)
    have hown := s.th_nearWrite t e.1 t e.2
    rw [if_pos rfl] at hown
    refine Eq.trans hstep ?_
    split
    next => rw [hown]; rfl
    next hk => exact (s.th_nearWrite t e.1 k e.2).trans (if_neg hk)

theorem State.outer_makeStores (s : State) (t : Nat) (l : List (Nat × List Byte)) : (s.makeStores t l).outer = s.outer :=
  foldl_keeps State.outer (fun (v : State) (e : Nat × List Byte) => v.nearWrite t e.1 e.2) (fun v e => v.outer_nearWrite t e.1 e.2) l s

/-- A branch that stands is no longer held, its stores are made and its bundles counted. -/
def State.branchKept (s : State) (t : Nat) (b : Branch) (rest : List Branch) : State :=
  ((State.makeStores (s.modTh t (fun x => { x with branches := rest })) t b.stores).count (src (t / 128) (coreOf t)) 0x10 b.bundles).count
    (src (t / 128) (coreOf t)) 0x20 b.slots

/-- The thread's own timer reached zero under the branch: the count that stands once it is resolved. -/
def dueWith (b : Branch) : List Branch → Bool
  | [] => b.liveDue
  | r :: _ => r.due

/-- TIMER sets where the count that now stands had reached zero (R122). -/
def State.timerStands (s : State) (t : Nat) (due : Bool) : State := if due then s.edge t 3 else s

theorem branchStands_eq (s : State) (t : Nat) (b : Branch) (rest : List Branch) :
    s.branchStands t b rest =
      let v := s.branchKept t b rest
      let w := (if b.poison then v.sendPoison t else v).timerStands t (dueWith b rest)
      match b.late with
      | none => w
      | some f =>
        match f.trap with
        | some (cause, syl, next) => w.trapStart t (cause.toNat % 256) syl.toNat (cause.toNat / 256) f.pc (BitVec.ofNat 16 next)
        | none => w.haltFault t f.unit f.kind.toNat f.addr f.access := by
  cases rest <;> rfl

theorem State.th_branchKept (s : State) (t k : Nat) (b : Branch) (rest : List Branch) :
    (s.branchKept t b rest).th k =
      if k = t then { s.th t with branches := rest, regs := ((s.branchKept t b rest).th t).regs } else s.th k := by
  have hth := State.th_makeStores t k b.stores (s.modTh t (fun x => { x with branches := rest }))
  split at hth
  next hk =>
    rw [if_pos hk]
    rw [State.th_modTh_same] at hth
    exact hth
  next hk =>
    rw [if_neg hk]
    rw [State.th_modTh, if_neg hk] at hth
    exact hth

theorem State.outer_branchKept (s : State) (t : Nat) (b : Branch) (rest : List Branch) : (s.branchKept t b rest).outer = s.outer := by
  rw [State.branchKept, State.outer_count, State.outer_count, State.outer_makeStores, State.outer_modTh]

theorem State.th_timerStands (s : State) (t k : Nat) (due : Bool) :
    (s.timerStands t due).th k = if k = t ∧ due = true ∧ (s.th t).busy = true then { s.th t with edges := (s.th t).edges ||| 8 } else s.th k := by
  unfold State.timerStands
  by_cases hdue : due = true
  · rw [if_pos hdue, State.th_edge]
    by_cases hk : k = t
    · subst hk
      by_cases hbusy : (s.th k).busy = true
      · rw [if_pos rfl, if_pos ⟨rfl, hdue, hbusy⟩, Thread.latched_of_busy hbusy]
        rfl
      · rw [if_pos rfl, if_neg (fun h => hbusy h.2.2), Thread.latched_of_free (by simpa using hbusy)]
    · rw [if_neg hk, if_neg (fun h => hk h.1)]
  · rw [if_neg hdue, if_neg (fun h => hdue h.2.1)]

theorem State.th_timerStands_other (s : State) {t k : Nat} (due : Bool) (h : k ≠ t) : (s.timerStands t due).th k = s.th k :=
  (s.th_timerStands t k due).trans (if_neg (fun hk => h hk.1))

/-- TIMER sets no more of a thread than its edges. -/
theorem State.th_timerStands_same (s : State) (t : Nat) (due : Bool) : ∃ e, (s.timerStands t due).th t = { s.th t with edges := e } := by
  have hth := s.th_timerStands t t due
  split at hth
  · exact ⟨_, hth⟩
  · exact ⟨(s.th t).edges, hth⟩

theorem State.still_timerStands (s : State) (t c : Nat) (due : Bool) : ((s.timerStands t due).cl c).still = (s.cl c).still := by
  unfold State.timerStands
  split
  · exact s.still_edge t 3 c
  · rfl

theorem State.outer_timerStands (s : State) (t : Nat) (due : Bool) : (s.timerStands t due).outer = s.outer := by
  unfold State.timerStands
  split
  · exact s.outer_edge t 3
  · rfl

section
variable {id : ThreadId} (hlives : lives s id) (hbranches : (s.th (threadNo id)).branches = b :: rest)
include hlives hbranches

theorem exec_branchResolve_of_stands (htakes : s.takes (threadNo id) b rest = false) :
    exec (.branchResolve id) s = .next (s.branchStands (threadNo id) b rest).watch := by
  have hstands : s.branchResolve (threadNo id) = s.branchStands (threadNo id) b rest := by
    unfold State.branchResolve
    rw [hbranches]
    exact if_neg (by simp [htakes])
  exact (answer_of_lives hlives _).trans (congrArg _ (congrArg State.watch hstands))

theorem exec_branchResolve_of_taken (htakes : s.takes (threadNo id) b rest = true) :
    exec (.branchResolve id) s = .next (s.branchTaken (threadNo id) b rest).watch := by
  have htaken : s.branchResolve (threadNo id) = s.branchTaken (threadNo id) b rest := by
    unfold State.branchResolve
    rw [hbranches]
    exact if_pos htakes
  exact (answer_of_lives hlives _).trans (congrArg _ (congrArg State.watch htaken))

theorem givesSome_branch_goesOn (htakes : s.takes (threadNo id) b rest = false) (hlate : b.late = none) (hstores : b.stores = [])
    (hpoison : b.poison = false) :
    givesSome (.branchResolve id) s (fun u => onlyThread s u (threadNo id) { s.th (threadNo id) with
      branches := rest
      edges := if dueWith b rest = true ∧ (s.th (threadNo id)).busy = true then (s.th (threadNo id)).edges ||| 8
        else (s.th (threadNo id)).edges } s.net) := by
  have hexec := exec_branchResolve_of_stands hlives hbranches htakes
  have hrun : s.branchStands (threadNo id) b rest = (s.branchKept (threadNo id) b rest).timerStands (threadNo id) (dueWith b rest) := by
    rw [branchStands_eq]
    dsimp only
    rw [hlate, hpoison]
    rfl
  rw [hrun] at hexec
  refine ⟨_, hexec, ?_⟩
  generalize threadNo id = t
  have hkept : ∀ k, (s.branchKept t b rest).th k = if k = t then { s.th t with branches := rest } else s.th k := fun k => by
    unfold State.branchKept
    rw [hstores, State.th_after_count, State.th_after_count]
    exact s.th_modTh t k _
  have hstill : ∀ c, ((s.branchKept t b rest).cl c).still = (s.cl c).still := fun c => by
    unfold State.branchKept
    rw [hstores, State.cl_after_count, State.cl_after_count]
    exact s.still_modTh t c _
  refine ⟨?_, fun k hk => ?_, clustersSame_of_still fun c => ?_, State.eq_of_outer ?_⟩
  · rw [State.th_after_watch, State.th_timerStands, hkept, if_pos rfl]
    dsimp only
    simp only [true_and]
    split <;> rfl
  · rw [State.th_after_watch, State.th_timerStands_other _ _ hk, hkept, if_neg hk]
  · rw [State.still_watch, State.still_timerStands, hstill]
  · rw [State.outer_watch, State.outer_timerStands, State.outer_branchKept]

theorem givesSome_branch_poisons (htakes : s.takes (threadNo id) b rest = false) (hlate : b.late = none) (hpoison : b.poison = true) :
    givesSome (.branchResolve id) s (fun u =>
      u.net = s.net ++ [⟨threadNo id / 128, 26, .poison (threadNo id) (s.th (threadNo id)).record (s.th (threadNo id)).gen⟩]
        ∧ (u.th (threadNo id)).branches = rest ∧ othersSame s u (threadNo id)) := by
  have hexec := exec_branchResolve_of_stands hlives hbranches htakes
  have hrun : s.branchStands (threadNo id) b rest =
      ((s.branchKept (threadNo id) b rest).sendPoison (threadNo id)).timerStands (threadNo id) (dueWith b rest) := by
    rw [branchStands_eq]
    dsimp only
    rw [hlate, hpoison]
    rfl
  rw [hrun] at hexec
  refine ⟨_, hexec, ?_⟩
  generalize threadNo id = t
  have hkept := s.th_branchKept t t b rest
  rw [if_pos rfl] at hkept
  refine ⟨?_, ?_, fun k hk => ?_⟩
  · rw [State.watch_net, State.outer_net (State.outer_timerStands _ _ _), State.sendPoison, hkept]
    exact congrArg (· ++ _) (State.outer_net (s.outer_branchKept t b rest))
  · obtain ⟨e, hown⟩ := State.th_timerStands_same ((s.branchKept t b rest).sendPoison t) t (dueWith b rest)
    rw [State.th_after_watch, hown, State.sendPoison, State.th_after_send, hkept]
  · rw [State.th_after_watch, State.th_timerStands_other _ _ hk, State.sendPoison, State.th_after_send, s.th_branchKept, if_neg hk]

theorem givesSome_branch_stores (htakes : s.takes (threadNo id) b rest = false) (hlate : b.late = none) (hpoison : b.poison = false)
    (hdue : dueWith b rest = false) :
    givesSome (.branchResolve id) s (fun u =>
      let w := b.stores.foldl (fun v e => v.nearWrite (threadNo id) e.1 e.2) (s.modTh (threadNo id) (fun x => { x with branches := rest }))
      (∀ k, u.th k = w.th k) ∧ ∀ c, (u.cl c).coreMem = (w.cl c).coreMem ∧ (u.cl c).clMem = (w.cl c).clMem) := by
  have hexec := exec_branchResolve_of_stands hlives hbranches htakes
  have hrun : s.branchStands (threadNo id) b rest = s.branchKept (threadNo id) b rest := by
    rw [branchStands_eq]
    dsimp only
    rw [hlate, hpoison, hdue]
    rfl
  rw [hrun] at hexec
  exact ⟨_, hexec, fun _ => rfl, fun _ => ⟨rfl, rfl⟩⟩

/-! ### A late fault (R92, R166, R173) -/

omit hlives hbranches in
theorem State.th_haltFault (s : State) (t u k a ac j : Nat) :
    (s.haltFault t u k a ac).th j =
      if j = t then { s.th t with halt := .fault, wait := .none, waitSyls := [], bundle := [], trap := none } else s.th j := by
  unfold State.haltFault
  dsimp only
  rw [State.th_freeLocks, State.th_after_send]
  split <;> simp [State.th_modTh]

omit hlives hbranches in
theorem State.mem_net_haltFault (s : State) (t u k a ac : Nat) :
    (⟨t / 128, 26, .fault t (s.th t).record (s.th t).gen (BitVec.ofNat 8 k)⟩ : Crossing) ∈ (s.haltFault t u k a ac).net := by
  unfold State.haltFault
  exact State.mem_net_freeLocks t (List.mem_append_right _ (List.mem_singleton_self _))

theorem givesSome_branch_faults (htakes : s.takes (threadNo id) b rest = false) {f : LateFault} (hlate : b.late = some f)
    (htrap : f.trap = none) :
    givesSome (.branchResolve id) s (fun u =>
      (u.th (threadNo id)).halt = .fault ∧ (u.th (threadNo id)).wait = .none
        ∧ ⟨threadNo id / 128, 26, .fault (threadNo id) (s.th (threadNo id)).record (s.th (threadNo id)).gen f.kind⟩ ∈ u.net) := by
  have hexec := exec_branchResolve_of_stands hlives hbranches htakes
  rw [branchStands_eq] at hexec
  dsimp only at hexec
  rw [hlate] at hexec
  dsimp only at hexec
  rw [htrap] at hexec
  refine ⟨_, hexec, ?_⟩
  generalize threadNo id = t
  have hkept := s.th_branchKept t t b rest
  rw [if_pos rfl] at hkept
  have hpoisoned : ∀ k, (if b.poison then (s.branchKept t b rest).sendPoison t else s.branchKept t b rest).th k = (s.branchKept t b rest).th k :=
    fun k => by split <;> rfl
  generalize (if b.poison then (s.branchKept t b rest).sendPoison t else s.branchKept t b rest) = v at hpoisoned ⊢
  have hlife : ((v.timerStands t (dueWith b rest)).th t).record = (s.th t).record ∧ ((v.timerStands t (dueWith b rest)).th t).gen = (s.th t).gen := by
    obtain ⟨e, hown⟩ := v.th_timerStands_same t (dueWith b rest)
    rw [hown, hpoisoned, hkept]
    exact ⟨rfl, rfl⟩
  obtain ⟨hrecord, hgen⟩ := hlife
  have hmem := State.mem_net_haltFault (v.timerStands t (dueWith b rest)) t f.unit f.kind.toNat f.addr f.access
  rw [hrecord, hgen, BitVec.ofNat_toNat, BitVec.setWidth_eq] at hmem
  refine ⟨?_, ?_, hmem⟩
  · rw [State.th_after_watch, State.th_haltFault, if_pos rfl]
  · rw [State.th_after_watch, State.th_haltFault, if_pos rfl]

/-! ### A branch that is taken (R117, R119) -/

/-- What the squashed bundles began. -/
def squashedIds (b : Branch) (rest : List Branch) : List Nat := b.begun ++ rest.flatMap (·.begun)

/-- The thread after a squash: the snapshot's registers at the target, and nothing of what was begun under the branches. -/
def Thread.squashed (x : Thread) (b : Branch) (rest : List Branch) : Thread :=
  { x with
    regs := b.regs, pc := b.target, branches := [], bundle := []
    loads := x.loads.filter (fun l => !(squashedIds b rest).contains l.id)
    helper := if x.helper.any ((squashedIds b rest).contains ·) then none else x.helper }

/-- The helper operations begun under the branches are cancelled. -/
def State.cancelSquashed (s : State) (c : Nat) (l : List Nat) : State :=
  s.modCl c (fun k => { k with hops := k.hops.map (fun h => if l.contains h.id then { h with cancelled := true } else h) })

omit hlives hbranches in
/-- A branch taken leaves, but for counts, the squashed thread with the timer of the snapshot. -/
theorem branchTaken_eq (s : State) (t : Nat) (b : Branch) (rest : List Branch) :
    ∃ x y : Nat, s.branchTaken t b rest =
      State.count (State.count (State.count
        (((s.cancelSquashed (t / 128) (squashedIds b rest)).modTh t (·.squashed b rest)).timerStands t b.due)
        (src (t / 128) (coreOf t)) 0x11 x) (src (t / 128) (coreOf t)) 0x21 y) (src (t / 128) (coreOf t)) 0x14 := ⟨_, _, rfl⟩

omit hlives hbranches in
theorem State.th_cancelSquashed (s : State) (c k : Nat) (l : List Nat) : (s.cancelSquashed c l).th k = s.th k := s.th_modCl c k _ rfl

omit hlives hbranches in
theorem State.mems_cancelSquashed (s : State) (c k : Nat) (l : List Nat) :
    ((s.cancelSquashed c l).cl k).coreMem = (s.cl k).coreMem ∧ ((s.cancelSquashed c l).cl k).clMem = (s.cl k).clMem := by
  unfold State.cancelSquashed
  rw [State.cl_modCl]
  split
  next hk => rw [hk]; exact ⟨rfl, rfl⟩
  next => exact ⟨rfl, rfl⟩

theorem givesSome_branch_taken (htakes : s.takes (threadNo id) b rest = true) :
    givesSome (.branchResolve id) s (fun u =>
      (u.th (threadNo id)).regs = b.regs ∧ (u.th (threadNo id)).pc = b.target ∧ (u.th (threadNo id)).branches = []
        ∧ (u.th (threadNo id)).bundle = []
        ∧ (u.th (threadNo id)).loads = (s.th (threadNo id)).loads.filter (fun l => !(b.begun ++ rest.flatMap (·.begun)).contains l.id)
        ∧ othersSame s u (threadNo id) ∧ (∀ c, (u.cl c).coreMem = (s.cl c).coreMem ∧ (u.cl c).clMem = (s.cl c).clMem)
        ∧ u = { s with clusters := u.clusters, obs := u.obs }) := by
  have hexec := exec_branchResolve_of_taken hlives hbranches htakes
  generalize threadNo id = t at hexec ⊢
  obtain ⟨m, n, heq⟩ := branchTaken_eq s t b rest
  rw [heq] at hexec
  obtain ⟨e, hown⟩ := State.th_timerStands_same ((s.cancelSquashed (t / 128) (squashedIds b rest)).modTh t (·.squashed b rest)) t b.due
  rw [State.th_modTh_same, State.th_cancelSquashed] at hown
  refine ⟨_, hexec, ?_, ?_, ?_, ?_, ?_, fun k hk => ?_, fun c => ?_, State.eq_of_outer ?_⟩
  · rw [State.th_after_watch, State.th_after_count, State.th_after_count, State.th_after_count, hown]
    rfl
  · rw [State.th_after_watch, State.th_after_count, State.th_after_count, State.th_after_count, hown]
    rfl
  · rw [State.th_after_watch, State.th_after_count, State.th_after_count, State.th_after_count, hown]
    rfl
  · rw [State.th_after_watch, State.th_after_count, State.th_after_count, State.th_after_count, hown]
    rfl
  · rw [State.th_after_watch, State.th_after_count, State.th_after_count, State.th_after_count, hown]
    rfl
  · rw [State.th_after_watch, State.th_after_count, State.th_after_count, State.th_after_count, State.th_timerStands_other _ _ hk,
      State.th_modTh, if_neg hk, State.th_cancelSquashed]
  · have hstill : ((((s.cancelSquashed (t / 128) (squashedIds b rest)).modTh t (·.squashed b rest)).timerStands t b.due).cl c).still =
        ((s.cancelSquashed (t / 128) (squashedIds b rest)).cl c).still := (State.still_timerStands _ _ _ _).trans (State.still_modTh _ _ _ _)
    obtain ⟨hcore, hcl⟩ := s.mems_cancelSquashed (t / 128) c (squashedIds b rest)
    rw [State.cl_after_watch, State.cl_after_count, State.cl_after_count, State.cl_after_count]
    exact ⟨(Cluster.still_coreMem hstill).trans hcore, (Cluster.still_clMem hstill).trans hcl⟩
  · rw [State.outer_watch, State.outer_count, State.outer_count, State.outer_count, State.outer_timerStands, State.outer_modTh,
      State.cancelSquashed, State.outer_modCl]

end
end

theorem branchesStandOrSquash : Claims.BranchesStandOrSquash := by
  unfold Claims.BranchesStandOrSquash
  intro s id b rest hlives t x hbranches takes due
  have htakes : takes = s.takes t b rest := by
    simp only [takes]
    cases hbhb : b.bhb with
    | none => exact (takes_of_plain s t rest hbhb).symm
    | some k => exact (takes_of_bhb s t rest hbhb).symm
  clear_value takes
  subst htakes
  exact ⟨givesSome_branch_goesOn hlives hbranches, givesSome_branch_poisons hlives hbranches, givesSome_branch_stores hlives hbranches,
    fun h _ hlate htrap => givesSome_branch_faults hlives hbranches h hlate htrap, givesSome_branch_taken hlives hbranches⟩

end Sys2Proof.Machine
end

section
/-! Traps and NMIs, lock grants, halts and aborts as they reach their thread (R99, R134, R135, R174, R175, R199). -/

namespace Sys2Proof.Machine

open Sys2Proof.Claims

/-! ### The trap save area (R175) -/

section
variable (m : Mem) (q : TrapReq) (fl : Fl)

theorem length_saveArea : (saveArea q fl).length = 16 := by simp [saveArea]

theorem mget_saved {i : Nat} (h : i < 16) : mget (mwrite m 0x5F0 (saveArea q fl)) (0x5F0 + i) = (saveArea q fl).getD i 0 :=
  mget_mwrite_inside _ _ _ _ (by rw [length_saveArea]; exact h)

theorem savedPc : mreadLE (mwrite m 0x5F0 (saveArea q fl)) 0x5F4 2 = q.pc.toNat := by
  have hread : mread (mwrite m 0x5F0 (saveArea q fl)) 0x5F4 2 = leBytes 2 q.pc.toNat := by
    have hlow := mget_saved m q fl (i := 4) (by omega)
    have hhigh := mget_saved m q fl (i := 5) (by omega)
    have hbytes : mread (mwrite m 0x5F0 (saveArea q fl)) 0x5F4 2 =
        [mget (mwrite m 0x5F0 (saveArea q fl)) (0x5F0 + 4), mget (mwrite m 0x5F0 (saveArea q fl)) (0x5F0 + 5)] := rfl
    rw [hbytes, hlow, hhigh]
    rfl
  rw [mreadLE, hread, leVal_leBytes]
  exact Nat.mod_eq_of_lt q.pc.isLt

theorem savedCause : mget (mwrite m 0x5F0 (saveArea q fl)) 0x5F6 = BitVec.ofNat 8 (q.cause.toNat % 256) :=
  mget_saved m q fl (i := 6) (by omega)

theorem savedFlags : mget (mwrite m 0x5F0 (saveArea q fl)) 0x5F7 = BitVec.ofNat 8 (q.cause.toNat / 256 * 64 + fl.toNat) :=
  mget_saved m q fl (i := 7) (by omega)

end

/-! ### Entry (R134, R174) -/

theorem bankWord_congr {s u : State} (h : u.outer = s.outer) (tag w : Nat) : bankWord u tag w = bankWord s tag w := by
  unfold bankWord State.copy
  rw [State.outer_accord h]

/-- The thread at the vector of its trap, with what the save area keeps. -/
def Thread.atVector (x : Thread) (q : TrapReq) (vector : Nat) : Thread :=
  { x with
    regs := { x.regs with frame := mwrite x.regs.frame 0x5F0 (saveArea q x.regs.fl) }
    inTrap := true, trap := none, pc := BitVec.ofNat 16 vector, nmi := if q.nmi then false else x.nmi }

theorem enterTrap_eq (s : State) (t : Nat) (q : TrapReq) :
    s.enterTrap t q = (s.modTh t (·.atVector q (bankWord s (s.th t).accord (if q.nmi then 0x42 else 0x41)))).count
      (src (t / 128) (coreOf t)) 0x15 := rfl

@[simp] theorem State.outer_leaveWait (s : State) (t : Nat) : (s.leaveWait t).outer = s.outer := by
  unfold State.leaveWait
  split <;> rfl

/-- A thread leaves its wait, if it stands in one, and the list of a channel that it is blocked on, for its NMI. -/
def State.leftForNmi (s : State) (t : Nat) : State :=
  ((s.leaveWait t).modCl (t / 128) (·.unblock (t % 128))).modTh t (fun x => { x with wait := .none, waitSyls := [], bundle := [] })

theorem State.th_leftForNmi (s : State) (t k : Nat) :
    (s.leftForNmi t).th k = if k = t then { s.th t with wait := .none, waitSyls := [], bundle := [] } else s.th k := by
  unfold State.leftForNmi
  rw [State.th_modTh, State.th_unblock, State.th_unblock, State.th_leaveWait, State.th_leaveWait]

theorem State.outer_leftForNmi (s : State) (t : Nat) : (s.leftForNmi t).outer = s.outer := by
  rw [State.leftForNmi, State.outer_modTh, State.outer_modCl, State.outer_leaveWait]

section
variable {s : State} {id : ThreadId} (hlives : lives s id)
include hlives

theorem givesSome_nmiEntry (hnmi : (s.th (threadNo id)).nmi = true) (hbusy : (s.th (threadNo id)).busy = true)
    (hhalt : (s.th (threadNo id)).halt = .none) (htrap : (s.th (threadNo id)).inTrap = false) (hplain : (s.th (threadNo id)).branches = [])
    (hnone : (s.th (threadNo id)).trap = none) (hloads : (s.th (threadNo id)).loads = []) (hhelper : (s.th (threadNo id)).helper = none)
    (hwait : (s.th (threadNo id)).wait = .none ∨ (s.th (threadNo id)).idle = true) :
    let t := threadNo id
    let x := s.th t
    givesSome (.nmiEntry id) s (fun u =>
      (u.th t).pc = BitVec.ofNat 16 (bankWord s x.accord 0x42) ∧ (u.th t).inTrap = true ∧ (u.th t).nmi = false ∧ (u.th t).wait = .none
        ∧ (u.th t).staging = x.staging ∧ mreadLE (u.th t).regs.frame 0x5F4 2 = x.pc.toNat ∧ mget (u.th t).regs.frame 0x5F6 = 4
        ∧ mget (u.th t).regs.frame 0x5F7 = x.regs.fl.setWidth 8 ∧ (u.th t).regs.acc = x.regs.acc ∧ othersSame s u t) := by
  have hexec : exec (.nmiEntry id) s = .next (s.nmiEntry (threadNo id)).watch := answer_of_lives hlives _
  dsimp only
  generalize threadNo id = t at *
  have hlanded : (s.leftForNmi t).landed t = true := by
    rw [State.landed, State.th_leftForNmi, if_pos rfl]
    simp [hloads, hhelper]
  obtain ⟨q, hpc, hcause, hqnmi, hentry⟩ : ∃ q : TrapReq, q.pc = (s.th t).pc ∧ q.cause = 4 ∧ q.nmi = true
      ∧ s.nmiEntry t = (s.leftForNmi t).enterTrap t q := by
    refine ⟨_, ?_, ?_, ?_, (if_pos ⟨hnmi, hbusy, hhalt, by simp [htrap], by simp [Thread.plain, hplain], hnone, hwait⟩).trans (if_pos hlanded)⟩ <;> rfl
  rw [hentry, enterTrap_eq, bankWord_congr (s.outer_leftForNmi t), hqnmi] at hexec
  have hthread : (s.leftForNmi t).th t = { s.th t with wait := .none, waitSyls := [], bundle := [] } :=
    (s.th_leftForNmi t t).trans (if_pos rfl)
  rw [hthread] at hexec
  have hafter : ∀ k, (State.watch (((s.leftForNmi t).modTh t (·.atVector q (bankWord s (s.th t).accord 0x42))).count
      (src (t / 128) (coreOf t)) 0x15)).th k = if k = t then
        Thread.atVector { s.th t with wait := .none, waitSyls := [], bundle := [] } q (bankWord s (s.th t).accord 0x42) else s.th k := fun k => by
    rw [State.th_after_watch, State.th_after_count, State.th_modTh, hthread]
    split
    next => rfl
    next hk => exact (s.th_leftForNmi t k).trans (if_neg hk)
  refine ⟨_, hexec, ?_⟩
  have hown := (hafter t).trans (if_pos rfl)
  simp only [if_true, hown]
  refine ⟨rfl, rfl, ?_, rfl, rfl, ?_, ?_, ?_, rfl, fun k hk => (hafter k).trans (if_neg hk)⟩
  · simp [Thread.atVector, hqnmi]
  · exact (savedPc _ _ _).trans (congrArg _ hpc)
  · refine (savedCause _ _ _).trans ?_
    rw [hcause]
    rfl
  · refine (savedFlags _ _ _).trans ?_
    rw [hcause]
    apply BitVec.eq_of_toNat_eq
    simp

theorem givesSome_trapEntry {q : TrapReq} (htrap : (s.th (threadNo id)).trap = some q) (hloads : (s.th (threadNo id)).loads = [])
    (hhelper : (s.th (threadNo id)).helper = none) (hhalt : (s.th (threadNo id)).halt = .none) :
    let t := threadNo id
    let x := s.th t
    givesSome (.trapEntry id) s (fun u =>
      onlyThread s u t { x with regs := { x.regs with frame := mwrite x.regs.frame 0x5F0 (saveArea q x.regs.fl) }, inTrap := true, trap := none,
                                pc := BitVec.ofNat 16 (bankWord s x.accord (if q.nmi then 0x42 else 0x41)), nmi := x.nmi && !q.nmi } s.net) := by
  have hexec : exec (.trapEntry id) s = .next (s.trapEntry (threadNo id)).watch := answer_of_lives hlives _
  dsimp only
  generalize threadNo id = t at *
  have hentry : s.trapEntry t = s.enterTrap t q := by
    unfold State.trapEntry
    rw [htrap]
    exact if_pos ⟨by simp [State.landed, hloads, hhelper], hhalt⟩
  rw [hentry, enterTrap_eq] at hexec
  refine ⟨_, hexec, ?_, fun k hk => ?_, clustersSame_of_still fun c => ?_, State.eq_of_outer ?_⟩
  · rw [State.th_after_watch, State.th_after_count, State.th_modTh_same, Thread.atVector]
    cases q.nmi <;> simp
  · rw [State.th_after_watch, State.th_after_count, State.th_modTh, if_neg hk]
  · rw [State.still_watch, State.cl_after_count, State.still_modTh]
  · rw [State.outer_watch, State.outer_count, State.outer_modTh]

/-! ### Halts and aborts (R99, R135) -/

theorem givesSome_threadHalt (hasked : (s.th (threadNo id)).haltReq = true) (hplain : (s.th (threadNo id)).branches = []) :
    let t := threadNo id
    let x := s.th t
    givesSome (.threadHalt id) s (fun u =>
      onlyThread s u t { x with haltReq := false, bundle := [], halt := if x.halt = .fault then .fault else .debug } s.net) := by
  have hexec : exec (.threadHalt id) s = .next (s.threadHalt (threadNo id)).watch := answer_of_lives hlives _
  dsimp only
  generalize threadNo id = t at *
  have hhalt : s.threadHalt t = s.modTh t (fun x => { x with
      haltReq := false, bundle := [], halt := if x.halt = .fault then .fault else .debug }) :=
    if_pos ⟨hasked, by simp [Thread.plain, hplain]⟩
  rw [hhalt] at hexec
  refine ⟨_, hexec, ?_, fun k hk => ?_, clustersSame_of_still fun c => ?_, State.eq_of_outer ?_⟩
  · rw [State.th_after_watch, State.th_modTh_same]
  · rw [State.th_after_watch, State.th_modTh, if_neg hk]
  · rw [State.still_watch, State.still_modTh]
  · rw [State.outer_watch, State.outer_modTh]

theorem givesSome_threadAbort (hasked : (s.th (threadNo id)).abortReq = true) (hbusy : (s.th (threadNo id)).busy = true) :
    let t := threadNo id
    let x := s.th t
    givesSome (.threadAbort id) s (fun u =>
      (u.th t).busy = false ∧ ⟨t / 128, 26, .fault t x.record x.gen 0⟩ ∈ u.net ∧ ⟨t / 128, 26, .threadFree t⟩ ∈ u.net ∧ othersSame s u t) := by
  have hexec : exec (.threadAbort id) s = .next (s.threadAbort (threadNo id)).watch := answer_of_lives hlives _
  dsimp only
  generalize threadNo id = t at *
  have habort : s.threadAbort t =
      State.send ((s.send (t / 128) 26 (.fault t (s.th t).record (s.th t).gen 0)).endWork t false) (t / 128) 26 (.threadFree t) :=
    if_pos ⟨hasked, hbusy⟩
  rw [habort] at hexec
  have hbusy' : ((s.send (t / 128) 26 (.fault t (s.th t).record (s.th t).gen 0)).th t).busy = true := hbusy
  refine ⟨_, hexec, ?_, ?_, ?_, fun k hk => ?_⟩
  · rw [State.th_after_watch, State.th_after_send]
    exact State.busy_endWork false hbusy'
  · exact State.mem_net_send _ _ _ (State.mem_net_endWork false hbusy' (List.mem_append_right _ (List.mem_singleton_self _)))
  · exact List.mem_append_right _ (List.mem_singleton_self _)
  · rw [State.th_after_watch, State.th_after_send]
    exact State.th_endWork_other false hbusy' hk

end

/-! ### Lock grants (R199) -/

theorem givesSome_lockGrantArrive {s : State} {g c t lock q : Nat} (hg : g < 4) (hc : c < 26)
    (hm : s.arrive (37 + g) c = some (.lockGrant t lock q)) (hahead : s.replyAhead c (37 + g) q = false) (hbusy : (s.th t).busy = true)
    (hlock : (s.th t).lockWait = some lock) (hhalt : (s.th t).halt ≠ .debug) :
    givesSome (.lockGrantArrive g c) s (fun u =>
      u.th t = { s.th t with lockWait := none, edges := (s.th t).edges ||| 0x10 } ∧ othersSame s u t ∧ u.net = dropCrossing (37 + g) c s.net) := by
  have hexec : exec (.lockGrantArrive g c) s = .next (s.lockGrantArrive g c).watch := congrArg answer (if_pos (by simp [hg, hc]))
  have hgrant : s.lockGrantArrive g c = ((s.taken (37 + g) c).modTh t (fun x => { x with lockWait := none })).edge t 4 := by
    unfold State.lockGrantArrive
    rw [hm]
    dsimp only
    rw [if_neg (by simp [hahead]), if_pos ⟨hbusy, hlock⟩, if_neg]
    rw [State.th_modTh_same]
    exact hhalt
  rw [hgrant] at hexec
  refine ⟨_, hexec, ?_, fun k hk => ?_, ?_⟩
  · have hstill : (((s.taken (37 + g) c).modTh t (fun x => { x with lockWait := none })).th t) = { s.th t with lockWait := none } :=
      State.th_modTh_same _ _ _
    rw [State.th_after_watch, State.th_edge, if_pos rfl, hstill]
    exact Thread.latched_of_busy (x := { s.th t with lockWait := none }) hbusy 4
  · rw [State.th_after_watch, State.th_edge, if_neg hk, State.th_modTh, if_neg hk, State.th_after_taken]
  · rw [State.watch_net, State.outer_net (State.outer_edge _ _ _)]
    rfl

theorem trapsGrantsHaltsAndAbortsReachTheThread : Claims.TrapsGrantsHaltsAndAbortsReachTheThread := by
  unfold Claims.TrapsGrantsHaltsAndAbortsReachTheThread
  exact ⟨fun _ _ => givesSome_nmiEntry, fun _ _ _ hlives => givesSome_trapEntry hlives, fun _ _ _ _ _ _ hg hc _ => givesSome_lockGrantArrive hg hc,
    fun _ _ => givesSome_threadHalt, fun _ _ => givesSome_threadAbort⟩

/-- Settles O15: the oldest branch by whether it is taken and what was held under it; the other rows by the change of their one thread. -/
theorem branchesTrapsAndAbortsTakeEffect : Obligations.BranchesTrapsAndAbortsTakeEffect :=
  ⟨branchesStandOrSquash, trapsGrantsHaltsAndAbortsReachTheThread⟩

end Sys2Proof.Machine
end

section
/-! The debugger's commands, FAULT_INJECT and the JTAG port (R135 to R137, R388, R432, R433, R466 to R470). -/

namespace Sys2Proof.Machine

open Sys2Proof.Claims

/-! ### A debug operation on a thread of a running cluster (R432) -/

/-- A debug command runs its operation once start-up has ended (R520). -/
theorem debugRuns_of_done {v : State} {r ran : Ran} (hdone : after v [9]) (hr : r = ran) : v.after 9 r = ran :=
  (after_of_done hdone (by simp) r).trans hr

/-- What a change of thread `t` alone makes of the threads. -/
theorem th_modTh_alone (v : State) (t : Nat) (f : Thread → Thread) {z : Thread} (hz : f (v.th t) = z) :
    (v.modTh t f).th t = z ∧ ∀ k, k ≠ t → (v.modTh t f).th k = v.th k :=
  ⟨(State.th_modTh_same v t f).trans hz, fun k hk => by rw [State.th_modTh, if_neg hk]⟩

theorem Thread.haltMeets_of_withdrawn {x : Thread} (hrun : x.halt = .none) (hreq : x.haltReq = false) (now me : Nat) :
    x.haltMeets now me = false := by
  unfold Thread.haltMeets
  cases x.haltAt <;> simp [hrun, hreq]

theorem Thread.haltMeets_of_other {x : Thread} {now me other : Nat} (hhalt : x.halt = .debug) (hat : x.haltAt = some (now, other))
    (hother : other ≠ me) : x.haltMeets now me = true := by
  simp [Thread.haltMeets, hat, hhalt, hother]

theorem Thread.haltMeets_of_own {x : Thread} {now me : Nat} (hown : ∀ other, x.haltAt = some (now, other) → other = me) :
    x.haltMeets now me = false := by
  unfold Thread.haltMeets
  cases hat : x.haltAt with
  | none => rfl
  | some h =>
    obtain ⟨instant, other⟩ := h
    by_cases hnow : instant = now
    · subst hnow
      simp [hown other hat]
    · simp [hnow]

/-- Grants held back as they are already leave the thread as it is. -/
theorem Thread.holds_same {x : Thread} {grant lock : Bool} (hgrant : x.granted = grant) (hlock : x.lockGranted = lock) :
    { x with granted := grant, lockGranted := lock } = x := by
  subst hgrant hlock
  rfl

theorem th_applyHeld_of_nothing {v : State} {t : Nat} (hgrant : (v.th t).granted = false) (hlock : (v.th t).lockGranted = false) (k : Nat) :
    (v.applyHeld t).th k = v.th k := by
  unfold State.applyHeld
  dsimp only
  rw [hgrant, hlock, if_neg Bool.false_ne_true, if_neg Bool.false_ne_true, State.th_modTh]
  split
  next hk => rw [Thread.holds_same hgrant hlock, hk]
  next => rfl

section
variable {v : State} {t : Nat} (ht : t < 26 * 128) (hup : v.up (t / 128) = true)
include ht hup

theorem onThread_of_up (r : Ran) : v.onThread t r = r := by
  rw [State.onThread, if_neg (Nat.not_le.2 ht), onIsland_of_up hup]

/-! ### DBG_HALT (R135) -/

theorem dbgHalt_of_free (me : Nat) (hbusy : (v.th t).busy = false) : v.dbgHalt t me = .done stBadState [] v := by
  unfold State.dbgHalt
  dsimp only
  rw [onThread_of_up ht hup, if_pos (by simp [hbusy])]

theorem dbgHalt_of_halted (me : Nat) (hbusy : (v.th t).busy = true) (hhalt : (v.th t).halt ≠ .none) :
    v.dbgHalt t me = .done stAlready [] v := by
  unfold State.dbgHalt
  dsimp only
  rw [onThread_of_up ht hup, if_neg (by simp [hbusy]), if_pos hhalt]

theorem dbgHalt_of_running (me : Nat) (hbusy : (v.th t).busy = true) (hhalt : (v.th t).halt = .none) (hwait : (v.th t).wait = .none) :
    v.dbgHalt t me = .ok (v.modTh t (fun x => { x with haltReq := true, haltAt := some (v.time.elapsed, me) })) := by
  unfold State.dbgHalt
  dsimp only
  rw [onThread_of_up ht hup, if_neg (by simp [hbusy]), if_neg (not_not.2 hhalt), hwait]

theorem dbgHalt_of_wfe (me : Nat) {m : BitVec 16} (hbusy : (v.th t).busy = true) (hhalt : (v.th t).halt = .none)
    (hwait : (v.th t).wait = .wfe m) :
    v.dbgHalt t me = .ok (v.modTh t (fun x => { x with halt := .debug, haltReq := false, haltAt := some (v.time.elapsed, me) })) := by
  unfold State.dbgHalt
  dsimp only
  rw [onThread_of_up ht hup, if_neg (by simp [hbusy]), if_neg (not_not.2 hhalt), hwait]

/-! ### DBG_RESUME (R135, R470) -/

theorem dbgResume_of_running (me : Nat) (hhalt : (v.th t).halt = .none) (hreq : (v.th t).haltReq = false) :
    v.dbgResume t me = .done stAlready [] v := by
  unfold State.dbgResume
  dsimp only
  rw [onThread_of_up ht hup, if_neg (by simp [Thread.haltMeets_of_withdrawn hhalt hreq]), if_neg (by simp [hhalt]), if_neg (by simp [hreq])]

theorem dbgResume_of_met {me other : Nat} (hhalt : (v.th t).halt = .debug) (hat : (v.th t).haltAt = some (v.time.elapsed, other))
    (hother : other ≠ me) : v.dbgResume t me = .ok v := by
  unfold State.dbgResume
  dsimp only
  rw [onThread_of_up ht hup, if_pos (Thread.haltMeets_of_other hhalt hat hother)]

theorem dbgResume_of_halted {me : Nat} (hhalt : (v.th t).halt = .debug)
    (hown : ∀ other, (v.th t).haltAt = some (v.time.elapsed, other) → other = me) :
    v.dbgResume t me = .ok ((v.modTh t (fun x => { x with halt := .none, haltReq := false, bpPass := true })).applyHeld t) := by
  unfold State.dbgResume
  dsimp only
  rw [onThread_of_up ht hup, if_neg (by simp [Thread.haltMeets_of_own hown]), if_pos hhalt]

/-! ### DBG_STEP and DBG_STATE (R114, R136) -/

theorem dbgStep_of_running (hhalt : (v.th t).halt ≠ .debug) : v.dbgStep t = .done stBadState [] v := by
  unfold State.dbgStep
  rw [onThread_of_up ht hup, if_pos hhalt]

theorem dbgStep_of_stepped {u : State} (hhalt : (v.th t).halt = .debug) (hstep : v.stepBundle t = some u) :
    v.dbgStep t = .done stDone ((u.haltAgain t).threadWord t) (u.haltAgain t) := by
  unfold State.dbgStep
  rw [onThread_of_up ht hup, if_neg (not_not.2 hhalt), hstep]

theorem dbgStep_of_stuck (hhalt : (v.th t).halt = .debug) (hstep : v.stepBundle t = none) : v.dbgStep t = .wait := by
  unfold State.dbgStep
  rw [onThread_of_up ht hup, if_neg (not_not.2 hhalt), hstep]

theorem dbgState_of_up : v.dbgState t = .done stDone (v.threadWord t) v := onThread_of_up ht hup _

/-! ### DBG_CH_ABORT and DBG_ABORT (R136) -/

theorem dbgChAbort_of_running (hhalt : (v.th t).halt = .none) : v.dbgChAbort t = .done stBadState [] v := by
  unfold State.dbgChAbort
  dsimp only
  rw [onThread_of_up ht hup, if_pos hhalt]

theorem dbgChAbort_of_nothing (hhalt : (v.th t).halt ≠ .none) (hstaging : (v.th t).staging = []) (hwait : (v.th t).wait = .none) :
    v.dbgChAbort t = .done stAlready [] v := by
  unfold State.dbgChAbort
  dsimp only
  rw [onThread_of_up ht hup, if_neg hhalt, hwait, hstaging, if_pos (by simp)]

theorem dbgAbort_of_free (hbusy : (v.th t).busy = false) : v.dbgAbort t = .done stAlready [] v := by
  unfold State.dbgAbort
  rw [onThread_of_up ht hup, if_pos (by simp [hbusy])]

theorem dbgAbort_of_busy (hbusy : (v.th t).busy = true) : v.dbgAbort t = .ok (v.modTh t (fun x => { x with abortReq := true })) := by
  unfold State.dbgAbort
  rw [onThread_of_up ht hup, if_neg (by simp [hbusy])]

end

/-! ### What a step shows and leaves (R136) -/

section
variable {v : State} {t : Nat}

/-- A thread that goes on after a resume, with no grant held back. -/
theorem th_resumed (hgrant : (v.th t).granted = false) (hlock : (v.th t).lockGranted = false) :
    let u := (v.modTh t (fun x => { x with halt := .none, haltReq := false, bpPass := true })).applyHeld t
    u.th t = { v.th t with halt := .none, haltReq := false, bpPass := true } ∧ ∀ k, k ≠ t → u.th k = v.th k := by
  obtain ⟨hsame, hother⟩ := th_modTh_alone v t (fun x => { x with halt := .none, haltReq := false, bpPass := true }) rfl
  have hheld := th_applyHeld_of_nothing (v := v.modTh t (fun x => { x with halt := .none, haltReq := false, bpPass := true })) (t := t)
    (by rw [hsame]; exact hgrant) (by rw [hsame]; exact hlock)
  exact ⟨(hheld t).trans hsame, fun k hk => (hheld k).trans (hother k hk)⟩

/-- A step of a thread in an ordered wait leaves it waiting: what it held back takes effect alone. -/
theorem stepBundle_of_ord {k : Nat} (hgrant : (v.th t).granted = false) (hlock : (v.th t).lockGranted = false)
    (hwait : (v.th t).wait = .ord k) : v.stepBundle t = some (v.applyHeld t) := by
  have hstill : ((v.applyHeld t).th t).wait = .ord k := by rw [th_applyHeld_of_nothing hgrant hlock, hwait]
  unfold State.stepBundle
  rw [if_pos (by simp [hwait])]
  unfold State.stepWait
  dsimp only
  rw [hstill]

theorem stepBundle_of_ready (hwait : (v.th t).wait = .none) :
    v.stepBundle t = (State.tryIssue (v.modTh t (fun x => { x with stepping := true, bpPass := true })) t (v.bundleAt t).1 (v.bundleAt t).2).map
      (fun u => u.branchResolve t) := by
  unfold State.stepBundle
  exact if_neg (not_not.2 hwait)

/-- A busy thread that a step left halted by the debugger stays so, out of the step. -/
theorem th_haltAgain_applyHeld (hhalt : (v.th t).halt = .debug) (hbusy : (v.th t).busy = true) (hgrant : (v.th t).granted = false)
    (hlock : (v.th t).lockGranted = false) :
    let u := (v.applyHeld t).haltAgain t
    u.th t = { v.th t with stepping := false, bpPass := false } ∧ ∀ k, k ≠ t → u.th k = v.th k := by
  have hheld := th_applyHeld_of_nothing hgrant hlock
  obtain ⟨hsame, hother⟩ := th_modTh_alone (v.applyHeld t) t (fun x => if x.busy then
    { x with stepping := false, bpPass := false, halt := if x.halt = .none then .debug else x.halt } else x) rfl
  refine ⟨hsame.trans ?_, fun k hk => (hother k hk).trans (hheld k)⟩
  rw [hheld, if_pos hbusy, if_neg (by simp [hhalt])]

/-- DBG_STATE's results speak of the thread's registers, its place and its halt. -/
theorem stateOf_congr {u : State} (hth : u.th t = { v.th t with stepping := false, bpPass := false }) : stateOf u t = stateOf v t := by
  unfold stateOf
  rw [hth]

/-! ### Staged words discarded (R131, R136) -/

/-- Staged words that are dropped are reported as CHANNEL_ABANDONED from a state that only the clusters part from the one before. -/
theorem dropStaged_of_staged {s : State} (q : Bool) (hstaging : (s.th t).staging ≠ []) :
    ∃ u : State, s.dropStaged t q = u.raise (src (t / 128) (coreOf t)) 0x61
        { master := t, detail := recDetail (s.th t).gen (s.th t).record, conseq := q }
      ∧ u.outer = s.outer ∧ (u.th t).staging = [] := by
  refine ⟨(s.modCl (t / 128) (·.unblock (t % 128))).modTh t (fun x => { x with staging := [] }), if_neg (by simpa using hstaging), ?_, ?_⟩
  · rw [State.outer_modTh, State.outer_modCl]
  · rw [State.th_modTh_same]

theorem dropStaged_leaveWait (ht : t < 26 * 128) (hstaging : (v.th t).staging ≠ []) :
    let u := (v.leaveWait t).dropStaged t false
    (u.th t).staging = [] ∧ reported v u (64 * (t / 128) + t % 128 / 16) 0x61
      { master := t, detail := (v.th t).gen.toNat * 8192 + (v.th t).record } := by
  obtain ⟨u, hdrop, houter, hempty⟩ := dropStaged_of_staged (s := v.leaveWait t) false (by rwa [State.th_leaveWait])
  rw [State.outer_leaveWait] at houter
  rw [State.th_leaveWait, src_eq] at hdrop
  dsimp only
  rw [hdrop]
  refine ⟨by rwa [State.th_after_raise], ?_⟩
  exact reported_congr (reported_raise u 0x61 _ (by omega)) (congrArg Faults.outbox (State.outer_faults houter))
    (State.outer_time houter) rfl

theorem dbgChAbort_of_staged (ht : t < 26 * 128) (hup : v.up (t / 128) = true) (hhalt : (v.th t).halt ≠ .none)
    (hstaging : (v.th t).staging ≠ []) :
    ∃ u, v.dbgChAbort t = .ok u ∧ (u.th t).staging = [] ∧ reported v u (64 * (t / 128) + t % 128 / 16) 0x61
      { master := t, detail := (v.th t).gen.toNat * 8192 + (v.th t).record } := by
  obtain ⟨hempty, hreported⟩ := dropStaged_leaveWait ht hstaging
  unfold State.dbgChAbort
  dsimp only
  rw [onThread_of_up ht hup, if_neg hhalt, if_neg (by simp [hstaging])]
  split
  · refine ⟨_, congrArg Ran.ok (if_pos rfl), ?_, reported_congr hreported rfl rfl rfl⟩
    rw [State.th_modTh_same]
    exact hempty
  · exact ⟨_, rfl, hempty, hreported⟩

end

/-! ### DBG_BREAK (R137) -/

/-- The breakpoint that DBG_BREAK makes. -/
def breakOf (pc tag on : Nat) : Breakpoint :=
  if on = 1 then { pc := BitVec.ofNat 16 pc, tag := BitVec.ofNat 4 tag, enable := true } else {}

theorem dbgBreak_of_up {v : State} {p : List Byte} (hc : beVal (slice p 0 1) < 26) (hup : v.up (beVal (slice p 0 1)) = true)
    (hk : beVal (slice p 1 1) < 4) (htag : beVal (slice p 4 1) < 16) (hon : beVal (slice p 5 1) < 2) :
    let b := breakOf (beVal (slice p 2 2)) (beVal (slice p 4 1)) (beVal (slice p 5 1))
    v.dbgBreak p = .ok (v.modCl (beVal (slice p 0 1)) (fun x => { x with brk := Store.set {} x.brk (beVal (slice p 1 1)) b })) := by
  unfold State.dbgBreak
  dsimp only
  rw [if_neg (by omega), onIsland_of_up hup]
  rfl

theorem cl_modCl_brk (v : State) (c k : Nat) (b : Breakpoint) :
    let u := v.modCl c (fun x => { x with brk := Store.set {} x.brk k b })
    Store.get {} (u.cl c).brk k = b ∧ (∀ j, j ≠ k → Store.get {} (u.cl c).brk j = Store.get {} (v.cl c).brk j) ∧ otherClusters v u c := by
  refine ⟨?_, fun j hj => ?_, fun j hj => ?_⟩
  · rw [State.cl_modCl_same]
    exact Store.get_set_same _ _ _ _
  · rw [State.cl_modCl_same]
    exact Store.get_set_other _ _ _ hj
  · rw [State.cl_modCl, if_neg hj]

/-! ### FAULT_INJECT (R388, R433) -/

/-- Kinds of the sequencer, the cores, the slices and the identity whose treatment raises no message of its own (R388). -/
abbrev reportsAlone (k : Nat) : Prop := 0x50 ≤ k ∧ k ≤ 0x58 ∨ 0x68 ≤ k ∧ k ≤ 0x7C ∨ 0xB8 ≤ k ∧ k ≤ 0xBB

theorem ownTreatment_reports_nothing (s : State) {k : Nat} (source a : Nat) (hk : reportsAlone k) :
    (s.ownTreatment source k a).faults = s.faults ∧ (s.ownTreatment source k a).time = s.time := by
  unfold State.ownTreatment
  dsimp only
  rw [if_neg (by omega), if_neg (by omega)]
  by_cases hrow : k = 0x78
  · rw [if_pos hrow]
    exact ⟨rfl, rfl⟩
  rw [if_neg hrow]
  by_cases hspare : k = 0x7B
  · rw [if_pos hspare]
    exact ⟨rfl, rfl⟩
  rw [if_neg hspare]
  iterate 14 rw [if_neg (by omega)]
  exact ⟨rfl, rfl⟩

theorem inject_of_unfit {s : State} {source k : Nat} (a : Nat) (hunfit : 4096 ≤ source ∨ kindFits k source = false) :
    s.inject source k a = .done stBadParam [] s := if_pos hunfit

theorem inject_of_reportsAlone {s : State} {source k : Nat} (a : Nat) (hsource : source < 4096) (hfits : kindFits k source = true)
    (hk : reportsAlone k) :
    ∃ u, s.inject source k a = .ok u ∧ reported s u source k { addr := a, injected := true } := by
  obtain ⟨hfaults, htime⟩ := ownTreatment_reports_nothing s source a hk
  refine ⟨(s.ownTreatment source k a).raise source k { addr := a, injected := true }, ?_,
    reported_congr (reported_raise _ k _ hsource) (congrArg Faults.outbox hfaults) htime rfl⟩
  have hvalid : ¬ (4096 ≤ source ∨ kindFits k source = false) :=
    not_or.2 ⟨Nat.not_le.2 hsource, fun hunfit => Bool.noConfusion (hfits.symm.trans hunfit)⟩
  unfold State.inject
  dsimp only
  rw [if_neg hvalid, hfaults, State.outboxLength, List.drop_length, List.any_nil, if_neg Bool.false_ne_true]

theorem debugCommandsHoldAndStepThreads : Claims.DebugCommandsHoldAndStepThreads := by
  intro s v x o t y me now
  refine ⟨fun hdone ht hup => ⟨fun h => ⟨fun hbusy => ?_, fun hbusy hhalt => ?_, fun hbusy hhalt hwait => ?_, fun m hbusy hhalt hwait => ?_⟩,
    fun h => ⟨fun hhalt hreq => ?_, fun other hhalt hat hother => ?_, fun hhalt hgrant hlock hown => ?_⟩,
    fun h => ⟨fun hhalt => ?_, fun k hhalt hbusy hgrant hlock hwait => ?_, fun u hhalt hwait hissue => ?_⟩,
    fun h => ?_, fun h => ⟨fun hhalt => ?_, fun hhalt hstaging hwait => ?_, fun hhalt hstaging => ?_⟩,
    fun h => ⟨fun hbusy => ?_, fun hbusy => ?_⟩⟩, fun hdone h => ?_, fun h => ⟨fun hunfit => ?_, fun hsource hfits hkind => ?_⟩⟩
  · exact replies_of_done h rfl (debugRuns_of_done hdone (dbgHalt_of_free ht hup me hbusy)) rfl
  · exact replies_of_done h rfl (debugRuns_of_done hdone (dbgHalt_of_halted ht hup me hbusy hhalt)) rfl
  · exact replies_of_done h rfl (debugRuns_of_done hdone (dbgHalt_of_running ht hup me hbusy hhalt hwait)) (th_modTh_alone v t _ rfl)
  · exact replies_of_done h rfl (debugRuns_of_done hdone (dbgHalt_of_wfe ht hup me hbusy hhalt hwait)) (th_modTh_alone v t _ rfl)
  · exact replies_of_done h rfl (debugRuns_of_done hdone (dbgResume_of_running ht hup me hhalt hreq)) rfl
  · exact replies_of_done h rfl (debugRuns_of_done hdone (dbgResume_of_met ht hup hhalt hat hother)) rfl
  · exact replies_of_done h rfl (debugRuns_of_done hdone (dbgResume_of_halted ht hup hhalt hown)) (th_resumed hgrant hlock)
  · exact replies_of_done h rfl (debugRuns_of_done hdone (dbgStep_of_running ht hup hhalt)) rfl
  · have hafter := th_haltAgain_applyHeld hhalt hbusy hgrant hlock
    have hstep := dbgStep_of_stepped ht hup hhalt (stepBundle_of_ord hgrant hlock hwait)
    rw [show State.threadWord _ t = stateOf v t from stateOf_congr hafter.1] at hstep
    exact replies_of_done h rfl (debugRuns_of_done hdone hstep) hafter
  · exact replies_of_done h rfl (debugRuns_of_done hdone (dbgStep_of_stepped ht hup hhalt ((stepBundle_of_ready hwait).trans hissue))) rfl
  · exact replies_of_done h rfl (debugRuns_of_done hdone (dbgState_of_up ht hup)) rfl
  · exact replies_of_done h rfl (debugRuns_of_done hdone (dbgChAbort_of_running ht hup hhalt)) rfl
  · exact replies_of_done h rfl (debugRuns_of_done hdone (dbgChAbort_of_nothing ht hup hhalt hstaging hwait)) rfl
  · obtain ⟨u, hrun, hdropped⟩ := dbgChAbort_of_staged ht hup hhalt hstaging
    exact replies_of_done h rfl (debugRuns_of_done hdone hrun) hdropped
  · exact replies_of_done h rfl (debugRuns_of_done hdone (dbgAbort_of_free ht hup hbusy)) rfl
  · exact replies_of_done h rfl (debugRuns_of_done hdone (dbgAbort_of_busy ht hup hbusy)) (th_modTh_alone v t _ rfl)
  · intro c k hc hup hk htag hon
    exact replies_of_done h rfl (debugRuns_of_done hdone (dbgBreak_of_up hc hup hk htag hon)) (cl_modCl_brk v c k _)
  · exact replies_of_done h rfl (inject_of_unfit _ hunfit) rfl
  · obtain ⟨u, hrun, hreported⟩ := inject_of_reportsAlone (s := v) (arg x none 4 8) hsource hfits hkind
    exact replies_of_done h rfl hrun hreported

/-! ### The JTAG port (R466 to R468) -/

section
variable {s : State} (howned : s.sec.lifecycle ≠ .owned) (hup : s.up 52 = true)
include howned hup

theorem debug_of_open {op : Nat} {p : List Byte} (hp : p.length ≤ 31) : s.debug op p = (s.jtag .debugReg).debugTry op p := by
  rw [State.debug, if_neg howned, if_neg (by simp [hup, hp])]

end

section
variable {s : State} {op : Nat} {p : List Byte}

/-- A DEBUG operation on a thread runs as the debugger's command of class 0x08. -/
theorem debugRun_thread (hi lo : Byte) (hknown : [0, 1, 2, 3, 4, 5, 8, 0x80].contains op = true) (hform : debugForm op = (4, [(2, 2)])) :
    s.debugRun op [hi, lo, 0, 0] = s.dbgOp op 0x6000 [hi, lo, 0, 0] := by
  have hread : op ≠ 0x80 := by
    rintro rfl
    exact absurd hform (by decide)
  unfold State.debugRun
  dsimp only
  rw [hknown, hform, if_neg (by simp), if_neg (by simp [plen, slice, zeroBytes, List.range_succ, hread]), if_neg hread]

theorem debugTry_of_done {st : Nat} {res : List Byte} {u : State} (hrun : s.debugRun op p = .done st res u) :
    s.debugTry op p = u.modObs (fun o => { o with dbgStatus := BitVec.ofNat 16 st, dbgResult := slice res 0 30, dbgWait := none }) := by
  rw [State.debugTry, hrun]

theorem debugTry_of_wait (hrun : s.debugRun op p = .wait) :
    s.debugTry op p = s.modObs (fun o => { o with dbgStatus := BitVec.ofNat 16 stBusy, dbgResult := [], dbgWait := some (op, p) }) := by
  rw [State.debugTry, hrun]

theorem boundaryDrive_of_released (i : JtagInstr) (l : List Bool) (hreset : s.pins.resetN = true) : s.boundaryDrive i l = s.jtag .bypass :=
  if_pos hreset

theorem boundaryDrive_of_reset (i : JtagInstr) (l : List Bool) (hreset : s.pins.resetN = false) :
    s.boundaryDrive i l = ((s.jtag i).modObs (fun o => { o with boundary := l })).emit (.balls l) := if_neg (by simp [hreset])

end

theorem givesSome_debugState {s : State} {hi lo : Byte} (howned : s.sec.lifecycle ≠ .owned) (hsteward : s.up 52 = true)
    (ht : beVal [hi, lo] < 26 * 128) (hup : s.up (beVal [hi, lo] / 128) = true) :
    givesSome (.debugOp 3 [hi, lo, 0, 0]) s (fun u => u.obs.jtag = .debugReg ∧ u.obs.dbgStatus = 0
      ∧ u.obs.dbgResult = slice (stateOf s (beVal [hi, lo])) 0 30 ∧ u.clusters = s.clusters) := by
  have hrun : (s.jtag .debugReg).debugRun 3 [hi, lo, 0, 0] = .done stDone (stateOf s (beVal [hi, lo])) (s.jtag .debugReg) :=
    (debugRun_thread hi lo (by decide) rfl).trans (dbgState_of_up ht hup)
  have hdebug := (debug_of_open howned hsteward (by simp)).trans (debugTry_of_done hrun)
  exact ⟨_, congrArg answer hdebug, rfl, rfl, rfl, rfl⟩

theorem givesSome_debugStep_stuck {s : State} {hi lo : Byte} (howned : s.sec.lifecycle ≠ .owned) (hsteward : s.up 52 = true)
    (ht : beVal [hi, lo] < 26 * 128) (hup : s.up (beVal [hi, lo] / 128) = true) (hhalt : (s.th (beVal [hi, lo])).halt = .debug)
    (hstep : (s.jtag .debugReg).stepBundle (beVal [hi, lo]) = none) :
    givesSome (.debugOp 2 [hi, lo, 0, 0]) s (fun u =>
      u.obs.dbgStatus = 0x103 ∧ u.obs.dbgWait = some (2, [hi, lo, 0, 0]) ∧ u.clusters = s.clusters) := by
  have hrun : (s.jtag .debugReg).debugRun 2 [hi, lo, 0, 0] = .wait :=
    (debugRun_thread hi lo (by decide) rfl).trans (dbgStep_of_stuck (v := s.jtag .debugReg) ht hup hhalt hstep)
  have hdebug := (debug_of_open howned hsteward (by simp)).trans (debugTry_of_wait hrun)
  exact ⟨_, congrArg answer hdebug, rfl, rfl, rfl⟩

theorem givesSome_debugUnknown {s : State} {p : List Byte} (howned : s.sec.lifecycle ≠ .owned) (hsteward : s.up 52 = true) (hp : p.length ≤ 31) :
    givesSome (.debugOp 6 p) s (fun u => u.obs.dbgStatus = 0x100 ∧ u.clusters = s.clusters) := by
  have hrun : (s.jtag .debugReg).debugRun 6 p = .done stBadOpcode [] (s.jtag .debugReg) := by
    unfold State.debugRun
    exact if_pos (by decide)
  have hdebug := (debug_of_open howned hsteward hp).trans (debugTry_of_done hrun)
  exact ⟨_, congrArg answer hdebug, rfl, rfl⟩

theorem jtagInstructionsReachDebuggerAndBalls : Claims.JtagInstructionsReachDebuggerAndBalls := by
  refine ⟨fun s op p howned => congrArg answer (if_pos howned), fun s hi lo howned hsteward => givesSome_debugState howned hsteward,
    fun s hi lo howned hsteward => givesSome_debugStep_stuck howned hsteward, fun s p => givesSome_debugUnknown,
    fun s l => ⟨fun hreset => ⟨?_, ?_, ?_⟩, fun hreset => ⟨?_, ?_, ?_⟩, rfl, rfl⟩⟩
  · exact congrArg answer (boundaryDrive_of_released .extest l hreset)
  · exact congrArg answer (boundaryDrive_of_released .clamp l hreset)
  · exact congrArg answer (if_pos hreset)
  · exact congrArg answer (boundaryDrive_of_reset .extest l hreset)
  · exact congrArg answer (boundaryDrive_of_reset .clamp l hreset)
  · exact congrArg answer (if_neg (by simp [hreset]))

/-- Settles O52: each debug command by the thread's halt and wait, an injected fault by its source's treatment, JTAG by its pin. -/
theorem debugAndJtagCommands : Obligations.DebugAndJtagCommands :=
  ⟨debugCommandsHoldAndStepThreads, jtagInstructionsReachDebuggerAndBalls⟩

end Sys2Proof.Machine
end

section
/-! Stores and CNT, as a thread executes them (R119, R144, R158, R161, R163, R184, R255). -/

namespace Sys2Proof.Machine

open Sys2Proof.Claims

/-! ### The state in which a syllable takes effect -/

/-- What an issued bundle adds to its branches is counts alone: the stores they hold stay. -/
theorem stores_countBundle (s : State) (t n : Nat) :
    ((s.countBundle t n).th t).branches.map (·.stores) = (s.th t).branches.map (·.stores) := by
  unfold State.countBundle
  split
  · simp
  next b rest hrev =>
    have hbranches : (s.th t).branches = rest.reverse ++ [b] := by simpa using congrArg List.reverse hrev
    rw [State.th_modTh_same]
    simp [hbranches]

/-- The clusters of `v` are those of `s` as the only syllable of thread `t` takes effect: the thread's branches count it, and otherwise
no more than its cluster's pointer has moved. -/
structure Issued (s v : State) (t : Nat) : Prop where
  thread : ∃ bs : List Branch, bs.map (·.stores) = (s.th t).branches.map (·.stores) ∧
    v.th t = { s.th t with branches := bs, waitSyls := [], bpPass := false }
  others : othersSame s v t
  still : ∀ c, (v.cl c).still = (s.cl c).still
  elsewhere : ∀ c, c ≠ t / 128 → v.cl c = s.cl c

/-- The state after a bundle of thread `t` whose effect leaves `w`: PC goes past its one syllable. -/
def pastBundle (s : State) (t : Nat) (w : State) : State := (w.modTh t (fun x => { x with pc := addrAfter (s.th t).pc 1 })).watch

section
variable {s v w : State} {t : Nat}

theorem issued_runReady (n : Nat) (hbusy : (s.th t).busy = true) (hwait : (s.th t).wait = .none) (hbundle : (s.th t).bundle = []) :
    Issued s (s.runReady t n) t where
  thread := ⟨_, stores_countBundle s t n, by rw [State.th_runReady s t n hbusy]; simp only [hwait, hbundle]⟩
  others := fun _ hk => s.th_runReady_other n hk
  still := s.still_runReady t n
  elsewhere := fun _ hc => s.cl_runReady_other n hc

/-- An identity taken changes no cluster. -/
theorem Issued.newId (h : Issued s v t) : Issued s v.newId.2 t := ⟨h.thread, h.others, h.still, h.elsewhere⟩

/-- Under no branch before, under none as issued. -/
theorem Issued.plain (h : Issued s v t) (hplain : (s.th t).branches = []) : (v.th t).branches = [] := by
  obtain ⟨bs, hstores, hth⟩ := h.thread
  rw [hplain, List.map_nil, List.map_eq_nil_iff] at hstores
  rw [hth, hstores]

/-- Under an unresolved branch, the newest one as issued holds the newest stores. -/
theorem Issued.newest (h : Issued s v t) (hbranch : (s.th t).branches ≠ []) :
    ∃ front b, (v.th t).branches = front ++ [b] ∧ (s.th t).heldStores = front.flatMap (·.stores) ++ b.stores := by
  obtain ⟨bs, hstores, hth⟩ := h.thread
  have hne : bs ≠ [] := fun hnil => hbranch (by simpa [hnil] using hstores.symm)
  obtain ⟨front, b, rfl⟩ := (List.eq_nil_or_concat' bs).resolve_left hne
  refine ⟨front, b, congrArg Thread.branches hth, ?_⟩
  rw [Thread.heldStores, List.flatMap_def, ← hstores]
  simp [List.flatMap_def]

/-- Past a syllable whose effect changes the threads it was issued in as `f` changes its own. -/
theorem Issued.past_of_th (h : Issued s v t) (f : Thread → Thread) {x : Thread}
    (hth : ∀ k, w.th k = if k = t then f (v.th t) else v.th k)
    (hf : ∀ bs, ∃ b, f { s.th t with branches := bs, waitSyls := [], bpPass := false } =
      { x with branches := b, waitSyls := [], bpPass := false }) :
    past s (pastBundle s t w) t x := by
  obtain ⟨bs, -, hthread⟩ := h.thread
  obtain ⟨b, hb⟩ := hf bs
  refine past_of_effect (b := b) ?_ fun k hk => ?_
  · rw [hth, if_pos rfl, hthread, hb]
  · rw [hth, if_neg hk, h.others k hk]

/-- What an M-class syllable that executes leaves is its effect on the state as issued, with PC past it. -/
theorem givesSome_effect {y : Syl} {op : Nat} {i : Instr} {p : State → Prop} (h : Executes s y 1 op)
    (hexec : exec i s = answer (s.syllable y 1 op))
    (heffect : ∀ v, Issued s v (tidOf y) → v.outer = s.outer →
      p (pastBundle s (tidOf y) (execSyl (tidOf y) (s.th (tidOf y)).regs (addrAfter (s.th (tidOf y)).pc 1) v (sylRaw y 1 op)))) :
    givesSome i s p := by
  obtain ⟨hbusy, hwait, hbundle⟩ := thread_of_ready h.1
  have hrun := (syllable_of_executes h).trans (s.runBundle_single (tidOf y) _ rfl)
  exact ⟨_, hexec.trans (congrArg answer hrun), heffect _ (issued_runReady _ hbusy hwait hbundle) (s.outer_runReady _ _)⟩

end

/-! ### Counted writes and their requests (R184, R255) -/

/-- A write counted by thread `t` that island `isl` completes, and its request on the way there. -/
def State.countedWrite (s : State) (t isl : Nat) (m : Msg) : State :=
  State.send (State.addStore s.newId.2 t s.nextId isl) (t / 128) isl m

/-- A counted write's request tells the record, the life and the kind of work of its thread, which the count does not change. -/
theorem request_addStore (v : State) (t : Nat) (kind : AccKind) (a : Nat) (size : BitVec 2) (d : W64) (far : Bool) :
    State.request (State.addStore v.newId.2 t v.nextId (v.accessIsland a far)) t
        { id := v.nextId, thread := t, tag := (v.th t).accord, kind := kind, addr := a, size := size, data := d } far =
      v.countedWrite t (v.accessIsland a far) (Claims.request v t kind a size d 0) := by
  have hth : (State.addStore v.newId.2 t v.nextId (v.accessIsland a far)).th t =
      withStore (v.th t) v.nextId (v.accessIsland a far) := State.th_modTh_same _ _ _
  unfold State.request
  rw [hth]
  rfl

section
variable {s v : State} {t : Nat}

theorem Issued.request_eq (h : Issued s v t) (houter : v.outer = s.outer) (kind : AccKind) (a : Nat) (size : BitVec 2) (d d2 : W64) :
    Claims.request v t kind a size d d2 = Claims.request s t kind a size d d2 := by
  obtain ⟨bs, -, hth⟩ := h.thread
  unfold Claims.request
  rw [hth, State.outer_nextId houter]

theorem accessIsland_congr (houter : v.outer = s.outer) (a : Nat) (far : Bool) : v.accessIsland a far = s.accessIsland a far := by
  unfold State.accessIsland State.homeChannel
  rw [State.outer_dram houter]

/-- A syllable whose effect is a counted write: the thread waits for it, and one request is on its way. -/
theorem Issued.counts (h : Issued s v t) (houter : v.outer = s.outer) (isl : Nat) (m : Msg) :
    let u := pastBundle s t (v.countedWrite t isl m)
    past s u t (withStore (s.th t) s.nextId isl) ∧ clustersSame s u ∧ sent s u (t / 128) isl m := by
  have hrest : (v.countedWrite t isl m).outer = { v.outer with nextId := v.nextId + 1, net := v.net ++ [⟨t / 128, isl, m⟩] } := rfl
  rw [houter, State.outer_nextId houter, State.outer_net houter] at hrest
  refine ⟨h.past_of_th (withStore · v.nextId isl) (fun k => v.newId.2.th_modTh t k _) fun bs => ⟨bs, ?_⟩,
    clustersSame_of_effect (fun c => (State.still_modTh _ t c _).trans (h.still c)) _,
    eq_of_effect (v := { s with net := s.net ++ [⟨t / 128, isl, m⟩], nextId := s.nextId + 1 }) hrest _⟩
  rw [State.outer_nextId houter]
  rfl

end

theorem execSyl_fst (y : Syl) (v : State) (t : Nat) (r : Regs) (next : BitVec 16) :
    let z := sylRaw y 1 0x0A
    execSyl t r next v z = v.countedWrite t (v.accessIsland (farAddr r) true)
      (Claims.request v t .store (farAddr r) (BitVec.ofNat 2 (z.f 19 18)) (BitVec.ofNat 64 (regVal r (z.f 21 20))) 0) :=
  request_addStore v t .store _ _ _ true

theorem execSyl_cnt (y : Syl) (v : State) (t : Nat) (r : Regs) (next : BitVec 16) :
    execSyl t r next v (sylRaw y 1 0x18) = v.countedWrite t (apertureIsland r.xa.toNat) (Claims.request v t .cnt r.xa.toNat 3 r.acc 0) :=
  request_addStore v t .cnt _ _ _ false

theorem execSyl_st_aperture (y : Syl) (v : State) (t : Nat) {r : Regs} (next : BitVec 16)
    (h : inAperture (nearAddr r (sylRaw y 1 0x03)) = true) :
    let z := sylRaw y 1 0x03
    execSyl t r next v z = v.countedWrite t (apertureIsland (nearAddr r z))
      (Claims.request v t .store (nearAddr r z) (BitVec.ofNat 2 (z.f 19 18)) (BitVec.ofNat 64 (regVal r (z.f 21 20))) 0) :=
  (if_pos h).trans (request_addStore v t .store _ _ _ false)

theorem givesSome_fst {s : State} {y : Syl} (h : Executes s y 1 0x0A) :
    let t := tidOf y
    let z := sylRaw y 1 0x0A
    let r := (s.th t).regs
    givesSome (.fst y) s (fun u =>
      past s u t (withStore (s.th t) s.nextId (43 + s.homeChannel (farAddr r))) ∧ clustersSame s u
        ∧ sent s u (t / 128) (43 + s.homeChannel (farAddr r))
            (Claims.request s t .store (farAddr r) (BitVec.ofNat 2 (z.f 19 18)) (BitVec.ofNat 64 (regVal r (z.f 21 20))) 0)) := by
  refine givesSome_effect h rfl fun v hv houter => ?_
  rw [execSyl_fst, hv.request_eq houter, accessIsland_congr houter]
  exact hv.counts houter _ _

theorem givesSome_cnt {s : State} {y : Syl} (h : Executes s y 1 0x18) :
    let t := tidOf y
    let r := (s.th t).regs
    givesSome (.cnt y) s (fun u =>
      past s u t (withStore (s.th t) s.nextId (apertureIsland r.xa.toNat)) ∧ clustersSame s u
        ∧ sent s u (t / 128) (apertureIsland r.xa.toNat) (Claims.request s t .cnt r.xa.toNat 3 r.acc 0)) := by
  refine givesSome_effect h rfl fun v hv houter => ?_
  rw [execSyl_cnt, hv.request_eq houter]
  exact hv.counts houter _ _

theorem givesSome_st_aperture {s : State} {y : Syl} (h : Executes s y 1 0x03)
    (hin : inAperture (nearAddr (s.th (tidOf y)).regs (sylRaw y 1 0x03)) = true) :
    let t := tidOf y
    let z := sylRaw y 1 0x03
    let r := (s.th t).regs
    let a := nearAddr r z
    givesSome (.st y) s (fun u =>
      past s u t (withStore (s.th t) s.nextId (apertureIsland a)) ∧ clustersSame s u
        ∧ sent s u (t / 128) (apertureIsland a)
            (Claims.request s t .store a (BitVec.ofNat 2 (z.f 19 18)) (BitVec.ofNat 64 (regVal r (z.f 21 20))) 0)) := by
  refine givesSome_effect h rfl fun v hv houter => ?_
  rw [execSyl_st_aperture y v _ _ hin, hv.request_eq houter]
  exact hv.counts houter _ _

/-! ### Near stores by their region (R119, R158, R163) -/

/-- The address lies in memory that the threads of a core or of a cluster share. -/
def inShared (a : Nat) : Prop := ∃ o, region a = .core o ∨ region a = .cluster o

theorem not_inAperture_of_shared {a : Nat} (h : inShared a) : inAperture a = false := by
  obtain ⟨o, h | h⟩ := h <;> simp [inAperture, h]

section
variable {s : State} {t a o : Nat} (l : List Byte)

/-- Only the low 2 KiB are the frame, at their own addresses. -/
theorem frame_of_region (h : region a = .frame o) : a < 0x800 ∧ a = o := by
  have hlow : a < 0x800 := by_contra fun hnot => region_ne_frame hnot o h
  rw [region_of_frame hlow, Region.frame.injEq] at h
  exact ⟨hlow, h⟩

theorem nearStore_of_frame (h : region a = .frame o) : s.nearStore t a l = s.nearWrite t a l := by
  simp [State.nearStore, h]

/-- Under no unresolved branch a store to a shared memory is made at once. -/
theorem nearStore_of_plain (h : inShared a) (hplain : (s.th t).branches = []) : s.nearStore t a l = s.nearWrite t a l := by
  obtain ⟨o, h | h⟩ := h <;> simp [State.nearStore, h, hplain]

/-- Under an unresolved branch a store to a shared memory is held with the newest one. -/
theorem nearStore_of_branch {front : List Branch} {b : Branch} (h : inShared a) (hbranch : (s.th t).branches = front ++ [b]) :
    s.nearStore t a l = s.modTh t (fun x => { x with branches := front ++ [{ b with stores := b.stores ++ [(a, l)] }] }) := by
  obtain ⟨o, h | h⟩ := h <;> simp [State.nearStore, h, hbranch]

theorem nearStore_of_events (h : region a = .events o) : s.nearStore t a l = setRegs s t (eventWrite · o (leVal l)) := by
  simp [State.nearStore, h, setRegs]

/-- A write to a shared memory changes no thread. -/
theorem th_nearWrite_shared (h : inShared a) (k : Nat) : (s.nearWrite t a l).th k = s.th k := by
  unfold State.nearWrite
  obtain ⟨o, h | h⟩ := h <;> rw [h] <;> exact s.th_modCl _ k _ rfl

/-- A write to a shared memory is of the thread's own cluster. -/
theorem cl_nearWrite_other (h : inShared a) {c : Nat} (hc : c ≠ t / 128) : (s.nearWrite t a l).cl c = s.cl c := by
  unfold State.nearWrite
  obtain ⟨o, h | h⟩ := h <;> rw [h] <;> exact (s.cl_modCl _ c _).trans (if_neg hc)

theorem mems_nearWrite_core (h : region a = .core o) :
    ((s.nearWrite t a l).cl (t / 128)).coreMem = mwrite (s.cl (t / 128)).coreMem (coreOf t * 32768 + o) l
      ∧ ((s.nearWrite t a l).cl (t / 128)).clMem = (s.cl (t / 128)).clMem := by
  simp [State.nearWrite, h, coreKey]

theorem mems_nearWrite_cluster (h : region a = .cluster o) :
    ((s.nearWrite t a l).cl (t / 128)).clMem = mwrite (s.cl (t / 128)).clMem o l
      ∧ ((s.nearWrite t a l).cl (t / 128)).coreMem = (s.cl (t / 128)).coreMem := by
  simp [State.nearWrite, h]

end

/-! ### ST to near memory (R144, R158, R184) -/

section
variable {s v : State} {t a o : Nat} (n d : Nat)

theorem Issued.storesInFrame (h : Issued s v t) (hregion : region a = .frame o) :
    let r := (s.th t).regs
    let u := pastBundle s t (v.nearStore t a (leBytes n d))
    past s u t { s.th t with regs := { r with frame := (u.th t).regs.frame } } ∧ storedAt r.frame (u.th t).regs.frame o n d
      ∧ clustersSameButMarks s u := by
  obtain ⟨hlow, rfl⟩ := frame_of_region hregion
  rw [nearStore_of_frame _ hregion]
  have hpast : past s (pastBundle s t (v.nearWrite t a (leBytes n d))) t
      { s.th t with regs := { (s.th t).regs with frame := mwrite (s.th t).regs.frame a (leBytes n d) } } :=
    h.past_of_th (fun x => { x with regs := { x.regs with frame := mwrite x.regs.frame a (leBytes n d) } })
      (fun k => v.th_nearWrite_frame t k _ hlow) fun bs => ⟨bs, rfl⟩
  have hframe := congrArg (fun x : Thread => x.regs.frame) hpast.1
  dsimp only at hframe ⊢
  rw [hframe]
  refine ⟨hpast, storedAt_mwrite_leBytes _ _ _ _, clustersSameButMarks_of_unmarked fun c => ?_⟩
  exact (Cluster.unmarked_of_still (State.still_modTh _ t c _)).trans
    ((v.unmarked_nearWrite_frame t c _ hlow).trans (Cluster.unmarked_of_still (h.still c)))

/-- A store to a shared memory under no unresolved branch: the thread is past it, and its bytes are written in its own cluster. -/
theorem Issued.storesInShared (h : Issued s v t) (hshared : inShared a) (hplain : (s.th t).branches = []) (l : List Byte) :
    let u := pastBundle s t (v.nearStore t a l)
    past s u t (s.th t) ∧ (∀ c, c ≠ t / 128 → u.cl c = s.cl c)
      ∧ (u.cl (t / 128)).still = ((v.nearWrite t a l).cl (t / 128)).still := by
  rw [nearStore_of_plain _ hshared (h.plain hplain)]
  refine ⟨h.past_of_th id (fun k => ?_) fun bs => ⟨bs, rfl⟩, fun c hc => ?_, State.still_modTh _ _ _ _⟩
  · rw [th_nearWrite_shared _ hshared]
    split
    next hk => rw [hk, id]
    next => rfl
  · exact (State.cl_modTh_other _ _ hc).trans ((cl_nearWrite_other _ hshared hc).trans (h.elsewhere c hc))

theorem Issued.storesInCore (h : Issued s v t) (hregion : region a = .core o) (hplain : (s.th t).branches = []) :
    let u := pastBundle s t (v.nearStore t a (leBytes n d))
    past s u t (s.th t) ∧ storedAt (s.cl (t / 128)).coreMem (u.cl (t / 128)).coreMem (coreOf t * 32768 + o) n d
      ∧ (u.cl (t / 128)).clMem = (s.cl (t / 128)).clMem ∧ (∀ c, c ≠ t / 128 → u.cl c = s.cl c) := by
  obtain ⟨hpast, helse, hown⟩ := h.storesInShared ⟨o, .inl hregion⟩ hplain (leBytes n d)
  obtain ⟨hcore, hcl⟩ := mems_nearWrite_core (s := v) (t := t) (leBytes n d) hregion
  refine ⟨hpast, ?_, (Cluster.still_clMem hown).trans (hcl.trans (Cluster.still_clMem (h.still _))), helse⟩
  rw [Cluster.still_coreMem hown, hcore, Cluster.still_coreMem (h.still _)]
  exact storedAt_mwrite_leBytes _ _ _ _

theorem Issued.storesInCluster (h : Issued s v t) (hregion : region a = .cluster o) (hplain : (s.th t).branches = []) :
    let u := pastBundle s t (v.nearStore t a (leBytes n d))
    past s u t (s.th t) ∧ storedAt (s.cl (t / 128)).clMem (u.cl (t / 128)).clMem o n d
      ∧ (u.cl (t / 128)).coreMem = (s.cl (t / 128)).coreMem ∧ (∀ c, c ≠ t / 128 → u.cl c = s.cl c) := by
  obtain ⟨hpast, helse, hown⟩ := h.storesInShared ⟨o, .inr hregion⟩ hplain (leBytes n d)
  obtain ⟨hcl, hcore⟩ := mems_nearWrite_cluster (s := v) (t := t) (leBytes n d) hregion
  refine ⟨hpast, ?_, (Cluster.still_coreMem hown).trans (hcore.trans (Cluster.still_coreMem (h.still _))), helse⟩
  rw [Cluster.still_clMem hown, hcl, Cluster.still_clMem (h.still _)]
  exact storedAt_mwrite_leBytes _ _ _ _

/-- R119: under an unresolved branch the bytes are held with the newest one, behind all that are held already. -/
theorem Issued.holdsStore (h : Issued s v t) (hshared : inShared a) (hbranch : (s.th t).branches ≠ []) (l : List Byte) :
    let u := pastBundle s t (v.nearStore t a l)
    past s u t (s.th t) ∧ (u.th t).heldStores = (s.th t).heldStores ++ [(a, l)] ∧ clustersSame s u := by
  obtain ⟨front, b, hbranches, hheld⟩ := h.newest hbranch
  rw [nearStore_of_branch _ hshared hbranches]
  refine ⟨h.past_of_th (fun x => { x with branches := front ++ [{ b with stores := b.stores ++ [(a, l)] }] })
      (fun k => v.th_modTh t k _) fun _ => ⟨_, rfl⟩, ?_,
    clustersSame_of_effect (fun c => (v.still_modTh t c _).trans (h.still c)) _⟩
  rw [pastBundle, State.th_after_watch, State.th_modTh_same, State.th_modTh_same, hheld]
  simp [Thread.heldStores]

/-- R163: a store to the event block writes the register at its offset; of the rest only the next identity has moved. -/
theorem Issued.storesInEvents (h : Issued s v t) (houter : v.outer = State.outer { s with nextId := s.nextId + 1 })
    (hregion : region a = .events o) :
    ran { s with nextId := s.nextId + 1 } (pastBundle s t (v.nearStore t a (leBytes n d))) t (eventWrite (s.th t).regs o (d % 256 ^ n)) := by
  rw [nearStore_of_events _ hregion, leVal_leBytes]
  exact ⟨h.past_of_th (fun x => { x with regs := eventWrite x.regs o (d % 256 ^ n) }) (fun k => v.th_setRegs t k _) fun bs => ⟨bs, rfl⟩,
    clustersSame_of_effect (fun c => (v.still_setRegs t c _).trans (h.still c)) _, eq_of_effect ((v.outer_setRegs t _).trans houter) _⟩

end

/-- A store outside the aperture takes an identity and is a near store of its bytes. -/
theorem givesSome_st_near {s : State} {y : Syl} {p : State → Prop} (h : Executes s y 1 0x03)
    (hnear : inAperture (nearAddr (s.th (tidOf y)).regs (sylRaw y 1 0x03)) = false)
    (heffect : ∀ v, Issued s v (tidOf y) → v.outer = State.outer { s with nextId := s.nextId + 1 } →
      p (pastBundle s (tidOf y) (v.nearStore (tidOf y) (nearAddr (s.th (tidOf y)).regs (sylRaw y 1 0x03))
        (leBytes (mSize (sylRaw y 1 0x03)) (regVal (s.th (tidOf y)).regs ((sylRaw y 1 0x03).f 21 20)))))) :
    givesSome (.st y) s p := by
  refine givesSome_effect h rfl fun v hv houter => ?_
  have hstore : execSyl (tidOf y) (s.th (tidOf y)).regs (addrAfter (s.th (tidOf y)).pc 1) v (sylRaw y 1 0x03) = v.newId.2.nearStore _ _ _ :=
    if_neg (c := inAperture (nearAddr (s.th (tidOf y)).regs (sylRaw y 1 0x03)) = true) (by simp [hnear])
  rw [hstore]
  refine heffect _ hv.newId ?_
  have hnext : v.newId.2.outer = { v.outer with nextId := v.nextId + 1 } := rfl
  rw [hnext, houter, State.outer_nextId houter]
  rfl

/-- Settles O6: a near store by the region of its address, a store to the aperture or to DRAM and CNT by the write they count. -/
theorem storesWriteTheirBytesOrSendTheirRequest : Obligations.StoresWriteTheirBytesOrSendTheirRequest := by
  unfold Obligations.StoresWriteTheirBytesOrSendTheirRequest
  refine ⟨fun y s h => ⟨fun o hregion => ?_, fun o hregion hplain => ?_, fun o hregion hplain => ?_, fun o hregion hbranch => ?_,
    fun o hregion => ?_, givesSome_st_aperture h⟩, fun _ _ => givesSome_fst, fun _ _ => givesSome_cnt⟩
  · exact givesSome_st_near h (by simp [inAperture, hregion]) fun v hv _ => hv.storesInFrame _ _ hregion
  · exact givesSome_st_near h (by simp [inAperture, hregion]) fun v hv _ => hv.storesInCore _ _ hregion hplain
  · exact givesSome_st_near h (by simp [inAperture, hregion]) fun v hv _ => hv.storesInCluster _ _ hregion hplain
  · exact givesSome_st_near h (not_inAperture_of_shared ⟨o, hregion⟩) fun v hv _ => hv.holdsStore ⟨o, hregion⟩ hbranch _
  · exact givesSome_st_near h (by simp [inAperture, hregion]) fun v hv houter => hv.storesInEvents _ _ houter hregion

end Sys2Proof.Machine
end

section
/-! A syllable of the A, M and H slots as it takes effect: its effect is on the state as issued, in which every operand reads as before
(R114, R144, R148, R149, R163). -/

namespace Sys2Proof.Machine

open Sys2Proof.Claims

/-! ### The effect on the state as issued -/

section
variable {s v w : State} {t : Nat}

/-- What a syllable outside the B slot leaves is its effect on the state as issued, with PC past it. -/
theorem givesSome_of_effect {y : Syl} {cls op : Nat} {i : Instr} {p : State → Prop} (hcls : (sylRaw y cls op).cls ≠ 3)
    (h : Executes s y cls op) (hexec : exec i s = answer (s.syllable y cls op))
    (heffect : ∀ v, Issued s v (tidOf y) → v.outer = s.outer →
      p (pastBundle s (tidOf y) (execSyl (tidOf y) (s.th (tidOf y)).regs (addrAfter (s.th (tidOf y)).pc 1) v (sylRaw y cls op)))) :
    givesSome i s p := by
  obtain ⟨hbusy, hwait, hbundle⟩ := thread_of_ready h.1
  have hrun := (syllable_of_executes h).trans (s.runBundle_single (tidOf y) _ (by rw [beq_false_of_ne hcls]; rfl))
  exact ⟨_, hexec.trans (congrArg answer hrun), heffect _ (issued_runReady _ hbusy hwait hbundle) (s.outer_runReady _ _)⟩

/-- A bundle's end changes no cluster but in its threads. -/
theorem still_pastBundle (s : State) (t : Nat) (w : State) (c : Nat) : ((pastBundle s t w).cl c).still = (w.cl c).still :=
  (State.still_watch _ _).trans (State.still_modTh w t c _)

/-- An effect on the thread's registers alone: the thread has run. -/
theorem Issued.ran_setRegs (h : Issued s v t) (houter : v.outer = s.outer) (f : Regs → Regs) :
    ran s (pastBundle s t (setRegs v t f)) t (f (s.th t).regs) :=
  ⟨h.past_of_th (fun x => { x with regs := f x.regs }) (fun k => v.th_setRegs t k _) fun bs => ⟨bs, rfl⟩,
    clustersSame_of_effect (fun c => (v.still_setRegs t c _).trans (h.still c)) _, eq_of_effect ((v.outer_setRegs t _).trans houter) _⟩

end

/-! ### What operands read -/

section
variable {s v : State} {t : Nat} (h : Issued s v t)
include h

/-- The registers, the edges, the counted writes and the work of the thread are as before it issued. -/
theorem Issued.th_eq : ∃ bs, v.th t = { s.th t with branches := bs, waitSyls := [], bpPass := false } := by
  obtain ⟨bs, -, hth⟩ := h.thread
  exact ⟨bs, hth⟩

theorem Issued.accord_eq : (v.th t).accord = (s.th t).accord := by
  obtain ⟨bs, hth⟩ := h.th_eq
  rw [hth]

theorem Issued.heldStores_eq : (v.th t).heldStores = (s.th t).heldStores := by
  obtain ⟨bs, hstores, hth⟩ := h.thread
  rw [hth, Thread.heldStores, Thread.heldStores, List.flatMap_def, List.flatMap_def, hstores]

theorem Issued.nearByte_eq (frame : Mem) (a : Nat) : nearByte v t frame a = nearByte s t frame a := by
  unfold nearByte
  rw [h.heldStores_eq, Cluster.still_coreMem (h.still _), Cluster.still_clMem (h.still _)]

theorem Issued.nearBytes_eq (frame : Mem) (a n : Nat) : nearBytes v t frame a n = nearBytes s t frame a n :=
  List.map_congr_left fun _ _ => h.nearByte_eq _ _

theorem Issued.nearBad_eq (a n : Nat) : nearBad v t a n = nearBad s t a n := by
  unfold nearBad
  rw [Cluster.still_bad (h.still _)]

theorem Issued.pendingWord_eq (r : Regs) : pendingWord v t r = pendingWord s t r := by
  obtain ⟨bs, hth⟩ := h.th_eq
  unfold pendingWord Cluster.ch
  dsimp only
  rw [hth, Cluster.still_chan (h.still _)]

variable (houter : v.outer = s.outer)
include houter

theorem Issued.chStatus_eq (n : Nat) : chStatus v (t / 128) n = chStatus s (t / 128) n := by
  unfold chStatus State.obj Cluster.ch
  rw [Cluster.still_chan (h.still _), State.outer_live houter]

theorem Issued.eventRead_eq (r : Regs) (o : Nat) : eventRead v t r o = eventRead s t r o := by
  unfold eventRead
  rw [h.pendingWord_eq, h.chStatus_eq houter]

theorem Issued.nearValue_eq (r : Regs) (a n : Nat) : nearValue v t r a n = nearValue s t r a n := by
  unfold nearValue
  rw [h.nearBytes_eq]
  split
  · exact h.eventRead_eq houter r _
  · rfl

theorem Issued.special_eq (r : Regs) (n : Nat) : special v t r n = special s t r n := by
  unfold special
  rw [positionOf_congr houter, h.accord_eq, Cluster.still_mcycles (h.still _)]

theorem Issued.aOperand_eq (r : Regs) (z : RawSyl) : aOperand v t r z = aOperand s t r z := by
  unfold aOperand
  rw [h.special_eq houter]

end

end Sys2Proof.Machine
end

section
/-! The A-class instructions: results and flags, CMP and TST, and the index registers (R178 to R181). -/

namespace Sys2Proof.Machine

open Sys2Proof.Claims

/-! ### Each operation computes its row (R178, R179, R181) -/

/-- The operation computes the row: its result, Z and N of that result, and the row's C and V. -/
def computesRow (f : W64 → W64 → Fl → W64 × Fl) (row : AluRow) : Prop :=
  ∀ a b fl, f a b fl = ((row a b fl).1, resFl (row a b fl).1 (row a b fl).2.1 (row a b fl).2.2)

theorem ovf_eq_outside64 (i : Int) : ovf i = outside64 i := by
  unfold ovf outside64
  rw [← Bool.decide_or]

theorem addWith_false (a b : W64) :
    addWith a b false = (a + b, resFl (a + b) (decide (2 ^ 64 ≤ a.toNat + b.toNat)) (outside64 (a.toInt + b.toInt))) := by
  simp [addWith, b2n, ovf_eq_outside64]

theorem subWith_false (a b : W64) :
    subWith a b false = (a - b, resFl (a - b) (decide (b.toNat ≤ a.toNat)) (outside64 (a.toInt - b.toInt))) := by
  simp [subWith, b2n, ovf_eq_outside64]

theorem aluAdc_row : computesRow aluAdc fun a b f => (a + b + BitVec.ofNat 64 (b2n (flC f)),
    decide (2 ^ 64 ≤ a.toNat + b.toNat + b2n (flC f)), outside64 (a.toInt + b.toInt + b2n (flC f))) := fun a b f => by
  simp [aluAdc, addWith, ovf_eq_outside64]

theorem aluSbc_row : computesRow aluSbc fun a b f => (a - b - BitVec.ofNat 64 (1 - b2n (flC f)),
    decide (b.toNat + (1 - b2n (flC f)) ≤ a.toNat), outside64 (a.toInt - b.toInt - (1 - b2n (flC f) : Nat))) := fun a b f => by
  have hborrow : b2n (!flC f) = 1 - b2n (flC f) := by cases flC f <;> rfl
  simp [aluSbc, subWith, ovf_eq_outside64, hborrow]

theorem aluNeg_row : computesRow aluNeg fun a _ _ => (0 - a, a == 0, a == BitVec.intMin 64) := fun a _ _ => by
  have hzero : decide (a.toNat ≤ (0 : W64).toNat) = (a == 0) := by
    rw [Bool.eq_iff_iff, decide_eq_true_iff, beq_iff_eq, ← BitVec.toNat_inj]
    exact Nat.le_zero
  have hmin : outside64 ((0 : W64).toInt - a.toInt) = (a == BitVec.intMin 64) := by
    have hlow := a.le_toInt
    have hhigh := a.toInt_lt
    rw [Bool.eq_iff_iff, beq_iff_eq, ← BitVec.toInt_inj, outside64, decide_eq_true_iff]
    have h0 : (0 : W64).toInt = 0 := rfl
    have h1 : (BitVec.intMin 64).toInt = -2 ^ 63 := rfl
    rw [h0, h1]
    omega
  show subWith 0 a false = _
  rw [subWith_false, hzero, hmin]

/-- R181: what leaves the register last in a shift to the left is the bit that the count names from the top. -/
theorem aluShl_row : computesRow aluShl fun a b _ => let n := countOf b
    if n = 0 then (a, false, false) else if n < 64 then (a <<< n, a.getLsbD (64 - n), false)
    else if n = 64 then (0, a.getLsbD 0, false) else (0, false, false) := fun a b f => by
  have hcount : shCount b = countOf b := rfl
  unfold aluShl
  dsimp only
  rw [hcount]
  generalize countOf b = n
  rcases Nat.lt_or_ge n 64 with hn | hn
  · by_cases h0 : n = 0
    · simp [h0]
    · simp [h0, hn, hn.le]
  · have hgone : a <<< n = 0 := BitVec.shiftLeft_eq_zero hn
    by_cases h64 : n = 64
    · simp [h64]
    · simp [hgone, h64, show ¬ n < 64 by omega, show ¬ n ≤ 64 by omega, show n ≠ 0 by omega]

theorem aluShr_row : computesRow aluShr fun a b _ => let n := countOf b
    if n = 0 then (a, false, false) else if n < 64 then (a >>> n, a.getLsbD (n - 1), false)
    else if n = 64 then (0, a.msb, false) else (0, false, false) := fun a b f => by
  have hcount : shCount b = countOf b := rfl
  unfold aluShr
  dsimp only
  rw [hcount]
  generalize countOf b = n
  rcases Nat.lt_or_ge n 64 with hn | hn
  · by_cases h0 : n = 0
    · simp [h0]
    · simp [h0, hn, hn.le]
  · have hgone : a >>> n = 0 := BitVec.ushiftRight_eq_zero hn
    by_cases h64 : n = 64
    · subst h64
      simp [hgone, BitVec.msb_eq_getLsbD_last]
    · simp [hgone, h64, show ¬ n < 64 by omega, show ¬ n ≤ 64 by omega, show n ≠ 0 by omega]

theorem aluSar_row : computesRow aluSar fun a b _ => let n := countOf b
    if n = 0 then (a, false, false) else if n < 64 then (a.sshiftRight n, a.getLsbD (n - 1), false)
    else (if a.msb then BitVec.allOnes 64 else 0, a.msb, false) := fun a b f => by
  have hcount : shCount b = countOf b := rfl
  unfold aluSar
  dsimp only
  rw [hcount]
  generalize countOf b = n
  rcases Nat.lt_or_ge n 64 with hn | hn
  · by_cases h0 : n = 0
    · simp [h0]
    · simp [h0, hn, hn.le]
  · have hsign : a.sshiftRight n = if a.msb then BitVec.allOnes 64 else 0 := by
      apply BitVec.eq_of_getLsbD_eq
      intro i hi
      rw [BitVec.getLsbD_sshiftRight, if_neg (show ¬ n + i < 64 by omega)]
      cases a.msb
      · simp
      · rw [if_pos rfl, BitVec.getLsbD_allOnes]
        simp [hi]
    have hlast : (if n = 0 then false else if n ≤ 64 then a.getLsbD (n - 1) else a.msb) = a.msb := by
      rw [if_neg (show n ≠ 0 by omega)]
      split
      next hle => rw [BitVec.msb_eq_getLsbD_last, show n = 64 by omega]
      next => rfl
    rw [hlast, hsign, if_neg (show n ≠ 0 by omega), if_neg (show ¬ n < 64 by omega)]

theorem rotateLeft_zero (a : W64) : a.rotateLeft 0 = a := by
  simp [BitVec.rotateLeft, BitVec.rotateLeftAux, BitVec.ushiftRight_eq_zero]

theorem rotateRight_zero (a : W64) : a.rotateRight 0 = a := by
  simp [BitVec.rotateRight, BitVec.rotateRightAux, BitVec.shiftLeft_eq_zero]

theorem aluRol_row : computesRow aluRol fun a b _ => let n := countOf b % 64
    if n = 0 then (a, false, false) else (a.rotateLeft n, (a.rotateLeft n).getLsbD 0, false) := fun a b f => by
  have hcount : shCount b = countOf b := rfl
  unfold aluRol
  dsimp only
  rw [hcount]
  generalize countOf b % 64 = n
  by_cases h0 : n = 0
  · simp [h0, rotateLeft_zero a]
  · simp [h0]

theorem aluRor_row : computesRow aluRor fun a b _ => let n := countOf b % 64
    if n = 0 then (a, false, false) else (a.rotateRight n, (a.rotateRight n).msb, false) := fun a b f => by
  have hcount : shCount b = countOf b := rfl
  unfold aluRor
  dsimp only
  rw [hcount]
  generalize countOf b % 64 = n
  by_cases h0 : n = 0
  · simp [h0, rotateRight_zero a]
  · simp [h0]

theorem aluMul_row : computesRow aluMul fun a b _ =>
    (a * b, decide (2 ^ 64 - 1 < a.toNat * b.toNat), outside64 (a.toInt * b.toInt)) := fun a b f => by
  unfold aluMul
  rw [ovf_eq_outside64]
  rfl

/-- The low `w` bits of a value, sign-extended, as a number and as a vector. -/
theorem sext64_eq_signExtend (w v : Nat) : sext64 w v = (BitVec.ofNat w v).signExtend 64 := by
  rw [sext64, BitVec.signExtend, BitVec.toInt_eq_toNat_cond, BitVec.toNat_ofNat, signed]
  congr 1
  cases w with
  | zero => simp [Nat.mod_one]
  | succ w =>
    have hiff : v % 2 ^ (w + 1) < 2 ^ (w + 1 - 1) ↔ 2 * (v % 2 ^ (w + 1)) < 2 ^ (w + 1) := by
      rw [Nat.add_sub_cancel, pow_succ']
      omega
    simp only [hiff]
    norm_cast

theorem aluSext_row : computesRow aluSext fun a b _ => ((a.setWidth b.toNat).signExtend 64, false, false) := fun a b f => by
  have hval : sext64 b.toNat a.toNat = (a.setWidth b.toNat).signExtend 64 := by rw [sext64_eq_signExtend, BitVec.ofNat_toNat]
  show logicRes _ = _
  rw [hval]
  rfl

theorem aluZext_row : computesRow aluZext fun a b _ => ((a.setWidth b.toNat).setWidth 64, false, false) := fun a b f => by
  have hval : BitVec.ofNat 64 (a.toNat % 2 ^ b.toNat) = (a.setWidth b.toNat).setWidth 64 := by
    rw [← BitVec.toNat_setWidth, BitVec.ofNat_toNat]
  show logicRes _ = _
  rw [hval]
  rfl

theorem find?_getD_range (p : Nat → Bool) (n : Nat) :
    ((List.range n).find? p).getD n = ((List.range n).takeWhile fun i => !p i).length := by
  induction n with
  | zero => rfl
  | succ n ih =>
    rw [List.range_succ, List.find?_append, List.takeWhile_append, List.length_range]
    cases hfirst : (List.range n).find? p with
    | none =>
      rw [hfirst, Option.getD_none] at ih
      rw [if_pos ih.symm]
      by_cases hp : p n = true <;> simp [hp]
    | some k =>
      have hk : k < n := List.mem_range.1 (List.mem_of_find?_eq_some hfirst)
      rw [hfirst] at ih
      rw [if_neg (fun hall => hk.ne (ih.trans hall))]
      exact ih

theorem aluClz_row : computesRow aluClz fun a _ _ =>
    (BitVec.ofNat 64 ((List.range 64).takeWhile (fun i => !a.getLsbD (63 - i))).length, false, false) := fun a _ _ => by
  show logicRes (BitVec.ofNat 64 (clz64 a)) = _
  rw [clz64, find?_getD_range]
  rfl

theorem aluCtz_row : computesRow aluCtz fun a _ _ =>
    (BitVec.ofNat 64 ((List.range 64).takeWhile (fun i => !a.getLsbD i)).length, false, false) := fun a _ _ => by
  show logicRes (BitVec.ofNat 64 (ctz64 a)) = _
  rw [ctz64, find?_getD_range]
  rfl

/-- A vector above another, as a number. -/
theorem toNat_append_mul {m n : Nat} (x : BitVec m) (y : BitVec n) : (x ++ y).toNat = x.toNat * 2 ^ n + y.toNat := by
  rw [BitVec.toNat_append, ← Nat.shiftLeft_add_eq_or_of_lt y.isLt, Nat.shiftLeft_eq]

theorem ofNat_beVal (b0 b1 b2 b3 b4 b5 b6 b7 : Byte) :
    BitVec.ofNat 64 (beVal [b0, b1, b2, b3, b4, b5, b6, b7]) = b0 ++ b1 ++ b2 ++ b3 ++ b4 ++ b5 ++ b6 ++ b7 := by
  have hval : beVal [b0, b1, b2, b3, b4, b5, b6, b7] = (b0 ++ b1 ++ b2 ++ b3 ++ b4 ++ b5 ++ b6 ++ b7).toNat := by
    simp only [toNat_append_mul, beVal, List.foldl, Nat.zero_mul, Nat.zero_add, Nat.reducePow]
  rw [hval, BitVec.ofNat_toNat, BitVec.setWidth_eq]

/-- The bytes of a word, the least significant first. -/
theorem leBytes_toNat (a : W64) :
    leBytes 8 a.toNat = [a.extractLsb' 0 8, a.extractLsb' 8 8, a.extractLsb' 16 8, a.extractLsb' 24 8, a.extractLsb' 32 8,
      a.extractLsb' 40 8, a.extractLsb' 48 8, a.extractLsb' 56 8] := by
  simp only [leBytes, Nat.div_div_eq_div_mul, BitVec.extractLsb', Nat.shiftRight_eq_div_pow]
  norm_num

theorem aluBswap_row : computesRow aluBswap fun a _ _ => (a.extractLsb' 0 8 ++ a.extractLsb' 8 8 ++ a.extractLsb' 16 8 ++ a.extractLsb' 24 8
    ++ a.extractLsb' 32 8 ++ a.extractLsb' 40 8 ++ a.extractLsb' 48 8 ++ a.extractLsb' 56 8, false, false) := fun a _ _ => by
  rw [aluBswap, leBytes_toNat, ofNat_beVal, logicRes]

/-- The opcode names an operation that computes the row. -/
def opComputes (op : Nat) (row : AluRow) : Prop := ∃ f, alu op = some f ∧ computesRow f row

theorem opComputes_of_aluRows : ∀ row ∈ aluRows, opComputes row.2.1 row.2.2 := by
  simp only [aluRows, List.forall_mem_cons]
  exact ⟨⟨aluMov, rfl, fun _ _ _ => rfl⟩, ⟨aluAdd, rfl, fun a b _ => addWith_false a b⟩, ⟨aluAdc, rfl, aluAdc_row⟩,
    ⟨aluSub, rfl, fun a b _ => subWith_false a b⟩, ⟨aluSbc, rfl, aluSbc_row⟩, ⟨aluRsb, rfl, fun a b _ => subWith_false b a⟩,
    ⟨aluNeg, rfl, aluNeg_row⟩, ⟨aluAnd, rfl, fun _ _ _ => rfl⟩, ⟨aluOr, rfl, fun _ _ _ => rfl⟩, ⟨aluXor, rfl, fun _ _ _ => rfl⟩,
    ⟨aluAndn, rfl, fun _ _ _ => rfl⟩, ⟨aluShl, rfl, aluShl_row⟩, ⟨aluShr, rfl, aluShr_row⟩, ⟨aluSar, rfl, aluSar_row⟩,
    ⟨aluRol, rfl, aluRol_row⟩, ⟨aluRor, rfl, aluRor_row⟩, ⟨aluMul, rfl, aluMul_row⟩, ⟨aluMulh, rfl, fun _ _ _ => rfl⟩,
    ⟨aluMulhu, rfl, fun _ _ _ => rfl⟩, ⟨aluMin, rfl, fun _ _ _ => rfl⟩, ⟨aluMax, rfl, fun _ _ _ => rfl⟩,
    ⟨aluMinu, rfl, fun _ _ _ => rfl⟩, ⟨aluMaxu, rfl, fun _ _ _ => rfl⟩, ⟨aluSext, rfl, aluSext_row⟩, ⟨aluZext, rfl, aluZext_row⟩,
    ⟨aluBswap, rfl, aluBswap_row⟩, ⟨aluPopc, rfl, fun _ _ _ => rfl⟩, ⟨aluClz, rfl, aluClz_row⟩, ⟨aluCtz, rfl, aluCtz_row⟩,
    List.forall_mem_nil _⟩

theorem opComputes_of_compareRows : ∀ row ∈ compareRows, opComputes row.2.1 row.2.2 := by
  simp only [compareRows, List.forall_mem_cons]
  exact ⟨⟨aluSub, rfl, fun a b _ => subWith_false a b⟩, ⟨aluAnd, rfl, fun _ _ _ => rfl⟩, List.forall_mem_nil _⟩

/-! ### The rows' constructors -/

/-- The instruction issues a syllable of the A slot with this opcode, which fits its field and is no custom one's. -/
def issuesA (i : Syl → Instr) (op : Nat) : Prop := op < 0x70 ∧ ∀ y s, exec (i y) s = answer (s.syllable y 0 op)

theorem issuesA_of_aluRows : ∀ row ∈ aluRows, issuesA row.1 row.2.1 ∧ flagsOnly row.2.1 = false := by
  unfold aluRows
  repeat refine List.forall_mem_cons.2 ⟨⟨⟨by decide, fun _ _ => rfl⟩, rfl⟩, ?_⟩
  exact List.forall_mem_nil _

theorem issuesA_of_compareRows : ∀ row ∈ compareRows, issuesA row.1 row.2.1 ∧ flagsOnly row.2.1 = true := by
  unfold compareRows
  repeat refine List.forall_mem_cons.2 ⟨⟨⟨by decide, fun _ _ => rfl⟩, rfl⟩, ?_⟩
  exact List.forall_mem_nil _

theorem issuesA_of_indexRows : ∀ row ∈ indexRows, issuesA row.1 row.2.1 := by
  unfold indexRows
  repeat refine List.forall_mem_cons.2 ⟨⟨by decide, fun _ _ => rfl⟩, ?_⟩
  exact List.forall_mem_nil _

/-! ### What the A slot executes (R178, R180) -/

section
variable {i : Syl → Instr} {op : Nat} (hissues : issuesA i op)
include hissues

theorem o_of_issuesA (y : Syl) : (sylRaw y 0 op).o = op := Nat.mod_eq_of_lt (hissues.1.trans (by decide))

theorem execSyl_of_issuesA (y : Syl) (v : State) (t : Nat) (r : Regs) (next : BitVec 16) :
    execSyl t r next v (sylRaw y 0 op) = execA v t r (sylRaw y 0 op) := by
  have hplain : (sylRaw y 0 op).custom = false := by
    have hlow := hissues.1
    simp only [RawSyl.custom, o_of_issuesA hissues y, decide_eq_false (show ¬ 0x70 ≤ op by omega), Bool.and_false]
  unfold execSyl
  rw [hplain]
  rfl

theorem givesSome_of_issuesA {s : State} {y : Syl} {p : State → Prop} (h : Executes s y 0 op)
    (heffect : ∀ v, Issued s v (tidOf y) → v.outer = s.outer →
      p (pastBundle s (tidOf y) (execA v (tidOf y) (s.th (tidOf y)).regs (sylRaw y 0 op)))) : givesSome (i y) s p := by
  refine givesSome_of_effect (show (0 : BitVec 2) ≠ 3 by decide) h (hissues.2 y s) fun v hv houter => ?_
  rw [execSyl_of_issuesA hissues]
  exact heffect v hv houter

end

/-- An operation of R179 writes FL, and ACC unless it compares. -/
theorem execA_of_alu {v : State} {t : Nat} {r : Regs} {z : RawSyl} {f : W64 → W64 → Fl → W64 × Fl} (hf : alu z.o = some f) :
    execA v t r z = setRegs v t (fun q =>
      { q with acc := if flagsOnly z.o then q.acc else (f r.acc (aOperand v t r z) r.fl).1, fl := (f r.acc (aOperand v t r z) r.fl).2 }) := by
  unfold execA
  split
  case h_5 => rw [hf]
  all_goals rename_i hop; rw [hop] at hf; cases hf

/-- An A-class operation that computes its row writes FL, and the result to ACC unless it compares. -/
theorem givesSome_alu {i : Syl → Instr} {op : Nat} {row : AluRow} (hissues : issuesA i op) (hcomputes : opComputes op row) {s : State}
    {y : Syl} (h : Executes s y 0 op) :
    let t := tidOf y
    let r := (s.th t).regs
    let v := row r.acc (aOperand s t r (sylRaw y 0 op)) r.fl
    givesSome (i y) s (fun u =>
      ran s u t { r with acc := if flagsOnly op then r.acc else v.1, fl := mkFl (v.1 == 0) v.1.msb v.2.1 v.2.2 }) := by
  obtain ⟨f, hf, hrow⟩ := hcomputes
  refine givesSome_of_issuesA hissues h fun v hv houter => ?_
  rw [execA_of_alu (by rwa [o_of_issuesA hissues]), hv.aOperand_eq houter, hrow, o_of_issuesA hissues]
  exact hv.ran_setRegs houter _

theorem aluInstructionsComputeResultAndFlags : Claims.AluInstructionsComputeResultAndFlags := by
  unfold Claims.AluInstructionsComputeResultAndFlags
  intro row hrow y s h
  obtain ⟨hissues, hwrites⟩ := issuesA_of_aluRows row hrow
  have hgives := givesSome_alu hissues (opComputes_of_aluRows row hrow) h
  rw [hwrites] at hgives
  exact hgives

theorem compareAndTestWriteOnlyFlags : Claims.CompareAndTestWriteOnlyFlags := by
  unfold Claims.CompareAndTestWriteOnlyFlags
  intro row hrow y s h
  obtain ⟨hissues, hcompares⟩ := issuesA_of_compareRows row hrow
  have hgives := givesSome_alu hissues (opComputes_of_compareRows row hrow) h
  rw [hcompares] at hgives
  exact hgives

/-! ### The index registers (R180) -/

/-- XA and XB as the row leaves them. -/
def indexed (row : W32 → W32 → W32 → W32 × W32) (b : W64) (r : Regs) : Regs :=
  { r with xa := (row r.xa r.xb (b.setWidth 32)).1, xb := (row r.xa r.xb (b.setWidth 32)).2 }

theorem execA_of_indexRows (v : State) (t : Nat) (r : Regs) (y : Syl) : ∀ row ∈ indexRows, ∃ f : Regs → Regs,
    execA v t r (sylRaw y 0 row.2.1) = setRegs v t f ∧ f r = indexed row.2.2 (aOperand v t r (sylRaw y 0 row.2.1)) r := by
  simp only [indexRows, List.forall_mem_cons]
  exact ⟨⟨fun q => { q with xa := _ }, rfl, rfl⟩, ⟨fun q => { q with xb := _ }, rfl, rfl⟩, ⟨fun q => { q with xa := _ }, rfl, rfl⟩,
    ⟨fun q => { q with xb := _ }, rfl, rfl⟩, List.forall_mem_nil _⟩

theorem indexInstructionsWriteIndexRegisters : Claims.IndexInstructionsWriteIndexRegisters := by
  unfold Claims.IndexInstructionsWriteIndexRegisters
  intro row hrow y s h
  refine givesSome_of_issuesA (issuesA_of_indexRows row hrow) h fun v hv houter => ?_
  obtain ⟨f, hexec, hregs⟩ := execA_of_indexRows v (tidOf y) (s.th (tidOf y)).regs y row hrow
  have hran := hv.ran_setRegs houter f
  rw [hregs, hv.aOperand_eq houter] at hran
  rw [hexec]
  exact hran

/-- Settles O4: each operation computes its row, and what the A slot executes writes no more than the thread's registers. -/
theorem registerInstructionsComputeResultAndFlags : Obligations.RegisterInstructionsComputeResultAndFlags :=
  ⟨aluInstructionsComputeResultAndFlags, compareAndTestWriteOnlyFlags, indexInstructionsWriteIndexRegisters⟩

end Sys2Proof.Machine
end

section
/-! Loads, as a thread executes them (R119, R139, R184, R185). -/

namespace Sys2Proof.Machine

open Sys2Proof.Claims

/-! ### An outstanding load -/

theorem extendLoad_eq_widened (n v : Nat) (sgn : Bool) : extendLoad n sgn v = widened sgn n v := by
  unfold extendLoad widened
  rw [sext64_eq_signExtend]

/-- A load that thread `t` begins with the next identity. -/
def State.beginLoad (s : State) (t : Nat) (l : Load) : State := s.newId.2.addLoad t l

/-- A request of thread `t` for its load tells the record, the life and the kind of work of the thread, which the load does not change. -/
theorem request_beginLoad (v : State) (t isl a : Nat) (size : BitVec 2) (l : Load) (far : Bool) (hisl : v.accessIsland a far = isl) :
    State.request (v.beginLoad t l) t { id := v.nextId, thread := t, tag := (v.th t).accord, kind := .load, addr := a, size := size } far =
      (v.beginLoad t l).send (t / 128) isl (Claims.request v t .load a size 0 0) := by
  subst hisl
  exact State.request_addLoad _ _ _ _ _

section
variable {s v : State} {t : Nat} (h : Issued s v t) (houter : v.outer = s.outer) (l : Load)
include h

theorem Issued.past_beginLoad : past s (pastBundle s t (v.beginLoad t l)) t (withLoad (s.th t) l) :=
  h.past_of_th (fun x => Thread.begin' (withLoad x l) l.id) (fun k => v.newId.2.th_modTh t k _) fun _ => ⟨_, Thread.begin'_eq _ _⟩

theorem Issued.clustersSame_beginLoad : clustersSame s (pastBundle s t (v.beginLoad t l)) :=
  clustersSame_of_effect (fun c => (State.still_modTh _ t c _).trans (h.still c)) _

include houter

/-- A load that takes its bytes at issue: the thread waits for it, and of the rest only the next identity has moved. -/
theorem Issued.loads :
    let u := pastBundle s t (v.beginLoad t l)
    past s u t (withLoad (s.th t) l) ∧ clustersSame s u ∧ u = { s with clusters := u.clusters, obs := u.obs, nextId := s.nextId + 1 } := by
  have hrest : (v.beginLoad t l).outer = { v.outer with nextId := v.nextId + 1 } := rfl
  rw [houter, State.outer_nextId houter] at hrest
  exact ⟨h.past_beginLoad l, h.clustersSame_beginLoad l, eq_of_effect (v := { s with nextId := s.nextId + 1 }) hrest _⟩

/-- A load that asks island `isl`: the thread waits for it, and one request is on its way. -/
theorem Issued.loadsRemote (isl : Nat) (m : Msg) :
    let u := pastBundle s t ((v.beginLoad t l).send (t / 128) isl m)
    past s u t (withLoad (s.th t) l) ∧ clustersSame s u ∧ sent s u (t / 128) isl m := by
  have hrest : ((v.beginLoad t l).send (t / 128) isl m).outer =
      { v.outer with nextId := v.nextId + 1, net := v.net ++ [⟨t / 128, isl, m⟩] } := rfl
  rw [houter, State.outer_nextId houter, State.outer_net houter] at hrest
  exact ⟨h.past_beginLoad l, h.clustersSame_beginLoad l,
    eq_of_effect (v := { s with net := s.net ++ [⟨t / 128, isl, m⟩], nextId := s.nextId + 1 }) hrest _⟩

end

/-! ### Near and far loads (R184, R185) -/

/-- The load of address `a` that an M-class syllable begins: of near memory at once, of the aperture or of device DRAM by a request. -/
def State.loadAt (v : State) (t : Nat) (r : Regs) (z : RawSyl) (sgn : Bool) (a : Nat) (far : Bool) : State :=
  if far = true ∨ inAperture a = true then
    State.request (v.beginLoad t { loadOf v z sgn with remote := true, isl := v.accessIsland a far }) t
      { id := v.nextId, thread := t, tag := (v.th t).accord, kind := .load, addr := a, size := BitVec.ofNat 2 (z.f 19 18) } far
  else v.beginLoad t { loadOf v z sgn with
    value := some (extendLoad (mSize z) sgn (nearValue v t r a (mSize z)), none), ecc := nearBad v t a (mSize z) }

/-- The instruction issues an M-class syllable whose effect is a load of its near or far address. -/
def issuesLoad (i : Syl → Instr) (op : Nat) (sgn far : Bool) : Prop :=
  (∀ y s, exec (i y) s = answer (s.syllable y 1 op)) ∧
  ∀ y v t r next, execSyl t r next v (sylRaw y 1 op) =
    v.loadAt t r (sylRaw y 1 op) sgn (if far then farAddr r else nearAddr r (sylRaw y 1 op)) far

theorem issuesLoad_of_nearLoads : ∀ row ∈ nearLoads, issuesLoad row.1 row.2.1 row.2.2 false := by
  unfold nearLoads
  repeat refine List.forall_mem_cons.2 ⟨⟨fun _ _ => rfl, fun _ _ _ _ _ => rfl⟩, ?_⟩
  exact List.forall_mem_nil _

theorem issuesLoad_of_farLoads : ∀ row ∈ farLoads, issuesLoad row.1 row.2.1 row.2.2 true := by
  unfold farLoads
  repeat refine List.forall_mem_cons.2 ⟨⟨fun _ _ => rfl, fun _ _ _ _ _ => rfl⟩, ?_⟩
  exact List.forall_mem_nil _

section
variable {s v : State} {t : Nat} (h : Issued s v t) (houter : v.outer = s.outer) (z : RawSyl) (sgn : Bool)
include houter

theorem loadOf_congr : loadOf v z sgn = loadOf s z sgn := by
  unfold loadOf
  rw [State.outer_nextId houter]

include h

theorem Issued.loadAt_near (r : Regs) {a : Nat} (hnear : inAperture a = false) :
    v.loadAt t r z sgn a false = v.beginLoad t { loadOf s z sgn with
      value := some (widened sgn (mSize z) (nearValue s t r a (mSize z)), none), ecc := nearBad s t a (mSize z) } := by
  rw [← loadOf_congr houter, ← h.nearValue_eq houter, ← h.nearBad_eq, ← extendLoad_eq_widened]
  exact if_neg (by simp [hnear])

theorem Issued.loadAt_remote (r : Regs) {a isl : Nat} {far : Bool} (hremote : far = true ∨ inAperture a = true)
    (hisl : s.accessIsland a far = isl) :
    v.loadAt t r z sgn a far = (v.beginLoad t { loadOf s z sgn with remote := true, isl := isl }).send (t / 128) isl
      (Claims.request s t .load a (BitVec.ofNat 2 (z.f 19 18)) 0 0) := by
  rw [← accessIsland_congr houter] at hisl
  rw [← loadOf_congr houter, ← h.request_eq houter, ← request_beginLoad v t isl a _ _ far hisl, ← hisl]
  exact if_pos hremote

end

section
variable {s : State} {y : Syl} {i : Syl → Instr} {op : Nat} {sgn far : Bool}

theorem givesSome_nearLoad (hissues : issuesLoad i op sgn false) (h : Executes s y 1 op)
    (hnear : inAperture (nearAddr (s.th (tidOf y)).regs (sylRaw y 1 op)) = false) :
    let t := tidOf y
    let z := sylRaw y 1 op
    let a := nearAddr (s.th t).regs z
    givesSome (i y) s (fun u =>
      past s u t (withLoad (s.th t) { loadOf s z sgn with
        value := some (widened sgn (mSize z) (nearValue s t (s.th t).regs a (mSize z)), none), ecc := nearBad s t a (mSize z) })
        ∧ clustersSame s u ∧ u = { s with clusters := u.clusters, obs := u.obs, nextId := s.nextId + 1 }) := by
  refine givesSome_effect h (hissues.1 y s) fun v hv houter => ?_
  rw [hissues.2, if_neg Bool.false_ne_true, hv.loadAt_near houter _ _ _ hnear]
  exact hv.loads houter _

theorem givesSome_remoteLoad {a isl : Nat} (hissues : issuesLoad i op sgn far) (h : Executes s y 1 op)
    (ha : (if far then farAddr (s.th (tidOf y)).regs else nearAddr (s.th (tidOf y)).regs (sylRaw y 1 op)) = a)
    (hremote : far = true ∨ inAperture a = true) (hisl : s.accessIsland a far = isl) :
    let t := tidOf y
    let z := sylRaw y 1 op
    givesSome (i y) s (fun u =>
      past s u t (withLoad (s.th t) { loadOf s z sgn with remote := true, isl := isl })
        ∧ clustersSame s u ∧ sent s u (t / 128) isl (Claims.request s t .load a (BitVec.ofNat 2 (z.f 19 18)) 0 0)) := by
  refine givesSome_effect h (hissues.1 y s) fun v hv houter => ?_
  rw [hissues.2, ha, hv.loadAt_remote houter _ _ _ hremote hisl]
  exact hv.loadsRemote houter _ _ _

end

/-! ### Program words (R184) -/

theorem execSyl_ldp (y : Syl) (v : State) (t : Nat) (r : Regs) (next : BitVec 16) :
    execSyl t r next v (sylRaw y 1 0x30) = v.beginLoad t { loadOf v (sylRaw y 1 0x30) false with
      reg := 0, size := 3, value := some (BitVec.ofNat 64 (bankWord v (v.th t).accord (r.xa.toNat % 65536)), none) } := rfl

theorem givesSome_ldp {s : State} {y : Syl} (h : Executes s y 1 0x30) :
    let t := tidOf y
    givesSome (.ldp y) s (fun u =>
      past s u t (withLoad (s.th t) { loadOf s (sylRaw y 1 0x30) false with
        reg := 0, size := 3, value := some (BitVec.ofNat 64 (bankWord s (s.th t).accord ((s.th t).regs.xa.toNat % 65536)), none) })
        ∧ clustersSame s u ∧ u = { s with clusters := u.clusters, obs := u.obs, nextId := s.nextId + 1 }) := by
  refine givesSome_effect h rfl fun v hv houter => ?_
  rw [execSyl_ldp, loadOf_congr houter, bankWord_congr houter, hv.accord_eq]
  exact hv.loads houter _

/-- Settles O5: a load takes its bytes as it issues, or asks the island that its address lies on. -/
theorem loadsBeginWithTheirBytesOrRequest : Obligations.LoadsBeginWithTheirBytesOrRequest := by
  unfold Obligations.LoadsBeginWithTheirBytesOrRequest
  exact ⟨fun row hrow _ _ h => ⟨givesSome_nearLoad (issuesLoad_of_nearLoads row hrow) h,
      fun hin => givesSome_remoteLoad (issuesLoad_of_nearLoads row hrow) h rfl (.inr hin) rfl⟩,
    fun row hrow _ _ h => givesSome_remoteLoad (issuesLoad_of_farLoads row hrow) h rfl (.inl rfl) rfl, fun _ _ => givesSome_ldp⟩

end Sys2Proof.Machine
end

section
/-! H-class instructions: what they hand to their helper, and what the helpers over registers return (R183, R187, R209, R213, R221 to R223). -/

namespace Sys2Proof.Machine

open Sys2Proof.Claims

/-! ### The operation handed over (R187, R209) -/

/-- The cluster with one operation more, its last reading of now, and the grant pointer of the helper handed to. -/
def Cluster.taking (k : Cluster) (h : HelperOp) (now : Nat × BitVec 32) (unit core : Nat) : Cluster :=
  { k with hops := k.hops ++ [h], lastNow := now.1, lastFrac := now.2, rrHelp := Store.set 0 k.rrHelp unit ((core + 1) % 8) }

/-- The thread with its helper's operation `id` begun. -/
def Thread.awaiting (x : Thread) (id : Nat) : Thread := Thread.begin' { x with helper := some id } id

theorem Thread.awaiting_eq (x : Thread) (id : Nat) : x.awaiting id = { x with helper := some id, branches := (x.awaiting id).branches } :=
  Thread.begin'_eq _ id

/-- Thread `t` hands the operation `h` to its helper with the next identity: ACC and FL are pending on it, and the helper's grant
pointer and the cluster's last reading of now, `now`, are kept. -/
def State.handTo (s : State) (t : Nat) (z : RawSyl) (h : HelperOp) (now : Nat × BitVec 32) : State :=
  State.count (State.modTh (s.newId.2.modCl (t / 128) (·.taking h now z.helper (coreOf t))) t (·.awaiting s.nextId))
    (src (t / 128) (8 + z.helper)) 0x10

/-- The syllable reads no near bytes for its helper. -/
def readsNone (s : State) (t : Nat) (r : Regs) (z : RawSyl) : Prop := (hSpans s t r z).filter (·.2.2.2) = [] ∧ z.isH 6 2 = false

theorem helper_lt (z : RawSyl) : z.helper < 8 := by
  have := z.op.isLt
  unfold RawSyl.helper RawSyl.o
  omega

theorem hop_lt (z : RawSyl) : z.hop < 16 := Nat.mod_lt _ (by decide)

/-- Where nothing is read, no uncorrectable word is. -/
theorem not_bad_of_none {α : Type} {l : List α} {p : α → Bool} {wrc bad : Bool} (hreads : l = []) (hwrc : wrc = false) :
    ¬ (l.any p || (wrc && bad)) = true := by
  simp [hreads, hwrc]

/-- What an H syllable hands over; where it reads no near bytes and is no table operation, its result is known at once. -/
theorem execH_hands (v : State) (t : Nat) (z : RawSyl) : ∃ h now, execH v t (v.th t).regs z = v.handTo t z h now ∧ handed v t z h ∧
    (z.helper ≠ 0 → readsNone v t (v.th t).regs z →
      h.res = helperCompute v.newId.2 (t / 128) { h with res := none, isls := [] }) := by
  refine ⟨_, _, rfl, ⟨rfl, rfl, ?_, ?_, rfl, rfl, rfl, rfl, rfl, rfl, rfl, rfl⟩, fun htable ⟨hreads, hwrc⟩ => ?_⟩
  · exact Nat.mod_eq_of_lt (helper_lt z)
  · exact Nat.mod_eq_of_lt (hop_lt z)
  · exact (if_neg fun hrefused => htable hrefused.1).trans (if_neg (not_bad_of_none hreads hwrc))

/-- The thread handed over waits for its helper, and no other thread has changed. -/
theorem State.th_handTo (v : State) (t : Nat) (z : RawSyl) (g : HelperOp) (now : Nat × BitVec 32) (k : Nat) :
    (v.handTo t z g now).th k = if k = t then (v.th t).awaiting v.nextId else v.th k := by
  have hkept : ∀ j, (v.newId.2.modCl (t / 128) (·.taking g now z.helper (coreOf t))).th j = v.th j := fun j => State.th_modCl _ _ j _ rfl
  refine (State.th_modTh _ t k _).trans ?_
  rw [hkept t, hkept k]

theorem State.cl_handTo_other (v : State) {t c : Nat} (z : RawSyl) (g : HelperOp) (now : Nat × BitVec 32) (h : c ≠ t / 128) :
    (v.handTo t z g now).cl c = v.cl c :=
  (State.cl_modTh_other _ _ h).trans ((State.cl_modCl _ _ _ _).trans (if_neg h))

/-- The cluster handed to holds the operation after those it held. -/
theorem State.still_handTo (v : State) (t : Nat) (z : RawSyl) (g : HelperOp) (now : Nat × BitVec 32) :
    ((v.handTo t z g now).cl (t / 128)).still =
      ((v.cl (t / 128)).taking g now z.helper (coreOf t)).still := by
  refine (State.still_modTh _ t _ _).trans ?_
  rw [State.cl_modCl_same]
  rfl

section
variable {s v : State} {t : Nat} (h : Issued s v t)
include h

/-- A cluster the thread does not belong to is as before a bundle whose effect left it. -/
theorem Issued.cl_pastBundle_other {w : State} {c : Nat} (hw : w.cl c = v.cl c) (hc : c ≠ t / 128) : (pastBundle s t w).cl c = s.cl c :=
  (State.cl_modTh_other w _ hc).trans (hw.trans (h.elsewhere c hc))

theorem Issued.oneMore_handTo (z : RawSyl) (g : HelperOp) (now : Nat × BitVec 32) : oneMore s (pastBundle s t (v.handTo t z g now)) t g := by
  have hwas := h.still (t / 128)
  have hstill : ((pastBundle s t (v.handTo t z g now)).cl (t / 128)).still = ((v.cl (t / 128)).taking g now z.helper (coreOf t)).still :=
    (still_pastBundle s t _ _).trans (v.still_handTo t z g now)
  refine ⟨(Cluster.still_hops hstill).trans ?_, (Cluster.still_coreMem hstill).trans ?_, (Cluster.still_clMem hstill).trans ?_,
    (Cluster.still_chan hstill).trans ?_, fun c hc => h.cl_pastBundle_other (v.cl_handTo_other z g now hc) hc⟩
  · exact congrArg (· ++ [g]) (Cluster.still_hops hwas)
  · exact (Cluster.still_coreMem hwas : (v.cl (t / 128)).coreMem = _)
  · exact (Cluster.still_clMem hwas : (v.cl (t / 128)).clMem = _)
  · exact (Cluster.still_chan hwas : (v.cl (t / 128)).chan = _)

variable (houter : v.outer = s.outer)
include houter

theorem Issued.handed_of {z : RawSyl} {g : HelperOp} (hhanded : handed v t z g) : handed s t z g := by
  obtain ⟨bs, hth⟩ := h.th_eq
  unfold handed at hhanded ⊢
  rwa [hth, State.outer_nextId houter] at hhanded

/-- The thread waits for the helper's result, which has one operation more; of the rest only the next identity has moved. -/
theorem Issued.hands (z : RawSyl) (g : HelperOp) (now : Nat × BitVec 32) :
    let u := pastBundle s t (v.handTo t z g now)
    past s u t { s.th t with helper := some s.nextId } ∧ oneMore s u t g
      ∧ u = { s with clusters := u.clusters, obs := u.obs, nextId := s.nextId + 1 } := by
  have hrest : (v.handTo t z g now).outer = { v.outer with nextId := v.nextId + 1 } := rfl
  rw [houter, State.outer_nextId houter] at hrest
  refine ⟨?_, h.oneMore_handTo z g now, eq_of_effect (v := { s with nextId := s.nextId + 1 }) hrest _⟩
  have hpast := fun bs => { s.th t with branches := bs, waitSyls := [], bpPass := false }.awaiting_eq s.nextId
  exact h.past_of_th (·.awaiting s.nextId) (State.outer_nextId houter ▸ v.th_handTo t z g now) fun bs => ⟨_, hpast bs⟩

end

/-! ### The instructions of the H slot -/

/-- The instruction issues a syllable of the H slot with this opcode. -/
def issuesH (i : Syl → Instr) (op : Nat) : Prop := ∀ y s, exec (i y) s = answer (s.syllable y 2 op)

theorem issuesH_of_helperRows : ∀ row ∈ helperRows, issuesH row.1 row.2 := by
  unfold helperRows
  repeat refine List.forall_mem_cons.2 ⟨fun _ _ => rfl, ?_⟩
  exact List.forall_mem_nil _

/-- An H-class instruction leaves what its hand-over leaves, of an operation handed with the registers as they stood before it. -/
theorem givesSome_of_issuesH {i : Syl → Instr} {op : Nat} {y : Syl} {s : State} {p : State → Prop} (hissues : issuesH i op)
    (h : Executes s y 2 op)
    (heffect : ∀ v, Issued s v (tidOf y) → v.outer = s.outer →
      ∀ g now, handed s (tidOf y) (sylRaw y 2 op) g →
        ((sylRaw y 2 op).helper ≠ 0 → readsNone v (tidOf y) (s.th (tidOf y)).regs (sylRaw y 2 op) →
          g.res = helperCompute v.newId.2 (tidOf y / 128) { g with res := none, isls := [] }) →
        p (pastBundle s (tidOf y) (v.handTo (tidOf y) (sylRaw y 2 op) g now))) :
    givesSome (i y) s p := by
  refine givesSome_of_effect (show (2 : BitVec 2) ≠ 3 by decide) h (hissues y s) fun v hv houter => ?_
  obtain ⟨bs, hth⟩ := hv.th_eq
  obtain ⟨g, now, hexec, hhanded, hres⟩ := execH_hands v (tidOf y) (sylRaw y 2 op)
  have hregs : (v.th (tidOf y)).regs = (s.th (tidOf y)).regs := by rw [hth]
  rw [hregs] at hexec hres
  have hsyl : execSyl (tidOf y) (s.th (tidOf y)).regs (addrAfter (s.th (tidOf y)).pc 1) v (sylRaw y 2 op) =
      v.handTo (tidOf y) (sylRaw y 2 op) g now := hexec
  rw [hsyl]
  exact heffect v hv houter g now (hv.handed_of houter hhanded) hres

theorem helperInstructionsHandOverOperands : Claims.HelperInstructionsHandOverOperands := by
  unfold Claims.HelperInstructionsHandOverOperands
  intro row hrow y s h
  refine givesSome_of_issuesH (issuesH_of_helperRows row hrow) h fun v hv houter g now hhanded _ => ?_
  obtain ⟨hpast, hmore, hrest⟩ := hv.hands houter (sylRaw y 2 row.2) g now
  exact ⟨hpast, ⟨g, hmore, hhanded⟩, hrest⟩

/-! ### What the helpers over registers compute (R183, R221 to R223) -/

/-- A result with its flags: Z and N are of the result. -/
def resultOf (v : W64 × Bool × Bool) : HelperRes := { acc := v.1, fl := mkFl (v.1 == 0) v.1.msb v.2.1 v.2.2 }

/-- The operation's operands are the syllable's FIELDS and the registers. -/
def operandsOf (g : HelperOp) (z : RawSyl) (r : Regs) : Prop := g.fields = z.fields ∧ g.acc = r.acc ∧ g.xa = r.xa ∧ g.xb = r.xb

/-- What the helper computes of its operands is the row. -/
def helpsRow (f : HelperOp → HelperRes) (row : RawSyl → Regs → W64 × Bool × Bool) : Prop :=
  ∀ g z r, operandsOf g z r → f g = resultOf (row z r)

/-- XA above XB, as the helpers take them. -/
theorem ofNat_xa_xb (a b : W32) : BitVec.ofNat 64 (a.toNat * 2 ^ 32 + b.toNat) = a ++ b := by
  rw [← toNat_append_mul, BitVec.ofNat_toNat, BitVec.setWidth_eq]

section
variable {g : HelperOp} {z : RawSyl} {r : Regs} (h : operandsOf g z r)
include h

theorem divisor_of_operands : divisor g = divisorOf z r := by
  obtain ⟨hfields, -, hxa, hxb⟩ := h
  have hlow : (z.fields.setWidth 20) = BitVec.ofNat 20 (bits z.fields.toNat 19 0) := by
    apply BitVec.eq_of_toNat_eq
    simp [bits]
  unfold divisor divisorOf RawSyl.f
  rw [hfields, hxa, hxb, ofNat_xa_xb, sext64_eq_signExtend, sext64_eq_signExtend, hlow]
  have hsrc : bits z.fields.toNat 21 20 < 4 := Nat.mod_lt _ (by decide)
  interval_cases bits z.fields.toNat 21 20 <;> simp

/-- A division's result, with a zero divisor and with the one quotient that leaves the range. -/
theorem divRes_of_operands (sgn : Bool) (zero : W64) (q : W64 → W64 → W64) :
    divRes (if divisor g = 0 then zero else q g.acc (divisor g)) (divisor g == 0) (sgn && divOver g.acc (divisor g)) =
      resultOf (divided z r sgn zero q) := by
  have hover : ∀ a b, divOver a b = (a == BitVec.intMin 64 && b == BitVec.allOnes 64) := fun _ _ => rfl
  rw [divisor_of_operands h, h.2.1, hover]
  unfold divided divRes resFl resultOf
  by_cases hzero : divisorOf z r = 0
  · simp [hzero]
  · rw [if_neg hzero, if_neg hzero, beq_false_of_ne hzero]
    simp [Bool.and_assoc]

end

theorem helpDivs_row : helpsRow helpDivs fun z r => divided z r true 0 fun a d => BitVec.ofInt 64 (a.toInt.tdiv d.toInt) :=
  fun _ _ _ h => divRes_of_operands h true 0 fun a d => BitVec.ofInt 64 (a.toInt.tdiv d.toInt)

theorem helpRems_row : helpsRow helpRems fun z r => divided z r true r.acc fun a d => BitVec.ofInt 64 (a.toInt.tmod d.toInt) := by
  intro g z r h
  obtain ⟨-, hacc, -⟩ := id h
  refine Eq.trans ?_ (divRes_of_operands h true r.acc fun a d => BitVec.ofInt 64 (a.toInt.tmod d.toInt))
  rw [helpRems, hacc]
  rfl

theorem helpDivu_row : helpsRow helpDivu fun z r => divided z r false 0 fun a d => a / d := by
  intro g z r h
  refine Eq.trans ?_ (divRes_of_operands h false 0 fun a d => a / d)
  rw [helpDivu, ← BitVec.toNat_udiv, BitVec.ofNat_toNat, BitVec.setWidth_eq]
  rfl

theorem helpRemu_row : helpsRow helpRemu fun z r => divided z r false r.acc fun a d => a % d := by
  intro g z r h
  obtain ⟨-, hacc, -⟩ := id h
  refine Eq.trans ?_ (divRes_of_operands h false r.acc fun a d => a % d)
  rw [helpRemu, ← BitVec.toNat_umod, BitVec.ofNat_toNat, BitVec.setWidth_eq, hacc]
  rfl

/-- A bit field of a value, zero- or sign-extended as bit 9 of FIELDS says. -/
theorem bfxField_eq_fieldOf (z : RawSyl) (v : W64) : bfxField z.fields v.toNat = fieldOf z v := by
  have hbit : z.fields.getLsbD 9 = true ↔ z.f 9 9 = 1 := by
    simp [RawSyl.f, bits, BitVec.getLsbD, Nat.testBit_eq_decide_div_mod_eq, Nat.shiftRight_eq_div_pow]
  have hfield : ∀ w, (v >>> z.f 21 16).setWidth w = BitVec.ofNat w ((v.toNat >>> z.f 21 16) % 2 ^ w) := fun w => by
    apply BitVec.eq_of_toNat_eq
    simp
  unfold bfxField fieldOf
  dsimp only
  rw [hfield, ← sext64_eq_signExtend]
  by_cases hsigned : z.f 9 9 = 1
  · exact (if_pos (hbit.2 hsigned)).trans (if_pos hsigned).symm
  · refine (if_neg (hsigned ∘ hbit.1)).trans (Eq.trans ?_ (if_neg hsigned).symm)
    apply BitVec.eq_of_toNat_eq
    simp [RawSyl.f]

theorem helpExt_row : helpsRow helpExt fun z r => (fieldOf z r.acc, false, false) := by
  rintro g z r ⟨hfields, hacc, -⟩
  rw [helpExt, hfields, hacc, bfxField_eq_fieldOf]
  rfl

theorem helpTadd_row : helpsRow helpTadd fun _ r => (r.acc + (r.xa ++ r.xb), false, outside64 (r.acc.toInt + (r.xa ++ r.xb).toInt)) := by
  rintro g z r ⟨-, hacc, hxa, hxb⟩
  rw [helpTadd, hacc, hxa, hxb, ofNat_xa_xb, ovf_eq_outside64]
  rfl

theorem helpTsec_row : helpsRow helpTsec fun _ r => (r.acc / 1000000000, false, false) := by
  rintro g z r ⟨-, hacc, -⟩
  have hdiv : BitVec.ofNat 64 (r.acc.toNat / 1000000000) = r.acc / 1000000000 := by
    apply BitVec.eq_of_toNat_eq
    rw [BitVec.toNat_udiv, BitVec.toNat_ofNat, Nat.mod_eq_of_lt ((Nat.div_le_self _ _).trans_lt r.acc.isLt)]
    rfl
  rw [helpTsec, hacc, hdiv]
  rfl

theorem helpTnsec_row : helpsRow helpTnsec fun _ r => (r.acc % 1000000000, false, false) := by
  rintro g z r ⟨-, hacc, -⟩
  have hmod : BitVec.ofNat 64 (r.acc.toNat % 1000000000) = r.acc % 1000000000 := by
    apply BitVec.eq_of_toNat_eq
    rw [BitVec.toNat_umod, BitVec.toNat_ofNat, Nat.mod_eq_of_lt ((Nat.mod_le _ _).trans_lt r.acc.isLt)]
    rfl
  rw [helpTnsec, hacc, hmod]
  rfl

/-! ### The instructions that return them -/

/-- An operation of no table and no packet, which reads no near bytes. -/
def readsRegisters (op : Nat) : Prop :=
  op < 128 ∧ op / 16 ≠ 0 ∧ op / 16 ≠ 6 ∧ ∀ f xa xb d, helperSpans (op / 16) (op % 16) f xa xb d = []

/-- The operation's helper computes `f`. -/
def helperComputes (op : Nat) (f : HelperOp → HelperRes) : Prop :=
  ∀ v c g, g.unit.toNat = op / 16 → g.op.toNat = op % 16 → helperCompute v c g = some (f g)

theorem rows_of_resultRows : ∀ row ∈ resultRows, issuesH row.1 row.2.1 ∧ readsRegisters row.2.1 := by
  unfold resultRows
  repeat refine List.forall_mem_cons.2 ⟨⟨fun _ _ => rfl, by decide, by decide, by decide, fun _ _ _ _ => rfl⟩, ?_⟩
  exact List.forall_mem_nil _

theorem helpsRow_of_resultRows : ∀ row ∈ resultRows, ∃ f, helperComputes row.2.1 f ∧ helpsRow f row.2.2 := by
  have hcomputes : ∀ e ∈ [(0x40, helpDivs), (0x41, helpDivu), (0x42, helpRems), (0x43, helpRemu), (0x30, helpExt), (0x52, helpTadd),
      (0x55, helpTsec), (0x56, helpTnsec)], helperComputes e.1 e.2 := by
    repeat refine List.forall_mem_cons.2 ⟨fun v c g hunit hop => by rw [helperCompute, hunit, hop]; rfl, ?_⟩
    exact List.forall_mem_nil _
  simp only [List.forall_mem_cons] at hcomputes
  obtain ⟨hdivs, hdivu, hrems, hremu, hext, htadd, htsec, htnsec, -⟩ := hcomputes
  simp only [resultRows, List.forall_mem_cons]
  exact ⟨⟨_, hdivs, helpDivs_row⟩, ⟨_, hdivu, helpDivu_row⟩, ⟨_, hrems, helpRems_row⟩, ⟨_, hremu, helpRemu_row⟩,
    ⟨_, hext, helpExt_row⟩, ⟨_, htadd, helpTadd_row⟩, ⟨_, htsec, helpTsec_row⟩, ⟨_, htnsec, helpTnsec_row⟩, List.forall_mem_nil _⟩

theorem helperResultsOfRegisterOperations : Claims.HelperResultsOfRegisterOperations := by
  unfold Claims.HelperResultsOfRegisterOperations
  intro row hrow y s h
  obtain ⟨hissues, hop, htable, hpacket, hspans⟩ := rows_of_resultRows row hrow
  obtain ⟨f, hcomputes, hfrow⟩ := helpsRow_of_resultRows row hrow
  have ho : (sylRaw y 2 row.2.1).o = row.2.1 := Nat.mod_eq_of_lt hop
  have hhelper : (sylRaw y 2 row.2.1).helper = row.2.1 / 16 := congrArg (· / 16) ho
  have hhop : (sylRaw y 2 row.2.1).hop = row.2.1 % 16 := congrArg (· % 16) ho
  refine givesSome_of_issuesH hissues h fun v hv houter g now hhanded hres => ?_
  obtain ⟨-, hmore, -⟩ := hv.hands houter (sylRaw y 2 row.2.1) g now
  obtain ⟨-, -, hunit, hgop, hfields, -, hacc, hxa, hxb, -⟩ := hhanded
  have hreads : readsNone v (tidOf y) (s.th (tidOf y)).regs (sylRaw y 2 row.2.1) := by
    refine ⟨?_, by simp [RawSyl.isH, hhelper, hpacket]⟩
    rw [hSpans, hhelper, hhop, if_neg fun hbad => htable hbad.1, hspans]
    rfl
  exact ⟨g, hmore, (hres (hhelper ▸ htable) hreads).trans
    ((hcomputes _ _ _ (hunit.trans hhelper) (hgop.trans hhop)).trans (congrArg some (hfrow _ _ _ ⟨hfields, hacc, hxa, hxb⟩)))⟩

/-- Settles O9: the syllable's effect is its operation handed over, whose result is known at once where it reads no near bytes. -/
theorem helperInstructionsHandOverAndReturn : Obligations.HelperInstructionsHandOverAndReturn :=
  ⟨helperInstructionsHandOverOperands, helperResultsOfRegisterOperations⟩

end Sys2Proof.Machine
end

section
/-! CUSTOM_A and CUSTOM_M: the micro-operations of their decode table entry, taking effect all at once (R144, R203 to R207). -/

namespace Sys2Proof.Machine

open Sys2Proof.Claims

/-! ### What an entry computes, on the state as issued -/

section
variable {s v : State} (houter : v.outer = s.outer)
include houter

theorem nearCheck_congr (tag a n : Nat) (write : Bool) : nearCheck v tag a n write = nearCheck s tag a n write := by
  have hcopy : ∀ w : State, nearCheck w tag a n write = nearCheck w.outer tag a n write := fun _ => rfl
  rw [hcopy, houter, ← hcopy]

theorem aperturePhys_congr (tag b o : Nat) : v.aperturePhys tag b o = s.aperturePhys tag b o := by
  have hcopy : ∀ w : State, w.aperturePhys tag b o = w.outer.aperturePhys tag b o := fun _ => rfl
  rw [hcopy, houter, ← hcopy]

theorem rowBad_congr (p : Nat) : v.rowBad p = s.rowBad p := by
  have hcopy : ∀ w : State, w.rowBad p = w.outer.rowBad p := fun _ => rfl
  rw [hcopy, houter, ← hcopy]

theorem copy_congr (tag : Nat) : v.copy tag = s.copy tag := by
  have hcopy : ∀ w : State, w.copy tag = w.outer.copy tag := fun _ => rfl
  rw [hcopy, houter, ← hcopy]

variable {t : Nat} (h : Issued s v t)
include h

theorem Issued.microRead_eq (tag : Nat) (r : Regs) (m : Micro) (a n : Nat) : microRead v t tag r m a n = microRead s t tag r m a n := by
  unfold microRead
  simp only [h.eventRead_eq houter, aperturePhys_congr houter, rowBad_congr houter, inReset_congr houter, State.outer_tables houter,
    h.nearByte_eq]

theorem Issued.microOp_eq (tag : Nat) (r : Regs) (hd fields : Nat) (m0 m : Micro) (u : Nat) :
    microOp v t tag r hd fields m0 m u = microOp s t tag r hd fields m0 m u := by
  unfold microOp
  simp only [nearCheck_congr houter, h.nearBad_eq, h.microRead_eq houter, State.outer_fresh houter]

theorem Issued.customRun_eq (r : Regs) (z : RawSyl) : customRun v t r z = customRun s t r z := by
  unfold customRun
  simp only [h.accord_eq, copy_congr houter, h.microOp_eq houter]

end

/-! ### The words an entry reads and stores (R205, R206) -/

/-- An aperture word that a custom instruction does not get: of an uncorrectable row, or of a group in reset. -/
def refusesWord (s : State) (tag a : Nat) : Bool :=
  s.inReset (apertureIsland a) || s.rowBad (s.aperturePhys tag (apertureBank a) (a % 0x200000))

/-- A free value is taken with a store, and a word not got poisons. -/
def soundMicro (s : State) (tag : Nat) (m : Micro) : Prop :=
  (m.free = true → m.stores ≠ []) ∧ ∀ e ∈ m.touched, inAperture e.1 = true → refusesWord s tag e.1 = true → m.poison = true

/-- An aperture address is of the bank and the offset of its word. -/
theorem aperture_of_region {a b o : Nat} (h : region a = .aperture b o) : b = apertureBank a ∧ o = a % 0x200000 := by
  unfold region at h
  split_ifs at h with _ _ _ _ haperture
  obtain ⟨hlow, hhigh, -⟩ := haperture
  obtain ⟨rfl, rfl⟩ := Region.aperture.inj h
  refine ⟨rfl, ?_⟩
  omega

/-- A load of an aperture word not got reads zero and poisons. -/
theorem poisons_of_refused {s : State} {t tag : Nat} {r : Regs} {m : Micro} {a n : Nat} (haperture : inAperture a = true)
    (hrefused : refusesWord s tag a = true) : (microRead s t tag r m a n).2 = true := by
  unfold inAperture at haperture
  split at haperture
  next b o hregion =>
    obtain ⟨rfl, rfl⟩ := aperture_of_region hregion
    unfold microRead
    rw [hregion]
    dsimp only
    rw [if_pos (by rwa [Bool.or_comm])]
  next => exact nomatch haperture

theorem soundMicro_microOp (s : State) (t tag : Nat) (r : Regs) (hd fields : Nat) (m0 : Micro) {m : Micro} (u : Nat) (h : soundMicro s tag m) :
    soundMicro s tag (microOp s t tag r hd fields m0 m u) := by
  obtain ⟨hfree, hread⟩ := h
  unfold microOp
  split
  case isTrue => exact ⟨hfree, hread⟩
  case isFalse =>
    dsimp only
    split
    · exact ⟨hfree, hread⟩
    · exact ⟨hfree, hread⟩
    next hcheck hbad =>
      split
      next hstore =>
        refine ⟨fun _ => by simp, List.forall_mem_cons.2 ⟨fun haperture _ => ?_, hread⟩⟩
        have hfaults : (decide (bits u 57 51 = 3) && inAperture (microAddr m0 hd fields u)) = true := by simp [hstore, haperture]
        exact nomatch (if_pos hfaults).symm.trans hcheck
      next hload =>
        refine ⟨hfree, List.forall_mem_cons.2 ⟨fun haperture hrefused => ?_, fun e he haperture hrefused => ?_⟩⟩
        · exact Bool.or_eq_true_iff.2 (.inr (poisons_of_refused haperture hrefused))
        · exact Bool.or_eq_true_iff.2 (.inl (hread e he haperture hrefused))

theorem soundMicro_customRun (s : State) (t : Nat) (r : Regs) (z : RawSyl) : soundMicro s (s.th t).accord (customRun s t r z) := by
  unfold customRun
  dsimp only
  refine List.foldlRecOn _ _ (motive := soundMicro s (s.th t).accord) ⟨(nomatch ·), fun _ he => nomatch he⟩ fun m hm st _ => ?_
  split
  · exact hm
  · exact List.foldlRecOn _ _ hm fun k hk u _ => soundMicro_microOp s t _ r _ _ m u hk

/-! ### What an entry leaves (R119, R206, R207) -/

/-- The registers an entry leaves: its values, and the frame with its stores made in order. -/
def Micro.regs (m : Micro) (q : Regs) : Regs :=
  { q with acc := m.reg 0, xa := (m.reg 1).setWidth 32, xb := (m.reg 2).setWidth 32, fl := m.fl,
           frame := m.stores.foldl (fun f e => mwrite f e.1 e.2) q.frame }

/-- The state after an entry's registers and stores. -/
def State.customStored (v : State) (t : Nat) (m : Micro) : State :=
  m.stores.foldl (fun w e => w.nearStore t e.1 e.2)
    (setRegs v t (fun q => { q with acc := m.reg 0, xa := (m.reg 1).setWidth 32, xb := (m.reg 2).setWidth 32, fl := m.fl }))

/-- A custom syllable writes its registers and its stores, reads its aperture words and sends its token. -/
theorem execCustom_eq (v : State) (t : Nat) (r : Regs) (z : RawSyl) :
    let m := customRun v t r z
    let w := (apertureReads v t r z).foldl (fun w a => w.customRead t a) (v.customStored t m)
    let w := if m.free then { w with fresh := w.fresh + 1 } else w
    execCustom v t r z = (if m.poison then w.poisonOr t else w).count (src (t / 128) (coreOf t)) 0x16 := rfl

/-! #### Its stores -/

/-- Stores to the frame, made in order, are the thread's own. -/
theorem foldl_nearStore_frame (t : Nat) (l : List (Nat × List Byte)) (hframe : ∀ e ∈ l, ∃ o, region e.1 = .frame o) (w : State) :
    let u := l.foldl (fun w e => w.nearStore t e.1 e.2) w
    (∀ k, u.th k = if k = t then
        { w.th t with regs := { (w.th t).regs with frame := l.foldl (fun f e => mwrite f e.1 e.2) (w.th t).regs.frame } } else w.th k)
      ∧ (∀ c, (u.cl c).unmarked = (w.cl c).unmarked) ∧ u.outer = w.outer := by
  induction l generalizing w with
  | nil => exact ⟨fun k => by split <;> simp [*], fun _ => rfl, rfl⟩
  | cons e l ih =>
    obtain ⟨⟨o, hregion⟩, hrest⟩ := List.forall_mem_cons.1 hframe
    obtain ⟨hlow, rfl⟩ := frame_of_region hregion
    obtain ⟨hth, hcl, houter⟩ := ih hrest (w.nearWrite t e.1 e.2)
    dsimp only [List.foldl_cons]
    rw [nearStore_of_frame _ hregion]
    refine ⟨fun k => ?_, fun c => (hcl c).trans (w.unmarked_nearWrite_frame t c _ hlow), houter.trans (w.outer_nearWrite t _ _)⟩
    rw [hth k, State.th_nearWrite_frame _ _ _ _ hlow, State.th_nearWrite_frame _ _ _ _ hlow, if_pos rfl]
    split <;> rfl

section
variable (v : State) (t : Nat) {m : Micro}

/-- With no store but to the frame, the thread's registers are those the entry leaves, and of the rest no more than marks change. -/
theorem customStored_of_frame (hframe : ∀ e ∈ m.stores, ∃ o, region e.1 = .frame o) :
    (∀ k, (v.customStored t m).th k = if k = t then { v.th t with regs := m.regs (v.th t).regs } else v.th k)
      ∧ (∀ c, ((v.customStored t m).cl c).unmarked = (v.cl c).unmarked) ∧ (v.customStored t m).outer = v.outer := by
  obtain ⟨hth, hcl, houter⟩ := foldl_nearStore_frame t m.stores hframe
    (setRegs v t (fun q => { q with acc := m.reg 0, xa := (m.reg 1).setWidth 32, xb := (m.reg 2).setWidth 32, fl := m.fl }))
  refine ⟨fun k => (hth k).trans ?_, fun c => (hcl c).trans (Cluster.unmarked_of_still (v.still_setRegs t c _)), houter⟩
  rw [State.th_setRegs, State.th_setRegs, if_pos rfl]
  split <;> rfl

theorem still_customStored (hnone : m.stores = []) (c : Nat) : ((v.customStored t m).cl c).still = (v.cl c).still := by
  unfold State.customStored
  rw [hnone]
  exact v.still_setRegs t c _

end

/-! #### Its reads -/

section
variable (t : Nat)

/-- Reading an aperture word changes no cluster and sends nothing. -/
theorem kept_customRead (w : State) (a : Nat) : (w.customRead t a).clusters = w.clusters ∧ (w.customRead t a).net = w.net := by
  unfold State.customRead
  dsimp only
  split
  · exact ⟨State.raise_clusters _ _ _ _, State.raise_net _ _ _ _⟩
  · split
    · exact ⟨State.raise_clusters _ _ _ _, State.raise_net _ _ _ _⟩
    · exact ⟨rfl, rfl⟩

theorem kept_customReads (l : List Nat) (w : State) :
    (l.foldl (fun w a => w.customRead t a) w).clusters = w.clusters ∧ (l.foldl (fun w a => w.customRead t a) w).net = w.net := by
  induction l generalizing w with
  | nil => exact ⟨rfl, rfl⟩
  | cons a l ih =>
    obtain ⟨hclusters, hnet⟩ := kept_customRead t w a
    exact ⟨(ih _).1.trans hclusters, (ih _).2.trans hnet⟩

/-- Words that are got are counted alone. -/
theorem outer_customReads (l : List Nat) (w : State) (hgot : ∀ a ∈ l, refusesWord w (w.th t).accord a = false) :
    (l.foldl (fun w a => w.customRead t a) w).outer = w.outer := by
  induction l generalizing w with
  | nil => rfl
  | cons a l ih =>
    obtain ⟨hfirst, hrest⟩ := List.forall_mem_cons.1 hgot
    obtain ⟨hup, hrow⟩ := Bool.or_eq_false_iff.1 hfirst
    have hcount : ∃ n, w.customRead t a = w.count n 0x10 :=
      ⟨_, (if_neg (Bool.eq_false_iff.1 hup)).trans (if_neg (Bool.eq_false_iff.1 hrow))⟩
    obtain ⟨n, hcount⟩ := hcount
    rw [List.foldl_cons, hcount]
    exact ih (w.count n 0x10) hrest

end

/-- An entry that poisons nothing has got every aperture word it reads. -/
theorem got_of_clean {s : State} {t : Nat} {r : Regs} {z : RawSyl} (hclean : (customRun s t r z).poison = false) :
    ∀ a ∈ apertureReads s t r z, refusesWord s (s.th t).accord a = false := by
  intro a ha
  unfold apertureReads at ha
  split at ha
  next =>
    simp only [List.mem_filter, List.mem_map] at ha
    obtain ⟨⟨e, he, rfl⟩, haperture⟩ := ha
    refine Bool.eq_false_iff.2 fun hrefused => ?_
    have hpoison := (soundMicro_customRun s t r z).2 e he haperture hrefused
    exact absurd (hclean.symm.trans hpoison) Bool.false_ne_true
  next => exact absurd ha List.not_mem_nil

/-- Whether a word is got is no matter of the clusters. -/
theorem refusesWord_congr {s v : State} (houter : v.outer = s.outer) (tag a : Nat) : refusesWord v tag a = refusesWord s tag a := by
  unfold refusesWord
  rw [inReset_congr houter, aperturePhys_congr houter, rowBad_congr houter]

/-! #### The syllable as a whole -/

theorem th_of_clusters {u w : State} (h : u.clusters = w.clusters) (k : Nat) : u.th k = w.th k := by
  unfold State.th State.cl
  rw [h]

theorem cl_of_clusters {u w : State} (h : u.clusters = w.clusters) (c : Nat) : u.cl c = w.cl c := by
  unfold State.cl
  rw [h]

section
variable {v : State} {t : Nat} {r : Regs} {z : RawSyl}

/-- An entry that poisons nothing and stores to the frame alone: its registers and stores, and at most free values taken. -/
theorem execCustom_of_clean (hclean : (customRun v t r z).poison = false)
    (hframe : ∀ e ∈ (customRun v t r z).stores, ∃ o, region e.1 = .frame o) :
    (execCustom v t r z).clusters = (v.customStored t (customRun v t r z)).clusters
      ∧ ∃ n, (execCustom v t r z).outer = { v.outer with fresh := n } ∧ ((customRun v t r z).stores = [] → n = v.fresh) := by
  obtain ⟨hth, -, houter⟩ := customStored_of_frame v t hframe
  have haccord : ((v.customStored t (customRun v t r z)).th t).accord = (v.th t).accord := by rw [hth t, if_pos rfl]
  obtain ⟨hclusters, -⟩ := kept_customReads t (apertureReads v t r z) (v.customStored t (customRun v t r z))
  have hreads := (outer_customReads t (apertureReads v t r z) (v.customStored t (customRun v t r z)) fun a ha => by
    rw [refusesWord_congr houter, haccord]
    exact got_of_clean hclean a ha).trans houter
  rw [execCustom_eq]
  dsimp only
  rw [hclean, if_neg Bool.false_ne_true]
  generalize (apertureReads v t r z).foldl _ _ = w at hclusters hreads ⊢
  cases hfree : (customRun v t r z).free with
  | false => exact ⟨hclusters, v.fresh, hreads, fun _ => rfl⟩
  | true => exact ⟨hclusters, w.fresh + 1, congrArg (fun o : State => { o with fresh := w.fresh + 1 }) hreads,
      fun hnone => absurd hnone ((soundMicro_customRun v t r z).1 hfree)⟩

/-- An entry that poisons and stores nothing: its registers, and one POISON token where no branch is unresolved. -/
theorem execCustom_of_poisoned (hpoison : (customRun v t r z).poison = true) (hnone : (customRun v t r z).stores = [])
    (hplain : (v.th t).branches = []) :
    (execCustom v t r z).clusters = (v.customStored t (customRun v t r z)).clusters
      ∧ (execCustom v t r z).net = v.net ++ [⟨t / 128, 26, .poison t (v.th t).record (v.th t).gen⟩] := by
  obtain ⟨hth, -, houter⟩ := customStored_of_frame v t (m := customRun v t r z) (by rw [hnone]; exact List.forall_mem_nil _)
  obtain ⟨hclusters, hnet⟩ := kept_customReads t (apertureReads v t r z) (v.customStored t (customRun v t r z))
  have hfree : (customRun v t r z).free = false := Bool.eq_false_iff.2 fun hfree => (soundMicro_customRun v t r z).1 hfree hnone
  rw [execCustom_eq, hpoison, hfree, if_neg Bool.false_ne_true, if_pos rfl]
  generalize (apertureReads v t r z).foldl _ _ = w at hclusters hnet ⊢
  have hown : w.th t = { v.th t with regs := (customRun v t r z).regs (v.th t).regs } :=
    (th_of_clusters hclusters t).trans ((hth t).trans (if_pos rfl))
  have hsends : w.poisonOr t = w.sendPoison t := by
    unfold State.poisonOr
    rw [hown]
    dsimp only
    rw [hplain]
    rfl
  rw [hsends]
  refine ⟨hclusters, ?_⟩
  have htoken : (w.sendPoison t).net = w.net ++ [⟨t / 128, 26, .poison t (w.th t).record (w.th t).gen⟩] := rfl
  rw [hown, hnet, State.outer_net houter] at htoken
  exact htoken

end

/-! ### A bundle of one custom syllable -/

theorem net_pastBundle (s : State) (t : Nat) (w : State) : (pastBundle s t w).net = w.net := rfl

section
variable {s v : State} {t : Nat} {r : Regs} {z : RawSyl} (h : Issued s v t)
include h

/-- The thread is past an entry that stores to the frame alone, with the registers the entry leaves. -/
theorem Issued.past_execCustom (hclusters : (execCustom v t r z).clusters = (v.customStored t (customRun v t r z)).clusters)
    (hframe : ∀ e ∈ (customRun v t r z).stores, ∃ o, region e.1 = .frame o) :
    past s (pastBundle s t (execCustom v t r z)) t { s.th t with regs := (customRun v t r z).regs (s.th t).regs } := by
  obtain ⟨hth, -⟩ := customStored_of_frame v t hframe
  exact h.past_of_th (fun x => { x with regs := (customRun v t r z).regs x.regs }) (fun k => (th_of_clusters hclusters k).trans (hth k))
    fun bs => ⟨bs, rfl⟩

/-- An entry that stores nothing changes no more of a cluster than its thread. -/
theorem Issued.clustersSame_execCustom (hclusters : (execCustom v t r z).clusters = (v.customStored t (customRun v t r z)).clusters)
    (hnone : (customRun v t r z).stores = []) : clustersSame s (pastBundle s t (execCustom v t r z)) := by
  refine clustersSame_of_effect (fun c => ?_) _
  rw [cl_of_clusters hclusters, still_customStored v t hnone, h.still]

variable {m : Micro} (houter : v.outer = s.outer) (hrun : customRun v t r z = m)
include houter hrun

/-- An entry that stores nothing and poisons nothing runs on the thread's registers alone. -/
theorem Issued.customComputes (hclean : m.poison = false) (hnone : m.stores = []) :
    ran s (pastBundle s t (execCustom v t r z)) t (m.regs (s.th t).regs) := by
  subst hrun
  have hframe : ∀ e ∈ (customRun v t r z).stores, ∃ o, region e.1 = .frame o := by
    rw [hnone]
    exact List.forall_mem_nil _
  obtain ⟨hclusters, n, hrest, hfresh⟩ := execCustom_of_clean hclean hframe
  rw [hfresh hnone] at hrest
  exact ⟨h.past_execCustom hclusters hframe, h.clustersSame_execCustom hclusters hnone, eq_of_effect (hrest.trans houter) _⟩

/-- An entry that stores to the frame changes no more of the cluster than its marks, and takes at most free values. -/
theorem Issued.customStores (hclean : m.poison = false) (hframe : ∀ e ∈ m.stores, ∃ o, region e.1 = .frame o) :
    let u := pastBundle s t (execCustom v t r z)
    past s u t { s.th t with regs := m.regs (s.th t).regs } ∧ clustersSameButMarks s u ∧ outsideSame { s with fresh := u.fresh } u := by
  subst hrun
  obtain ⟨hclusters, n, hrest, -⟩ := execCustom_of_clean hclean hframe
  obtain ⟨-, hmarks, -⟩ := customStored_of_frame v t hframe
  rw [houter] at hrest
  generalize hw : execCustom v t r z = w at hclusters hrest
  have hpast := h.past_execCustom (hw ▸ hclusters) hframe
  rw [hw] at hpast
  refine ⟨hpast, clustersSameButMarks_of_unmarked fun c => ?_, ?_⟩
  · rw [Cluster.unmarked_of_still (still_pastBundle s t w c), cl_of_clusters hclusters, hmarks, Cluster.unmarked_of_still (h.still c)]
  · have hfresh : (pastBundle s t w).fresh = n := congrArg State.fresh hrest
    rw [hfresh]
    exact eq_of_effect (v := { s with fresh := n }) hrest _

/-- An entry that stores nothing and poisons sends one token, where no branch is unresolved. -/
theorem Issued.customPoisons (hpoison : m.poison = true) (hnone : m.stores = []) (hplain : (s.th t).branches = []) :
    let u := pastBundle s t (execCustom v t r z)
    past s u t { s.th t with regs := m.regs (s.th t).regs } ∧ clustersSame s u
      ∧ u.net = s.net ++ [⟨t / 128, 26, .poison t (s.th t).record (s.th t).gen⟩] := by
  subst hrun
  have hframe : ∀ e ∈ (customRun v t r z).stores, ∃ o, region e.1 = .frame o := by
    rw [hnone]
    exact List.forall_mem_nil _
  obtain ⟨hclusters, hnet⟩ := execCustom_of_poisoned hpoison hnone (h.plain hplain)
  obtain ⟨bs, hth⟩ := h.th_eq
  rw [hth, State.outer_net houter] at hnet
  have hsent : (pastBundle s t (execCustom v t r z)).net = (execCustom v t r z).net := net_pastBundle s t _
  exact ⟨h.past_execCustom hclusters hframe, h.clustersSame_execCustom hclusters hnone, hsent.trans hnet⟩

end

/-! ### The two constructors -/

/-- A custom instruction leaves what its entry leaves. -/
theorem givesSome_of_custom {row : (Syl → BitVec 4 → Instr) × Nat}
    (hrow : row ∈ ([(.customA, 0), (.customM, 1)] : List ((Syl → BitVec 4 → Instr) × Nat))) {y : Syl} {n : BitVec 4} {s : State}
    {p : State → Prop} (h : Executes s y row.2 (0x70 + n.toNat))
    (heffect : ∀ v, Issued s v (tidOf y) → v.outer = s.outer →
      customRun v (tidOf y) (s.th (tidOf y)).regs (sylRaw y row.2 (0x70 + n.toNat)) =
        customRun s (tidOf y) (s.th (tidOf y)).regs (sylRaw y row.2 (0x70 + n.toNat)) →
      p (pastBundle s (tidOf y) (execCustom v (tidOf y) (s.th (tidOf y)).regs (sylRaw y row.2 (0x70 + n.toNat))))) :
    givesSome (row.1 y n) s p := by
  have hexec : exec (row.1 y n) s = answer (s.syllable y row.2 (0x70 + n.toNat)) ∧ row.2 < 2 := by
    simp only [List.mem_cons, List.not_mem_nil, or_false] at hrow
    obtain rfl | rfl := hrow
    · exact ⟨rfl, by decide⟩
    · exact ⟨rfl, by decide⟩
  have hcls : (sylRaw y row.2 (0x70 + n.toNat)).cls.toNat = row.2 := Nat.mod_eq_of_lt (by omega)
  have hn := n.isLt
  have ho : (sylRaw y row.2 (0x70 + n.toNat)).o = 0x70 + n.toNat := Nat.mod_eq_of_lt (by omega)
  have hcustom : (sylRaw y row.2 (0x70 + n.toNat)).custom = true := by simp [RawSyl.custom, hcls, ho, hexec.2]
  refine givesSome_of_effect (fun hbranch => ?_) h hexec.1 fun v hv houter => ?_
  · have hbelow : (3 : BitVec 2).toNat < 2 := hbranch ▸ hcls.trans_lt hexec.2
    exact absurd hbelow (by decide)
  · have hsyl : execSyl (tidOf y) (s.th (tidOf y)).regs (addrAfter (s.th (tidOf y)).pc 1) v (sylRaw y row.2 (0x70 + n.toNat)) =
        execCustom v (tidOf y) (s.th (tidOf y)).regs (sylRaw y row.2 (0x70 + n.toNat)) := if_pos hcustom
    rw [hsyl]
    exact heffect v hv houter (hv.customRun_eq houter _ _)

/-- Settles O8: an entry's stores are the thread's own, its reads of words it gets are counted alone, and a word not got poisons. -/
theorem customInstructionsRunTheirEntry : Obligations.CustomInstructionsRunTheirEntry := by
  unfold Obligations.CustomInstructionsRunTheirEntry
  intro row hrow y n s h t r m q
  have hregs : m.stores = [] → m.regs r = q := fun hnone => by
    unfold Micro.regs
    rw [hnone]
    rfl
  refine ⟨fun hclean hnone => givesSome_of_custom hrow h fun v hv houter hrun => ?_,
    fun hclean hframe => givesSome_of_custom hrow h fun v hv houter hrun => hv.customStores houter hrun hclean hframe,
    fun hpoison hnone hplain => givesSome_of_custom hrow h fun v hv houter hrun => ?_⟩
  · rw [← hregs hnone]
    exact hv.customComputes houter hrun hclean hnone
  · rw [← hregs hnone]
    exact hv.customPoisons houter hrun hpoison hnone hplain

end Sys2Proof.Machine
end

section
/-! A far load of a thread that the device has not: its refusal is reported in the outbox of I0 (R20, R343, R366, R463). -/

namespace Sys2Proof.Machine

open Sys2Proof.Claims

/-- The far load of thread 8192, a thread of cluster 64, which no device has. -/
def loadAway : MemReq := { id := 0, thread := 8192, tag := 0, kind := .load, addr := 0, size := 0 }

/-- The load has come from island 0 to channel 0, which is absent. -/
def askedAway : State :=
  { State.reset with
    power := { State.reset.power with island := [(43, { islandReset 43 with st := .run })] }
    net := [⟨0, 43, .mem loadAway⟩] }

/-- Its refusal is reported as of cluster 64: SOURCE, of twelve bits, then names island 0. -/
theorem outbox_askedAway : (outboxOf (askedAway.farArrive 0 0).watch 0).msgs.length = 1
    ∧ (outboxOf (askedAway.farArrive 0 0).watch 64).msgs = [] := by decide +kernel

/-- Refutes O28: the clause of an access to a channel that is gone asks, of every request, that the refusal stands in the outbox of the
thread's own cluster. In `askedAway` the request names cluster 64, whose source does not fit SOURCE, and the report stands in the
outbox of island 0: no hypothesis of the clause keeps the request's thread among the device's own. -/
theorem not_accessesActAtTheirSlice : ¬ Obligations.AccessesActAtTheirSlice := by
  unfold Obligations.AccessesActAtTheirSlice Claims.FarAccessesTakeTheirPlace
  rintro ⟨-, h⟩
  obtain ⟨-, -, hgone, -⟩ := h askedAway 0 0 loadAway (by decide) (by decide) (by decide +kernel) (by decide +kernel) rfl (by decide +kernel)
  obtain ⟨u, hgives, -, hreported, -⟩ := hgone (by decide +kernel) (.inl rfl)
  have hexec : exec (.farAccess 0 0) askedAway = .next (askedAway.farArrive 0 0).watch := congrArg answer (if_pos (by decide))
  obtain rfl : (askedAway.farArrive 0 0).watch = u := Host.Outcome.next.inj (hexec.symm.trans hgives)
  have hbox : outboxOf (askedAway.farArrive 0 0).watch 64 = _ := hreported.trans (if_pos (by decide))
  have hmsgs := congrArg Outbox.msgs hbox
  obtain ⟨-, hempty⟩ := outbox_askedAway
  rw [hempty] at hmsgs
  exact absurd hmsgs (by simp)

end Sys2Proof.Machine
end

section
/-! Results and waits: loads, counted writes and helper operations that land, and waits that end with their event (R120, R122, R124, R127,
R185, R213, R216, R255, R256). -/

namespace Sys2Proof.Machine

open Sys2Proof.Claims

/-! ### A thread alone changed -/

/-- The end of a step that has changed one thread, and sent what it sends. -/
theorem onlyThread_watch {s w : State} {t : Nat} {x : Thread} {net : List Crossing} (hown : w.th t = x) (hothers : othersSame s w t)
    (hstill : ∀ c, (w.cl c).still = (s.cl c).still) (hrest : w.outer = { s.outer with net := net }) : onlyThread s w.watch t x net :=
  ⟨hown, hothers, clustersSame_of_still hstill, State.eq_of_outer (s := { s with net := net }) hrest⟩

/-- A thread's change is as the thread stands. -/
theorem State.modTh_of_eq {s : State} {t : Nat} {f : Thread → Thread} {x : Thread} (h : f (s.th t) = x) :
    s.modTh t f = s.modTh t (fun _ => x) := by
  subst h
  rfl

theorem othersSame_modTh (s : State) (t : Nat) (f : Thread → Thread) : othersSame s (s.modTh t f) t :=
  fun k hk => (s.th_modTh t k f).trans (if_neg hk)

/-- Under no unresolved branch a result lands in the registers alone. -/
theorem Thread.land_of_plain {x : Thread} (h : x.branches = []) (id : Nat) (f : Regs → Regs) : x.land id f = { x with regs := f x.regs } := by
  have hsame : (landIn id f x.branches).1 = x.branches := by rw [h]; rfl
  rw [Thread.land, hsame]

theorem Thread.latched_eq (x : Thread) (bit : Nat) :
    x.latched bit = { x with edges := if x.busy = true then x.edges ||| 1 <<< bit else x.edges } := by
  unfold Thread.latched
  split <;> rfl

theorem heldBack_of_plain {x : Thread} (h : x.branches = []) (l : Load) : x.heldBack l = false := by
  simp [Thread.heldBack, h]

/-! ### Loads (R185) -/

theorem setReg_of_code (r : Regs) (reg : BitVec 2) (v : W64) :
    setReg r reg.toNat v =
      if reg = 0 then { r with acc := v } else if reg = 1 then { r with xa := v.setWidth 32 } else { r with xb := v.setWidth 32 } := by
  have hcode : reg = 0 ∨ reg = 1 ∨ reg = 2 ∨ reg = 3 := by bv_omega
  obtain rfl | rfl | rfl | rfl := hcode <;> rfl

/-- The registers with a load's value in, unless it writes FL alone, and FL where it writes it. -/
def Load.into (l : Load) (v : W64) (fl : Option Fl) (r : Regs) : Regs :=
  let r := if l.flOnly then r else setReg r l.reg.toNat v
  match fl with
  | some f => { r with fl := f }
  | none => r

theorem into_eq (l : Load) (v : W64) (fl : Option Fl) (r : Regs) :
    l.into v fl r = if l.flOnly then { r with fl := fl.getD r.fl } else landed r l.reg v fl := by
  have hset := setReg_of_code r l.reg v
  unfold Load.into landed
  cases l.flOnly <;> cases fl <;> simp [hset]

/-- The thread with its load landed. -/
def Thread.loaded (x : Thread) (l : Load) (v : W64) (fl : Option Fl) : Thread :=
  { x with loads := x.loads.filter (fun k => k.id != l.id), regs := l.into v fl x.regs }

section
variable {s : State} {t : Nat} {reg : BitVec 2} {l : Load} {v : W64} {fl : Option Fl}

theorem reg_of_landing (h : s.landing t reg = some l) : l.reg = reg := by
  have hfound := List.find?_some h
  simp only [Bool.and_eq_true, beq_iff_eq] at hfound
  exact hfound.1.1

/-- Under no unresolved branch the oldest answer of a sound word lands, with a POISON token where its word was uncorrectable. -/
theorem loadLand_of_plain (hplain : (s.th t).branches = []) (hlanding : s.landing t reg = some l) (hvalue : l.value = some (v, fl))
    (hecc : l.ecc = none) :
    s.loadLand t reg =
      (let w := s.modTh t (fun _ => (s.th t).loaded l v fl)
       if l.poison then w.sendPoison t else w) := by
  have hlands : s.modTh t (fun x => Thread.land { x with loads := x.loads.filter (fun k => k.id != l.id) } l.id (l.into v fl)) =
      s.modTh t (fun _ => (s.th t).loaded l v fl) :=
    State.modTh_of_eq (Thread.land_of_plain (x := { s.th t with loads := (s.th t).loads.filter (fun k => k.id != l.id) }) hplain l.id _)
  unfold State.loadLand
  rw [hlanding, ← hlands]
  dsimp only
  rw [heldBack_of_plain hplain, hecc, hvalue]
  rfl

theorem givesSome_loadLand {id : ThreadId} (hlives : lives s id) (hplain : (s.th (threadNo id)).branches = [])
    (hlanding : s.landing (threadNo id) reg = some l) (hvalue : l.value = some (v, fl)) (hecc : l.ecc = none) :
    givesSome (.loadLand id reg) s (fun u => onlyThread s u (threadNo id) ((s.th (threadNo id)).loaded l v fl)
      (s.net ++ if l.poison then
        [⟨threadNo id / 128, 26, .poison (threadNo id) (s.th (threadNo id)).record (s.th (threadNo id)).gen⟩] else [])) := by
  refine ⟨_, answer_of_lives hlives _, ?_⟩
  generalize threadNo id = t at *
  rw [loadLand_of_plain hplain hlanding hvalue hecc]
  dsimp only
  have hown := s.th_modTh_same t (fun _ => (s.th t).loaded l v fl)
  split
  next =>
    refine onlyThread_watch hown (othersSame_modTh s t _) (fun c => s.still_modTh t c _) ?_
    rw [State.sendPoison, State.outer_send, hown]
    rfl
  next =>
    rw [List.append_nil]
    exact onlyThread_watch hown (othersSame_modTh s t _) (fun c => s.still_modTh t c _) rfl

end

/-! ### Counted writes (R255, R256) -/

section
variable {s : State} {t : Nat} {e : StoreOut}

/-- A thread without a write still counted latches STORE_DONE. -/
theorem storeCompletion_of_completed (h : s.completed t = some e) :
    let left := (s.th t).stores.filter (fun k => k.id != e.id)
    s.storeCompletion t =
      (let w := s.modTh t (fun x => { x with stores := x.stores.filter (fun k => k.id != e.id) })
       if left = [] then w.edge t 5 else w) := by
  have hown := s.th_modTh_same t (fun x => { x with stores := x.stores.filter (fun k => k.id != e.id) })
  unfold State.storeCompletion
  rw [h]
  dsimp only
  rw [hown]
  simp only [List.isEmpty_iff]

theorem givesSome_storeCompletion {id : ThreadId} (hlives : lives s id) (h : s.completed (threadNo id) = some e) :
    let x := s.th (threadNo id)
    let left := x.stores.filter (fun k => k.id != e.id)
    givesSome (.storeCompletion id) s (fun u => onlyThread s u (threadNo id)
      { x with stores := left, edges := if left = [] ∧ x.busy = true then x.edges ||| 0x20 else x.edges } s.net) := by
  dsimp only
  refine ⟨_, answer_of_lives hlives _, ?_⟩
  generalize threadNo id = t at *
  rw [storeCompletion_of_completed h]
  dsimp only
  have hown := s.th_modTh_same t (fun x => { x with stores := x.stores.filter (fun k => k.id != e.id) })
  have hothers := othersSame_modTh s t (fun x => { x with stores := x.stores.filter (fun k => k.id != e.id) })
  split
  next hnone =>
    refine onlyThread_watch ?_ (fun k hk => ?_) (fun c => ?_) (State.outer_edge _ _ _)
    · rw [State.th_edge, if_pos rfl, hown, Thread.latched_eq]
      simp only [hnone, true_and]
      rfl
    · rw [State.th_edge, if_neg hk, hothers k hk]
    · rw [State.still_edge, State.still_modTh]
  next hsome =>
    refine onlyThread_watch ?_ hothers (fun c => s.still_modTh t c _) rfl
    simp only [hsome, false_and, if_false]
    exact hown

end

/-! ### Helper operations (R213, R216) -/

/-- The operation has left its helper. -/
def State.hopGone (s : State) (c id : Nat) : State := s.modCl c (fun k => { k with hops := k.hops.filter (fun g => g.id != id) })

theorem State.th_hopGone (s : State) (c id k : Nat) : (s.hopGone c id).th k = s.th k := s.th_modCl c k _ rfl

theorem State.hops_hopGone (s : State) (c id : Nat) : ((s.hopGone c id).cl c).hops = (s.cl c).hops.filter (fun g => g.id != id) := by
  rw [State.hopGone, State.cl_modCl_same]

/-- The thread with its helper's result in ACC and FL, and no longer waiting for it. -/
def Thread.helped (x : Thread) (id : Nat) (r : HelperRes) : Thread :=
  { x with regs := { x.regs with acc := r.acc, fl := r.fl }, helper := if x.helper = some id then none else x.helper }

section
variable {s : State} {t : Nat} {h : HelperOp} {r : HelperRes}

theorem helperResult_of_cancelled (hdone : s.helperDone t = some h) (hcancelled : h.cancelled = true) :
    s.helperResult t false = (s.hopGone (t / 128) h.id).count (src (t / 128) (8 + h.unit.toNat)) 0x11 := by
  unfold State.helperResult
  rw [hdone]
  dsimp only
  rw [if_pos hcancelled]
  rfl

/-- Under no unresolved branch a result without bytes lands in ACC and FL, with HELPER_DONE. -/
theorem helperResult_of_done (hplain : (s.th t).branches = []) (hdone : s.helperDone t = some h) (hres : h.res = some r)
    (hbytes : r.bytes = []) (hpoison : r.poison = false) (hstands : h.cancelled = false) :
    let w := ((s.hopGone (t / 128) h.id).modTh t (fun _ => (s.th t).helped h.id r)).edge t 2
    ∃ counters, s.helperResult t false = { w with obs := counters } := by
  have hlands : (s.hopGone (t / 128) h.id).modTh t (fun x =>
      { (x.land h.id (fun q => { q with acc := r.acc, fl := r.fl })) with helper := if x.helper = some h.id then none else x.helper }) =
      (s.hopGone (t / 128) h.id).modTh t (fun _ => (s.th t).helped h.id r) := by
    refine State.modTh_of_eq ?_
    rw [State.th_hopGone, Thread.land_of_plain hplain]
    rfl
  dsimp only
  rw [← hlands]
  unfold State.helperResult
  rw [hdone]
  dsimp only
  rw [hres, Option.getD_some, hstands, hbytes, hpoison, if_neg Bool.false_ne_true, if_neg (by simp), if_neg Bool.false_ne_true,
    if_neg Bool.false_ne_true]
  split
  · exact ⟨_, rfl⟩
  · exact ⟨_, rfl⟩

theorem givesSome_helperResult {id : ThreadId} (hlives : lives s id) (hplain : (s.th (threadNo id)).branches = [])
    (hdone : s.helperDone (threadNo id) = some h) (hres : h.res = some r) (hbytes : r.bytes = []) (hpoison : r.poison = false) :
    let t := threadNo id
    let x := s.th t
    givesSome (.helperResult id false) s (fun u =>
      (u.cl (t / 128)).hops = (s.cl (t / 128)).hops.filter (fun g => g.id != h.id) ∧ othersSame s u t
        ∧ u = { s with clusters := u.clusters, obs := u.obs }
        ∧ u.th t = if h.cancelled then x else
            { x with regs := { x.regs with acc := r.acc, fl := r.fl }, helper := if x.helper = some h.id then none else x.helper
                     edges := if x.busy then x.edges ||| 4 else x.edges }) := by
  dsimp only
  refine ⟨_, answer_of_lives hlives _, ?_⟩
  generalize threadNo id = t at *
  cases hcancelled : h.cancelled with
  | true =>
    rw [helperResult_of_cancelled hdone hcancelled]
    exact ⟨s.hops_hopGone _ _, fun k _ => s.th_hopGone _ _ k, State.eq_of_outer rfl, s.th_hopGone _ _ t⟩
  | false =>
    obtain ⟨counters, hrun⟩ := helperResult_of_done hplain hdone hres hbytes hpoison hcancelled
    rw [hrun]
    generalize hw : ((s.hopGone (t / 128) h.id).modTh t (fun _ => (s.th t).helped h.id r)).edge t 2 = w
    have hth : ∀ k, w.th k = if k = t then ((s.th t).helped h.id r).latched 2 else s.th k := fun k => by
      rw [← hw, State.th_edge, State.th_modTh_same, State.th_modTh, State.th_hopGone]
      split <;> rfl
    have hhops : (w.cl (t / 128)).hops = (s.cl (t / 128)).hops.filter (fun g => g.id != h.id) := by
      rw [← hw, Cluster.still_hops (State.still_edge _ _ _ _), Cluster.still_hops (State.still_modTh _ _ _ _), State.hops_hopGone]
    have hrest : w.outer = s.outer := by rw [← hw, State.outer_edge]; rfl
    have hown : ((s.th t).helped h.id r).latched 2 = { s.th t with
        regs := { (s.th t).regs with acc := r.acc, fl := r.fl }, helper := if (s.th t).helper = some h.id then none else (s.th t).helper
        edges := if (s.th t).busy then (s.th t).edges ||| 4 else (s.th t).edges } := Thread.latched_eq _ _
    exact ⟨hhops, fun k hk => (hth k).trans (if_neg hk), State.eq_of_outer hrest, ((hth t).trans (if_pos rfl)).trans hown⟩

end

theorem resultsLandInTheirRegisters : Claims.ResultsLandInTheirRegisters := by
  unfold Claims.ResultsLandInTheirRegisters
  refine ⟨fun s id reg l v fl hlives => ?_, fun s id e hlives => givesSome_storeCompletion hlives,
    fun s id h r hlives => givesSome_helperResult hlives⟩
  intro t x hplain hlanding hvalue hecc
  have hgives := givesSome_loadLand hlives hplain hlanding hvalue hecc
  rw [Thread.loaded, into_eq, reg_of_landing hlanding] at hgives
  exact hgives

/-! ### A wait that ends (R120, R127) -/

/-- The end of a bundle that has waited: PC goes past it, and the core's issue pointer stands as before. -/
def State.wakes (s : State) (t : Nat) (w : State) : State :=
  ((w.modTh t (fun x => { x with pc := addrAfter (s.th t).pc 1 })).modCl (t / 128)
    (fun c => { c with rrIssue := (s.cl (t / 128)).rrIssue })).watch

section
variable {s w : State} {t : Nat}

/-- A thread that wakes carries out the one syllable it stands in, if that is no branch. -/
theorem wake_single {z : RawSyl} (hsyl : (s.th t).waitSyls = [z]) (hsingle : (z.cls == 3 && 1 ≤ z.o && z.o ≤ 6) = false) :
    (s.wake t).watch =
      s.wakes t (execSyl t (s.th t).regs (addrAfter (s.th t).pc 1) ((s.leaveWait t).runReady t (slotsOf [z])) z) := by
  unfold State.wake
  rw [hsyl, State.runBundle_single _ _ _ hsingle, State.th_leaveWait]
  rfl

theorem th_wakes (s w : State) (t k : Nat) :
    (s.wakes t w).th k = if k = t then { w.th t with pc := addrAfter (s.th t).pc 1 } else w.th k :=
  (State.th_modRr _ _ k (fun _ => (s.cl (t / 128)).rrIssue)).trans (w.th_modTh t k _)

theorem still_wakes (s w : State) (t c : Nat) : ((s.wakes t w).cl c).still = (w.cl c).still :=
  (State.still_watch _ _).trans ((State.still_modRr (w.modTh t (fun x => { x with pc := addrAfter (s.th t).pc 1 })) (t / 128) c
    (fun _ => (s.cl (t / 128)).rrIssue)).trans (w.still_modTh t c _))

theorem outer_wakes (s w : State) (t : Nat) : (s.wakes t w).outer = w.outer := by
  rw [State.wakes, State.outer_watch, State.outer_modCl, State.outer_modTh]

/-- What no wait holds of a cluster: the channels, the credit, the threads blocked on other clusters' channels. -/
def sameChannels (a b : Cluster) : Prop := a.chan = b.chan ∧ a.credit = b.credit ∧ a.rblocked = b.rblocked

/-- The state in which the syllable of a wait takes effect: the thread waits no more, and the rest is as before but for the quiet
report and the pointer of its cluster. -/
structure Woken (s v : State) (t : Nat) : Prop where
  own : v.th t = { s.th t with wait := .none, waitSyls := [], bpPass := false }
  others : othersSame s v t
  channels : sameChannels (v.cl (t / 128)) (s.cl (t / 128))
  outer : v.outer = s.outer

theorem sameChannels_of_still {a b : Cluster} (h : a.still = b.still) : sameChannels a b :=
  ⟨Cluster.still_chan h, Cluster.still_credit h, Cluster.still_rblocked h⟩

theorem sameChannels_leaveWait (s : State) (t c : Nat) : sameChannels ((s.leaveWait t).cl c) (s.cl c) := by
  unfold State.leaveWait
  split
  · rw [State.cl_modCl]
    split
    next hc => rw [hc]; exact ⟨rfl, rfl, rfl⟩
    next => exact ⟨rfl, rfl, rfl⟩
  · exact ⟨rfl, rfl, rfl⟩

theorem woken_runReady (n : Nat) (hbusy : (s.th t).busy = true) (hplain : (s.th t).branches = []) (hbundle : (s.th t).bundle = []) :
    Woken s ((s.leaveWait t).runReady t n) t where
  own := by
    have hbranches := stores_countBundle (s.leaveWait t) t n
    rw [State.th_leaveWait, hplain, List.map_nil, List.map_eq_nil_iff] at hbranches
    rw [State.th_runReady _ t n (by rw [State.th_leaveWait]; exact hbusy), hbranches, State.th_leaveWait, ← hplain, ← hbundle]
  others := fun k hk => (State.th_runReady_other _ n hk).trans (s.th_leaveWait t k)
  channels := by
    obtain ⟨hchan, hcredit, hblocked⟩ := sameChannels_of_still ((s.leaveWait t).still_runReady t n (t / 128))
    obtain ⟨hchan', hcredit', hblocked'⟩ := sameChannels_leaveWait s t (t / 128)
    exact ⟨hchan.trans hchan', hcredit.trans hcredit', hblocked.trans hblocked'⟩
  outer := (State.outer_runReady _ t n).trans (s.outer_leaveWait t)

/-- A wait ends with the effect of its one syllable, which it has in the state as woken. -/
theorem wake_of_wait {z : RawSyl} (hsyl : (s.th t).waitSyls = [z]) (hsingle : (z.cls == 3 && 1 ≤ z.o && z.o ≤ 6) = false)
    (hbusy : (s.th t).busy = true) (hplain : (s.th t).branches = []) (hbundle : (s.th t).bundle = []) :
    ∃ v, Woken s v t ∧ (s.wake t).watch = s.wakes t (execSyl t (s.th t).regs (addrAfter (s.th t).pc 1) v z) :=
  ⟨_, woken_runReady _ hbusy hplain hbundle, wake_single hsyl hsingle⟩

end

/-! ### WFE and the thread's timer (R120, R122, R124) -/

section
variable {s : State} {t : Nat}

theorem Woken.wfeWord_eq {v : State} (h : Woken s v t) (m : BitVec 16) : wfeWord v t m = wfeWord s t m :=
  wfeWord_congr m (by rw [h.own]) (by rw [h.own]) (by rw [h.own]) h.channels.1

theorem wfeWake_of_pending {m : BitVec 16} (hwait : (s.th t).wait = .wfe m) (hhalt : (s.th t).halt = .none) (hpending : wfeWord s t m ≠ 0) :
    s.wfeWake t = s.wake t := by
  unfold State.wfeWake
  rw [hwait]
  exact if_pos ⟨hhalt, hpending⟩

theorem givesSome_wfeWake {id : ThreadId} {m : BitVec 16} {y : Syl} (hlives : lives s id) :
    let t := threadNo id
    let x := s.th t
    let w := wfeWord s t m
    x.wait = .wfe m → x.waitSyls = [sylRaw y 3 0x10] → m = y.fields.setWidth 16 → x.busy = true → x.branches = [] → x.bundle = [] →
    x.halt = .none → w ≠ 0 → givesSome (.wfeWake id) s (fun u =>
      u.th t = { x with wait := .none, waitSyls := [], bpPass := false, pc := x.pc + 1, regs := { x.regs with acc := w.setWidth 64 },
                        edges := x.edges &&& ~~~(w &&& 0xFFFC) } ∧ othersSame s u t ∧ outsideSame s u) := by
  dsimp only
  intro hwait hsyl hmask hbusy hplain hbundle hhalt hpending
  refine ⟨_, answer_of_lives hlives _, ?_⟩
  generalize threadNo id = t at *
  obtain ⟨v, hv, hwake⟩ := wake_of_wait hsyl rfl hbusy hplain hbundle
  have hexec : execSyl t (s.th t).regs (addrAfter (s.th t).pc 1) v (sylRaw y 3 0x10) =
      v.modTh t (·.tookEvents (wfeWord v t (BitVec.ofNat 16 ((sylRaw y 3 0x10).f 15 0)))) := rfl
  rw [target_eq, show (sylRaw y 3 0x10).fields.setWidth 16 = m from hmask.symm, hv.wfeWord_eq] at hexec
  rw [wfeWake_of_pending hwait hhalt hpending, hwake, hexec]
  refine ⟨?_, fun k hk => ?_, State.eq_of_outer ?_⟩
  · rw [th_wakes, if_pos rfl, State.th_modTh_same, hv.own]
    rfl
  · rw [th_wakes, if_neg hk, State.th_modTh, if_neg hk, hv.others k hk]
  · rw [outer_wakes, State.outer_modTh, hv.outer]

/-- A count that has run sets TIMER. -/
theorem timerExpire_of_plain (hbusy : (s.th t).busy = true) (htimer : (s.th t).regs.timer ≠ 0) (hplain : (s.th t).branches = []) :
    s.timerExpire t = (s.modTh t (fun _ => { s.th t with regs := { (s.th t).regs with timer := 0 } })).edge t 3 := by
  have hcount : (s.th t).regs.timer.toNat ≠ 0 := fun hzero => htimer (BitVec.eq_of_toNat_eq hzero)
  have hafter : timerAfter (s.th t).regs.timer.toNat (s.th t).regs = ({ (s.th t).regs with timer := 0 }, true) :=
    (if_neg htimer).trans (if_pos le_rfl)
  unfold State.timerExpire State.timerFalls
  dsimp only
  rw [if_neg (by simp [hbusy, hcount]), hafter, hplain]
  exact congrArg (fun w : State => w.edge t 3) (State.modTh_of_eq rfl)

theorem givesSome_timerExpire {id : ThreadId} (hlives : lives s id) :
    let t := threadNo id
    let x := s.th t
    x.busy = true → x.regs.timer ≠ 0 → x.branches = [] → givesSome (.threadTimerExpire id) s (fun u =>
      onlyThread s u t { x with regs := { x.regs with timer := 0 }, edges := x.edges ||| 8 } s.net) := by
  dsimp only
  intro hbusy htimer hplain
  refine ⟨_, answer_of_lives hlives _, ?_⟩
  generalize threadNo id = t at *
  rw [timerExpire_of_plain hbusy htimer hplain]
  refine onlyThread_watch ?_ (fun k hk => ?_) (fun c => ?_) (State.outer_edge _ _ _)
  · rw [State.th_edge, if_pos rfl, State.th_modTh_same]
    exact Thread.latched_of_busy (x := { s.th t with regs := { (s.th t).regs with timer := 0 } }) hbusy 3
  · rw [State.th_edge, if_neg hk, othersSame_modTh s t _ k hk]
  · rw [State.still_edge, State.still_modTh]

end

/-! ### CHC that has waited for room or credit (R127, R129) -/

theorem Store.get_map_values {α : Type} {d : α} {f : α → α} (hd : f d = d) (m : Store α) (n : Nat) :
    Store.get d (m.map (fun e => (e.1, f e.2))) n = f (Store.get d m n) := by
  induction m with
  | nil => exact hd.symm
  | cons e m ih =>
    obtain ⟨k, a⟩ := e
    rw [List.map_cons, Store.get_cons, Store.get_cons, ih]
    split <;> rfl

/-- A thread let go is on no channel's list, and what the channel holds stays. -/
theorem ch_unblock (k : Cluster) (u n : Nat) : (k.unblock u).ch n = { k.ch n with blocked := (k.ch n).blocked.filter (· != u) } :=
  Store.get_map_values (f := fun q : Channel => { q with blocked := q.blocked.filter (· != u) }) rfl k.chan n

theorem rblocked_unblock (k : Cluster) (u n : Nat) : Store.get [] (k.unblock u).rblocked n = (Store.get [] k.rblocked n).filter (· != u) :=
  Store.get_map_values (f := fun l : List Nat => l.filter (· != u)) rfl k.rblocked n

section
variable {s : State} {c v pos n : Nat} {more : List Nat} {y : Syl}

/-- The first thread blocked on a channel with room is let go and goes on. -/
theorem exec_chcUnblock_of_room {remote : Bool} (hc : c < 26) (hup : s.up c = true) (hblocked : (s.cl c).blockedOn remote pos n = v :: more)
    (hhalt : (s.th (c * 128 + v)).halt = .none) (hroom : (s.cl c).roomFor remote pos n (s.th (c * 128 + v)).staging.length = true) :
    exec (.chcUnblock c remote pos n) s = .next ((s.modCl c (·.unblock v)).wake (c * 128 + v)).watch := by
  have hgoes : s.chcUnblock c remote pos n = (s.modCl c (·.unblock v)).wake (c * 128 + v) := by
    unfold State.chcUnblock
    rw [hblocked]
    exact if_pos ⟨hhalt, hroom⟩
  have hexec : exec (.chcUnblock c remote pos n) s = answer (if c < 26 && s.up c then s.chcUnblock c remote pos n else s) := rfl
  rw [hexec, if_pos (by simp [hc, hup]), hgoes]
  rfl

/-- A thread that has waited and is let go: the state in which its CHC takes effect. -/
theorem wake_of_unblocked {t : Nat} (ht : t / 128 = c) (hsyl : (s.th t).waitSyls = [sylRaw y 3 0x13]) (hbusy : (s.th t).busy = true)
    (hplain : (s.th t).branches = []) (hbundle : (s.th t).bundle = []) :
    ∃ w, w.th t = { s.th t with wait := .none, waitSyls := [], bpPass := false } ∧ othersSame s w t
      ∧ sameChannels (w.cl c) ((s.cl c).unblock v) ∧ w.outer = s.outer
      ∧ ((s.modCl c (·.unblock v)).wake t).watch = (s.modCl c (·.unblock v)).wakes t
        (execSyl t (s.th t).regs (addrAfter (s.th t).pc 1) w (sylRaw y 3 0x13)) := by
  have hsame : ∀ k, (s.modCl c (·.unblock v)).th k = s.th k := s.th_unblock c v
  obtain ⟨w, hw, hwake⟩ := wake_of_wait (s := s.modCl c (·.unblock v)) (t := t) (z := sylRaw y 3 0x13) (by rwa [hsame]) rfl (by rwa [hsame])
    (by rwa [hsame]) (by rwa [hsame])
  have hchannels := hw.channels
  rw [ht, State.cl_modCl_same] at hchannels
  refine ⟨w, hw.own.trans (by rw [hsame]), fun k hk => (hw.others k hk).trans (hsame k), hchannels, hw.outer, ?_⟩
  rw [hwake, hsame]

theorem givesSome_chcUnblock_own (hc : c < 26) (hup : s.up c = true) (hv : v < 128) :
    let t := c * 128 + v
    let x := s.th t
    ((s.cl c).ch n).blocked = v :: more → x.waitSyls = [sylRaw y 3 0x13] → y.fields = BitVec.ofNat 22 n → n < 32 → x.busy = true →
    x.branches = [] → x.bundle = [] → x.halt = .none → x.staging ≠ [] → s.chRemote c n = false →
    ((s.cl c).ch n).words + x.staging.length ≤ 8 → givesSome (.chcUnblock c false 0 n) s (fun u =>
      ((u.cl c).ch n).msgs = ((s.cl c).ch n).msgs ++ [(c, x.staging)] ∧ ((u.cl c).ch n).blocked = (v :: more).filter (· != v)
        ∧ (u.th t).staging = [] ∧ (u.th t).wait = .none ∧ (u.th t).pc = x.pc + 1 ∧ (u.th t).regs = { x.regs with fl := 0 }
        ∧ othersSame s u t ∧ outsideSame s u) := by
  dsimp only
  intro hblocked hsyl hfields hn hbusy hplain hbundle hhalt hstaged hremote hroom
  refine ⟨_, exec_chcUnblock_of_room hc hup hblocked hhalt (decide_eq_true hroom), ?_⟩
  have ht : (c * 128 + v) / 128 = c := by omega
  generalize c * 128 + v = t at *
  obtain ⟨w, hown, hothers, ⟨hchan, -⟩, houter, hwake⟩ := wake_of_unblocked (v := v) ht hsyl hbusy hplain hbundle
  have hval : y.fields.toNat = n := by
    rw [hfields, BitVec.toNat_ofNat]
    omega
  have hlocal : (sylRaw y 3 0x13).f 10 10 = 0 := by
    simp only [RawSyl.f, sylRaw, bits, hval, Nat.shiftRight_eq_div_pow]
    omega
  have hchannel : (sylRaw y 3 0x13).f 4 0 = n := by
    simp only [RawSyl.f, sylRaw, bits, hval]
    omega
  have hstaging : (w.th t).staging = (s.th t).staging := by rw [hown]
  rw [hwake, execSyl_chc_of_own (by rwa [hstaging]) hlocal (by rw [hchannel, ht, chRemote_congr houter, hremote]), hchannel, ht, hstaging]
  generalize hsent : (w.modTh t (fun x => { x with staging := [] })).chAccept c n c (s.th t).staging = q
  have hth : ∀ k, q.th k = if k = t then { w.th t with staging := [] } else w.th k := fun k => by
    rw [← hsent, State.th_chAccept]
    exact w.th_modTh t k _
  have hch : (q.cl c).ch n = { (s.cl c).ch n with
      msgs := ((s.cl c).ch n).msgs ++ [(c, (s.th t).staging)], blocked := ((s.cl c).ch n).blocked.filter (· != v) } := by
    rw [← hsent, State.cl_chAccept, if_pos rfl, Cluster.ch_modCh, if_pos rfl, ch_of_still (State.still_modTh _ _ _ _),
      Cluster.ch_of_chan hchan, ch_unblock]
  have hrest : q.outer = s.outer := by rw [← hsent, State.outer_chAccept, State.outer_modTh, houter]
  have hch' : (((s.modCl c (·.unblock v)).wakes t (setRegs q t (fun r => { r with fl := 0 }))).cl c).ch n = (q.cl c).ch n :=
    ch_of_still ((still_wakes _ _ _ _).trans (q.still_setRegs t c _)) n
  have hend : ((s.modCl c (·.unblock v)).wakes t (setRegs q t (fun r => { r with fl := 0 }))).th t = { s.th t with
      staging := [], wait := .none, waitSyls := [], bpPass := false, regs := { (s.th t).regs with fl := 0 }, pc := (s.th t).pc + 1 } := by
    rw [th_wakes, if_pos rfl, State.th_setRegs, if_pos rfl, hth, if_pos rfl, hown, State.th_unblock]
    rfl
  refine ⟨by rw [hch', hch], by rw [hch', hch, hblocked], by rw [hend], by rw [hend], by rw [hend], by rw [hend], fun k hk => ?_,
    State.eq_of_outer ?_⟩
  · rw [th_wakes, if_neg hk, State.th_setRegs, if_neg hk, hth, if_neg hk, hothers k hk]
  · rw [outer_wakes, State.outer_setRegs, hrest]

theorem rblocked_sendAway (s : State) (t pos n id : Nat) (fl : Fl) :
    ((s.sendAway t pos n id fl).cl (t / 128)).rblocked = (s.cl (t / 128)).rblocked := by
  have hkept := Cluster.still_rblocked (s.still_modTh t (t / 128) (fun x => { x with staging := [] }))
  unfold State.sendAway
  rw [Cluster.still_rblocked (State.still_setRegs _ _ _ _), State.cl_after_send, State.cl_modCl_same]
  exact hkept

/-- What a CHC to another cluster leaves of its thread and its cluster, and what it sends, whether or not that cluster is in reset. -/
theorem execSyl_chc_away {w : State} {t : Nat} {r : Regs} {next : BitVec 16} (hstaged : (w.th t).staging ≠ [])
    (hother : (sylRaw y 3 0x13).f 10 10 = 1) (hpos : (sylRaw y 3 0x13).f 9 5 = pos) (hn : (sylRaw y 3 0x13).f 4 0 = n) :
    let u := execSyl t r next w (sylRaw y 3 0x13)
    (u.th t).staging = [] ∧ (u.th t).wait = (w.th t).wait ∧ othersSame w u t
      ∧ (u.cl (t / 128)).creditOf (creditKey pos n) = (w.cl (t / 128)).creditOf (creditKey pos n) - (w.th t).staging.length
      ∧ (u.cl (t / 128)).rblocked = (w.cl (t / 128)).rblocked
      ∧ u.net = w.net ++ [⟨t / 128, w.clusterAt pos, .chan t pos n (w.th t).staging w.nextId⟩] := by
  dsimp only
  rw [execSyl_chc_of_other hstaged hother, hpos, hn]
  generalize (if w.inReset (w.clusterAt pos) = true then (1 : Fl) else 0) = fl
  have hth : ∀ k, (State.sendAway { w with nextId := w.nextId + 1 } t pos n w.nextId fl).th k = if k = t then (w.th t).sentOff fl else w.th k :=
    fun k => State.th_sendAway { w with nextId := w.nextId + 1 } t pos n w.nextId k fl
  have hcredit := State.creditOf_sendAway { w with nextId := w.nextId + 1 } t pos n w.nextId fl
  have hblocked := rblocked_sendAway { w with nextId := w.nextId + 1 } t pos n w.nextId fl
  have hnet := congrArg State.net (State.outer_sendAway { w with nextId := w.nextId + 1 } t pos n w.nextId fl)
  generalize State.sendAway { w with nextId := w.nextId + 1 } t pos n w.nextId fl = q at *
  split
  · refine ⟨?_, ?_, fun k hk => (hth k).trans (if_neg hk), hcredit, hblocked, hnet⟩
    · rw [hth, if_pos rfl, Thread.sentOff]
    · rw [hth, if_pos rfl, Thread.sentOff]
  · refine ⟨?_, ?_, fun k hk => ?_, ?_, ?_, hnet⟩
    · rw [State.th_addLoad, if_pos rfl, hth, if_pos rfl]
      rfl
    · rw [State.th_addLoad, if_pos rfl, hth, if_pos rfl]
      rfl
    · rw [State.th_addLoad, if_neg hk, hth, if_neg hk]
    · exact (Cluster.creditOf_of_still (q.still_modTh t _ _) _).trans hcredit
    · exact (Cluster.still_rblocked (q.still_modTh t _ _)).trans hblocked

theorem givesSome_chcUnblock_away (hc : c < 26) (hup : s.up c = true) (hv : v < 128) :
    let t := c * 128 + v
    let x := s.th t
    let z := sylRaw y 3 0x13
    Store.get [] (s.cl c).rblocked (creditKey pos n) = v :: more → x.waitSyls = [z] → z.f 10 10 = 1 → z.f 9 5 = pos → z.f 4 0 = n →
    x.busy = true → x.branches = [] → x.bundle = [] → x.halt = .none → x.staging ≠ [] →
    x.staging.length ≤ (s.cl c).creditOf (creditKey pos n) → givesSome (.chcUnblock c true pos n) s (fun u =>
      (u.cl c).creditOf (creditKey pos n) = (s.cl c).creditOf (creditKey pos n) - x.staging.length
        ∧ Store.get [] (u.cl c).rblocked (creditKey pos n) = (v :: more).filter (· != v)
        ∧ u.net = s.net ++ [⟨c, s.clusterAt pos, .chan t pos n x.staging s.nextId⟩]
        ∧ (u.th t).staging = [] ∧ (u.th t).wait = .none ∧ (u.th t).pc = x.pc + 1 ∧ othersSame s u t) := by
  dsimp only
  intro hblocked hsyl hother hpos hn hbusy hplain hbundle hhalt hstaged hcredit
  refine ⟨_, exec_chcUnblock_of_room hc hup hblocked hhalt (decide_eq_true hcredit), ?_⟩
  have ht : (c * 128 + v) / 128 = c := by omega
  generalize c * 128 + v = t at *
  obtain ⟨w, hown, hothers, ⟨-, hcr, hbl⟩, houter, hwake⟩ := wake_of_unblocked (v := v) ht hsyl hbusy hplain hbundle
  have hstaging : (w.th t).staging = (s.th t).staging := by rw [hown]
  obtain ⟨hempty, hwait, hkept, hless, hlist, hnet⟩ := execSyl_chc_away (r := (s.th t).regs) (next := addrAfter (s.th t).pc 1)
    (by rwa [hstaging]) hother hpos hn
  rw [hwake]
  generalize execSyl t (s.th t).regs (addrAfter (s.th t).pc 1) w (sylRaw y 3 0x13) = q at *
  rw [ht, hstaging] at hless hnet
  rw [ht] at hlist
  have hstill := still_wakes (s.modCl c (·.unblock v)) q t c
  have hcreditOf : (w.cl c).creditOf (creditKey pos n) = (s.cl c).creditOf (creditKey pos n) := by
    unfold Cluster.creditOf
    rw [hcr]
    rfl
  refine ⟨?_, ?_, ?_, ?_, ?_, ?_, fun k hk => ?_⟩
  · rw [Cluster.creditOf_of_still hstill, hless, hcreditOf]
  · rw [Cluster.still_rblocked hstill, hlist, hbl, rblocked_unblock, hblocked]
  · rw [State.outer_net (outer_wakes _ _ _), hnet, State.outer_net houter, clusterAt_congr houter, State.outer_nextId houter]
  · rw [th_wakes, if_pos rfl]
    exact hempty
  · rw [th_wakes, if_pos rfl]
    exact hwait.trans (by rw [hown])
  · rw [th_wakes, if_pos rfl, State.th_unblock]
    rfl
  · rw [th_wakes, if_neg hk, hkept k hk, hothers k hk]

end

theorem waitsEndWithTheirEvent : Claims.WaitsEndWithTheirEvent := by
  unfold Claims.WaitsEndWithTheirEvent
  exact ⟨fun s id m y hlives => givesSome_wfeWake hlives, fun s id hlives => givesSome_timerExpire hlives,
    fun s c n v more y hc hup hv => givesSome_chcUnblock_own hc hup hv, fun s c pos n v more y hc hup hv => givesSome_chcUnblock_away hc hup hv⟩

/-- Settles O14: what lands is taken from the thread's own lists, and a wait ends with its syllable's effect in the state as woken. -/
theorem resultsAndWaitsReachTheirThread : Obligations.ResultsAndWaitsReachTheirThread :=
  ⟨resultsLandInTheirRegisters, waitsEndWithTheirEvent⟩

end Sys2Proof.Machine
end

section
/-! NOW, NOWF, TDIFF and TPAST: the cluster's reading of device time, and what they return of it (R213, R223). -/

namespace Sys2Proof.Machine

open Sys2Proof.Claims

/-! ### The cluster's reading of device time (R223) -/

theorem clusterTime_never_falls (s : State) (c : Nat) : (s.cl c).lastNow ≤ (clusterTime s c).1 ∧
    ((s.cl c).lastNow < (clusterTime s c).1 ∨ (s.cl c).lastFrac.toNat ≤ (clusterTime s c).2.toNat) := by
  fun_cases clusterTime s c
  case case1 => exact ⟨le_rfl, .inr le_rfl⟩
  case case2 k k' n x hfresh =>
    have hkept : ¬ (n < (s.cl c).lastNow ∨ n = (s.cl c).lastNow ∧ s.time.frac.toNat < (s.cl c).lastFrac.toNat) := hfresh
    dsimp only
    omega

/-- A reading repeats the last one, or its whole part is within 2 ns of device time, whose fraction it takes. -/
theorem clusterTime_near (s : State) (c : Nat) : clusterTime s c = ((s.cl c).lastNow, (s.cl c).lastFrac) ∨
    ((clusterTime s c).1 ≤ s.time.ns.toNat + 2 ∧ s.time.ns.toNat ≤ (clusterTime s c).1 + 2 ∧ (clusterTime s c).2 = s.time.frac) := by
  fun_cases clusterTime s c
  case case1 => exact .inl rfl
  case case2 k k' n x hfresh =>
    have hskew : -2 ≤ k' ∧ k' ≤ 2 := by grind
    have hn : n = ((s.time.ns.toNat : Int) + k').toNat := rfl
    exact .inr ⟨by dsimp only; omega, by dsimp only; omega, rfl⟩

/-- What `clusterTime` may give cluster `c`: the reading `now` and its fraction. -/
def readsNear (s : State) (c : Nat) (now : Nat × BitVec 32) : Prop :=
  (s.cl c).lastNow ≤ now.1 ∧ ((s.cl c).lastNow < now.1 ∨ (s.cl c).lastFrac.toNat ≤ now.2.toNat) ∧
    (now = ((s.cl c).lastNow, (s.cl c).lastFrac) ∨
      (now.1 ≤ s.time.ns.toNat + 2 ∧ s.time.ns.toNat ≤ now.1 + 2 ∧ now.2 = s.time.frac))

theorem readsNear_clusterTime (s : State) (c : Nat) : readsNear s c (clusterTime s c) :=
  ⟨(clusterTime_never_falls s c).1, (clusterTime_never_falls s c).2, clusterTime_near s c⟩

/-! ### The operations that read it -/

/-- The opcodes of NOW, NOWF, TDIFF and TPAST. -/
def timeOps : List Nat := [0x50, 0x51, 0x53, 0x54]

theorem Cluster.still_lastFrac {a b : Cluster} (h : a.still = b.still) : a.lastFrac = b.lastFrac := by
  have := congrArg Cluster.lastFrac h
  exact this

/-- The cluster's last reading of now is the one handed over with. -/
theorem State.lastReading_handTo (v : State) (t : Nat) (z : RawSyl) (g : HelperOp) (now : Nat × BitVec 32) :
    ((v.handTo t z g now).cl (t / 128)).lastNow = now.1 ∧ ((v.handTo t z g now).cl (t / 128)).lastFrac = now.2 :=
  ⟨Cluster.still_lastNow (v.still_handTo t z g now), Cluster.still_lastFrac (v.still_handTo t z g now)⟩

theorem readsTime_of_timeOps : ∀ o ∈ timeOps, o / 16 = 5 ∧ (o % 16 = 0 ∨ o % 16 = 1 ∨ o % 16 = 3 ∨ o % 16 = 4) := by decide

/-- A time operation is handed over with the reading that its result is computed from. -/
theorem reading_of_execH {v : State} {t : Nat} {z : RawSyl} {g : HelperOp} {now : Nat × BitVec 32} (htime : z.o ∈ timeOps)
    (hexec : execH v t (v.th t).regs z = v.handTo t z g now) : now = clusterTime v.newId.2 (t / 128) := by
  obtain ⟨h, hreads⟩ : ∃ h, execH v t (v.th t).regs z = v.handTo t z h (clusterTime v.newId.2 (t / 128)) :=
    ⟨_, Eq.trans rfl (congrArg (v.handTo t z _) (if_pos (readsTime_of_timeOps _ htime)))⟩
  obtain ⟨hnow, hfrac⟩ := v.lastReading_handTo t z g now
  obtain ⟨hnow', hfrac'⟩ := v.lastReading_handTo t z h (clusterTime v.newId.2 (t / 128))
  rw [← hexec, hreads] at hnow hfrac
  exact Prod.ext (hnow.symm.trans hnow') (hfrac.symm.trans hfrac')

theorem Issued.readsNear_clusterTime {s v : State} {t : Nat} (h : Issued s v t) (houter : v.outer = s.outer) (c : Nat) :
    readsNear s c (clusterTime v.newId.2 c) := by
  have hcl : v.newId.2.cl c = v.cl c := rfl
  have htime : v.newId.2.time = s.time := State.outer_time (a := v) houter
  have hnear := Machine.readsNear_clusterTime v.newId.2 c
  rwa [readsNear, hcl, htime, Cluster.still_lastNow (h.still c), Cluster.still_lastFrac (h.still c)] at hnear

/-- The helper computes `f` of the reading and of ACC. -/
def computesOfTime (op : Nat) (f : Nat × BitVec 32 → W64 → HelperRes) : Prop :=
  ∀ v c g, g.unit.toNat = op / 16 → g.op.toNat = op % 16 → helperCompute v c g = some (f (clusterTime v c) g.acc)

/-- A time instruction keeps a reading near device time, and hands over an operation whose result is `f` of the reading and ACC. -/
theorem givesSome_of_timeOp {i : Syl → Instr} {op : Nat} {y : Syl} {s : State} {p : State → Prop}
    {f : Nat × BitVec 32 → W64 → HelperRes} (hop : op ∈ timeOps) (hissues : issuesH i op) (hcomputes : computesOfTime op f)
    (h : Executes s y 2 op)
    (hp : ∀ u now g, readsNear s (tidOf y / 128) now → (u.cl (tidOf y / 128)).lastNow = now.1 → (u.cl (tidOf y / 128)).lastFrac = now.2 →
      oneMore s u (tidOf y) g → g.res = some (f now (s.th (tidOf y)).regs.acc) → p u) :
    givesSome (i y) s p := by
  have hlt : ∀ o ∈ timeOps, o < 128 := by decide
  have ho : (sylRaw y 2 op).o = op := Nat.mod_eq_of_lt (hlt op hop)
  have hhelper : (sylRaw y 2 op).helper = op / 16 := congrArg (· / 16) ho
  have hhop : (sylRaw y 2 op).hop = op % 16 := congrArg (· % 16) ho
  have hunit : (sylRaw y 2 op).helper = 5 := hhelper.trans (readsTime_of_timeOps op hop).1
  refine givesSome_of_effect (show (2 : BitVec 2) ≠ 3 by decide) h (hissues y s) fun v hv houter => ?_
  obtain ⟨bs, hth⟩ := hv.th_eq
  have hregs : (v.th (tidOf y)).regs = (s.th (tidOf y)).regs := by rw [hth]
  obtain ⟨g, now, hexec, hhanded, hres⟩ := execH_hands v (tidOf y) (sylRaw y 2 op)
  have hreading : now = clusterTime v.newId.2 (tidOf y / 128) := reading_of_execH (ho.symm ▸ hop :) hexec
  have hreads : readsNone v (tidOf y) (v.th (tidOf y)).regs (sylRaw y 2 op) := by
    refine ⟨?_, by simp [RawSyl.isH, hunit]⟩
    rw [hSpans, hunit, if_neg fun hbad => absurd hbad.1 (by decide)]
    rfl
  obtain ⟨-, -, hgunit, hgop, -, -, hacc, -⟩ := hv.handed_of houter hhanded
  have hcomputed : g.res = some (f now g.acc) := by
    rw [hres (hunit ▸ by decide) hreads, hreading]
    exact hcomputes _ _ _ (hgunit.trans hhelper) (hgop.trans hhop)
  have hstill := still_pastBundle s (tidOf y) (v.handTo (tidOf y) (sylRaw y 2 op) g now) (tidOf y / 128)
  obtain ⟨hnow, hfrac⟩ := v.lastReading_handTo (tidOf y) (sylRaw y 2 op) g now
  have hsyl : execSyl (tidOf y) (s.th (tidOf y)).regs (addrAfter (s.th (tidOf y)).pc 1) v (sylRaw y 2 op) =
      v.handTo (tidOf y) (sylRaw y 2 op) g now := hregs ▸ hexec
  rw [hsyl]
  exact hp _ now g (hreading ▸ hv.readsNear_clusterTime houter _) ((Cluster.still_lastNow hstill).trans hnow)
    ((Cluster.still_lastFrac hstill).trans hfrac) (hv.oneMore_handTo _ g now) (hacc ▸ hcomputed)

/-! ### What they return (R213, R223) -/

theorem helpNowf_eq (now : Nat) (frac : BitVec 32) (g : HelperOp) :
    helpNowf now frac g = resultOf (BitVec.ofNat 32 now ++ frac, false, false) := by
  rw [helpNowf, ← BitVec.toNat_ofNat, ofNat_xa_xb]
  rfl

theorem helpTdiff_eq (now : Nat) (g : HelperOp) : helpTdiff now g =
    resultOf (BitVec.ofNat 64 now - g.acc, false, outside64 ((BitVec.ofNat 64 now).toInt - g.acc.toInt)) := by
  rw [helpTdiff, ovf_eq_outside64]
  rfl

theorem helpTpast_eq (now : Nat) (g : HelperOp) : helpTpast now g =
    resultOf (BitVec.ofNat 64 now, decide (g.acc.toNat ≤ (BitVec.ofNat 64 now).toNat), false) := by
  rw [helpTpast, ← BitVec.toNat_ofNat]
  rfl

theorem computesOfTime_timeOps : computesOfTime 0x50 (fun now _ => resultOf (BitVec.ofNat 64 now.1, false, false)) ∧
    computesOfTime 0x51 (fun now _ => resultOf (BitVec.ofNat 32 now.1 ++ now.2, false, false)) ∧
    computesOfTime 0x53 (fun now acc => resultOf (BitVec.ofNat 64 now.1 - acc, false, outside64 ((BitVec.ofNat 64 now.1).toInt - acc.toInt))) ∧
    computesOfTime 0x54 (fun now acc => resultOf (BitVec.ofNat 64 now.1, decide (acc.toNat ≤ (BitVec.ofNat 64 now.1).toNat), false)) := by
  refine ⟨fun v c g hunit hop => ?_, fun v c g hunit hop => ?_, fun v c g hunit hop => ?_, fun v c g hunit hop => ?_⟩
  all_goals rw [helperCompute, hunit, hop]
  · rfl
  · exact congrArg some (helpNowf_eq _ _ g)
  · exact congrArg some (helpTdiff_eq _ g)
  · exact congrArg some (helpTpast_eq _ g)

/-- A reading's whole part alone. -/
theorem readsNear.whole {s : State} {c : Nat} {now : Nat × BitVec 32} (h : readsNear s c now) : (s.cl c).lastNow ≤ now.1 ∧
    (now.1 = (s.cl c).lastNow ∨ (now.1 ≤ s.time.ns.toNat + 2 ∧ s.time.ns.toNat ≤ now.1 + 2)) := by
  obtain ⟨hfalls, -, hlast | ⟨habove, hbelow, -⟩⟩ := h
  · exact ⟨hfalls, .inl (congrArg Prod.fst hlast)⟩
  · exact ⟨hfalls, .inr ⟨habove, hbelow⟩⟩

theorem readsNear.frac {s : State} {c : Nat} {now : Nat × BitVec 32} (h : readsNear s c now) :
    now.2 = s.time.frac ∨ (now.1 = (s.cl c).lastNow ∧ now.2 = (s.cl c).lastFrac) := by
  obtain ⟨-, -, hlast | ⟨-, -, hfrac⟩⟩ := h
  · exact .inr ⟨congrArg Prod.fst hlast, congrArg Prod.snd hlast⟩
  · exact .inl hfrac

/-- Settles O7: the reading handed over with is the cluster's copy of device time, and each operation returns its own function of it. -/
theorem timeReadingsStayNearDeviceTimeAndNeverFall : Obligations.TimeReadingsStayNearDeviceTimeAndNeverFall := by
  unfold Obligations.TimeReadingsStayNearDeviceTimeAndNeverFall
  intro y s
  obtain ⟨hnow, hnowf, htdiff, htpast⟩ := computesOfTime_timeOps
  refine ⟨fun h => ?_, fun h => ?_, fun h => ?_, fun h => ?_⟩
  · exact givesSome_of_timeOp (by decide) (fun _ _ => rfl) hnow h fun u now g hnear hlast _ hmore hres =>
      ⟨now.1, ⟨hlast, hnear.whole⟩, g, hmore, hres⟩
  · exact givesSome_of_timeOp (by decide) (fun _ _ => rfl) hnowf h fun u now g hnear hlast hfrac hmore hres =>
      ⟨now.1, now.2, ⟨hlast, hnear.whole⟩, hfrac, hnear.frac, hnear.2.1, g, hmore, hres⟩
  · exact givesSome_of_timeOp (by decide) (fun _ _ => rfl) htdiff h fun u now g hnear hlast _ hmore hres =>
      ⟨now.1, ⟨hlast, hnear.whole⟩, g, hmore, hres⟩
  · exact givesSome_of_timeOp (by decide) (fun _ _ => rfl) htpast h fun u now g hnear hlast _ hmore hres =>
      ⟨now.1, ⟨hlast, hnear.whole⟩, g, hmore, hres⟩

end Sys2Proof.Machine
end

section
/-! Buckets of the egress tree (R309). -/

namespace Sys2Proof.Machine

open Sys2Proof.Claims

theorem State.child_modChild (s : State) (lvl n l m : Nat) (f : Child → Child) :
    (s.modChild lvl n f).child l m = if childKey l m = childKey lvl n then f (s.child lvl n) else s.child l m :=
  Store.get_modify _ _ _ _ _

/-- The units of credit that a bucket gains and the part below a unit it carries are its rate over the time and what it carried. -/
theorem Bucket.credit_earned (b : Bucket) (rate depth now : Nat) : ∃ add : Nat,
    add * 8000000000 + (b.credit rate depth now).rem = rate * (now - b.last) * 65536 + b.rem ∧ (b.credit rate depth now).rem < 8000000000 ∧
      (b.credit rate depth now).level = min (b.level + (add : Int)) ((depth * 65536 : Nat) : Int) :=
  ⟨(rate * (now - b.last) * 65536 + b.rem) / 8000000000, Nat.div_add_mod' _ _, Nat.mod_lt _ (by decide), rfl⟩

theorem Bucket.credit_le_depth (b : Bucket) (rate depth now : Nat) : (b.credit rate depth now).level ≤ ((depth * 65536 : Nat) : Int) :=
  min_le_right _ _

theorem bucketsCreditTheirRate : Claims.BucketsCreditTheirRate := by
  unfold Claims.BucketsCreditTheirRate
  intro s l n hup hnode
  have hexec : exec (.bucketCredit l n) s = answer (s.creditNode l n) := congrArg answer (if_pos ⟨hup, .inr hnode⟩)
  refine ⟨_, hexec, ?_⟩
  have hchild : ((s.creditNode l n).watch).child l n = { s.child l n with
      pir := (s.child l n).pir.credit (s.peakRate l n) (s.peakDepth l n) s.time.elapsed
      cir := (s.child l n).cir.credit (s.commRate l n) (s.commDepth l n) s.time.elapsed } :=
    (s.child_modChild l n l n _).trans (if_pos rfl)
  dsimp only
  rw [hchild]
  exact ⟨Bucket.credit_earned _ _ _ _, rfl, Bucket.credit_le_depth _ _ _ _, rfl, rfl,
    fun k hk => Store.get_modify_otherDefault _ hk⟩

end Sys2Proof.Machine
end

section
/-! Hand-overs at the Queue Manager: where they are discarded, and where they are linked (R226, R301, R304, R305, R320). -/

namespace Sys2Proof.Machine

open Sys2Proof.Claims

/-! ### A packet dropped -/

@[simp] theorem State.countDrop_pools (s : State) (q c : Nat) : (s.countDrop q c).pools = s.pools := by simp [State.countDrop, State.countQueue]

@[simp] theorem State.countDrop_faults (s : State) (q c : Nat) : (s.countDrop q c).faults = s.faults := by simp [State.countDrop, State.countQueue]

@[simp] theorem State.countDrop_qm (s : State) (q c : Nat) : (s.countDrop q c).qm = s.qm := by simp [State.countDrop, State.countQueue]

@[simp] theorem State.dropQueued_qm (s : State) (q d c : Nat) : (s.dropQueued q d c).qm = s.qm := by simp [State.dropQueued]

@[simp] theorem State.dropQueued_faults (s : State) (q d c : Nat) : (s.dropQueued q d c).faults = s.faults := by simp [State.dropQueued]

theorem desc_of_pools {s u : State} (h : u.pools = s.pools) (d : Nat) : u.desc d = s.desc d := by rw [State.desc, State.desc, h]

theorem pool_of_pools {s u : State} (h : u.pools = s.pools) (p : Nat) : u.pool p = s.pool p := by rw [State.pool, State.pool, h]

theorem packetFreed_dropQueued (s : State) (q d c : Nat) : packetFreed s (s.dropQueued q d c).watch d :=
  packetFreed_watch_freePacket d (s.countDrop_pools q c)

/-! ### Admission (R304, R305, R320) -/

section
variable {s : State} {k : QPkt} {order : Nat} {domain : Option Nat}

/-- A queue whose state word is whole, or that has stopped, is read with no report. -/
theorem queueEcc_of_read {q : Nat} (h : (s.queue q).bad = false ∨ (s.queue q).stopped = true) : s.queueEcc q = s := by
  unfold State.queueEcc
  exact if_neg (by rcases h with h | h <;> simp [h])

theorem enqueue_of_stopped (hstop : (s.queue k.queue).stopped = true) : s.enqueue k order domain = s.dropQueued k.queue k.desc 0x11 := by
  unfold State.enqueue
  dsimp only
  rw [queueEcc_of_read (.inr hstop), if_pos hstop]

/-- The queue with its average taken anew. -/
def State.averaged (s : State) (q : Nat) : State :=
  s.modQueue q (fun k => { k with avg := nextAvg (s.queue q).avg (queueDepth (s.queue q)) (fld (profile s q) 63 60) })

theorem admission_of_full {q d len : Nat} (hfull : fld (profile s q) 127 108 * 1024 < queueDepth (s.queue q) + len) :
    s.admission q d len = (.drop 0x11, s.averaged q) := if_pos hfull

/-- With room, no drop probability and ECN off, a packet is linked without a mark. -/
theorem admission_of_takes {q d len : Nat} (h : takesWhole s q len) : s.admission q d len = (.link false, s.averaged q) := by
  obtain ⟨-, -, -, -, hroom, hwred, hecn, -⟩ := h
  unfold profile at hroom hwred hecn
  unfold State.admission
  dsimp only
  rw [if_neg (by omega), if_neg (by rw [hwred]; exact fun h => absurd h.1 (by decide)), hecn]
  rfl

theorem enqueue_of_full (hbad : (s.queue k.queue).bad = false) (hrun : (s.queue k.queue).stopped = false)
    (hfull : fld (profile s k.queue) 127 108 * 1024 < queueDepth (s.queue k.queue) + k.len) :
    s.enqueue k order domain = (s.averaged k.queue).dropQueued k.queue k.desc 0x11 := by
  unfold State.enqueue
  dsimp only
  rw [queueEcc_of_read (.inl hbad), if_neg (ne_true_of_eq_false hrun), admission_of_full hfull]

theorem enqueue_of_takes (h : takesWhole s k.queue k.len) : s.enqueue k order domain = (s.averaged k.queue).link k order domain := by
  obtain ⟨hbad, hrun, -⟩ := id h
  unfold State.enqueue
  dsimp only
  rw [queueEcc_of_read (.inl hbad), if_neg (ne_true_of_eq_false hrun), admission_of_takes h]
  rfl

/-! ### Linking (R301, R302) -/

theorem insertTied_of_untied {α : Type} {after : α → Bool} (h : ∀ p, after p = false) (k : α) (l : List α) : insertTied after k l = l ++ [k] := by
  obtain rfl : after = fun _ => false := funext h
  cases hl : l.reverse <;> simp_all [insertTied]

theorem pools_noteLinked (s : State) (t : LinkTie) : (s.noteLinked t).pools = s.pools := rfl

theorem queue_noteLinked (s : State) (t : LinkTie) (q : Nat) : (s.noteLinked t).queue q = s.queue q := rfl

/-- Where no packet has been linked in this instant, one that its queue does not spill goes to the queue's tail. -/
theorem queue_link_of_untied (hspill : s.mustSpill k.queue k.len = false) (htie : ∀ e ∈ s.qm.linked, e.time ≠ s.time.elapsed) (q : Nat) :
    (s.link k order domain).queue q =
      if q = k.queue then { s.queue q with pkts := (s.queue q).pkts ++ [k] } else s.queue q := by
  have huntied : ∀ (p : QPkt) (t : LinkTie), t.time = s.time.elapsed →
      s.qm.linked.any (fun e => e.addr == none && e.desc == p.desc && e.follows t) = false := fun p t ht =>
    List.any_eq_false.2 fun e he => by simp [LinkTie.follows, ht, htie e he]
  unfold State.link
  dsimp only
  rw [if_neg (ne_true_of_eq_false hspill), queue_noteLinked, State.queue_modQueue]
  split
  · next hq =>
    subst hq
    rw [insertTied_of_untied fun p => huntied p _ rfl]
  · rfl

theorem queue_averaged (s : State) (q : Nat) : ((s.averaged q).queue q).pkts = (s.queue q).pkts ∧ ((s.averaged q).queue q).spilled = (s.queue q).spilled := by
  rw [State.averaged, State.queue_modQueue_same]
  exact ⟨rfl, rfl⟩

theorem queue_averaged_other (s : State) {q n : Nat} (h : n ≠ q) : (s.averaged q).queue n = s.queue n :=
  (State.queue_modQueue _ _ _ _).trans (if_neg h)

theorem mustSpill_averaged_of_takes {q len : Nat} (h : takesWhole s q len) : (s.averaged q).mustSpill q len = false := by
  obtain ⟨-, -, hspilled, -, -, -, -, hnospill⟩ := h
  obtain ⟨-, hkept⟩ := queue_averaged s q
  have hprofile : fld ((s.averaged q).profileOf q) 31 31 = 0 := hnospill
  simp [State.mustSpill, hkept, hspilled, hprofile]

theorem queue_enqueue_of_takes (h : takesWhole s k.queue k.len) :
    ((s.enqueue k order domain).queue k.queue).pkts = (s.queue k.queue).pkts ++ [k] ∧
      ∀ n, n ≠ k.queue → (s.enqueue k order domain).queue n = s.queue n := by
  obtain ⟨-, -, -, htie, -⟩ := id h
  have hlink := queue_link_of_untied (order := order) (domain := domain) (mustSpill_averaged_of_takes h) htie
  rw [enqueue_of_takes h]
  refine ⟨?_, fun n hn => ?_⟩
  · rw [hlink, if_pos rfl, (queue_averaged s k.queue).1]
  · rw [hlink, if_neg hn, queue_averaged_other s hn]

theorem pools_enqueue_of_takes (h : takesWhole s k.queue k.len) : (s.enqueue k order domain).pools = s.pools := by
  rw [enqueue_of_takes h, State.link, if_neg (ne_true_of_eq_false (mustSpill_averaged_of_takes h))]
  simp only [pools_noteLinked, State.modQueue_pools, State.averaged]

end

/-! ### Hand-over (R226, R301) -/

/-- The state from which a hand-over is judged: the message has been taken, and is counted. -/
def State.handedOver (s : State) : State := (s.taken 26 36).count (src 36 0) 0x10

theorem l0Of_handedOver (s : State) (q : Nat) : s.handedOver.l0Of q = s.l0Of q := rfl

theorem exec_qmHandover (s : State) : exec .qmHandover s = answer s.qmHandover := rfl

/-- The packet that a hand-over's commit word gives its queue. -/
def State.handedPkt (s : State) (d : Nat) (word : W64) : QPkt :=
  { desc := d, len := (s.desc d).editedLen.toNat, queue := word.toNat % 2 ^ 18, word := word }

theorem opKind_eq (op : BitVec 3) : opKind op = if op = 0 then 0 else if op = 2 then 1 else 2 := by
  revert op
  decide

theorem rebase_of_plain {d : Desc} {word : W64} (h : bits word.toNat 63 62 ≠ 2) : rebase d word = word := if_pos h

theorem desc_takeEdits (s : State) (d : Nat) : (s.takeEdits d).2.desc d = { s.desc d with
    trim := some (s.desc d).kept
    metaw := BitVec.ofNat 64 ((s.desc d).metaw.toNat / 16384 * 16384 + (s.desc d).editedLen.toNat % 16384) } := State.desc_modDesc_same _ _ _

/-- LENGTH of a metadata word (R69) in which it has been written. -/
theorem bits_metaw_of_length (m len : Nat) : bits (BitVec.ofNat 64 (m / 16384 * 16384 + len % 16384)).toNat 13 0 = len % 16384 := by
  simp only [bits, BitVec.toNat_ofNat, Nat.shiftRight_zero]
  omega

/-- A packet whose edits have been taken is freed with the cells it had. -/
theorem packetFreed_of_takeEdits {s u : State} {d : Nat} (h : packetFreed (s.handedOver.takeEdits d).2 u d) : packetFreed s u d := by
  obtain ⟨hst, hgen, hfreed⟩ := h
  rw [desc_takeEdits] at hgen hfreed
  exact ⟨hst, hgen, hfreed⟩

section
variable {s : State} {r d tag domain : Nat} {op : BitVec 3} {word : W64} {master : BitVec 16}
  (harrive : s.arrive 26 36 = some (.handover r d op word tag master domain))
include harrive

theorem exec_qmHandover_of_misfit (hkind : l0Kind (s.l0Of (word.toNat % 2 ^ 18)) ≠ opKind op) : exec .qmHandover s =
    answer ((s.handedOver.raise (src 36 0) 0x98 { master := master.toNat }).dropQueued (word.toNat % 2 ^ 18) d 0x14) := by
  rw [exec_qmHandover, State.qmHandover, harrive]
  dsimp only
  rw [← State.handedOver, l0Of_handedOver, if_pos hkind]

theorem exec_qmHandover_of_fit (hkind : l0Kind (s.l0Of (word.toNat % 2 ^ 18)) = opKind op) : exec .qmHandover s =
    answer ((s.handedOver.takeEdits d).2.enqueue { s.handedPkt d word with word := rebase (s.desc d) word } r (some domain)) := by
  rw [exec_qmHandover, State.qmHandover, harrive]
  dsimp only
  rw [← State.handedOver, l0Of_handedOver, if_neg (not_not.2 hkind)]
  rfl

/-- A hand-over to a queue of another kind of port: the packet is freed and reported. -/
theorem givesSome_qmHandover_misfit (hkind : l0Kind (s.l0Of (word.toNat % 2 ^ 18)) ≠ opKind op) : givesSome .qmHandover s (fun u =>
    packetFreed s u d ∧ u.qm = s.qm ∧ reported s u (64 * 36) 0x98 { master := master.toNat }) := by
  have hraised := reported_raise s.handedOver (source := src 36 0) 0x98 { master := master.toNat } (by decide)
  refine ⟨_, exec_qmHandover_of_misfit harrive hkind, packetFreed_congr (packetFreed_dropQueued _ _ d _) ?_ rfl, ?_, ?_⟩
  · simp [State.handedOver]
  · simp [State.handedOver]
  · exact reported_congr hraised rfl rfl (by simp)

/-- A hand-over that its queue takes is linked at the tail, with its edited length in its metadata. -/
theorem givesSome_qmHandover_taken (hkind : l0Kind (s.l0Of (word.toNat % 2 ^ 18)) = opKind op) (hword : bits word.toNat 63 62 ≠ 2)
    (htakes : takesWhole s (word.toNat % 2 ^ 18) (s.desc d).editedLen.toNat) : givesSome .qmHandover s (fun u =>
      (u.queue (word.toNat % 2 ^ 18)).pkts = (s.queue (word.toNat % 2 ^ 18)).pkts ++ [s.handedPkt d word]
        ∧ (∀ k, k ≠ word.toNat % 2 ^ 18 → u.queue k = s.queue k)
        ∧ bits (u.desc d).metaw.toNat 13 0 = (s.desc d).editedLen.toNat % 16384 ∧ (u.desc d).cells = (s.desc d).cells) := by
  have hpkt : ({ s.handedPkt d word with word := rebase (s.desc d) word } : QPkt) = s.handedPkt d word := by
    rw [rebase_of_plain hword]
    rfl
  have hexec := exec_qmHandover_of_fit harrive hkind
  rw [hpkt] at hexec
  have htaken : takesWhole (s.handedOver.takeEdits d).2 (s.handedPkt d word).queue (s.handedPkt d word).len := htakes
  obtain ⟨hpkts, hothers⟩ := queue_enqueue_of_takes (order := r) (domain := some domain) htaken
  have hdesc := desc_of_pools (pools_enqueue_of_takes (order := r) (domain := some domain) htaken) d
  rw [desc_takeEdits] at hdesc
  refine ⟨_, hexec, ?_, fun k hk => ?_, ?_, ?_⟩
  · rw [State.queue_after_watch]
    exact hpkts
  · rw [State.queue_after_watch]
    exact hothers k hk
  · rw [State.desc_after_watch]
    exact (congrArg (fun k : Desc => bits k.metaw.toNat 13 0) hdesc).trans (bits_metaw_of_length _ _)
  · rw [State.desc_after_watch]
    exact (congrArg Desc.cells hdesc).trans rfl

/-- A hand-over that its queue discards: the packet is freed, and no queue has another packet. -/
theorem givesSome_qmHandover_dropped {v : State} (hkind : l0Kind (s.l0Of (word.toNat % 2 ^ 18)) = opKind op)
    (hdrop : (s.handedOver.takeEdits d).2.enqueue { s.handedPkt d word with word := rebase (s.desc d) word } r (some domain) =
      v.dropQueued (word.toNat % 2 ^ 18) d 0x11)
    (hpools : v.pools = (s.handedOver.takeEdits d).2.pools) (hpkts : (v.queue (word.toNat % 2 ^ 18)).pkts = (s.queue (word.toNat % 2 ^ 18)).pkts)
    (hothers : ∀ k, k ≠ word.toNat % 2 ^ 18 → v.queue k = s.queue k) : givesSome .qmHandover s (fun u => packetFreed s u d ∧
      (u.queue (word.toNat % 2 ^ 18)).pkts = (s.queue (word.toNat % 2 ^ 18)).pkts ∧ ∀ k, k ≠ word.toNat % 2 ^ 18 → u.queue k = s.queue k) := by
  have hqueue : ∀ k, ((v.dropQueued (word.toNat % 2 ^ 18) d 0x11).watch).queue k = v.queue k := fun k => by
    rw [State.queue_after_watch, queue_dropQueued]
  refine ⟨_, (exec_qmHandover_of_fit harrive hkind).trans (congrArg answer hdrop), ?_, ?_, fun k hk => ?_⟩
  · exact packetFreed_of_takeEdits (packetFreed_congr (packetFreed_dropQueued v _ d _) hpools rfl)
  · rw [hqueue, hpkts]
  · rw [hqueue, hothers k hk]

end

theorem handoversAreAdmittedAndLinked : Claims.HandoversAreAdmittedAndLinked := by
  unfold Claims.HandoversAreAdmittedAndLinked
  intro s r d tag domain op word master harrive
  rw [← opKind_eq]
  refine ⟨givesSome_qmHandover_misfit harrive, givesSome_qmHandover_taken harrive, fun hkind hbad hrun hfull => ?_, fun hkind hstop => ?_⟩
  · refine givesSome_qmHandover_dropped harrive hkind (enqueue_of_full hbad hrun hfull) ?_ (queue_averaged _ _).1 fun k hk => queue_averaged_other _ hk
    rw [State.averaged, State.modQueue_pools]
  · exact givesSome_qmHandover_dropped harrive hkind (enqueue_of_stopped hstop) rfl rfl fun _ _ => rfl

end Sys2Proof.Machine
end

section
/-! The choice of a port: it takes the head of one queue at most, and what it takes goes to the port (R307 to R311). -/

namespace Sys2Proof.Machine

open Sys2Proof.Claims

/-! ### What credit, descent and charge leave alone (R307 to R309) -/

/-- The state without what the egress tree keeps of its children and its pointers. -/
def State.offTree (s : State) : State := { s with qm := { s.qm with child := [], ptr := [] } }

theorem State.offTree_queues {a b : State} (h : a.offTree = b.offTree) : a.qm.queue = b.qm.queue := by
  have := congrArg (·.qm.queue) h
  exact this

theorem State.offTree_ports {a b : State} (h : a.offTree = b.offTree) : a.ports = b.ports := by
  have := congrArg State.ports h
  exact this

theorem State.offTree_l0Free {a b : State} (h : a.offTree = b.offTree) (p : Nat) : a.l0Free p = b.l0Free p := by
  have := congrArg (State.l0Free · p) h
  exact this

theorem State.offTree_leafFree {a b : State} (h : a.offTree = b.offTree) (p q : Nat) : a.leafFree p q = b.leafFree p q := by
  have := congrArg (State.leafFree · p q) h
  exact this

theorem State.offTree_pathOf {a b : State} (h : a.offTree = b.offTree) (q : Nat) : a.pathOf q = b.pathOf q := by
  have := congrArg (State.pathOf · q) h
  exact this

theorem State.offTree_l0Of {a b : State} (h : a.offTree = b.offTree) (q : Nat) : a.l0Of q = b.l0Of q := by
  have := congrArg (State.l0Of · q) h
  exact this

theorem State.offTree_peakRate {a b : State} (h : a.offTree = b.offTree) (l n : Nat) : a.peakRate l n = b.peakRate l n := by
  have := congrArg (State.peakRate · l n) h
  exact this

theorem State.offTree_commRate {a b : State} (h : a.offTree = b.offTree) (l n : Nat) : a.commRate l n = b.commRate l n := by
  have := congrArg (State.commRate · l n) h
  exact this

@[simp] theorem State.offTree_modChild (s : State) (lvl n : Nat) (f : Child → Child) : (s.modChild lvl n f).offTree = s.offTree := rfl

@[simp] theorem State.offTree_creditNode (s : State) (lvl n : Nat) : (s.creditNode lvl n).offTree = s.offTree := rfl

theorem State.offTree_creditPort (s : State) (p : Nat) : (s.creditPort p).offTree = s.offTree :=
  foldl_keeps State.offTree _ (fun t _ => foldl_keeps State.offTree _ (fun u n => u.offTree_creditNode _ n) _ t) _ _

theorem State.offTree_charge (s : State) (p : Nat) (path : List (Nat × Nat)) (len : Int) : (s.charge p path len).offTree = s.offTree :=
  foldl_keeps State.offTree _ (fun t _ => t.offTree_modChild _ _ _) _ _

theorem State.offTree_clearEmpty (s : State) (path : List Nat) : (s.clearEmpty path).offTree = s.offTree := by
  refine foldl_keeps State.offTree _ (fun t e => ?_) _ s
  split <;> rfl

theorem State.offTree_dwrr {lvl n ph p : Nat} {set : List Nat} (f : Nat) : ∀ {s u : State} {c : Nat},
    State.dwrr lvl n ph p set f s = some (c, u) → u.offTree = s.offTree := by
  induction f with
  | zero => intro s u c h; exact absurd h (by simp [State.dwrr])
  | succ f ih =>
    intro s u c h
    unfold State.dwrr at h
    dsimp only at h
    split at h
    next => exact absurd h (by simp)
    next =>
      split at h
      next =>
        obtain ⟨-, rfl⟩ := Prod.mk.inj (Option.some.inj h)
        rfl
      next => exact (ih h).trans rfl

theorem State.offTree_chooseChild {s u : State} {lvl n c ph : Nat} {set : List Nat} (h : s.chooseChild lvl n set = some (c, ph, u)) :
    u.offTree = s.offTree := by
  have hchosen : ∀ {ph' p f : Nat} {l : List Nat}, (State.dwrr lvl n ph' p l f s).map (fun r => (r.1, ph', r.2)) = some (c, ph, u) →
      u.offTree = s.offTree := fun heq => by
    obtain ⟨⟨c', v⟩, hdwrr, heq⟩ := Option.map_eq_some_iff.1 heq
    obtain ⟨-, htail⟩ := Prod.mk.inj heq
    obtain ⟨-, rfl⟩ := Prod.mk.inj htail
    exact State.offTree_dwrr _ hdwrr
  unfold State.chooseChild at h
  dsimp only at h
  split at h
  next => exact hchosen h
  next =>
    split at h
    next => exact absurd h (by simp)
    next => exact hchosen h

theorem State.offTree_descend (f : Nat) : ∀ {lvl n : Nat} {paths : List (List Nat)} {s u : State} {l : List (Nat × Nat)},
    State.descend f lvl n paths s = some (l, u) → u.offTree = s.offTree := by
  induction f with
  | zero =>
    intro lvl n paths s u l h
    obtain ⟨-, rfl⟩ := Prod.mk.inj (Option.some.inj h)
    rfl
  | succ f ih =>
    intro lvl n paths s u l h
    unfold State.descend at h
    split at h
    next => exact absurd h (by simp)
    next c ph t hchoose =>
      obtain ⟨⟨l', v⟩, hrest, heq⟩ := Option.map_eq_some_iff.1 h
      obtain ⟨-, rfl⟩ := Prod.mk.inj heq
      exact (ih hrest).trans (State.offTree_chooseChild hchoose)

/-! ### What a choice takes (R310, R320) -/

/-- What a queue holds, on-chip and spilled. -/
def State.holds (s : State) (q : Nat) : List QPkt × List Spilled := ((s.queue q).pkts, (s.queue q).spilled)

theorem holds_queueEcc (s : State) (q m a : Nat) : (s.queueEcc q m a).holds = s.holds := by
  funext k
  unfold State.queueEcc
  split
  · simp only [State.holds, State.queue_after_raise, State.queue_modQueue]
    split
    next h => rw [h]
    next => rfl
  · rfl

theorem holds_congr {s u : State} (h : u.qm.queue = s.qm.queue) (q : Nat) : u.holds q = s.holds q := by
  rw [State.holds, State.holds, queue_congr h]

theorem deliver_queues (s : State) (p : Nat) (k : QPkt) : (s.deliver p k).qm.queue = s.qm.queue := by
  unfold State.deliver
  dsimp only
  split
  · simp
  · split
    · rfl
    · split
      · split <;> simp [State.poisonDrop, State.dropQueued, State.countDrop, State.countQueue]
      · split
        · split <;> simp
        · split <;> simp [State.poisonDrop, State.dropQueued, State.countDrop, State.countQueue]

/-- The state in which a port's choice is made: damaged queues have stopped, and the buckets are credited. -/
def State.credited (s : State) (p : Nat) : State := ((s.heldQueues.filter (fun q => s.l0Of q == p)).foldl (fun s q => s.queueEcc q) s).creditPort p

theorem holds_credited (s : State) (p : Nat) : (s.credited p).holds = s.holds := by
  refine Eq.trans (funext fun q => holds_congr (State.offTree_queues (State.offTree_creditPort _ p)) q) ?_
  exact foldl_keeps State.holds _ (fun t q => holds_queueEcc t q _ _) _ s

/-- Queue `q` holds `rest` alone on-chip, and the length of the packet taken is charged along `path`. -/
def State.charged (s : State) (p q : Nat) (path : List (Nat × Nat)) (rest : List QPkt) (len : Int) : State :=
  ((((s.charge p path len).modQueue q (fun x => { x with pkts := rest })).clearEmpty (path.map (·.1))).countQueue 0x20 q).countQueue 0x21 q len.toNat

/-- The port takes packet `k` from the front of queue `q` along `path`, where `rest` stands behind it. -/
def State.takeHead (s : State) (p q : Nat) (path : List (Nat × Nat)) (k : QPkt) (rest : List QPkt) : State :=
  (s.charged p q path rest (s.shaped p k)).deliver p k

/-- A choice takes nothing from the state it is made in, or the first packet of one queue. -/
theorem schedChoice_cases (s : State) (p : Nat) : (s.schedChoice p).holds = s.holds ∨
    ∃ (u : State) (path : List (Nat × Nat)) (q : Nat) (k : QPkt) (rest : List QPkt), u.offTree = (s.credited p).offTree ∧
      (u.queue q).pkts = k :: rest ∧ s.schedChoice p = u.takeHead p q path k rest := by
  unfold State.schedChoice
  dsimp only
  rw [← State.credited]
  split
  · exact .inl (holds_credited s p)
  · split
    next => exact .inl (holds_credited s p)
    next path u hdescend =>
      have hoff : u.offTree = (s.credited p).offTree := State.offTree_descend _ hdescend
      split
      next =>
        refine .inl (Eq.trans (funext fun q => holds_congr (State.offTree_queues hoff) q) (holds_credited s p))
      next k rest hpkts => exact .inr ⟨u, path, _, k, rest, hoff, hpkts, rfl⟩

theorem holds_charged (s : State) (p q : Nat) (path : List (Nat × Nat)) (rest : List QPkt) (len : Int) (n : Nat) :
    (s.charged p q path rest len).holds n = if n = q then (rest, (s.queue q).spilled) else s.holds n := by
  simp only [State.charged, State.holds, State.countQueue, State.queue_after_count, queue_clearEmpty, State.queue_modQueue,
    queue_congr (State.offTree_queues (State.offTree_charge s p path len))]
  split
  · rfl
  · rfl

theorem holds_takeHead (s : State) (p q : Nat) (path : List (Nat × Nat)) (k : QPkt) (rest : List QPkt) (n : Nat) :
    (s.takeHead p q path k rest).holds n = if n = q then (rest, (s.queue q).spilled) else s.holds n :=
  (holds_congr (deliver_queues _ p k) n).trans (holds_charged s p q path rest _ n)

theorem ports_charged (s : State) (p q : Nat) (path : List (Nat × Nat)) (rest : List QPkt) (len : Int) :
    (s.charged p q path rest len).ports = s.ports := by
  rw [State.charged, State.countQueue, State.count_ports, State.countQueue, State.count_ports, State.offTree_ports (State.offTree_clearEmpty _ _),
    State.modQueue_ports, State.offTree_ports (State.offTree_charge s p path len)]

/-- A choice leaves what every queue holds but one, which loses its first packet at most. -/
theorem holds_schedChoice (s : State) (p : Nat) : ∃ q, (∀ k, k ≠ q → (s.schedChoice p).holds k = s.holds k) ∧
    (((s.schedChoice p).queue q).pkts = (s.queue q).pkts ∨ ∃ k, (s.queue q).pkts = k :: ((s.schedChoice p).queue q).pkts) := by
  rcases schedChoice_cases s p with hkept | ⟨u, path, q, k, rest, hoff, hpkts, heq⟩
  · exact ⟨0, fun k _ => congrFun hkept k, .inl (congrArg Prod.fst (congrFun hkept 0))⟩
  · have hu : u.holds = s.holds := Eq.trans (funext fun q => holds_congr (State.offTree_queues hoff) q) (holds_credited s p)
    have htaken := holds_takeHead u p q path k rest
    rw [← heq] at htaken
    have hfirst : (s.queue q).pkts = k :: rest := (congrArg Prod.fst (congrFun hu q)).symm.trans hpkts
    have hleft : ((s.schedChoice p).queue q).pkts = rest := congrArg Prod.fst ((htaken q).trans (if_pos rfl))
    exact ⟨q, fun n hn => by rw [htaken, if_neg hn, hu], .inr ⟨k, by rw [hfirst, hleft]⟩⟩

theorem exec_schedChoice (p : Nat) (s : State) :
    exec (.schedChoice p) s = answer (if p < 44 && s.up 36 then s.schedChoice p else s) := rfl

theorem schedChoice_takes_at_most_one_head (s t : State) (p : Nat) (h : exec (.schedChoice p) s = .next t) : ∃ q,
    (∀ k, k ≠ q → (t.queue k).pkts = (s.queue k).pkts ∧ (t.queue k).spilled = (s.queue k).spilled) ∧
    ((t.queue q).pkts = (s.queue q).pkts ∨ ∃ k, (s.queue q).pkts = k :: (t.queue q).pkts) := by
  rw [exec_schedChoice] at h
  obtain rfl := Host.Outcome.next.inj h
  simp only [State.queue_after_watch]
  split
  · obtain ⟨q, hothers, htaken⟩ := holds_schedChoice s p
    exact ⟨q, fun k hk => Prod.mk.inj (hothers k hk), htaken⟩
  · exact ⟨0, fun _ _ => ⟨rfl, rfl⟩, .inl rfl⟩

/-! ### The one queue of a port that nothing shapes (R307, R310) -/

section
variable {s : State} {lvl n : Nat}

/-- A child whose deficit is positive is served at its turn. -/
theorem dwrr_of_positive {ph p c f : Nat} (h : 0 < (s.child (lvl + 1) c).dc ph) : State.dwrr lvl n ph p [c] (f + 1) s = some (c, s) := by
  have hturn : ∀ q : Nat → Bool, (([c].find? q).or [c].head?) = some c := fun q => by cases hq : q c <;> simp [hq]
  unfold State.dwrr
  dsimp only
  rw [hturn]
  exact if_pos h

theorem chooseChild_of_only {c : Nat} (hcomm : s.commRate (lvl + 1) c = 0) (hdc : 0 < (s.child (lvl + 1) c).dcE) :
    s.chooseChild lvl n [c] = some (c, 1, s) := by
  have hfuel : ∃ f, s.dwrrFuel lvl 1 [c] = f + 1 := ⟨_, Nat.succ_pred_eq_of_pos (by unfold State.dwrrFuel; positivity) |>.symm⟩
  obtain ⟨f, hf⟩ := hfuel
  simp [State.chooseChild, hcomm, hf, dwrr_of_positive (show 0 < (s.child (lvl + 1) c).dc 1 from hdc)]

/-- The descent follows the one path there is, in the excess phase. -/
theorem descend_of_only (path : List Nat) : ∀ {lvl n : Nat}, (∀ e ∈ path.zipIdx (lvl + 1), s.commRate e.2 e.1 = 0 ∧ 0 < (s.child e.2 e.1).dcE) →
    State.descend path.length lvl n [path] s = some (path.map (·, 1), s) := by
  induction path with
  | nil => intro lvl n _; rfl
  | cons c path ih =>
    intro lvl n h
    obtain ⟨hc, hrest⟩ := List.forall_mem_cons.1 h
    have hchoose : s.chooseChild lvl n (headsOf [c :: path]) = some (c, 1, s) := chooseChild_of_only hc.1 hc.2
    rw [List.length_cons, State.descend, hchoose]
    simp [ih hrest]

end

/-- Credit leaves a child's deficits. -/
theorem dcE_creditPort (s : State) (p lvl n : Nat) : ((s.creditPort p).child lvl n).dcE = (s.child lvl n).dcE := by
  have hnode : ∀ (t : State) (l k : Nat), ((t.creditNode l k).child lvl n).dcE = (t.child lvl n).dcE := fun t l k => by
    rw [State.creditNode, State.child_modChild]
    split
    next h => rw [State.child, State.child, h]
    next => rfl
  refine (foldl_keeps (fun t : State => (t.child lvl n).dcE) _ (fun t i => ?_) _ _).trans (hnode s 0 p)
  exact foldl_keeps (fun t : State => (t.child lvl n).dcE) _ (fun u k => hnode u _ k) _ t

theorem peakOk_of_unshaped {s : State} {lvl n : Nat} (h : s.peakRate lvl n = 0) : s.peakOk lvl n = true := by simp [State.peakOk, h]

section
variable {s : State} {p q : Nat} {k : QPkt} {rest : List QPkt} (hp : p < 40) (hheld : s.heldQueues = [q]) (hport : s.l0Of q = p)
  (hbad : (s.queue q).bad = false) (hpkts : (s.queue q).pkts = k :: rest) (hleaf : s.leafFree p q = true) (hfree : s.l0Free p = true)
  (hpeak : s.peakRate 0 p = 0) (hrates : ∀ e ∈ (s.pathOf q).zipIdx, s.peakRate (e.2 + 1) e.1 = 0 ∧ s.commRate (e.2 + 1) e.1 = 0)
  (hdc : ∀ e ∈ (s.pathOf q).zipIdx, 0 < (s.child (e.2 + 1) e.1).dcE)

include hheld hport hbad in
/-- The one queue that holds a packet is read whole, and its path is credited. -/
theorem credited_of_only : s.credited p = s.creditPort p := by
  simp [State.credited, hheld, hport, queueEcc_of_read (.inl hbad)]

include hheld hport hleaf hrates in
/-- The path of the one queue is what the port may choose from. -/
theorem eligible_of_only {v : State} (hv : v.offTree = s.offTree) : v.eligible p = [s.pathOf q] := by
  have hv' : v.heldQueues = [q] := by rw [← hheld, State.heldQueues, State.offTree_queues hv, State.heldQueues]
  have hpeaks : ∀ e ∈ ((s.pathOf q).take 3).zipIdx, v.peakOk (e.2 + 1) e.1 = true := fun e he => by
    refine peakOk_of_unshaped ((State.offTree_peakRate hv _ _).trans (hrates e ?_).1)
    exact List.mem_of_mem_take (show e ∈ (s.pathOf q).zipIdx.take 3 from he)
  simp [State.eligible, hv', State.offTree_l0Of hv, hport, State.offTree_leafFree hv, hleaf, State.offTree_pathOf hv, List.all_eq_true.2 hpeaks]

include hp hheld hport hbad hpkts hleaf hfree hpeak hrates hdc in
theorem schedChoice_of_only : s.schedChoice p = (s.creditPort p).takeHead p q ((s.pathOf q).map (·, 1)) k rest := by
  have hv := s.offTree_creditPort p
  have hcredited := credited_of_only hheld hport hbad
  have heligible := eligible_of_only hheld hport hleaf hrates hv
  have hdescend : State.descend 4 0 p [s.pathOf q] (s.creditPort p) = some ((s.pathOf q).map (·, 1), s.creditPort p) := by
    refine descend_of_only (s.pathOf q) fun e he => ?_
    rw [List.zipIdx_succ] at he
    obtain ⟨⟨c, i⟩, hmem, rfl⟩ := List.mem_map.1 he
    exact ⟨(State.offTree_commRate hv _ _).trans (hrates _ hmem).2, lt_of_lt_of_eq (hdc _ hmem) (dcE_creditPort s p _ _).symm⟩
  have hyields : (s.creditPort p).sinkYields p = false := by simp [State.sinkYields, beq_false_of_ne (show p ≠ 43 by omega)]
  have hlast : (((s.pathOf q).map (·, 1)).getLast?.map (·.1)).getD 0 = q := rfl
  have hqueue : ((s.creditPort p).queue q).pkts = k :: rest := by rw [queue_congr (State.offTree_queues hv), hpkts]
  unfold State.schedChoice
  dsimp only
  rw [← State.credited, hcredited, State.offTree_l0Free hv, hfree, peakOk_of_unshaped ((State.offTree_peakRate hv _ _).trans hpeak), hyields,
    heligible, hdescend]
  dsimp only
  rw [hlast, hqueue]
  rfl

end

theorem port_deliver {s : State} {p : Nat} {k : QPkt} (hp : p < 40) (n : Nat) :
    (s.deliver p k).port n = if n = p then { s.port p with txAhead := (s.port p).txAhead ++ [k] } else s.port n := by
  rw [State.deliver, if_pos hp, State.port_modPort]

/-- A port takes what it is delivered, and no other port has changed. -/
theorem port_takeHead {s : State} {p : Nat} (hp : p < 40) (q : Nat) (path : List (Nat × Nat)) (k : QPkt) (rest : List QPkt) (n : Nat) :
    (s.takeHead p q path k rest).port n = if n = p then { s.port p with txAhead := (s.port p).txAhead ++ [k] } else s.port n := by
  have hports : ∀ m, (s.charged p q path rest (s.shaped p k)).port m = s.port m := fun m => by rw [State.port, State.port, ports_charged]
  rw [State.takeHead, port_deliver hp, hports, hports]

theorem schedulingTakesQueueHeads : Claims.SchedulingTakesQueueHeads := by
  unfold Claims.SchedulingTakesQueueHeads
  refine ⟨schedChoice_takes_at_most_one_head, fun s p q k rest hp hup hheld hport hbad hpkts hleaf hfree hpeak hrates hdc => ?_⟩
  have hrun : (decide (p < 44) && s.up 36) = true := by simp [hup, show p < 44 by omega]
  have hexec := exec_schedChoice p s
  rw [if_pos hrun, schedChoice_of_only hp hheld hport hbad hpkts hleaf hfree hpeak hrates hdc] at hexec
  have hportOf : ∀ n, (s.creditPort p).port n = s.port n := fun n => by
    rw [State.port, State.port, State.offTree_ports (s.offTree_creditPort p)]
  refine ⟨_, hexec, ?_, ?_, fun j hj => ?_⟩
  · rw [State.queue_after_watch]
    exact congrArg Prod.fst ((holds_takeHead _ p q _ k rest q).trans (if_pos rfl))
  · rw [State.port_after_watch, port_takeHead hp, if_pos rfl, hportOf]
  · rw [State.port_after_watch, port_takeHead hp, if_neg hj, hportOf]

/-- Settles O35: a hand-over goes one of the ways of `exec_qmHandover_of_fit`, a choice is `State.takeHead` of one queue, a bucket by its credit. -/
theorem queuesAdmitScheduleAndShape : Obligations.QueuesAdmitScheduleAndShape :=
  ⟨handoversAreAdmittedAndLinked, schedulingTakesQueueHeads, bucketsCreditTheirRate⟩

end Sys2Proof.Machine
end

section
/-! Reads of a table's rows and lines that meet no uncorrectable word: what they leave alone, and what a lookup finds (R217, R241, R244 to R246). -/

namespace Sys2Proof.Machine

open Sys2Proof.Claims

/-! ### What reads leave alone -/

/-- The state without what a sound read changes: event counts, free draws and the requests that DRAM channels hold. -/
def State.unread (s : State) : State := { s with obs := {}, fresh := 0, dram := { s.dram with chan := [] } }

/-- The visible candidates of a key in an EXACT table: their tags agree with the key's. -/
def State.tagged (s : State) (x : TStruct) (a : Nat) (key : List Byte) : List TEntry :=
  s.latestFirst ((s.bucketsOf x key).filter (fun e =>
    s.visible a e && tagOf x.desc (x.logOf e.bucket) e.way e.key == tagOf x.desc (x.logOf e.bucket) e.way key))

/-- The visible entries of a key in an EXT table. -/
def State.keyed (s : State) (x : TStruct) (a : Nat) (key : List Byte) : List TEntry :=
  s.latestFirst ((s.bucketsOf x key).filter (fun e => s.visible a e && e.key == key))

section
variable {a b : State} (h : a.unread = b.unread)
include h

theorem State.unread_tables : a.tables = b.tables := by
  have := congrArg State.tables h
  exact this

theorem State.unread_clusters : a.clusters = b.clusters := by
  have := congrArg State.clusters h
  exact this

theorem State.unread_visible (t : Nat) (e : TEntry) : a.visible t e = b.visible t e := by
  have := congrArg (State.visible · t e) h
  exact this

theorem State.unread_tdesc (t num : Nat) : a.tdesc t num = b.tdesc t num := by
  have := congrArg (State.tdesc · t num) h
  exact this

theorem State.unread_struct (num : Nat) (d : ObjWord) : a.struct num d = b.struct num d := by
  have := congrArg (State.struct · num d) h
  exact this

theorem State.unread_roomFor (x : TStruct) (key : List Byte) : a.roomFor x key = b.roomFor x key := by
  have := congrArg (State.roomFor · x key) h
  exact this

theorem State.unread_staged : a.accord.staged = b.accord.staged := by
  have := congrArg (·.accord.staged) h
  exact this

theorem State.unread_time : a.time = b.time := by
  have := congrArg State.time h
  exact this

theorem State.unread_latestFirst (l : List TEntry) : a.latestFirst l = b.latestFirst l := by
  have := congrArg (State.latestFirst · l) h
  exact this

theorem State.unread_bucketsOf (x : TStruct) (key : List Byte) : a.bucketsOf x key = b.bucketsOf x key := by
  have := congrArg (State.bucketsOf · x key) h
  exact this

theorem State.unread_candidates (x : TStruct) (t : Nat) (key : List Byte) : a.tagged x t key = b.tagged x t key := by
  have := congrArg (State.tagged · x t key) h
  exact this

theorem State.unread_keyed (x : TStruct) (t : Nat) (key : List Byte) : a.keyed x t key = b.keyed x t key := by
  have := congrArg (State.keyed · x t key) h
  exact this

theorem State.unread_rootOf (x : TStruct) (t : Nat) : a.rootOf x t = b.rootOf x t := by
  have := congrArg (State.rootOf · x t) h
  exact this

theorem State.unread_bestRule (l : List TEntry) : a.bestRule l = b.bestRule l := by
  have := congrArg (State.bestRule · l) h
  exact this

theorem State.unread_defaultResult (t num : Nat) : a.defaultResult t num = b.defaultResult t num := by
  have := congrArg (State.defaultResult · t num) h
  exact this

end

@[simp] theorem State.unread_count (s : State) (u e n : Nat) : (s.count u e n).unread = s.unread := rfl

/-! ### Rows (R251) -/

theorem State.unread_drawn (s : State) (n : Nat) : State.unread { s with fresh := n } = s.unread := rfl

theorem State.unread_bad {a b : State} (h : a.unread = b.unread) (hbad : b.tables.bad = []) : a.tables.bad = [] := by rw [State.unread_tables h, hbad]

theorem readRow_of_sound {s : State} (hbad : s.tables.bad = []) (b : By) (bank row : Nat) :
    ∃ v, v.unread = s.unread ∧ s.readRow b bank row = (false, v) := by
  have hrow : (s.count (bankSrc (s.physBank bank)) b.ev).badRow bank row = false := by simp [State.badRow, hbad]
  refine ⟨_, s.unread_count (bankSrc (s.physBank bank)) b.ev 1, ?_⟩
  unfold State.readRow
  dsimp only
  rw [hrow, if_neg Bool.false_ne_true]

/-- What a lookup is told of the result it has found, if any. -/
def lookOf : Option (List Byte) → Look
  | some r => .found r
  | none => .miss

/-- Sound slot rows are read until one holds the key. -/
theorem readCandidates_of_sound (b : By) (d : ObjWord) (key : List Byte) (l : List TEntry) : ∀ {s : State}, s.tables.bad = [] →
    ∃ v, v.unread = s.unread ∧ State.readCandidates b d key l s = (lookOf ((l.find? (fun e => e.key == key)).map (·.result)), v) := by
  induction l with
  | nil => exact fun {s} _ => ⟨s, rfl, rfl⟩
  | cons e t ih =>
    intro s hbad
    obtain ⟨v, hv, hread⟩ := readRow_of_sound hbad b (slotRow d e).1 (slotRow d e).2
    unfold State.readCandidates
    dsimp only
    rw [hread]
    dsimp only
    rw [if_neg Bool.false_ne_true]
    by_cases hkey : e.key = key
    · rw [if_pos hkey, List.find?_cons_of_pos (by simp [hkey])]
      exact ⟨v, hv, rfl⟩
    · have hcount := v.unread_count (bankSrc (v.physBank (slotRow d e).1)) 0x14 1
      obtain ⟨w, hw, heq⟩ := ih (State.unread_bad (hcount.trans hv) hbad)
      rw [if_neg hkey, List.find?_cons_of_neg (by simp [hkey]), heq]
      exact ⟨w, hw.trans (hcount.trans hv), rfl⟩

/-- Sound rows of a table of prefixes or rules are read. -/
theorem readSome_of_sound (b : By) (d : ObjWord) (n : Nat) : ∀ {s : State}, s.tables.bad = [] →
    ∃ v, v.unread = s.unread ∧ State.readSome b d n s = (false, v) := by
  induction n with
  | zero => exact fun {s} _ => ⟨s, rfl, rfl⟩
  | succ n ih =>
    intro s hbad
    obtain ⟨v, hv, hread⟩ := readRow_of_sound (s := { s with fresh := s.fresh + 1 }) hbad b ((s.someRows d 1).headD (0, 0)).1
      ((s.someRows d 1).headD (0, 0)).2
    have hv' : v.unread = s.unread := hv.trans (s.unread_drawn _)
    obtain ⟨w, hw, heq⟩ := ih (State.unread_bad hv' hbad)
    unfold State.readSome
    dsimp only
    rw [hread]
    dsimp only
    rw [heq]
    exact ⟨w, hw.trans hv', rfl⟩

/-! ### Lines (R246, R329) -/

theorem State.unread_placeReq (s : State) (c : Nat) (r : DramReq) : (s.placeReq c r).unread = s.unread := rfl

theorem State.unread_dramIssue (s : State) (w : Bool) (l : List Nat) (c m : Nat) : (s.dramIssue w l c m).unread = s.unread := by
  refine foldl_keeps State.unread _ (fun t k => ?_) l s
  dsimp only
  split
  · rw [State.unread_placeReq]
  · rw [State.unread_placeReq, State.unread_count]

/-- Lines without errors are read as they are. -/
theorem readLines_of_sound {s : State} (hbad : s.dram.bad = []) (hflips : s.dram.flips = []) (l : List Nat) (m c : Nat) :
    s.readLines l m c = (false, s) := by
  have hline : ∀ t : State, t.dram = s.dram → ∀ k, t.lineBad k = false := fun t ht k => by simp [State.lineBad, ht, hbad, hflips]
  have hfold : l.foldl (fun t k => if t.lineBad k then t.dramUe (64 * k) m c else t.decodeLine k) s = s := by
    induction l with
    | nil => rfl
    | cons k t ih =>
      have hdecode : s.decodeLine k = s := if_pos (.inl (by simp [hflips]))
      rw [List.foldl_cons, hline s rfl, if_neg Bool.false_ne_true, hdecode, ih]
  unfold State.readLines
  rw [hfold, List.any_eq_false.2 fun k _ => ne_true_of_eq_false (hline s rfl k)]

theorem State.unread_dramBad {a b : State} (h : a.unread = b.unread) : a.dram.bad = b.dram.bad ∧ a.dram.flips = b.dram.flips := by
  have hbad := congrArg (·.dram.bad) h
  have hflips := congrArg (·.dram.flips) h
  exact ⟨hbad, hflips⟩

/-! ### Lookups by the table's kind (R241, R244 to R246) -/

section
variable {s : State} (hbad : s.tables.bad = []) (x : TStruct) (a : Nat) (key : List Byte) (b : By)

include hbad in
theorem lookExact_of_sound : ∃ v, v.unread = s.unread ∧
    s.lookExact x a key b = (lookOf (((s.tagged x a key).find? (fun e => e.key == key)).map (·.result)), v) := by
  obtain ⟨v, hv, hread₀⟩ := readRow_of_sound hbad b (bucketRow x.desc 0 (x.place 0 key).2).1 (bucketRow x.desc 0 (x.place 0 key).2).2
  obtain ⟨w, hw, hread₁⟩ := readRow_of_sound (State.unread_bad hv hbad) b (bucketRow x.desc 1 (x.place 1 key).2).1
    (bucketRow x.desc 1 (x.place 1 key).2).2
  have hw' := hw.trans hv
  obtain ⟨u, hu, hcands⟩ := readCandidates_of_sound b x.desc key (w.tagged x a key) (State.unread_bad hw' hbad)
  refine ⟨u, hu.trans hw', ?_⟩
  unfold State.lookExact
  dsimp only
  rw [hread₀]
  dsimp only
  rw [hread₁]
  dsimp only
  rw [← State.unread_candidates hw', ← hcands]
  rfl

theorem lookExt_of_sound (hdram : s.dram.bad = []) (hflips : s.dram.flips = []) : ∃ v, v.unread = s.unread ∧
    s.lookExt x a key b = (lookOf ((s.keyed x a key).head?.map (·.result)), v) := by
  have hv := s.unread_dramIssue false ((x.keyLines key).map (· / 64)) 1 b.master
  obtain ⟨hbad', hflips'⟩ := State.unread_dramBad hv
  have hread := readLines_of_sound (hbad'.trans hdram) (hflips'.trans hflips) ((x.keyLines key).map (· / 64)) b.master b.access
  refine ⟨_, hv, ?_⟩
  unfold State.lookExt
  dsimp only
  rw [hread]
  dsimp only
  rw [if_neg Bool.false_ne_true, ← State.keyed, State.unread_keyed hv]
  cases s.keyed x a key <;> rfl

include hbad in
theorem lookLpm_of_sound : ∃ v, v.unread = s.unread ∧ s.lookLpm x a key b =
    (lookOf ((longest ((s.rootOf x a).filter (fun e => bitsAgree e.len e.bytes key))).map (·.result)), v) := by
  obtain ⟨v, hv, hread⟩ := readSome_of_sound b x.desc 4 hbad
  refine ⟨v, hv, ?_⟩
  unfold State.lookLpm
  rw [hread]
  dsimp only
  rw [State.unread_rootOf hv]
  cases longest ((s.rootOf x a).filter (fun e => bitsAgree e.len e.bytes key)) <;> rfl

include hbad in
theorem lookTern_of_sound : ∃ v, v.unread = s.unread ∧ s.lookTern x a key b = (lookOf ((s.bestRule (matching s x a key)).map (·.result)), v) := by
  obtain ⟨v, hv, hread⟩ := readSome_of_sound b x.desc
    (2 * x.masks.length + ((matching s x a key).map (·.mask)).eraseDups.length) hbad
  refine ⟨v, hv, ?_⟩
  unfold State.lookTern
  dsimp only
  rw [← matching, hread]
  dsimp only
  rw [State.unread_bestRule hv]
  cases s.bestRule (matching s x a key) <;> rfl

end

/-! ### What is found -/

theorem tagRank_cases (s : State) (t : Nat) : s.tagRank t = 3 ∨ s.tagRank t = 2 ∨ s.tagRank t = 1 ∨ s.tagRank t = 0 := by
  unfold State.tagRank
  split
  · exact .inl rfl
  · split
    · exact .inr (.inl rfl)
    · split
      · exact .inr (.inr (.inl rfl))
      · exact .inr (.inr (.inr rfl))

/-- Ordering entries by BORN loses none. -/
theorem mem_latestFirst {s : State} {l : List TEntry} {e : TEntry} : e ∈ s.latestFirst l ↔ e ∈ l := by
  have hrank := tagRank_cases s e.born.toNat
  simp only [State.latestFirst, List.mem_flatMap, List.mem_filter, List.mem_cons, List.not_mem_nil, or_false, beq_iff_eq]
  exact ⟨fun ⟨_, _, hmem, _⟩ => hmem, fun hmem => ⟨_, hrank, hmem, rfl⟩⟩

/-- The entries of a key that the Accord sees. -/
def seenBy (s : State) (x : TStruct) (a : Nat) (key : List Byte) (e : TEntry) : Prop :=
  e ∈ s.bucketsOf x key ∧ e.key = key ∧ s.visible a e = true

theorem mem_candidates {s : State} {x : TStruct} {a : Nat} {key : List Byte} {e : TEntry} :
    e ∈ s.tagged x a key ∧ e.key = key ↔ seenBy s x a key e := by
  unfold State.tagged seenBy
  rw [mem_latestFirst, List.mem_filter]
  constructor
  · rintro ⟨⟨hmem, hcand⟩, hkey⟩
    exact ⟨hmem, hkey, (Bool.and_eq_true_iff.1 hcand).1⟩
  · rintro ⟨hmem, hkey, hvisible⟩
    exact ⟨⟨hmem, by simp [hvisible, hkey]⟩, hkey⟩

theorem mem_keyed {s : State} {x : TStruct} {a : Nat} {key : List Byte} {e : TEntry} : e ∈ s.keyed x a key ↔ seenBy s x a key e := by
  unfold State.keyed seenBy
  rw [mem_latestFirst, List.mem_filter, Bool.and_eq_true_iff, beq_iff_eq, and_comm (a := s.visible a e = true)]

/-- The better of what has been kept and the next. -/
def keepBest {α : Type} (better : α → α → Prop) [DecidableRel better] (m : Option α) (e : α) : Option α :=
  match m with
  | none => some e
  | some o => if better e o then some e else m

/-- The one that beats every other of a list is kept. -/
theorem foldl_keepBest {α : Type} {better : α → α → Prop} [DecidableRel better] {e : α} (hself : ¬ better e e) (l : List α) :
    (∀ o ∈ l, o = e ∨ better e o ∧ ¬ better o e) → ∀ m : Option α, (∀ o ∈ m, o = e ∨ better e o) → m = some e ∨ e ∈ l →
      l.foldl (keepBest better) m = some e := by
  induction l with
  | nil => exact fun _ m _ hkept => hkept.resolve_right List.not_mem_nil
  | cons a t ih =>
    intro hl m hm hkept
    obtain ⟨ha, ht⟩ := List.forall_mem_cons.1 hl
    have ha' : a = e ∨ better e a := ha.imp_right And.left
    have hnot : ¬ better a e := ha.elim (fun h => h ▸ hself) And.right
    refine ih ht (keepBest better m a) (fun o ho => ?_) ?_
    · cases m with
      | none => exact Option.some.inj ho ▸ ha'
      | some b =>
        unfold keepBest at ho
        dsimp only at ho
        split at ho
        · exact Option.some.inj ho ▸ ha'
        · exact hm o ho
    · rcases hkept with rfl | hmem
      · exact .inl (if_neg hnot)
      · rcases List.mem_cons.1 hmem with rfl | hmem
        · cases m with
          | none => exact .inl rfl
          | some b =>
            refine .inl ?_
            rcases hm b rfl with rfl | hbeats
            · exact if_neg hself
            · exact if_pos hbeats
        · exact .inr hmem

theorem longest_eq (l : List LpmEntry) : longest l = l.foldl (keepBest fun e o => o.len < e.len) none :=
  congrArg (l.foldl · none) (funext₂ fun m _ => by cases m <;> rfl)

theorem bestRule_eq (s : State) (l : List TEntry) : s.bestRule l = l.foldl (keepBest fun e o => s.better e o = true) none :=
  congrArg (l.foldl · none) (funext₂ fun m _ => by cases m <;> rfl)

theorem longest_of_greatest {l : List LpmEntry} {e : LpmEntry} (hmem : e ∈ l) (hmax : ∀ o ∈ l, o ≠ e → o.len < e.len) : longest l = some e := by
  rw [longest_eq]
  refine foldl_keepBest (better := fun e o : LpmEntry => o.len < e.len) (lt_irrefl e.len) l (fun o ho => ?_) none (fun _ h => nomatch h) (.inr hmem)
  exact or_iff_not_imp_left.2 fun hne => ⟨hmax o ho hne, (hmax o ho hne).not_gt⟩

theorem bestRule_of_greatest {s : State} {l : List TEntry} {e : TEntry} (hmem : e ∈ l) (hmax : ∀ o ∈ l, o ≠ e → o.prio < e.prio) :
    s.bestRule l = some e := by
  rw [bestRule_eq]
  refine foldl_keepBest (by simp [State.better]) l (fun o ho => ?_) none (fun _ h => nomatch h) (.inr hmem)
  refine or_iff_not_imp_left.2 fun hne => ?_
  have hlt : o.prio.toNat < e.prio.toNat := hmax o ho hne
  have hne' : (e.prio == o.prio) = false := beq_false_of_ne fun heq => by simp [heq] at hlt
  exact ⟨by simp [State.better, BitVec.lt_def, hlt], by simp [State.better, BitVec.lt_def, hne', hlt.le]⟩

/-! ### A table's lookup (R241, R244 to R246) -/

theorem struct_desc (s : State) (num : Nat) (d : ObjWord) : (s.struct num d).desc = d ∧ (s.struct num d).num = num := by
  unfold State.struct
  cases hfind : s.tables.structs.find? (fun t => t.num == num && t.desc == d) with
  | none => exact ⟨rfl, rfl⟩
  | some x =>
    have := List.find?_some hfind
    simp only [Bool.and_eq_true, beq_iff_eq] at this
    exact ⟨this.2, this.1⟩

/-- What is found of a key has the result of the entries of that key that are seen, where all have one. -/
theorem find_result_of_seen {p : TEntry → Bool} {l : List TEntry} {seen : TEntry → Prop} (hseen : ∀ e, e ∈ l ∧ p e = true ↔ seen e) {e : TEntry}
    (he : seen e) (hall : ∀ o, seen o → o.result = e.result) : (l.find? p).map (·.result) = some e.result := by
  obtain ⟨hmem, hp⟩ := (hseen e).2 he
  obtain ⟨o, ho⟩ := Option.isSome_iff_exists.1 (List.find?_isSome.2 ⟨e, hmem, hp⟩)
  rw [ho]
  exact congrArg some (hall o ((hseen o).1 ⟨List.mem_of_find?_eq_some ho, List.find?_some ho⟩))

theorem find_none_of_unseen {p : TEntry → Bool} {l : List TEntry} {seen : TEntry → Prop} (hseen : ∀ e, e ∈ l ∧ p e = true ↔ seen e)
    (hnone : ∀ e, ¬ seen e) : (l.find? p).map (·.result) = none := by
  rw [List.find?_eq_none.2 fun e hmem hp => hnone e ((hseen e).1 ⟨hmem, hp⟩)]
  rfl

section
variable {s : State} (hbad : s.tables.bad = []) (hdram : s.dram.bad = []) (hflips : s.dram.flips = []) (num a : Nat) (key : List Byte) (b : By)

include hbad in
theorem lookTable_of_exact (hkind : dKind (s.tdesc a num) = 2) : ∃ v, v.unread = s.unread ∧ s.lookTable num a key b =
    (lookOf (((s.tagged (s.struct num (s.tdesc a num)) a key).find? (fun e => e.key == key)).map (·.result)), v) := by
  unfold State.lookTable
  dsimp only
  rw [(struct_desc s num _).1, hkind]
  exact lookExact_of_sound hbad _ a key b

include hbad hdram hflips in
/-- In an EXACT or EXT table a key is found where the Accord sees an entry of it. -/
theorem lookTable_of_keys (hkind : dKind (s.tdesc a num) = 2 ∨ dKind (s.tdesc a num) = 6) : ∃ (l : List TEntry) (p : TEntry → Bool) (v : State),
    (∀ e, e ∈ l ∧ p e = true ↔ seenBy s (s.struct num (s.tdesc a num)) a key e) ∧ v.unread = s.unread ∧
      s.lookTable num a key b = (lookOf ((l.find? p).map (·.result)), v) := by
  rcases hkind with hkind | hkind
  · obtain ⟨v, hv, hlook⟩ := lookTable_of_exact hbad num a key b hkind
    exact ⟨_, _, v, fun e => by rw [beq_iff_eq, mem_candidates], hv, hlook⟩
  · obtain ⟨v, hv, hlook⟩ := lookExt_of_sound (s.struct num (s.tdesc a num)) a key b hdram hflips
    refine ⟨s.keyed (s.struct num (s.tdesc a num)) a key, fun _ => true, v, fun e => by rw [and_iff_left rfl, mem_keyed], hv, ?_⟩
    unfold State.lookTable
    dsimp only
    rw [(struct_desc s num _).1, hkind]
    refine hlook.trans ?_
    cases s.keyed (s.struct num (s.tdesc a num)) a key <;> rfl

include hbad in
theorem lookTable_of_lpm (hkind : dKind (s.tdesc a num) = 3 ∨ dKind (s.tdesc a num) = 4) : ∃ v, v.unread = s.unread ∧ s.lookTable num a key b =
    (lookOf ((longest ((s.rootOf (s.struct num (s.tdesc a num)) a).filter (fun e => bitsAgree e.len e.bytes key))).map (·.result)), v) := by
  unfold State.lookTable
  dsimp only
  rw [(struct_desc s num _).1]
  rcases hkind with hkind | hkind
  · rw [hkind]
    exact lookLpm_of_sound hbad _ a key b
  · rw [hkind]
    exact lookLpm_of_sound hbad _ a key b

include hbad in
theorem lookTable_of_tern (hkind : dKind (s.tdesc a num) = 5) : ∃ v, v.unread = s.unread ∧ s.lookTable num a key b =
    (lookOf ((s.bestRule (matching s (s.struct num (s.tdesc a num)) a key)).map (·.result)), v) := by
  unfold State.lookTable
  dsimp only
  rw [(struct_desc s num _).1, hkind]
  exact lookTern_of_sound hbad _ a key b

end

/-! ### LOOKUP (R213, R217) -/

theorem exec_lookup {s : State} {id : ThreadId} (hid : threadOk id = true) : exec (.lookup id) s = answer (s.lookup (threadNo id)) :=
  congrArg answer (if_pos hid)

/-- The result of an operation stands with it in its cluster. -/
theorem hopAnswered_hopDone (s : State) (t id : Nat) (r : HelperRes) : hopAnswered s (s.hopDone t id r).watch t id r := by
  refine ⟨s.nextId, ?_⟩
  rw [State.cl_after_watch]
  unfold State.hopDone
  dsimp only
  rw [State.cl_modCl_same]
  rfl

theorem hopAnswered_congr {s v u : State} {t id : Nat} {r : HelperRes} (h : v.clusters = s.clusters) (ha : hopAnswered v u t id r) :
    hopAnswered s u t id r := by
  unfold hopAnswered State.cl at ha ⊢
  rwa [h] at ha

theorem State.hopDone_tables (s : State) (t id : Nat) (r : HelperRes) : (s.hopDone t id r).tables = s.tables := rfl

/-- What LKP returns of what it found. -/
def lookupRes (h : HelperOp) (dflt : List Byte) : Option (List Byte) → HelperRes
  | some r => lookAnswer h r true
  | none => lookAnswer h dflt false

theorem lookRes_lookOf (h : HelperOp) (dflt : List Byte) (r : Option (List Byte)) : lookRes h (lookOf r) dflt = lookupRes h dflt r := by
  cases r <;> rfl

section
variable {s : State} {id : ThreadId} {h : HelperOp} (hid : threadOk id = true) (hwait : s.waitingHop (threadNo id) 0 = some h)
  (hsent : s.sentAhead (threadNo id / 128) h = false) (hop : h.op.toNat < 2)
include hid hwait hsent hop

theorem givesSome_lookup_refused
    (hrefused : s.hopRefused (bits h.fields.toNat 21 14) h.tag h.data (s.lookIslands (bits h.fields.toNat 21 14) h.tag h.data) = true) :
    givesSome (.lookup id) s (fun u => hopAnswered s u (threadNo id) h.id { acc := 8, fl := 1 } ∧ u.tables = s.tables) := by
  have hlookup : s.lookup (threadNo id) = s.hopDone (threadNo id) h.id (refusal 8) := by
    unfold State.lookup
    rw [hwait]
    dsimp only
    rw [if_neg (by simp [hsent, hop]), if_pos hrefused]
  exact ⟨_, (exec_lookup hid).trans (congrArg answer hlookup), hopAnswered_hopDone _ _ _ _, rfl⟩

variable (hrefused : s.hopRefused (bits h.fields.toNat 21 14) h.tag h.data (s.lookIslands (bits h.fields.toNat 21 14) h.tag h.data) = false)
  (hruns : s.hopRuns (bits h.fields.toNat 21 14) h.tag h.data (s.lookIslands (bits h.fields.toNat 21 14) h.tag h.data) = true)
include hrefused hruns

theorem givesSome_lookup_found {r : Option (List Byte)}
    (hlook : ∃ v, v.unread = s.unread ∧ s.lookTable (bits h.fields.toNat 21 14) h.tag h.data
      { master := threadNo id, access := 7, ev := 0x10 } = (lookOf r, v)) :
    givesSome (.lookup id) s (fun u =>
      hopAnswered s u (threadNo id) h.id (lookupRes h (s.defaultResult h.tag (bits h.fields.toNat 21 14)) r) ∧ u.tables = s.tables) := by
  obtain ⟨v, hv, hlook⟩ := hlook
  have hlookup : s.lookup (threadNo id) = v.hopDone (threadNo id) h.id
      (lookupRes h (s.defaultResult h.tag (bits h.fields.toNat 21 14)) r) := by
    unfold State.lookup
    rw [hwait]
    dsimp only
    rw [if_neg (by simp [hsent, hop]), if_neg (ne_true_of_eq_false hrefused), if_neg (by simp [hruns]), hlook]
    dsimp only
    rw [lookRes_lookOf, State.unread_defaultResult hv]
  refine ⟨_, (exec_lookup hid).trans (congrArg answer hlookup), hopAnswered_congr (State.unread_clusters hv) (hopAnswered_hopDone _ _ _ _), ?_⟩
  rw [State.watch_tables, State.hopDone_tables, State.unread_tables hv]

end

theorem lookupsReturnWhatTheAccordSees : Claims.LookupsReturnWhatTheAccordSees := by
  unfold Claims.LookupsReturnWhatTheAccordSees
  intro s id h hid t num d x seen prefixes rules isl hwait hsent hop
  refine ⟨givesSome_lookup_refused hid hwait hsent hop, fun hrefused hruns hbad hdram hflips => ⟨fun hkind => ?_, fun hkind => ?_, fun hkind => ?_⟩⟩
  · obtain ⟨l, p, v, hseen, hv, hlook⟩ :=
      lookTable_of_keys hbad hdram hflips num h.tag h.data { master := t, access := 7, ev := 0x10 } hkind
    refine ⟨fun e he hall => ?_, fun hnone => ?_⟩
    · rw [find_result_of_seen hseen he hall] at hlook
      exact givesSome_lookup_found hid hwait hsent hop hrefused hruns ⟨v, hv, hlook⟩
    · rw [find_none_of_unseen hseen hnone] at hlook
      exact givesSome_lookup_found hid hwait hsent hop hrefused hruns ⟨v, hv, hlook⟩
  · obtain ⟨v, hv, hlook⟩ := lookTable_of_lpm hbad num h.tag h.data { master := t, access := 7, ev := 0x10 } hkind
    refine ⟨fun e he hmax => ?_, fun hnone => ?_⟩
    · rw [longest_of_greatest he hmax] at hlook
      exact givesSome_lookup_found hid hwait hsent hop hrefused hruns ⟨v, hv, hlook⟩
    · rw [show (s.rootOf x h.tag).filter (fun e => bitsAgree e.len e.bytes h.data) = [] from hnone] at hlook
      exact givesSome_lookup_found hid hwait hsent hop hrefused hruns ⟨v, hv, hlook⟩
  · obtain ⟨v, hv, hlook⟩ := lookTable_of_tern hbad num h.tag h.data { master := t, access := 7, ev := 0x10 } hkind
    refine ⟨fun e he hmax => ?_, fun hnone => ?_⟩
    · rw [bestRule_of_greatest he hmax] at hlook
      exact givesSome_lookup_found hid hwait hsent hop hrefused hruns ⟨v, hv, hlook⟩
    · rw [show matching s x h.tag h.data = [] from hnone] at hlook
      exact givesSome_lookup_found hid hwait hsent hop hrefused hruns ⟨v, hv, hlook⟩

end Sys2Proof.Machine
end

section
/-! Structures of EXACT tables as entries are put into them and dropped (R236, R240, R243). -/

namespace Sys2Proof.Machine

open Sys2Proof.Claims

/-! ### A structure by its number and descriptor -/

theorem struct_congr {s u : State} (h : u.tables.structs = s.tables.structs) (num : Nat) (d : ObjWord) : u.struct num d = s.struct num d := by
  rw [State.struct, State.struct, h]

theorem struct_putStruct (s : State) (x : TStruct) : (s.putStruct x).struct x.num x.desc = x := by
  have hrest : (s.tables.structs.filter (fun t => !(t.num == x.num && t.desc == x.desc))).find? (fun t => t.num == x.num && t.desc == x.desc) = none :=
    List.find?_eq_none.2 fun t ht => by simpa [imp_iff_not_or] using (List.mem_filter.1 ht).2
  have hfind : (s.putStruct x).tables.structs.find? (fun t => t.num == x.num && t.desc == x.desc) = some x := by
    refine List.find?_append.trans ?_
    rw [hrest]
    simp
  rw [State.struct, hfind]
  rfl

theorem struct_struct (s : State) (num : Nat) (d : ObjWord) : s.struct (s.struct num d).num (s.struct num d).desc = s.struct num d := by
  rw [(struct_desc s num d).1, (struct_desc s num d).2]

/-- A structure that has not been begun is the empty one. -/
theorem struct_of_not_begun {s : State} {x : TStruct} (h : s.begun x = false) : s.struct x.num x.desc = { num := x.num, desc := x.desc } := by
  have hnone : s.tables.structs.find? (fun t => t.num == x.num && t.desc == x.desc) = none :=
    List.find?_eq_none.2 fun t ht => by simpa using List.any_eq_false.1 h t ht
  rw [State.struct, hnone]
  rfl

/-! ### No structure is kept in step with another (R247) -/

def noMirror (s : State) : Prop := ∀ y ∈ s.tables.structs, y.mirror = false

theorem noMirror_congr {s u : State} (h : u.tables.structs = s.tables.structs) (hm : noMirror s) : noMirror u := by
  unfold noMirror
  rwa [h]

theorem mirror_struct {s : State} (h : noMirror s) (num : Nat) (d : ObjWord) : (s.struct num d).mirror = false := by
  unfold State.struct
  cases hfind : s.tables.structs.find? (fun t => t.num == num && t.desc == d) with
  | none => rfl
  | some x => exact h x (List.mem_of_find?_eq_some hfind)

theorem noMirror_putStruct {s : State} {x : TStruct} (h : noMirror s) (hx : x.mirror = false) : noMirror (s.putStruct x) := fun y hy => by
  rcases List.mem_append.1 hy with hy | hy
  · exact h y (List.mem_filter.1 hy).1
  · exact List.mem_singleton.1 hy ▸ hx

theorem mirrors_of_noMirror {s : State} (h : noMirror s) (num : Nat) (d : ObjWord) : s.mirrors num d = [] :=
  List.filter_eq_nil_iff.2 fun y hy => by simp [h y hy]

/-! ### What writes to the Table Store leave alone -/

/-- The state without the Table Store. -/
def State.offTables (s : State) : State := { s with tables := {} }

section
variable {a b : State} (h : a.offTables = b.offTables)
include h

theorem State.offTables_clusters : a.clusters = b.clusters := by
  have := congrArg State.clusters h
  exact this

theorem State.offTables_staged : a.accord.staged = b.accord.staged := by
  have := congrArg (·.accord.staged) h
  exact this

theorem State.offTables_tdesc (t num : Nat) : a.tdesc t num = b.tdesc t num := by
  have := congrArg (State.tdesc · t num) h
  exact this

theorem State.offTables_visible (t : Nat) (e : TEntry) : a.visible t e = b.visible t e := by
  have := congrArg (State.visible · t e) h
  exact this

end

@[simp] theorem State.offTables_putRows (s : State) (a : Nat) (l : List Byte) : (s.putRows a l).offTables = s.offTables := rfl

@[simp] theorem State.offTables_putStruct (s : State) (x : TStruct) : (s.putStruct x).offTables = s.offTables := rfl

theorem State.putRows_structs (s : State) (a : Nat) (l : List Byte) : (s.putRows a l).tables.structs = s.tables.structs := rfl

/-- The entries with `e` alone at its place. -/
def TStruct.placing (x : TStruct) (e : TEntry) : TStruct := { x with
  entries := x.entries.filter (fun o => !(o.way == e.way && o.bucket == e.bucket && o.slot == e.slot)) ++ [e] }

/-- The entries with none at the place of `e`. -/
def TStruct.without (x : TStruct) (e : TEntry) : TStruct := { x with
  entries := x.entries.filter (fun o => !(o.way == e.way && o.bucket == e.bucket && o.slot == e.slot)) }

/-- The rows of an EXACT table cleared in its bank `k`. -/
def State.bankCleared (s : State) (d : ObjWord) (k : Nat) : State :=
  { s with tables := { s.tables with rows := mclear s.tables.rows (s.directAddr d 1 k 0) (dRows d * 64) } }

theorem State.offTables_bankCleared (s : State) (d : ObjWord) (k : Nat) : (s.bankCleared d k).offTables = s.offTables := rfl

theorem State.structs_bankCleared (s : State) (d : ObjWord) (k : Nat) : (s.bankCleared d k).tables.structs = s.tables.structs := rfl

/-- The rows of an EXACT table cleared in each of its banks. -/
def State.rowsCleared (s : State) (d : ObjWord) : State := (List.range (dBanks d)).foldl (fun s k => s.bankCleared d k) s

theorem State.rowsCleared_keeps (s : State) (d : ObjWord) : (s.rowsCleared d).offTables = s.offTables ∧
    (s.rowsCleared d).tables.structs = s.tables.structs :=
  ⟨foldl_keeps State.offTables _ (fun t k => t.offTables_bankCleared d k) _ s,
    foldl_keeps (fun t : State => t.tables.structs) _ (fun t k => t.structs_bankCleared d k) _ s⟩

section
variable {s : State} {x : TStruct} (hkind : dKind x.desc = 2)
include hkind

/-- An entry's bytes lie in the rows of an EXACT table alone. -/
theorem layEntry_of_exact (on : Bool) (e : TEntry) : (s.layEntry x on e).offTables = s.offTables ∧
    (s.layEntry x on e).tables.structs = s.tables.structs := by
  unfold State.layEntry
  rw [hkind]
  simp only [State.offTables_putRows, State.putRows_structs, and_self]

theorem begin_of_exact (hnew : s.begun x = false) : s.begin' x = (s.rowsCleared x.desc).putStruct { num := x.num, desc := x.desc } := by
  unfold State.begin'
  rw [if_neg (ne_true_of_eq_false hnew), hkind]
  rfl

/-- Beginning a structure changes neither what it holds nor the rest of the device. -/
theorem keeps_begin_of_exact (hm : noMirror s) : (s.begin' x).offTables = s.offTables ∧
    (s.begin' x).struct x.num x.desc = s.struct x.num x.desc ∧ noMirror (s.begin' x) := by
  cases hbegun : s.begun x with
  | true => rw [State.begin', if_pos hbegun]; exact ⟨rfl, rfl, hm⟩
  | false =>
    obtain ⟨hoff, hstructs⟩ := s.rowsCleared_keeps x.desc
    rw [begin_of_exact hkind hbegun, struct_of_not_begun hbegun]
    exact ⟨hoff, struct_putStruct _ { num := x.num, desc := x.desc }, noMirror_putStruct (noMirror_congr hstructs hm) rfl⟩

/-- A structure put in place, and an entry's bytes laid. -/
theorem laid_of_exact {y : TStruct} (hm : noMirror s) (hy : y.mirror = false) (on : Bool) (e : TEntry) :
    ((s.putStruct y).layEntry x on e).offTables = s.offTables ∧ ((s.putStruct y).layEntry x on e).struct y.num y.desc = y ∧
      noMirror ((s.putStruct y).layEntry x on e) := by
  obtain ⟨hoff, hstructs⟩ := layEntry_of_exact (s := s.putStruct y) hkind on e
  exact ⟨hoff.trans (s.offTables_putStruct y), (struct_congr hstructs _ _).trans (struct_putStruct s y),
    noMirror_congr hstructs (noMirror_putStruct hm hy)⟩

theorem putEntry_of_exact (hm : noMirror s) (e : TEntry) : (s.putEntry x e).offTables = s.offTables ∧
    (s.putEntry x e).struct x.num x.desc = (s.struct x.num x.desc).placing e ∧ noMirror (s.putEntry x e) := by
  obtain ⟨hoff, hstruct, hm'⟩ := keeps_begin_of_exact hkind hm
  obtain ⟨hdesc, hnum⟩ := struct_desc s x.num x.desc
  have hput : s.putEntry x e = ((s.begin' x).putStruct ((s.struct x.num x.desc).placing e)).layEntry (s.struct x.num x.desc) true e := by
    unfold State.putEntry
    dsimp only
    rw [hstruct, if_neg (by rw [hdesc, hkind]; decide)]
    rfl
  obtain ⟨hlaid, hplaced, hmirror⟩ := laid_of_exact (x := s.struct x.num x.desc) (y := (s.struct x.num x.desc).placing e) (by rw [hdesc, hkind])
    hm' (mirror_struct hm x.num x.desc) true e
  rw [hput]
  refine ⟨hlaid.trans hoff, ?_, hmirror⟩
  rwa [show ((s.struct x.num x.desc).placing e).num = x.num from hnum, show ((s.struct x.num x.desc).placing e).desc = x.desc from hdesc] at hplaced

theorem dropEntry_of_exact (hm : noMirror s) (e : TEntry) : (s.dropEntry x e).offTables = s.offTables ∧
    (s.dropEntry x e).struct x.num x.desc = (s.struct x.num x.desc).without e ∧ noMirror (s.dropEntry x e) := by
  obtain ⟨hdesc, hnum⟩ := struct_desc s x.num x.desc
  have hdrop : s.dropEntry x e = (s.putStruct ((s.struct x.num x.desc).without e)).layEntry (s.struct x.num x.desc) false e := by
    unfold State.dropEntry
    dsimp only
    rw [if_neg (by rw [hdesc, hkind]; decide)]
    rfl
  obtain ⟨hlaid, hplaced, hmirror⟩ := laid_of_exact (x := s.struct x.num x.desc) (y := (s.struct x.num x.desc).without e) (by rw [hdesc, hkind])
    hm (mirror_struct hm x.num x.desc) false e
  rw [hdrop]
  refine ⟨hlaid, ?_, hmirror⟩
  rwa [show ((s.struct x.num x.desc).without e).num = x.num from hnum, show ((s.struct x.num x.desc).without e).desc = x.desc from hdesc] at hplaced

end

/-! ### Inserts and deletes of a program (R236, R242, R243) -/

/-- The entries of a key that the Accord sees in the key's buckets. -/
def State.seenOf (s : State) (x : TStruct) (a : Nat) (key : List Byte) : List TEntry :=
  (s.bucketsOf x key).filter (fun e => e.key == key && s.visible a e)

/-- The entry of a key born under an Accord, at a place. -/
def newEntry (a : Nat) (key result : List Byte) (p : Nat × Nat × Nat) : TEntry :=
  { key := key, result := result, born := BitVec.ofNat 4 a, dead := BitVec.ofNat 4 a, way := p.1, bucket := p.2.1, slot := p.2.2 }

theorem State.unread_seenOf {v s : State} (h : v.unread = s.unread) (x : TStruct) (a : Nat) (key : List Byte) : v.seenOf x a key = s.seenOf x a key := by
  have := congrArg (State.seenOf · x a key) h
  exact this

theorem noteGone_of_program {s : State} {num a : Nat} {d : ObjWord} {key : List Byte} {gone : Bool} (h : a ≠ s.accord.staged.toNat) :
    s.noteGone num a d key gone = s := if_neg fun hstaged => h hstaged.1

section
variable {s : State} {num a : Nat} {key result : List Byte}

theorem insertKey_of_unseen (d : ObjWord) (hunseen : s.seenOf (s.struct num d) a key = []) : s.insertKey (s.struct num d) a key result =
    match s.roomFor (s.struct num d) key with
    | none => (.full, s)
    | some p => (.added, s.putEntry (s.struct num d) (newEntry a key result p)) := by
  unfold State.insertKey
  dsimp only
  rw [struct_struct, ← State.seenOf, hunseen]
  cases s.roomFor (s.struct num d) key <;> rfl

theorem deleteKey_of_seen (d : ObjWord) : s.deleteKey (s.struct num d) a key = (!(s.seenOf (s.struct num d) a key).isEmpty,
    (s.seenOf (s.struct num d) a key).foldl (fun t e => if e.born.toNat = a then t.dropEntry (s.struct num d) e
      else t.putEntry (s.struct num d) { e with dead := BitVec.ofNat 4 a }) s) := by
  unfold State.deleteKey
  dsimp only
  rw [struct_struct]
  rfl

variable (hprogram : a ≠ s.accord.staged.toNat)
include hprogram

theorem insertTable_of_full (hunseen : s.seenOf (s.struct num (s.tdesc a num)) a key = []) (hroom : s.roomFor (s.struct num (s.tdesc a num)) key = none) :
    s.insertTable num a key result = (.full, s) := by
  unfold State.insertTable
  dsimp only
  rw [insertKey_of_unseen _ hunseen, hroom]
  dsimp only
  rw [noteGone_of_program hprogram]
  rfl

variable (hm : noMirror s) (hkind : dKind (s.tdesc a num) = 2)
include hm

include hkind in
theorem insertTable_of_room {p : Nat × Nat × Nat} (hunseen : s.seenOf (s.struct num (s.tdesc a num)) a key = [])
    (hroom : s.roomFor (s.struct num (s.tdesc a num)) key = some p) :
    s.insertTable num a key result = (.added, s.putEntry (s.struct num (s.tdesc a num)) (newEntry a key result p)) := by
  obtain ⟨hdesc, -⟩ := struct_desc s num (s.tdesc a num)
  obtain ⟨hoff, -, hm'⟩ := putEntry_of_exact (x := s.struct num (s.tdesc a num)) (by rw [hdesc, hkind]) hm (newEntry a key result p)
  unfold State.insertTable
  dsimp only
  rw [insertKey_of_unseen _ hunseen, hroom]
  dsimp only
  rw [noteGone_of_program (by rw [State.offTables_staged hoff]; exact hprogram), mirrors_of_noMirror hm']
  rfl

theorem deleteTable_of_unseen (hunseen : s.seenOf (s.struct num (s.tdesc a num)) a key = []) : s.deleteTable num a key = (false, s) := by
  unfold State.deleteTable
  dsimp only
  rw [deleteKey_of_seen, hunseen]
  dsimp only [List.foldl]
  rw [noteGone_of_program hprogram, mirrors_of_noMirror hm]
  rfl

include hkind in
theorem deleteTable_of_own {e : TEntry} (hseen : s.seenOf (s.struct num (s.tdesc a num)) a key = [e]) (hown : e.born.toNat = a) :
    s.deleteTable num a key = (true, s.dropEntry (s.struct num (s.tdesc a num)) e) := by
  obtain ⟨hdesc, -⟩ := struct_desc s num (s.tdesc a num)
  obtain ⟨hoff, -, hm'⟩ := dropEntry_of_exact (x := s.struct num (s.tdesc a num)) (by rw [hdesc, hkind]) hm e
  unfold State.deleteTable
  dsimp only
  rw [deleteKey_of_seen, hseen]
  dsimp only [List.foldl]
  rw [if_pos hown, noteGone_of_program (by rw [State.offTables_staged hoff]; exact hprogram), mirrors_of_noMirror hm']
  rfl

end

/-! ### A write applied (R213, R242) -/

/-- The result of a write that has been done. -/
def wroteRes : HelperRes := { acc := 0, fl := 8 }

section
variable {s : State} {w : TieWrite} (hprogram : w.tag ≠ s.accord.staged.toNat)
include hprogram

theorem applyWrite_of_full (hins : w.del = false) (hunseen : s.seenOf (s.struct w.num (s.tdesc w.tag w.num)) w.tag w.key = [])
    (hroom : s.roomFor (s.struct w.num (s.tdesc w.tag w.num)) w.key = none) : s.applyWrite w =
      State.hopDone { s with tables := { s.tables with reloc := s.tables.reloc ++ [(w.num, s.tdesc w.tag w.num, w.key)] } } w.thread w.hop (refusal 5) := by
  unfold State.applyWrite
  dsimp only
  rw [hins, if_neg Bool.false_ne_true, insertTable_of_full hprogram hunseen hroom]

variable (hm : noMirror s)
include hm

theorem applyWrite_of_absent (hdel : w.del = true) (hunseen : s.seenOf (s.struct w.num (s.tdesc w.tag w.num)) w.tag w.key = []) :
    s.applyWrite w = s.hopDone w.thread w.hop (refusal 6) := by
  unfold State.applyWrite
  dsimp only
  rw [if_pos hdel, deleteTable_of_unseen hprogram hm hunseen]
  rfl

variable (hkind : dKind (s.tdesc w.tag w.num) = 2)
include hkind

theorem applyWrite_of_room (hins : w.del = false) {p : Nat × Nat × Nat} (hunseen : s.seenOf (s.struct w.num (s.tdesc w.tag w.num)) w.tag w.key = [])
    (hroom : s.roomFor (s.struct w.num (s.tdesc w.tag w.num)) w.key = some p) : s.applyWrite w =
      (s.putEntry (s.struct w.num (s.tdesc w.tag w.num)) (newEntry w.tag w.key w.result p)).hopDone w.thread w.hop wroteRes := by
  unfold State.applyWrite
  dsimp only
  rw [hins, if_neg Bool.false_ne_true, insertTable_of_room hprogram hm hkind hunseen hroom]
  rfl

theorem applyWrite_of_own (hdel : w.del = true) {e : TEntry} (hseen : s.seenOf (s.struct w.num (s.tdesc w.tag w.num)) w.tag w.key = [e])
    (hown : e.born.toNat = w.tag) :
    s.applyWrite w = (s.dropEntry (s.struct w.num (s.tdesc w.tag w.num)) e).hopDone w.thread w.hop wroteRes := by
  unfold State.applyWrite
  dsimp only
  rw [if_pos hdel, deleteTable_of_own hprogram hm hkind hseen hown]
  rfl

end

/-! ### A delete of the same key in the cycle of an insert (R242) -/

theorem inBucket_of_exact {s : State} {x : TStruct} (hkind : dKind x.desc = 2) (w i : Nat) :
    s.inBucket x w i = x.entries.filter (fun e => e.way == w && e.bucket == i) := if_neg (by rw [hkind]; decide)

theorem roomFor_bucket {s : State} {x : TStruct} {key : List Byte} {p : Nat × Nat × Nat} (h : s.roomFor x key = some p) :
    (p.1 = 0 ∧ p.2.1 = (x.place 0 key).2) ∨ (p.1 = 1 ∧ p.2.1 = (x.place 1 key).2) := by
  unfold State.roomFor at h
  dsimp only at h
  split at h
  · obtain ⟨k, -, rfl⟩ := Option.map_eq_some_iff.1 h
    exact .inl ⟨rfl, rfl⟩
  · obtain ⟨k, -, rfl⟩ := Option.map_eq_some_iff.1 h
    exact .inr ⟨rfl, rfl⟩

theorem visible_newEntry {s : State} {a : Nat} {key result : List Byte} {p : Nat × Nat × Nat} (ha : a < 16) :
    s.visible a (newEntry a key result p) = true := by
  simp [State.visible, newEntry, ha]

/-- The place of an entry of a key in way `w`. -/
def inWay (x : TStruct) (key : List Byte) (w : Nat) (e : TEntry) : Bool := e.way == w && e.bucket == (x.place w key).2

theorem seenOf_of_exact {s : State} {x : TStruct} (hkind : dKind x.desc = 2) (a : Nat) (key : List Byte) : s.seenOf x a key =
    (x.entries.filter (inWay x key 0)).filter (fun e => e.key == key && s.visible a e)
      ++ (x.entries.filter (inWay x key 1)).filter (fun e => e.key == key && s.visible a e) := by
  rw [State.seenOf, State.bucketsOf, inBucket_of_exact hkind, inBucket_of_exact hkind, List.filter_append]
  rfl

/-- Where no entry of a key was seen, one put into its place is the only one seen after. -/
theorem seenOf_placing {s v : State} {x : TStruct} {a : Nat} {key result : List Byte} {p : Nat × Nat × Nat} (hkind : dKind x.desc = 2) (ha : a < 16)
    (hunseen : s.seenOf x a key = []) (hvisible : ∀ e, v.visible a e = s.visible a e) (hroom : s.roomFor x key = some p) :
    v.seenOf (x.placing (newEntry a key result p)) a key = [newEntry a key result p] := by
  have hsees : (fun e : TEntry => e.key == key && v.visible a e) = fun e => e.key == key && s.visible a e := funext fun e => by rw [hvisible]
  have hway : ∀ w, inWay (x.placing (newEntry a key result p)) key w = inWay x key w := fun w => rfl
  have hnew : ((newEntry a key result p).key == key && s.visible a (newEntry a key result p)) = true := by
    rw [visible_newEntry ha, Bool.and_true]
    exact beq_self_eq_true key
  rw [seenOf_of_exact hkind, List.append_eq_nil_iff] at hunseen
  obtain ⟨hnone₀, hnone₁⟩ := hunseen
  have hrest : ∀ {w}, (x.entries.filter (inWay x key w)).filter (fun e => e.key == key && s.visible a e) = [] → ∀ q : TEntry → Bool,
      ((x.entries.filter q).filter (inWay x key w)).filter (fun e => e.key == key && s.visible a e) = [] := fun hnone q => by
    refine List.filter_eq_nil_iff.2 fun e he => ?_
    obtain ⟨hmem, hin⟩ := List.mem_filter.1 he
    exact List.filter_eq_nil_iff.1 hnone e (List.mem_filter.2 ⟨(List.mem_filter.1 hmem).1, hin⟩)
  rw [seenOf_of_exact (x := x.placing _) hkind, hsees, hway, hway, TStruct.placing]
  dsimp only
  rw [List.filter_append, List.filter_append, List.filter_append, List.filter_append, hrest hnone₀, hrest hnone₁]
  rcases roomFor_bucket hroom with ⟨hw, hi⟩ | ⟨hw, hi⟩
  · have h₀ : inWay x key 0 (newEntry a key result p) = true := by simp [inWay, newEntry, hw, hi]
    have h₁ : inWay x key 1 (newEntry a key result p) = false := by simp [inWay, newEntry, hw]
    simp [h₀, h₁, hnew]
  · have h₀ : inWay x key 0 (newEntry a key result p) = false := by simp [inWay, newEntry, hw]
    have h₁ : inWay x key 1 (newEntry a key result p) = true := by simp [inWay, newEntry, hw, hi]
    simp [h₀, h₁, hnew]

/-- What is left of a structure into which an entry was put and from which it was dropped. -/
theorem mem_of_placing_without {x : TStruct} {e o : TEntry} (h : o ∈ ((x.placing e).without e).entries) : o ∈ x.entries := by
  obtain ⟨hmem, hplace⟩ := List.mem_filter.1 h
  rcases List.mem_append.1 hmem with hmem | hmem
  · exact (List.mem_filter.1 hmem).1
  · rw [List.mem_singleton.1 hmem] at hplace
    simp at hplace

/-! ### The write sequencer (R242) -/

theorem sequence_of_alone {s : State} (hcycle : s.tables.cycle = []) (w : TieWrite) : ∃ l, s.sequence w =
    { s.applyWrite w with tables := { (s.applyWrite w).tables with cycle := l } } := by
  unfold State.sequence
  rw [hcycle]
  exact ⟨_, rfl⟩

/-- A delete of the cycle that the insert was on its way for is applied again after it. -/
theorem sequence_of_tied {s : State} {w v : TieWrite} (hcycle : s.tables.cycle = [v]) (hsince : v.since = w.since) (hnum : v.num = w.num)
    (hkey : v.key = w.key) (hon : w.hop < v.seq) (hother : v.thread ≠ w.thread) (hdel : v.del = true) (hins : w.del = false) :
    ∃ l, s.sequence w = { (s.applyWrite w).applyWrite v with tables := { ((s.applyWrite w).applyWrite v).tables with cycle := l } } := by
  have hnow : [v].filter (fun v => v.since == w.since) = [v] := by simp [hsince]
  have hagain : [v].filter (fun v => v.num == w.num && v.key == w.key && w.hop < v.seq && v.thread != w.thread && v.after w) = [v] := by
    simp [hnum, hkey, hon, hother, TieWrite.after, hdel, hins]
  unfold State.sequence
  dsimp only
  rw [hcycle, hnow, hagain]
  exact ⟨_, rfl⟩

/-! ### Damaged tag rows (R215, R251) -/

theorem readRow_keeps (s : State) (b : By) (bank row : Nat) : (s.readRow b bank row).1 = s.badRow bank row ∧
    (s.readRow b bank row).2.tables = s.tables ∧ (s.readRow b bank row).2.clusters = s.clusters := by
  have hrow : (s.count (bankSrc (s.physBank bank)) b.ev).badRow bank row = s.badRow bank row := rfl
  unfold State.readRow
  dsimp only
  rw [hrow]
  cases s.badRow bank row with
  | true => exact ⟨rfl, by simp [State.tsEcc], by simp [State.tsEcc]⟩
  | false => exact ⟨rfl, rfl, rfl⟩

theorem badRow_congr {s u : State} (h : u.tables = s.tables) (bank row : Nat) : u.badRow bank row = s.badRow bank row := by
  rw [State.badRow, State.badRow, State.physBank, State.physBank, h]

theorem lookExact_of_damaged {s : State} {x : TStruct} {a : Nat} {key : List Byte} (b : By) {w : Nat} (hw : w ∈ [0, 1])
    (hbad : s.badRow (bucketRow x.desc w (x.place w key).2).1 (bucketRow x.desc w (x.place w key).2).2 = true) :
    ∃ v, v.tables = s.tables ∧ v.clusters = s.clusters ∧ s.lookExact x a key b = (.damaged, v) := by
  obtain ⟨hfirst, htables, hclusters⟩ := readRow_keeps s b (bucketRow x.desc 0 (x.place 0 key).2).1 (bucketRow x.desc 0 (x.place 0 key).2).2
  cases hread : s.readRow b (bucketRow x.desc 0 (x.place 0 key).2).1 (bucketRow x.desc 0 (x.place 0 key).2).2 with | mk bad₀ v =>
  rw [hread] at hfirst htables hclusters
  obtain ⟨hsecond, htables', hclusters'⟩ := readRow_keeps v b (bucketRow x.desc 1 (x.place 1 key).2).1 (bucketRow x.desc 1 (x.place 1 key).2).2
  cases hread' : v.readRow b (bucketRow x.desc 1 (x.place 1 key).2).1 (bucketRow x.desc 1 (x.place 1 key).2).2 with | mk bad₁ u =>
  rw [hread'] at hsecond htables' hclusters'
  rw [badRow_congr htables] at hsecond
  have hmet : (bad₀ || bad₁) = true := by
    rcases List.mem_pair.1 hw with rfl | rfl
    · rw [show bad₀ = true from hfirst.trans hbad, Bool.true_or]
    · rw [show bad₁ = true from hsecond.trans hbad, Bool.or_true]
  refine ⟨u, htables'.trans htables, hclusters'.trans hclusters, ?_⟩
  unfold State.lookExact
  dsimp only
  rw [hread]
  dsimp only
  rw [hread']
  dsimp only
  rw [if_pos hmet]

theorem lookTable_of_damaged {s : State} {num a : Nat} {key : List Byte} (b : By) (hkind : dKind (s.tdesc a num) = 2) {w : Nat} (hw : w ∈ [0, 1])
    (hbad : s.badRow (bucketRow (s.tdesc a num) w ((s.struct num (s.tdesc a num)).place w key).2).1
      (bucketRow (s.tdesc a num) w ((s.struct num (s.tdesc a num)).place w key).2).2 = true) :
    ∃ v, v.tables = s.tables ∧ v.clusters = s.clusters ∧ s.lookTable num a key b = (.damaged, v) := by
  unfold State.lookTable
  dsimp only
  rw [(struct_desc s num _).1, hkind]
  exact lookExact_of_damaged b hw (by rwa [(struct_desc s num _).1])

/-! ### TABLE_WRITE (R213, R242, R243) -/

theorem exec_tableWrite {s : State} {id : ThreadId} (hid : threadOk id = true) : exec (.tableWrite id) s = answer (s.tableWrite (threadNo id)) :=
  congrArg answer (if_pos hid)

/-- The write that an operation of H0 hands to the sequencer. -/
def writeOf (s : State) (t : Nat) (h : HelperOp) : TieWrite :=
  { since := s.time.elapsed, seq := 0, num := bits h.fields.toNat 21 14, tag := h.tag, thread := t, hop := h.id, del := h.op == 3
    key := h.data.take (dKeyLen (s.tdesc h.tag (bits h.fields.toNat 21 14)))
    result := h.data.drop (dKeyLen (s.tdesc h.tag (bits h.fields.toNat 21 14))) }

section
variable {s : State} {id : ThreadId} {h : HelperOp} (hid : threadOk id = true) (hwait : s.waitingHop (threadNo id) 0 = some h)
  (hsent : s.sentAhead (threadNo id / 128) h = false) (hop : ¬ h.op.toNat < 2)
  (hup : allUp s (s.writeIslands (bits h.fields.toNat 21 14) h.tag (writeOf s (threadNo id) h).key))
  (hkind : dKind (s.tdesc h.tag (bits h.fields.toNat 21 14)) = 2)
include hwait hsent hop hup hkind

/-- A write whose islands run reads the rows of its key, and passes the sequencer unless one is damaged. -/
theorem tableWrite_of_up {l : Look} {v : State}
    (hlook : s.lookTable (bits h.fields.toNat 21 14) h.tag (writeOf s (threadNo id) h).key { master := threadNo id, access := 7, ev := 0x10 } = (l, v)) :
    s.tableWrite (threadNo id) =
      if l = .damaged then v.hopDone (threadNo id) h.id poisoned else v.sequence { writeOf s (threadNo id) h with since := v.time.elapsed } := by
  have hrefused : s.hopRefused (bits h.fields.toNat 21 14) h.tag (writeOf s (threadNo id) h).key
      (s.writeIslands (bits h.fields.toNat 21 14) h.tag (writeOf s (threadNo id) h).key) = false := by
    simp only [State.hopRefused, State.hopLines, hkind, List.any_eq_false.2 fun i hi => ne_true_of_eq_false (inReset_of_up (hup i hi))]
    rfl
  have hruns : s.hopRuns (bits h.fields.toNat 21 14) h.tag (writeOf s (threadNo id) h).key
      (s.writeIslands (bits h.fields.toNat 21 14) h.tag (writeOf s (threadNo id) h).key) = true := by
    simp only [State.hopRuns, State.hopLines, hkind, List.all_eq_true.2 fun i hi => hup i hi]
    rfl
  dsimp only [writeOf] at hrefused hruns hlook
  unfold State.tableWrite
  rw [hwait]
  dsimp only
  rw [if_neg (by simp [hsent, hop]), if_neg (ne_true_of_eq_false hrefused), if_neg (by simp [hruns]), hlook]
  cases l <;> rfl

include hid in
theorem givesSome_tableWrite_damaged {w : Nat} (hw : w ∈ [0, 1])
    (hbad : s.badRow (bucketRow (s.tdesc h.tag (bits h.fields.toNat 21 14)) w
        ((s.struct (bits h.fields.toNat 21 14) (s.tdesc h.tag (bits h.fields.toNat 21 14))).place w (writeOf s (threadNo id) h).key).2).1
      (bucketRow (s.tdesc h.tag (bits h.fields.toNat 21 14)) w
        ((s.struct (bits h.fields.toNat 21 14) (s.tdesc h.tag (bits h.fields.toNat 21 14))).place w (writeOf s (threadNo id) h).key).2).2 = true) :
    givesSome (.tableWrite id) s (fun u => u.tables = s.tables ∧ hopAnswered s u (threadNo id) h.id { acc := 9, fl := 1, poison := true }) := by
  obtain ⟨v, htables, hclusters, hlook⟩ := lookTable_of_damaged { master := threadNo id, access := 7, ev := 0x10 } hkind hw hbad
  have hwrite := (tableWrite_of_up hwait hsent hop hup hkind hlook).trans (if_pos rfl)
  refine ⟨_, (exec_tableWrite hid).trans (congrArg answer hwrite), ?_, hopAnswered_congr hclusters (hopAnswered_hopDone _ _ _ _)⟩
  rw [State.watch_tables, State.hopDone_tables, htables]

include hid in
/-- A write of a key whose rows are sound leaves what the sequencer leaves, from a state in which all but reads' traces is as before. -/
theorem givesSome_tableWrite_sequenced (hbad : s.tables.bad = []) {p : State → Prop}
    (hp : ∀ v : State, v.unread = s.unread → p (v.sequence (writeOf s (threadNo id) h)).watch) : givesSome (.tableWrite id) s p := by
  obtain ⟨v, hv, hlook⟩ := lookTable_of_exact hbad (bits h.fields.toNat 21 14) h.tag (writeOf s (threadNo id) h).key
    { master := threadNo id, access := 7, ev := 0x10 } hkind
  have hsound : ∀ r, lookOf r ≠ .damaged := fun r => by cases r <;> exact nofun
  have hwrite := (tableWrite_of_up hwait hsent hop hup hkind hlook).trans (if_neg (hsound _))
  have hsame : { writeOf s (threadNo id) h with since := v.time.elapsed } = writeOf s (threadNo id) h := by
    rw [State.unread_time hv, writeOf]
  rw [hsame] at hwrite
  exact ⟨_, (exec_tableWrite hid).trans (congrArg answer hwrite), hp v hv⟩

end

/-! ### What the sequencer leaves (R236, R242, R243) -/

/-- The state with another list of the cycle's writes. -/
def State.withCycle (s : State) (l : List TieWrite) : State := { s with tables := { s.tables with cycle := l } }

theorem struct_withCycle (s : State) (l : List TieWrite) (num : Nat) (d : ObjWord) : (s.withCycle l).struct num d = s.struct num d := rfl

theorem struct_hopDone (s : State) (t id : Nat) (r : HelperRes) (num : Nat) (d : ObjWord) : (s.hopDone t id r).struct num d = s.struct num d := rfl

theorem State.staged_hopDone (s : State) (t id : Nat) (r : HelperRes) : (s.hopDone t id r).accord.staged = s.accord.staged := rfl

theorem struct_watch (s : State) (num : Nat) (d : ObjWord) : s.watch.struct num d = s.struct num d := rfl

theorem hopAnswered_withCycle (s : State) (l : List TieWrite) (t id : Nat) (r : HelperRes) :
    hopAnswered s ((s.hopDone t id r).withCycle l).watch t id r := hopAnswered_hopDone s t id r

section
variable {s : State} {w : TieWrite} (hprogram : w.tag ≠ s.accord.staged.toNat)
include hprogram

section
variable (hcycle : s.tables.cycle = [])
include hcycle

theorem sequence_of_full (hins : w.del = false) (hunseen : s.seenOf (s.struct w.num (s.tdesc w.tag w.num)) w.tag w.key = [])
    (hroom : s.roomFor (s.struct w.num (s.tdesc w.tag w.num)) w.key = none) :
    ((s.sequence w).watch.struct w.num (s.tdesc w.tag w.num)) = s.struct w.num (s.tdesc w.tag w.num) ∧
      (s.sequence w).watch.tables.reloc = s.tables.reloc ++ [(w.num, s.tdesc w.tag w.num, w.key)] ∧
      hopAnswered s (s.sequence w).watch w.thread w.hop (refusal 5) := by
  obtain ⟨l, hseq⟩ := sequence_of_alone hcycle w
  rw [applyWrite_of_full hprogram hins hunseen hroom, ← State.withCycle] at hseq
  rw [hseq]
  exact ⟨rfl, rfl, hopAnswered_congr rfl (hopAnswered_withCycle _ l _ _ _)⟩

variable (hm : noMirror s)
include hm

theorem sequence_of_absent (hdel : w.del = true) (hunseen : s.seenOf (s.struct w.num (s.tdesc w.tag w.num)) w.tag w.key = []) :
    ((s.sequence w).watch.struct w.num (s.tdesc w.tag w.num)) = s.struct w.num (s.tdesc w.tag w.num) ∧
      hopAnswered s (s.sequence w).watch w.thread w.hop (refusal 6) := by
  obtain ⟨l, hseq⟩ := sequence_of_alone hcycle w
  rw [applyWrite_of_absent hprogram hm hdel hunseen, ← State.withCycle] at hseq
  rw [hseq]
  exact ⟨rfl, hopAnswered_withCycle s l _ _ _⟩

variable (hkind : dKind (s.tdesc w.tag w.num) = 2)
include hkind

theorem sequence_of_room (hins : w.del = false) {p : Nat × Nat × Nat} (hunseen : s.seenOf (s.struct w.num (s.tdesc w.tag w.num)) w.tag w.key = [])
    (hroom : s.roomFor (s.struct w.num (s.tdesc w.tag w.num)) w.key = some p) :
    (s.sequence w).watch.struct w.num (s.tdesc w.tag w.num) =
        (s.struct w.num (s.tdesc w.tag w.num)).placing (newEntry w.tag w.key w.result p) ∧
      hopAnswered s (s.sequence w).watch w.thread w.hop wroteRes := by
  obtain ⟨hdesc, hnum⟩ := struct_desc s w.num (s.tdesc w.tag w.num)
  obtain ⟨hoff, hput, -⟩ := putEntry_of_exact (x := s.struct w.num (s.tdesc w.tag w.num)) (by rw [hdesc, hkind]) hm (newEntry w.tag w.key w.result p)
  obtain ⟨l, hseq⟩ := sequence_of_alone hcycle w
  rw [applyWrite_of_room hprogram hm hkind hins hunseen hroom, ← State.withCycle] at hseq
  rw [struct_struct, hdesc, hnum] at hput
  rw [hseq, struct_watch, struct_withCycle, struct_hopDone]
  exact ⟨hput, hopAnswered_congr (State.offTables_clusters hoff) (hopAnswered_withCycle _ l _ _ _)⟩

theorem sequence_of_own (hdel : w.del = true) {e : TEntry} (hseen : s.seenOf (s.struct w.num (s.tdesc w.tag w.num)) w.tag w.key = [e])
    (hown : e.born.toNat = w.tag) :
    (s.sequence w).watch.struct w.num (s.tdesc w.tag w.num) = (s.struct w.num (s.tdesc w.tag w.num)).without e ∧
      hopAnswered s (s.sequence w).watch w.thread w.hop wroteRes := by
  obtain ⟨hdesc, hnum⟩ := struct_desc s w.num (s.tdesc w.tag w.num)
  obtain ⟨hoff, hdrop, -⟩ := dropEntry_of_exact (x := s.struct w.num (s.tdesc w.tag w.num)) (by rw [hdesc, hkind]) hm e
  obtain ⟨l, hseq⟩ := sequence_of_alone hcycle w
  rw [applyWrite_of_own hprogram hm hkind hdel hseen hown, ← State.withCycle] at hseq
  rw [struct_struct, hdesc, hnum] at hdrop
  rw [hseq, struct_watch, struct_withCycle, struct_hopDone]
  exact ⟨hdrop, hopAnswered_congr (State.offTables_clusters hoff) (hopAnswered_withCycle _ l _ _ _)⟩

end

/-- An insert that meets a delete of its key in its cycle is followed by the delete. -/
theorem sequence_of_insert_tied {v : TieWrite} (hm : noMirror s) (hkind : dKind (s.tdesc w.tag w.num) = 2) (htag : w.tag < 16)
    (hcycle : s.tables.cycle = [v]) (hsince : v.since = w.since) (hnum : v.num = w.num) (hkey : v.key = w.key) (hsame : v.tag = w.tag)
    (hon : w.hop < v.seq) (hother : v.thread ≠ w.thread) (hdel : v.del = true) (hins : w.del = false) {p : Nat × Nat × Nat}
    (hunseen : s.seenOf (s.struct w.num (s.tdesc w.tag w.num)) w.tag w.key = [])
    (hroom : s.roomFor (s.struct w.num (s.tdesc w.tag w.num)) w.key = some p) :
    ∀ e ∈ ((s.sequence w).watch.struct w.num (s.tdesc w.tag w.num)).entries, e ∈ (s.struct w.num (s.tdesc w.tag w.num)).entries := by
  obtain ⟨hdesc, hnum'⟩ := struct_desc s w.num (s.tdesc w.tag w.num)
  obtain ⟨hoff, hput, hm'⟩ := putEntry_of_exact (x := s.struct w.num (s.tdesc w.tag w.num)) (by rw [hdesc, hkind]) hm (newEntry w.tag w.key w.result p)
  rw [struct_struct, hdesc, hnum'] at hput
  obtain ⟨l, hseq⟩ := sequence_of_tied hcycle hsince hnum hkey hon hother hdel hins
  have hdesc' := State.offTables_tdesc hoff w.tag w.num
  have hseen := seenOf_placing (v := s.putEntry (s.struct w.num (s.tdesc w.tag w.num)) (newEntry w.tag w.key w.result p)) (result := w.result)
    (by rw [hdesc, hkind]) htag hunseen (State.offTables_visible hoff w.tag) hroom
  have hown : (newEntry w.tag w.key w.result p).born.toNat = w.tag := Nat.mod_eq_of_lt htag
  have hstaged := State.offTables_staged hoff
  rw [applyWrite_of_room hprogram hm hkind hins hunseen hroom, ← State.withCycle] at hseq
  generalize s.putEntry (s.struct w.num (s.tdesc w.tag w.num)) (newEntry w.tag w.key w.result p) = z at *
  obtain ⟨y, hy⟩ : ∃ y, z.hopDone w.thread w.hop wroteRes = y := ⟨_, rfl⟩
  have hydesc : y.tdesc v.tag v.num = s.tdesc w.tag w.num := by rw [hsame, hnum, ← hdesc', ← hy]; rfl
  have hystruct : y.struct v.num (y.tdesc v.tag v.num) = (s.struct w.num (s.tdesc w.tag w.num)).placing (newEntry w.tag w.key w.result p) := by
    rw [hydesc, hnum, ← hput, ← hy]
    rfl
  have hyseen : y.seenOf (y.struct v.num (y.tdesc v.tag v.num)) v.tag v.key = [newEntry w.tag w.key w.result p] := by
    rw [hystruct, hsame, hkey, ← hseen, ← hy]
    rfl
  have hystaged : v.tag ≠ y.accord.staged.toNat := by
    rw [hsame, ← hy, State.staged_hopDone, hstaged]
    exact hprogram
  have hym : noMirror y := hy ▸ noMirror_congr rfl hm'
  have hykind : dKind (y.tdesc v.tag v.num) = 2 := by rw [hydesc, hkind]
  obtain ⟨hydesc', hynum'⟩ := struct_desc y v.num (y.tdesc v.tag v.num)
  obtain ⟨-, hdrop, -⟩ := dropEntry_of_exact (x := y.struct v.num (y.tdesc v.tag v.num)) (by rw [hydesc', hykind]) hym (newEntry w.tag w.key w.result p)
  rw [struct_struct, hydesc', hynum', hydesc, hnum] at hdrop
  rw [hy, applyWrite_of_own hystaged hym hykind hdel hyseen (hown.trans hsame.symm)] at hseq
  intro e he
  rw [hseq, struct_watch, struct_withCycle, struct_hopDone, hydesc, hnum, hdrop] at he
  rw [hydesc, hnum] at hystruct
  rw [hystruct] at he
  exact mem_of_placing_without he

end

end Sys2Proof.Machine
end

section
namespace Sys2Proof.Machine

open Sys2Proof.Claims

/-! ### Writes of programs through the sequencer -/

section
variable {v s : State} (h : v.unread = s.unread) (w : TieWrite)
include h

theorem struct_of_unread : v.struct w.num (v.tdesc w.tag w.num) = s.struct w.num (s.tdesc w.tag w.num) := by
  rw [State.unread_tdesc h, State.unread_struct h]

theorem seenOf_of_unread : v.seenOf (v.struct w.num (v.tdesc w.tag w.num)) w.tag w.key = s.seenOf (s.struct w.num (s.tdesc w.tag w.num)) w.tag w.key := by
  rw [struct_of_unread h, State.unread_seenOf h]

theorem roomFor_of_unread : v.roomFor (v.struct w.num (v.tdesc w.tag w.num)) w.key = s.roomFor (s.struct w.num (s.tdesc w.tag w.num)) w.key := by
  rw [struct_of_unread h, State.unread_roomFor h]

theorem noMirror_of_unread (hm : noMirror s) : noMirror v := noMirror_congr (by rw [State.unread_tables h]) hm

end

theorem programsWriteTablesThroughTheSequencer : Claims.ProgramsWriteTablesThroughTheSequencer := by
  unfold Claims.ProgramsWriteTablesThroughTheSequencer
  intro s id h hid t num d x key seen hwait hsent hup hkind hprogram hm
  obtain ⟨w, hw⟩ : ∃ w, w = writeOf s t h := ⟨_, rfl⟩
  have hins : h.op = 2 → ¬ h.op.toNat < 2 ∧ w.del = false := fun hop => by rw [hw, writeOf, hop]; exact ⟨by decide, rfl⟩
  have hdel : h.op = 3 → ¬ h.op.toNat < 2 ∧ w.del = true := fun hop => by rw [hw, writeOf, hop]; exact ⟨by decide, rfl⟩
  have hkindw : ∀ {v : State}, v.unread = s.unread → dKind (v.tdesc w.tag w.num) = 2 := fun hv => by rw [State.unread_tdesc hv, hw]; exact hkind
  have hprogramw : ∀ {v : State}, v.unread = s.unread → w.tag ≠ v.accord.staged.toNat := fun hv => by rw [State.unread_staged hv, hw]; exact hprogram
  have hcyclew : ∀ {v : State}, v.unread = s.unread → v.tables.cycle = s.tables.cycle := fun hv => by rw [State.unread_tables hv]
  have hstruct : ∀ {u v : State}, v.unread = s.unread → u.struct w.num (v.tdesc w.tag w.num) = u.struct num d := fun hv => by
    rw [State.unread_tdesc hv, hw]; rfl
  have hx : ∀ {v : State}, v.unread = s.unread → v.struct w.num (v.tdesc w.tag w.num) = x := fun hv => by rw [struct_of_unread hv, hw]; rfl
  have hseen : ∀ {v : State}, v.unread = s.unread → v.seenOf (v.struct w.num (v.tdesc w.tag w.num)) w.tag w.key = seen := fun hv => by
    rw [seenOf_of_unread hv, hw]; rfl
  have hroomw : ∀ {v : State}, v.unread = s.unread → v.roomFor (v.struct w.num (v.tdesc w.tag w.num)) w.key = s.roomFor x key := fun hv => by
    rw [roomFor_of_unread hv, hw]; rfl
  have hthen : ¬ h.op.toNat < 2 → s.tables.bad = [] → ∀ p : State → Prop, (∀ v : State, v.unread = s.unread → p (v.sequence w).watch) →
      givesSome (.tableWrite id) s p := fun hop hbad p hp => givesSome_tableWrite_sequenced hid hwait hsent hop hup hkind hbad (hw ▸ hp)
  have hto : w.thread = t ∧ w.hop = h.id := hw ▸ ⟨rfl, rfl⟩
  refine ⟨fun hop w hw hrow => givesSome_tableWrite_damaged hid hwait hsent (hop.elim (hins · |>.1) (hdel · |>.1)) hup hkind hw hrow,
    fun hbad hcycle => ⟨?_, ?_, ?_, ?_⟩, ?_⟩
  · intro b i k hop hunseen hroom
    refine hthen (hins hop).1 hbad _ fun v hv => ?_
    obtain ⟨hput, hans⟩ := sequence_of_room (hprogramw hv) ((hcyclew hv).trans hcycle) (noMirror_of_unread hv hm) (hkindw hv) (hins hop).2
      ((hseen hv).trans hunseen) ((hroomw hv).trans hroom)
    rw [hstruct hv, hx hv] at hput
    rw [hto.1, hto.2] at hans
    exact ⟨by rw [hput, hw]; rfl, hopAnswered_congr (State.unread_clusters hv) hans⟩
  · intro hop hunseen hroom
    refine hthen (hins hop).1 hbad _ fun v hv => ?_
    obtain ⟨hsame, hreloc, hans⟩ := sequence_of_full (hprogramw hv) ((hcyclew hv).trans hcycle) (hins hop).2
      ((hseen hv).trans hunseen) ((hroomw hv).trans hroom)
    rw [hstruct hv, hx hv] at hsame
    rw [hto.1, hto.2] at hans
    exact ⟨by rw [hsame], by rw [hreloc, State.unread_tables hv, State.unread_tdesc hv, hw]; rfl, hopAnswered_congr (State.unread_clusters hv) hans⟩
  · intro hop hunseen
    refine hthen (hdel hop).1 hbad _ fun v hv => ?_
    obtain ⟨hsame, hans⟩ := sequence_of_absent (hprogramw hv) ((hcyclew hv).trans hcycle) (noMirror_of_unread hv hm) (hdel hop).2
      ((hseen hv).trans hunseen)
    rw [hstruct hv, hx hv] at hsame
    rw [hto.1, hto.2] at hans
    exact ⟨by rw [hsame], hopAnswered_congr (State.unread_clusters hv) hans⟩
  · intro e hop hone hown
    refine hthen (hdel hop).1 hbad _ fun v hv => ?_
    obtain ⟨hdrop, hans⟩ := sequence_of_own (hprogramw hv) ((hcyclew hv).trans hcycle) (noMirror_of_unread hv hm) (hkindw hv) (hdel hop).2
      ((hseen hv).trans hone) (hown.trans (by rw [hw]; rfl))
    rw [hstruct hv, hx hv] at hdrop
    rw [hto.1, hto.2] at hans
    refine ⟨fun o ho hplace => ?_, hopAnswered_congr (State.unread_clusters hv) hans⟩
    rw [hdrop] at ho
    simpa [hplace] using (List.mem_filter.1 ho).2
  · intro o i hbad hop hcycle hsince hnum hkey hsame hon hother hgone htag hunseen _ _ ⟨b, j, k, hroom⟩
    refine hthen (hins hop).1 hbad _ fun v hv => ?_
    have hleft := sequence_of_insert_tied (hprogramw hv) (noMirror_of_unread hv hm) (hkindw hv) (by rw [hw]; exact htag)
      ((hcyclew hv).trans hcycle) (by rw [hw]; exact hsince) (by rw [hw]; exact hnum) (by rw [hw]; exact hkey) (by rw [hw]; exact hsame)
      (by rwa [hto.2]) (by rwa [hto.1]) hgone (hins hop).2 ((hseen hv).trans hunseen) ((hroomw hv).trans hroom)
    rwa [hstruct hv, hx hv] at hleft

/-- Settles O29: a sound read changes nothing a lookup speaks of, so its candidates are the entries the Accord sees; a program's write passes the
sequencer, which puts, drops or refuses it, and applies a tied delete after its insert. -/
theorem lookupsAndTablePrograms : Obligations.LookupsAndTablePrograms :=
  ⟨lookupsReturnWhatTheAccordSees, programsWriteTablesThroughTheSequencer⟩

end Sys2Proof.Machine
end

/-! The byte memories of the Table Store, the packet cells and device DRAM (R230, R281, R325), and the functions that leave all three alone.
The lemmas stand in the order of the model's definitions. -/

section
namespace Sys2Proof.Machine

/-- The byte memories whose form the model keeps canonical: the Table Store's rows, the packet cells and device DRAM. -/
def State.memories (s : State) : Mem × Mem × Mem := (s.tables.rows, s.pools.cells, s.dram.data)

@[simp] theorem State.memories_eq (s : State) : (s.tables.rows, s.pools.cells, s.dram.data) = s.memories := rfl

@[simp] theorem State.memories_mk (pending time net nextId fresh live faults ycp bar0 ports slices seq clusters tables tasks pools qm dram
    accord scrub sec obs power pins startup out) :
    (State.mk pending time net nextId fresh live faults ycp bar0 ports slices seq clusters tables tasks pools qm dram
      accord scrub sec obs power pins startup out).memories = (tables.rows, pools.cells, dram.data) := rfl

theorem State.memories_ite (c : Prop) [Decidable c] (s t : State) :
    (if c then s else t).memories = if c then s.memories else t.memories := apply_ite State.memories c s t

theorem State.memories_snd_ite {α : Type} (c : Prop) [Decidable c] (x y : α × State) :
    (if c then x else y).2.memories = if c then x.2.memories else y.2.memories := apply_ite (fun r : α × State => r.2.memories) c x y

/-- A fold keeps the memories where each of its steps does. -/
@[simp] theorem State.memories_foldl {α : Type} {f : State → α → State} (h : ∀ s a, (f s a).memories = s.memories) (l : List α) (s : State) :
    (l.foldl f s).memories = s.memories := foldl_keeps State.memories f h l s

theorem State.memories_getD {o : Option State} {s : State} (h : ∀ u, o = some u → u.memories = s.memories) : (o.getD s).memories = s.memories := by
  cases o with
  | none => rfl
  | some u => exact h u rfl

/-! ### Shared operations -/

@[simp] theorem State.memories_setObj (s : State) (cls idx : Nat) (w : ObjWord) : (s.setObj cls idx w).memories = s.memories := by rfl

@[simp] theorem State.memories_modCopy (s : State) (tag : Nat) (f : Copy → Copy) : (s.modCopy tag f).memories = s.memories := by rfl

@[simp] theorem State.memories_modCl (s : State) (c : Nat) (f : Cluster → Cluster) : (s.modCl c f).memories = s.memories := by rfl

@[simp] theorem State.memories_modTh (s : State) (t : Nat) (f : Thread → Thread) : (s.modTh t f).memories = s.memories := by rfl

@[simp] theorem State.memories_modIsl (s : State) (i : Nat) (f : Island → Island) : (s.modIsl i f).memories = s.memories := by rfl

@[simp] theorem State.memories_modSlc (s : State) (i : Nat) (f : Slice → Slice) : (s.modSlc i f).memories = s.memories := by rfl

@[simp] theorem State.memories_modRec (s : State) (r : Nat) (f : Rec → Rec) : (s.modRec r f).memories = s.memories := by rfl

@[simp] theorem State.memories_modPort (s : State) (p : Nat) (f : Port → Port) : (s.modPort p f).memories = s.memories := by rfl

@[simp] theorem State.memories_modLane (s : State) (l : Nat) (f : Lane → Lane) : (s.modLane l f).memories = s.memories := by rfl

@[simp] theorem State.memories_modTask (s : State) (n : Nat) (f : Task → Task) : (s.modTask n f).memories = s.memories := by rfl

@[simp] theorem State.memories_modDesc (s : State) (d : Nat) (f : Desc → Desc) : (s.modDesc d f).memories = s.memories := by rfl

@[simp] theorem State.memories_modPool (s : State) (p : Nat) (f : Pool → Pool) : (s.modPool p f).memories = s.memories := by rfl

@[simp] theorem State.memories_modQueue (s : State) (q : Nat) (f : Queue → Queue) : (s.modQueue q f).memories = s.memories := by rfl

@[simp] theorem State.memories_modChan (s : State) (c : Nat) (f : DramChan → DramChan) : (s.modChan c f).memories = s.memories := by rfl

@[simp] theorem State.memories_modLock (s : State) (w : Nat) (f : Lock → Lock) : (s.modLock w f).memories = s.memories := by rfl

@[simp] theorem State.memories_draw (s : State) (n : Nat) : (s.draw n).2.memories = s.memories := by rfl

@[simp] theorem State.memories_newId (s : State) : s.newId.2.memories = s.memories := by rfl

@[simp] theorem State.memories_emit (s : State) (o : Output) : (s.emit o).memories = s.memories := by rfl

@[simp] theorem State.memories_msix (s : State) (v : Nat) : (s.msix v).memories = s.memories := by
  unfold State.msix
  dsimp only
  (repeat' split) <;> simp

@[simp] theorem State.memories_event (s : State) (bit : Nat) : (s.event bit).memories = s.memories := by
  unfold State.event
  split <;> simp

@[simp] theorem State.memories_stewardEvent (s : State) (e : StewardEvent) : (s.stewardEvent e).memories = s.memories := by
  unfold State.stewardEvent
  split <;> simp

@[simp] theorem State.memories_count (s : State) (unit ev : Nat) (n : Nat) : (s.count unit ev n).memories = s.memories := by rfl

@[simp] theorem State.memories_countQueue (s : State) (unit q : Nat) (n : Nat) : (s.countQueue unit q n).memories = s.memories := by rfl

@[simp] theorem State.memories_enqueueFault (s : State) (m : FaultMsg) : (s.enqueueFault m).memories = s.memories := by
  unfold State.enqueueFault
  dsimp only
  split <;> simp

@[simp] theorem State.memories_raise (s : State) (source kind : Nat) (i : FaultInfo) :
    (s.raise source kind i).memories = s.memories := by simp [State.raise]

@[simp] theorem State.memories_send (s : State) (a b : Nat) (m : Msg) : (s.send a b m).memories = s.memories := by rfl

@[simp] theorem State.memories_taken (s : State) (a b : Nat) : (s.taken a b).memories = s.memories := by rfl

/-! ### Device DRAM -/

@[simp] theorem State.memories_sweepFrame (s : State) (c f : Nat) : (s.sweepFrame c f).memories = s.memories := by
  unfold State.sweepFrame
  split <;> simp

@[simp] theorem State.memories_corrected (s : State) (c rank device n : Nat) : (s.corrected c rank device n).memories = s.memories := by
  unfold State.corrected
  dsimp only
  split <;> simp

@[simp] theorem State.memories_decodeLine (s : State) (l : Nat) : (s.decodeLine l).memories = s.memories := by
  unfold State.decodeLine
  split <;> simp

@[simp] theorem State.memories_dramUe (s : State) (a master access : Nat) (conseq : Bool) :
    (s.dramUe a master access conseq).memories = s.memories := by simp [State.dramUe]

@[simp] theorem State.memories_readLines (s : State) (l : List Nat) (master access : Nat) :
    (s.readLines l master access).2.memories = s.memories := by simp [State.readLines, State.memories_ite]

@[simp] theorem State.memories_readyLines (s : State) (l : List Nat) (whole : Nat → Bool) :
    (s.readyLines l whole).memories = s.memories := by simp [State.readyLines]

@[simp] theorem State.memories_placeReq (s : State) (c : Nat) (r : DramReq) : (s.placeReq c r).memories = s.memories := by rfl

@[simp] theorem State.memories_dramIssue (s : State) (write : Bool) (l : List Nat) (cls master : Nat) :
    (s.dramIssue write l cls master).memories = s.memories := by
  unfold State.dramIssue
  exact State.memories_foldl (fun _ _ => by simp [State.memories_ite]) _ _

@[simp] theorem State.memories_returned (s : State) (i : Nat) : (s.returned i).memories = s.memories := by
  unfold State.returned
  split <;> simp

@[simp] theorem State.memories_watch (s : State) : s.watch.memories = s.memories := by rfl

/-! ### Descriptors of tables -/

@[simp] theorem State.memories_putStruct (s : State) (x : TStruct) : (s.putStruct x).memories = s.memories := by rfl

@[simp] theorem State.memories_retireTables (s : State) (tag : Nat) : (s.retireTables tag).memories = s.memories := by rfl

@[simp] theorem State.memories_tsEcc (s : State) (phys row master access : Nat) :
    (s.tsEcc phys row master access).memories = s.memories := by simp [State.tsEcc]

/-! ### Near memory -/

@[simp] theorem State.memories_edge (s : State) (t bit : Nat) : (s.edge t bit).memories = s.memories := by
  unfold State.edge
  split <;> simp

@[simp] theorem State.memories_nearWrite (s : State) (t a : Nat) (l : List Byte) : (s.nearWrite t a l).memories = s.memories := by
  unfold State.nearWrite
  split <;> simp

@[simp] theorem State.memories_nearStore (s : State) (t a : Nat) (l : List Byte) : (s.nearStore t a l).memories = s.memories := by
  unfold State.nearStore
  split <;> simp

/-! ### Faults, traps and branches of threads -/

@[simp] theorem State.memories_masterReset (s : State) (t : Nat) (whole : Bool) : (s.masterReset t whole).memories = s.memories := by
  simp [State.masterReset]

@[simp] theorem State.memories_freeLocks (s : State) (t : Nat) : (s.freeLocks t).memories = s.memories := by
  unfold State.freeLocks
  split <;> simp

@[simp] theorem State.memories_dropStaged (s : State) (t : Nat) (conseq : Bool) : (s.dropStaged t conseq).memories = s.memories := by
  unfold State.dropStaged
  dsimp only
  split <;> simp

@[simp] theorem State.memories_leaveWait (s : State) (t : Nat) : (s.leaveWait t).memories = s.memories := by
  unfold State.leaveWait
  split <;> simp

@[simp] theorem State.memories_endWork (s : State) (t : Nat) (conseq : Bool) : (s.endWork t conseq).memories = s.memories := by
  unfold State.endWork
  split <;> simp

@[simp] theorem State.memories_tellFree (s : State) (t : Nat) : (s.tellFree t).memories = s.memories := by rfl

@[simp] theorem State.memories_haltFault (s : State) (t unit kind addr access : Nat) :
    (s.haltFault t unit kind addr access).memories = s.memories := by
  unfold State.haltFault
  split <;> simp

@[simp] theorem State.memories_faultOr (s : State) (t unit kind addr access : Nat) : (s.faultOr t unit kind addr access).memories = s.memories := by
  unfold State.faultOr
  split <;> simp

@[simp] theorem State.memories_trapStart (s : State) (t cause syl slot : Nat) (pc next : BitVec 16) :
    (s.trapStart t cause syl slot pc next).memories = s.memories := by
  unfold State.trapStart
  split <;> simp

@[simp] theorem State.memories_trapOr (s : State) (t cause syl slot : Nat) (next : BitVec 16) :
    (s.trapOr t cause syl slot next).memories = s.memories := by
  unfold State.trapOr
  split <;> simp

@[simp] theorem State.memories_enterTrap (s : State) (t : Nat) (q : TrapReq) : (s.enterTrap t q).memories = s.memories := by rfl

@[simp] theorem State.memories_notePassed (s : State) (t k : Nat) : (s.notePassed t k).memories = s.memories := by
  unfold State.notePassed
  dsimp only
  split <;> simp

@[simp] theorem State.memories_sendPoison (s : State) (t : Nat) : (s.sendPoison t).memories = s.memories := by rfl

@[simp] theorem State.memories_branchStands (s : State) (t : Nat) (b : Branch) (rest : List Branch) :
    (s.branchStands t b rest).memories = s.memories := by
  unfold State.branchStands
  (repeat' split) <;> simp

@[simp] theorem State.memories_branchTaken (s : State) (t : Nat) (b : Branch) (rest : List Branch) :
    (s.branchTaken t b rest).memories = s.memories := by
  unfold State.branchTaken
  split <;> simp

@[simp] theorem State.memories_chAccept (s : State) (c n from' : Nat) (w : List W64) : (s.chAccept c n from' w).memories = s.memories := by rfl

@[simp] theorem State.memories_chSend (s : State) (t : Nat) (remote : Bool) (pos n id : Nat) :
    (s.chSend t remote pos n id).memories = s.memories := by
  unfold State.chSend
  split <;> simp

/-! ### Issue -/

@[simp] theorem memories_setRegs (s : State) (t : Nat) (f : Regs → Regs) : (setRegs s t f).memories = s.memories := by rfl

@[simp] theorem State.memories_addLoad (s : State) (t : Nat) (l : Load) : (s.addLoad t l).memories = s.memories := by rfl

@[simp] theorem State.memories_addStore (s : State) (t id isl : Nat) : (s.addStore t id isl).memories = s.memories := by rfl

@[simp] theorem State.memories_request (s : State) (t : Nat) (r : MemReq) (far : Bool) : (s.request t r far).memories = s.memories := by rfl

@[simp] theorem State.memories_answerLoad (s : State) (t id : Nat) (v : W64) (fl : Option Fl) (poison : Bool) :
    (s.answerLoad t id v fl poison).memories = s.memories := by rfl

@[simp] theorem State.memories_doneStore (s : State) (t id : Nat) : (s.doneStore t id).memories = s.memories := by rfl

@[simp] theorem memories_execA (s : State) (t : Nat) (r : Regs) (y : RawSyl) : (execA s t r y).memories = s.memories := by
  unfold execA
  (repeat' split) <;> simp

@[simp] theorem memories_execM (s : State) (t : Nat) (r : Regs) (y : RawSyl) : (execM s t r y).memories = s.memories := by
  unfold execM
  dsimp only
  (repeat' split) <;> simp

@[simp] theorem memories_execH (s : State) (t : Nat) (r : Regs) (y : RawSyl) : (execH s t r y).memories = s.memories := by rfl

@[simp] theorem State.memories_customRead (s : State) (t a : Nat) : (s.customRead t a).memories = s.memories := by
  unfold State.customRead
  dsimp only
  (repeat' split) <;> simp

@[simp] theorem State.memories_poisonOr (s : State) (t : Nat) : (s.poisonOr t).memories = s.memories := by
  unfold State.poisonOr
  split <;> simp

@[simp] theorem memories_execCustom (s : State) (t : Nat) (r : Regs) (y : RawSyl) : (execCustom s t r y).memories = s.memories := by
  unfold execCustom
  dsimp only
  (repeat' split) <;> simp

@[simp] theorem memories_sendEvent (s : State) (t : Nat) (xa : W32) (e : Nat) : (sendEvent s t xa e).memories = s.memories := by simp [sendEvent]

@[simp] theorem State.memories_lockRequest (s : State) (t w : Nat) (op : LockOp) : (s.lockRequest t w op).memories = s.memories := by rfl

@[simp] theorem State.memories_coverHops (s : State) (t a room n : Nat) : (s.coverHops t a room n).memories = s.memories := by
  unfold State.coverHops
  split <;> simp

@[simp] theorem memories_chrEffect (s : State) (t n fa : Nat) : (chrEffect s t n fa).memories = s.memories := by
  unfold chrEffect
  dsimp only
  (repeat' split) <;> simp

@[simp] theorem State.memories_addBranch (s : State) (t : Nat) (taken : Bool) (target : BitVec 16) :
    (s.addBranch t taken target).memories = s.memories := by rfl

@[simp] theorem memories_execB (s : State) (t : Nat) (r : Regs) (next : BitVec 16) (y : RawSyl) : (execB s t r next y).memories = s.memories := by
  unfold execB
  dsimp only
  (repeat' split) <;> simp

@[simp] theorem memories_execSyl (t : Nat) (r : Regs) (next : BitVec 16) (s : State) (y : RawSyl) : (execSyl t r next s y).memories = s.memories := by
  unfold execSyl
  (repeat' split) <;> simp

@[simp] theorem State.memories_countBundle (s : State) (t n : Nat) : (s.countBundle t n).memories = s.memories := by
  unfold State.countBundle
  split <;> simp

@[simp] theorem State.memories_runBundle (s : State) (t : Nat) (ys : List RawSyl) : (s.runBundle t ys).memories = s.memories := by
  have hrun : ∀ (u : State) (x : Thread) (next : BitVec 16), (ys.foldl (fun s y =>
      execSyl t x.regs next (s.modTh t (fun z => if z.busy then { z with pc := x.pc } else z)) y) u).memories = u.memories :=
    fun u x next => State.memories_foldl (fun _ _ => by simp) _ _
  unfold State.runBundle
  dsimp only
  split
  · simp [hrun]
  · split <;> simp [hrun]

@[simp] theorem State.memories_passTurn (s : State) (t : Nat) : (s.passTurn t).memories = s.memories := by rfl

@[simp] theorem State.memories_enterWait (s : State) (t : Nat) (ys : List RawSyl) (w : WaitKind) : (s.enterWait t ys w).memories = s.memories := by
  unfold State.enterWait
  (repeat' split) <;> simp

@[simp] theorem State.memories_startBundle (s : State) (t : Nat) (ys : List RawSyl) : (s.startBundle t ys).memories = s.memories := by
  unfold State.startBundle
  dsimp only
  (repeat' split) <;> simp

theorem State.memories_tryIssue (s : State) (t : Nat) (ys : List RawSyl) (stopped : Bool) (u : State) (h : s.tryIssue t ys stopped = some u) :
    u.memories = s.memories := by
  unfold State.tryIssue at h
  dsimp only at h
  (repeat' split at h) <;> simp at h <;> (subst h; simp)

@[simp] theorem State.memories_syllable (s : State) (y : Syl) (cls op : Nat) : (s.syllable y cls op).memories = s.memories := by
  unfold State.syllable
  dsimp only
  split
  · rfl
  · split
    · exact State.memories_getD fun u hu => State.memories_tryIssue _ _ _ _ _ hu
    · split <;> rfl

/-! ### Pools, cells and descriptors -/

@[simp] theorem State.memories_sendPause (s : State) (p c quanta : Nat) : (s.sendPause p c quanta).memories = s.memories := by
  unfold State.sendPause
  (repeat' split) <;> simp

@[simp] theorem State.memories_flowCheck (s : State) (p c : Nat) : (s.flowCheck p c).memories = s.memories := by
  unfold State.flowCheck
  dsimp only
  (repeat' split) <;> simp

@[simp] theorem State.memories_addAccount (s : State) (p c n : Nat) : (s.addAccount p c n).memories = s.memories := by simp [State.addAccount]

@[simp] theorem State.memories_subAccount (s : State) (p c n : Nat) : (s.subAccount p c n).memories = s.memories := by simp [State.subAccount]

theorem State.memories_takeEntry (s : State) (p k : Nat) (u : Nat × State) (h : s.takeEntry p k = some u) : u.2.memories = s.memories := by
  unfold State.takeEntry at h
  dsimp only at h
  (repeat' split at h) <;> simp at h <;> (subst h; simp)

@[simp] theorem State.memories_allocFail (s : State) (p : Nat) : (s.allocFail p).memories = s.memories := by rfl

@[simp] theorem State.memories_unaccount (s : State) (d : Nat) : (s.unaccount d).memories = s.memories := by simp [State.unaccount]

@[simp] theorem State.memories_badWord (s : State) (p i master access : Nat) :
    (s.badWord p i master access).memories = s.memories := by simp [State.badWord]

@[simp] theorem State.memories_bufRead (s : State) (p i o n master : Nat) : (s.bufRead p i o n master).2.memories = s.memories := by
  unfold State.bufRead
  dsimp only
  split
  · simp
  · split <;> simp

/-! ### Threads between bundles -/

@[simp] theorem State.memories_wake (s : State) (t : Nat) : (s.wake t).memories = s.memories := by simp [State.wake]

@[simp] theorem State.memories_loadLand (s : State) (t : Nat) (reg : RegCode) : (s.loadLand t reg).memories = s.memories := by
  unfold State.loadLand
  (repeat' split) <;> simp

@[simp] theorem State.memories_storeCompletion (s : State) (t : Nat) : (s.storeCompletion t).memories = s.memories := by
  unfold State.storeCompletion
  dsimp only
  (repeat' split) <;> simp

@[simp] theorem State.memories_landBytes (s : State) (t a : Nat) (l : List Byte) : (s.landBytes t a l).memories = s.memories := by
  unfold State.landBytes
  split <;> simp

@[simp] theorem State.memories_helperResult (s : State) (t : Nat) (checkFail : Bool) : (s.helperResult t checkFail).memories = s.memories := by
  unfold State.helperResult
  dsimp only
  (repeat' split) <;> simp

@[simp] theorem State.memories_branchResolve (s : State) (t : Nat) : (s.branchResolve t).memories = s.memories := by
  unfold State.branchResolve
  (repeat' split) <;> simp

@[simp] theorem State.memories_wfeWake (s : State) (t : Nat) : (s.wfeWake t).memories = s.memories := by
  unfold State.wfeWake
  (repeat' split) <;> simp

@[simp] theorem State.memories_timerFalls (s : State) (n t : Nat) : (s.timerFalls n t).memories = s.memories := by
  unfold State.timerFalls
  dsimp only
  (repeat' split) <;> simp

@[simp] theorem State.memories_timerExpire (s : State) (t : Nat) : (s.timerExpire t).memories = s.memories := by simp [State.timerExpire]

@[simp] theorem State.memories_chcUnblock (s : State) (c : Nat) (remote : Bool) (pos n : Nat) :
    (s.chcUnblock c remote pos n).memories = s.memories := by
  unfold State.chcUnblock
  dsimp only
  (repeat' split) <;> simp

@[simp] theorem State.memories_remoteMessage (s : State) (a b : Nat) : (s.remoteMessage a b).memories = s.memories := by
  unfold State.remoteMessage
  dsimp only
  (repeat' split) <;> simp

@[simp] theorem State.memories_creditReturn (s : State) (a b : Nat) : (s.creditReturn a b).memories = s.memories := by
  unfold State.creditReturn
  split <;> simp

@[simp] theorem State.memories_quiesce (s : State) (c : Nat) : (s.quiesce c).memories = s.memories := by
  unfold State.quiesce
  split <;> simp

@[simp] theorem State.memories_nmiEntry (s : State) (t : Nat) : (s.nmiEntry t).memories = s.memories := by
  unfold State.nmiEntry
  dsimp only
  (repeat' split) <;> simp

@[simp] theorem State.memories_trapEntry (s : State) (t : Nat) : (s.trapEntry t).memories = s.memories := by
  unfold State.trapEntry
  (repeat' split) <;> simp

@[simp] theorem State.memories_lockGrantArrive (s : State) (g c : Nat) : (s.lockGrantArrive g c).memories = s.memories := by
  unfold State.lockGrantArrive
  dsimp only
  (repeat' split) <;> simp

@[simp] theorem State.memories_granted (s : State) (t : Nat) : (s.granted t).memories = s.memories := by
  unfold State.granted
  dsimp only
  split <;> simp

@[simp] theorem State.memories_takeGrant (s : State) (t : Nat) : (s.takeGrant t).memories = s.memories := by
  unfold State.takeGrant
  split <;> simp

@[simp] theorem State.memories_ordGrantArrive (s : State) (c : Nat) : (s.ordGrantArrive c).memories = s.memories := by
  unfold State.ordGrantArrive
  dsimp only
  (repeat' split) <;> simp

@[simp] theorem State.memories_effectAckArrive (s : State) (c : Nat) : (s.effectAckArrive c).memories = s.memories := by
  unfold State.effectAckArrive
  dsimp only
  (repeat' split) <;> simp

@[simp] theorem State.memories_threadHalt (s : State) (t : Nat) : (s.threadHalt t).memories = s.memories := by
  unfold State.threadHalt
  dsimp only
  split <;> simp

@[simp] theorem State.memories_abortThread (s : State) (t : Nat) (conseq : Bool) :
    (s.abortThread t conseq).memories = s.memories := by simp [State.abortThread]

@[simp] theorem State.memories_threadAbort (s : State) (t : Nat) : (s.threadAbort t).memories = s.memories := by
  unfold State.threadAbort
  dsimp only
  (repeat' split) <;> simp

@[simp] theorem State.memories_startThread (s : State) (c : Nat) (m : DispatchMsg) : (s.startThread c m).memories = s.memories := by
  unfold State.startThread
  dsimp only
  split <;> simp

@[simp] theorem State.memories_threadDispatch (s : State) (c : Nat) : (s.threadDispatch c).memories = s.memories := by
  unfold State.threadDispatch
  (repeat' split) <;> simp

@[simp] theorem State.memories_headerBytes (s : State) (t : Nat) : (s.headerBytes t).memories = s.memories := by
  unfold State.headerBytes
  dsimp only
  split <;> simp

/-! ### The Sequencer and the Atomizer -/

@[simp] theorem State.memories_raiseRec (s : State) (kind r : Nat) (conseq : Bool) :
    (s.raiseRec kind r conseq).memories = s.memories := by simp [State.raiseRec]

@[simp] theorem State.memories_sendAbort (s : State) (r : Nat) (conseq : Bool) : (s.sendAbort r conseq).memories = s.memories := by
  unfold State.sendAbort
  dsimp only
  split <;> simp

@[simp] theorem State.memories_requeue (s : State) (r : Nat) : (s.requeue r).memories = s.memories := by rfl

@[simp] theorem State.memories_faultHeld (s : State) (r kind : Nat) : (s.faultHeld r kind).memories = s.memories := by
  unfold State.faultHeld
  split <;> simp

@[simp] theorem State.memories_eccRecord (s : State) (r : Nat) (found : Option (Nat × Nat)) : (s.eccRecord r found).memories = s.memories := by
  unfold State.eccRecord
  dsimp only
  (repeat' split) <;> simp

@[simp] theorem State.memories_newRec (s : State) (r : Nat) (x : Rec) : (s.newRec r x).memories = s.memories := by rfl

@[simp] theorem State.memories_acceptTask (s : State) : s.acceptTask.memories = s.memories := by
  unfold State.acceptTask
  dsimp only
  (repeat' split) <;> simp

@[simp] theorem State.memories_threadFreeArrive (s : State) (c : Nat) : (s.threadFreeArrive c).memories = s.memories := by
  unfold State.threadFreeArrive
  split <;> simp

/-! ### The Ingress Front End -/

@[simp] theorem State.memories_parseCounted (s : State) (i : Nat) (w : Walk) : (s.parseCounted i w).memories = s.memories :=
  (congrArg State.memories (s.butCounts_parseCounted i w) :)

@[simp] theorem State.memories_parseFrame (s : State) (i tag : Nat) (f : RxFrame) : (s.parseFrame i tag f).memories = s.memories := by
  obtain ⟨w, hw⟩ : ∃ w, parseWalk s tag f.data = w := ⟨_, rfl⟩
  obtain ⟨c, hc⟩ : ∃ c, classify s tag i (classKey s tag f w) = c := ⟨_, rfl⟩
  rw [parseFrame_eq hw hc]
  cases (s.slc i).firstBad tag w c with
  | none => simp [State.memories_ite]
  | some row => simp

@[simp] theorem State.memories_parseStart (s : State) (i : Nat) : (s.parseStart i).memories = s.memories := by
  unfold State.parseStart
  (repeat' split) <;> simp

@[simp] theorem State.memories_takeDesc (s : State) (i d : Nat) (x : InFlight) : (s.takeDesc i d x).memories = s.memories := by rfl

@[simp] theorem State.memories_cellWaits (s : State) (i : Nat) (x : InFlight) (denied : Bool) : (s.cellWaits i x denied).memories = s.memories := by
  unfold State.cellWaits
  split <;> simp

@[simp] theorem State.memories_sliceMarker (s : State) (i : Nat) : (s.sliceMarker i).memories = s.memories := by
  unfold State.sliceMarker
  split <;> simp

@[simp] theorem State.memories_sliceRelease (s : State) (i : Nat) : (s.sliceRelease i).memories = s.memories := by
  unfold State.sliceRelease
  (repeat' split) <;> simp

/-! ### The Port Array -/

@[simp] theorem State.memories_portEvent (s : State) (p bit : Nat) : (s.portEvent p bit).memories = s.memories := by
  unfold State.portEvent
  split <;> simp

@[simp] theorem State.memories_bandwidth (s : State) (p rx tx : Nat) : (s.bandwidth p rx tx).memories = s.memories := by rfl

@[simp] theorem State.memories_pauseReceived (s : State) (p : Nat) (l : List Byte) : (s.pauseReceived p l).memories = s.memories := by
  unfold State.pauseReceived
  dsimp only
  (repeat' split) <;> simp

@[simp] theorem State.memories_modSa (s : State) (i : Nat) (f : SaState → SaState) : (s.modSa i f).memories = s.memories := by rfl

@[simp] theorem State.memories_pnThreshold (s : State) (p i : Nat) : (s.pnThreshold p i).memories = s.memories := by
  unfold State.pnThreshold
  dsimp only
  split <;> simp

@[simp] theorem State.memories_secFail (s : State) (p c : Nat) : (s.secFail p c).memories = s.memories := by rfl

@[simp] theorem State.memories_secReceive (s : State) (p : Nat) (l : List Byte) : (s.secReceive p l).2.memories = s.memories := by
  unfold State.secReceive
  dsimp only
  split
  · rfl
  · split
    · simp
    · simp [State.memories_snd_ite]

@[simp] theorem State.memories_toFifo (s : State) (p : Nat) (f : RxFrame) : (s.toFifo p f).memories = s.memories := by
  unfold State.toFifo
  dsimp only
  split <;> simp

@[simp] theorem State.memories_passFrame (s : State) (p wire : Nat) (l : List Byte) : (s.passFrame p wire l).memories = s.memories := by
  have hopened : (if etherType l = 0x88E5 then s.secReceive p l else (none, s)).2.memories = s.memories := by
    simp [State.memories_snd_ite]
  unfold State.passFrame
  dsimp only
  split
  · simp
  · split
    · simp
    · split
      · simp [hopened]
      · simp [State.memories_ite, hopened]

@[simp] theorem State.memories_frameReceive (s : State) (p : Nat) (wire : List Byte) (fecBad : Bool) :
    (s.frameReceive p wire fecBad).memories = s.memories := by
  unfold State.frameReceive
  dsimp only
  (repeat' split) <;> simp

@[simp] theorem State.memories_fifoPass (s : State) (p : Nat) : (s.fifoPass p).memories = s.memories := by
  unfold State.fifoPass
  dsimp only
  (repeat' split) <;> simp

@[simp] theorem State.memories_pauseRepeat (s : State) (p c : Nat) : (s.pauseRepeat p c).memories = s.memories := by
  unfold State.pauseRepeat
  split <;> simp

@[simp] theorem State.memories_twoStep (s : State) (p : Nat) (tag : BitVec 16) (egress : BitVec 64) :
    (s.twoStep p tag egress).memories = s.memories := by
  unfold State.twoStep
  dsimp only
  (repeat' split) <;> simp

@[simp] theorem State.memories_lockLost (s : State) (l : Nat) : (s.lockLost l).memories = s.memories := by
  unfold State.lockLost
  (repeat' split) <;> simp

@[simp] theorem State.memories_lockBack (s : State) (l : Nat) : (s.lockBack l).memories = s.memories := by
  unfold State.lockBack
  (repeat' split) <;> simp

@[simp] theorem State.memories_portDown (s : State) (p : Nat) (off : Bool) : (s.portDown p off).memories = s.memories := by
  unfold State.portDown
  (repeat' split) <;> simp

@[simp] theorem State.memories_portUp (s : State) (p : Nat) : (s.portUp p).memories = s.memories := by
  unfold State.portUp
  split <;> simp

@[simp] theorem State.memories_remoteFault (s : State) (p : Nat) : (s.remoteFault p).memories = s.memories := by
  unfold State.remoteFault
  split <;> simp

@[simp] theorem State.memories_fecWindow (s : State) (p n : Nat) : (s.fecWindow p n).memories = s.memories := by
  unfold State.fecWindow
  dsimp only
  split <;> simp

@[simp] theorem State.memories_ppsEdge (s : State) : s.ppsEdge.memories = s.memories := by
  unfold State.ppsEdge
  dsimp only
  split <;> simp

@[simp] theorem State.memories_todMessage (s : State) : s.todMessage.memories = s.memories := by
  unfold State.todMessage
  split <;> simp

/-! ### The Queue Manager -/

@[simp] theorem State.memories_modChild (s : State) (lvl n : Nat) (f : Child → Child) : (s.modChild lvl n f).memories = s.memories := by rfl

@[simp] theorem State.memories_creditNode (s : State) (lvl n : Nat) : (s.creditNode lvl n).memories = s.memories := by rfl

@[simp] theorem State.memories_countDrop (s : State) (q cause : Nat) : (s.countDrop q cause).memories = s.memories := by rfl

@[simp] theorem State.memories_queueEcc (s : State) (q : Nat) (master : Nat) (access : Nat) : (s.queueEcc q master access).memories = s.memories := by
  unfold State.queueEcc
  split <;> simp

@[simp] theorem State.memories_admission (s : State) (q d len : Nat) : (s.admission q d len).2.memories = s.memories := by
  unfold State.admission
  dsimp only
  (repeat' split) <;> simp

theorem State.memories_spillPlace (s : State) (q size : Nat) (u : Nat × Nat × State) (h : s.spillPlace q size = some u) :
    u.2.2.memories = s.memories := by
  unfold State.spillPlace at h
  dsimp only at h
  (repeat' split at h) <;> simp at h <;> (subst h; rfl)

@[simp] theorem State.memories_pageLeft (s : State) (q pg : Nat) : (s.pageLeft q pg).memories = s.memories := by
  unfold State.pageLeft
  dsimp only
  split <;> simp

@[simp] theorem State.memories_noteLinked (s : State) (t : LinkTie) : (s.noteLinked t).memories = s.memories := by rfl

@[simp] theorem State.memories_takeEdits (s : State) (d : Nat) : (s.takeEdits d).2.memories = s.memories := by rfl

theorem State.memories_dwrr (lvl n ph p : Nat) (set : List Nat) (f : Nat) : ∀ (s : State) (r : Nat × State),
    State.dwrr lvl n ph p set f s = some r → r.2.memories = s.memories := by
  induction f with
  | zero => simp [State.dwrr]
  | succ f ih =>
    intro s r h
    unfold State.dwrr at h
    dsimp only at h
    split at h
    · simp at h
    · split at h
      · simp only [Option.some.injEq] at h
        rw [← h]
      · simpa using ih _ _ h

theorem State.memories_chooseChild (s : State) (lvl n : Nat) (set : List Nat) (r : Nat × Nat × State)
    (h : s.chooseChild lvl n set = some r) : r.2.2.memories = s.memories := by
  have hchosen : ∀ {ph p f : Nat} {l : List Nat}, (State.dwrr lvl n ph p l f s).map (fun r => (r.1, ph, r.2)) = some r →
      r.2.2.memories = s.memories := fun heq => by
    obtain ⟨q, hq, rfl⟩ := Option.map_eq_some_iff.1 heq
    exact State.memories_dwrr _ _ _ _ _ _ _ q hq
  unfold State.chooseChild at h
  dsimp only at h
  split at h
  · exact hchosen h
  · split at h
    · simp at h
    · exact hchosen h

theorem State.memories_descend (f : Nat) : ∀ (lvl n : Nat) (paths : List (List Nat)) (s : State) (r : List (Nat × Nat) × State),
    State.descend f lvl n paths s = some r → r.2.memories = s.memories := by
  induction f with
  | zero =>
    intro lvl n paths s r h
    obtain rfl := Option.some.inj h
    rfl
  | succ f ih =>
    intro lvl n paths s r h
    unfold State.descend at h
    split at h
    next => simp at h
    next c ph t hchoose =>
      obtain ⟨q, hq, rfl⟩ := Option.map_eq_some_iff.1 h
      exact (ih _ _ _ _ _ hq).trans (State.memories_chooseChild _ _ _ _ _ hchoose)

@[simp] theorem State.memories_charge (s : State) (l0 : Nat) (path : List (Nat × Nat)) (len : Int) :
    (s.charge l0 path len).memories = s.memories := by simp [State.charge]

@[simp] theorem State.memories_clearEmpty (s : State) (path : List Nat) :
    (s.clearEmpty path).memories = s.memories := by simp [State.clearEmpty, State.memories_ite]

@[simp] theorem State.memories_creditPaths (s : State) (l0 : Nat) (paths : List (List Nat)) :
    (s.creditPaths l0 paths).memories = s.memories := by simp [State.creditPaths]

@[simp] theorem State.memories_creditPort (s : State) (l0 : Nat) : (s.creditPort l0).memories = s.memories := by simp [State.creditPort]

theorem State.memories_takeShared (n : Nat) : ∀ (s : State) (r : List Nat × State), s.takeShared n = some r → r.2.memories = s.memories := by
  induction n with
  | zero =>
    intro s r h
    obtain rfl := Option.some.inj h
    rfl
  | succ n ih =>
    intro s r h
    unfold State.takeShared at h
    split at h
    next => simp at h
    next =>
      split at h
      next => simp at h
      next c t hentry =>
        obtain ⟨q, hq, rfl⟩ := Option.map_eq_some_iff.1 h
        exact (ih _ _ hq).trans (State.memories_takeEntry _ _ _ _ hentry)

@[simp] theorem State.memories_ringHalt (s : State) (cls r master access : Nat) :
    (s.ringHalt cls r master access).memories = s.memories := by simp [State.ringHalt]

@[simp] theorem State.memories_ringCause (s : State) (d2h : Bool) (r : Nat) : (s.ringCause d2h r).memories = s.memories := by
  unfold State.ringCause
  dsimp only
  (repeat' split) <;> simp

@[simp] theorem State.memories_advanceHead (s : State) (k n : Nat) : (s.advanceHead k n).memories = s.memories := by rfl

@[simp] theorem State.memories_h2dDone (s : State) (r : Nat) (e : HostEntry) (err : Bool) :
    (s.h2dDone r e err).memories = s.memories := by simp [State.h2dDone]

@[simp] theorem State.memories_fillEntries (r : Nat) (poison : Bool) (t : List HostEntry) : ∀ (s : State) (first : Bool) (l : List Byte),
    (s.fillEntries r poison first t l).memories = s.memories := by
  induction t with
  | nil => intro s first l; rfl
  | cons e t ih => intro s first l; simp [State.fillEntries, ih]

/-! ### Replies and completions -/

@[simp] theorem State.memories_loseReply (s : State) : s.loseReply.memories = s.memories := by rfl

@[simp] theorem State.memories_flushReplies (n : Nat) : ∀ s : State, (s.flushReplies n).memories = s.memories := by
  induction n with
  | zero => intro s; rfl
  | succ n ih =>
    intro s
    unfold State.flushReplies
    split
    · rfl
    · split
      · simp [ih]
      · rfl

@[simp] theorem State.memories_modIssuer (s : State) (i : Nat) (f : Issuer → Issuer) : (s.modIssuer i f).memories = s.memories := by rfl

/-! ### The Atomic and Lock Unit -/

@[simp] theorem State.memories_poisonFor (s : State) (r : MemReq) : (s.poisonFor r).memories = s.memories := by rfl

@[simp] theorem State.memories_refuseMem (s : State) (r : MemReq) (kind : Nat) (conseq : Bool) :
    (s.refuseMem r kind conseq).memories = s.memories := by
  unfold State.refuseMem
  split <;> simp

@[simp] theorem State.memories_lockEcc (s : State) (w master : Nat) (access : Nat) : (s.lockEcc w master access).memories = s.memories := by
  unfold State.lockEcc
  split <;> simp

@[simp] theorem State.memories_ownAgain (s : State) (w : Nat) : (s.ownAgain w).2.memories = s.memories := by
  unfold State.ownAgain
  split <;> simp

@[simp] theorem State.memories_foreignRelease (s : State) (w master : Nat) :
    (s.foreignRelease w master).2.memories = s.memories := by simp [State.foreignRelease]

/-! ### The DRAM channels -/

@[simp] theorem State.memories_farIssue (s : State) (r : MemReq) (v : W64) : (s.farIssue r v).memories = s.memories := by
  unfold State.farIssue
  dsimp only
  split <;> simp

@[simp] theorem State.memories_farLoad (s : State) (r : MemReq) : (s.farLoad r).memories = s.memories := by
  unfold State.farLoad
  dsimp only
  (repeat' split) <;> simp

@[simp] theorem State.memories_preemptCheck (s : State) (c : Nat) : (s.preemptCheck c).memories = s.memories := by
  unfold State.preemptCheck
  dsimp only
  (repeat' split) <;> simp

@[simp] theorem State.memories_refreshDue (s : State) (c rank : Nat) : (s.refreshDue c rank).memories = s.memories := by
  unfold State.refreshDue
  dsimp only
  (repeat' split) <;> simp

@[simp] theorem State.memories_payOperation (s : State) (c : Nat) : (s.payOperation c).memories = s.memories := by simp [State.payOperation]

@[simp] theorem State.memories_payRefresh (s : State) (c : Nat) : (s.payRefresh c).memories = s.memories := by
  unfold State.payRefresh
  dsimp only
  (repeat' split) <;> simp

@[simp] theorem State.memories_openFor (s : State) (c : Nat) (r : DramReq) (aged : Bool) : (s.openFor c r aged).memories = s.memories := by
  unfold State.openFor
  dsimp only
  split <;> simp

@[simp] theorem State.memories_serve (s : State) (c : Nat) (r : DramReq) (aged : Bool) (conseq : Bool) :
    (s.serve c r aged conseq).memories = s.memories := by
  unfold State.serve
  (repeat' split) <;> simp

@[simp] theorem State.memories_sweepLine (s : State) (c : Nat) : (s.sweepLine c).memories = s.memories := by rfl

@[simp] theorem State.memories_commandSlot (s : State) (c : Nat) : (s.commandSlot c).memories = s.memories := by
  unfold State.commandSlot
  dsimp only
  (repeat' split) <;> simp

@[simp] theorem State.memories_setHot (s : State) (c : Nat) (hot : Bool) : (s.setHot c hot).memories = s.memories := by simp [State.setHot]

@[simp] theorem State.memories_tempRead (s : State) (c : Nat) (t : Int) : (s.tempRead c t).memories = s.memories := by
  unfold State.tempRead
  dsimp only
  split <;> simp

@[simp] theorem State.memories_tempLost (s : State) (c : Nat) : (s.tempLost c).memories = s.memories := by
  unfold State.tempLost
  split <;> simp

@[simp] theorem State.memories_upset (s : State) (c : Nat) (u : Upset) : (s.upset c u).memories = s.memories := by
  unfold State.upset
  dsimp only
  split <;> simp

@[simp] theorem State.memories_writeBack (s : State) (l : Nat) : (s.writeBack l).memories = s.memories := by rfl

@[simp] theorem State.memories_patrol (s : State) (c : Nat) (before after : List Upset) : (s.patrol c before after).memories = s.memories := by
  simp [State.patrol, State.memories_ite]

@[simp] theorem State.memories_trainFail (s : State) (c step : Nat) : (s.trainFail c step).memories = s.memories := by simp [State.trainFail]

@[simp] theorem State.memories_modDecant (s : State) (f : Decant → Decant) : (s.modDecant f).memories = s.memories := by rfl

@[simp] theorem State.memories_startDecant (s : State) (c : Nat) (hold : Bool) : (s.startDecant c hold).memories = s.memories := by rfl

@[simp] theorem State.memories_copyLines (s : State) (d : Decant) (n : Nat) : (s.copyLines d n).memories = s.memories := by
  simp [State.copyLines, State.memories_ite]

@[simp] theorem State.memories_moveLines (s : State) (n : Nat) : (s.moveLines n).memories = s.memories := by
  unfold State.moveLines
  split <;> simp

@[simp] theorem State.memories_copyOutDone (s : State) : s.copyOutDone.memories = s.memories := by
  unfold State.copyOutDone
  (repeat' split) <;> simp

/-! ### Tables -/

@[simp] theorem State.memories_readRow (s : State) (b : By) (bank row : Nat) : (s.readRow b bank row).2.memories = s.memories := by
  unfold State.readRow
  dsimp only
  split <;> simp

@[simp] theorem State.memories_readCandidates (b : By) (d : ObjWord) (key : List Byte) (l : List TEntry) : ∀ s : State,
    (s.readCandidates b d key l).2.memories = s.memories := by
  induction l with
  | nil => intro s; rfl
  | cons e l ih =>
    intro s
    unfold State.readCandidates
    dsimp only
    split
    · simp
    · split
      · simp
      · simp [ih]

@[simp] theorem State.memories_lookExact (s : State) (x : TStruct) (a : Nat) (key : List Byte) (b : By) :
    (s.lookExact x a key b).2.memories = s.memories := by
  unfold State.lookExact
  dsimp only
  split <;> simp

@[simp] theorem State.memories_lookExt (s : State) (x : TStruct) (a : Nat) (key : List Byte) (b : By) :
    (s.lookExt x a key b).2.memories = s.memories := by
  unfold State.lookExt
  dsimp only
  (repeat' split) <;> simp

@[simp] theorem State.memories_readSome (b : By) (d : ObjWord) (n : Nat) : ∀ s : State, (s.readSome b d n).2.memories = s.memories := by
  induction n with
  | zero => intro s; rfl
  | succ n ih => intro s; simp [State.readSome, ih]

@[simp] theorem State.memories_lookLpm (s : State) (x : TStruct) (a : Nat) (key : List Byte) (b : By) :
    (s.lookLpm x a key b).2.memories = s.memories := by
  unfold State.lookLpm
  dsimp only
  (repeat' split) <;> simp

@[simp] theorem State.memories_lookTern (s : State) (x : TStruct) (a : Nat) (key : List Byte) (b : By) :
    (s.lookTern x a key b).2.memories = s.memories := by
  unfold State.lookTern
  dsimp only
  (repeat' split) <;> simp

@[simp] theorem State.memories_lookTable (s : State) (num a : Nat) (key : List Byte) (b : By) :
    (s.lookTable num a key b).2.memories = s.memories := by
  unfold State.lookTable
  dsimp only
  split <;> simp

@[simp] theorem State.memories_hopDone (s : State) (t id : Nat) (r : HelperRes) : (s.hopDone t id r).memories = s.memories := by rfl

@[simp] theorem State.memories_lookup (s : State) (t : Nat) : (s.lookup t).memories = s.memories := by
  unfold State.lookup
  dsimp only
  (repeat' split) <;> simp

@[simp] theorem State.memories_setRoot (s : State) (x : TStruct) (a : Nat) (l : List LpmEntry) : (s.setRoot x a l).memories = s.memories := by rfl

@[simp] theorem State.memories_recordLookup (s : State) (num a : Nat) (body : List Byte) (master : Nat) :
    (s.recordLookup num a body master).2.2.memories = s.memories := by
  have hlook := State.memories_lookTable s num a body { master := master, access := 1, ev := 0x11 }
  unfold State.recordLookup
  dsimp only
  split
  · rfl
  · split
    · rfl
    · split
      · rfl
      · split
        · split <;> simp
        · split
          all_goals
            rename_i heq
            rw [heq] at hlook
            exact hlook

@[simp] theorem State.memories_repairRow (s : State) (phys row : Nat) : (s.repairRow phys row).memories = s.memories := by
  unfold State.repairRow
  dsimp only
  split <;> simp

@[simp] theorem State.memories_bankScrub (s : State) (phys : Nat) (corrected damaged : List Nat) :
    (s.bankScrub phys corrected damaged).memories = s.memories := by simp [State.bankScrub]

/-! ### The Task Scheduler -/

@[simp] theorem State.memories_unlistTask (s : State) (n : Nat) : (s.unlistTask n).memories = s.memories := by rfl

@[simp] theorem State.memories_delayTask (s : State) (n due : Nat) : (s.delayTask n due).memories = s.memories := by rfl

@[simp] theorem State.memories_readyTask (s : State) (n : Nat) : (s.readyTask n).memories = s.memories := by rfl

@[simp] theorem State.memories_taskEcc (s : State) (n : Nat) (master : Nat) (access : Nat) : (s.taskEcc n master access).memories = s.memories := by
  unfold State.taskEcc
  split <;> simp

@[simp] theorem State.memories_tick (s : State) : s.tick.memories = s.memories := by
  unfold State.tick
  dsimp only
  split
  · rfl
  · exact State.memories_foldl (fun _ _ => by simp [State.memories_ite]) _ _

@[simp] theorem State.memories_taskOffer (s : State) : s.taskOffer.memories = s.memories := by
  unfold State.taskOffer
  dsimp only
  (repeat' split) <;> simp

@[simp] theorem State.memories_taskReturn (s : State) (n : Nat) (passed : Bool) : (s.taskReturn n passed).memories = s.memories := by
  unfold State.taskReturn
  dsimp only
  split <;> simp

@[simp] theorem State.memories_taskRestamp (s : State) : s.taskRestamp.memories = s.memories := by
  unfold State.taskRestamp
  split <;> simp

@[simp] theorem State.memories_taskMarker (s : State) : s.taskMarker.memories = s.memories := by
  unfold State.taskMarker
  split <;> simp

@[simp] theorem State.memories_taskRearm (s : State) (n : Nat) : (s.taskRearm n).memories = s.memories := by
  unfold State.taskRearm
  dsimp only
  (repeat' split) <;> simp

@[simp] theorem State.memories_taskRunEnd (s : State) : s.taskRunEnd.memories = s.memories := by
  unfold State.taskRunEnd
  dsimp only
  (repeat' split) <;> simp

@[simp] theorem State.memories_taskArm (s : State) (n d : Nat) : (s.taskArm n d).2.memories = s.memories := by
  unfold State.taskArm
  dsimp only
  (repeat' split) <;> simp

@[simp] theorem State.memories_cancelDue (s : State) : s.cancelDue.memories = s.memories := by rfl

@[simp] theorem State.memories_taskCancel (s : State) (n : Nat) : (s.taskCancel n).2.memories = s.memories := by
  unfold State.taskCancel
  dsimp only
  (repeat' split) <;> simp

@[simp] theorem State.memories_taskFree (s : State) (n : Nat) : (s.taskFree n).2.memories = s.memories := by
  unfold State.taskFree
  dsimp only
  split <;> simp

/-! ### Packets at the Steward -/

@[simp] theorem State.memories_haltCmd (s : State) : s.haltCmd.memories = s.memories := by simp [State.haltCmd]

@[simp] theorem State.memories_haltRpl (s : State) : s.haltRpl.memories = s.memories := by simp [State.haltRpl]

theorem State.memories_takeFrom (s : State) (via : Via) (bytes : List Byte) (u : Option Origin × State) (h : s.takeFrom via bytes = some u) :
    u.2.memories = s.memories := by
  unfold State.takeFrom at h
  dsimp only at h
  (repeat' split at h) <;> simp at h <;> (obtain ⟨-, rfl⟩ := h; simp)

theorem State.memories_takePacket (s : State) (via : Via) (bytes : List Byte) (r : Option Origin × State)
    (h : s.takePacket via bytes = some r) : r.2.memories = s.memories := by
  unfold State.takePacket at h
  split at h
  · simp at h
  · split at h
    · simp at h
    · obtain ⟨q, hq, rfl⟩ := Option.map_eq_some_iff.1 h
      simpa using State.memories_takeFrom _ _ _ _ hq

@[simp] theorem State.memories_keepPacket (s : State) (via : Via) (bytes : List Byte) : (s.keepPacket via bytes).memories = s.memories := by rfl

@[simp] theorem State.memories_authReject (s : State) (o : Origin) (slot : Nat) : (s.authReject o slot).memories = s.memories := by
  unfold State.authReject
  dsimp only
  split <;> simp

@[simp] theorem State.memories_consume (s : State) (k : Pkt) : (s.consume k).memories = s.memories := by rfl

@[simp] theorem State.memories_reserve (s : State) (i : Nat) : (s.reserve i).memories = s.memories := by
  unfold State.reserve
  dsimp only
  split <;> simp

@[simp] theorem State.memories_i2cRead (s : State) : s.i2cRead.memories = s.memories := by
  unfold State.i2cRead
  split <;> simp

/-! ### Boot flash and manifests -/

@[simp] theorem State.memories_flashWrite (s : State) (a : Nat) (l : List Byte) : (s.flashWrite a l).memories = s.memories := by rfl

@[simp] theorem State.memories_flashErase (s : State) (a n : Nat) : (s.flashErase a n).memories = s.memories := by rfl

@[simp] theorem State.memories_setSlot (s : State) (k : Nat) (x : SlotState) : (s.setSlot k x).memories = s.memories := by rfl

@[simp] theorem State.memories_manifestStatus (s : State) (check rollback slot : Nat) :
    (s.manifestStatus check rollback slot).2.memories = s.memories := by
  unfold State.manifestStatus
  (repeat' split) <;> simp

@[simp] theorem State.memories_testImage (s : State) : s.testImage.2.memories = s.memories := by
  unfold State.testImage
  split <;> simp

@[simp] theorem State.memories_noteWritten (s : State) (sel : Nat) : (s.noteWritten sel).memories = s.memories := by rfl

@[simp] theorem State.memories_raiseCount (s : State) : s.raiseCount.memories = s.memories := by
  unfold State.raiseCount
  (repeat' split) <;> simp

/-! ### The Buffer Pool Manager -/

@[simp] theorem State.memories_loseEntries (s : State) (p : Nat) (l : List Nat) : (s.loseEntries p l).memories = s.memories := by
  unfold State.loseEntries
  dsimp only
  split <;> simp

@[simp] theorem State.memories_cacheRefill (s : State) (p k : Nat) : (s.cacheRefill p k).memories = s.memories := by
  unfold State.cacheRefill
  dsimp only
  (repeat' split) <;> simp

@[simp] theorem State.memories_cellEcc (s : State) (a master : Nat) : (s.cellEcc a master).memories = s.memories := by simp [State.cellEcc]

theorem State.memories_headCellsFor (n : Nat) : ∀ (s : State) (r : List Nat × State), s.headCellsFor n = some (some r) →
    r.2.memories = s.memories := by
  induction n with
  | zero =>
    intro s r h
    obtain rfl := Option.some.inj (Option.some.inj h)
    rfl
  | succ n ih =>
    intro s r h
    unfold State.headCellsFor at h
    split at h
    next => simp at h
    next =>
      split at h
      next => split at h <;> simp at h
      next c t hentry =>
        split at h
        next => simp at h
        next => simp at h
        next l u hrest =>
          obtain rfl := Option.some.inj (Option.some.inj h)
          exact (ih _ _ hrest).trans (State.memories_takeEntry _ _ _ _ hentry)

@[simp] theorem State.memories_hopAccepted (s : State) (t id : Nat) : (s.hopAccepted t id).memories = s.memories := by rfl

/-! ### The Data Port -/

@[simp] theorem State.memories_modWin (s : State) (w : Nat) (f : Window → Window) : (s.modWin w f).memories = s.memories := by rfl

@[simp] theorem State.memories_winError (s : State) (w : Nat) : (s.winError w).memories = s.memories := by
  unfold State.winError
  split <;> simp

@[simp] theorem State.memories_winDrop (s : State) (w : Nat) : (s.winDrop w).memories = s.memories := by rfl

@[simp] theorem State.memories_programSlot (s : State) (w p : Nat) (l : List Byte) :
    (s.programSlot w p l).memories = s.memories := by simp [State.programSlot]

@[simp] theorem State.memories_hostLoad (s : State) (x : Window) (p n master : Nat) : (s.hostLoad x p n master).2.2.memories = s.memories := by
  unfold State.hostLoad
  split <;> simp

@[simp] theorem State.memories_winClose (s : State) (w : Nat) : (s.winClose w).memories = s.memories := by rfl

@[simp] theorem State.memories_bankWritten (s : State) (c tag : Nat) : (s.bankWritten c tag).memories = s.memories := by
  unfold State.bankWritten
  dsimp only
  split <;> simp

@[simp] theorem State.memories_stageBank (s : State) (m : Mem) : (s.stageBank m).memories = s.memories := by
  simp [State.stageBank]

@[simp] theorem State.memories_winApply (s : State) (w : Nat) : (s.winApply w).2.memories = s.memories := by
  unfold State.winApply
  dsimp only
  (repeat' split) <;> simp

@[simp] theorem State.memories_bar2Read (s : State) (w o n : Nat) : (s.bar2Read w o n).memories = s.memories := by
  unfold State.bar2Read
  dsimp only
  (repeat' split) <;> simp

/-! ### Block resets -/

@[simp] theorem State.memories_undispatch (s : State) (d : DispatchMsg) : (s.undispatch d).memories = s.memories := by
  unfold State.undispatch
  dsimp only
  split <;> simp

@[simp] theorem State.memories_taskHead (s : State) (n : Nat) : (s.taskHead n).memories = s.memories := by
  unfold State.taskHead
  split <;> simp

@[simp] theorem State.memories_clearMarker (s : State) (i : Nat) : (s.clearMarker i).memories = s.memories := by rfl

@[simp] theorem State.memories_markersReturned (s : State) : s.markersReturned.memories = s.memories := by
  unfold State.markersReturned
  exact State.memories_foldl (fun _ _ => by simp [State.memories_ite]) _ _

@[simp] theorem State.memories_refuseHops (s : State) (b : Nat) : (s.refuseHops b).memories = s.memories := by simp [State.refuseHops]

@[simp] theorem State.memories_extraitSettings (s : State) (c : Nat) : (s.extraitSettings c).memories = s.memories := by
  unfold State.extraitSettings
  split <;> simp

@[simp] theorem State.memories_ownSettings (s : State) (c : Nat) : (s.ownSettings c).memories = s.memories := by rfl

@[simp] theorem State.memories_resetSlice (s : State) (i : Nat) : (s.resetSlice i).memories = s.memories := by
  unfold State.resetSlice
  dsimp only
  split <;> simp

@[simp] theorem State.memories_resetGroup (s : State) (g : Nat) : (s.resetGroup g).memories = s.memories := by rfl

@[simp] theorem State.memories_resetTasks (s : State) : s.resetTasks.memories = s.memories := by
  unfold State.resetTasks
  dsimp only
  split <;> simp

@[simp] theorem State.memories_resetChannel (s : State) (c : Nat) : (s.resetChannel c).memories = s.memories := by simp [State.resetChannel]

@[simp] theorem State.memories_resetObserver (s : State) : s.resetObserver.memories = s.memories := by rfl

@[simp] theorem State.memories_serveMode (s : State) (c : Nat) : (s.serveMode c).memories = s.memories := by
  unfold State.serveMode
  split <;> simp

@[simp] theorem State.memories_emptyChannels (s : State) (c : Nat) :
    (s.emptyChannels c).memories = s.memories := by simp [State.emptyChannels, State.memories_ite]

@[simp] theorem State.memories_backInService (s : State) (i : Nat) : (s.backInService i).memories = s.memories := by
  unfold State.backInService
  dsimp only
  split <;> simp

/-! ### Accords -/

@[simp] theorem State.memories_fillCopies (s : State) : s.fillCopies.memories = s.memories := by
  simp [State.fillCopies, State.memories_ite]

@[simp] theorem State.memories_keepCopies (s : State) (tag : Nat) : (s.keepCopies tag).memories = s.memories := by rfl

@[simp] theorem State.memories_markerReturn (s : State) (i : Nat) : (s.markerReturn i).memories = s.memories := by
  unfold State.markerReturn
  split <;> simp

@[simp] theorem State.memories_bankFree (s : State) (c : Nat) : (s.bankFree c).memories = s.memories := by rfl

/-! ### Live service -/

@[simp] theorem State.memories_setSvc (s : State) (c : Nat) (st : BitVec 3) : (s.setSvc c st).memories = s.memories := by rfl

@[simp] theorem State.memories_copyWords (s : State) (old new : Nat) : (s.copyWords old new).memories = s.memories := by
  have hwords : ∀ f : State → Nat → ObjWord, ((List.range 32).foldl (fun s n => s.setObj 0x0040 (new * 32 + n) (f s n)) s).memories = s.memories :=
    fun f => State.memories_foldl (fun t n => State.memories_setObj t _ _ _) _ _
  unfold State.copyWords
  dsimp only
  rw [State.memories_modCl, State.memories_setObj, State.memories_setObj]
  exact hwords _

theorem State.memories_markWord (s : State) (i u n : Nat) (r : Nat × Nat × State) (h : s.markWord i u n = some r) :
    r.2.2.memories = s.memories := by
  unfold State.markWord at h
  dsimp only at h
  (repeat' split at h) <;> simp at h <;> (subst h; rfl)

@[simp] theorem State.memories_foundBad (s : State) (source n : Nat) : (s.foundBad source n).memories = s.memories := by
  have hmark : ∀ i u r, s.markWord i u n = some r → r.2.2.memories = s.memories := fun i u r => State.memories_markWord s i u n r
  unfold State.foundBad
  dsimp only
  split
  · simp
  · split
    · simp
    · split
      · simp
      · split
        · simp
        · split
          next kind a t heq => simpa using hmark _ _ _ heq
          next => rfl

@[simp] theorem State.memories_repairArray (s : State) (source row : Nat) : (s.repairArray source row).memories = s.memories := by
  unfold State.repairArray
  dsimp only
  split <;> simp

@[simp] theorem State.memories_sramScrub (s : State) (source : Nat) (corrected damaged : List Nat) :
    (s.sramScrub source corrected damaged).memories = s.memories := by simp [State.sramScrub]

/-! ### The Fault Collector -/

@[simp] theorem State.memories_modFaults (s : State) (f : Faults → Faults) : (s.modFaults f).memories = s.memories := by rfl

@[simp] theorem State.memories_countEsc (s : State) (m : FaultMsg) (level : Nat) : (s.countEsc m level).memories = s.memories := by
  unfold State.countEsc
  split <;> simp

@[simp] theorem State.memories_captureMsg (s : State) (m : FaultMsg) : (s.captureMsg m).memories = s.memories := by rfl

@[simp] theorem State.memories_sillage (s : State) (m : FaultMsg) : (s.sillage m).memories = s.memories := by
  unfold State.sillage
  dsimp only
  (repeat' split) <;> simp

@[simp] theorem State.memories_assertErr (s : State) : s.assertErr.memories = s.memories := by rfl

@[simp] theorem State.memories_writeHold (s : State) (hold : Bool) : (s.writeHold hold).memories = s.memories := by rfl

@[simp] theorem State.memories_faultCause (s : State) (cls : Nat) : (s.faultCause cls).memories = s.memories := by
  unfold State.faultCause
  split <;> simp

@[simp] theorem State.memories_deliverNmi (s : State) (c : Nat) : (s.deliverNmi c).memories = s.memories := by
  unfold State.deliverNmi
  dsimp only
  split <;> simp

@[simp] theorem State.memories_outboxOverrun (s : State) (i : Nat) : (s.outboxOverrun i).memories = s.memories := by
  unfold State.outboxOverrun
  dsimp only
  split <;> simp

@[simp] theorem State.memories_withdrawReport (s : State) (kind r gen : Nat) : (s.withdrawReport kind r gen).memories = s.memories := by rfl

/-! ### The BAR0 registers -/

@[simp] theorem State.memories_hostTail (s : State) (k : Nat) (v : BitVec 32) : (s.hostTail k v).memories = s.memories := by rfl

@[simp] theorem State.memories_msixWrite (s : State) (o : Nat) (v : BitVec 32) : (s.msixWrite o v).memories = s.memories := by
  unfold State.msixWrite
  dsimp only
  (repeat' split) <;> simp

@[simp] theorem State.memories_modBar0 (s : State) (f : Bar0 → Bar0) : (s.modBar0 f).memories = s.memories := by rfl

/-! ### Objects -/

@[simp] theorem State.memories_popTwoStep (s : State) (p : Nat) : (s.popTwoStep p).2.memories = s.memories := by
  unfold State.popTwoStep
  split <;> simp

@[simp] theorem State.memories_readMeets (s : State) (cls idx master : Nat) : (s.readMeets cls idx master).memories = s.memories := by
  unfold State.readMeets
  (repeat' split) <;> simp

@[simp] theorem State.memories_liveValue (s : State) (cls idx : Nat) : (s.liveValue cls idx).2.memories = s.memories := by
  unfold State.liveValue
  split <;> simp

@[simp] theorem State.memories_readObj (s : State) (cls idx master : Nat) : (s.readObj cls idx master).2.memories = s.memories := by
  unfold State.readObj
  (repeat' split) <;> simp

@[simp] theorem State.memories_setParam (s : State) (p v : Nat) : (s.setParam p v).memories = s.memories := by rfl

@[simp] theorem State.memories_paramEffect (s : State) (p v : Nat) : (s.paramEffect p v).memories = s.memories := by
  unfold State.paramEffect
  split <;> simp

@[simp] theorem State.memories_startChange (s : State) (c : PowerChange) : (s.startChange c).memories = s.memories := by
  unfold State.startChange
  split <;> simp

@[simp] theorem State.memories_governed (s : State) (c : PowerChange) : (s.governed c).memories = s.memories := by
  unfold State.governed
  split <;> simp

@[simp] theorem State.memories_setLimit (s : State) (i : Nat) (w : ObjWord) : (s.setLimit i w).memories = s.memories := by
  unfold State.setLimit
  split <;> simp

@[simp] theorem State.memories_governorGrant (s : State) : s.governorGrant.memories = s.memories := by
  unfold State.governorGrant
  split <;> simp

@[simp] theorem State.memories_putStaged (s : State) (cls idx : Nat) (w : ObjWord) : (s.putStaged cls idx w).memories = s.memories := by
  unfold State.putStaged
  dsimp only
  (repeat' split) <;> simp

/-! ### Session and handle commands -/

@[simp] theorem State.memories_moveTime (s : State) (ns : BitVec 64) (frac : BitVec 32) : (s.moveTime ns frac).memories = s.memories := by
  unfold State.moveTime
  dsimp only
  split <;> simp

@[simp] theorem State.memories_lease (s : State) (w master : Nat) : (s.lease w master).memories = s.memories := by rfl

/-! ### Firmware, keys and the restart of the Steward -/

@[simp] theorem State.memories_reportRestart (s : State) (why : Nat) : (s.reportRestart why).memories = s.memories := by simp [State.reportRestart]

@[simp] theorem State.memories_reviewOld (s : State) (k : Nat) : (s.reviewOld k).memories = s.memories := by
  unfold State.reviewOld
  split <;> simp

@[simp] theorem State.memories_ledgerLoad (s : State) (lost older : Bool) :
    (s.ledgerLoad lost older).memories = s.memories := by simp [State.ledgerLoad]

@[simp] theorem State.memories_blowOwner (s : State) (slot : Nat) (key : List Byte) : (s.blowOwner slot key).memories = s.memories := by rfl

@[simp] theorem State.memories_writeRecord (s last : State) : (s.writeRecord last).memories = s.memories := by rfl

/-! ### Observation and debug -/

@[simp] theorem State.memories_modObs (s : State) (f : Obs → Obs) : (s.modObs f).memories = s.memories := by rfl

@[simp] theorem State.memories_cycleWord (s : State) (block : Nat) : (s.cycleWord block).2.memories = s.memories := by rfl

@[simp] theorem State.memories_eventWord (s : State) (key : Nat) : (s.eventWord key).2.memories = s.memories := by rfl

@[simp] theorem State.memories_poolWord (s : State) (q k : Nat) : (s.poolWord q k).2.memories = s.memories := by
  unfold State.poolWord
  split <;> simp

@[simp] theorem State.memories_bandwidthWord (s : State) (lane k : Nat) : (s.bandwidthWord lane k).2.memories = s.memories := by
  unfold State.bandwidthWord
  split <;> simp

@[simp] theorem State.memories_thresholdWord (s : State) (n k : Nat) : (s.thresholdWord n k).2.memories = s.memories := by
  unfold State.thresholdWord
  split <;> simp

@[simp] theorem State.memories_obsWord (s : State) (block page ev : Nat) : (s.obsWord block page ev).2.memories = s.memories := by
  unfold State.obsWord
  dsimp only
  (repeat' split) <;> simp

@[simp] theorem State.memories_obsWords (block page n : Nat) : ∀ (ev : Nat) (acc : List Byte) (s : State),
    (s.obsWords block page n ev acc).2.memories = s.memories := by
  induction n with
  | zero => intro ev acc s; rfl
  | succ n ih =>
    intro ev acc s
    unfold State.obsWords
    dsimp only
    rw [ih]
    split <;> simp

@[simp] theorem State.memories_setWindow (s : State) (block n : Nat) (w : WinCounter) : (s.setWindow block n w).memories = s.memories := by rfl

@[simp] theorem State.memories_bwWindowEnd (s : State) : s.bwWindowEnd.memories = s.memories := by rfl

@[simp] theorem State.memories_applyHeld (s : State) (t : Nat) : (s.applyHeld t).memories = s.memories := by
  unfold State.applyHeld
  dsimp only
  (repeat' split) <;> simp

@[simp] theorem State.memories_stepWait (s : State) (t : Nat) : (s.stepWait t).memories = s.memories := by
  unfold State.stepWait
  dsimp only
  (repeat' split) <;> simp

theorem State.memories_stepBundle (s : State) (t : Nat) (u : State) (h : s.stepBundle t = some u) : u.memories = s.memories := by
  unfold State.stepBundle at h
  split at h
  · obtain rfl := Option.some.inj h
    simp
  · obtain ⟨v, hv, rfl⟩ := Option.map_eq_some_iff.1 h
    simpa using State.memories_tryIssue _ _ _ _ _ hv

@[simp] theorem State.memories_haltAgain (s : State) (t : Nat) : (s.haltAgain t).memories = s.memories := by rfl

@[simp] theorem State.memories_jtag (s : State) (i : JtagInstr) : (s.jtag i).memories = s.memories := by rfl

@[simp] theorem State.memories_boundaryDrive (s : State) (i : JtagInstr) (drive : List Bool) : (s.boundaryDrive i drive).memories = s.memories := by
  unfold State.boundaryDrive
  split <;> simp

/-! ### Sensors, clocks, Extrait and wear -/

@[simp] theorem State.memories_modExtrait (s : State) (f : Extrait → Extrait) : (s.modExtrait f).memories = s.memories := by rfl

@[simp] theorem State.memories_extraitEntered (s : State) : s.extraitEntered.memories = s.memories := by
  simp [State.extraitEntered, State.memories_ite]

@[simp] theorem State.memories_beginExit (s : State) (cause : Nat) : (s.beginExit cause).memories = s.memories := by
  unfold State.beginExit
  (repeat' split) <;> simp

@[simp] theorem State.memories_tempSample (s : State) (i : Nat) (t : Int) : (s.tempSample i t).memories = s.memories := by
  unfold State.tempSample
  dsimp only
  (repeat' split) <;> simp

@[simp] theorem State.memories_selfCheck (s : State) (i : Nat) (ok : Bool) : (s.selfCheck i ok).memories = s.memories := by
  unfold State.selfCheck
  split <;> simp

@[simp] theorem State.memories_clockUnlock (s : State) (i : Nat) : (s.clockUnlock i).memories = s.memories := by
  unfold State.clockUnlock
  dsimp only
  split <;> simp

@[simp] theorem State.memories_clockRelock (s : State) (i : Nat) : (s.clockRelock i).memories = s.memories := by
  unfold State.clockRelock
  dsimp only
  split <;> simp

@[simp] theorem State.memories_milestones (s : State) : s.milestones.memories = s.memories := by rfl

@[simp] theorem State.memories_wearAccrue (s : State) : s.wearAccrue.memories = s.memories := by
  unfold State.wearAccrue
  dsimp only
  split <;> simp

@[simp] theorem State.memories_ledgerWrite (s : State) : s.ledgerWrite.memories = s.memories := by rfl

/-! ### Supplies, resets and start-up -/

@[simp] theorem State.memories_begin (s : State) : s.begin.memories = s.memories := by rfl

@[simp] theorem State.memories_pwrRise (s : State) : s.pwrRise.memories = s.memories := by
  unfold State.pwrRise
  split <;> simp

@[simp] theorem State.memories_resetRise (s : State) : s.resetRise.memories = s.memories := by
  unfold State.resetRise
  dsimp only
  (repeat' split) <;> simp

@[simp] theorem State.memories_supplyRise (s : State) (r : Rail) : (s.supplyRise r).memories = s.memories := by
  unfold State.supplyRise
  split <;> simp

@[simp] theorem State.memories_perstFall (s : State) : s.perstFall.memories = s.memories := by
  unfold State.perstFall
  split <;> simp

@[simp] theorem State.memories_trip (s : State) (i : Nat) : (s.trip i).memories = s.memories := by
  unfold State.trip
  split <;> simp

@[simp] theorem State.memories_halt (s : State) : s.halt.memories = s.memories := by rfl

@[simp] theorem State.memories_stepFuses (s : State) (r : StepResult) : (s.stepFuses r).memories = s.memories := by
  unfold State.stepFuses
  split <;> simp

@[simp] theorem State.memories_bistRepair (s : State) (source n : Nat) : (s.bistRepair source n).memories = s.memories := by
  unfold State.bistRepair
  split <;> simp

@[simp] theorem State.memories_stepBist (s : State) (r : StepResult) : (s.stepBist r).memories = s.memories := by
  simp [State.stepBist, State.memories_ite]

@[simp] theorem State.memories_takeRecordCopy (s : State) (r : RecordCopy) :
    (s.takeRecordCopy r).memories = s.memories := by simp [State.takeRecordCopy]

@[simp] theorem State.memories_loadRecord (s : State) (lost older : Bool) : (s.loadRecord lost older).memories = s.memories := by
  unfold State.loadRecord
  dsimp only
  (repeat' split) <;> simp

@[simp] theorem State.memories_examineSlot (s : State) (k : Nat) : (s.examineSlot k).2.memories = s.memories := by
  unfold State.examineSlot
  simp

@[simp] theorem State.memories_runSlot (s : State) (k : Nat) (other : Bool) : (s.runSlot k other).memories = s.memories := by rfl

@[simp] theorem State.memories_recover (s : State) : s.recover.memories = s.memories := by rfl

@[simp] theorem State.memories_stepBoot (s : State) (r : StepResult) : (s.stepBoot r).memories = s.memories := by
  unfold State.stepBoot
  dsimp only
  (repeat' split) <;> simp

@[simp] theorem State.memories_stepWake (s : State) : s.stepWake.memories = s.memories := by
  simp [State.stepWake]

@[simp] theorem State.memories_serveChannel (s : State) (f : ChanFound) : (s.serveChannel f).memories = s.memories := by rfl

@[simp] theorem State.memories_stepDram (s : State) (r : StepResult) : (s.stepDram r).memories = s.memories := by
  unfold State.stepDram
  dsimp only
  simp only [State.memories_mk]
  refine (State.memories_foldl (fun _ _ => State.memories_serveChannel _ _) _ _).trans (State.memories_foldl (fun _ _ => ?_) _ _)
  split <;> simp

@[simp] theorem State.memories_stepLanes (s : State) (r : StepResult) : (s.stepLanes r).memories = s.memories := by
  simp [State.stepLanes, State.memories_ite]

@[simp] theorem State.memories_stepTest (s : State) (r : StepResult) : (s.stepTest r).memories = s.memories := by
  simp [State.stepTest, State.memories_ite]

@[simp] theorem State.memories_stepEnd (s : State) : s.stepEnd.memories = s.memories := by simp [State.stepEnd]

@[simp] theorem State.memories_markInjected (s : State) (source k n : Nat) : (s.markInjected source k n).memories = s.memories := by rfl

/-! ### One nanosecond -/

@[simp] theorem State.memories_timersFall (s : State) (n : Nat) : (s.timersFall n).memories = s.memories := by simp [State.timersFall]

@[simp] theorem State.memories_islandCycles (s : State) (i : Nat) : (s.islandCycles i).memories = s.memories := by
  unfold State.islandCycles
  (repeat' split) <;> simp

@[simp] theorem State.memories_countSlots (s : State) (c core : Nat) : (s.countSlots c core).memories = s.memories := by
  unfold State.countSlots
  dsimp only
  split <;> simp

@[simp] theorem State.memories_slotsPass (s : State) : s.slotsPass.memories = s.memories := by simp [State.slotsPass]

@[simp] theorem State.memories_timeAbove (s : State) (n : Nat) : (s.timeAbove n).memories = s.memories := by rfl

@[simp] theorem State.memories_preemptNs (s : State) (n : Nat) : (s.preemptNs n).memories = s.memories := by simp [State.preemptNs]

@[simp] theorem State.memories_moverWorks (s : State) (n : Nat) : (s.moverWorks n).memories = s.memories := by
  unfold State.moverWorks
  (repeat' split) <;> simp

end Sys2Proof.Machine
end

/-! The canonical form of the three memories (R230, R281, R325), and the functions that write one of them or call one that does: each keeps
the form. -/

section
namespace Sys2Proof.Machine

/-! ### Memories and results -/

/-- A memory that keeps some of its bytes keeps its form. -/
theorem Memory.wf_filter {m : Mem} (h : Memory.wf m = true) (p : Nat × Byte → Bool) : Memory.wf (m.filter p) = true := by
  rw [Memory.wf, Store.wf_iff] at h ⊢
  exact ⟨h.1.sublist ((List.filter_sublist (l := m)).map Prod.fst), fun e he => h.2 e (List.mem_filter.1 he).1⟩

/-- A memory that takes bytes one by one keeps its form. -/
theorem Memory.wf_mputs {α : Type} (f : α → Nat) (g : α → Byte) (l : List α) : ∀ {m : Mem}, Memory.wf m = true →
    Memory.wf (l.foldl (fun m e => mput m (f e) (g e)) m) = true := by
  induction l with
  | nil => exact fun h => h
  | cons e l ih => exact fun h => ih (Memory.wf_mput h _ _)

/-- The three memories are each in canonical form. -/
def Canonical (m : Mem × Mem × Mem) : Prop := Memory.wf m.1 = true ∧ Memory.wf m.2.1 = true ∧ Memory.wf m.2.2 = true

theorem memoriesCanonical_iff (s : State) : Claims.memoriesCanonical s ↔ Canonical s.memories := Iff.rfl

theorem State.canonical_ite {c : Prop} [Decidable c] {s t : State} (hs : Canonical s.memories) (ht : Canonical t.memories) :
    Canonical (if c then s else t).memories := by
  split <;> assumption

/-- A fold keeps the canonical form where each of its steps does. -/
theorem State.canonical_foldl {α : Type} {f : State → α → State} (h : ∀ s a, Canonical s.memories → Canonical (f s a).memories) (l : List α) :
    ∀ {s : State}, Canonical s.memories → Canonical (l.foldl f s).memories := by
  induction l with
  | nil => exact fun hs => hs
  | cons a l ih => exact fun hs => ih (h _ a hs)

theorem State.canonical_foldl_snd {α β : Type} {f : β × State → α → β × State}
    (h : ∀ a e, Canonical a.2.memories → Canonical (f a e).2.memories) (l : List α) :
    ∀ {a : β × State}, Canonical a.2.memories → Canonical (l.foldl f a).2.memories := by
  induction l with
  | nil => exact fun ha => ha
  | cons e l ih => exact fun ha => ih (h _ e ha)

theorem State.canonical_getD {o : Option State} {s : State} (hs : Canonical s.memories) (ho : ∀ u, o = some u → Canonical u.memories) :
    Canonical (o.getD s).memories := by
  cases o with
  | none => exact hs
  | some u => exact ho u rfl

/-- The state that a host command ends with, where it does not wait, has canonical memories. -/
def Ran.canonical : Ran → Prop
  | .done _ _ s | .start _ s | .defer _ s | .objects _ _ _ _ _ s => Canonical s.memories
  | .wait => True

/-- The state that an object's write ends with, where it is written or waits, has canonical memories. -/
def ObjRes.canonical : ObjRes → Prop
  | .ok s | .wait _ s => Canonical s.memories
  | .fail _ => True

/-- The state that a record taken from the host ends with has canonical memories. -/
def Took.canonical : Took → Prop
  | .done _ _ s | .wait s => Canonical s.memories

/-- The state that an allocation ends with, where it has one, has canonical memories. -/
def Alloc.canonical : Alloc → Prop
  | .got _ s | .none s | .bad s => Canonical s.memories
  | .refused | .wait => True

/-- The state that MACsec's transmit side ends with has canonical memories. -/
def SecOut.canonical : SecOut → Prop
  | .send _ s | .hold s => Canonical s.memories

section
variable {s : State}
@[simp] theorem Ran.canonical_done {st : Nat} {l : List Byte} : (Ran.done st l s).canonical ↔ Canonical s.memories := Iff.rfl
@[simp] theorem Ran.canonical_ok : (Ran.ok s).canonical ↔ Canonical s.memories := Iff.rfl
@[simp] theorem Ran.canonical_status {st : Nat} : (Ran.status st s).canonical ↔ Canonical s.memories := Iff.rfl
@[simp] theorem Ran.canonical_start {op : AsyncOp} : (Ran.start op s).canonical ↔ Canonical s.memories := Iff.rfl
@[simp] theorem Ran.canonical_defer {w : Wait} : (Ran.defer w s).canonical ↔ Canonical s.memories := Iff.rfl
@[simp] theorem Ran.canonical_objects {w : Wait} {c n d : Nat} {l : List ObjWord} : (Ran.objects w c n l d s).canonical ↔ Canonical s.memories := Iff.rfl
@[simp] theorem Ran.canonical_wait : Ran.wait.canonical := trivial
@[simp] theorem ObjRes.canonical_ok : (ObjRes.ok s).canonical ↔ Canonical s.memories := Iff.rfl
@[simp] theorem ObjRes.canonical_wait {w : Wait} : (ObjRes.wait w s).canonical ↔ Canonical s.memories := Iff.rfl
@[simp] theorem ObjRes.canonical_fail {n : Nat} : (ObjRes.fail n).canonical := trivial
@[simp] theorem Took.canonical_done {st : Nat} {l : List Byte} : (Took.done st l s).canonical ↔ Canonical s.memories := Iff.rfl
@[simp] theorem Took.canonical_wait : (Took.wait s).canonical ↔ Canonical s.memories := Iff.rfl
@[simp] theorem Alloc.canonical_got {n : Nat} : (Alloc.got n s).canonical ↔ Canonical s.memories := Iff.rfl
@[simp] theorem Alloc.canonical_none : (Alloc.none s).canonical ↔ Canonical s.memories := Iff.rfl
@[simp] theorem Alloc.canonical_bad : (Alloc.bad s).canonical ↔ Canonical s.memories := Iff.rfl
@[simp] theorem Alloc.canonical_refused : Alloc.refused.canonical := trivial
@[simp] theorem Alloc.canonical_wait : Alloc.wait.canonical := trivial
@[simp] theorem SecOut.canonical_send {l : List Byte} : (SecOut.send l s).canonical ↔ Canonical s.memories := Iff.rfl
@[simp] theorem SecOut.canonical_hold : (SecOut.hold s).canonical ↔ Canonical s.memories := Iff.rfl
end

/-! ### Device DRAM -/

@[simp] theorem State.canonical_dramWrite {s : State} (a : Nat) (l : List Byte) (h : Canonical s.memories) :
    Canonical (s.dramWrite a l).memories := by
  rw [← State.memories_readyLines s (linesOf a l.length) (fun w => decide (a ≤ w * 64) && decide (w * 64 + 64 ≤ a + l.length))] at h
  obtain ⟨hrows, hcells, hdata⟩ := h
  exact ⟨hrows, hcells, Memory.wf_mwrite l a hdata⟩

@[simp] theorem State.canonical_dramClear {s : State} (a n : Nat) (h : Canonical s.memories) : Canonical (s.dramClear a n).memories := by
  obtain ⟨hrows, hcells, hdata⟩ := h
  exact ⟨hrows, hcells, Memory.wf_mclear hdata a n⟩

@[simp] theorem State.canonical_trace {s : State} (kind info master gen record domain pc data : Nat) (h : Canonical s.memories) :
    Canonical (s.trace kind info master gen record domain pc data).memories := by
  unfold State.trace
  split
  · exact h
  · extract_lets f a t
    have ht : Canonical t.memories := State.canonical_dramWrite _ _ (by simpa using h)
    split
    · split
      · simpa using h
      · rw [State.memories_count, State.memories_mk]
        exact ht
    · exact h

/-! ### Descriptors of tables -/

@[simp] theorem State.canonical_putRows {s : State} (a : Nat) (l : List Byte) (h : Canonical s.memories) : Canonical (s.putRows a l).memories := by
  obtain ⟨hrows, hcells, hdata⟩ := h
  exact ⟨Memory.wf_mwrite l a hrows, hcells, hdata⟩

@[simp] theorem State.canonical_writeRows {s : State} (a : Nat) (l : List Byte) (h : Canonical s.memories) :
    Canonical (s.writeRows a l).memories := by
  unfold State.writeRows
  refine State.canonical_foldl (fun t x ht => ?_) _ (State.canonical_putRows a l h)
  split <;> simp [ht]

/-! ### Pools, cells and descriptors -/

@[simp] theorem State.canonical_cellWrite {s : State} (a : Nat) (l : List Byte) (h : Canonical s.memories) :
    Canonical (s.cellWrite a l).memories := by
  obtain ⟨hrows, hcells, hdata⟩ := h
  exact ⟨hrows, Memory.wf_mwrite l a hcells, hdata⟩

@[simp] theorem State.canonical_poolPut {s : State} (p a : Nat) (l : List Byte) (h : Canonical s.memories) :
    Canonical (s.poolPut p a l).memories := by
  unfold State.poolPut
  split <;> simp [h]

@[simp] theorem State.canonical_modBuf {s : State} (p i : Nat) (f : Buf → Buf) (h : Canonical s.memories) : Canonical (s.modBuf p i f).memories := by
  unfold State.modBuf
  split <;> simp [h]

@[simp] theorem State.canonical_putSlots (p : Nat) (l : List Nat) : ∀ {s : State} (k : Nat), Canonical s.memories →
    Canonical (s.putSlots p k l).memories := by
  induction l with
  | nil => exact fun _ h => h
  | cons e t ih =>
    intro s k h
    unfold State.putSlots
    refine ih _ (State.canonical_ite h ?_)
    exact State.canonical_poolPut _ _ _ h

@[simp] theorem State.canonical_freeEntries {s : State} (p : Nat) (l : List Nat) (h : Canonical s.memories) :
    Canonical (s.freeEntries p l).memories := by
  unfold State.freeEntries
  split <;> simp [h]

@[simp] theorem State.canonical_chainWrite {s : State} (cells : List Nat) (o : Nat) (l : List Byte) (h : Canonical s.memories) :
    Canonical (s.chainWrite cells o l).memories := by
  unfold State.chainWrite
  refine State.canonical_foldl (fun _ _ ht => ?_) _ h
  dsimp only
  (repeat' split) <;> simp [ht]

@[simp] theorem State.canonical_freePacket {s : State} (d : Nat) (h : Canonical s.memories) :
    Canonical (s.freePacket d).memories := by simp [State.freePacket, h]

@[simp] theorem State.canonical_allocFrom {s : State} (p owner : Nat) (h : Canonical s.memories) : (s.allocFrom p owner).canonical := by
  unfold State.allocFrom
  dsimp only
  split
  next => trivial
  next =>
    split
    next => trivial
    next =>
      split
      next i t htaken =>
        have ht : Canonical t.memories := State.memories_takeEntry _ _ _ _ htaken ▸ h
        split <;> simp [ht]
      next => trivial

@[simp] theorem State.canonical_allocBuffer {s : State} (n owner : Nat) (h : Canonical s.memories) : (s.allocBuffer n owner).canonical := by
  unfold State.allocBuffer
  dsimp only
  (repeat' split) <;> simp [h]

@[simp] theorem State.canonical_freeBuffer {s : State} (p i : Nat) (h : Canonical s.memories) :
    Canonical (s.freeBuffer p i).memories := by simp [State.freeBuffer, h]

@[simp] theorem State.canonical_bufWrite {s : State} (p i o : Nat) (l : List Byte) (master : Nat) (h : Canonical s.memories) :
    Canonical (s.bufWrite p i o l master).memories := by
  unfold State.bufWrite
  split <;> simp [h]

/-! ### The Sequencer and the Atomizer -/

@[simp] theorem State.canonical_traceRec {s : State} (kind info r pc data : Nat) (h : Canonical s.memories) :
    Canonical (s.traceRec kind info r pc data).memories := by simp [State.traceRec, h]

@[simp] theorem State.canonical_tryGrant {s : State} (r : Nat) (h : Canonical s.memories) : Canonical (s.tryGrant r).memories := by
  unfold State.tryGrant
  dsimp only
  (repeat' split) <;> simp [h]

@[simp] theorem State.canonical_grantWaiters {s : State} (d : BitVec 16) (h : Canonical s.memories) : Canonical (s.grantWaiters d).memories := by
  unfold State.grantWaiters
  refine State.canonical_foldl (fun _ _ ht => ?_) _ h
  simp [ht]

@[simp] theorem State.canonical_ordAsk {s : State} (r k : Nat) (h : Canonical s.memories) :
    Canonical (s.ordAsk r k).memories := by simp [State.ordAsk, h]

@[simp] theorem State.canonical_releaseTo {s : State} (r k : Nat) (h : Canonical s.memories) :
    Canonical (s.releaseTo r k).memories := by simp [State.releaseTo, h]

@[simp] theorem State.canonical_freeRec {s : State} (r : Nat) (h : Canonical s.memories) :
    Canonical (s.freeRec r).memories := by simp [State.freeRec, h]

@[simp] theorem State.canonical_dropPacket {s : State} (d : Nat) (h : Canonical s.memories) :
    Canonical (s.dropPacket d).memories := by simp [State.dropPacket, h]

@[simp] theorem State.canonical_resolveDrop {s : State} (r : Nat) (how : RunEnd) (h : Canonical s.memories) :
    Canonical (s.resolveDrop r how).memories := by
  unfold State.resolveDrop
  dsimp only
  split <;> simp [h]

@[simp] theorem State.canonical_faultRecord {s : State} (r kind : Nat) (conseq quiet drain : Bool) (h : Canonical s.memories) :
    Canonical (s.faultRecord r kind conseq quiet drain).memories := by
  unfold State.faultRecord
  dsimp only
  (repeat' split) <;> simp [h]

@[simp] theorem State.canonical_acceptDescriptor {s : State} (i : Nat) (h : Canonical s.memories) : Canonical (s.acceptDescriptor i).memories := by
  unfold State.acceptDescriptor
  dsimp only
  (repeat' split) <;> simp [h]

theorem State.canonical_token {s : State} (a r : Nat) (g : BitVec 8) {f held : State → State} (h : Canonical s.memories)
    (hf : ∀ t : State, Canonical t.memories → Canonical (f t).memories)
    (hheld : ∀ t : State, Canonical t.memories → Canonical (held t).memories) : Canonical (s.token a r g f held).memories := by
  have ht : Canonical ((s.taken a 26).eccRecord r).memories := by simpa using h
  unfold State.token
  dsimp only
  split
  · exact hf _ ht
  · split
    · exact State.canonical_ite (hheld _ ht) ht
    · simpa using ht

@[simp] theorem State.canonical_ordRequestToken {s : State} (c : Nat) (h : Canonical s.memories) : Canonical (s.ordRequestToken c).memories := by
  unfold State.ordRequestToken
  split
  · exact State.canonical_token _ _ _ h (fun t ht => by simp [ht]) (fun _ ht => ht)
  · exact h

@[simp] theorem State.canonical_relTokenArrive {s : State} (c : Nat) (h : Canonical s.memories) : Canonical (s.relTokenArrive c).memories := by
  unfold State.relTokenArrive
  split
  · exact State.canonical_token _ _ _ h (fun t ht => by simp [ht]) (fun _ ht => ht)
  · exact h

@[simp] theorem State.canonical_effectTokenArrive {s : State} (c : Nat) (h : Canonical s.memories) :
    Canonical (s.effectTokenArrive c).memories := by
  unfold State.effectTokenArrive
  split
  · exact State.canonical_token _ _ _ h (fun t ht => by simp [ht]) (fun _ ht => ht)
  · exact h

@[simp] theorem State.canonical_poisonTokenArrive {s : State} (c : Nat) (h : Canonical s.memories) :
    Canonical (s.poisonTokenArrive c).memories := by
  unfold State.poisonTokenArrive
  split
  · exact State.canonical_token _ _ _ h (fun t ht => by simp [ht]) (fun _ ht => ht)
  · exact h

@[simp] theorem State.canonical_takeCommit {s : State} (r : Nat) (op : BitVec 3) (word : W64) (pc : BitVec 16) (h : Canonical s.memories) :
    Canonical (s.takeCommit r op word pc).memories := by
  unfold State.takeCommit
  extract_lets x t u v w
  split
  · simp [h]
  · have ht : Canonical t.memories := by simp [t, h]
    have hu : Canonical u.memories := State.canonical_ite (by simpa using ht) ht
    have hv : Canonical v.memories := State.canonical_releaseTo _ _ hu
    have hw : Canonical w.memories := State.canonical_freeRec _ hv
    (repeat' split) <;> simp [hv, hw]

@[simp] theorem State.canonical_commitArrive {s : State} (c : Nat) (h : Canonical s.memories) : Canonical (s.commitArrive c).memories := by
  unfold State.commitArrive
  split
  · exact State.canonical_token _ _ _ h (fun t ht => by simp [ht]) (fun _ ht => ht)
  · exact h

@[simp] theorem State.canonical_faultTokenArrive {s : State} (c : Nat) (h : Canonical s.memories) : Canonical (s.faultTokenArrive c).memories := by
  unfold State.faultTokenArrive
  split
  next t r g k heq =>
    have htold : ∀ v : State, Canonical v.memories → Canonical (if k = 0x56 ∨ k = 0x57 then v.raiseRec k.toNat r else v).memories :=
      fun v hv => State.canonical_ite (by simpa using hv) hv
    exact State.canonical_token _ _ _ h (fun v hv => State.canonical_faultRecord _ _ _ _ _ (htold v hv))
      (fun v hv => by simpa using htold v hv)
  next => exact h

@[simp] theorem State.canonical_resetNoticeArrive {s : State} (c : Nat) (h : Canonical s.memories) :
    Canonical (s.resetNoticeArrive c).memories := by
  unfold State.resetNoticeArrive
  split
  · refine State.canonical_foldl (fun t e ht => State.canonical_ite ?_ (by simpa using ht)) _ (by simpa using h)
    exact State.canonical_faultRecord _ _ _ _ _ (by simpa using ht)
  · exact h

@[simp] theorem State.canonical_handOver {s : State} (r : Nat) (h : Canonical s.memories) : Canonical (s.handOver r).memories := by
  unfold State.handOver
  dsimp only
  (repeat' split) <;> simp [h]

@[simp] theorem State.canonical_holdExpire {s : State} (r : Nat) (h : Canonical s.memories) : Canonical (s.holdExpire r).memories := by
  unfold State.holdExpire
  dsimp only
  split <;> simp [h]

@[simp] theorem State.canonical_retireTag {s : State} (bound : Bool) (struck : Nat) (h : Canonical s.memories) :
    Canonical (s.retireTag bound struck).memories := by
  unfold State.retireTag
  extract_lets tag t u v
  have ht : Canonical t.memories := by simp [t, h]
  have hu : u.memories = t.memories := State.memories_foldl (fun _ _ => State.memories_modCl _ _ _) _ _
  have hv : v.memories = u.memories := State.memories_retireTables _ _
  rw [← hu, ← hv] at ht
  rw [State.memories_stewardEvent, State.memories_mk]
  exact ht

@[simp] theorem State.canonical_strike {s : State} (r : Nat) (h : Canonical s.memories) : Canonical (s.strike r).memories := by
  unfold State.strike
  dsimp only
  split <;> simp [h]

@[simp] theorem State.canonical_drainExpire {s : State} (h : Canonical s.memories) : Canonical s.drainExpire.memories := by
  unfold State.drainExpire
  split
  · exact h
  · extract_lets rs tag t sq u
    have ht : Canonical t.memories := State.canonical_foldl (fun v e hv => by simp [hv]) _ h
    exact State.canonical_retireTag (s := u) _ _ ht

@[simp] theorem State.canonical_dispatchTo {s : State} (r p t : Nat) (h : Canonical s.memories) : Canonical (s.dispatchTo r p t).memories := by
  unfold State.dispatchTo
  dsimp only
  split <;> simp [h]

@[simp] theorem State.canonical_dispatchLane {s : State} (lane : Nat) (h : Canonical s.memories) : Canonical (s.dispatchLane lane).memories := by
  unfold State.dispatchLane
  extract_lets sq t
  have ht : Canonical t.memories := State.canonical_ite h h
  clear_value t
  split
  · exact ht
  · split
    · exact ht
    · split
      · simpa using ht
      · dsimp only
        (repeat' split) <;> simp [ht]

/-! ### The Ingress Front End -/

@[simp] theorem State.canonical_takeCell {s : State} (i c : Nat) (x : InFlight) (h : Canonical s.memories) :
    Canonical (s.takeCell i c x).memories := by simp [State.takeCell, h]

@[simp] theorem State.canonical_cellRequest {s : State} (i : Nat) (h : Canonical s.memories) : Canonical (s.cellRequest i).memories := by
  unfold State.cellRequest
  split
  next => exact h
  next x hx =>
    split
    next => simpa using h
    next =>
      split
      next => split <;> simpa using h
      next =>
        split
        next =>
          split
          next c t htaken =>
            have ht : Canonical t.memories := State.memories_takeEntry _ _ _ _ htaken ▸ h
            simp [ht]
          next => simpa using h
        next => simpa using h

@[simp] theorem State.canonical_cellExpire {s : State} (i : Nat) (h : Canonical s.memories) : Canonical (s.cellExpire i).memories := by
  unfold State.cellExpire
  (repeat' split) <;> simp [h]

/-! ### The Port Array -/

/-- What the SecY sends or holds leaves the memories. -/
@[simp] theorem State.canonical_secSend {s : State} (p : Nat) (l : List Byte) (h : Canonical s.memories) : (s.secSend p l).canonical := by
  unfold State.secSend
  dsimp only
  split
  · exact h
  · split
    · simpa using h
    · split
      · exact h
      · split
        · split <;> simpa using h
        · split <;> simpa using h

@[simp] theorem State.canonical_sendFrame {s : State} (p : Nat) (k : QPkt) (rest : List QPkt) (h : Canonical s.memories) :
    Canonical (s.sendFrame p k rest).memories := by
  unfold State.sendFrame
  extract_lets bad egress act l m u
  have hsent := State.canonical_secSend p (padTo 60 m) h
  split
  next t heq => exact (heq ▸ hsent :)
  next out t heq =>
    have ht : Canonical t.memories := (heq ▸ hsent :)
    extract_lets c wire t₁ t₂ t₃ t₄
    have h₂ : Canonical t₂.memories := by simpa [t₂, t₁] using ht
    have h₃ : Canonical t₃.memories := State.canonical_ite (by simpa using h₂) h₂
    have h₄ : Canonical t₄.memories := State.canonical_ite (by simpa using h₃) h₃
    exact State.canonical_freePacket _ (by simpa using h₄)

@[simp] theorem State.canonical_frameTransmit {s : State} (p : Nat) (h : Canonical s.memories) : Canonical (s.frameTransmit p).memories := by
  unfold State.frameTransmit
  (repeat' split) <;> simp [h]

/-! ### The Queue Manager -/

@[simp] theorem State.canonical_dropQueued {s : State} (q d cause : Nat) (h : Canonical s.memories) :
    Canonical (s.dropQueued q d cause).memories := by simp [State.dropQueued, h]

@[simp] theorem State.canonical_editWrite {s : State} (d i v : Nat) (h : Canonical s.memories) :
    Canonical (s.editWrite d i v).memories := by simp [State.editWrite, h]

@[simp] theorem State.canonical_setCe {s : State} (d o sh : Nat) (h : Canonical s.memories) : Canonical (s.setCe d o sh).memories := by
  unfold State.setCe
  extract_lets old new t
  have ht : Canonical t.memories := State.canonical_editWrite _ _ _ h
  split
  · exact State.canonical_editWrite _ _ _ (State.canonical_editWrite _ _ _ ht)
  · exact ht

@[simp] theorem State.canonical_spillWrite {s : State} (w : SpillWrite) (h : Canonical s.memories) :
    Canonical (s.spillWrite w).memories := by simp [State.spillWrite, h]

@[simp] theorem State.canonical_spillRefused {s : State} (w : SpillWrite) (h : Canonical s.memories) :
    Canonical (s.spillRefused w).memories := by simp [State.spillRefused, h]

@[simp] theorem State.canonical_spillOut (l : List SpillWrite) : ∀ {s : State}, Canonical s.memories → Canonical (s.spillOut l).memories := by
  induction l with
  | nil => exact fun h => h
  | cons w t ih =>
    intro s h
    unfold State.spillOut
    dsimp only
    split
    · exact ih (State.canonical_spillRefused _ h)
    · split
      · exact ih (State.canonical_spillWrite _ h)
      · exact h

@[simp] theorem State.canonical_drainSpill {s : State} (h : Canonical s.memories) : Canonical s.drainSpill.memories := by simp [State.drainSpill, h]

@[simp] theorem State.canonical_spill {s : State} (k : QPkt) (order : Nat) (domain : Option Nat) (h : Canonical s.memories) :
    Canonical (s.spill k order domain).memories := by
  unfold State.spill
  extract_lets q size t
  split
  next => exact State.canonical_dropQueued _ _ _ h
  next =>
    split
    next =>
      have ht : Canonical t.memories := State.canonical_dropQueued _ _ _ h
      split
      · exact ht
      · rw [State.memories_raise, State.memories_mk]
        exact ht
    next pg off v hplace =>
      have hv : Canonical v.memories := State.memories_spillPlace _ _ _ _ hplace ▸ h
      exact State.canonical_drainSpill (by simpa using hv)

@[simp] theorem State.canonical_link {s : State} (k : QPkt) (order : Nat) (domain : Option Nat) (h : Canonical s.memories) :
    Canonical (s.link k order domain).memories := by
  unfold State.link
  split <;> simp [h]

@[simp] theorem State.canonical_enqueue {s : State} (k : QPkt) (order : Nat) (domain : Option Nat) (h : Canonical s.memories) :
    Canonical (s.enqueue k order domain).memories := by
  unfold State.enqueue
  extract_lets q t
  have ht : Canonical t.memories := by simpa [t] using h
  split
  next => exact State.canonical_dropQueued _ _ _ ht
  next =>
    have hadm : (t.admission q k.desc k.len).2.memories = t.memories := State.memories_admission _ _ _ _
    split
    next c u heq =>
      have hu : Canonical u.memories := by rw [heq] at hadm; exact hadm ▸ ht
      exact State.canonical_dropQueued _ _ _ hu
    next mark u heq =>
      have hu : Canonical u.memories := by rw [heq] at hadm; exact hadm ▸ ht
      extract_lets o
      split
      · exact State.canonical_link _ _ _ (by simp [hu])
      · exact State.canonical_link _ _ _ hu

@[simp] theorem State.canonical_qmHandover {s : State} (h : Canonical s.memories) : Canonical s.qmHandover.memories := by
  unfold State.qmHandover
  dsimp only
  (repeat' split) <;> simp [h]

@[simp] theorem State.canonical_poisonDrop {s : State} (k : QPkt) (h : Canonical s.memories) :
    Canonical (s.poisonDrop k).memories := by simp [State.poisonDrop, h]

@[simp] theorem State.canonical_deliver {s : State} (l0 : Nat) (k : QPkt) (h : Canonical s.memories) : Canonical (s.deliver l0 k).memories := by
  unfold State.deliver
  split
  · simpa using h
  · split
    · exact h
    · split
      · exact State.canonical_ite (State.canonical_poisonDrop _ h) h
      · split
        · dsimp only
          split <;> exact State.canonical_freePacket _ (by simpa using h)
        · exact State.canonical_ite (State.canonical_poisonDrop _ h) (State.canonical_freePacket _ (by simpa using h))

@[simp] theorem State.canonical_schedChoice {s : State} (l0 : Nat) (h : Canonical s.memories) : Canonical (s.schedChoice l0).memories := by
  unfold State.schedChoice
  extract_lets t u
  have hu : Canonical u.memories := by simpa [u, t] using h
  split
  next => exact hu
  next =>
    split
    next => exact hu
    next path v hdescend =>
      have hv : Canonical v.memories := State.memories_descend _ _ _ _ _ _ hdescend ▸ hu
      dsimp only
      split
      · exact hv
      · exact State.canonical_deliver _ _ (by simpa using hv)

theorem State.canonical_buildPacket {s : State} (m : W64) (ts : W32) (l : List Byte) (h : Canonical s.memories) (r : Nat × State)
    (hr : s.buildPacket m ts l = some r) : Canonical r.2.memories := by
  unfold State.buildPacket at hr
  split at hr
  next => simp at hr
  next d hd =>
    split at hr
    next => simp at hr
    next cells t hshared =>
      have ht : Canonical t.memories := State.memories_takeShared _ _ _ hshared ▸ h
      obtain rfl := Option.some.inj hr
      exact State.canonical_chainWrite _ _ _ (by simpa using ht)

@[simp] theorem State.canonical_refill {s : State} (q : Nat) (h : Canonical s.memories) : Canonical (s.refill q).memories := by
  unfold State.refill
  split
  next => exact h
  next r rest hspilled =>
    extract_lets chip size lines hd bad
    split
    next => exact h
    next =>
      split
      next => exact h
      next =>
        split
        next => exact h
        next d t hbuilt =>
          have ht := State.canonical_buildPacket _ _ _ h _ hbuilt
          clear_value bad
          cases bad <;> simpa using ht

@[simp] theorem State.canonical_flushQueue {s : State} (q cause : Nat) (h : Canonical s.memories) : Canonical (s.flushQueue q cause).2.memories := by
  unfold State.flushQueue
  extract_lets k n mine t u qm v
  have ht : Canonical t.memories := State.canonical_foldl (fun _ _ hv => State.canonical_dropQueued _ _ _ hv) _ h
  have hu : Canonical u.memories := State.canonical_foldl (fun _ _ hv => by simpa using hv) _ ht
  have hv : Canonical v.memories := State.canonical_foldl (fun _ _ hv => State.canonical_freePacket _ hv) _ (by rw [State.memories_mk]; exact hu)
  simpa using hv

@[simp] theorem State.canonical_h2dFrame {s : State} (r : Nat) (e : HostEntry) (frame : List Byte) (dmaError : Bool) (h : Canonical s.memories) :
    Canonical (s.h2dFrame r e frame dmaError).memories := by
  unfold State.h2dFrame
  split
  next => exact h
  next =>
    split
    next => simpa using h
    next =>
      split
      next => simpa using h
      next =>
        dsimp only
        split
        next => exact h
        next d t hbuilt =>
          have ht := State.canonical_buildPacket _ _ _ h _ hbuilt
          exact State.canonical_enqueue _ _ _ (by simpa using ht)

@[simp] theorem State.canonical_d2hDeliver {s : State} (r : Nat) (entries : List HostEntry) (dmaError : Bool) (h : Canonical s.memories) :
    Canonical (s.d2hDeliver r entries dmaError).memories := by
  unfold State.d2hDeliver
  dsimp only
  (repeat' split) <;> simp [h]

@[simp] theorem State.canonical_recircSend {s : State} (h : Canonical s.memories) : Canonical s.recircSend.memories := by
  unfold State.recircSend
  dsimp only
  (repeat' split) <;> simp [h]

@[simp] theorem State.canonical_loadTree {s : State} (tag : Nat) (h : Canonical s.memories) : Canonical (s.loadTree tag).memories := by
  unfold State.loadTree
  extract_lets old qm t qm' u moved
  have hu : Canonical u.memories := h
  dsimp only
  rw [State.memories_ite, State.memories_raise, ite_self]
  exact State.canonical_foldl_snd (fun _ _ ha => by simpa using State.canonical_flushQueue _ _ ha) _ hu

@[simp] theorem State.canonical_qmMarker {s : State} (h : Canonical s.memories) : Canonical s.qmMarker.memories := by
  unfold State.qmMarker
  split <;> simp [h]

@[simp] theorem State.canonical_qmReset {s : State} (h : Canonical s.memories) : Canonical s.qmReset.memories := by
  unfold State.qmReset
  extract_lets n gone t u full keys v
  have ht : Canonical t.memories := State.canonical_foldl (fun _ _ hv => State.canonical_freePacket _ hv) _ h
  have hu : Canonical u.memories := State.canonical_foldl (fun _ _ hv => State.canonical_foldl (fun _ _ hw => by simpa using hw) _ hv) _ ht
  rw [State.memories_raise, State.memories_mk]
  exact hu

/-! ### Replies and completions -/

@[simp] theorem State.canonical_inbandOut (l : List (Nat × List Byte)) : ∀ {s : State}, Canonical s.memories →
    Canonical (s.inbandOut l).memories := by
  induction l with
  | nil => exact fun h => h
  | cons e t ih =>
    intro s h
    obtain ⟨p, f⟩ := e
    unfold State.inbandOut
    dsimp only
    split
    next => exact ih (by simpa using h)
    next =>
      split
      next => exact h
      next =>
        split
        next => exact h
        next d u hbuilt =>
          have hu := State.canonical_buildPacket _ _ _ h _ hbuilt
          exact ih (State.canonical_enqueue _ _ _ hu)

@[simp] theorem State.canonical_flushInband {s : State} (h : Canonical s.memories) :
    Canonical s.flushInband.memories := by simp [State.flushInband, h]

@[simp] theorem State.canonical_sendInband {s : State} (p : Nat) (f : List Byte) (h : Canonical s.memories) :
    Canonical (s.sendInband p f).memories := State.canonical_flushInband h

@[simp] theorem State.canonical_flushAll {s : State} (h : Canonical s.memories) : Canonical s.flushAll.memories := by simp [State.flushAll, h]

@[simp] theorem State.canonical_sendReply {s : State} (o : Origin) (l : List Byte) (h : Canonical s.memories) :
    Canonical (s.sendReply o l).memories := by
  unfold State.sendReply
  split
  · exact h
  · split
    · exact State.canonical_flushAll h
    · rw [State.memories_emit]
      exact State.canonical_sendInband _ _ h
    · exact h

@[simp] theorem State.canonical_reply {s : State} (answerTo : ReplyTo) (status : Nat) (results : List Byte) (h : Canonical s.memories) :
    Canonical (s.reply answerTo status results).memories := by simp [State.reply, h]

@[simp] theorem State.canonical_completion {s : State} (answerTo : ReplyTo) (status : Nat) (results : List Byte) (h : Canonical s.memories) :
    Canonical (s.completion answerTo status results).memories := by simp [State.completion, h]

@[simp] theorem State.canonical_complete {s : State} (op : AsyncOp) (status : Nat) (results : List Byte) (h : Canonical s.memories) :
    Canonical (s.complete op status results).memories := by
  unfold State.complete
  split
  · exact h
  · exact State.canonical_completion _ _ _ h

@[simp] theorem State.canonical_undefer {s : State} (status : Nat) (results : List Byte) (h : Canonical s.memories) :
    Canonical (s.undefer status results).memories := by
  unfold State.undefer
  split
  · exact h
  · exact State.canonical_reply _ _ _ h

@[simp] theorem State.canonical_laneRecalDone {s : State} (l : Nat) (converged : Bool) (h : Canonical s.memories) :
    Canonical (s.laneRecalDone l converged).memories := by
  unfold State.laneRecalDone
  dsimp only
  (repeat' split) <;> simp [h]

/-! ### The Atomic and Lock Unit -/

@[simp] theorem State.canonical_tableAtomic {s : State} (r : MemReq) (op : BitVec 3) (h : Canonical s.memories) :
    Canonical (s.tableAtomic r op).memories := by
  unfold State.tableAtomic
  dsimp only
  (repeat' split) <;> simp [h]

@[simp] theorem State.canonical_dramAtomic {s : State} (r : MemReq) (op : BitVec 3) (h : Canonical s.memories) :
    Canonical (s.dramAtomic r op).memories := by
  unfold State.dramAtomic
  dsimp only
  (repeat' split) <;> simp [h]

@[simp] theorem State.canonical_atomicArrive {s : State} (c i : Nat) (h : Canonical s.memories) : Canonical (s.atomicArrive c i).memories := by
  unfold State.atomicArrive
  (repeat' split) <;> simp [h]

@[simp] theorem State.canonical_apertureDo {s : State} (r : MemReq) (h : Canonical s.memories) : Canonical (s.apertureDo r).memories := by
  unfold State.apertureDo
  dsimp only
  (repeat' split) <;> simp [h]

@[simp] theorem State.canonical_apertureArrive {s : State} (c b : Nat) (h : Canonical s.memories) : Canonical (s.apertureArrive c b).memories := by
  unfold State.apertureArrive
  (repeat' split) <;> simp [h]

@[simp] theorem State.canonical_lockGranted {s : State} (w master : Nat) (h : Canonical s.memories) :
    Canonical (s.lockGranted w master).memories := by simp [State.lockGranted, h]

@[simp] theorem State.canonical_grantNow {s : State} (w master : Nat) (h : Canonical s.memories) :
    Canonical (s.grantNow w master).2.memories := by simp [State.grantNow, h]

@[simp] theorem State.canonical_passLock {s : State} (w : Nat) (h : Canonical s.memories) : Canonical (s.passLock w).memories := by
  unfold State.passLock
  dsimp only
  split <;> simp [h]

@[simp] theorem State.canonical_lockAcquire {s : State} (w t : Nat) (h : Canonical s.memories) : Canonical (s.lockAcquire w t).2.memories := by
  unfold State.lockAcquire
  dsimp only
  (repeat' split) <;> simp [h]

@[simp] theorem State.canonical_lockTry {s : State} (w master : Nat) (h : Canonical s.memories) : Canonical (s.lockTry w master).2.memories := by
  unfold State.lockTry
  dsimp only
  (repeat' split) <;> simp [h]

@[simp] theorem State.canonical_lockRelease {s : State} (w master : Nat) (h : Canonical s.memories) :
    Canonical (s.lockRelease w master).2.memories := by
  unfold State.lockRelease
  dsimp only
  (repeat' split) <;> simp [h]

@[simp] theorem State.canonical_lockDo {s : State} (t w : Nat) (op : LockOp) (h : Canonical s.memories) : Canonical (s.lockDo t w op).2.memories := by
  unfold State.lockDo
  split <;> simp [h]

@[simp] theorem State.canonical_lockArrive {s : State} (c b : Nat) (h : Canonical s.memories) : Canonical (s.lockArrive c b).memories := by
  unfold State.lockArrive
  dsimp only
  (repeat' split) <;> simp [h]

@[simp] theorem State.canonical_scanLock {s : State} (w : Nat) (named : Nat → Bool) (h : Canonical s.memories) :
    Canonical (s.scanLock w named).2.memories := by
  unfold State.scanLock
  dsimp only
  split <;> simp [h]

@[simp] theorem State.canonical_scanBank {s : State} (b : Nat) (named : Nat → Bool) (master : Nat) (h : Canonical s.memories) :
    Canonical (s.scanBank b named master).memories := by
  unfold State.scanBank
  dsimp only
  rw [State.memories_ite, State.memories_raise, ite_self]
  refine State.canonical_foldl_snd (a := (0, s)) (fun _ _ ha => ?_) _ h
  exact State.canonical_scanLock _ _ ha

@[simp] theorem State.canonical_masterResetArrive {s : State} (c b : Nat) (h : Canonical s.memories) :
    Canonical (s.masterResetArrive c b).memories := by
  unfold State.masterResetArrive
  (repeat' split) <;> simp [h]

@[simp] theorem State.canonical_leaseExpire {s : State} (w : Nat) (h : Canonical s.memories) : Canonical (s.leaseExpire w).memories := by
  unfold State.leaseExpire
  dsimp only
  (repeat' split) <;> simp [h]

/-! ### The DRAM channels -/

@[simp] theorem State.canonical_farStore {s : State} (r : MemReq) (h : Canonical s.memories) :
    Canonical (s.farStore r).memories := by simp [State.farStore, h]

@[simp] theorem State.canonical_farArrive {s : State} (c ch : Nat) (h : Canonical s.memories) : Canonical (s.farArrive c ch).memories := by
  unfold State.farArrive
  dsimp only
  (repeat' split) <;> simp [h]

@[simp] theorem State.canonical_retrainDone {s : State} (c : Nat) (failed : Option Nat) (h : Canonical s.memories) :
    Canonical (s.retrainDone c failed).memories := by
  unfold State.retrainDone
  (repeat' split) <;> simp [h]

@[simp] theorem State.canonical_trainDone {s : State} (c : Nat) (failed : Option Nat) (h : Canonical s.memories) :
    Canonical (s.trainDone c failed).memories := by
  unfold State.trainDone
  (repeat' split) <;> simp [h]

@[simp] theorem State.canonical_clearChunk {s : State} (c f : Nat) (h : Canonical s.memories) : Canonical (s.clearChunk c f).memories := by
  obtain ⟨hrows, hcells, hdata⟩ := h
  exact ⟨hrows, hcells, Memory.wf_filter hdata _⟩

@[simp] theorem State.canonical_decantDone {s : State} (h : Canonical s.memories) : Canonical s.decantDone.memories := by
  unfold State.decantDone
  split
  next d hd =>
    split
    next =>
      extract_lets t u
      have ht : Canonical t.memories := by simpa [t] using h
      have hu : Canonical u.memories := by
        rw [State.memories_modChan]
        exact State.canonical_foldl (fun _ _ hv => State.canonical_clearChunk _ _ hv) _ ht
      exact State.canonical_complete _ _ _ (by rw [State.memories_mk]; exact hu)
    next => exact h
  next => exact h

/-! ### Tables -/

@[simp] theorem State.canonical_layEntry {s : State} (x : TStruct) (on : Bool) (e : TEntry) (h : Canonical s.memories) :
    Canonical (s.layEntry x on e).memories := by
  unfold State.layEntry
  split <;> simp [h]

@[simp] theorem State.canonical_setEntries {s : State} (x y : TStruct) (h : Canonical s.memories) : Canonical (s.setEntries x y).memories := by
  unfold State.setEntries
  extract_lets t u
  have ht : Canonical t.memories := State.canonical_foldl (fun _ _ hv => State.canonical_layEntry _ _ _ hv) _ h
  have hu : Canonical u.memories := by simpa [u] using ht
  exact State.canonical_foldl (fun _ _ hv => State.canonical_layEntry _ _ _ hv) _ hu

@[simp] theorem State.canonical_begin' {s : State} (x : TStruct) (h : Canonical s.memories) : Canonical (s.begin' x).memories := by
  have hclear : ∀ (t : State) (a n : Nat), Canonical t.memories →
      Canonical ({ t with tables := { t.tables with rows := mclear t.tables.rows a n } } : State).memories := fun t a n ht =>
    ⟨Memory.wf_mclear ht.1 a n, ht.2⟩
  unfold State.begin'
  split
  next => exact h
  next =>
    extract_lets t
    rw [State.memories_putStruct]
    simp only [t]
    split
    next => exact State.canonical_dramClear _ _ h
    next => exact State.canonical_foldl (fun v k hv => hclear v _ _ hv) _ h
    next => exact h

@[simp] theorem State.canonical_putEntry {s : State} (x : TStruct) (e : TEntry) (h : Canonical s.memories) : Canonical (s.putEntry x e).memories := by
  unfold State.putEntry
  dsimp only
  split <;> simp [h]

@[simp] theorem State.canonical_dropEntry {s : State} (x : TStruct) (e : TEntry) (h : Canonical s.memories) :
    Canonical (s.dropEntry x e).memories := by
  unfold State.dropEntry
  dsimp only
  split <;> simp [h]

@[simp] theorem State.canonical_insertKey {s : State} (x : TStruct) (a : Nat) (key result : List Byte) (h : Canonical s.memories) :
    Canonical (s.insertKey x a key result).2.memories := by
  unfold State.insertKey
  dsimp only
  (repeat' split) <;> simp [h]

@[simp] theorem State.canonical_deleteKey {s : State} (x : TStruct) (a : Nat) (key : List Byte) (h : Canonical s.memories) :
    Canonical (s.deleteKey x a key).2.memories := by
  unfold State.deleteKey
  refine State.canonical_foldl (fun _ _ ht => ?_) _ h
  (repeat' split) <;> simp [ht]

@[simp] theorem State.canonical_noteGone {s : State} (num a : Nat) (d : ObjWord) (key : List Byte) (gone : Bool) (h : Canonical s.memories) :
    Canonical (s.noteGone num a d key gone).memories := by
  unfold State.noteGone
  split <;> simp [h]

@[simp] theorem State.canonical_insertTable {s : State} (num a : Nat) (key result : List Byte) (h : Canonical s.memories) :
    Canonical (s.insertTable num a key result).2.memories := by
  unfold State.insertTable
  extract_lets d r t
  have ht : Canonical t.memories := State.canonical_noteGone _ _ _ _ _ (State.canonical_insertKey _ _ _ _ h)
  split
  · exact ht
  · refine State.canonical_foldl (fun v x hv => ?_) _ ht
    have hkey := State.canonical_insertKey x a key result hv
    exact State.canonical_ite (by simpa using hkey) hkey

@[simp] theorem State.canonical_deleteTable {s : State} (num a : Nat) (key : List Byte) (h : Canonical s.memories) :
    Canonical (s.deleteTable num a key).2.memories :=
  State.canonical_foldl (fun _ _ hv => State.canonical_deleteKey _ _ _ hv) _ (State.canonical_noteGone _ _ _ _ _ (State.canonical_deleteKey _ _ _ h))

@[simp] theorem State.canonical_applyWrite {s : State} (w : TieWrite) (h : Canonical s.memories) : Canonical (s.applyWrite w).memories := by
  unfold State.applyWrite
  extract_lets ok
  split
  · dsimp only
    rw [State.memories_hopDone]
    exact State.canonical_deleteTable _ _ _ h
  · have hins := State.canonical_insertTable w.num w.tag w.key w.result h
    split
    next t heq =>
      rw [heq] at hins
      rw [State.memories_hopDone, State.memories_mk]
      exact hins
    next r t _ heq =>
      rw [heq] at hins
      rw [State.memories_hopDone]
      exact hins

@[simp] theorem State.canonical_sequence {s : State} (w : TieWrite) (h : Canonical s.memories) : Canonical (s.sequence w).memories := by
  unfold State.sequence
  extract_lets now again t
  have ht : Canonical t.memories := State.canonical_foldl (fun _ _ hv => State.canonical_applyWrite _ hv) _ (State.canonical_applyWrite _ h)
  rw [State.memories_mk]
  exact ht

@[simp] theorem State.canonical_tableWrite {s : State} (t : Nat) (h : Canonical s.memories) : Canonical (s.tableWrite t).memories := by
  unfold State.tableWrite
  split
  next => exact h
  next g hg =>
    extract_lets num d key isl
    split
    next => exact h
    next =>
      split
      next => simpa using h
      next =>
        split
        next => exact h
        next =>
          have hlook := State.memories_lookTable s num g.tag key { master := t, access := 7, ev := 0x10 }
          split
          next u heq =>
            rw [heq] at hlook
            rw [State.memories_hopDone]
            exact hlook ▸ h
          next l u _ heq =>
            rw [heq] at hlook
            exact State.canonical_sequence _ (hlook ▸ h)

@[simp] theorem State.canonical_moveEntry {s : State} (x : TStruct) (e : TEntry) (h : Canonical s.memories) :
    Canonical (s.moveEntry x e).memories := by
  unfold State.moveEntry
  dsimp only
  split <;> simp [h]

theorem State.canonical_makeRoom {s : State} (x : TStruct) (key : List Byte) (h : Canonical s.memories) (v : State)
    (hv : s.makeRoom x key = some v) : Canonical v.memories := by
  unfold State.makeRoom at hv
  obtain ⟨path, -, rfl⟩ := Option.map_eq_some_iff.1 hv
  exact State.canonical_foldl (fun _ _ hu => State.canonical_moveEntry _ _ hu) _ h

@[simp] theorem State.canonical_relocate {s : State} (num : Nat) (h : Canonical s.memories) : Canonical (s.relocate num).memories := by
  unfold State.relocate
  refine State.canonical_foldl (fun t e ht => ?_) _ h
  dsimp only
  split
  · exact State.canonical_getD ht fun v hv => State.canonical_makeRoom _ _ ht v hv
  · exact ht

@[simp] theorem State.canonical_hostInsert {s : State} (num a : Nat) (key result : List Byte) (h : Canonical s.memories) :
    Canonical (s.hostInsert num a key result).2.memories := by
  unfold State.hostInsert
  have hins := State.canonical_insertTable num a key result h
  split
  next t heq =>
    rw [heq] at hins
    split
    next => exact hins
    next u hroom => exact State.canonical_insertTable _ _ _ _ (State.canonical_makeRoom _ _ hins u hroom)
  next => exact hins

theorem State.canonical_insertPrefix {s : State} (num a : Nat) (e : LpmEntry) (h : Canonical s.memories) (r : Bool × State)
    (hr : s.insertPrefix num a e = some r) : Canonical r.2.memories := by
  unfold State.insertPrefix at hr
  dsimp only at hr
  split at hr <;> simp at hr
  subst hr
  simp [h]

@[simp] theorem State.canonical_deletePrefix {s : State} (num a len : Nat) (bytes : List Byte) (h : Canonical s.memories) :
    Canonical (s.deletePrefix num a len bytes).2.memories := by simp [State.deletePrefix, h]

theorem State.canonical_insertRule {s : State} (num a : Nat) (body result : List Byte) (h : Canonical s.memories) (r : Bool × Nat × State)
    (hr : s.insertRule num a body result = some r) : Canonical r.2.2.memories := by
  unfold State.insertRule at hr
  dsimp only at hr
  (repeat' split at hr) <;> simp at hr <;> (obtain ⟨-, rfl⟩ := hr; simp [h])

@[simp] theorem State.canonical_deleteRule {s : State} (num a : Nat) (body : List Byte) (h : Canonical s.memories) :
    Canonical (s.deleteRule num a body).2.memories := by simp [State.deleteRule, h]

@[simp] theorem State.canonical_directWrite {s : State} (d : ObjWord) (c k o : Nat) (l : List Byte) (h : Canonical s.memories) :
    Canonical (s.directWrite d c k o l).memories := by simp [State.directWrite, h]

@[simp] theorem State.canonical_versionedCopy {s : State} (num : Nat) (h : Canonical s.memories) : Canonical (s.versionedCopy num).memories := by
  unfold State.versionedCopy
  extract_lets a x d from' n
  split
  next => exact h
  next c hc =>
    split
    next => exact h
    next =>
      extract_lets t u y v
      have ht : Canonical t.memories := by
        refine State.canonical_ite (State.canonical_foldl (fun w k hw => ?_) _ h) h
        exact ⟨Memory.wf_mputs _ _ _ (Memory.wf_mclear hw.1 _ _), hw.2⟩
      have hu : Canonical u.memories := State.canonical_foldl (fun _ _ hw => State.canonical_directWrite _ _ _ _ _ hw) _ ht
      have hv : Canonical v.memories := by simpa [v] using hu
      split
      · exact State.canonical_ite (State.canonical_undefer _ _ hv) hv
      · exact hv

theorem State.canonical_recordInsert {s : State} (num : Nat) (live : Bool) (body : List Byte) (h : Canonical s.memories) :
    (s.recordInsert num live body).canonical := by
  unfold State.recordInsert
  extract_lets a d kl k o x
  clear_value a d
  split
  next => exact h
  next =>
    split
    next =>
      split
      · exact State.canonical_directWrite _ _ _ _ _ h
      · split
        · exact State.canonical_directWrite _ _ _ _ _ (by simpa using h)
        · simpa using h
    next =>
      split
      next r c t heq => exact State.canonical_insertRule _ _ _ _ h _ heq
      next => exact h
    next =>
      split
      next r t heq => exact State.canonical_insertPrefix _ _ _ h _ heq
      next => exact h
    next =>
      split
      next r t heq => exact State.canonical_insertPrefix _ _ _ h _ heq
      next => exact h
    next =>
      have hins := fun key result => State.canonical_hostInsert num a key result h
      split
      next t heq =>
        have ht := heq ▸ hins _ _
        exact ht
      next r t _ heq =>
        have ht := heq ▸ hins _ _
        exact State.canonical_ite ht ht

@[simp] theorem State.canonical_recordDelete {s : State} (num : Nat) (live : Bool) (body : List Byte) (h : Canonical s.memories) :
    Canonical (s.recordDelete num live body).2.memories := by
  unfold State.recordDelete
  dsimp only
  (repeat' split) <;> simp [h]

theorem State.canonical_placeAll (x : TStruct) (l : List TEntry) : ∀ {s : State}, Canonical s.memories → ∀ v : State,
    s.placeAll x l = some v → Canonical v.memories := by
  induction l with
  | nil =>
    intro s h v hv
    obtain rfl := Option.some.inj hv
    exact h
  | cons e l ih =>
    intro s h v hv
    unfold State.placeAll at hv
    extract_lets y go at hv
    have hgo : ∀ t u : State, Canonical t.memories → go t = some u → Canonical u.memories := by
      intro t u ht hu
      simp only [go] at hu
      split at hu
      · obtain rfl := Option.some.inj hu
        exact State.canonical_putEntry _ _ ht
      · simp at hu
    split at hv
    next u hplaced =>
      refine ih ?_ v hv
      rw [State.memories_count]
      rcases Option.or_eq_some_iff.1 hplaced with hdirect | ⟨-, hmoved⟩
      · exact hgo _ _ h hdirect
      · obtain ⟨t, ht, hu⟩ := Option.bind_eq_some_iff.1 hmoved
        exact hgo _ _ (State.canonical_makeRoom _ _ h t ht) hu
    next => simp at hv

theorem State.canonical_macerateDirect {s : State} (old x : TStruct) (h : Canonical s.memories) (v : State)
    (hv : s.macerateDirect old x = some v) : Canonical v.memories := by
  unfold State.macerateDirect at hv
  extract_lets a d from' new n bytes t u at hv
  split at hv
  · obtain rfl := Option.some.inj hv
    have ht : Canonical t.memories := by
      refine State.canonical_foldl (fun w b hw => ?_) _ h
      exact ⟨Memory.wf_mputs _ _ _ (Memory.wf_mclear hw.1 _ _), hw.2⟩
    have hu : Canonical u.memories := State.canonical_foldl (fun _ _ hw => State.canonical_putRows _ _ hw) _ ht
    simpa using hu
  · simp at hv

theorem State.canonical_macerate {s : State} (num : Nat) (h : Canonical s.memories) (v : State) (hv : s.macerate num = some v) :
    Canonical v.memories := by
  have hsome : ∀ t : State, Canonical t.memories → some t = some v → Canonical v.memories := fun t ht heq => Option.some.inj heq ▸ ht
  unfold State.macerate at hv
  dsimp only at hv
  split at hv
  next => exact hsome _ h hv
  next =>
    split at hv
    next => simp at hv
    next =>
      split at hv
      next => exact State.canonical_macerateDirect _ _ h v hv
      next =>
        split at hv
        · exact hsome _ (by simpa using h) hv
        · simp at hv
      next =>
        split at hv
        · exact hsome _ (by simpa using h) hv
        · simp at hv
      next =>
        split at hv
        · exact hsome _ (by simpa using h) hv
        · simp at hv
      next =>
        obtain ⟨u, hplaced, rfl⟩ := Option.map_eq_some_iff.1 hv
        simpa using State.canonical_placeAll _ _ h u hplaced

@[simp] theorem State.canonical_macerationDone {s : State} (num : Nat) (h : Canonical s.memories) : Canonical (s.macerationDone num).memories := by
  unfold State.macerationDone
  split
  next =>
    extract_lets tb t d
    have ht : Canonical t.memories := h
    split
    next u heq => exact State.canonical_complete _ _ _ (State.canonical_macerate _ ht u heq)
    next => exact State.canonical_complete _ _ _ (by rw [State.memories_raise]; exact ht)
  next => exact h

@[simp] theorem State.canonical_splitTo {s : State} (x : TStruct) (c : Nat) (h : Canonical s.memories) : Canonical (s.splitTo x c).memories := by
  unfold State.splitTo
  split
  next => exact h
  next m hm =>
    extract_lets c next' es t
    have ht : Canonical t.memories := State.canonical_ite (State.canonical_foldl (fun _ _ hv => State.canonical_dramClear _ _ hv) _ h) h
    exact State.canonical_setEntries _ _ ht

@[simp] theorem State.canonical_resizeDone {s : State} (num : Nat) (h : Canonical s.memories) : Canonical (s.resizeDone num).memories := by
  unfold State.resizeDone
  split
  next =>
    extract_lets xs t
    have ht : Canonical t.memories := State.canonical_foldl (fun _ _ hv => State.canonical_splitTo _ _ hv) _ h
    exact State.canonical_complete _ _ _ (by rw [State.memories_mk]; exact ht)
  next => exact h

@[simp] theorem State.canonical_migrate {s : State} (h : Canonical s.memories) : Canonical s.migrate.memories := by
  unfold State.migrate
  refine State.canonical_foldl (fun _ _ ht => ?_) _ h
  (repeat' split) <;> simp [ht]

@[simp] theorem State.canonical_bankReplaced {s : State} (b : Nat) (mismatch : Bool) (h : Canonical s.memories) :
    Canonical (s.bankReplaced b mismatch).memories := by
  unfold State.bankReplaced
  split
  next =>
    dsimp only
    split
    next => exact h
    next p hp =>
      split
      next => exact State.canonical_complete _ _ _ (by rw [State.memories_raise, State.memories_mk]; exact h)
      next =>
        refine State.canonical_complete _ _ _ ?_
        exact ⟨Memory.wf_mputs _ _ _ (Memory.wf_mclear h.1 _ _), h.2⟩
  next => exact h

@[simp] theorem State.canonical_sweepDone {s : State} (h : Canonical s.memories) : Canonical s.sweepDone.memories := by
  unfold State.sweepDone
  split
  next => exact h
  next tag rest hs =>
    refine State.canonical_foldl (fun t x ht => ?_) _ h
    dsimp only
    rw [State.memories_count]
    exact State.canonical_setEntries _ _ ht

/-! ### The Task Scheduler -/

theorem State.canonical_taskAbort {s : State} (n : Nat) (h : Canonical s.memories) (r : Nat × State) (hr : s.taskAbort n = some r) :
    Canonical r.2.memories := by
  unfold State.taskAbort at hr
  dsimp only at hr
  (repeat' split at hr) <;> simp at hr <;> (subst hr; simp [h])

/-! ### Packets at the Steward -/

@[simp] theorem State.canonical_after {s : State} (step : Nat) {r : Ran} (h : r.canonical) : (s.after step r).canonical := by
  unfold State.after
  split
  · exact h
  · trivial

theorem State.canonical_settle {s : State} (answerTo : ReplyTo) (r : Ran) (h : Canonical s.memories) (hr : r.canonical) (v : State)
    (hv : s.settle answerTo r = some v) : Canonical v.memories := by
  have hsome : ∀ t : State, Canonical t.memories → some t = some v → Canonical v.memories := fun t ht heq => Option.some.inj heq ▸ ht
  cases r with
  | done st l t => exact hsome _ (State.canonical_reply _ _ _ hr) hv
  | start op t =>
    simp only [State.settle] at hv
    split at hv
    · exact hsome _ (State.canonical_reply _ _ _ h) hv
    · obtain rfl := Option.some.inj hv
      exact State.canonical_reply _ _ _ hr
  | defer w t =>
    obtain rfl := Option.some.inj hv
    exact hr
  | objects w c n l d t =>
    obtain rfl := Option.some.inj hv
    exact hr
  | wait => simp [State.settle] at hv

theorem State.canonical_runPacket {s : State} (o : Origin) (k : Pkt) (answerTo : ReplyTo) (known : Bool) (form : List Byte → Bool)
    {run : Cmd → State → Ran} (h : Canonical s.memories) (hrun : ∀ c (t : State), Canonical t.memories → (run c t).canonical) (v : State)
    (hv : s.runPacket o k answerTo known form run = some v) : Canonical v.memories := by
  have hsome : ∀ t : State, Canonical t.memories → some t = some v → Canonical v.memories := fun t ht heq => Option.some.inj heq ▸ ht
  have ht : Canonical (s.consume k).memories := by simpa using h
  unfold State.runPacket at hv
  dsimp only at hv
  split at hv
  · exact hsome _ (State.canonical_reply _ _ _ ht) hv
  · split at hv
    · exact hsome _ (State.canonical_reply _ _ _ ht) hv
    · split at hv
      · exact hsome _ (State.canonical_reply _ _ _ ht) hv
      · have hcounted : Canonical ((s.consume k).count (src 51 0) 0x11).memories := by rw [State.memories_count]; exact ht
        exact State.canonical_settle _ _ hcounted (hrun _ _ hcounted) v hv

theorem State.canonical_examine {s : State} (o : Origin) (k : Pkt) (known : Bool) (form : List Byte → Bool)
    {run : Cmd → State → Ran} (h : Canonical s.memories) (hrun : ∀ c (t : State), Canonical t.memories → (run c t).canonical) (v : State)
    (hv : s.examine o k known form run = some v) : Canonical v.memories := by
  have hsome : ∀ t : State, Canonical t.memories → some t = some v → Canonical v.memories := fun t ht heq => Option.some.inj heq ▸ ht
  unfold State.examine at hv
  dsimp only at hv
  split at hv
  · exact hsome _ (by rw [State.memories_count]; exact h) hv
  · exact hsome _ (State.canonical_sendReply _ _ h) hv
  · exact hsome _ (State.canonical_sendReply _ _ (by simpa using h)) hv
  · exact hsome _ (State.canonical_sendReply _ _ h) hv
  · exact hsome _ (State.canonical_sendReply _ _ (by simpa using h)) hv
  · exact State.canonical_runPacket _ _ _ _ _ h hrun v hv

theorem State.canonical_packet {s : State} (x : Packet) (op : Nat) (sel : Option (Nat × Byte)) (form : List Byte → Bool)
    {run : Cmd → State → Ran} (h : Canonical s.memories) (hrun : ∀ c (t : State), Canonical t.memories → (run c t).canonical) :
    Canonical (s.packet x op sel form run).memories := by
  unfold State.packet
  dsimp only
  split
  next => exact h
  next t htaken => exact State.memories_takePacket _ _ _ _ htaken ▸ h
  next o t htaken =>
    have ht : Canonical t.memories := State.memories_takePacket _ _ _ _ htaken ▸ h
    exact State.canonical_getD (by simpa using h) fun v hv => State.canonical_examine _ _ _ _ ht hrun v hv

@[simp] theorem State.canonical_malformed {s : State} (via : Via) (l : List Byte) (h : Canonical s.memories) :
    Canonical (s.malformed via l).memories := by
  have htaken : ∀ o (t : State), s.takePacket via l = some (o, t) → Canonical t.memories := fun o t htaken =>
    State.memories_takePacket _ _ _ _ htaken ▸ h
  unfold State.malformed
  split
  next k hk =>
    split
    next => exact h
    next =>
      split
      next => exact h
      next t ht => exact htaken _ t ht
      next o t ht =>
        exact State.canonical_getD h fun v hv => State.canonical_examine _ _ _ _ (htaken _ t ht) (fun _ _ _ => Ran.canonical_wait) v hv
  next =>
    split
    next => exact h
    next t ht => exact htaken _ t ht
    next o t ht =>
      rw [State.memories_count, State.memories_mk]
      exact htaken _ t ht

/-! ### Boot flash and manifests -/

@[simp] theorem State.canonical_imageStaged {s : State} (k : Nat) (h : Canonical s.memories) : Canonical (s.imageStaged k).memories := by
  unfold State.imageStaged
  dsimp only
  (repeat' split) <;> simp [h]

/-! ### The Buffer Pool Manager -/

@[simp] theorem State.canonical_setPool {s : State} (p : Nat) (w : ObjWord) (h : Canonical s.memories) : Canonical (s.setPool p w).memories := by
  unfold State.setPool
  dsimp only
  split <;> simp [h]

@[simp] theorem State.canonical_leakSweep {s : State} (h : Canonical s.memories) : Canonical s.leakSweep.memories := by
  unfold State.leakSweep
  extract_lets age late bufs ds first t u n
  have ht : Canonical t.memories := State.canonical_foldl (fun _ _ hv => by simpa using State.canonical_modBuf _ _ _ hv) _ h
  have hu : Canonical u.memories := by simpa [u] using ht
  split
  · exact h
  · exact State.canonical_ite hu (by simpa using hu)

theorem State.memories_packetCheck {s : State} {t : Nat} {g : HelperOp} {r : HelperRes × State} (hr : s.packetCheck t g = .inl r) :
    r.2.memories = s.memories := by
  unfold State.packetCheck at hr
  dsimp only at hr
  (repeat' split at hr) <;> simp at hr <;> (subst hr; simp)

theorem State.canonical_packetOp {s : State} (t : Nat) (g : HelperOp) (own : Bool) (h : Canonical s.memories) (r : HelperRes × State)
    (hr : s.packetOp t g own = some r) : Canonical r.2.memories := by
  have hsome : ∀ q : HelperRes × State, Canonical q.2.memories → some q = some r → Canonical r.2.memories := fun q hq heq => Option.some.inj heq ▸ hq
  unfold State.packetOp at hr
  dsimp only at hr
  split at hr
  next =>
    split at hr
    · exact hsome _ h hr
    · split at hr
      · exact hsome _ (by simpa using h) hr
      · exact hsome _ h hr
  next =>
    split at hr
    · exact hsome _ h hr
    · exact hsome _ (State.canonical_chainWrite _ _ _ h) hr
  next =>
    split at hr
    · exact hsome _ h hr
    · split at hr
      next => simp at hr
      next => exact hsome _ (by simpa using h) hr
      next cells u hcells =>
        have hu : Canonical u.memories := State.memories_headCellsFor _ _ _ hcells ▸ h
        exact hsome _ (by simpa using State.canonical_freeEntries _ _ (State.canonical_chainWrite _ _ _ hu)) hr
  next =>
    split at hr
    · exact hsome _ h hr
    · exact hsome _ (by simpa using h) hr
  next =>
    split at hr
    · exact hsome _ h hr
    · exact hsome _ (State.canonical_freePacket _ h) hr

theorem State.canonical_bufferOp {s : State} (t : Nat) (g : HelperOp) (h : Canonical s.memories) (r : HelperRes × State)
    (hr : s.bufferOp t g = some r) : Canonical r.2.memories := by
  have hsome : ∀ q : HelperRes × State, Canonical q.2.memories → some q = some r → Canonical r.2.memories := fun q hq heq => Option.some.inj heq ▸ hq
  unfold State.bufferOp at hr
  extract_lets p i b n off a at hr
  split at hr
  next => exact hsome _ h hr
  next =>
    split at hr
    next => exact hsome _ h hr
    next =>
      split at hr
      next => simp at hr
      next =>
        split at hr
        next => exact hsome _ (by simpa using h) hr
        next =>
          split at hr
          next => exact hsome _ h hr
          next =>
            split at hr
            next => exact hsome _ h hr
            next =>
              split at hr
              next => exact hsome _ (State.canonical_freeBuffer _ _ h) hr
              next =>
                have hread := State.memories_bufRead s p i off n t
                (repeat' split at hr)
                · exact hsome _ h hr
                · exact hsome _ h hr
                · simp at hr
                · rename_i heq
                  rw [heq] at hread
                  exact hsome _ (hread ▸ h) hr
                · rename_i heq
                  rw [heq] at hread
                  exact hsome _ (hread ▸ h) hr
              next =>
                (repeat' split at hr)
                · exact hsome _ h hr
                · exact hsome _ h hr
                · simp at hr
                · exact hsome _ (State.canonical_bufWrite _ _ _ _ _ h) hr

theorem State.canonical_h6Op {s : State} (t : Nat) (g : HelperOp) (h : Canonical s.memories) (r : HelperRes × State)
    (hr : s.h6Op t g = some r) : Canonical r.2.memories := by
  have hsome : ∀ q : HelperRes × State, Canonical q.2.memories → some q = some r → Canonical r.2.memories := fun q hq heq => Option.some.inj heq ▸ hq
  have halloc := State.canonical_allocBuffer g.acc.toNat t h
  unfold State.h6Op at hr
  split at hr
  next =>
    split at hr
    next hd u heq =>
      have hu : Canonical u.memories := (heq ▸ halloc :)
      exact hsome _ hu hr
    next u heq =>
      have hu : Canonical u.memories := (heq ▸ halloc :)
      exact hsome _ hu hr
    next u heq =>
      have hu : Canonical u.memories := (heq ▸ halloc :)
      exact hsome _ hu hr
    next => exact hsome _ h hr
    next => simp at hr
  next =>
    split at hr
    next => exact State.canonical_bufferOp _ _ h r hr
    next =>
      split at hr
      next q heq => exact hsome _ (State.memories_packetCheck heq ▸ h) hr
      next => exact State.canonical_packetOp _ _ _ h r hr

@[simp] theorem State.canonical_h6Do {s : State} (t : Nat) (g : HelperOp) (h : Canonical s.memories) : Canonical (s.h6Do t g).memories := by
  unfold State.h6Do
  split
  next => simpa using h
  next =>
    split
    next => simpa using h
    next r u heq =>
      have hu := State.canonical_h6Op _ _ h _ heq
      extract_lets p v
      have hv : Canonical v.memories := State.canonical_ite (by rw [State.memories_mk]; exact hu) hu
      rw [State.memories_hopDone]
      exact hv

@[simp] theorem State.canonical_h6Arrive {s : State} (t : Nat) (h : Canonical s.memories) : Canonical (s.h6Arrive t).memories := by
  unfold State.h6Arrive
  split
  next => exact h
  next g hg =>
    split
    · exact h
    · split
      · simpa using h
      · exact State.canonical_ite h (State.canonical_h6Do _ _ h)

/-! ### The Data Port -/

@[simp] theorem State.canonical_setGone {s : State} (num : Nat) (d : ObjWord) (key : List Byte) (gone : Bool) (h : Canonical s.memories) :
    Canonical (s.setGone num d key gone).memories := by simp [State.setGone, h]

@[simp] theorem State.canonical_withdraw {s : State} (num : Nat) (u : TableUndo) (h : Canonical s.memories) :
    Canonical (s.withdraw num u).memories := by
  unfold State.withdraw
  dsimp only
  (repeat' split) <;> simp [h]

@[simp] theorem State.canonical_takeRecord {s : State} (w : Nat) (l : List Byte) (h : Canonical s.memories) :
    Canonical (s.takeRecord w l).memories := by
  unfold State.takeRecord
  extract_lets num body u
  have hins := State.canonical_recordInsert num false body h
  split
  · split
    next st l' t heq =>
      have ht : Canonical t.memories := (heq ▸ hins :)
      split <;> simpa using ht
    next t heq =>
      have ht : Canonical t.memories := (heq ▸ hins :)
      simpa using ht
  · simpa using h

@[simp] theorem State.canonical_takeRecords (w n : Nat) : ∀ {s : State}, Canonical s.memories → Canonical (s.takeRecords w n).memories := by
  induction n with
  | zero => exact fun h => h
  | succ n ih =>
    intro s h
    unfold State.takeRecords
    dsimp only
    split
    · exact ih (by simpa using State.canonical_takeRecord _ _ h)
    · exact h

@[simp] theorem State.canonical_hostStore {s : State} (x : Window) (p : Nat) (l : List Byte) (h : Canonical s.memories) :
    Canonical (s.hostStore x p l).memories := by
  unfold State.hostStore
  extract_lets as lines t
  have ht : Canonical t.memories := by simpa [t] using h
  exact ⟨ht.1, ht.2.1, Memory.wf_mputs _ _ _ ht.2.2⟩

@[simp] theorem State.canonical_winWrite {s : State} (w p : Nat) (l : List Byte) (h : Canonical s.memories) :
    Canonical (s.winWrite w p l).memories := by
  unfold State.winWrite
  dsimp only
  (repeat' split) <;> simp [h]

@[simp] theorem State.canonical_mismatch {s : State} (w : Nat) (h : Canonical s.memories) : Canonical (s.mismatch w).memories := by
  unfold State.mismatch
  extract_lets x
  split
  · exact h
  · split
    · exact State.canonical_foldl (fun _ _ hv => State.canonical_withdraw _ _ hv) _ h
    · exact State.canonical_ite (by simpa using h) h
    · exact h

@[simp] theorem State.canonical_winAbort {s : State} (w : Nat) (h : Canonical s.memories) :
    Canonical (s.winAbort w).memories := by simp [State.winAbort, h]

@[simp] theorem State.canonical_portOpen {s : State} (c : Cmd) (h : Canonical s.memories) : (s.portOpen c).canonical := by
  unfold State.portOpen
  extract_lets w read x go
  have hgo : go.canonical := by
    simp only [go]
    (repeat' split) <;> simpa using h
  split
  · simpa using h
  · split <;> simp [hgo]

@[simp] theorem State.canonical_portData {s : State} (c : Cmd) (h : Canonical s.memories) : (s.portData c).canonical := by
  unfold State.portData
  dsimp only
  (repeat' split) <;> simp [h]

@[simp] theorem State.canonical_portClose {s : State} (c : Cmd) (h : Canonical s.memories) : (s.portClose c).canonical := by
  unfold State.portClose
  dsimp only
  (repeat' split) <;> simp [h]

@[simp] theorem State.canonical_portAbort {s : State} (c : Cmd) (h : Canonical s.memories) : (s.portAbort c).canonical := by
  unfold State.portAbort
  dsimp only
  (repeat' split) <;> simp [h]

@[simp] theorem State.canonical_idleExpire {s : State} (w : Nat) (h : Canonical s.memories) : Canonical (s.idleExpire w).memories := by
  unfold State.idleExpire
  split <;> simp [h]

@[simp] theorem State.canonical_bar2Write {s : State} (w o : Nat) (l : List Byte) (contiguous : Bool) (h : Canonical s.memories) :
    Canonical (s.bar2Write w o l contiguous).memories := by
  unfold State.bar2Write
  dsimp only
  (repeat' split) <;> simp [h]

/-! ### Block resets -/

@[simp] theorem State.canonical_refuse {s : State} (a b : Nat) (m : Msg) (h : Canonical s.memories) : Canonical (s.refuse a b m).memories := by
  unfold State.refuse
  split
  · simpa using h
  · simpa using h
  · exact h
  · exact h
  · exact State.canonical_ite h (by simpa using h)
  · exact State.canonical_undefer _ _ h
  · simpa using h
  · simpa using h
  · simpa using h
  · rw [State.memories_count]
    exact State.canonical_freePacket _ h
  · exact h

@[simp] theorem State.canonical_seqRefused {s : State} (i : Nat) (h : Canonical s.memories) : Canonical (s.seqRefused i).memories := by
  unfold State.seqRefused
  (repeat' split) <;> simp [h]

@[simp] theorem State.canonical_refuseOldest {s : State} (a b : Nat) (h : Canonical s.memories) : Canonical (s.refuseOldest a b).memories := by
  unfold State.refuseOldest
  (repeat' split) <;> simp [h]

@[simp] theorem State.canonical_refuseAll {s : State} (b : Nat) (h : Canonical s.memories) : Canonical (s.refuseAll b).memories := by
  unfold State.refuseAll
  exact State.canonical_foldl (fun _ _ hv => State.canonical_refuse _ _ _ hv) _ (by simpa using h)

@[simp] theorem State.canonical_resetCluster {s : State} (c : Nat) (h : Canonical s.memories) :
    Canonical (s.resetCluster c).memories := by simp [State.resetCluster, h]

@[simp] theorem State.canonical_resetSequencer {s : State} (h : Canonical s.memories) : Canonical s.resetSequencer.memories := by
  unfold State.resetSequencer
  extract_lets t sq u rs v w x
  have ht : Canonical t.memories := by simpa [t] using h
  have hu : Canonical u.memories := by
    simp only [u, State.memories_mk]
    exact ht
  have hv : Canonical v.memories := State.canonical_foldl (fun _ _ hv => by simpa using hv) _ hu
  have hw : Canonical w.memories := State.canonical_foldl (fun _ _ hv => State.canonical_resolveDrop _ _ hv) _ hv
  have hx : Canonical x.memories := by simpa [x] using hw
  rw [State.memories_mk]
  exact hx

@[simp] theorem State.canonical_resetOctet {s : State} (i : Nat) (h : Canonical s.memories) : Canonical (s.resetOctet i).memories := by
  unfold State.resetOctet
  refine State.canonical_foldl (fun t p ht => ?_) _ h
  extract_lets u v w x
  have hu : Canonical u.memories := by simpa [u] using ht
  have hv : Canonical v.memories := State.canonical_foldl (fun _ _ hy => State.canonical_freePacket _ hy) _ hu
  have hx : Canonical x.memories := State.canonical_complete _ _ _ (by simpa [w] using hv)
  exact State.canonical_ite (by simpa using hx) hx

@[simp] theorem State.canonical_resetPools {s : State} (h : Canonical s.memories) : Canonical s.resetPools.memories := by
  unfold State.resetPools
  extract_lets t u v
  have ht : Canonical t.memories := State.canonical_foldl (fun _ _ hw => State.canonical_foldl (fun _ _ hx => by simpa using hx) _ hw) _ h
  have hu : Canonical u.memories := State.canonical_foldl (fun _ _ hw => State.canonical_foldl (fun _ _ hx => State.canonical_h6Do _ _ hx) _ hw) _ ht
  have hv : Canonical v.memories := by simpa [v] using hu
  exact State.canonical_foldl (fun _ _ hw => by simpa using hw) _ hv

@[simp] theorem State.canonical_resetSteward {s : State} (h : Canonical s.memories) : Canonical s.resetSteward.memories := by
  unfold State.resetSteward
  refine State.canonical_foldl (fun _ _ ht => ?_) _ h
  (repeat' split) <;> simp [ht]

@[simp] theorem State.canonical_resetWork {s : State} (i : Nat) (h : Canonical s.memories) : Canonical (s.resetWork i).memories := by
  unfold State.resetWork
  (repeat' split) <;> simp [h]

@[simp] theorem State.canonical_resetIsland {s : State} (i : Nat) (reaction : Bool) (h : Canonical s.memories) :
    Canonical (s.resetIsland i reaction).memories := by
  unfold State.resetIsland
  split
  next => exact h
  next =>
    extract_lets stopped t u v
    have ht : Canonical t.memories := by
      simp only [t]
      split
      · exact State.canonical_ite (State.canonical_undefer _ _ h) h
      · exact h
    have hu : Canonical u.memories := by simpa [u] using State.canonical_resetWork _ ht
    have hv : Canonical v.memories := State.canonical_ite (State.canonical_refuseAll _ hu) hu
    exact State.canonical_ite (State.canonical_flushInband hv) (State.canonical_ite (State.canonical_drainSpill hv) hv)

@[simp] theorem State.canonical_releaseWork {s : State} (i : Nat) (h : Canonical s.memories) : Canonical (s.releaseWork i).memories := by
  unfold State.releaseWork
  split
  · dsimp only
    split <;> simpa using h
  · split
    · exact State.canonical_foldl (fun _ _ hv => State.canonical_foldl (fun _ _ hw => State.canonical_seqRefused _ hw) _ hv) _ h
    · split
      · exact State.canonical_foldl (fun _ _ hv => State.canonical_dropPacket _ hv) _ (by simpa using h)
      · split
        · split
          · exact State.canonical_loadTree _ h
          · exact h
        · split
          · exact h
          · split
            · exact State.canonical_ite (by simpa using h) h
            · exact h

@[simp] theorem State.canonical_releaseIsland {s : State} (i : Nat) (h : Canonical s.memories) :
    Canonical (s.releaseIsland i).memories := by simp [State.releaseIsland, h]

@[simp] theorem State.canonical_blockRelease {s : State} (i : Nat) (h : Canonical s.memories) : Canonical (s.blockRelease i).memories := by
  unfold State.blockRelease
  split <;> simp [h]

/-! ### Accords -/

@[simp] theorem State.canonical_accordCommit {s : State} (h : Canonical s.memories) : s.accordCommit.canonical := by
  unfold State.accordCommit
  (repeat' split) <;> simp [h]

@[simp] theorem State.canonical_prepareDone {s : State} (failed : List Nat) (h : Canonical s.memories) :
    Canonical (s.prepareDone failed).memories := by
  unfold State.prepareDone
  dsimp only
  (repeat' split) <;> simp [h, State.memories_ite]

@[simp] theorem State.canonical_commitPoint {s : State} (h : Canonical s.memories) : Canonical s.commitPoint.memories := by
  unfold State.commitPoint
  split <;> simp [h]

@[simp] theorem State.canonical_accordDiscard {s : State} (h : Canonical s.memories) : s.accordDiscard.canonical := by
  unfold State.accordDiscard
  split <;> simp [h]

@[simp] theorem State.canonical_discardEntries {s : State} (x : TStruct) (h : Canonical s.memories) :
    Canonical (s.discardEntries x).memories := by simp [State.discardEntries, h]

@[simp] theorem State.canonical_discardDone {s : State} (h : Canonical s.memories) : Canonical s.discardDone.memories := by
  unfold State.discardDone
  split
  next => exact h
  next =>
    extract_lets a c kept gone t tb u v w
    have ht : Canonical t.memories := State.canonical_foldl (fun _ _ hx => State.canonical_discardEntries _ hx) _ h
    have hu : Canonical u.memories := ht
    have hv : Canonical v.memories := State.canonical_foldl (fun _ _ hx => State.canonical_complete _ _ _ hx) _ hu
    have hw : Canonical w.memories := by simpa [w] using hv
    exact State.canonical_complete _ _ _ (by rw [State.memories_mk]; exact hw)

/-! ### Live service -/

@[simp] theorem State.canonical_onCluster {s : State} (c : Nat) {r : Ran} (h : Canonical s.memories) (hr : r.canonical) :
    (s.onCluster c r).canonical := by
  unfold State.onCluster
  split
  · exact h
  · refine State.canonical_after _ ?_
    (repeat' split) <;> assumption

@[simp] theorem State.canonical_clusterDrain {s : State} (c wait : Nat) (h : Canonical s.memories) : (s.clusterDrain c wait).canonical := by
  unfold State.clusterDrain
  (repeat' split) <;> simp [h]

@[simp] theorem State.canonical_clusterResume {s : State} (c : Nat) (h : Canonical s.memories) : (s.clusterResume c).canonical := by
  refine State.canonical_onCluster _ h ?_
  split
  · exact h
  · split
    · simpa using State.canonical_complete _ _ _ h
    · exact h

@[simp] theorem State.canonical_clusterResetDone {s : State} (c : Nat) (h : Canonical s.memories) : Canonical (s.clusterResetDone c).memories := by
  unfold State.clusterResetDone
  split <;> simp [h]

@[simp] theorem State.canonical_spareCheckDone {s : State} (c : Nat) (pass : Bool) (h : Canonical s.memories) :
    Canonical (s.spareCheckDone c pass).memories := by
  unfold State.spareCheckDone
  (repeat' split) <;> simp [h]

@[simp] theorem State.canonical_clusterDrained {s : State} (c : Nat) (h : Canonical s.memories) : Canonical (s.clusterDrained c).memories := by
  unfold State.clusterDrained
  dsimp only
  split <;> simp [h]

@[simp] theorem State.canonical_adopt {s : State} (p n : Nat) (h : Canonical s.memories) : (s.adopt p n).canonical := by
  have hadopted : ∀ (t : State) (old : Nat), Canonical t.memories → (Ran.ok ((((State.emptyChannels { t with
      seq := { t.seq with position := Store.set p t.seq.position p n } } n).setSvc old 5).setSvc n 1).extraitSettings n)).canonical :=
    fun t old ht => by simpa using ht
  unfold State.adopt
  split
  · exact h
  · refine State.canonical_after _ ?_
    split
    · exact h
    · split
      · exact h
      · exact hadopted _ _ (by rw [State.memories_copyWords]; exact h)

@[simp] theorem State.canonical_decant {s : State} (c mode : Nat) (h : Canonical s.memories) : (s.decant c mode).canonical := by
  unfold State.decant
  (repeat' split) <;> simp [h]

@[simp] theorem State.canonical_decantReturn {s : State} (c : Nat) (h : Canonical s.memories) : (s.decantReturn c).canonical := by
  unfold State.decantReturn
  (repeat' split) <;> simp [h]

@[simp] theorem State.canonical_decantAbort {s : State} (c : Nat) (h : Canonical s.memories) : (s.decantAbort c).canonical := by
  unfold State.decantAbort
  (repeat' split) <;> simp [h]

theorem Ran.canonical_ite {c : Prop} [Decidable c] {r q : Ran} (hr : r.canonical) (hq : q.canonical) : (if c then r else q).canonical := by
  split <;> assumption

@[simp] theorem State.canonical_laneRecal {s : State} (l : Nat) (kind : BitVec 2) (h : Canonical s.memories) :
    (s.laneRecal l kind).canonical := by
  unfold State.laneRecal
  refine Ran.canonical_ite h (State.canonical_after _ ?_)
  split
  · exact h
  · (repeat' split) <;> simpa using h

@[simp] theorem State.canonical_bankReplace {s : State} (b : Nat) (h : Canonical s.memories) : (s.bankReplace b).canonical := by
  unfold State.bankReplace
  refine Ran.canonical_ite h (State.canonical_after _ ?_)
  (repeat' split) <;> exact h

@[simp] theorem State.canonical_queueFlush {s : State} (q : Nat) (h : Canonical s.memories) : (s.queueFlush q).canonical := by
  unfold State.queueFlush
  refine Ran.canonical_ite h (State.canonical_after _ ?_)
  split
  · exact h
  · exact State.canonical_flushQueue _ _ h

/-! ### The Fault Collector -/

@[simp] theorem State.canonical_sillageCopy {s : State} (h : Canonical s.memories) : Canonical s.sillageCopy.memories := by
  unfold State.sillageCopy
  dsimp only
  split <;> simp [h]

@[simp] theorem State.canonical_react {s : State} (m : FaultMsg) (level : Nat) (h : Canonical s.memories) : Canonical (s.react m level).memories := by
  unfold State.react
  dsimp only
  (repeat' split) <;> simp [h]

@[simp] theorem State.canonical_acceptMsg {s : State} (m : FaultMsg) (h : Canonical s.memories) : Canonical (s.acceptMsg m).memories := by
  unfold State.acceptMsg
  dsimp only
  (repeat' split) <;> simp [h]

@[simp] theorem State.canonical_faultAccept {s : State} (h : Canonical s.memories) : Canonical s.faultAccept.memories := by
  unfold State.faultAccept
  (repeat' split) <;> simp [h]

@[simp] theorem State.canonical_flitResend {s : State} (a b : Nat) (h : Canonical s.memories) : Canonical (s.flitResend a b).memories := by
  unfold State.flitResend
  dsimp only
  (repeat' split) <;> simp [h]

@[simp] theorem State.canonical_faultAck {s : State} (source cls : Nat) (seq : BitVec 32) (h : Canonical s.memories) :
    (s.faultAck source cls seq).canonical := by simp [State.faultAck, h]

@[simp] theorem State.canonical_slotResolve {s : State} (r gen : Nat) (replay : Bool) (h : Canonical s.memories) :
    (s.slotResolve r gen replay).canonical := by
  unfold State.slotResolve
  dsimp only
  (repeat' split) <;> simp [h]

/-! ### The BAR0 registers -/

@[simp] theorem State.canonical_bar0Word {s : State} (o : Nat) (v : BitVec 32) (h : Canonical s.memories) :
    Canonical (s.bar0Word o v).memories := by
  unfold State.bar0Word
  iterate 13 refine State.canonical_ite (by simp [h]) ?_
  exact h

@[simp] theorem State.canonical_bar0Reg {s : State} (o : Nat) (v : BitVec 32) (h : Canonical s.memories) : Canonical (s.bar0Reg o v).memories := by
  unfold State.bar0Reg
  split <;> simp [h]

@[simp] theorem State.canonical_bar0Pair {s : State} (o : Nat) (v : BitVec 64) (h : Canonical s.memories) :
    Canonical (s.bar0Pair o v).memories := by simp [State.bar0Pair, h]

/-! ### Objects -/

@[simp] theorem State.canonical_readAll (cls master : Nat) (many : Bool) (n : Nat) : ∀ (idx done : Nat) (acc : List Byte) {s : State},
    Canonical s.memories → (State.readAll cls master many n idx done acc s).canonical := by
  induction n with
  | zero => exact fun _ _ _ _ h => h
  | succ n ih =>
    intro idx done acc s h
    unfold State.readAll
    split
    · exact h
    · exact ih _ _ _ (by simpa using h)

@[simp] theorem State.canonical_objRead {s : State} (c : Cmd) (h : Canonical s.memories) : (s.objRead c).canonical := by
  unfold State.objRead
  dsimp only
  (repeat' split) <;> simp [h]

@[simp] theorem ObjRes.canonical_guard (bad : Bool) (status : Nat) {r : ObjRes} (h : r.canonical) : (ObjRes.guard bad status r).canonical := by
  unfold ObjRes.guard
  split
  · trivial
  · exact h

@[simp] theorem State.canonical_modeChange {s : State} (p m : Nat) (w : ObjWord) (h : Canonical s.memories) :
    Canonical (s.modeChange p m w).memories := by
  unfold State.modeChange
  extract_lets old mode t u
  have hu : Canonical u.memories := by
    refine State.canonical_foldl (fun v l hv => ?_) _ (by simpa [t] using h)
    simpa using State.canonical_complete _ _ _ hv
  exact State.canonical_ite (by simpa using hu) hu

@[simp] theorem State.canonical_writePort {s : State} (p : Nat) (w : ObjWord) (h : Canonical s.memories) : (s.writePort p w).canonical := by
  refine ObjRes.canonical_guard _ _ (ObjRes.canonical_guard _ _ (State.canonical_ite ?_ ?_))
  · simpa using h
  · exact State.canonical_modeChange _ _ _ h

@[simp] theorem State.canonical_writeChannel {s : State} (idx : Nat) (w : ObjWord) (h : Canonical s.memories) :
    (s.writeChannel idx w).canonical := by
  refine ObjRes.canonical_guard _ _ (ObjRes.canonical_guard _ _ ?_)
  simpa using h

@[simp] theorem State.canonical_writeAssociation {s : State} (idx : Nat) (w : ObjWord) (h : Canonical s.memories) :
    (s.writeAssociation idx w).canonical := by
  refine ObjRes.canonical_guard _ _ ?_
  simpa using h

@[simp] theorem State.canonical_writePins {s : State} (w : ObjWord) (h : Canonical s.memories) : (s.writePins w).canonical := by
  refine ObjRes.canonical_guard _ _ ?_
  simpa using h

@[simp] theorem State.canonical_writeTask {s : State} (n : Nat) (w : ObjWord) (h : Canonical s.memories) : (s.writeTask n w).canonical := by
  refine ObjRes.canonical_guard _ _ (ObjRes.canonical_guard _ _ ?_)
  simpa using h

@[simp] theorem State.canonical_writePool {s : State} (p : Nat) (w : ObjWord) (h : Canonical s.memories) : (s.writePool p w).canonical := by
  refine ObjRes.canonical_guard _ _ ?_
  split
  · refine ObjRes.canonical_guard _ _ ?_
    simpa using h
  · refine ObjRes.canonical_guard _ _ (ObjRes.canonical_guard _ _ ?_)
    dsimp only
    split <;> simpa using State.canonical_setPool _ _ h

@[simp] theorem State.canonical_writeCellWord {s : State} (idx : Nat) (w : ObjWord) (h : Canonical s.memories) :
    (s.writeCellWord idx w).canonical := by
  refine ObjRes.canonical_guard _ _ ?_
  simpa using h

@[simp] theorem State.canonical_writeRing {s : State} (cls r : Nat) (w : ObjWord) (h : Canonical s.memories) : (s.writeRing cls r w).canonical := by
  refine ObjRes.canonical_guard _ _ (ObjRes.canonical_guard _ _ ?_)
  simpa using h

@[simp] theorem State.canonical_writeDramChannel {s : State} (c : Nat) (w : ObjWord) (h : Canonical s.memories) :
    (s.writeDramChannel c w).canonical := by
  refine ObjRes.canonical_guard _ _ ?_
  simpa using h

@[simp] theorem State.canonical_writeReaction {s : State} (idx : Nat) (w : ObjWord) (h : Canonical s.memories) :
    (s.writeReaction idx w).canonical := by
  refine ObjRes.canonical_guard _ _ ?_
  simpa using h

@[simp] theorem State.canonical_writeParam {s : State} (p v : Nat) (h : Canonical s.memories) : (s.writeParam p v).canonical := by
  unfold State.writeParam
  split
  · exact h
  · refine ObjRes.canonical_guard _ _ (ObjRes.canonical_guard _ _ ?_)
    simpa using h

@[simp] theorem State.canonical_writeIsland {s : State} (i : Nat) (w : ObjWord) (h : Canonical s.memories) : (s.writeIsland i w).canonical := by
  refine ObjRes.canonical_guard _ _ ?_
  split
  · simpa using h
  · refine ObjRes.canonical_guard _ _ (ObjRes.canonical_guard _ _ (ObjRes.canonical_guard _ _ (ObjRes.canonical_guard _ _ ?_)))
    simpa using h

@[simp] theorem State.canonical_writeObj {s : State} (cls idx : Nat) (w : ObjWord) (h : Canonical s.memories) :
    (s.writeObj cls idx w).canonical := by
  unfold State.writeObj
  split <;> simp [h]

theorem State.canonical_writeAll (cls : Nat) {put : State → Nat → ObjWord → ObjRes} (many : Bool)
    (hput : ∀ (t : State) (i : Nat) (w : ObjWord), Canonical t.memories → (put t i w).canonical) (l : List ObjWord) :
    ∀ (idx done : Nat) {s : State}, Canonical s.memories → (State.writeAll cls put many l idx done s).canonical := by
  induction l with
  | nil => exact fun _ _ _ h => h
  | cons w rest ih =>
    intro idx done s h
    unfold State.writeAll
    have hw := hput s idx w h
    split
    · exact h
    · split
      next t heq => exact ih _ _ (heq ▸ hw :)
      next => exact h
      next k t heq => exact (heq ▸ hw :)

@[simp] theorem State.canonical_objWrite {s : State} (c : Cmd) (h : Canonical s.memories) : (s.objWrite c).canonical := by
  unfold State.objWrite
  extract_lets cls idx n
  split
  · exact h
  · split
    · exact h
    · split
      · trivial
      · exact State.canonical_writeAll _ _ (fun _ _ _ ht => State.canonical_writeObj _ _ _ ht) _ _ _ h

@[simp] theorem State.canonical_resumeWrite {s : State} (h : Canonical s.memories) : Canonical s.resumeWrite.memories := by
  unfold State.resumeWrite
  split
  next => exact h
  next d _ =>
    have hr := State.canonical_writeAll d.cls (put := fun s i w => s.writeObj d.cls i w) (1 < d.done + d.rest.length)
      (fun _ _ _ ht => State.canonical_writeObj _ _ _ ht) d.rest d.next d.done h
    split
    next heq => exact State.canonical_undefer _ _ (heq ▸ hr :)
    next heq => exact (heq ▸ hr :)
    next => exact h

@[simp] theorem State.canonical_poolEnabled {s : State} (p : Nat) (h : Canonical s.memories) : Canonical (s.poolEnabled p).memories := by
  unfold State.poolEnabled
  (repeat' split) <;> simp [h]

@[simp] theorem State.canonical_relockDone {s : State} (i : Nat) (h : Canonical s.memories) : Canonical (s.relockDone i).memories := by
  unfold State.relockDone
  dsimp only
  (repeat' split) <;> simp [h]

@[simp] theorem State.canonical_stageObj {s : State} (cls idx v : Nat) (h : Canonical s.memories) : (s.stageObj cls idx v).canonical := by
  unfold State.stageObj
  split
  · refine ObjRes.canonical_guard _ _ (ObjRes.canonical_guard _ _ ?_)
    simpa using h
  · refine ObjRes.canonical_guard _ _ ?_
    simpa using h

@[simp] theorem State.canonical_stageAll (cls : Nat) (many : Bool) (l : List Nat) : ∀ (idx done : Nat) {s : State}, Canonical s.memories →
    (State.stageAll cls many l idx done s).canonical := by
  induction l with
  | nil => exact fun _ _ _ h => h
  | cons v rest ih =>
    intro idx done s h
    unfold State.stageAll
    have hv := State.canonical_stageObj cls idx v h
    split
    · exact h
    · split
      next t heq => exact ih _ _ (heq ▸ hv :)
      next => exact h
      next k t heq => exact (heq ▸ hv :)

@[simp] theorem State.canonical_objStage {s : State} (c : Cmd) (h : Canonical s.memories) : (s.objStage c).canonical := by
  unfold State.objStage
  dsimp only
  (repeat' split) <;> simp [h]

/-! ### Session and handle commands -/

@[simp] theorem State.canonical_onIsland {s : State} (i : Nat) {r : Ran} (h : Canonical s.memories) (hr : r.canonical) :
    (s.onIsland i r).canonical := by
  unfold State.onIsland
  split
  · exact h
  · split
    · trivial
    · exact hr

@[simp] theorem State.canonical_sysIdentity {s : State} (h : Canonical s.memories) : s.sysIdentity.canonical := by simp [State.sysIdentity, h]

@[simp] theorem State.canonical_sysSession {s : State} (c : Cmd) (h : Canonical s.memories) :
    (s.sysSession c).canonical := by simp [State.sysSession, h]

@[simp] theorem State.canonical_sysTimeRead {s : State} (c : Cmd) (h : Canonical s.memories) : (s.sysTimeRead c).canonical := by
  unfold State.sysTimeRead
  split <;> simp [h]

@[simp] theorem State.canonical_sysTimeSet {s : State} (c : Cmd) (h : Canonical s.memories) :
    (s.sysTimeSet c).canonical := by simp [State.sysTimeSet, h]

@[simp] theorem State.canonical_sysTimeStep {s : State} (c : Cmd) (h : Canonical s.memories) :
    (s.sysTimeStep c).canonical := by simp [State.sysTimeStep, h]

@[simp] theorem State.canonical_sysTimeTrim {s : State} (c : Cmd) (h : Canonical s.memories) : (s.sysTimeTrim c).canonical := by
  unfold State.sysTimeTrim
  dsimp only
  split <;> simp [h]

@[simp] theorem State.canonical_sysReset {s : State} (c : Cmd) (h : Canonical s.memories) : (s.sysReset c).canonical := by
  unfold State.sysReset
  split <;> simp [h]

@[simp] theorem State.canonical_taskCreate {s : State} (w : ObjWord) (h : Canonical s.memories) : (s.taskCreate w).canonical := by
  unfold State.taskCreate
  (repeat' split) <;> simp [h]

theorem State.canonical_onTask {s : State} (w stale : Nat) {f : State → Nat → Option (Nat × State)} (h : Canonical s.memories)
    (hf : ∀ n r, f s n = some r → Canonical r.2.memories) : (s.onTask w stale f).canonical := by
  refine Ran.canonical_ite h (State.canonical_after _ (State.canonical_onIsland _ h ?_))
  split
  · exact h
  · split
    next heq => exact hf _ _ heq
    next => trivial

@[simp] theorem State.canonical_bufAllocate {s : State} (n master : Nat) (h : Canonical s.memories) : (s.bufAllocate n master).canonical := by
  have ha := State.canonical_allocBuffer n master h
  unfold State.bufAllocate
  split
  next heq => exact (heq ▸ ha :)
  next heq => exact (heq ▸ ha :)
  next heq => exact (heq ▸ ha :)
  next => exact h
  next => trivial

@[simp] theorem State.canonical_bufFree {s : State} (w master : Nat) (h : Canonical s.memories) : (s.bufFree w master).canonical := by
  unfold State.bufFree
  dsimp only
  (repeat' split) <;> simp [h]

@[simp] theorem State.canonical_pktFree {s : State} (w : W32) (master : Nat) (h : Canonical s.memories) : (s.pktFree w master).canonical := by
  refine Ran.canonical_ite h (State.canonical_after _ (State.canonical_onIsland _ h ?_))
  (repeat' split) <;> simp [h]

theorem State.canonical_onLock {s : State} (w master : Nat) {f : State → Ran} (h : Canonical s.memories)
    (hf : ∀ t : State, Canonical t.memories → (f t).canonical) : (s.onLock w master f).canonical := by
  refine State.canonical_after _ (Ran.canonical_ite h (Ran.canonical_ite trivial (hf _ ?_)))
  simpa using h

@[simp] theorem State.canonical_lockTryHost {s : State} (w ms master : Nat) (h : Canonical s.memories) : (s.lockTryHost w ms master).canonical := by
  refine Ran.canonical_ite h (State.canonical_onLock _ _ h (fun t ht => ?_))
  dsimp only
  split <;> simp [ht]

@[simp] theorem State.canonical_lockReleaseHost {s : State} (w master : Nat) (h : Canonical s.memories) : (s.lockReleaseHost w master).canonical := by
  refine State.canonical_onLock _ _ h (fun t ht => ?_)
  dsimp only
  split
  · have hr := State.canonical_lockRelease w master ht
    rw [Ran.canonical_done, State.memories_mk]
    exact hr
  · split
    · exact ht
    · simpa using ht

@[simp] theorem State.canonical_lockClear {s : State} (w master : Nat) (h : Canonical s.memories) : (s.lockClear w master).canonical :=
  State.canonical_onLock _ _ h (fun _ ht => Ran.canonical_ite (State.canonical_passLock _ (by simpa using ht)) ht)

@[simp] theorem State.canonical_onSa {s : State} (i : Nat) {r : Ran} (h : Canonical s.memories) (hr : r.canonical) : (s.onSa i r).canonical :=
  Ran.canonical_ite h (State.canonical_after _ (State.canonical_onIsland _ h hr))

@[simp] theorem State.canonical_saSet {s : State} (i pn : Nat) (ssci : W32) (h : Canonical s.memories) : (s.saSet i pn ssci).canonical := by
  unfold State.saSet
  (repeat' split) <;> simp [h]

theorem State.canonical_onRecord {s : State} (c : Cmd) (staged : Bool) (tag : Nat) {f : Nat → List Byte → Ran} (h : Canonical s.memories)
    (hf : ∀ i l, (f i l).canonical) : (s.onRecord c staged tag f).canonical :=
  Ran.canonical_ite h (State.canonical_after _ (Ran.canonical_ite trivial (hf _ _)))

@[simp] theorem State.canonical_tblInsert {s : State} (c : Cmd) (h : Canonical s.memories) : (s.tblInsert c).canonical := by
  refine Ran.canonical_ite h (State.canonical_onRecord _ _ _ h (fun i l => ?_))
  have hr := State.canonical_recordInsert i (c.n 1 1 == 1) l h
  split
  next heq => exact (heq ▸ hr :)
  next heq => exact (heq ▸ hr :)

@[simp] theorem State.canonical_tblDelete {s : State} (c : Cmd) (h : Canonical s.memories) : (s.tblDelete c).canonical :=
  Ran.canonical_ite h (State.canonical_onRecord _ _ _ h (fun _ _ => State.canonical_recordDelete _ _ _ h))

@[simp] theorem State.canonical_tblLookup {s : State} (c : Cmd) (h : Canonical s.memories) : (s.tblLookup c).canonical := by
  refine Ran.canonical_ite h (State.canonical_onRecord _ _ _ h (fun i l => Ran.canonical_ite ?_ h))
  simpa using h

@[simp] theorem State.canonical_tblMacerate {s : State} (num : Nat) (h : Canonical s.memories) : (s.tblMacerate num).canonical := by
  unfold State.tblMacerate
  dsimp only
  (repeat' split) <;> simp [h]

@[simp] theorem State.canonical_tblResize {s : State} (num : Nat) (h : Canonical s.memories) : (s.tblResize num).canonical := by
  unfold State.tblResize
  extract_lets hashed named ds t xs old reloc copies
  have ht : Canonical t.memories := State.canonical_foldl (fun _ _ hv => State.canonical_begin' _ hv) _ h
  refine State.canonical_after _ ?_
  iterate 5 refine Ran.canonical_ite (by first | exact h | trivial) ?_
  rw [Ran.canonical_start, State.memories_mk]
  exact ht

/-! ### Firmware, keys and the restart of the Steward -/

@[simp] theorem State.canonical_imageActivate {s : State} (k : Nat) (h : Canonical s.memories) : (s.imageActivate k).canonical := by
  unfold State.imageActivate
  (repeat' split) <;> simp [h]

@[simp] theorem State.canonical_imageLoaded {s : State} (corrupt : Bool) (h : Canonical s.memories) : Canonical (s.imageLoaded corrupt).memories := by
  unfold State.imageLoaded
  split
  · exact State.canonical_ite (State.canonical_complete _ _ _ (by simpa using h)) (State.canonical_resetSteward h)
  · exact h

@[simp] theorem State.canonical_serveAgain {s : State} (h : Canonical s.memories) : Canonical s.serveAgain.memories := by
  unfold State.serveAgain
  extract_lets ev late ycp sec t u
  have ht : Canonical t.memories := h
  have hu : Canonical u.memories := State.canonical_ite ht (by simpa using ht)
  exact State.canonical_flushAll (State.canonical_foldl (fun _ _ hv => State.canonical_sendReply _ _ hv) _ hu)

@[simp] theorem State.canonical_cancelImages {s : State} (h : Canonical s.memories) : Canonical s.cancelImages.memories := by
  unfold State.cancelImages
  refine State.canonical_foldl (fun _ _ ht => ?_) _ h
  simp [ht]

@[simp] theorem State.canonical_stepUp {s : State} (ledgerLost ledgerOlder : Bool) (h : Canonical s.memories) :
    Canonical (s.stepUp ledgerLost ledgerOlder).memories := by simp [State.stepUp, h]

@[simp] theorem State.canonical_stewardResume {s : State} (h : Canonical s.memories) : Canonical s.stewardResume.memories := by
  unfold State.stewardResume
  (repeat' split) <;> simp [h]

@[simp] theorem State.canonical_bootFallback {s : State} (h : Canonical s.memories) : Canonical s.bootFallback.memories := by
  unfold State.bootFallback
  split
  · extract_lets sec t u
    have ht : Canonical t.memories := h
    have hu : Canonical u.memories := State.canonical_ite (State.canonical_serveAgain ht) ht
    rw [State.memories_returned]
    exact State.canonical_complete _ _ _ (by simpa using hu)
  · exact h

@[simp] theorem State.canonical_attest {s : State} (c : Cmd) (h : Canonical s.memories) : (s.attest c).canonical := by
  unfold State.attest
  dsimp only
  (repeat' split) <;> simp [h]

@[simp] theorem State.canonical_ownerReject {s : State} (c : Cmd) (h : Canonical s.memories) :
    (s.ownerReject c).canonical := by simp [State.ownerReject, h]

@[simp] theorem State.canonical_underOwner {s : State} (c : Cmd) (slot n : Nat) {r : Ran} (h : Canonical s.memories) (hr : r.canonical) :
    (s.underOwner c slot n r).canonical := by
  unfold State.underOwner
  split
  · exact Ran.canonical_ite hr (State.canonical_ownerReject _ h)
  · exact State.canonical_ownerReject _ h

@[simp] theorem State.canonical_ownerKeySet {s : State} (c : Cmd) (h : Canonical s.memories) : (s.ownerKeySet c).canonical := by
  unfold State.ownerKeySet
  extract_lets owner signer key t sec u
  have ht : Canonical t.memories := by simpa [t] using h
  have hu : Canonical u.memories := by simpa [u] using h
  have howned : (Ran.ok { t with sec := { sec with
      lifecycle := .owned, claim := (match sec.running with | some k => (t.slotSha k).take 32 | none => []) } }).canonical := by
    rw [Ran.canonical_ok, State.memories_mk]
    exact ht
  clear_value t sec u
  generalize ownerSigned c key 36 = signed
  split
  · exact h
  · split
    · exact h
    · split
      · split
        · exact h
        · split
          · exact h
          · split
            · exact State.canonical_ownerReject _ h
            · split
              · exact h
              · exact howned
      · exact State.canonical_underOwner _ _ _ h (Ran.canonical_ite h hu)

@[simp] theorem State.canonical_recordChange {s : State} (t : State) (h : Canonical s.memories) (ht : Canonical t.memories) :
    (s.recordChange t).canonical :=
  Ran.canonical_ite h (by simpa using ht)

@[simp] theorem State.canonical_issuerSet {s : State} (c : Cmd) (h : Canonical s.memories) : (s.issuerSet c).canonical := by
  unfold State.issuerSet
  dsimp only
  (repeat' split) <;> simp [h]

@[simp] theorem State.canonical_secConfig {s : State} (c : Cmd) (h : Canonical s.memories) : (s.secConfig c).canonical :=
  Ran.canonical_ite h (State.canonical_underOwner _ _ _ h (State.canonical_recordChange _ h h))

/-! ### Observation and debug -/

@[simp] theorem State.canonical_onObserver {s : State} {r : Ran} (h : Canonical s.memories) (hr : r.canonical) : (s.onObserver r).canonical :=
  State.canonical_onIsland _ h hr

@[simp] theorem State.canonical_obsRead {s : State} (b first n : Nat) (h : Canonical s.memories) : (s.obsRead b first n).canonical := by
  unfold State.obsRead
  split <;> simp [h]

@[simp] theorem State.canonical_obsSelect {s : State} (b n ev : Nat) (h : Canonical s.memories) : (s.obsSelect b n ev).canonical := by
  unfold State.obsSelect
  dsimp only
  split <;> simp [h]

@[simp] theorem State.canonical_obsWindowRead {s : State} (b : Nat) (h : Canonical s.memories) : (s.obsWindowRead b).canonical := by
  unfold State.obsWindowRead
  dsimp only
  split <;> simp [h]

@[simp] theorem State.canonical_obsThreshold {s : State} (occ th : Nat) (h : Canonical s.memories) : (s.obsThreshold occ th).canonical := by
  unfold State.obsThreshold
  dsimp only
  (repeat' split) <;> simp [h]

@[simp] theorem State.canonical_traceBegin {s : State} (filter base size : Nat) (h : Canonical s.memories) :
    (s.traceBegin filter base size).canonical := by
  unfold State.traceBegin
  (repeat' split) <;> simp [h]

@[simp] theorem State.canonical_onThread {s : State} (t : Nat) {r : Ran} (h : Canonical s.memories) (hr : r.canonical) : (s.onThread t r).canonical :=
  Ran.canonical_ite h (State.canonical_onIsland _ h hr)

@[simp] theorem State.canonical_dbgHalt {s : State} (t master : Nat) (h : Canonical s.memories) : (s.dbgHalt t master).canonical := by
  unfold State.dbgHalt
  dsimp only
  (repeat' split) <;> simp [h]

@[simp] theorem State.canonical_dbgResume {s : State} (t master : Nat) (h : Canonical s.memories) : (s.dbgResume t master).canonical := by
  unfold State.dbgResume
  dsimp only
  (repeat' split) <;> simp [h]

@[simp] theorem State.canonical_dbgStep {s : State} (t : Nat) (h : Canonical s.memories) : (s.dbgStep t).canonical := by
  refine State.canonical_onThread _ h (Ran.canonical_ite h ?_)
  split
  next u heq =>
    rw [Ran.canonical_done, State.memories_haltAgain, State.memories_stepBundle _ _ _ heq]
    exact h
  next => trivial

@[simp] theorem State.canonical_dbgState {s : State} (t : Nat) (h : Canonical s.memories) : (s.dbgState t).canonical := by simp [State.dbgState, h]

@[simp] theorem State.canonical_dbgChAbort {s : State} (t : Nat) (h : Canonical s.memories) : (s.dbgChAbort t).canonical := by
  unfold State.dbgChAbort
  dsimp only
  (repeat' split) <;> simp [h]

@[simp] theorem State.canonical_dbgAbort {s : State} (t : Nat) (h : Canonical s.memories) : (s.dbgAbort t).canonical := by
  unfold State.dbgAbort
  split <;> simp [h]

@[simp] theorem State.canonical_dbgBreak {s : State} (p : List Byte) (h : Canonical s.memories) : (s.dbgBreak p).canonical := by
  unfold State.dbgBreak
  dsimp only
  split <;> simp [h]

@[simp] theorem State.canonical_dbgOp {s : State} (op master : Nat) (p : List Byte) (h : Canonical s.memories) : (s.dbgOp op master p).canonical := by
  unfold State.dbgOp
  split <;> simp [h]

@[simp] theorem State.canonical_debugRun {s : State} (op : Nat) (p : List Byte) (h : Canonical s.memories) : (s.debugRun op p).canonical := by
  unfold State.debugRun
  dsimp only
  (repeat' split) <;> simp [h]

@[simp] theorem State.canonical_debugTry {s : State} (op : Nat) (p : List Byte) (h : Canonical s.memories) : Canonical (s.debugTry op p).memories := by
  have hr := State.canonical_debugRun op p h
  unfold State.debugTry
  split
  next t heq =>
    rw [State.memories_modObs]
    exact (heq ▸ hr :)
  next => simpa using h

@[simp] theorem State.canonical_debug {s : State} (op : Nat) (p : List Byte) (h : Canonical s.memories) : Canonical (s.debug op p).memories := by
  unfold State.debug
  (repeat' split) <;> simp [h]

@[simp] theorem State.canonical_debugWaits {s : State} (h : Canonical s.memories) : Canonical s.debugWaits.memories := by
  unfold State.debugWaits
  (repeat' split) <;> simp [h]

/-! ### Sensors, clocks, Extrait and wear -/

@[simp] theorem State.canonical_extraitEnter {s : State} (window ceiling reserve : Nat) (h : Canonical s.memories) :
    (s.extraitEnter window ceiling reserve).canonical := by
  unfold State.extraitEnter
  (repeat' split) <;> simp [h]

@[simp] theorem State.canonical_extraitExit {s : State} (h : Canonical s.memories) : s.extraitExit.canonical := by
  unfold State.extraitExit
  split <;> simp [h]

@[simp] theorem State.canonical_extraitLeft {s : State} (h : Canonical s.memories) : Canonical s.extraitLeft.memories := by
  unfold State.extraitLeft
  (repeat' split) <;> simp [h]

/-! ### Supplies, resets and start-up -/

@[simp] theorem State.canonical_atReset (s : State) : Canonical s.atReset.memories := ⟨rfl, rfl, rfl⟩

@[simp] theorem State.canonical_heldReset (s : State) (cause : W32) : Canonical (s.heldReset cause).memories := by
  unfold State.heldReset
  simp

@[simp] theorem State.canonical_powerLost (s : State) : Canonical s.powerLost.memories := by simp [State.powerLost]

@[simp] theorem State.canonical_pwrFall {s : State} (h : Canonical s.memories) : Canonical s.pwrFall.memories := by
  unfold State.pwrFall
  split <;> simp [h]

@[simp] theorem State.canonical_resetFall {s : State} (h : Canonical s.memories) : Canonical s.resetFall.memories := by
  unfold State.resetFall
  (repeat' split) <;> simp [h]

@[simp] theorem State.canonical_supplyFall {s : State} (r : Rail) (h : Canonical s.memories) : Canonical (s.supplyFall r).memories := by
  unfold State.supplyFall
  extract_lets pins t u
  have ht : Canonical t.memories := h
  have hu : Canonical u.memories := State.canonical_ite (State.canonical_powerLost _) ht
  exact State.canonical_ite (State.canonical_ite hu hu) h

@[simp] theorem State.canonical_resetChip (s : State) (cause : BitVec 32) (err : Bool) :
    Canonical (s.resetChip cause err).memories := by simp [State.resetChip]

@[simp] theorem State.canonical_chipResetNow {s : State} (h : Canonical s.memories) : Canonical s.chipResetNow.memories := by
  unfold State.chipResetNow
  split <;> simp [h]

@[simp] theorem State.canonical_stepWork {s : State} (step : Nat) (r : StepResult) (h : Canonical s.memories) :
    Canonical (s.stepWork step r).memories := by
  unfold State.stepWork
  split <;> simp [h]

@[simp] theorem State.canonical_stepDone {s : State} (step : Nat) (r : StepResult) (h : Canonical s.memories) :
    Canonical (s.stepDone step r).memories := by
  unfold State.stepDone
  split <;> simp [h]

@[simp] theorem State.canonical_ownTreatment {s : State} (source k a : Nat) (h : Canonical s.memories) :
    Canonical (s.ownTreatment source k a).memories := by
  unfold State.ownTreatment
  dsimp only
  iterate 18 refine State.canonical_ite (by simp [h]) ?_
  exact h

@[simp] theorem State.canonical_inject {s : State} (source k a : Nat) (h : Canonical s.memories) : (s.inject source k a).canonical := by
  unfold State.inject
  dsimp only
  (repeat' split) <;> simp [h]

/-! ### One nanosecond -/

@[simp] theorem State.canonical_afterNs {s : State} (n : Nat) (h : Canonical s.memories) : Canonical (s.afterNs n).memories := by
  unfold State.afterNs
  split <;> simp [h]

@[simp] theorem State.canonical_passNs {s : State} (h : Canonical s.memories) : Canonical s.passNs.memories := by
  unfold State.passNs
  extract_lets t
  have ht : Canonical t.memories := h
  refine State.canonical_ite ?_ h
  rw [State.memories_watch]
  refine State.canonical_debugWaits ?_
  rw [State.memories_slotsPass]
  exact State.canonical_foldl (fun _ _ hv => by simpa using hv) _ (State.canonical_afterNs _ ht)

end Sys2Proof.Machine
end

/-! Every step keeps the canonical form: the commands and events one by one, and a nanosecond of device time. -/

section
namespace Sys2Proof.Machine

/-- A step that ends in a state ends with canonical memories. -/
def EndsCanonical (o : Host.Outcome State Fault Refusal) : Prop := ∀ t, o = .next t → Canonical t.memories

section
variable {s : State}

theorem endsCanonical_answer {u : State} (h : Canonical u.memories) : EndsCanonical (answer u) := by
  rintro _ ⟨⟩
  rwa [State.memories_watch]

theorem endsCanonical_guarded {c : Prop} [Decidable c] {u : State} (h : Canonical s.memories) (hu : Canonical u.memories) :
    EndsCanonical (answer (if c then u else s)) := endsCanonical_answer (State.canonical_ite hu h)

theorem endsCanonical_command {x : Packet} {op : Nat} {sel : Option (Nat × Byte)} {form : List Byte → Bool} {run : Cmd → State → Ran}
    (h : Canonical s.memories) (hrun : ∀ c (t : State), Canonical t.memories → (run c t).canonical) :
    EndsCanonical (answer (s.packet x op sel form run)) := endsCanonical_answer (State.canonical_packet _ _ _ _ h hrun)

theorem endsCanonical_syllable (y : Syl) (cls op : Nat) (h : Canonical s.memories) : EndsCanonical (answer (s.syllable y cls op)) :=
  endsCanonical_answer (by rwa [State.memories_syllable])
end

/-- TASK_ABORT answers with the state it was given where the Sequencer is in reset. -/
theorem canonical_abortOrFault {s : State} (h : Canonical s.memories) (n : Nat) (r : Nat × State)
    (hr : (if s.inReset 26 then some (stHwFault, s) else s.taskAbort n) = some r) : Canonical r.2.memories := by
  split at hr
  · obtain rfl := Option.some.inj hr
    exact h
  · exact State.canonical_taskAbort n h r hr

/-- Whatever an instruction or event does, it ends with canonical memories. -/
theorem endsCanonical_exec {s : State} (i : Instr) (h : Canonical s.memories) : EndsCanonical (exec i s) := by
  cases i with
  | mov | add | adc | sub | sbc | rsb | neg | cmp | and | or | xor | andn | tst | shl | shr | sar | rol | ror | mul | mulh | mulhu
  | min | max | minu | maxu | sext | zext | bswap | popc | clz | ctz | xmova | xmovb | xadda | xaddb | customA | customM | ld | lds
  | st | fld | flds | fst | cnt | ldp | lkp | lkpw | ins | del | crc32 | crc32c | tplz | siph | sum | inc16 | inc32 | ext | bfxIns
  | extw | divs | divu | rems | remu | now | nowf | tadd | tdiff | tpast | tsec | tnsec | rdc | wrc | head | trim | pfree | balloc
  | bfree | brd | bwr | kexp | gctr | ghm | shb | br | bri | call | ret | bhb | rtt | nop | wfe | sev | chs | chc | chr | ord | rel
  | commit | lka | lkt | lkr | cas32 | cas64 | fadd | swap | fand | forr | binc =>
    exact endsCanonical_syllable _ _ _ h
  | pwrGoodRise | pwrGoodFall | resetNRise | resetNFall | pciePerstNAssert | taskAccept | relocation | taskRestamp
  | markerAtTaskScheduler | taskRunEnd | qmHandover | markerAtQm | decantCopyOutDone | decantDone | accordPrepareDone | commitPoint
  | markerReturn | chipReset | serialReservationWrite | cmdTail | rplTail | cmdRingCtrl | rplRingCtrl | faultCause | eventCause
  | ringCauseD2h | ringCauseH2d | windowIdleExpire | i2cReplyRead | extraitExitDone | bwWindowEnd | debugOp | extest | clamp
  | samplePreload | bypass | governorGrant | ppsOutPulseEnd | malformedPacket | extraitEntryDone | startupStepDone | supplyRise
  | supplyFall =>
    exact endsCanonical_answer (by simp [h])
  | pciePerstNDeassert | pcieError | ppsInEdge | thermTrip | dramCaParity | frameReceive | fifoToInputBuffer | pauseQuantaExpire
  | pauseRepeat | frameTransmit | lockLost | linkDown | linkUp | surgeHoldExpire | remoteFault | fecDegrade | ppsOutEdge | todTxMessage
  | laneRecalDone | sliceParseStart | cellRequest | cellWaitExpire | markerAtSlice | sliceCopyRelease | descriptorAccept
  | atomizerDispatch | dispatchAgePromote | threadDispatch | headerBytesArrive | crossingRefused | ordRequest | ordGrant | relToken
  | effectToken | effectAck | commitAccept | outcomeHandover | threadFreeToken | faultToken | resetNotice | poisonToken | holdExpired
  | drainBoundExpire | loadLand | storeCompletion | helperResult | branchResolve | wfeWake | threadTimerExpire | chcUnblock
  | remoteMessageArrive | creditReturn | quiescent | nmiEntry | trapEntry | lockGrantArrive | threadHalt | threadAbort | lockRequest
  | atomicAtSlice | apertureAccess | farAccess | masterReset | lockLeaseExpire | lookup | tableWrite | versionedCopy | bankScrub
  | macerationDone | resizeDone | bankReplaceDone | sweepDone | tick | taskOffer | cacheRefill | poolEnableDone | leakSweep
  | packetBufferOp | h2dRingFrame | schedChoice | bucketCredit | spillRefill | d2hDeliver | recircSend | dramCommandSlot | refreshDue
  | dramTempRead | dramTempLost | patrolScrub | initSweepDone | accordRetire | clusterBankFree | configDigestDone | accordDiscardDone
  | sramScrub | clusterDrained | clusterDrainTimeout | clusterResetDone | spareCheckDone | stewardResume | faultMessageAccept
  | blockResetRelease | outboxOverrun | flitResend | errNPulseEnd | sillageCopy | d2hTail | h2dTail | bar2Write | bar2Read
  | sysResetExpire | extraitWindowExpire | imageStageDone | imageLoadDone | bootFallback | highz | islandTempSample | sensorSelfCheck
  | clockUnlock | clockRelock | islandRelockDone | wearAccrue | ledgerWrite | lockRegained | remoteFaultCleared | channelRetrainDone =>
    exact endsCanonical_guarded h (by simp [h])
  | sysIdentity | sysSession | sysTimeRead | sysTimeSet | sysTimeStep | sysTimeTrim | sysReset | objRead | objWrite | objStage
  | accordCommit | accordDiscard | taskCreate | pktFree | lockTry | lockRelease | lockClear | saStateRead | saStateSet | portOpen
  | data | portClose | portAbort | tblInsert | tblDelete | tblLookup | tblMacerate | tblResize | slotResolveDrop | slotResolveReplay
  | obsSelect | obsWindowRead | obsThreshold | obsTraceStart | clusterDrain | clusterResume | clusterReset | clusterAdoptSpare | decant
  | decantReturn | decantAbort | laneRecalBackground | laneRecalFull | bankReplace | queueFlush | extraitEnter | extraitExit
  | imageActivate | attest | issuerSet | ownerKeySet | secConfig | dbgHalt | dbgResume | dbgStep | dbgState | dbgChAbort | dbgAbort
  | dbgBreak | faultInject =>
    exact endsCanonical_command h fun c t ht => by simp [ht]
  | driftTrack | zqShort => exact endsCanonical_guarded h (State.canonical_ite (by simpa using h) (by simpa using h))
  | bar0Write => exact endsCanonical_answer (State.canonical_ite (by simp [h]) (State.canonical_ite (by simp [h]) h))
  | taskArm | taskCancel | taskFree => exact endsCanonical_command h fun c t ht => State.canonical_onTask _ _ ht (by simp [ht])
  | taskAbort => exact endsCanonical_command h fun c t ht => State.canonical_onTask _ _ ht fun n r hr => canonical_abortOrFault ht n r hr
  | bufAlloc => exact endsCanonical_command h fun c t ht => State.canonical_after _ (State.canonical_onIsland _ ht (State.canonical_bufAllocate _ _ ht))
  | bufFree => exact endsCanonical_command h fun c t ht => State.canonical_after _ (State.canonical_onIsland _ ht (State.canonical_bufFree _ _ ht))
  | faultAck => exact endsCanonical_command h fun c t ht => Ran.canonical_ite ht (Ran.canonical_ite ht (State.canonical_faultAck _ _ _ ht))
  | obsRead => exact endsCanonical_command h fun c t ht => Ran.canonical_ite (State.canonical_obsRead _ _ _ ht) ht
  | obsTraceStop => exact endsCanonical_command h fun c t ht => Ran.canonical_ite ht (State.canonical_onObserver ht (by simpa using ht))
  | spareCheck => exact endsCanonical_command h fun c t ht => State.canonical_onCluster _ ht (Ran.canonical_ite ht ht)
  | imageStage => exact endsCanonical_command h fun c t ht => Ran.canonical_ite ht (Ran.canonical_ite ht (Ran.canonical_ite ht ht))

/-- Settles O58: every function that touches the Table Store's rows, the packet cells or device DRAM writes them byte by byte, clears them
or filters them, and each of these keeps the form. -/
theorem everyStepKeepsMemoriesCanonical : Obligations.EveryStepKeepsMemoriesCanonical := by
  unfold Obligations.EveryStepKeepsMemoriesCanonical
  intro s t h ht
  rw [memoriesCanonical_iff] at h ⊢
  unfold step at ht
  split at ht
  next c rest _ => exact endsCanonical_exec c (s := { s with pending := rest }) h t ht
  next =>
    obtain rfl : s.passNs = t := Host.Outcome.next.inj ht
    exact State.canonical_passNs h

end Sys2Proof.Machine
end

section
/-! What the sending of a reply or a completion leaves alone of the Accords (R397 to R401). -/

namespace Sys2Proof.Machine

/-! ### Single state operations -/

@[simp] theorem State.countQueue_accord (s : State) (u q n : Nat) : (s.countQueue u q n).accord = s.accord := rfl

@[simp] theorem State.cellWrite_accord (s : State) (a : Nat) (l : List Byte) : (s.cellWrite a l).accord = s.accord := rfl

@[simp] theorem State.draw_accord (s : State) (n : Nat) : (s.draw n).2.accord = s.accord := rfl

@[simp] theorem State.noteLinked_accord (s : State) (t : LinkTie) : (s.noteLinked t).accord = s.accord := rfl

@[simp] theorem State.loseReply_accord (s : State) : s.loseReply.accord = s.accord := rfl

@[simp] theorem State.freePacket_accord (s : State) (d : Nat) : (s.freePacket d).accord = s.accord :=
  (congrArg State.accord (s.butPools_freePacket d) :)

@[simp] theorem State.dropQueued_accord (s : State) (q d c : Nat) : (s.dropQueued q d c).accord = s.accord := by
  simp [State.dropQueued, State.countDrop]

/-! ### Packets built and admitted (R290, R301 to R306) -/

theorem State.takeEntry_accord {s u : State} {p k e : Nat} (h : s.takeEntry p k = some (e, u)) : u.accord = s.accord := by
  unfold State.takeEntry at h
  dsimp only at h
  (repeat' split at h) <;> simp at h <;> (obtain ⟨-, rfl⟩ := h; rfl)

theorem State.takeShared_accord (n : Nat) : ∀ {s u : State} {l : List Nat}, s.takeShared n = some (l, u) → u.accord = s.accord := by
  induction n with
  | zero =>
    intro s u l h
    obtain ⟨-, rfl⟩ := Prod.mk.inj (Option.some.inj h)
    rfl
  | succ n ih =>
    intro s u l h
    unfold State.takeShared at h
    (repeat' split at h) <;> simp at h
    next hentry =>
      obtain ⟨a, hrest, -⟩ := h
      exact (ih hrest).trans (State.takeEntry_accord hentry)

@[simp] theorem State.chainWrite_accord (s : State) (cells : List Nat) (o : Nat) (l : List Byte) :
    (s.chainWrite cells o l).accord = s.accord := by
  refine foldl_keeps State.accord _ (fun t j => ?_) _ s
  dsimp only
  split <;> simp

theorem State.buildPacket_accord {s u : State} {m : W64} {ts : W32} {l : List Byte} {d : Nat}
    (h : s.buildPacket m ts l = some (d, u)) : u.accord = s.accord := by
  unfold State.buildPacket at h
  (repeat' split at h) <;> simp at h
  next htake =>
    obtain ⟨-, rfl⟩ := h
    simp [State.takeShared_accord _ htake]

@[simp] theorem State.queueEcc_accord (s : State) (q m a : Nat) : (s.queueEcc q m a).accord = s.accord := by
  unfold State.queueEcc
  split
  · simp
  · rfl

@[simp] theorem State.setCe_accord (s : State) (d o sh : Nat) : (s.setCe d o sh).accord = s.accord := by
  unfold State.setCe State.editWrite
  dsimp only
  split <;> simp

@[simp] theorem State.admission_accord (s : State) (q d n : Nat) : (s.admission q d n).2.accord = s.accord := by
  unfold State.admission
  dsimp only
  (repeat' split) <;> simp

/-! ### Spill (R312 to R314) -/

theorem State.spillPlace_accord {s u : State} {q n pg a : Nat} (h : s.spillPlace q n = some (pg, a, u)) : u.accord = s.accord := by
  unfold State.spillPlace at h
  dsimp only at h
  (repeat' split at h) <;> simp at h <;> (obtain ⟨-, -, rfl⟩ := h; rfl)

@[simp] theorem State.pageLeft_accord (s : State) (q pg : Nat) : (s.pageLeft q pg).accord = s.accord := by
  unfold State.pageLeft
  dsimp only
  split <;> rfl

theorem State.spillOut_accord (l : List SpillWrite) : ∀ s : State, (State.spillOut l s).accord = s.accord := by
  induction l with
  | nil => exact fun s => rfl
  | cons w t ih =>
    intro s
    unfold State.spillOut
    dsimp only
    split
    · simp [ih, State.spillRefused]
    · split
      · simp [ih, State.spillWrite]
      · rfl

@[simp] theorem State.spill_accord (s : State) (k : QPkt) (order : Nat) (domain : Option Nat) :
    (s.spill k order domain).accord = s.accord := by
  unfold State.spill
  dsimp only
  split
  · simp
  · split
    next =>
      split
      · simp
      · exact (State.raise_accord _ _ _ _).trans (State.dropQueued_accord _ _ _ _)
    next hplace =>
      rw [State.drainSpill, State.spillOut_accord, State.noteLinked_accord, ← State.spillPlace_accord hplace]
      rfl

@[simp] theorem State.enqueue_accord (s : State) (k : QPkt) (order : Nat) (domain : Option Nat) :
    (s.enqueue k order domain).accord = s.accord := by
  have hlink : ∀ t : State, (t.link k order domain).accord = t.accord := fun t => by
    unfold State.link
    split <;> simp
  have hadmit := (s.queueEcc k.queue).admission_accord k.queue k.desc k.len
  unfold State.enqueue
  dsimp only
  split
  next => simp
  next =>
    split
    next heq =>
      rw [heq] at hadmit
      simpa using hadmit
    next heq =>
      rw [heq] at hadmit
      split <;> simpa [hlink] using hadmit

/-! ### Replies and completions sent (R397, R400, R401) -/

theorem State.inbandOut_accord (l : List (Nat × List Byte)) : ∀ s : State, (State.inbandOut l s).accord = s.accord := by
  induction l with
  | nil => exact fun s => rfl
  | cons e t ih =>
    obtain ⟨p, f⟩ := e
    intro s
    unfold State.inbandOut
    dsimp only
    split
    · rw [ih, State.loseReply_accord]
    · split
      · rfl
      · split
        next => rfl
        next hbuild => rw [ih, State.enqueue_accord, State.buildPacket_accord hbuild]

theorem State.flushReplies_accord (n : Nat) : ∀ s : State, (State.flushReplies n s).accord = s.accord := by
  induction n with
  | zero => exact fun s => rfl
  | succ n ih =>
    intro s
    unfold State.flushReplies
    split
    · rfl
    · split
      · rw [ih, State.event_accord, State.emit_accord, State.emit_accord]
      · rfl

@[simp] theorem State.sendReply_accord (s : State) (o : Origin) (l : List Byte) : (s.sendReply o l).accord = s.accord := by
  unfold State.sendReply
  split
  · rfl
  · split
    · exact (State.flushReplies_accord _ _).trans (State.inbandOut_accord _ _)
    · exact (State.emit_accord _ _).trans (State.inbandOut_accord _ _)
    · rfl

@[simp] theorem State.complete_accord (s : State) (op : AsyncOp) (st : Nat) (res : List Byte) :
    (s.complete op st res).accord = s.accord := by
  unfold State.complete
  split
  · rfl
  · exact State.sendReply_accord _ _ _

end Sys2Proof.Machine
end

section
/-! Markers, the retirement of the draining Accord, copies that clusters let go of, and the end of a discard (R346, R349, R356, R357). -/

namespace Sys2Proof.Machine

open Sys2Proof.Claims

/-! ### Markers (R346) -/

/-- A marker's return takes its own bit away. -/
theorem getLsbD_clearMarker (s : State) (i : Nat) {k : Nat} (hk : k < 5) :
    (s.clearMarker i).accord.markers.getLsbD k = (s.accord.markers.getLsbD k && decide (k ≠ markerBit i)) := by
  have hbit : (decide (k < markerBit i) || !decide (k - markerBit i = 0)) = !decide (k = markerBit i) := by
    rw [Bool.eq_iff_iff]
    simp
    omega
  simp [State.clearMarker, hk, hbit]

section
variable {s : State} {i : Nat}

theorem givesSome_markerReturn (hi : (27 ≤ i ∧ i < 31) ∨ i = 42) (hup : s.up i = true) (hseq : s.up 26 = true ∨ s.inReset 26 = true)
    (hmark : s.accord.markers.getLsbD (markerBit i) = true) (howed : s.markerOwed i = false) {n : Nat} (hn : n ≤ 5) (hbit : markerBit i < 5) :
    givesSome (.markerReturn i) s (fun u => u.accord.markers.getLsbD (markerBit i) = false
      ∧ ∀ k, k < n → k ≠ markerBit i → u.accord.markers.getLsbD k = s.accord.markers.getLsbD k) := by
  have hgo : s.markerReturn i = s.clearMarker i := if_pos (by simpa [hup, hmark, howed, hseq] using hi)
  refine ⟨_, congrArg answer hgo, ?_, fun k hk hne => ?_⟩
  · rw [State.watch_accord, getLsbD_clearMarker s i hbit]
    simp
  · rw [State.watch_accord, getLsbD_clearMarker s i (by omega)]
    simp [hne]

theorem gives_markerReturn_of_owed (howed : s.markerOwed i = true) : gives (.markerReturn i) s s :=
  congrArg answer (if_neg (by simp [howed]))

end

theorem markerOwed_slice {s : State} {i : Nat} (hi : i < 31) : s.markerOwed i = true ↔
    ((s.slc (i - 27)).tag ≠ some s.accord.current.toNat ∨ (s.slc (i - 27)).oldTag ≠ none) := by
  rw [State.markerOwed, if_neg (by omega)]
  simp [Option.isSome_iff_ne_none]

theorem markerOwed_scheduler {s : State} : s.markerOwed 42 = true ↔
    (s.tasks.tag ≠ some s.accord.current.toNat ∨ ∃ m ∈ s.net, ∃ n t, m.msg = .task n t ∧ t ≠ s.accord.current.toNat) := by
  rw [State.markerOwed, if_pos rfl]
  simp only [Bool.or_eq_true, bne_iff_ne, ne_eq, List.any_eq_true]
  refine or_congr_right (exists_congr fun m => and_congr_right fun _ => ?_)
  split
  next n t heq => simp [heq]
  next hnot => simpa using fun n t heq => absurd heq (hnot n t)

/-! ### Retirement (R349) -/

/-- What is stepped over every cluster is done once to each. -/
theorem cl_modClAll (f : Cluster → Cluster) (n : Nat) : ∀ (s : State) (c : Nat),
    ((List.range n).foldl (fun s c => s.modCl c f) s).cl c = if c < n then f (s.cl c) else s.cl c := by
  induction n with
  | zero => simp
  | succ n ih =>
    intro s c
    rw [List.range_succ, List.foldl_append, List.foldl_cons, List.foldl_nil, State.cl_modCl, ih, ih]
    by_cases hc : c = n
    · simp [hc]
    · have hlt : c < n + 1 ↔ c < n := by omega
      simp [hc, hlt]

@[simp] theorem State.trace_clusters (s : State) (k i m g r d p w : Nat) : (s.trace k i m g r d p w).clusters = s.clusters := by
  obtain h | h | ⟨t, a, l, h⟩ := s.trace_cases k i m g r d p w <;> simp [h, State.traceWritten]

@[simp] theorem State.trace_accord (s : State) (k i m g r d p w : Nat) : (s.trace k i m g r d p w).accord = s.accord := by
  obtain h | h | ⟨t, a, l, h⟩ := s.trace_cases k i m g r d p w <;> simp [h, State.traceWritten]

theorem inflight_eq_zero {s : State} (hdrain : s.accord.drainValid = true) :
    s.inflight = 0 ↔ ∀ e ∈ s.seq.recs, e.2.counts = true → e.2.accord ≠ s.accord.draining := by
  simp [State.inflight, hdrain, List.countP_eq_zero]

/-- The draining Accord's tag goes to every cluster that may still run under it. -/
def State.tagToClusters (s : State) (tag : Nat) : State :=
  (List.range 26).foldl (fun s c => s.modCl c (fun k => { k with svc := { k.svc with old := k.svc.old ++ [tag] } })) s

/-- No Accord drains any more, and the tag waits for the sweep. -/
def State.drained (s : State) (tag struck : Nat) : State :=
  { s with
    accord := { s.accord with drainValid := false, markers := 0, struck := struck }
    tables := { s.tables with sweeping := s.tables.sweeping ++ [tag] } }

theorem retireTag_eq (s : State) (bound : Bool) (struck : Nat) : s.retireTag bound struck =
    ((((s.trace 8 1 0x1000 0 0 0xFFFF 0 s.accord.draining.toNat).tagToClusters s.accord.draining.toNat).retireTables
      s.accord.draining.toNat).drained s.accord.draining.toNat struck).stewardEvent (.accordRetired s.accord.draining.toNat bound struck) := rfl

theorem tables_tagToClusters (s : State) (tag : Nat) : (s.tagToClusters tag).tables = s.tables :=
  foldl_keeps State.tables _ (fun _ _ => State.modCl_tables _ _ _) _ _

theorem seq_tagToClusters (s : State) (tag : Nat) : (s.tagToClusters tag).seq = s.seq :=
  foldl_keeps State.seq _ (fun _ _ => State.modCl_seq _ _ _) _ _

theorem sweeping_retireTables (s : State) (tag : Nat) : (s.retireTables tag).tables.sweeping = s.tables.sweeping := rfl

theorem clusters_retireTables (s : State) (tag : Nat) : (s.retireTables tag).clusters = s.clusters := rfl

theorem seq_retireTables (s : State) (tag : Nat) : (s.retireTables tag).seq = s.seq := rfl

theorem sweeping_drained (s : State) (tag k : Nat) : (s.drained tag k).tables.sweeping = s.tables.sweeping ++ [tag] := rfl

theorem clusters_drained (s : State) (tag k : Nat) : (s.drained tag k).clusters = s.clusters := rfl

theorem seq_drained (s : State) (tag k : Nat) : (s.drained tag k).seq = s.seq := rfl

/-- R349: the retirement of the draining Accord. -/
theorem givesSome_accordRetire {s : State} (hup : s.up 26 = true) (hdrain : s.accord.drainValid = true) (hmark : s.accord.markers = 0)
    (hnone : s.inflight = 0) : givesSome .accordRetire s (fun u => u.accord.drainValid = false ∧ u.accord.markers = 0
      ∧ u.tables.sweeping = s.tables.sweeping ++ [s.accord.draining.toNat]
      ∧ (∀ c, c < 26 → (u.cl c).svc.old = (s.cl c).svc.old ++ [s.accord.draining.toNat]) ∧ u.seq = s.seq) := by
  refine ⟨_, congrArg answer (if_pos ⟨hup, hdrain, hmark, hnone⟩), ?_⟩
  rw [retireTag_eq]
  refine ⟨by rw [State.watch_accord, State.stewardEvent_accord]; rfl, by rw [State.watch_accord, State.stewardEvent_accord]; rfl, ?_,
    fun c hc => ?_, ?_⟩
  · rw [State.watch_tables, State.stewardEvent_tables, sweeping_drained, sweeping_retireTables, tables_tagToClusters, State.trace_tables]
  · rw [State.cl, State.watch_clusters, State.stewardEvent_clusters, clusters_drained, clusters_retireTables, ← State.cl,
      State.tagToClusters, cl_modClAll, if_pos hc, State.cl, State.trace_clusters, State.cl]
  · rw [State.watch_seq, State.stewardEvent_seq, seq_drained, seq_retireTables, seq_tagToClusters, State.trace_seq]

theorem gives_accordRetire_of_busy {s : State} (hbusy : s.accord.markers ≠ 0 ∨ s.inflight ≠ 0) : gives .accordRetire s s :=
  congrArg answer (if_neg (fun h => hbusy.elim (absurd h.2.2.1) (absurd h.2.2.2)))

/-! ### Copies that clusters let go of (R237, R356) -/

/-- What is kept of a store by its keys is read as before. -/
theorem Store.get_filter_of_kept {α : Type} (d : α) (m : Store α) (p : Nat → Bool) {n : Nat} (h : p n = true) :
    Store.get d (m.filter (fun e => p e.1)) n = Store.get d m n := by
  induction m with
  | nil => rfl
  | cons e t ih =>
    obtain ⟨k, v⟩ := e
    by_cases hk : k = n
    · simp [Store.get_cons, hk, h]
    · by_cases hp : p k = true
      · simpa [Store.get_cons, hk, hp] using ih
      · simpa [Store.get_cons, hk, hp] using ih

theorem copy_dropCopies {s : State} {t : Nat} (h : t = s.accord.staged.toNat ∨ s.accord.live = true ∧ t = s.accord.current.toNat) :
    s.dropCopies.copy t = s.copy t := by
  unfold State.dropCopies
  extract_lets held
  refine Store.get_filter_of_kept _ _ held ?_
  obtain rfl | ⟨hlive, rfl⟩ := h
  · simp [held]
  · simp [held, hlive]

/-- R237, R356: a cluster lets go of every copy that no busy thread of it runs under. -/
theorem givesSome_clusterBankFree {s : State} {c : Nat} (hc : c < 26) (hup : s.up c = true) : givesSome (.clusterBankFree c) s (fun u =>
    (∀ t ∈ (u.cl c).svc.old, ∃ e ∈ (s.cl c).thread, e.2.busy = true ∧ e.2.accord = t) ∧ (∀ j, j ≠ c → u.cl j = s.cl j)
      ∧ (∀ t, (t = s.accord.staged.toNat ∨ s.accord.live = true ∧ t = s.accord.current.toNat) → u.copy t = s.copy t)) := by
  refine ⟨_, congrArg answer (if_pos (by simp [hc, hup])), ?_⟩
  generalize hv : s.modCl c (fun k => { k with svc := { k.svc with old := k.svc.old.filter (s.runsUnder c) } }) = v
  have hcl : ∀ j, v.dropCopies.watch.cl j = v.cl j := fun j => by rw [State.cl, State.watch_clusters]; rfl
  have hbank : s.bankFree c = v.dropCopies := by rw [← hv, State.bankFree]
  rw [hbank]
  refine ⟨fun t ht => ?_, fun j hj => ?_, fun t ht => ?_⟩
  · rw [hcl, ← hv, State.cl_modCl_same] at ht
    simpa [State.runsUnder] using (List.mem_filter.1 ht).2
  · rw [hcl, ← hv, State.cl_modCl, if_neg hj]
  · have hacc : v.accord = s.accord := by rw [← hv]; exact State.modCl_accord _ _ _
    rw [State.copy, State.watch_accord]
    refine (copy_dropCopies (hacc ▸ ht)).trans ?_
    rw [State.copy, hacc, State.copy]

/-! ### The end of a discard (R357) -/

/-- The discard is over, and no Maceration is left. -/
def State.discarded (s : State) : State :=
  { s with
    tables := { s.tables with macerating := [] }
    accord := { s.accord with discarding := false } }

theorem copy_discarded (s : State) (t : Nat) : s.discarded.copy t = s.copy t := rfl

theorem discardDone_of_empty {s : State} (hgo : s.accord.discarding = true) (hstructs : s.tables.structs = [])
    (hmac : s.tables.macerating = []) : ∃ w : State, s.discardDone = w.complete .discard stDone [] ∧ w.accord.discarding = false
      ∧ w.copy s.accord.staged.toNat = (if s.accord.live then s.copy s.accord.current.toNat else {}) ∧ w.ycp = s.ycp := by
  refine ⟨State.discarded (State.modCopy { s with tables := { s.tables with structs := [] } } s.accord.staged.toNat
    (fun _ => if s.accord.live then s.copy s.accord.current.toNat else {})), ?_, rfl, (copy_discarded _ _).trans (State.copy_modCopy_same _ _ _), rfl⟩
  unfold State.discardDone
  rw [if_neg (by simp [hgo])]
  simp only [hstructs, List.filter_nil, List.foldl_nil, hmac]
  rfl

/-- R357: with no structure and no Maceration left, the staged copy becomes that of the current Accord, and the discard answers. -/
theorem givesSome_accordDiscardDone {s : State} (hup : s.up 51 = true) (hgo : s.accord.discarding = true) (hstructs : s.tables.structs = [])
    (hmac : s.tables.macerating = []) : givesSome .accordDiscardDone s (fun u => u.accord.discarding = false
      ∧ u.copy s.accord.staged.toNat = (if s.accord.live then s.copy s.accord.current.toNat else {}) ∧ completed s u .discard 0 []) := by
  obtain ⟨w, hdone, hover, hcopy, hycp⟩ := discardDone_of_empty hgo hstructs hmac
  refine ⟨_, congrArg answer ((if_pos hup).trans hdone), ?_, ?_, ?_⟩
  · rw [State.watch_accord, State.complete_accord, hover]
  · rw [← hcopy, State.copy, State.watch_accord, State.complete_accord, State.copy]
  · exact completed_congr (completed_complete w _ _ _).1 (congrArg Ycp.issuers hycp) (congrArg Ycp.asyncs hycp) (State.watch_ycp _)

/-- Settles O37: each event by its own rule above, a marker by what still owes it and the retirement by the records in flight. -/
theorem accordsDrainRetireAndDiscard : Obligations.AccordsDrainRetireAndDiscard := by
  unfold Obligations.AccordsDrainRetireAndDiscard
  refine ⟨fun s i hlo hhi hup hseq hmark => ?_, fun s hup hseq hmark => ?_, fun s hup hdrain => ?_, fun s c hc hup => ?_,
    fun s hup hgo hstructs hmac => givesSome_accordDiscardDone hup hgo hstructs hmac, fun s hserves hup => ?_⟩
  · have hbit : markerBit i = i - 27 := if_neg (by omega)
    refine ⟨fun ⟨htag, hold⟩ => ?_, fun howed => gives_markerReturn_of_owed ((markerOwed_slice hhi).2 howed)⟩
    have howed : s.markerOwed i = false := Bool.eq_false_iff.2 fun h => ((markerOwed_slice hhi).1 h).elim (· htag) (· hold)
    exact hbit ▸ givesSome_markerReturn (.inl ⟨hlo, hhi⟩) hup hseq (hbit ▸ hmark) howed (Nat.le_refl 5) (by omega)
  · refine ⟨fun howed => ?_, fun howed => gives_markerReturn_of_owed (markerOwed_scheduler.2 howed)⟩
    obtain ⟨t, ht, hclear, hkept⟩ := givesSome_markerReturn (i := 42) (.inr rfl) hup hseq hmark
      (Bool.eq_false_iff.2 fun h => howed (markerOwed_scheduler.1 h)) (Nat.le_refl 5) (by decide)
    exact ⟨t, ht, hclear, fun k hk => hkept k (by omega) (Nat.ne_of_lt hk)⟩
  · refine ⟨fun hmark hnone => givesSome_accordRetire hup hdrain hmark ((inflight_eq_zero hdrain).2 hnone), fun hbusy => ?_⟩
    refine gives_accordRetire_of_busy (hbusy.imp_right fun ⟨e, he, hcounts, htag⟩ hzero => ?_)
    exact (inflight_eq_zero hdrain).1 hzero e he hcounts htag
  · exact givesSome_clusterBankFree hc hup
  · exact congrArg answer (if_pos (by simp [hserves, hup]))

end Sys2Proof.Machine
end

section
/-! Table records of the host on running groups: what their checks let pass, and what an insert, a delete and a lookup leave (R235, R236, R243,
R426, R427). -/

namespace Sys2Proof.Machine

open Sys2Proof.Claims

/-! ### The groups that a table lies in -/

/-- The Table Store groups that a descriptor's banks lie in run. -/
def groupsUp (s : State) (d : ObjWord) : Prop := ∀ k, k < dBanks d → s.up (37 + (dFirst d + k) / 8) = true

section
variable {s : State} {d : ObjWord} (hgroups : groupsUp s d)
include hgroups

theorem groupsReset_of_up : (List.range (dBanks d)).any (fun k => s.inReset (37 + (dFirst d + k) / 8)) = false :=
  List.any_eq_false.2 fun k hk => ne_true_of_eq_false (inReset_of_up (hgroups k (List.mem_range.1 hk)))

theorem tableStopped_of_up : s.tableStopped d = false :=
  List.any_eq_false.2 fun k hk => by simp [hgroups k (List.mem_range.1 hk)]

end

/-- A record whose body fills it runs once the Table Store is up and its table's groups run. -/
theorem onRecord_of_up {s : State} {c : Cmd} {tag : Nat} (hlen : c.p.length = 4 + c.n 2 2) (hdone : after s [6])
    (hgroups : groupsUp s (s.tdesc tag (c.n 0 1))) (f : Nat → List Byte → Ran) :
    s.onRecord c false tag f = f (c.n 0 1) (c.p.drop 4) := by
  rw [State.onRecord, if_neg (not_not.2 hlen), after_of_done hdone (by simp), tableStopped_of_up hgroups]
  rfl

/-! ### The checks of a record's body (R426) -/

theorem recordOk_of_exact {d : ObjWord} (hkind : dKind d = 2) (op : Nat) (body : List Byte) :
    recordOk d op body = (body.length == dKeyLen d + if op = 0 then dResLen d else 0) := by
  unfold recordOk
  rw [hkind]
  rfl

theorem recordOk_of_direct_delete {d : ObjWord} (hkind : dKind d = 1) (body : List Byte) : recordOk d 1 body = false := by
  unfold recordOk
  rw [hkind]
  rfl

theorem recordOk_of_direct_insert {d : ObjWord} {body : List Byte} (hkind : dKind d = 1) (hzero : beVal (slice body 1 3) = 0)
    (hbank : beVal (slice body 0 1) < dBanks d) (hoff : beVal (slice body 4 4) % 8 = 0) (hlen : (body.length - 8) % 8 = 0)
    (hleast : 8 ≤ body.length - 8) (hmost : body.length - 8 ≤ 512) (hrows : beVal (slice body 4 4) + (body.length - 8) ≤ 64 * dRows d) :
    recordOk d 0 body = true := by
  have hbody : 16 ≤ body.length := by omega
  unfold recordOk
  rw [hkind]
  simp [hzero, hbank, hoff, hlen, hleast, hmost, hrows, hbody]

/-! ### The checks of a live write (R236) -/

section
variable {s : State} {num op : Nat} {d : ObjWord} {body : List Byte} (hlive : s.accord.live = true)
include hlive

theorem writeRefused_of_badBody (hok : recordOk d op body = false) : s.writeRefused num d true op body = some stBadParam := by
  unfold State.writeRefused
  dsimp only
  rw [if_neg (by simp [hlive]), if_pos (by simp [hok])]

variable (hok : recordOk d op body = true)
include hok

/-- A table that is not shared rows takes live writes only where it has writers. -/
theorem writeRefused_of_unwritten (hkind : dKind d ≠ 1) (hwriters : dWriters d = 0) :
    s.writeRefused num d true op body = some stBadState := by
  unfold State.writeRefused
  dsimp only
  rw [if_neg (by simp [hlive]), if_neg (by simp [hok]), if_pos (by simp [hkind, hwriters])]

theorem writeRefused_of_written (hkind : dKind d ≠ 6) (hgroups : groupsUp s d)
    (hwritten : dWriters d ≠ 0 ∨ dKind d = 1 ∧ dVersioned d = false) : s.writeRefused num d true op body = none := by
  have hshared : ¬ (true && dWriters d == 0 && !(dKind d == 1 && !dVersioned d)) = true := by
    rcases hwritten with hwriters | ⟨hdirect, hone⟩
    · simp [hwriters]
    · simp [hdirect, hone]
  unfold State.writeRefused
  dsimp only
  rw [if_neg (by simp [hlive]), if_neg (by simp [hok]), if_neg hshared, if_neg (by simp), groupsReset_of_up hgroups,
    if_neg (by simp [hkind])]

end

/-! ### Live writes of the host (R236, R243) -/

theorem writeRows_of_noMirror {s : State} (hm : noMirror s) (a : Nat) (l : List Byte) : s.writeRows a l = s.putRows a l := by
  have hnone : s.tables.structs.filter (fun x => x.mirror && dKind x.desc == 1) = [] :=
    List.filter_eq_nil_iff.2 fun y hy => by simp [hm y hy]
  unfold State.writeRows
  dsimp only
  rw [hnone]
  rfl

/-- A host write to a shared row changes that row's bytes alone. -/
theorem rows_directWrite {s : State} (hm : noMirror s) (d : ObjWord) (c k o : Nat) (l : List Byte) :
    (s.directWrite d c k o l).tables.rows = mwrite s.tables.rows (s.directAddr d c k o) l := by
  have hm' : noMirror (s.count (bankSrc (s.physBank (dFirst d + k))) 0x11) := hm
  unfold State.directWrite
  dsimp only
  rw [writeRows_of_noMirror hm']
  rfl

section
variable {s : State} {num : Nat} {body : List Byte}

theorem recordInsert_of_refused {st : Nat} (h : s.writeRefused num (s.tdesc s.accord.current.toNat num) true 0 body = some st) :
    s.recordInsert num true body = .done st [] s := by
  unfold State.recordInsert
  dsimp only
  rw [if_pos rfl, h]

theorem recordInsert_of_shared (h : s.writeRefused num (s.tdesc s.accord.current.toNat num) true 0 body = none)
    (hkind : dKind (s.tdesc s.accord.current.toNat num) = 1) (hone : dVersioned (s.tdesc s.accord.current.toNat num) = false) :
    s.recordInsert num true body = .done stDone (insertResults false 1)
      (s.directWrite (s.tdesc s.accord.current.toNat num) 1 (beVal (slice body 0 1)) (beVal (slice body 4 4)) (body.drop 8)) := by
  unfold State.recordInsert
  dsimp only
  rw [if_pos rfl, h, hkind]
  dsimp only
  rw [if_pos (by simp [hone])]
  rfl

theorem recordDelete_of_refused {st : Nat} (h : s.writeRefused num (s.tdesc s.accord.current.toNat num) true 1 body = some st) :
    s.recordDelete num true body = (st, s) := by
  unfold State.recordDelete
  dsimp only
  rw [if_pos rfl, h]

theorem recordDelete_of_exact (h : s.writeRefused num (s.tdesc s.accord.current.toNat num) true 1 body = none)
    (hkind : dKind (s.tdesc s.accord.current.toNat num) = 2) {gone : Bool} {t : State}
    (hdelete : s.deleteTable num s.accord.current.toNat body = (gone, t)) :
    s.recordDelete num true body = (if gone then stDone else stAlready, t) := by
  unfold State.recordDelete
  dsimp only
  rw [if_pos rfl, h, hkind]
  dsimp only
  rw [hdelete]
  rfl

/-- An insert that finds room answers that it has added one record; beyond the Table Store's entries only rows marked uncorrectable change. -/
theorem recordInsert_of_added (h : s.writeRefused num (s.tdesc s.accord.current.toNat num) true 0 body = none)
    (hkind : dKind (s.tdesc s.accord.current.toNat num) = 2) {t : State}
    (hinsert : s.insertTable num s.accord.current.toNat (body.take (dKeyLen (s.tdesc s.accord.current.toNat num)))
      (body.drop (dKeyLen (s.tdesc s.accord.current.toNat num))) = (.added, t)) :
    ∃ u, s.recordInsert num true body = .done stDone (insertResults false 1) u ∧ u.tables.structs = t.tables.structs := by
  have hhost : s.hostInsert num s.accord.current.toNat (body.take (dKeyLen (s.tdesc s.accord.current.toNat num)))
      (body.drop (dKeyLen (s.tdesc s.accord.current.toNat num))) = (.added, t) := by
    unfold State.hostInsert
    rw [hinsert]
  unfold State.recordInsert
  dsimp only
  rw [if_pos rfl, h, hkind]
  dsimp only
  rw [hhost]
  exact ⟨_, rfl, rfl⟩

end

/-! ### Records with LIVE set (R426, R427) -/

section
variable {v : State} {c : Cmd} (hdone : after v [6]) (hbit : c.n 1 1 = 1) (hlen : c.p.length = 4 + c.n 2 2)
  (hgroups : groupsUp v (v.tdesc v.accord.current.toNat (c.n 0 1)))
include hdone hbit hlen hgroups

theorem tblInsert_of_live {st : Nat} {res : List Byte} {t : State}
    (htook : v.recordInsert (c.n 0 1) true (c.p.drop 4) = .done st res t) : v.tblInsert c = .done st res t := by
  unfold State.tblInsert
  rw [hbit, if_neg (Nat.lt_irrefl 1)]
  refine (onRecord_of_up hlen hdone hgroups _).trans ?_
  rw [beq_self_eq_true, htook]

theorem tblDelete_of_live {st : Nat} {t : State} (htook : v.recordDelete (c.n 0 1) true (c.p.drop 4) = (st, t)) :
    v.tblDelete c = .done st [] t := by
  unfold State.tblDelete
  rw [hbit, if_neg (Nat.lt_irrefl 1)]
  refine (onRecord_of_up hlen hdone hgroups _).trans ?_
  rw [beq_self_eq_true, htook]

end

/-- The hypotheses on a record with LIVE set: it fills its packet, and the groups of its table under the current Accord run. -/
structure LiveRecord (v : State) (x : Packet) : Prop where
  bit : arg x none 1 1 = 1
  len : x.params.length = 4 + arg x none 2 2
  live : v.accord.live = true
  program : v.accord.current.toNat ≠ v.accord.staged.toNat
  groups : groupsUp v (v.tdesc v.accord.current.toNat (arg x none 0 1))
  noMirror : noMirror v

section
variable {s v : State} {x : Packet} {o : Origin} (hdone : after v [6]) (hrec : LiveRecord v x)
include hdone hrec

theorem replies_tblInsert_live (hrun : runs s x 0x0300 none (fun p => decide (4 ≤ p.length)) o v) {st : Nat} {res : List Byte} {t : State}
    (htook : v.recordInsert (arg x none 0 1) true (x.params.drop 4) = .done st res t) {q : State → Prop} (hq : q t) :
    replies (.tblInsert x) s (toOf x 0x0300 o) st res q :=
  replies_of_done hrun rfl (tblInsert_of_live (c := cmdOf x 0x0300 none o) hdone hrec.bit hrec.len hrec.groups htook) hq

theorem replies_tblDelete_live (hrun : runs s x 0x0301 none (fun p => decide (4 ≤ p.length)) o v) {st : Nat} {t : State}
    (htook : v.recordDelete (arg x none 0 1) true (x.params.drop 4) = (st, t)) {q : State → Prop} (hq : q t) :
    replies (.tblDelete x) s (toOf x 0x0301 o) st [] q :=
  replies_of_done hrun rfl (tblDelete_of_live (c := cmdOf x 0x0301 none o) hdone hrec.bit hrec.len hrec.groups htook) hq

end

end Sys2Proof.Machine
end

section
/-! What live records of the host leave in tables of shared rows and of exact keys (R235, R236, R243, R426). -/

namespace Sys2Proof.Machine

open Sys2Proof.Claims

section
variable {s : State} {num : Nat} {d : ObjWord} (hkind : dKind d = 2) (hm : noMirror s) (e : TEntry)
include hkind hm

theorem struct_putEntry : (s.putEntry (s.struct num d) e).struct num d = (s.struct num d).placing e := by
  obtain ⟨hdesc, hnum⟩ := struct_desc s num d
  obtain ⟨-, hput, -⟩ := putEntry_of_exact (x := s.struct num d) (by rw [hdesc, hkind]) hm e
  rwa [struct_struct, hdesc, hnum] at hput

theorem struct_dropEntry : (s.dropEntry (s.struct num d) e).struct num d = (s.struct num d).without e := by
  obtain ⟨hdesc, hnum⟩ := struct_desc s num d
  obtain ⟨-, hdrop, -⟩ := dropEntry_of_exact (x := s.struct num d) (by rw [hdesc, hkind]) hm e
  rwa [struct_struct, hdesc, hnum] at hdrop

end

section
variable {s v : State} {x : Packet} {o : Origin} {d : ObjWord} (hdone : after v [6]) (hrec : LiveRecord v x)
  (hd : v.tdesc v.accord.current.toNat (arg x none 0 1) = d)
include hdone hrec hd

/-- An insert into a shared table of rows writes its bytes there and no others. -/
theorem replies_tblInsert_direct (hkind : dKind d = 1) (hone : dVersioned d = false)
    (hrun : runs s x 0x0300 none (fun p => decide (4 ≤ p.length)) o v) (hok : recordOk d 0 (x.params.drop 4) = true) :
    replies (.tblInsert x) s (toOf x 0x0300 o) 0 [0, 0, 0, 0, 0, 0, 0, 1] (fun u =>
      let at' := v.directAddr d 1 (beVal (slice (x.params.drop 4) 0 1)) (beVal (slice (x.params.drop 4) 4 4))
      let n := (x.params.drop 4).length - 8
      mread u.tables.rows at' n = (x.params.drop 4).drop 8 ∧ ∀ z, z < at' ∨ at' + n ≤ z → mget u.tables.rows z = mget v.tables.rows z) := by
  subst hd
  have hpass := writeRefused_of_written (num := arg x none 0 1) hrec.live hok (by rw [hkind]; decide) hrec.groups (.inr ⟨hkind, hone⟩)
  refine replies_tblInsert_live hdone hrec hrun (recordInsert_of_shared hpass hkind hone) ?_
  dsimp only
  rw [rows_directWrite hrec.noMirror, ← List.length_drop (i := 8)]
  exact ⟨mread_mwrite_same _ _ _, fun z hz => mget_mwrite_outside _ _ _ _ hz⟩

/-- A delete from a table of rows is no record. -/
theorem replies_tblDelete_direct (hkind : dKind d = 1) (hrun : runs s x 0x0301 none (fun p => decide (4 ≤ p.length)) o v) :
    replies (.tblDelete x) s (toOf x 0x0301 o) 0x101 [] (· = v) := by
  subst hd
  exact replies_tblDelete_live hdone hrec hrun
    (recordDelete_of_refused (writeRefused_of_badBody hrec.live (recordOk_of_direct_delete hkind _))) rfl

variable (hkind : dKind d = 2)
include hkind

theorem replies_tblInsert_unwritten (hwriters : dWriters d = 0) (hlen : (x.params.drop 4).length = dKeyLen d + dResLen d)
    (hrun : runs s x 0x0300 none (fun p => decide (4 ≤ p.length)) o v) :
    replies (.tblInsert x) s (toOf x 0x0300 o) 0x102 [] (· = v) := by
  subst hd
  have hok : recordOk _ 0 (x.params.drop 4) = true := (recordOk_of_exact hkind 0 _).trans (by simp [hlen])
  exact replies_tblInsert_live hdone hrec hrun
    (recordInsert_of_refused (writeRefused_of_unwritten hrec.live hok (by rw [hkind]; decide) hwriters)) rfl

variable (hwriters : dWriters d ≠ 0)
include hwriters

theorem replies_tblInsert_room {p : Nat × Nat × Nat} (hlen : (x.params.drop 4).length = dKeyLen d + dResLen d)
    (hrun : runs s x 0x0300 none (fun p => decide (4 ≤ p.length)) o v)
    (hunseen : v.seenOf (v.struct (arg x none 0 1) d) v.accord.current.toNat ((x.params.drop 4).take (dKeyLen d)) = [])
    (hroom : v.roomFor (v.struct (arg x none 0 1) d) ((x.params.drop 4).take (dKeyLen d)) = some p) :
    replies (.tblInsert x) s (toOf x 0x0300 o) 0 [0, 0, 0, 0, 0, 0, 0, 1] (fun u => u.struct (arg x none 0 1) d =
      (v.struct (arg x none 0 1) d).placing
        (newEntry v.accord.current.toNat ((x.params.drop 4).take (dKeyLen d)) ((x.params.drop 4).drop (dKeyLen d)) p)) := by
  subst hd
  have hok : recordOk _ 0 (x.params.drop 4) = true := (recordOk_of_exact hkind 0 _).trans (by simp [hlen])
  have hpass := writeRefused_of_written (num := arg x none 0 1) hrec.live hok (by rw [hkind]; decide) hrec.groups (.inl hwriters)
  obtain ⟨u, htook, hstructs⟩ := recordInsert_of_added hpass hkind
    (insertTable_of_room hrec.program hrec.noMirror hkind hunseen hroom)
  exact replies_tblInsert_live hdone hrec hrun htook ((struct_congr hstructs _ _).trans (struct_putEntry hkind hrec.noMirror _))

variable (hrun : runs s x 0x0301 none (fun p => decide (4 ≤ p.length)) o v) (hlen : (x.params.drop 4).length = dKeyLen d)
include hrun hlen

theorem replies_tblDelete_unseen
    (hunseen : v.seenOf (v.struct (arg x none 0 1) d) v.accord.current.toNat (x.params.drop 4) = []) :
    replies (.tblDelete x) s (toOf x 0x0301 o) 2 [] (· = v) := by
  subst hd
  have hok : recordOk _ 1 (x.params.drop 4) = true := (recordOk_of_exact hkind 1 _).trans (by simp [hlen])
  have hpass := writeRefused_of_written (num := arg x none 0 1) hrec.live hok (by rw [hkind]; decide) hrec.groups (.inl hwriters)
  exact replies_tblDelete_live hdone hrec hrun
    (recordDelete_of_exact hpass hkind (deleteTable_of_unseen hrec.program hrec.noMirror hunseen)) rfl

theorem replies_tblDelete_own {e : TEntry}
    (hseen : v.seenOf (v.struct (arg x none 0 1) d) v.accord.current.toNat (x.params.drop 4) = [e])
    (hown : e.born.toNat = v.accord.current.toNat) :
    replies (.tblDelete x) s (toOf x 0x0301 o) 0 [] (fun u =>
      u.struct (arg x none 0 1) d = (v.struct (arg x none 0 1) d).without e) := by
  subst hd
  have hok : recordOk _ 1 (x.params.drop 4) = true := (recordOk_of_exact hkind 1 _).trans (by simp [hlen])
  have hpass := writeRefused_of_written (num := arg x none 0 1) hrec.live hok (by rw [hkind]; decide) hrec.groups (.inl hwriters)
  exact replies_tblDelete_live hdone hrec hrun
    (recordDelete_of_exact hpass hkind (deleteTable_of_own hrec.program hrec.noMirror hkind hseen hown))
    (struct_dropEntry hkind hrec.noMirror e)

end

end Sys2Proof.Machine
end

section
/-! Lookups of the host in EXACT tables (R235, R236, R427). -/

namespace Sys2Proof.Machine

open Sys2Proof.Claims

/-! ### Transports -/

/-- The I2C subset holds no table record. -/
theorem i2c_not_permitted_tblLookup {t : State} {k : Pkt} (hop : k.op = 0x0302) : t.permitted .i2c k = false := by
  simp [State.permitted, i2cSubset, hop]

/-- A lookup came over a transport whose packets hold the longest result. -/
theorem fits_of_tblLookup {s v : State} {x : Packet} {form : List Byte → Bool} {o : Origin} (hrun : runs s x 0x0302 none form o v)
    {n : Nat} (hn : n ≤ 516) : (cmdOf x 0x0302 none o).fits n = true := by
  obtain ⟨t, -, -, hpermitted, -⟩ := hrun
  cases o with
  | pcie => exact decide_eq_true (show 4 + n ≤ 4096 by omega)
  | inband p f => exact decide_eq_true (show 4 + n ≤ 1344 by omega)
  | i2c =>
    rw [i2c_not_permitted_tblLookup rfl] at hpermitted
    exact absurd hpermitted Bool.false_ne_true

/-! ### What a lookup answers -/

/-- The results of a lookup: whether it found an entry, how many 8 bytes follow, and the bytes. -/
def lookupAnswer (hit : Bool) (l : List Byte) : List Byte := [if hit then 1 else 0, BitVec.ofNat 8 (l.length / 8), 0, 0] ++ l

theorem length_lookupAnswer (hit : Bool) (l : List Byte) : (lookupAnswer hit l).length = 4 + l.length := by
  rw [lookupAnswer, List.length_append]
  rfl

section
variable {s : State} {num a : Nat} {body : List Byte} (master : Nat)

theorem recordLookup_of_dead (hdead : s.tagRank a = 0) : s.recordLookup num a body master = (stBadState, [], s) := by
  unfold State.recordLookup
  dsimp only
  rw [if_pos hdead]

/-- A lookup in an EXACT table with no uncorrectable row answers what it finds, or else the default result. -/
theorem recordLookup_of_exact (hlive : s.tagRank a ≠ 0) (hkind : dKind (s.tdesc a num) = 2) (hlen : body.length = dKeyLen (s.tdesc a num))
    (hgroups : groupsUp s (s.tdesc a num)) {v : State} {r : Option (List Byte)} (hv : v.unread = s.unread)
    (hlook : s.lookTable num a body { master := master, access := 1, ev := 0x11 } = (lookOf r, v)) :
    s.recordLookup num a body master = (stDone, lookupAnswer r.isSome (r.getD (s.defaultResult a num)), v) := by
  have hok : recordOk (s.tdesc a num) 2 body = true := (recordOk_of_exact hkind 2 body).trans (by simp [hlen])
  have hlines : s.hopLines num a body = [] := if_neg (by rw [hkind]; decide)
  unfold State.recordLookup
  dsimp only
  rw [if_neg hlive, if_neg (by simp [hok]), groupsReset_of_up hgroups, hlines, if_neg (by simp), hkind, hlook]
  cases r with
  | some r => rfl
  | none =>
    dsimp only [lookOf]
    rw [State.unread_defaultResult hv]
    rfl

end

/-! ### TBL_LOOKUP -/

theorem tblLookup_of_up {v : State} {c : Cmd} (hdone : after v [6]) (htag : c.n 1 1 < 16) (hlen : c.p.length = 4 + c.n 2 2)
    (hgroups : groupsUp v (v.tdesc (c.n 1 1) (c.n 0 1))) {st : Nat} {res : List Byte} {t : State}
    (hlook : v.recordLookup (c.n 0 1) (c.n 1 1) (c.p.drop 4) c.master = (st, res, t)) (hfits : c.fits res.length = true) :
    v.tblLookup c = .done st res t := by
  unfold State.tblLookup
  rw [if_neg (Nat.not_le.2 htag)]
  refine (onRecord_of_up hlen hdone hgroups _).trans ?_
  rw [hlook]
  exact if_pos hfits

section
variable {s v : State} {x : Packet} {o : Origin} (hdone : after v [6])
  (hrun : runs s x 0x0302 none (fun p => decide (4 ≤ p.length)) o v) (htag : arg x none 1 1 < 16)
  (hlen : x.params.length = 4 + arg x none 2 2) (hgroups : groupsUp v (v.tdesc (arg x none 1 1) (arg x none 0 1)))
include hdone hrun htag hlen hgroups

theorem replies_tblLookup_dead (hdead : v.tagRank (arg x none 1 1) = 0) :
    replies (.tblLookup x) s (toOf x 0x0302 o) 0x102 [] (· = v) :=
  replies_of_done hrun rfl (tblLookup_of_up (c := cmdOf x 0x0302 none o) hdone htag hlen hgroups
    (recordLookup_of_dead (num := arg x none 0 1) (body := x.params.drop 4) _ hdead) (fits_of_tblLookup hrun (by simp))) rfl

section
variable (hbad : v.tables.bad = []) (hlive : v.tagRank (arg x none 1 1) ≠ 0)
  (hkind : dKind (v.tdesc (arg x none 1 1) (arg x none 0 1)) = 2)
  (hkey : (x.params.drop 4).length = dKeyLen (v.tdesc (arg x none 1 1) (arg x none 0 1)))
include hbad hlive hkind hkey

theorem replies_tblLookup_exact {r : Option (List Byte)}
    (hr : ((v.tagged (v.struct (arg x none 0 1) (v.tdesc (arg x none 1 1) (arg x none 0 1))) (arg x none 1 1) (x.params.drop 4)).find?
      (fun e => e.key == x.params.drop 4)).map (·.result) = r)
    (hshort : (r.getD (v.defaultResult (arg x none 1 1) (arg x none 0 1))).length ≤ 512) :
    replies (.tblLookup x) s (toOf x 0x0302 o) 0
      (lookupAnswer r.isSome (r.getD (v.defaultResult (arg x none 1 1) (arg x none 0 1)))) (fun u => u.tables = v.tables) := by
  subst hr
  obtain ⟨t, ht, hlook⟩ := lookTable_of_exact hbad (arg x none 0 1) (arg x none 1 1) (x.params.drop 4)
    { master := (cmdOf x 0x0302 none o).master, access := 1, ev := 0x11 } hkind
  refine replies_of_done hrun rfl (tblLookup_of_up (c := cmdOf x 0x0302 none o) hdone htag hlen hgroups
    (recordLookup_of_exact _ hlive hkind hkey hgroups ht hlook) (fits_of_tblLookup hrun ?_)) (State.unread_tables ht)
  rw [length_lookupAnswer]
  omega

theorem replies_tblLookup_found {e : TEntry}
    (he : seenBy v (v.struct (arg x none 0 1) (v.tdesc (arg x none 1 1) (arg x none 0 1))) (arg x none 1 1) (x.params.drop 4) e)
    (hall : ∀ e', seenBy v (v.struct (arg x none 0 1) (v.tdesc (arg x none 1 1) (arg x none 0 1))) (arg x none 1 1) (x.params.drop 4) e' →
      e'.result = e.result) (hshort : e.result.length ≤ 512) :
    replies (.tblLookup x) s (toOf x 0x0302 o) 0 (lookupAnswer true e.result) (fun u => u.tables = v.tables) :=
  replies_tblLookup_exact hdone hrun htag hlen hgroups hbad hlive hkind hkey (r := some e.result)
    (find_result_of_seen (fun _ => by rw [beq_iff_eq, mem_candidates]) he hall) hshort

theorem replies_tblLookup_missed
    (hnone : ∀ e, ¬ seenBy v (v.struct (arg x none 0 1) (v.tdesc (arg x none 1 1) (arg x none 0 1))) (arg x none 1 1) (x.params.drop 4) e)
    (hshort : (v.defaultResult (arg x none 1 1) (arg x none 0 1)).length ≤ 512) :
    replies (.tblLookup x) s (toOf x 0x0302 o) 0 (lookupAnswer false (v.defaultResult (arg x none 1 1) (arg x none 0 1)))
      (fun u => u.tables = v.tables) :=
  replies_tblLookup_exact hdone hrun htag hlen hgroups hbad hlive hkind hkey (r := none)
    (find_none_of_unseen (fun _ => by rw [beq_iff_eq, mem_candidates]) hnone) hshort

end

end

end Sys2Proof.Machine
end

section
/-! Macerations and resizes start (R247, R249). -/

namespace Sys2Proof.Machine

open Sys2Proof.Claims

/-! ### TBL_MACERATE (R247) -/

section
variable {s : State} {num : Nat} (hdone : after s [6]) (hgo : s.accord.discarding = false)
include hdone hgo

theorem tblMacerate_of_same (hsame : s.tdesc s.accord.staged.toNat num = s.tdesc s.accord.current.toNat num) :
    s.tblMacerate num = .done stBadState [] s := by
  unfold State.tblMacerate
  dsimp only
  rw [after_of_done hdone (by simp), if_neg (by simp [hgo]), if_pos hsame]

variable (hnew : s.tdesc s.accord.staged.toNat num ≠ s.tdesc s.accord.current.toNat num)
include hnew

theorem tblMacerate_of_macerating (hbusy : num ∈ s.tables.macerating) : s.tblMacerate num = .done stBusy [] s := by
  unfold State.tblMacerate
  dsimp only
  rw [after_of_done hdone (by simp), if_neg (by simp [hgo]), if_neg hnew, if_pos (by simp [State.tableBusy, hbusy])]

theorem tblMacerate_of_idle (hmac : num ∉ s.tables.macerating) (hresize : num ∉ s.tables.resizing)
    (hgroups : groupsUp s (s.tdesc s.accord.staged.toNat num)) : s.tblMacerate num =
      .start (.macerate num) { s with tables := { s.tables with macerating := s.tables.macerating ++ [num] } } := by
  unfold State.tblMacerate
  dsimp only
  rw [after_of_done hdone (by simp), if_neg (by simp [hgo]), if_neg hnew, if_neg (by simp [State.tableBusy, hmac, hresize]),
    groupsReset_of_up hgroups, if_neg Bool.false_ne_true]

end

/-! ### A descriptor with its buckets doubled (R249) -/

/-- Bits below the width of a word are those of the number it was made from. -/
theorem bits_ofNat (n : Nat) {hi lo k : Nat} (hlo : lo ≤ hi) (hhi : hi < k) : bits (BitVec.ofNat k n).toNat hi lo = bits n hi lo := by
  have hpow : 2 ^ k = 2 ^ lo * (2 ^ (hi + 1 - lo) * 2 ^ (k - 1 - hi)) := by
    rw [← pow_add, ← pow_add]
    congr 1
    omega
  rw [BitVec.toNat_ofNat, bits, bits, Nat.shiftRight_eq_div_pow, Nat.shiftRight_eq_div_pow, hpow, Nat.mod_mul_right_div_self, Nat.mod_mul_right_mod]

/-- Bits replaced in a number are the ones put there. -/
theorem bits_replaced (n hi lo v : Nat) :
    bits (n - bits n hi lo * 2 ^ lo + v % 2 ^ (hi + 1 - lo) * 2 ^ lo) hi lo = v % 2 ^ (hi + 1 - lo) := by
  obtain ⟨q, hq⟩ : ∃ q, n = (bits n hi lo + 2 ^ (hi + 1 - lo) * q) * 2 ^ lo + n % 2 ^ lo :=
    ⟨n / 2 ^ lo / 2 ^ (hi + 1 - lo), by rw [bits, Nat.shiftRight_eq_div_pow, Nat.mod_add_div, Nat.div_add_mod']⟩
  have hcut : n - bits n hi lo * 2 ^ lo = 2 ^ (hi + 1 - lo) * q * 2 ^ lo + n % 2 ^ lo :=
    Nat.sub_eq_of_eq_add (hq.trans (by ring))
  have hput : n - bits n hi lo * 2 ^ lo + v % 2 ^ (hi + 1 - lo) * 2 ^ lo =
      n % 2 ^ lo + 2 ^ lo * (v % 2 ^ (hi + 1 - lo) + 2 ^ (hi + 1 - lo) * q) := by
    rw [hcut]
    ring
  rw [hput, bits, Nat.shiftRight_eq_div_pow, Nat.add_mul_div_left _ _ (Nat.two_pow_pos lo), Nat.div_eq_of_lt (Nat.mod_lt _ (Nat.two_pow_pos lo)),
    Nat.zero_add, Nat.add_mul_mod_self_left, Nat.mod_mod]

/-- A field of an object word reads as what was put there, as far as it fits. -/
theorem fld_setFld_same (w : ObjWord) {hi lo : Nat} (hlo : lo ≤ hi) (hhi : hi < 384) (v : Nat) :
    fld (setFld w hi lo v) hi lo = v % 2 ^ (hi + 1 - lo) :=
  (bits_ofNat _ hlo hhi).trans (bits_replaced _ _ _ _)

theorem dLog_doubled {d : ObjWord} (h : dLog d < 31) : dLog (doubled d) = dLog d + 1 :=
  (fld_setFld_same d (by decide) (by decide) _).trans (Nat.mod_eq_of_lt (show dLog d + 1 < 2 ^ 5 by omega))

theorem dLog_of_mayDouble {s : State} {num : Nat} {d : ObjWord} (h : s.mayDouble num d = true) : dLog d < 24 := by
  unfold State.mayDouble at h
  split at h
  · have := (Bool.and_eq_true_iff.1 h).1
    exact Nat.lt_trans (of_decide_eq_true this) (by decide)
  · exact of_decide_eq_true (Bool.and_eq_true_iff.1 h).1

/-! ### The copies of a resize (R249) -/

/-- A store read through a change of its values that keeps the default. -/
theorem get_map_values {α : Type} (d : α) (g : Nat → α → α) (n : Nat) (hd : g n d = d) (m : Store α) :
    Store.get d (m.map (fun e => (e.1, g e.1 e.2))) n = g n (Store.get d m n) := by
  induction m with
  | nil => exact hd.symm
  | cons e t ih =>
    obtain ⟨k, a⟩ := e
    rw [List.map_cons, Store.get_cons, Store.get_cons, ih]
    split
    · next hk => rw [hk]
    · rfl

/-- The table is one of hashed buckets: EXACT or EXT. -/
def hashed (d : ObjWord) : Bool := dKind d == 2 || dKind d == 6

/-- A copy with the table's descriptor doubled, where the copy is one of `tags` and the table is hashed in it. -/
def doubledIn (tags : List Nat) (num t : Nat) (c : Copy) : Copy :=
  if tags.contains t && hashed (Store.get 0 c.objs (objKey 0x50 num)) then
    { c with objs := Store.set 0 c.objs (objKey 0x50 num) (doubled (Store.get 0 c.objs (objKey 0x50 num))) }
  else c

theorem hashed_zero : hashed 0 = false := by
  have hkind : dKind 0 = 0 := congrArg (bits · 127 124) BitVec.toNat_zero
  rw [hashed, hkind]
  rfl

theorem doubledIn_default (tags : List Nat) (num t : Nat) : doubledIn tags num t {} = {} :=
  if_neg (by rw [Store.get_nil, hashed_zero, Bool.and_false]; exact Bool.false_ne_true)

theorem map_doubledIn (s : State) (num : Nat) :
    s.accord.copy.map (fun (e : Nat × Copy) => if s.keptTags.contains e.1 && hashed (Store.get 0 e.2.objs (objKey 0x50 num)) then
      (e.1, ({ e.2 with objs := Store.set 0 e.2.objs (objKey 0x50 num) (doubled (Store.get 0 e.2.objs (objKey 0x50 num))) } : Copy))
    else e) = s.accord.copy.map (fun e => (e.1, doubledIn s.keptTags num e.1 e.2)) :=
  List.map_congr_left fun (e : Nat × Copy) _ => (apply_ite (Prod.mk e.1) _ _ _).symm

/-- Every hashed descriptor of the table in the copies of `tags` is doubled. -/
theorem tdesc_of_doubledIn {s u : State} {tags : List Nat} {num t : Nat}
    (hcopies : u.accord.copy = s.accord.copy.map (fun e => (e.1, doubledIn tags num e.1 e.2))) (ht : t ∈ tags)
    (hhashed : hashed (s.tdesc t num) = true) : u.tdesc t num = doubled (s.tdesc t num) := by
  have hget : u.copy t = doubledIn tags num t (s.copy t) := by
    rw [State.copy, hcopies, get_map_values _ _ _ (doubledIn_default tags num t), State.copy]
  have hcond : (tags.contains t && hashed (Store.get 0 (s.copy t).objs (objKey 0x50 num))) = true := by
    rw [List.contains_iff_mem.2 ht]
    exact hhashed
  rw [State.tdesc, State.sobj, hget, doubledIn, if_pos hcond]
  exact Store.get_set_same _ _ _ _

/-! ### TBL_RESIZE (R249) -/

/-- The table's hashed descriptors under the live and staged Accords, each once. -/
def State.hashedDescs (s : State) (num : Nat) : List ObjWord := ((s.keptTags.map (fun t => s.tdesc t num)).filter hashed).eraseDups

theorem mem_hashedDescs {s : State} {num : Nat} {d : ObjWord} :
    d ∈ s.hashedDescs num ↔ (∃ t ∈ s.keptTags, s.tdesc t num = d) ∧ hashed d = true := by
  rw [State.hashedDescs, List.mem_eraseDups, List.mem_filter, List.mem_map]

/-- A structure begun under each of some descriptors. -/
def State.begunAll (s : State) (num : Nat) (ds : List ObjWord) : State := ds.foldl (fun t d => t.begin' { num := num, desc := d }) s

/-- Beginning a structure leaves the Accords and the resizes under way. -/
theorem begin_keeps (s : State) (x : TStruct) :
    ((s.begin' x).accord, (s.begin' x).tables.resizing) = (s.accord, s.tables.resizing) := by
  unfold State.begin'
  split
  · rfl
  · dsimp only
    split
    · rfl
    · exact foldl_keeps (fun t : State => (t.accord, t.tables.resizing)) (fun t k => t.bankCleared x.desc k) (fun _ _ => rfl)
        (List.range (dBanks x.desc)) s
    · rfl

theorem begunAll_keeps (s : State) (num : Nat) (ds : List ObjWord) :
    (s.begunAll num ds).accord = s.accord ∧ (s.begunAll num ds).tables.resizing = s.tables.resizing :=
  Prod.mk.inj (foldl_keeps (fun t : State => (t.accord, t.tables.resizing)) _ (fun t _ => begin_keeps t _) ds s)

section
variable {s : State} {num : Nat} (hdone : after s [6]) (hgo : s.accord.discarding = false)
include hdone hgo

theorem tblResize_of_unhashed (hnamed : hashed (s.tdesc (s.writeTag s.accord.live) num) = false) :
    s.tblResize num = .done stBadParam [] s := by
  unfold State.tblResize
  dsimp only
  refine (after_of_done hdone (by simp) _).trans ((if_neg (by simp [hgo])).trans (if_pos ?_))
  exact congrArg not hnamed

variable (hnamed : hashed (s.tdesc (s.writeTag s.accord.live) num) = true)
include hnamed

theorem tblResize_of_resizing (hbusy : num ∈ s.tables.resizing) : s.tblResize num = .done stBusy [] s := by
  have hnot : ¬ (!hashed (s.tdesc (s.writeTag s.accord.live) num)) = true := by simp [hnamed]
  unfold State.tblResize
  dsimp only
  exact (after_of_done hdone (by simp) _).trans ((if_neg (by simp [hgo])).trans ((if_neg hnot).trans
    (if_pos (by simp [State.tableBusy, hbusy]))))

/-- A resize that may start doubles every hashed descriptor of the table in the copies of the live and staged Accords. -/
theorem tblResize_of_idle (hresize : num ∉ s.tables.resizing) (hmac : num ∉ s.tables.macerating)
    (hmay : ∀ d ∈ s.hashedDescs num, s.mayDouble num d = true ∧ groupsUp s d) :
    ∃ u, s.tblResize num = .start (.resize num) u ∧ u.tables.resizing = s.tables.resizing ++ [num] ∧
      u.accord.copy = s.accord.copy.map (fun e => (e.1, doubledIn s.keptTags num e.1 e.2)) := by
  have hnot : ¬ (!hashed (s.tdesc (s.writeTag s.accord.live) num)) = true := by simp [hnamed]
  have hfit : ¬ (s.hashedDescs num).any (fun d => !s.mayDouble num d) = true := by
    simpa using fun d hd => (hmay d hd).1
  have hup : ¬ (s.hashedDescs num).any (fun d => (List.range (dBanks d)).any (fun k => s.inReset (37 + (dFirst d + k) / 8))) = true := by
    rw [List.any_eq_true]
    rintro ⟨d, hd, hreset⟩
    exact absurd ((groupsReset_of_up (hmay d hd).2).symm.trans hreset) Bool.false_ne_true
  obtain ⟨hacc, hres⟩ := begunAll_keeps s num (s.hashedDescs num)
  unfold State.tblResize
  dsimp only
  refine ⟨_, (after_of_done hdone (by simp) _).trans ((if_neg (by simp [hgo])).trans ((if_neg hnot).trans
    ((if_neg (by simp [State.tableBusy, hresize, hmac])).trans ((if_neg hfit).trans (if_neg hup))))), ?_, ?_⟩
  · exact congrArg (· ++ [num]) hres
  · have hkept : (s.begunAll num (s.hashedDescs num)).keptTags = s.keptTags := by rw [State.keptTags, hacc, State.keptTags]
    exact (map_doubledIn (s.begunAll num (s.hashedDescs num)) num).trans (by rw [hkept, hacc])

end

end Sys2Proof.Machine
end

section
/-! The table commands of the host together (R235, R236, R243, R249, R426, R427). -/

namespace Sys2Proof.Machine

open Sys2Proof.Claims

section
variable {s v : State} {x : Packet} {o : Origin} (hdone : after v [6])
include hdone

theorem starts_tblMacerate (hrun : runs s x 0x0308 none (plen 4 [(1, 3)]) o v) (hgo : v.accord.discarding = false) (hfew : fewer v x)
    (hnew : v.tdesc v.accord.staged.toNat (arg x none 0 1) ≠ v.tdesc v.accord.current.toNat (arg x none 0 1))
    (hmac : arg x none 0 1 ∉ v.tables.macerating) (hresize : arg x none 0 1 ∉ v.tables.resizing)
    (hgroups : groupsUp v (v.tdesc v.accord.staged.toNat (arg x none 0 1))) :
    starts (.tblMacerate x) s (toOf x 0x0308 o) (.macerate (arg x none 0 1))
      (· = { v with tables := { v.tables with macerating := v.tables.macerating ++ [arg x none 0 1] } }) :=
  starts_of_start hrun rfl hfew (tblMacerate_of_idle hdone hgo hnew hmac hresize hgroups) rfl

theorem starts_tblResize (hrun : runs s x 0x0309 none (plen 4 [(1, 3)]) o v) (hgo : v.accord.discarding = false) (hfew : fewer v x)
    (hnamed : hashed (v.tdesc (v.writeTag v.accord.live) (arg x none 0 1)) = true)
    (hresize : arg x none 0 1 ∉ v.tables.resizing) (hmac : arg x none 0 1 ∉ v.tables.macerating)
    (hmay : ∀ t ∈ v.keptTags, hashed (v.tdesc t (arg x none 0 1)) = true →
      v.mayDouble (arg x none 0 1) (v.tdesc t (arg x none 0 1)) = true ∧ groupsUp v (v.tdesc t (arg x none 0 1))) :
    starts (.tblResize x) s (toOf x 0x0309 o) (.resize (arg x none 0 1)) (fun u =>
      u.tables.resizing = v.tables.resizing ++ [arg x none 0 1] ∧ ∀ t ∈ v.keptTags, hashed (v.tdesc t (arg x none 0 1)) = true →
        dLog (u.tdesc t (arg x none 0 1)) = dLog (v.tdesc t (arg x none 0 1)) + 1) := by
  have hdescs : ∀ d ∈ v.hashedDescs (arg x none 0 1), v.mayDouble (arg x none 0 1) d = true ∧ groupsUp v d := fun d hd => by
    obtain ⟨⟨t, ht, rfl⟩, hhashed⟩ := mem_hashedDescs.1 hd
    exact hmay t ht hhashed
  obtain ⟨u, hstart, hres, hcopies⟩ := tblResize_of_idle hdone hgo hnamed hresize hmac hdescs
  refine starts_of_start hrun rfl hfew hstart ⟨hres, fun t ht hhashed => ?_⟩
  have hlog := dLog_of_mayDouble (hmay t ht hhashed).1
  rw [tdesc_of_doubledIn hcopies ht hhashed, dLog_doubled (by omega)]

end

theorem hashed_iff {d : ObjWord} : hashed d = true ↔ dKind d = 2 ∨ dKind d = 6 := by simp [hashed]

/-- Settles O46: each record by its own rule above, with LIVE set under the current Accord, and the two engines by what their start leaves. -/
theorem tableCommandsReachTheirAccord : Obligations.TableCommandsReachTheirAccord := by
  unfold Obligations.TableCommandsReachTheirAccord
  intro s v x o hdone num live body a d st groups
  refine ⟨fun hbit hlen hlive hprogram hgroups hm => ?_, fun hrun htag hlen => ?_, fun hrun hgo => ?_, fun hrun hgo => ?_⟩
  · have hrec : LiveRecord v x := ⟨hbit, hlen, hlive, hprogram, hgroups, hm⟩
    refine ⟨?_, fun hkind hwriters => ⟨?_, ?_⟩, ?_, ?_⟩
    · intro hkind hone hrun k off n hzero hbank hoff hn hleast hmost hrows
      exact replies_tblInsert_direct hdone hrec rfl hkind hone hrun
        (recordOk_of_direct_insert hkind hzero hbank hoff hn hleast hmost hrows)
    · intro w i k hrun hbody key hunseen hroom
      obtain ⟨u, hexec, hplaced⟩ := replies_tblInsert_room hdone hrec rfl hkind hwriters hbody hrun hunseen hroom
      exact ⟨u, hexec, congrArg TStruct.entries hplaced⟩
    · intro hrun hbody seen
      refine ⟨fun hunseen => ?_, fun e hone hown => ?_⟩
      · obtain ⟨u, hexec, hsame⟩ := replies_tblDelete_unseen hdone hrec rfl hkind hwriters hrun hbody hunseen
        exact ⟨u, hexec, by rw [hsame]⟩
      · obtain ⟨u, hexec, hdrop⟩ := replies_tblDelete_own hdone hrec rfl hkind hwriters hrun hbody hone hown
        refine ⟨u, hexec, fun z hz hplace => ?_⟩
        rw [hdrop] at hz
        simpa [hplace] using (List.mem_filter.1 hz).2
    · exact fun hkind hwriters hbody hrun => replies_tblInsert_unwritten hdone hrec rfl hkind hwriters hbody hrun
    · exact fun hkind hrun => replies_tblDelete_direct hdone hrec rfl hkind hrun
  · intro d st seen hgroups hbad
    refine ⟨fun hdead => replies_tblLookup_dead hdone hrun htag hlen hgroups hdead, fun hrank hkind hkey => ?_⟩
    exact ⟨fun e he hall hshort => replies_tblLookup_found hdone hrun htag hlen hgroups hbad hrank hkind hkey he hall hshort,
      fun hnone hshort => replies_tblLookup_missed hdone hrun htag hlen hgroups hbad hrank hkind hkey hnone hshort⟩
  · intro n
    exact ⟨fun hsame => replies_of_done hrun rfl (tblMacerate_of_same hdone hgo hsame) rfl,
      fun hnew hbusy => replies_of_done hrun rfl (tblMacerate_of_macerating hdone hgo hnew hbusy) rfl,
      fun hnew hmac hresize hgroups hfew => starts_tblMacerate hdone hrun hgo hfew hnew hmac hresize hgroups⟩
  · intro hashed' named
    have hnamed : hashed (v.tdesc (v.writeTag v.accord.live) num) = true ↔ hashed' named := by
      have hsame : v.tdesc (v.writeTag v.accord.live) num = named := apply_ite (v.tdesc · num) _ _ _
      rw [hsame, hashed_iff]
    refine ⟨fun hnot => ?_, fun hhash hbusy => ?_, fun hhash hresize hmac hfew hmay => ?_⟩
    · exact replies_of_done hrun rfl (tblResize_of_unhashed hdone hgo (Bool.eq_false_iff.2 (mt hnamed.1 hnot))) rfl
    · exact replies_of_done hrun rfl (tblResize_of_resizing hdone hgo (hnamed.2 hhash) hbusy) rfl
    · obtain ⟨u, hexec, hres, hlog⟩ := starts_tblResize hdone hrun hgo hfew (hnamed.2 hhash) hresize hmac
        fun t ht hhashed => hmay t ht (hashed_iff.1 hhashed)
      exact ⟨u, hexec, hres, fun t ht hhashed => hlog t ht (hashed_iff.2 hhashed)⟩

end Sys2Proof.Machine
end
